-- ==== Sys2Proof/Word.lean ====
section
/-!
DEFINITION. The word and byte types of the register fabric, and the sparse map in canonical form that holds every sparse part of
the state: a list of key and value pairs, keys strictly rising.
-/
namespace Sys2Proof

/-- A register (R54). -/
abbrev Word := BitVec 32
/-- One byte of a table or of a message (R11). -/
abbrev Byte := BitVec 8

/-- A sparse map from numbers. What an unlisted key stands for is said where the map is read. -/
structure SMap (α : Type) where
  list : List (Nat × α) := []
deriving DecidableEq, Repr

end Sys2Proof
end

