-- ==== Sys2Proof/Config.lean ====
section
/-!
DEFINITION. What one device fixes at test or by its board, and the free values: constants with no body, so that no proof can lean on a
value the spec does not give. Byte strings stand as little-endian numbers, byte 0 lowest.
-/
namespace Sys2Proof.Config

/-- The 64-bit serial number fused at test (R700, Table 6.2). -/
opaque serial : BitVec 64
/-- The 32-bit factory key fused at test (R689). -/
opaque factoryKey : BitVec 32

/-- The eight ASCII bytes of FR for a firmware version (Table 6.2). -/
opaque versionText (version : Nat) : Nat
/-- The 32-byte Ed25519 public key fused at test that firmware images are signed under (R668). -/
opaque fusedKey : Nat
/-- A free value: what the spec does not give, by the number of free values drawn before it. -/
opaque free (n : Nat) : Nat

end Sys2Proof.Config
end

