-- ==== Sys2Proof/Syntax/Types.lean ====
section
/-!
DEFINITION. The types of the commands' operands: the blocks and pages of the register space, and what the world outside sends (frames,
packets, connection requests, drive completions, partner frames, pins).
-/
namespace Sys2Proof

/-- The blocks of Table 1.2, and the DEV page. -/
inductive Blk
  | dev | line | xprt | gard | cmdq | regn | tmgr | vat | cell | jrnl | cmpr | plce | strp | drvp | bayp | pair | mgmt
deriving DecidableEq, Repr

/-- A page: a block and an instance (R24, R50, R51). -/
structure Page where
  blk : Blk
  inst : Nat
deriving DecidableEq, Repr

/-- The kinds of page, by what registers they hold (Table 2.2 and the register tables). -/
inductive PageType
  | dev | grp0 | grp | lane | xprt | gard0 | gard1 | gard2 | cmdq | regn | tmgr | vat | cell | jrnl | cmpr | plce
  | pool | strpCommon | drvp | bayp | pair | mgmt0 | mgmt1 | mgmt2 | mgmt3
deriving DecidableEq, Repr

/-- Who accesses the register fabric (R55, R85): the management endpoint or a Rennet core. -/
inductive Requester
  | mgmt | core
deriving DecidableEq, Repr

/-- The base address registers of the endpoint (R50, R52, R699). -/
inductive Bar
  | bar0 | bar2 | bar4
deriving DecidableEq, Repr

/-- Bytes: how many, and their little-endian value (byte 0 lowest). -/
structure Blob where
  len : Nat
  val : Nat
deriving DecidableEq, Repr

/-- A policer colour (R322). -/
inductive Colour
  | green | yellow | red
deriving DecidableEq, Repr

/-! ### Packets -/

/-- The seal trailer of a packet (Table 5.5). -/
structure SealTrailer where
  phase : Bool
  ctr : Nat
  tag : Nat
deriving DecidableEq, Repr

/-- What an Acknowledge packet says (Table 4.1, opcode 0x11). -/
inductive Aeth
  | ack | seqNak | invalidNak | accessNak | opNak | rnr (timer : Nat)
deriving DecidableEq, Repr

/-- A RoCEv2 packet as it stands on the wire, with the headers its opcode has. PRESUMED (log entry 25): the BTH of IBA, whose byte 1
holds SE, M, PadCnt and TVer. -/
structure Packet where
  icrcOk : Bool
  opcode : Nat
  qpn : Nat
  psn : Nat
  ackReq : Bool := false
  /-- RETH: virtual address, R_Key, DMA length. -/
  va : Nat := 0
  rkey : Nat := 0
  dmaLen : Nat := 0
  imm : Nat := 0
  aeth : Aeth := .ack
  msn : Nat := 0
  payload : Blob := ⟨0, 0⟩
  /-- BTH byte 1 and P_Key, the credit bits of an ACK, and the pad bytes that follow the payload. -/
  bth1 : Nat := 0x40
  pkey : Nat := 0xFFFF
  credit : Nat := 0x1F
  pad : Nat := 0
  trailer : Option SealTrailer := none
deriving DecidableEq, Repr

/-- A packet that XPRT has built: its PSN, how many PSNs it covers, and its headers. -/
structure OutPkt where
  opcode : Nat
  psn : Nat
  span : Nat := 1
  ackReq : Bool := false
  va : Nat := 0
  rkey : Nat := 0
  dmaLen : Nat := 0
  imm : Nat := 0
  aeth : Aeth := .ack
  msn : Nat := 0
  payload : Blob := ⟨0, 0⟩
  /-- The pad bytes that follow the payload: zeros, or sealed ones. -/
  pad : Nat := 0
  /-- What the packet is for: the command slot whose response it is, the subscription whose record it carries, the key whose region
  read it ends (R182, R244, R308). -/
  slot : Option Nat := none
  sub : Option Nat := none
  key : Option Nat := none
deriving DecidableEq, Repr

/-- How a packet reached XPRT: Ethernet port, matched tenant port, source MAC, congestion as LINE reports it (R110), the frame's
colour, and the cell pool unit that holds it. -/
structure RxMeta where
  port : Nat
  tport : Nat
  srcMac : Nat
  ce : Bool := false
  colour : Colour := .green
  unit : Option Nat := none
deriving DecidableEq, Repr

/-- What a unit of the cell pool is (Tables 1.3, 1.4 and 9.1): its handling on eviction or error differs (R379, R385), and the block that it
crosses to waits for it. -/
inductive UnitKind
  | rxPacket (ctx psn : Nat)
  | writeData (slot : Nat)
  | readData (slot job part : Nat)
  | jrnlRead (slot : Nat)
  | bgRead (bay tag : Nat)
  | reserve (slot : Nat)
  | chain (lane : Nat)
  | mergeRead (job part : Nat)
  | mapRead (page : Nat)
  | handOff (job : Nat)
  | stored (job : Nat)
  | strip (pool seg stripe role : Nat)
  | mapCopy (page copy gen : Nat)
  | repairRow (pool stripe role row : Nat)
  | result (slot : Nat)
  /-- Mirrored write data that JRNL has placed and PAIR has not taken. -/
  | mirrorCopy (unit : Nat)
  | egress (ctx psn : Nat)
  | response (ctx psn : Nat)
  /-- A strip of a stripe that a rebuild writes at a position, or its copy of a map slot. -/
  | rebuilt (pool : Nat) (map : Bool) (what pos : Nat)
  /-- A read of a background engine, 0 the Press, 1 the Turner, 2 a rebuild, 3 the copy of a map slot: its pool, what it reads, and the part
  of it. -/
  | background (engine pool what part : Nat)
  | other
deriving DecidableEq, Repr

/-- PTP messages that a slave clock of the default profile tells apart (R113). -/
inductive PtpKind
  | sync (twoStep : Bool) | followUp | delayReq | delayResp | otherEvent | otherGeneral
deriving DecidableEq, Repr

/-- A PTP message: domain, kind, sequence number, its time stamp in nanoseconds, its correction in nanoseconds. -/
structure PtpMsg where
  domain : Nat
  kind : PtpKind
  seq : Nat := 0
  time : Nat := 0
  corr : Int := 0
deriving DecidableEq, Repr

/-- Event messages are timestamped, general messages are not (R114). -/
def PtpMsg.event (m : PtpMsg) : Bool := match m.kind with
  | .sync _ => true
  | .delayReq => true
  | .otherEvent => true
  | .followUp => false
  | .delayResp => false
  | .otherGeneral => false

/-- What a UDP datagram of a frame carries. -/
inductive UdpBody
  | roce (p : Packet)
  | ptp (m : PtpMsg)
  | other
deriving DecidableEq, Repr

/-- What an IP packet carries. -/
inductive L4
  | udp (dport : Nat) (body : UdpBody)
  | echoRequest
  | neighbourSol (target : Nat)
  | other
deriving DecidableEq, Repr

/-- What a frame carries above its Ethernet header, by EtherType (Table 3.5). A PFC frame carries its priority enable vector and its
eight pause times in quanta, priority 0 in the lowest 16 bits. -/
inductive L3
  | arp (request : Bool) (target : Nat)
  | macControl (pfc : Option (Nat × Nat))
  | ptp (m : PtpMsg)
  | ipv4 (headerOk : Bool) (dst dscp ecn : Nat) (body : L4)
  | ipv6 (headerOk : Bool) (dst dscp ecn : Nat) (body : L4)
  | other
deriving DecidableEq, Repr

/-- A received Ethernet frame. -/
structure Frame where
  fcsOk : Bool
  len : Nat
  dst : Nat
  src : Nat
  vid : Option Nat := none
  pcp : Nat := 0
  body : L3
deriving DecidableEq, Repr

/-- The Ethernet header of a frame that leaves: its addresses, and VLAN identifier and PCP of a tagged one. -/
structure EthHdr where
  dst : Nat
  src : Nat
  tag : Option (Nat × Nat) := none
deriving DecidableEq, Repr

/-- The headers of a RoCEv2 packet that leaves (R103, R104, R110): Ethernet, IP with its DSCP, ECN field and TTL or hop limit, the source
UDP port, and whether the UDP checksum is computed (over IPv6) or 0. -/
structure NetHdr where
  eth : EthHdr
  ipv6 : Bool
  srcIp : Nat
  dstIp : Nat
  dscp : Nat
  ecn : Nat
  ttl : Nat := 64
  sport : Nat
  udpSum : Bool
deriving DecidableEq, Repr

/-- The PHY type that a port runs or advertises (Table 3.2): lanes, lane rate in Mbit/s, MEDIA. -/
structure Phy where
  lanes : Nat
  rate : Nat
  media : Nat
deriving DecidableEq, Repr

/-- A connection request with its private data (Table 4.2; R133, R140, R141). -/
structure CmReq where
  port : Nat
  tport : Nat
  srcMac : Nat
  ipv6 : Bool
  remoteIp : Nat
  hostQpn : Nat
  commId : Nat
  startPsn : Nat
  mtu : Nat
  initDepth : Nat
  respRes : Nat
  priv : Blob
deriving DecidableEq, Repr

/-- The errors that the endpoint reports (Table 19.3). -/
inductive AerErr
  | receiverError | badTlp | badDllp | replayRollover | replayTimeout | advisoryNonFatal | correctedInternal | headerLogOverflow
  | dlProtocol | poisonedTlp | completionTimeout | unexpectedCompletion | receiverOverflow | malformedTlp | unsupportedRequest
  | uncorrectableInternal
deriving DecidableEq, Repr

/-- A management endpoint mailbox request (Table 19.5). -/
structure MboxReq where
  version : Nat
  opcode : Nat
  rqId : Nat
  dataAddr : Nat
  dataLen : Nat
  slotBay : Nat
  smbAddr : Nat
  wlen : Nat
  rlen : Nat
  offset : Nat
  wdata : Nat
  reservedZero : Bool
deriving DecidableEq, Repr

/-- The body of an event record (Table 19.6): TYPE, PTP time, payload bytes 16 to 31. -/
structure EvBody where
  type : Nat
  time : Nat
  payload : Nat
deriving DecidableEq, Repr

/-! ### The storage back end -/

/-- A record of the partner's journal by the fields of its header (Table 10.1), with its data. -/
structure RestRec where
  seq : Nat
  type : Nat
  poison : Bool := false
  sealed : Bool := false
  solo : Bool := false
  volume : Nat
  len : Nat
  offset : Nat
  tenant : Nat
  keyIndex : Nat := 0
  slot : Nat := 0
  data : Blob := ⟨0, 0⟩
deriving DecidableEq, Repr

/-- A record of the save image as it is read (R425): its header (Table 10.1), its data, where the header stands in the image, and both as
P repairs them, where P can. -/
structure ImageRec where
  head : Nat
  data : Blob
  pos : Nat
  fixed : Option (Nat × Blob) := none
deriving DecidableEq, Repr

/-- A region page of the save image as it is read (R425): its address in the region space, its bytes, and its bytes as P repairs them, where P
can; or, of the region image in a pool, a stored unit. -/
structure ImagePage where
  addr : Nat
  data : Nat
  fixed : Option Nat := none
deriving DecidableEq, Repr

/-- How a register write comes: its packet is poisoned (R703); the amount of the event that a written counter meets (R61). -/
structure WriteWay where
  poisoned : Bool := false
  met : Nat := 0
deriving DecidableEq, Repr

/-- A register of BAR0, or the two of a 64-bit one. -/
structure RegAt where
  addr : Nat
  wide : Bool
deriving DecidableEq, Repr

/-- What the FEC of a lane found in one second (R117): the symbols it corrected, the code words it could not. -/
structure FecSecond where
  symbols : Nat
  words : Nat
deriving DecidableEq, Repr

/-- What the Press found in the summaries of its victim (R496): those that passed only when read again from parity, by stripe and number of
units; how many failed that too. -/
structure SummaryScan where
  mended : List (Nat × Nat)
  lost : Nat
deriving DecidableEq, Repr

/-- Where a stored unit that arrives at PLCE comes from: a job of CMPR, or a live unit of the Press's victim (R463, R496). -/
inductive PackSrc
  | job (n : Nat)
  | press (pool volume lun : Nat)
deriving DecidableEq, Repr

/-- A label as a bay holds it (Table 13.3); its member table by position: bay, state, START. -/
structure PoolLabel where
  poolId : Nat
  gen : Nat
  role : Nat
  position : Nat
  prot : Nat
  d : Nat
  w : Nat
  mapGib : Nat
  sliceGib : Nat
  m : Nat
  open0 : Nat
  open1 : Nat
  cursor : Nat
  oslPos : List Nat
  members : List (Nat × Nat × Nat)
deriving DecidableEq, Repr

/-- What an import reads from the pool (R527, R542): the open-stripe log, if a copy is valid: OPEN0 and its WRITTEN bits, OPEN1 and its
WRITTEN bits; the map pages of the pool: volume, page, slot, WGEN, MAX_SEQ; their entries: volume, logical unit, entry; the copies of
pages whose WGEN is below the highest (R483): volume, page, copy; the stripes of the two open segments without a WRITTEN bit that pass the
test of R543; the loss list. -/
structure ImportIn where
  osl : Option (Nat × Nat × Nat × Nat) := none
  pages : List (Nat × Nat × Nat × Nat × Nat) := []
  entries : List (Nat × Nat × Nat) := []
  stale : List (Nat × Nat × Nat) := []
  losses : List (Nat × Nat × Nat × Nat × Nat × Bool) := []
  kept0 : Nat := 0
  kept1 : Nat := 0
deriving DecidableEq, Repr

/-- What a drive's bring-up finds (Table 14.2): the UNFIT code of the first step that failed, 0 for none; its identity entry (R585),
capacity, LBA size, queues granted, a write cache that refused to be turned off, power states. -/
structure DriveInfo where
  unfit : Nat := 0
  ident : Nat := 0
  capacity : Nat := 0
  lba4k : Bool := false
  queues : Nat := 0
  fua : Bool := false
  npss : Nat := 0
  opStates : Nat := 0
  /-- The label that the drive holds, if one is valid (R507). -/
  label : Option PoolLabel := none
deriving DecidableEq, Repr

/-- What a bay's sense inputs show in a control tick: mV, and mA through the sense resistor (R588, R590). -/
structure PwrSample where
  vin12 : Nat
  vout12 : Nat
  vin3 : Nat
  vout3 : Nat
  i12 : Nat
deriving DecidableEq, Repr

/-! ### The partner -/

/-- The header of a frame of TYPE 1, 4 or 7 (Table 16.3): lane group, LSEQ, WIN_EPOCH, WINDOW, ADDR, LEN. -/
structure PeerHdr where
  group : Nat
  lseq : Nat
  winEpoch : Nat := 0
  window : Nat := 255
  addr : Nat := 0
  len : Nat
deriving DecidableEq, Repr

/-- What a windowed frame carries (R633): a journal record's header, data of a record, bytes of the region space, an entry of a live
table. -/
inductive PeerData
  | recHead (head : RestRec)
  | recData (data : Blob)
  | region (data : Blob)
  | table (page : Page) (table index value : Nat)
deriving DecidableEq, Repr

/-- What a TYPE 4 record says (Table 16.4). -/
inductive PeerRec
  /-- An entry of a live table of a block. -/
  | table (page : Page) (table index value : Nat)
  /-- A subscription's entry (Table 7.6), 0 where it has ended; a queued record of it, with the connection and PSN of its write. -/
  | subscription (index entry : Nat)
  | notification (index nseq imm record conn psn : Nat)
  /-- The whole active set under its epoch: register words by active-set BAR0 offset, table entries by page, table and index; what is not
  listed has its reset value. -/
  | config (epoch : Nat) (words : List (Nat × BitVec 32)) (entries : List (Page × Nat × Nat × Nat))
  | horizon (ctx epsn msn : Nat)
  /-- A slot leaves FREE; it commits with a status: SCT, SC, DNR, dword 0, dword 1; its response's PSN; the last PSN sent. -/
  | command (slot sqe conn capsulePsn : Nat)
  | commit (slot sct sc : Nat) (dnr : Bool) (dw0 dw1 : Nat)
  | response (slot psn : Nat)
  | lastPsn (ctx psn : Nat)
  /-- A journal record's commit and release, by its offset. -/
  | commitNotice (place seq : Nat)
  | releaseNotice (place : Nat)
  /-- Map entries of a page by logical unit (Table 12.3), with WGEN and MAX_SEQ of the page; the page's slot in the map region, with those
  of its copies there, and whether the page has changed since; a segment: its state, stream, written stripes, padding and closing time; a
  pool: its label, the generation of its log, its loss entries (Table 13.16), the need set of a position. -/
  | mapEntries (volume wgen maxSeq : Nat) (entries : List (Nat × Nat))
  | directory (volume page slot wgen maxSeq : Nat) (dirty : Bool)
  | segment (pool seg state stream written pad closeS : Nat)
  | poolState (pool : Nat) (label : PoolLabel) (logGen : Nat) (losses : List (Nat × Nat × Nat × Nat × Nat × Bool))
  | needSet (pool position : Nat) (segs : List Nat)
  /-- A closed generation of the meter ring: MINUTE, flags, duration; its tenants' fields (Table 8.4). -/
  | meter (gen minute flags durationMs : Nat) (accs : List (Nat × List Nat))
  | meterAck (value : Nat)
deriving DecidableEq, Repr

/-- What a checkpoint carries (R637): bytes 0 to 191 of a context; a key slot's receive and send halves: key, epoch, ready; the open
minute's accumulators. -/
inductive PeerCkpt
  | ctx (index bytes : Nat)
  | keys (index : Nat) (slot : Bool) (rxKey rxEpoch : Nat) (rxReady : Bool) (fails txKey txEpoch : Nat) (txReady : Bool) (prk : Nat)
  | accumulators (minute startSec startHalf : Nat) (accs : List (Nat × List Nat))
deriving DecidableEq, Repr

/-- What a synchronisation frame carries (R762). -/
inductive PeerSync
  | windowed (data : PeerData)
  | plain (item : PeerRec)
deriving DecidableEq, Repr

end Sys2Proof
end

