-- ==== Sys2Proof/Syntax.lean ====
section
/-!
DEFINITION. The commands of the block: one constructor for each row of spec/opcode_table.json, in the table's order. Each constructor
carries what the world outside, or the engine whose turn it is, brings to the step.
-/
namespace Sys2Proof

inductive Instr
  | regWrite (rq : Requester) (bar : Bar) (addr : Nat) (wide : Bool) (value : BitVec 64) (way : WriteWay)
  | undefinedAccess (rq : Requester) (addr bytes : Nat) (isWrite : Bool)
  | woFieldRead (rq : Requester) (addr : Nat)
  | reg64LowerRead (rq : Requester) (bar : Bar) (addr : Nat)
  | coreWriteRetry (addr : RegAt) (first second : BitVec 64)
  | accErrRead (rq : Requester)
  | missqStatRead (rq : Requester)
  | cmdqMaxuseRead (rq : Requester)
  | vatMaxqRead (rq : Requester)
  | cellMinfreeRead (rq : Requester)
  | pairCkptAgeRead (rq : Requester)
  | swapGo
  | swapRevert
  | swapSync
  | swapCtlMulti (go revert sync : Bool)
  | swapReject (page : Page)
  | swapCommit
  | safePointTimeout (page : Page)
  | syncComplete
  | pageEnable (page : Page) (value : BitVec 32)
  | pageDrain (page : Page) (value : BitVec 32)
  | pageSoftReset (page : Page) (value : BitVec 32)
  | pageRetire (page : Page) (value : BitVec 32)
  | pageStartComplete (page : Page) (bad : List Nat)
  | pageStartTimeout (page : Page)
  | pageDrainComplete (page : Page)
  | pageDrainTimeout (page : Page)
  | tblReadChunk (rq : Requester) (page : Page) (sel : Bool) (table : Nat)
  | tblWriteChunk (rq : Requester) (page : Page) (sel : Bool) (table : Nat)
  | tblClearEntry (rq : Requester) (page : Page) (sel : Bool) (table : Nat)
  | tblOpComplete (rq : Requester) (page : Page)
  | faultOccurrence (page : Page) (loc item : Nat)
  | faultForce (page : Page) (n : Nat) (value : BitVec 32)
  | faultStickyClear (page : Page) (n : Nat) (value meets : BitVec 32)
  | faultMaskWrite (page : Page) (n : Nat) (value meets : BitVec 32)
  | faultSevWrite (page : Page) (n : Nat) (value : BitVec 32)
  | factoryKeyWrite (value : BitVec 32)
  | counterClearAll (freeze : Bool)
  | counterFreezeAll (freeze : Bool)
  | rxFrame (port : Nat) (frame : Frame) (unit : Option Nat)
  | pfcXoffRefresh (port prio : Nat)
  | groupAnnounce (group : Nat)
  | portRestore (group slots : Nat)
  | laneLockLoss (lane : Nat)
  | laneSymThreshold (lane : Nat) (fec : FecSecond)
  | portLinkUp (port : Nat)
  | portTrainTimeout (port : Nat)
  | portNarrow (port : Nat)
  | narrowTimeout (port : Nat)
  | ppsEdge
  | ptpTodWrite (value : BitVec 32)
  | ptpTimeRead (rq : Requester)
  | ptpUpdate (offset slew : Int)
  | ptpHoldoverTimeout
  | ptpFreeTimeout
  | rxRequestPacket (rx : RxMeta) (pkt : Packet)
  | ackDelayExpiry (ctx : Nat)
  | rxAck (rx : RxMeta) (pkt : Packet)
  | rxSeqNak (rx : RxMeta) (pkt : Packet)
  | rxRnrNak (rx : RxMeta) (pkt : Packet)
  | rxFatalNak (rx : RxMeta) (pkt : Packet)
  | rxReadResponse (rx : RxMeta) (pkt : Packet)
  | rxCnp (rx : RxMeta) (pkt : Packet)
  | rateIncrease (ctx : Nat)
  | ackTimeout (ctx : Nat)
  | rnrTimerExpiry (ctx : Nat)
  | xprtSend (ctx : Nat)
  | rekeyLoad (ctx : Nat) (rxHalf : Bool)
  | ctxFetchComplete (ctx : Nat) (late ue : Bool)
  | cmReq (req : CmReq)
  | cmReqAnswer (devPriv sport pick startPsn : Nat)
  | cmRtu (ctx : Nat)
  | cmRej (ctx : Nat)
  | cmDreq (ctx : Nat)
  | cmDrep (ctx : Nat)
  | cmUnsupported (malformed : Bool)
  | repRetryTimeout (ctx : Nat)
  | dreqRetryTimeout (ctx : Nat)
  | flushComplete (ctx : Nat)
  | timewaitExpiry (ctx : Nat)
  | xprtClose (value : BitVec 32)
  | keyFetchComplete (index : Nat) (ue : Bool)
  | keyRetire (index : Nat)
  | keyChangeConfirm
  | keyQuietExpiry (index : Nat)
  | capsuleRx (ctx : Nat)
  | slotAssign
  | cmdAdmit (slot : Nat)
  | cmdCommit (slot : Nat)
  | responseAcked (slot : Nat)
  | connect (slot : Nat)
  | propertySet (slot : Nat)
  | propertyGet (slot : Nat)
  | authenticationSend (slot nonce : Nat)
  | authenticationReceive (slot : Nat)
  | getLogPage (slot : Nat)
  | identify (slot : Nat)
  | abort (slot : Nat)
  | setFeatures (slot : Nat)
  | getFeatures (slot : Nat)
  | asyncEventRequest (slot : Nat)
  | keepAlive (slot : Nat)
  | flush (slot : Nat)
  | write (slot : Nat)
  | read (slot : Nat)
  | writeZeroes (slot : Nat)
  | datasetManagement (slot : Nat)
  | katoExpiry (ctrl : Nat)
  | fwHoldEnd
  | fwHoldTimeout
  | regionLocalPlaced (id : Nat) (ue : Bool)
  | regionReadExecute (id : Nat) (ue : Bool)
  | setPolicy (ctx : Nat)
  | subscribe (ctx : Nat)
  | unsubscribe (ctx : Nat)
  | placeFlush (ctx : Nat)
  | controlMsgInvalid (ctx : Nat)
  | notifySend (index : Nat)
  | notifyAcked (index : Nat)
  | regionRetire (index : Nat)
  | regionZeroComplete (index : Nat)
  | regionTableConfirm
  | regnMirrorLate (id : Nat)
  | destageUnit (unit : Nat)
  | destageLag
  | policerRefill
  | rootSelect (root : Nat)
  | sampleTick
  | meterSecondTick
  | meterMinuteClose
  | meterAckWrite (value : BitVec 32)
  | vatCellTime
  | unitEnqueue (input : Nat) (outs : List Nat) (cls first : Nat)
  | cellAllocRequest (port cls cells : Nat) (kind : UnitKind) (network : Option (Nat × Nat)) (evictable : Bool)
  | cellAllocRetry
  | cellFree (ptr owner port : Nat)
  | cellSramError (cell : Nat) (ue : Bool)
  | cellBankRetire (value : BitVec 32)
  | jrnlRecordOpen (slot : Nat)
  | jrnlLocalPlaced (rec : Nat) (ue : Bool)
  | jrnlMirrorLate (rec : Nat)
  | jrnlHandoff (volume lun : Nat)
  | powerFailAssert
  | powerFailGlitch
  | powerFailRecognised
  | saveQuiesceEnd
  | saveWriteEnd
  | saveMemberFail (bay : Nat)
  | saveCommitEnd
  | jrnlRestoreBegin (partner regionImage : Bool) (headers : List (Nat × Nat))
  /-- `crcs`: the CRC-32C that the image's page index holds for each page (R425). -/
  | jrnlRestoreComplete (recs : List ImageRec) (regions : List (Nat × Nat)) (pages : List ImagePage) (crcs : List Nat)
  | sealedRecordOpen (rec : Nat) (ue : Bool)
  | compressStart
  | chainAbandonTimeout (lane : Nat)
  | compressComplete (lane : Nat) (body : Blob) (poison : Bool)
  | decompressStart
  | decompressComplete (lane : Nat)
  | laneParityError (lane : Nat) (corrected : Bool)
  | laneSelftest (fails : Bool)
  | cmprLaneRetire (value : BitVec 32)
  | unitPack (src : PackSrc)
  | stripeFillTimeout (pool stream : Nat)
  | stripWriteComplete
  | segmentWaitStall (job : Nat)
  | mapPageReadComplete (page : Nat) (bad : Bool)
  | mapWbTimer (page : Nat)
  | mapWbComplete (page : Nat)
  | segmentFree (pool seg : Nat)
  | pressSelect (pool : Nat) (scan : SummaryScan)
  | pressRelocateCommit
  | volumeDiscard (value : BitVec 32)
  | volumeDiscardComplete
  | poolCreate (pool : Nat)
  | poolImport (pool : Nat)
  | poolExport (pool : Nat)
  | poolFailMember (pool bay : Nat)
  | poolClearLabel (pool bay : Nat)
  | importPhaseComplete (pool : Nat) (found : ImportIn)
  | rebuildStripe (pool : Nat) (bad : List (Nat × Nat))
  | rebuildCheckpoint (pool : Nat)
  | lossHandle (pool index : Nat)
  | turnerRow (pool : Nat) (mended failed : List (Nat × Nat))
  | drivePresenceDebounce (bay : Nat) (present : Bool)
  | perstRelease (bay : Nat)
  | driveLinkUp (bay gen width : Nat) (flit slow : Bool)
  | driveBringup (bay : Nat) (info : DriveInfo)
  | driveLinkDown (bay : Nat)
  | driveRequestIssue (bay : Nat)
  | driveCompletion (bay cid sct sc : Nat) (dnr : Bool)
  | driveDmaWrite (bay addr : Nat) (data : Blob)
  | driveDmaRead (bay addr bytes : Nat)
  | driveCmdTimeout (bay tag : Nat)
  | tagQuarantineEnd (bay tag : Nat)
  | driveCto (bay tag : Nat)
  | bayReset1 (bay : Nat)
  | bayReset2 (bay : Nat)
  | driveResetComplete (bay : Nat) (info : DriveInfo)
  | reset1Timeout (bay : Nat)
  | reset2Timeout (bay : Nat)
  | driveIdleTimeout (bay : Nat)
  | drivePsComplete (bay : Nat)
  | driveAerMessage (bay kind detail tag hdr : Nat)
  | bayStartGrant
  | auxGood (bay : Nat) (sample : PwrSample)
  | auxTimeout (bay : Nat)
  | faultTimerExpiry (bay ticks mj : Nat) (sample : PwrSample)
  | shortTrip (bay ticks mj : Nat) (sample : PwrSample)
  | powerGood (bay ticks mj : Nat) (sample : PwrSample)
  | droopFault (bay : Nat) (sample : PwrSample)
  | auxDroopFault (bay : Nat) (sample : PwrSample)
  | pgStable (bay : Nat)
  | retryIntervalExpiry (bay : Nat)
  | gate3OffDelay (bay : Nat)
  | damageDetectorArm (bay : Nat)
  | damageTrip (bay : Nat) (sample : PwrSample)
  | heartbeatTimeout
  | ownInChange (asserted : Bool)
  | ownClaimAssert
  | ownershipGrant
  | claimBackoffEnd
  | discoverTimeout
  | fenceInAssert
  | fenceInDeassert
  | unfence
  | forceClaim
  | release
  | britosLinkUp (version : Nat) (lanes : List Nat)
  | britosLinkLoss
  | britosLaneLockLoss (lane : Nat)
  | mirrorWriteRx (hdr : PeerHdr) (data : PeerData)
  | mirrorConfirmRx (group lseq : Nat)
  | checkpointRx (hdr : PeerHdr) (data : PeerCkpt)
  | recordRx (hdr : PeerHdr) (record : PeerRec)
  | healthRx (record : Nat)
  | linkAckRx (group lack : Nat) (resend : Bool)
  | syncDataRx (hdr : PeerHdr) (data : PeerSync)
  | handoverRx
  | britosFrameCrcErr
  | syncCompletePair
  | checkpointRound
  | healthRecordWrite
  | takeoverStageEnd
  | cultureCheck (fails drives : Nat)
  | policyLoopTick
  | retirementEval
  | pcRetireComplete (pc : Nat)
  | adaptTick
  | thermalTick (low high tj : Nat)
  | fwActivate (value : BitVec 32)
  | fwValidateComplete
  | fwStartComplete (ok : Bool)
  | epLinkDown
  | epLinkUp
  | epPerst (asserted : Bool)
  | epFlr
  | epDstateChange (d3hot pmeEn clearPme : Bool)
  | msixUnmask (vector : Option Nat)
  | epDmaTimeout (tag : Nat)
  | mboxEnable (value : BitVec 32)
  | mboxTailWrite (value : BitVec 32)
  | mboxFetchComplete (req : MboxReq) (err : Bool)
  | getInfo
  | slotWrite (data : Blob) (dmaErr flashErr : Bool)
  | slotRead
  | smbusXfer (ack : Bool) (rdata : Nat)
  | mboxComplete
  | eventRecordPost (type payload : Nat)
  | evrHeadWrite (ring : Nat) (value : BitVec 32)
  | evrEnable (ring : Nat) (value : BitVec 32)
  | vauxRise
  | vauxFall
  | porAssert
  | porRelease (slotHigh testMode gradeE : Bool)
  | thermalTrip
  | pfcPauseExpiry (port prio : Nat)
  | hbWatchdogExpiry
  | britosLaneUp (lane : Nat)
  | damageCheckPass (bay : Nat)
  | nonOwnerSenseChange (bay : Nat) (sample : PwrSample)
  | busMasterEnable (on : Bool)
  | msixAddressWrite (vector : Nat) (addr : BitVec 64) (data : BitVec 32)
  | pcieUnexpectedCompletion (bay : Option Nat) (tag : Nat)
  | pcieTagQuarantineEnd (bay : Option Nat) (tag : Nat)
  | epTlpError (err : AerErr) (hdr : Nat)
deriving DecidableEq, Repr

end Sys2Proof
end

