-- ==== Sys2Proof/Machine/RegMap.lean ====
section
/-!
DEFINITION. The register map of every page, written out from the register tables of spec/ (Tables 2.3 to 2.10, 2.15, 3.7 to 3.9,
4.11, 5.9, 6.11, 7.9, 8.9, 9.6, 9.7, 10.7, 11.4, 12.7, 13.13, 14.7, 15.5, 16.10, 17.7, 17.8, 18.6, 19.8): offset, bits, access code,
reset value, the encodings a field lists and the range it states. `F.<REGISTER>_<FIELD>` names each field's place.
-/
namespace Sys2Proof.Machine

/-- The place of a field: page offset of its register, lowest bit, width, and the distance to the next register of an array. -/
structure Fld where
  off : Nat
  lo : Nat
  w : Nat
  stride : Nat
deriving DecidableEq, Repr

/-- The field of the n-th register of an array. -/
def Fld.idx (x : Fld) (n : Nat) : Fld := ⟨x.off + n * x.stride, x.lo, x.w, x.stride⟩

/-- The access codes of Table 0.6 (R17). -/
inductive Access
  | ro | rw | rws | w1c | rc | wo
deriving DecidableEq, Repr

/-- What values a field may hold: every value, a list of encodings (R12, R14: code 0x0001), a stated range (R14: code 0x0002),
or sixteen two-bit fields of which 0b11 is reserved. -/
inductive Valid
  | any
  | enum (values : List Nat)
  | range (lo hi : Nat)
  | pairs
deriving DecidableEq, Repr

structure RegField where
  name : String
  lo : Nat
  w : Nat
  acc : Access
  reset : List Nat
  valid : Valid
deriving DecidableEq, Repr

/-- One register or array of registers. `keep` is true where the register reports the content of a live table or of HBM
state, or is not a block's own runtime state, so that SOFT_RESET leaves it (R71). -/
structure RegDef where
  name : String
  off : Nat
  stride : Nat
  count : Nat
  keep : Bool
  fields : List RegField
deriving DecidableEq, Repr

/-- Table 3.1: the encodings of `GRP_CFG.MODE`. -/
def grpModes : List Nat := [0, 1, 2, 3, 4, 5, 6, 8, 9, 10]

abbrev F.GRP_CFG_MAX_FRAME : Fld := ⟨0x1000, 16, 14, 4⟩
abbrev F.GRP_CFG_PFC_EN : Fld := ⟨0x1000, 8, 1, 4⟩
abbrev F.GRP_CFG_NARROW_EN : Fld := ⟨0x1000, 7, 1, 4⟩
abbrev F.GRP_CFG_AN_EN : Fld := ⟨0x1000, 6, 1, 4⟩
abbrev F.GRP_CFG_MEDIA : Fld := ⟨0x1000, 4, 2, 4⟩
abbrev F.GRP_CFG_MODE : Fld := ⟨0x1000, 0, 4, 4⟩
abbrev F.PORT_MAC_LO_MAC_LO : Fld := ⟨0x1010, 0, 32, 8⟩
abbrev F.PORT_MAC_HI_MAC_HI : Fld := ⟨0x1014, 0, 16, 8⟩
abbrev F.PFC_CFG_QUANTA : Fld := ⟨0x1040, 16, 16, 4⟩
abbrev F.PFC_CFG_PRIO_MASK : Fld := ⟨0x1040, 0, 8, 4⟩
abbrev F.PFC_THR_XON : Fld := ⟨0x1044, 16, 16, 4⟩
abbrev F.PFC_THR_XOFF : Fld := ⟨0x1044, 0, 16, 4⟩
abbrev F.ECN_CFG_ECT_TX : Fld := ⟨0x1050, 16, 2, 4⟩
abbrev F.ECN_CFG_MARK_THR : Fld := ⟨0x1050, 0, 16, 4⟩
abbrev F.GRP_STAT_PORT_WIDTH : Fld := ⟨0x0400, 16, 8, 4⟩
abbrev F.GRP_STAT_EIGHT : Fld := ⟨0x0400, 8, 1, 4⟩
abbrev F.GRP_STAT_NARROWED : Fld := ⟨0x0400, 4, 4, 4⟩
abbrev F.GRP_STAT_LINK_UP : Fld := ⟨0x0400, 0, 4, 4⟩
abbrev F.GRP_RT_RESTORE : Fld := ⟨0x0410, 1, 4, 4⟩
abbrev F.GRP_RT_ANNOUNCE : Fld := ⟨0x0410, 0, 1, 4⟩
abbrev F.PTP_CFG_DOMAIN : Fld := ⟨0x1060, 24, 8, 4⟩
abbrev F.PTP_CFG_PORT : Fld := ⟨0x1060, 18, 6, 4⟩
abbrev F.PTP_CFG_TRANSPORT : Fld := ⟨0x1060, 16, 2, 4⟩
abbrev F.PTP_CFG_SRC : Fld := ⟨0x1060, 14, 2, 4⟩
abbrev F.PTP_CFG_VLAN_EN : Fld := ⟨0x1060, 13, 1, 4⟩
abbrev F.PTP_CFG_VLAN_ID : Fld := ⟨0x1060, 0, 12, 4⟩
abbrev F.PTP_ADDR_ADDR : Fld := ⟨0x1070, 0, 32, 4⟩
abbrev F.PTP_TOD_SEC : Fld := ⟨0x0420, 0, 32, 4⟩
abbrev F.PTP_TOD_HI_SEC_HI : Fld := ⟨0x0424, 0, 16, 4⟩
abbrev F.PTP_TIME_NS_NS : Fld := ⟨0x0428, 0, 30, 4⟩
abbrev F.PTP_TIME_SEC_SEC : Fld := ⟨0x0430, 0, 32, 4⟩
abbrev F.PTP_TIME_SEC_HI_SEC_HI : Fld := ⟨0x0434, 0, 16, 4⟩
abbrev F.PTP_STAT_STEPS : Fld := ⟨0x0438, 16, 16, 4⟩
abbrev F.PTP_STAT_SYNC : Fld := ⟨0x0438, 0, 2, 4⟩
abbrev F.LANE_CFG_RETRAIN_WINDOW : Fld := ⟨0x1000, 16, 8, 4⟩
abbrev F.LANE_CFG_RETRAIN_LIMIT : Fld := ⟨0x1000, 8, 8, 4⟩
abbrev F.LANE_CFG_TX_PRESET : Fld := ⟨0x1000, 4, 4, 4⟩
abbrev F.LANE_CFG_TX_INVERT : Fld := ⟨0x1000, 1, 1, 4⟩
abbrev F.LANE_CFG_RX_INVERT : Fld := ⟨0x1000, 0, 1, 4⟩
abbrev F.LANE_ERR_CFG_SYM_THR : Fld := ⟨0x1004, 0, 24, 4⟩
abbrev F.LANE_STAT_RETRAINS : Fld := ⟨0x0400, 16, 8, 4⟩
abbrev F.LANE_STAT_PORT : Fld := ⟨0x0400, 8, 6, 4⟩
abbrev F.LANE_STAT_RATE : Fld := ⟨0x0400, 2, 2, 4⟩
abbrev F.LANE_STAT_TRAINING : Fld := ⟨0x0400, 1, 1, 4⟩
abbrev F.LANE_STAT_LOCK : Fld := ⟨0x0400, 0, 1, 4⟩
abbrev F.XPRT_CFG_TIMEWAIT_MS : Fld := ⟨0x1000, 24, 8, 4⟩
abbrev F.XPRT_CFG_ACK_TIMEOUT : Fld := ⟨0x1000, 19, 5, 4⟩
abbrev F.XPRT_CFG_RETRY_CNT : Fld := ⟨0x1000, 16, 3, 4⟩
abbrev F.XPRT_CFG_RNR_RETRY : Fld := ⟨0x1000, 13, 3, 4⟩
abbrev F.XPRT_CFG_ACK_COAL : Fld := ⟨0x1000, 7, 6, 4⟩
abbrev F.XPRT_ACK_ACK_DELAY : Fld := ⟨0x1004, 0, 16, 4⟩
abbrev F.XPRT_WIN_REPLAY_LOG2 : Fld := ⟨0x1008, 0, 5, 4⟩
abbrev F.XPRT_RC_RC_DEC : Fld := ⟨0x1010, 24, 8, 4⟩
abbrev F.XPRT_RC_RC_FAST_AFTER : Fld := ⟨0x1010, 20, 4, 4⟩
abbrev F.XPRT_RC_RC_PERIOD : Fld := ⟨0x1010, 0, 10, 4⟩
abbrev F.XPRT_RC2_RC_ADD : Fld := ⟨0x1014, 16, 16, 4⟩
abbrev F.XPRT_RC2_RC_MIN : Fld := ⟨0x1014, 0, 16, 4⟩
abbrev F.XPRT_RC3_CNP_INTERVAL : Fld := ⟨0x1018, 8, 8, 4⟩
abbrev F.XPRT_RC3_RC_HOLD : Fld := ⟨0x1018, 0, 8, 4⟩
abbrev F.XPRT_PIN_PIN_MAX : Fld := ⟨0x1020, 0, 13, 4⟩
abbrev F.XPRT_STAT_CONNS : Fld := ⟨0x0400, 0, 17, 4⟩
abbrev F.XPRT_CACHE_STAT_PINNED : Fld := ⟨0x0404, 16, 13, 4⟩
abbrev F.XPRT_CACHE_STAT_CACHED : Fld := ⟨0x0404, 0, 14, 4⟩
abbrev F.MISSQ_STAT_MAX : Fld := ⟨0x0408, 16, 10, 4⟩
abbrev F.MISSQ_STAT_OCC : Fld := ⟨0x0408, 0, 10, 4⟩
abbrev F.XPRT_CLOSE_GO : Fld := ⟨0x0410, 31, 1, 4⟩
abbrev F.XPRT_CLOSE_INDEX : Fld := ⟨0x0410, 0, 16, 4⟩
abbrev F.KEY_CFG_KEY_QUIET_MS : Fld := ⟨0x1000, 0, 16, 4⟩
abbrev F.KEY_OP_GO : Fld := ⟨0x0400, 31, 1, 4⟩
abbrev F.KEY_OP_OP : Fld := ⟨0x0400, 29, 2, 4⟩
abbrev F.KEY_OP_INDEX : Fld := ⟨0x0400, 0, 20, 4⟩
abbrev F.KEY_OP_STAT_BUSY : Fld := ⟨0x0404, 31, 1, 4⟩
abbrev F.KEY_OP_STAT_STATUS : Fld := ⟨0x0404, 28, 3, 4⟩
abbrev F.KEY_OP_STAT_NEW_GEN : Fld := ⟨0x0404, 0, 8, 4⟩
abbrev F.KEY_STAT_VALID_KEYS : Fld := ⟨0x0408, 0, 21, 4⟩
abbrev F.KEYLOG_STAT_WRAPPED : Fld := ⟨0x0410, 8, 1, 4⟩
abbrev F.KEYLOG_STAT_NEXT : Fld := ⟨0x0410, 0, 8, 4⟩
abbrev F.SEAL_CFG_SEAL_FAIL_LIMIT : Fld := ⟨0x1000, 24, 8, 4⟩
abbrev F.SEAL_CFG_REKEY_LOG2 : Fld := ⟨0x1000, 0, 6, 4⟩
abbrev F.SEAL_STAT_SEALED_CONNS : Fld := ⟨0x0400, 0, 17, 4⟩
abbrev F.XTS_STAT_ACTIVE_KEYS : Fld := ⟨0x0400, 0, 17, 4⟩
abbrev F.CMDQ_CFG_MAX_IOQ : Fld := ⟨0x1000, 16, 8, 4⟩
abbrev F.CMDQ_CFG_ACL : Fld := ⟨0x1000, 12, 4, 4⟩
abbrev F.CMDQ_CFG_AERL : Fld := ⟨0x1000, 8, 4, 4⟩
abbrev F.CMDQ_STAT_SLOTS_USED : Fld := ⟨0x0400, 0, 19, 4⟩
abbrev F.CMDQ_SHARED_SHARED_FREE : Fld := ⟨0x0404, 0, 19, 4⟩
abbrev F.CMDQ_PEND_PENDING : Fld := ⟨0x0408, 0, 22, 4⟩
abbrev F.CMDQ_MAXUSE_MAX : Fld := ⟨0x040c, 0, 19, 4⟩
abbrev F.CMDQ_FW_HOLD : Fld := ⟨0x0410, 31, 1, 4⟩
abbrev F.CMDQ_FW_HELD : Fld := ⟨0x0410, 0, 16, 4⟩
abbrev F.REGN_CFG_DESTAGE_MS : Fld := ⟨0x1000, 16, 16, 4⟩
abbrev F.REGN_CFG_DESTAGE_POOL : Fld := ⟨0x1000, 8, 2, 4⟩
abbrev F.REGN_CFG_DESTAGE_EN : Fld := ⟨0x1000, 0, 1, 4⟩
abbrev F.REGN_MIRROR_WARN_US : Fld := ⟨0x1004, 0, 16, 4⟩
abbrev F.REGN_STAT_ACTIVE_REGIONS : Fld := ⟨0x0400, 0, 17, 4⟩
abbrev F.REGN_SPACE_PAGES_USED : Fld := ⟨0x0404, 0, 22, 4⟩
abbrev F.REGN_DESTAGE_STAT_DIRTY_UNITS : Fld := ⟨0x0408, 0, 20, 4⟩
abbrev F.REGN_DESTAGE_AGE_OLDEST_MS : Fld := ⟨0x040c, 0, 32, 4⟩
abbrev F.REGN_OP_GO : Fld := ⟨0x0410, 31, 1, 4⟩
abbrev F.REGN_OP_OP : Fld := ⟨0x0410, 29, 2, 4⟩
abbrev F.REGN_OP_INDEX : Fld := ⟨0x0410, 0, 16, 4⟩
abbrev F.REGN_OP_STAT_BUSY : Fld := ⟨0x0414, 31, 1, 4⟩
abbrev F.REGN_OP_STAT_STATUS : Fld := ⟨0x0414, 28, 3, 4⟩
abbrev F.REGN_FLUSH_STAT_WAITING : Fld := ⟨0x0418, 0, 20, 4⟩
abbrev F.TMGR_CFG_SHAPE_BURST_US : Fld := ⟨0x1000, 16, 8, 4⟩
abbrev F.TMGR_CFG_QUANTUM : Fld := ⟨0x1000, 0, 14, 4⟩
abbrev F.TMGR_EXP_EXP_WINDOW_US : Fld := ⟨0x1004, 0, 8, 4⟩
abbrev F.CAWARE_MAP_COLOUR : Fld := ⟨0x1010, 0, 32, 4⟩
abbrev F.SAMPLE_CTL_FREEZE : Fld := ⟨0x0400, 1, 1, 4⟩
abbrev F.SAMPLE_CTL_STREAM_EN : Fld := ⟨0x0400, 0, 1, 4⟩
abbrev F.SAMPLE_STAT_WRAPPED : Fld := ⟨0x0404, 31, 1, 4⟩
abbrev F.SAMPLE_STAT_NEXT : Fld := ⟨0x0404, 0, 21, 4⟩
abbrev F.METER_GEN_GEN : Fld := ⟨0x0410, 0, 32, 4⟩
abbrev F.METER_ACK_ACK : Fld := ⟨0x0414, 0, 32, 4⟩
abbrev F.METER_OPEN_MINUTE : Fld := ⟨0x0418, 0, 32, 4⟩
abbrev F.VAT_CFG_C0_AGE_NS : Fld := ⟨0x1000, 0, 16, 4⟩
abbrev F.VAT_STAT_QUEUED : Fld := ⟨0x0400, 0, 20, 4⟩
abbrev F.VAT_MAXQ_MAX : Fld := ⟨0x0404, 0, 20, 4⟩
abbrev F.CELL_DT_ALPHA_C3 : Fld := ⟨0x1000, 24, 8, 4⟩
abbrev F.CELL_DT_ALPHA_C2 : Fld := ⟨0x1000, 16, 8, 4⟩
abbrev F.CELL_DT_ALPHA_C1 : Fld := ⟨0x1000, 8, 8, 4⟩
abbrev F.CELL_DT_ALPHA_C0 : Fld := ⟨0x1000, 0, 8, 4⟩
abbrev F.CELL_FREE_FREE : Fld := ⟨0x0400, 0, 20, 4⟩
abbrev F.CELL_SHARED_SHARED_FREE : Fld := ⟨0x0404, 0, 20, 4⟩
abbrev F.CELL_MINFREE_MIN : Fld := ⟨0x0408, 0, 20, 4⟩
abbrev F.CELL_BANK_CTL_GO : Fld := ⟨0x0410, 31, 1, 4⟩
abbrev F.CELL_BANK_CTL_BANK : Fld := ⟨0x0410, 0, 4, 4⟩
abbrev F.CELL_BANK_STAT_RETIRED : Fld := ⟨0x0414, 0, 16, 4⟩
abbrev F.CELL_LOG_STAT_WRAPPED : Fld := ⟨0x0418, 6, 1, 4⟩
abbrev F.CELL_LOG_STAT_NEXT : Fld := ⟨0x0418, 0, 6, 4⟩
abbrev F.JRNL_CFG_DIRTY_LIMIT : Fld := ⟨0x1000, 16, 8, 4⟩
abbrev F.JRNL_CFG_HOLD_US : Fld := ⟨0x1000, 0, 16, 4⟩
abbrev F.JRNL_MIRROR_WARN_US : Fld := ⟨0x1004, 0, 16, 4⟩
abbrev F.JRNL_SAVE_CFG_PF_FILTER_US : Fld := ⟨0x1008, 8, 8, 4⟩
abbrev F.JRNL_SAVE_CFG_SLICE_GIB : Fld := ⟨0x1008, 0, 5, 4⟩
abbrev F.JRNL_DIRTY_DIRTY_MIB : Fld := ⟨0x0400, 0, 14, 4⟩
abbrev F.JRNL_OCC_CHUNKS : Fld := ⟨0x0404, 0, 12, 4⟩
abbrev F.JRNL_PENDING_PLACED_MIB : Fld := ⟨0x0408, 0, 14, 4⟩
abbrev F.JRNL_SEQ_SEQ_LO : Fld := ⟨0x040c, 0, 32, 4⟩
abbrev F.JRNL_INDEX_EXTENTS : Fld := ⟨0x0410, 0, 25, 4⟩
abbrev F.JRNL_SAVE_EST_MS : Fld := ⟨0x0414, 0, 16, 4⟩
abbrev F.JRNL_SAVE_STAT_MEMBERS : Fld := ⟨0x0418, 8, 5, 4⟩
abbrev F.JRNL_SAVE_STAT_ARMED : Fld := ⟨0x0418, 3, 1, 4⟩
abbrev F.JRNL_SAVE_STAT_PHASE : Fld := ⟨0x0418, 0, 3, 4⟩
abbrev F.JRNL_RESTORE_STAT_LOSS : Fld := ⟨0x041c, 19, 1, 4⟩
abbrev F.JRNL_RESTORE_STAT_KEY_WAIT : Fld := ⟨0x041c, 4, 15, 4⟩
abbrev F.JRNL_RESTORE_STAT_REGN_SRC : Fld := ⟨0x041c, 2, 2, 4⟩
abbrev F.JRNL_RESTORE_STAT_JRNL_SRC : Fld := ⟨0x041c, 0, 2, 4⟩
abbrev F.CMPR_CFG_INIT_CELLS : Fld := ⟨0x1000, 16, 7, 4⟩
abbrev F.CMPR_CFG_EXP_LANES : Fld := ⟨0x1000, 8, 4, 4⟩
abbrev F.CMPR_CFG_DESTAGE_FMT : Fld := ⟨0x1000, 0, 2, 4⟩
abbrev F.CMPR_TEST_SELFTEST_MS : Fld := ⟨0x1004, 0, 16, 4⟩
abbrev F.CMPR_ERR_ERR_WINDOW_S : Fld := ⟨0x1008, 8, 8, 4⟩
abbrev F.CMPR_ERR_ERR_LIMIT : Fld := ⟨0x1008, 0, 8, 4⟩
abbrev F.CMPR_STAT_CLANES_ON : Fld := ⟨0x0400, 8, 6, 4⟩
abbrev F.CMPR_STAT_DLANES_ON : Fld := ⟨0x0400, 0, 5, 4⟩
abbrev F.CMPR_CRET_LO_RETIRED : Fld := ⟨0x0404, 0, 32, 4⟩
abbrev F.CMPR_CRET_HI_RETIRED : Fld := ⟨0x0408, 0, 8, 4⟩
abbrev F.CMPR_DRET_RETIRED : Fld := ⟨0x040c, 0, 20, 4⟩
abbrev F.CMPR_LANE_CTL_GO : Fld := ⟨0x0410, 31, 1, 4⟩
abbrev F.CMPR_LANE_CTL_KIND : Fld := ⟨0x0410, 6, 1, 4⟩
abbrev F.CMPR_LANE_CTL_LANE : Fld := ⟨0x0410, 0, 6, 4⟩
abbrev F.CMPR_LOG_STAT_WRAPPED : Fld := ⟨0x0414, 6, 1, 4⟩
abbrev F.CMPR_LOG_STAT_NEXT : Fld := ⟨0x0414, 0, 6, 4⟩
abbrev F.PLCE_CFG_WB_US : Fld := ⟨0x1000, 16, 16, 4⟩
abbrev F.PLCE_CFG_FILL_US : Fld := ⟨0x1000, 0, 16, 4⟩
abbrev F.PLCE_STALL_PLACE_STALL_MS : Fld := ⟨0x1004, 0, 16, 4⟩
abbrev F.PLCE_PRESS_CFG_PRESS_MIN_FREE : Fld := ⟨0x1008, 0, 8, 4⟩
abbrev F.PLCE_PIN_PIN_MAX_PAGES : Fld := ⟨0x100c, 0, 23, 4⟩
abbrev F.PLCE_MAP_STAT_FRAMES : Fld := ⟨0x0400, 0, 24, 4⟩
abbrev F.PLCE_MAP_DIRTY_DIRTY : Fld := ⟨0x0404, 0, 24, 4⟩
abbrev F.PLCE_MAP_PINNED_PINNED : Fld := ⟨0x0408, 0, 23, 4⟩
abbrev F.PLCE_PRESS_CTL_PAUSE : Fld := ⟨0x0410, 0, 4, 4⟩
abbrev F.PLCE_PRESS_STAT_RUNNING : Fld := ⟨0x0414, 0, 4, 4⟩
abbrev F.PLCE_VOL_OP_GO : Fld := ⟨0x0420, 31, 1, 4⟩
abbrev F.PLCE_VOL_OP_VOLUME : Fld := ⟨0x0420, 0, 14, 4⟩
abbrev F.PLCE_VOL_OP_STAT_BUSY : Fld := ⟨0x0424, 31, 1, 4⟩
abbrev F.PLCE_VOL_OP_STAT_STATUS : Fld := ⟨0x0424, 28, 3, 4⟩
abbrev F.POOL_CFG_MAP_GIB : Fld := ⟨0x1000, 24, 8, 4⟩
abbrev F.POOL_CFG_D : Fld := ⟨0x1000, 16, 5, 4⟩
abbrev F.POOL_CFG_PROT : Fld := ⟨0x1000, 8, 2, 4⟩
abbrev F.POOL_CFG_TURNER_EN : Fld := ⟨0x1000, 1, 1, 4⟩
abbrev F.POOL_CFG_DEFINED : Fld := ⟨0x1000, 0, 1, 4⟩
abbrev F.POOL_BAYS_MEMBER_MASK : Fld := ⟨0x1004, 0, 24, 4⟩
abbrev F.POOL_SPARES_SPARE_MASK : Fld := ⟨0x1008, 0, 24, 4⟩
abbrev F.POOL_ID_LO_ID : Fld := ⟨0x1010, 0, 32, 4⟩
abbrev F.POOL_ID_HI_ID : Fld := ⟨0x1014, 0, 32, 4⟩
abbrev F.POOL_STAT_W : Fld := ⟨0x0400, 16, 5, 4⟩
abbrev F.POOL_STAT_OSL_SRC : Fld := ⟨0x0400, 12, 2, 4⟩
abbrev F.POOL_STAT_MARGIN : Fld := ⟨0x0400, 8, 2, 4⟩
abbrev F.POOL_STAT_IMPORT_PHASE : Fld := ⟨0x0400, 4, 3, 4⟩
abbrev F.POOL_STAT_STATE : Fld := ⟨0x0400, 0, 3, 4⟩
abbrev F.REBUILD_STAT_RBSTATE : Fld := ⟨0x0404, 30, 2, 4⟩
abbrev F.REBUILD_STAT_CURSOR : Fld := ⟨0x0404, 0, 30, 4⟩
abbrev F.REBUILD_LEFT_SEGMENTS : Fld := ⟨0x0408, 0, 32, 4⟩
abbrev F.TURNER_STAT_RUNNING : Fld := ⟨0x040c, 31, 1, 4⟩
abbrev F.TURNER_STAT_CURSOR : Fld := ⟨0x040c, 0, 30, 4⟩
abbrev F.TURNER_PASS_PASSES : Fld := ⟨0x0410, 0, 32, 4⟩
abbrev F.POOL_OP_GO : Fld := ⟨0x0420, 31, 1, 4⟩
abbrev F.POOL_OP_OP : Fld := ⟨0x0420, 28, 3, 4⟩
abbrev F.POOL_OP_BAY : Fld := ⟨0x0420, 0, 5, 4⟩
abbrev F.POOL_OP_STAT_BUSY : Fld := ⟨0x0424, 31, 1, 4⟩
abbrev F.POOL_OP_STAT_STATUS : Fld := ⟨0x0424, 28, 3, 4⟩
abbrev F.LOSS_STAT_ENTRIES : Fld := ⟨0x0428, 0, 16, 4⟩
abbrev F.DRV_CFG_PERST_MS : Fld := ⟨0x1000, 8, 8, 4⟩
abbrev F.DRV_CFG_AUTO_EN : Fld := ⟨0x1000, 4, 1, 4⟩
abbrev F.DRV_CFG_DUALPORT_EN : Fld := ⟨0x1000, 3, 1, 4⟩
abbrev F.DRV_CFG_SRIS : Fld := ⟨0x1000, 2, 1, 4⟩
abbrev F.DRV_CFG_TARGET_GEN : Fld := ⟨0x1000, 0, 2, 4⟩
abbrev F.DRV_TO_RESET_AFTER : Fld := ⟨0x1004, 28, 3, 4⟩
abbrev F.DRV_TO_RETRY_MAX : Fld := ⟨0x1004, 24, 3, 4⟩
abbrev F.DRV_TO_CTO_MS : Fld := ⟨0x1004, 16, 8, 4⟩
abbrev F.DRV_TO_CMD_TIMEOUT_MS : Fld := ⟨0x1004, 0, 16, 4⟩
abbrev F.DRV_ERR_ERR_WINDOW_S : Fld := ⟨0x1008, 24, 8, 4⟩
abbrev F.DRV_ERR_TO_LIMIT : Fld := ⟨0x1008, 16, 8, 4⟩
abbrev F.DRV_ERR_RESET_LIMIT : Fld := ⟨0x1008, 8, 8, 4⟩
abbrev F.DRV_ERR_MEDIA_LIMIT : Fld := ⟨0x1008, 0, 8, 4⟩
abbrev F.DRV_PS_IDLE_MS : Fld := ⟨0x100c, 16, 16, 4⟩
abbrev F.DRV_PS_PS_TARGET : Fld := ⟨0x100c, 2, 5, 4⟩
abbrev F.DRV_PS_MODE : Fld := ⟨0x100c, 0, 2, 4⟩
abbrev F.DRV_QOS_BG_MIN : Fld := ⟨0x1010, 16, 12, 4⟩
abbrev F.DRV_QOS_BG_MAX : Fld := ⟨0x1010, 0, 12, 4⟩
abbrev F.BAY_STAT_UNFIT_CODE : Fld := ⟨0x0400, 24, 4, 4⟩
abbrev F.BAY_STAT_PS : Fld := ⟨0x0400, 16, 5, 4⟩
abbrev F.BAY_STAT_CLKREQ : Fld := ⟨0x0400, 15, 1, 4⟩
abbrev F.BAY_STAT_FLIT : Fld := ⟨0x0400, 14, 1, 4⟩
abbrev F.BAY_STAT_WIDTH : Fld := ⟨0x0400, 11, 3, 4⟩
abbrev F.BAY_STAT_GEN : Fld := ⟨0x0400, 9, 2, 4⟩
abbrev F.BAY_STAT_NVME : Fld := ⟨0x0400, 6, 3, 4⟩
abbrev F.BAY_STAT_READY : Fld := ⟨0x0400, 2, 1, 4⟩
abbrev F.BAY_STAT_LINK_UP : Fld := ⟨0x0400, 1, 1, 4⟩
abbrev F.BAY_STAT_PRESENT : Fld := ⟨0x0400, 0, 1, 4⟩
abbrev F.BAY_OUT_QUAR : Fld := ⟨0x0404, 16, 13, 4⟩
abbrev F.BAY_OUT_OUTSTANDING : Fld := ⟨0x0404, 0, 13, 4⟩
abbrev F.BAY_LIMIT_IOQ : Fld := ⟨0x0408, 16, 7, 4⟩
abbrev F.BAY_LIMIT_LIMIT : Fld := ⟨0x0408, 0, 13, 4⟩
abbrev F.BAY_ERRCNT_MEDIA : Fld := ⟨0x040c, 16, 8, 4⟩
abbrev F.BAY_ERRCNT_RESETS : Fld := ⟨0x040c, 8, 8, 4⟩
abbrev F.BAY_ERRCNT_TO : Fld := ⟨0x040c, 0, 8, 4⟩
abbrev F.BAY_RT_RESET2 : Fld := ⟨0x0410, 1, 1, 4⟩
abbrev F.BAY_RT_RESET1 : Fld := ⟨0x0410, 0, 1, 4⟩
abbrev F.BAY_PWR_CFG_RETRIES : Fld := ⟨0x1000, 24, 3, 4⟩
abbrev F.BAY_PWR_CFG_FAULT_MS : Fld := ⟨0x1000, 16, 6, 4⟩
abbrev F.BAY_PWR_CFG_PLIM : Fld := ⟨0x1000, 8, 8, 4⟩
abbrev F.BAY_PWR_CFG_ILIM : Fld := ⟨0x1000, 0, 8, 4⟩
abbrev F.BAY_PWR_CFG2_RSENSE : Fld := ⟨0x1004, 16, 8, 4⟩
abbrev F.BAY_PWR_CFG2_DMG_BLANK_MS : Fld := ⟨0x1004, 8, 8, 4⟩
abbrev F.BAY_PWR_CFG2_RETRY_INT : Fld := ⟨0x1004, 0, 7, 4⟩
abbrev F.BAY_PWR_STAT_LAST_CAUSE : Fld := ⟨0x0400, 12, 4, 4⟩
abbrev F.BAY_PWR_STAT_RETRY_CNT : Fld := ⟨0x0400, 8, 3, 4⟩
abbrev F.BAY_PWR_STAT_LIMIT : Fld := ⟨0x0400, 5, 1, 4⟩
abbrev F.BAY_PWR_STAT_PG : Fld := ⟨0x0400, 4, 1, 4⟩
abbrev F.BAY_PWR_STAT_DMG : Fld := ⟨0x0400, 3, 1, 4⟩
abbrev F.BAY_PWR_STAT_CH : Fld := ⟨0x0400, 0, 3, 4⟩
abbrev F.BAY_PWR_V_VOUT12 : Fld := ⟨0x0404, 16, 16, 4⟩
abbrev F.BAY_PWR_V_VIN12 : Fld := ⟨0x0404, 0, 16, 4⟩
abbrev F.BAY_PWR_I_VOUT3 : Fld := ⟨0x0408, 16, 16, 4⟩
abbrev F.BAY_PWR_I_I12 : Fld := ⟨0x0408, 0, 16, 4⟩
abbrev F.BAY_PWR_LAST_FET_MJ : Fld := ⟨0x040c, 16, 16, 4⟩
abbrev F.BAY_PWR_LAST_LIMIT_TICKS : Fld := ⟨0x040c, 0, 16, 4⟩
abbrev F.PAIR_CFG_LINK_LOSS_US : Fld := ⟨0x1000, 16, 16, 4⟩
abbrev F.PAIR_CFG_HB_TIMEOUT_MS : Fld := ⟨0x1000, 8, 8, 4⟩
abbrev F.PAIR_CFG_AUTO_TAKEOVER : Fld := ⟨0x1000, 1, 1, 4⟩
abbrev F.PAIR_CFG_MODE : Fld := ⟨0x1000, 0, 1, 4⟩
abbrev F.PAIR_CKPT_DISCOVER_MS : Fld := ⟨0x1004, 16, 16, 4⟩
abbrev F.PAIR_CKPT_CKPT_US : Fld := ⟨0x1004, 0, 16, 4⟩
abbrev F.PAIR_CULTURE_SYNC_PCT : Fld := ⟨0x1008, 16, 8, 4⟩
abbrev F.PAIR_CULTURE_CULTURE_MS : Fld := ⟨0x1008, 0, 16, 4⟩
abbrev F.PEER_WIN_CTL_VALID : Fld := ⟨0x1100, 31, 1, 16⟩
abbrev F.PEER_WIN_CTL_KIND : Fld := ⟨0x1100, 0, 2, 16⟩
abbrev F.PEER_WIN_RBASE_REMOTE_BASE : Fld := ⟨0x1104, 0, 18, 16⟩
abbrev F.PEER_WIN_LBASE_LOCAL_BASE : Fld := ⟨0x1108, 0, 18, 16⟩
abbrev F.PEER_WIN_SIZE_SIZE : Fld := ⟨0x110c, 0, 18, 16⟩
abbrev F.PAIR_STAT_VER : Fld := ⟨0x0400, 24, 8, 4⟩
abbrev F.PAIR_STAT_LANES_UP : Fld := ⟨0x0400, 16, 5, 4⟩
abbrev F.PAIR_STAT_MIRROR_VALID : Fld := ⟨0x0400, 15, 1, 4⟩
abbrev F.PAIR_STAT_LINK_UP : Fld := ⟨0x0400, 14, 1, 4⟩
abbrev F.PAIR_STAT_HB_OK : Fld := ⟨0x0400, 13, 1, 4⟩
abbrev F.PAIR_STAT_FENCE_OUT : Fld := ⟨0x0400, 12, 1, 4⟩
abbrev F.PAIR_STAT_FENCE_IN : Fld := ⟨0x0400, 11, 1, 4⟩
abbrev F.PAIR_STAT_OWN_IN : Fld := ⟨0x0400, 10, 1, 4⟩
abbrev F.PAIR_STAT_OWN : Fld := ⟨0x0400, 9, 1, 4⟩
abbrev F.PAIR_STAT_SLOT : Fld := ⟨0x0400, 8, 1, 4⟩
abbrev F.PAIR_STAT_PARTNER : Fld := ⟨0x0400, 4, 2, 4⟩
abbrev F.PAIR_STAT_UNFIT : Fld := ⟨0x0400, 3, 1, 4⟩
abbrev F.PAIR_STAT_ROLE : Fld := ⟨0x0400, 0, 3, 4⟩
abbrev F.PAIR_SYNC_DONE_PCT : Fld := ⟨0x0404, 0, 7, 4⟩
abbrev F.PAIR_CKPT_AGE_MAX_US : Fld := ⟨0x0408, 0, 32, 4⟩
abbrev F.PAIR_RT_RELEASE : Fld := ⟨0x0410, 2, 1, 4⟩
abbrev F.PAIR_RT_FORCE_CLAIM : Fld := ⟨0x0410, 1, 1, 4⟩
abbrev F.PAIR_RT_UNFENCE : Fld := ⟨0x0410, 0, 1, 4⟩
abbrev F.POL_CFG_ADAPT_MS : Fld := ⟨0x1000, 24, 8, 4⟩
abbrev F.POL_CFG_AUTO : Fld := ⟨0x1000, 0, 7, 4⟩
abbrev F.POL_PC_PC_WINDOW_S : Fld := ⟨0x1004, 24, 8, 4⟩
abbrev F.POL_PC_PC_CE_LIMIT : Fld := ⟨0x1004, 0, 16, 4⟩
abbrev F.POL_BANK_BANK_WINDOW_S : Fld := ⟨0x1008, 24, 8, 4⟩
abbrev F.POL_BANK_BANK_CE_LIMIT : Fld := ⟨0x1008, 0, 16, 4⟩
abbrev F.POL_BRITOS_WINDOW_S : Fld := ⟨0x100c, 8, 8, 4⟩
abbrev F.POL_BRITOS_LIMIT : Fld := ⟨0x100c, 0, 8, 4⟩
abbrev F.POL_PC_RETIRED_RETIRED : Fld := ⟨0x0400, 0, 32, 4⟩
abbrev F.POL_DEFER_COUNT : Fld := ⟨0x0408, 0, 6, 4⟩
abbrev F.THERM_CFG_THROTTLE_C : Fld := ⟨0x1000, 24, 8, 4⟩
abbrev F.THERM_CFG_HYST_C : Fld := ⟨0x1000, 20, 4, 4⟩
abbrev F.THERM_CAP_L2_MBS : Fld := ⟨0x1004, 16, 16, 4⟩
abbrev F.THERM_CAP_L3_MBS : Fld := ⟨0x1004, 0, 16, 4⟩
abbrev F.THERM_STAT_LEVEL : Fld := ⟨0x0400, 8, 2, 4⟩
abbrev F.THERM_STAT_TJ : Fld := ⟨0x0400, 0, 8, 4⟩
abbrev F.FW_CTL_ACTIVATE : Fld := ⟨0x0410, 31, 1, 4⟩
abbrev F.FW_CTL_SLOT : Fld := ⟨0x0410, 0, 1, 4⟩
abbrev F.FW_STAT_BUSY : Fld := ⟨0x0414, 31, 1, 4⟩
abbrev F.FW_STAT_PHASE : Fld := ⟨0x0414, 6, 2, 4⟩
abbrev F.FW_STAT_RESULT : Fld := ⟨0x0414, 3, 3, 4⟩
abbrev F.FW_STAT_BOOT_SLOT : Fld := ⟨0x0414, 1, 1, 4⟩
abbrev F.FW_STAT_RUNNING_SLOT : Fld := ⟨0x0414, 0, 1, 4⟩
abbrev F.FW_VER_VERSION : Fld := ⟨0x0418, 0, 32, 4⟩
abbrev F.FLT_VEC0_CONTAINED_VEC : Fld := ⟨0x1000, 16, 11, 4⟩
abbrev F.FLT_VEC0_FATAL_VEC : Fld := ⟨0x1000, 0, 11, 4⟩
abbrev F.FLT_VEC1_CORRECTED_VEC : Fld := ⟨0x1004, 0, 11, 4⟩
abbrev F.FLT_PIN_CFG_ALERT_ON_CORR : Fld := ⟨0x1008, 0, 1, 4⟩
abbrev F.FLT_SUM_PENDING : Fld := ⟨0x0400, 0, 32, 4⟩
abbrev F.FLT_CLASS_STAT_FATAL : Fld := ⟨0x0480, 2, 1, 4⟩
abbrev F.FLT_CLASS_STAT_CONTAINED : Fld := ⟨0x0480, 1, 1, 4⟩
abbrev F.FLT_CLASS_STAT_CORRECTED : Fld := ⟨0x0480, 0, 1, 4⟩
abbrev F.FLT_TEST_STAT_LOCKED : Fld := ⟨0x0490, 2, 1, 4⟩
abbrev F.FLT_TEST_STAT_STRAP : Fld := ⟨0x0490, 1, 1, 4⟩
abbrev F.FLT_TEST_STAT_FACTORY : Fld := ⟨0x0490, 0, 1, 4⟩
abbrev F.CNT_GLOBAL_CLEAR_ALL : Fld := ⟨0x04a0, 1, 1, 4⟩
abbrev F.CNT_GLOBAL_FREEZE_ALL : Fld := ⟨0x04a0, 0, 1, 4⟩
abbrev F.EP_STAT_DOWN_COUNT : Fld := ⟨0x0400, 16, 16, 4⟩
abbrev F.EP_STAT_DSTATE : Fld := ⟨0x0400, 0, 2, 4⟩
abbrev F.MBOX_RQ_LO_ADDR : Fld := ⟨0x0410, 6, 26, 4⟩
abbrev F.MBOX_CQ_LO_ADDR : Fld := ⟨0x0418, 6, 26, 4⟩
abbrev F.MBOX_RQ_HI_ADDR : Fld := ⟨0x0414, 0, 32, 4⟩
abbrev F.MBOX_CQ_HI_ADDR : Fld := ⟨0x041c, 0, 32, 4⟩
abbrev F.MBOX_CFG_EN : Fld := ⟨0x0420, 31, 1, 4⟩
abbrev F.MBOX_CFG_VECTOR : Fld := ⟨0x0420, 16, 11, 4⟩
abbrev F.MBOX_CFG_SIZE_LOG2 : Fld := ⟨0x0420, 0, 4, 4⟩
abbrev F.MBOX_DB_TAIL : Fld := ⟨0x0424, 0, 8, 4⟩
abbrev F.MBOX_STAT_BUSY : Fld := ⟨0x0428, 8, 1, 4⟩
abbrev F.MBOX_STAT_HEAD : Fld := ⟨0x0428, 0, 8, 4⟩
abbrev F.EVR_LO_ADDR : Fld := ⟨0x0440, 5, 27, 16⟩
abbrev F.EVR_HI_ADDR : Fld := ⟨0x0444, 0, 32, 16⟩
abbrev F.EVR_CFG_EN : Fld := ⟨0x0448, 31, 1, 16⟩
abbrev F.EVR_CFG_VECTOR : Fld := ⟨0x0448, 16, 11, 16⟩
abbrev F.EVR_CFG_TYPE_MASK : Fld := ⟨0x0448, 8, 8, 16⟩
abbrev F.EVR_CFG_SIZE_LOG2 : Fld := ⟨0x0448, 0, 4, 16⟩
abbrev F.EVR_HEAD_HEAD : Fld := ⟨0x044c, 0, 12, 16⟩
abbrev F.EVR_STAT_LOST : Fld := ⟨0x0480, 16, 16, 4⟩
abbrev F.EVR_STAT_TAIL : Fld := ⟨0x0480, 0, 12, 4⟩

/-- The DEV page, Tables 2.3 to 2.8 and 18.4. -/
def regsDev : List RegDef := [
  ⟨"DEV_ID", 0x0000, 4, 1, true, [⟨"DEVICE", 16, 16, .ro, [0x4b18], .any⟩, ⟨"MEMBER", 0, 16, .ro, [0x2464], .any⟩]⟩,
  ⟨"DEV_REV", 0x0004, 4, 1, true, [⟨"STEPPING", 8, 8, .ro, [0x42], .any⟩, ⟨"METAL", 0, 8, .ro, [0x30], .any⟩]⟩,
  ⟨"SWAP_CTL", 0x0010, 4, 1, true, [⟨"SYNC", 2, 1, .wo, [0], .any⟩, ⟨"REVERT", 1, 1, .wo, [0], .any⟩, ⟨"GO", 0, 1, .wo, [0], .any⟩]⟩,
  ⟨"SWAP_STAT", 0x0014, 4, 1, true, [⟨"REJECT_CODE", 16, 16, .ro, [0], .any⟩, ⟨"REVERT_OK", 9, 1, .ro, [0], .any⟩,
    ⟨"REJECT_BLOCK", 4, 5, .ro, [0], .any⟩, ⟨"LOST_WRITE", 3, 1, .w1c, [0], .any⟩, ⟨"RESULT", 1, 2, .ro, [0], .any⟩,
    ⟨"BUSY", 0, 1, .ro, [0], .any⟩]⟩,
  ⟨"EPOCH", 0x0018, 4, 1, true, [⟨"EPOCH", 0, 32, .ro, [0], .any⟩]⟩,
  ⟨"SWAP_DETAIL", 0x001c, 4, 1, true, [⟨"REJECT_OFFSET", 16, 16, .ro, [0], .any⟩, ⟨"REJECT_INST", 0, 8, .ro, [0], .any⟩]⟩,
  ⟨"ACC_ERR", 0x0020, 4, 1, true, [⟨"ADDR", 2, 27, .rc, [0], .any⟩, ⟨"VALID", 0, 2, .rc, [0], .any⟩]⟩,
  ⟨"FACTORY_KEY", 0x0100, 4, 1, true, [⟨"KEY", 0, 32, .wo, [0], .any⟩]⟩]

abbrev F.SWAP_STAT_REJECT_CODE : Fld := ⟨0x0014, 16, 16, 4⟩
abbrev F.SWAP_STAT_REVERT_OK : Fld := ⟨0x0014, 9, 1, 4⟩
abbrev F.SWAP_STAT_REJECT_BLOCK : Fld := ⟨0x0014, 4, 5, 4⟩
abbrev F.SWAP_STAT_LOST_WRITE : Fld := ⟨0x0014, 3, 1, 4⟩
abbrev F.SWAP_STAT_RESULT : Fld := ⟨0x0014, 1, 2, 4⟩
abbrev F.SWAP_STAT_BUSY : Fld := ⟨0x0014, 0, 1, 4⟩
abbrev F.EPOCH_EPOCH : Fld := ⟨0x0018, 0, 32, 4⟩
abbrev F.SWAP_DETAIL_REJECT_OFFSET : Fld := ⟨0x001c, 16, 16, 4⟩
abbrev F.SWAP_DETAIL_REJECT_INST : Fld := ⟨0x001c, 0, 8, 4⟩
abbrev F.ACC_ERR_ADDR : Fld := ⟨0x0020, 2, 27, 4⟩
abbrev F.ACC_ERR_VALID : Fld := ⟨0x0020, 0, 2, 4⟩
/-- Table 2.10, the common page registers. -/
abbrev F.FLT_STICKY_SRC : Fld := ⟨0x0100, 0, 32, 4⟩
abbrev F.FLT_MASK_MASK : Fld := ⟨0x0120, 0, 32, 4⟩
abbrev F.FLT_SEV_SEV : Fld := ⟨0x0140, 0, 32, 4⟩
abbrev F.CNT_SEL_FREEZE : Fld := ⟨0x0200, 14, 1, 4⟩
abbrev F.CNT_SEL_USER : Fld := ⟨0x0200, 13, 1, 4⟩
abbrev F.CNT_SEL_EN : Fld := ⟨0x0200, 12, 1, 4⟩
abbrev F.CNT_SEL_EVENT : Fld := ⟨0x0200, 0, 12, 4⟩
/-- Table 2.15, one table window; the offsets are relative to the window base. -/
abbrev F.TBL_ADDR_CHUNK : Fld := ⟨0x00, 24, 5, 4⟩
abbrev F.TBL_ADDR_INDEX : Fld := ⟨0x00, 0, 24, 4⟩
abbrev F.TBL_DATA_DATA : Fld := ⟨0x10, 0, 32, 4⟩
abbrev F.TBL_CMD_BUSY : Fld := ⟨0x40, 31, 1, 4⟩
abbrev F.TBL_CMD_STATUS : Fld := ⟨0x40, 28, 3, 4⟩
abbrev F.TBL_CMD_SET : Fld := ⟨0x40, 12, 1, 4⟩
abbrev F.TBL_CMD_OP : Fld := ⟨0x40, 8, 3, 4⟩
abbrev F.TBL_CMD_TABLE : Fld := ⟨0x40, 0, 8, 4⟩

def regsGrp : List RegDef := [
  ⟨"GRP_CFG", 0x1000, 4, 1, false, [
    ⟨"MAX_FRAME", 16, 14, .rws, [9216], .range 1518 9216⟩,
    ⟨"PFC_EN", 8, 1, .rws, [0], .any⟩,
    ⟨"NARROW_EN", 7, 1, .rws, [1], .any⟩,
    ⟨"AN_EN", 6, 1, .rws, [1], .any⟩,
    ⟨"MEDIA", 4, 2, .rws, [0], .enum [0, 1, 2]⟩,
    ⟨"MODE", 0, 4, .rws, [0], .enum grpModes⟩]⟩,
  ⟨"PORT_MAC_LO", 0x1010, 8, 4, false, [
    ⟨"MAC_LO", 0, 32, .rws, [0], .any⟩]⟩,
  ⟨"PORT_MAC_HI", 0x1014, 8, 4, false, [
    ⟨"MAC_HI", 0, 16, .rws, [0], .any⟩]⟩,
  ⟨"PFC_CFG", 0x1040, 4, 1, false, [
    ⟨"QUANTA", 16, 16, .rws, [65535], .any⟩,
    ⟨"PRIO_MASK", 0, 8, .rws, [8], .any⟩]⟩,
  ⟨"PFC_THR", 0x1044, 4, 1, false, [
    ⟨"XON", 16, 16, .rws, [1024], .any⟩,
    ⟨"XOFF", 0, 16, .rws, [2048], .any⟩]⟩,
  ⟨"ECN_CFG", 0x1050, 4, 1, false, [
    ⟨"ECT_TX", 16, 2, .rws, [2], .enum [0, 1, 2]⟩,
    ⟨"MARK_THR", 0, 16, .rws, [1536], .any⟩]⟩,
  ⟨"GRP_STAT", 0x0400, 4, 1, false, [
    ⟨"PORT_WIDTH", 16, 8, .ro, [0], .any⟩,
    ⟨"EIGHT", 8, 1, .ro, [0], .any⟩,
    ⟨"NARROWED", 4, 4, .ro, [0], .any⟩,
    ⟨"LINK_UP", 0, 4, .ro, [0], .any⟩]⟩,
  ⟨"GRP_RT", 0x0410, 4, 1, false, [
    ⟨"RESTORE", 1, 4, .wo, [0], .any⟩,
    ⟨"ANNOUNCE", 0, 1, .wo, [0], .any⟩]⟩]

def regsPtp : List RegDef := [
  ⟨"PTP_CFG", 0x1060, 4, 1, false, [
    ⟨"DOMAIN", 24, 8, .rws, [0], .any⟩,
    ⟨"PORT", 18, 6, .rws, [0], .any⟩,
    ⟨"TRANSPORT", 16, 2, .rws, [0], .enum [0, 1, 2]⟩,
    ⟨"SRC", 14, 2, .rws, [0], .enum [0, 1, 2]⟩,
    ⟨"VLAN_EN", 13, 1, .rws, [0], .any⟩,
    ⟨"VLAN_ID", 0, 12, .rws, [0], .any⟩]⟩,
  ⟨"PTP_ADDR", 0x1070, 4, 4, false, [
    ⟨"ADDR", 0, 32, .rws, [0], .any⟩]⟩,
  ⟨"PTP_TOD", 0x0420, 4, 1, false, [
    ⟨"SEC", 0, 32, .rw, [0], .any⟩]⟩,
  ⟨"PTP_TOD_HI", 0x0424, 4, 1, false, [
    ⟨"SEC_HI", 0, 16, .rw, [0], .any⟩]⟩,
  ⟨"PTP_TIME_NS", 0x0428, 4, 1, false, [
    ⟨"NS", 0, 30, .ro, [0], .any⟩]⟩,
  ⟨"PTP_TIME_SEC", 0x0430, 4, 1, false, [
    ⟨"SEC", 0, 32, .ro, [0], .any⟩]⟩,
  ⟨"PTP_TIME_SEC_HI", 0x0434, 4, 1, false, [
    ⟨"SEC_HI", 0, 16, .ro, [0], .any⟩]⟩,
  ⟨"PTP_STAT", 0x0438, 4, 1, false, [
    ⟨"STEPS", 16, 16, .ro, [0], .any⟩,
    ⟨"SYNC", 0, 2, .ro, [2], .any⟩]⟩]

def regsLane : List RegDef := [
  ⟨"LANE_CFG", 0x1000, 4, 1, false, [
    ⟨"RETRAIN_WINDOW", 16, 8, .rws, [60], .range 1 255⟩,
    ⟨"RETRAIN_LIMIT", 8, 8, .rws, [4], .any⟩,
    ⟨"TX_PRESET", 4, 4, .rws, [0], .any⟩,
    ⟨"TX_INVERT", 1, 1, .rws, [0], .any⟩,
    ⟨"RX_INVERT", 0, 1, .rws, [0], .any⟩]⟩,
  ⟨"LANE_ERR_CFG", 0x1004, 4, 1, false, [
    ⟨"SYM_THR", 0, 24, .rws, [4194304], .any⟩]⟩,
  ⟨"LANE_STAT", 0x0400, 4, 1, false, [
    ⟨"RETRAINS", 16, 8, .ro, [0], .any⟩,
    ⟨"PORT", 8, 6, .ro, [0], .any⟩,
    ⟨"RATE", 2, 2, .ro, [0], .any⟩,
    ⟨"TRAINING", 1, 1, .ro, [0], .any⟩,
    ⟨"LOCK", 0, 1, .ro, [0], .any⟩]⟩]

def regsXprt : List RegDef := [
  ⟨"XPRT_CFG", 0x1000, 4, 1, false, [
    ⟨"TIMEWAIT_MS", 24, 8, .rws, [10], .range 1 255⟩,
    ⟨"ACK_TIMEOUT", 19, 5, .rws, [10], .range 1 20⟩,
    ⟨"RETRY_CNT", 16, 3, .rws, [7], .any⟩,
    ⟨"RNR_RETRY", 13, 3, .rws, [7], .any⟩,
    ⟨"ACK_COAL", 7, 6, .rws, [16], .range 1 63⟩]⟩,
  ⟨"XPRT_ACK", 0x1004, 4, 1, false, [
    ⟨"ACK_DELAY", 0, 16, .rws, [2000], .range 100 65535⟩]⟩,
  ⟨"XPRT_WIN", 0x1008, 4, 1, false, [
    ⟨"REPLAY_LOG2", 0, 5, .rws, [20], .range 12 22⟩]⟩,
  ⟨"XPRT_RC", 0x1010, 4, 1, false, [
    ⟨"RC_DEC", 24, 8, .rws, [64], .range 1 255⟩,
    ⟨"RC_FAST_AFTER", 20, 4, .rws, [5], .range 1 15⟩,
    ⟨"RC_PERIOD", 0, 10, .rws, [50], .range 5 1000⟩]⟩,
  ⟨"XPRT_RC2", 0x1014, 4, 1, false, [
    ⟨"RC_ADD", 16, 16, .rws, [1000], .range 1 65535⟩,
    ⟨"RC_MIN", 0, 16, .rws, [10], .range 1 8000⟩]⟩,
  ⟨"XPRT_RC3", 0x1018, 4, 1, false, [
    ⟨"CNP_INTERVAL", 8, 8, .rws, [50], .range 1 255⟩,
    ⟨"RC_HOLD", 0, 8, .rws, [25], .range 1 255⟩]⟩,
  ⟨"XPRT_PIN", 0x1020, 4, 1, false, [
    ⟨"PIN_MAX", 0, 13, .rws, [1024], .range 0 4096⟩]⟩,
  ⟨"XPRT_STAT", 0x0400, 4, 1, true, [
    ⟨"CONNS", 0, 17, .ro, [0], .any⟩]⟩,
  ⟨"XPRT_CACHE_STAT", 0x0404, 4, 1, true, [
    ⟨"PINNED", 16, 13, .ro, [0], .any⟩,
    ⟨"CACHED", 0, 14, .ro, [0], .any⟩]⟩,
  ⟨"MISSQ_STAT", 0x0408, 4, 1, true, [
    ⟨"MAX", 16, 10, .rc, [0], .any⟩,
    ⟨"OCC", 0, 10, .ro, [0], .any⟩]⟩,
  ⟨"XPRT_CLOSE", 0x0410, 4, 1, false, [
    ⟨"GO", 31, 1, .wo, [0], .any⟩,
    ⟨"INDEX", 0, 16, .wo, [0], .any⟩]⟩]

def regsGard0 : List RegDef := [
  ⟨"KEY_CFG", 0x1000, 4, 1, false, [
    ⟨"KEY_QUIET_MS", 0, 16, .rws, [200], .range 1 65535⟩]⟩,
  ⟨"KEY_OP", 0x0400, 4, 1, false, [
    ⟨"GO", 31, 1, .wo, [0], .any⟩,
    ⟨"OP", 29, 2, .wo, [0], .any⟩,
    ⟨"INDEX", 0, 20, .wo, [0], .any⟩]⟩,
  ⟨"KEY_OP_STAT", 0x0404, 4, 1, false, [
    ⟨"BUSY", 31, 1, .ro, [0], .any⟩,
    ⟨"STATUS", 28, 3, .ro, [0], .any⟩,
    ⟨"NEW_GEN", 0, 8, .ro, [0], .any⟩]⟩,
  ⟨"KEY_STAT", 0x0408, 4, 1, true, [
    ⟨"VALID_KEYS", 0, 21, .ro, [0], .any⟩]⟩,
  ⟨"KEYLOG_STAT", 0x0410, 4, 1, true, [
    ⟨"WRAPPED", 8, 1, .ro, [0], .any⟩,
    ⟨"NEXT", 0, 8, .ro, [0], .any⟩]⟩]

def regsGard1 : List RegDef := [
  ⟨"SEAL_CFG", 0x1000, 4, 1, false, [
    ⟨"SEAL_FAIL_LIMIT", 24, 8, .rws, [16], .range 1 255⟩,
    ⟨"REKEY_LOG2", 0, 6, .rws, [39], .range 32 40⟩]⟩,
  ⟨"SEAL_STAT", 0x0400, 4, 1, true, [
    ⟨"SEALED_CONNS", 0, 17, .ro, [0], .any⟩]⟩]

def regsGard2 : List RegDef := [
  ⟨"XTS_STAT", 0x0400, 4, 1, true, [
    ⟨"ACTIVE_KEYS", 0, 17, .ro, [0], .any⟩]⟩]

def regsCmdq : List RegDef := [
  ⟨"CMDQ_CFG", 0x1000, 4, 1, false, [
    ⟨"MAX_IOQ", 16, 8, .rws, [128], .range 1 128⟩,
    ⟨"ACL", 12, 4, .rws, [3], .any⟩,
    ⟨"AERL", 8, 4, .rws, [3], .any⟩]⟩,
  ⟨"CMDQ_STAT", 0x0400, 4, 1, true, [
    ⟨"SLOTS_USED", 0, 19, .ro, [0], .any⟩]⟩,
  ⟨"CMDQ_SHARED", 0x0404, 4, 1, true, [
    ⟨"SHARED_FREE", 0, 19, .ro, [196608], .any⟩]⟩,
  ⟨"CMDQ_PEND", 0x0408, 4, 1, true, [
    ⟨"PENDING", 0, 22, .ro, [0], .any⟩]⟩,
  ⟨"CMDQ_MAXUSE", 0x040c, 4, 1, false, [
    ⟨"MAX", 0, 19, .rc, [0], .any⟩]⟩,
  ⟨"CMDQ_FW", 0x0410, 4, 1, true, [
    ⟨"HOLD", 31, 1, .ro, [0], .any⟩,
    ⟨"HELD", 0, 16, .ro, [0], .any⟩]⟩]

def regsRegn : List RegDef := [
  ⟨"REGN_CFG", 0x1000, 4, 1, false, [
    ⟨"DESTAGE_MS", 16, 16, .rws, [1000], .range 10 60000⟩,
    ⟨"DESTAGE_POOL", 8, 2, .rws, [0], .any⟩,
    ⟨"DESTAGE_EN", 0, 1, .rws, [0], .any⟩]⟩,
  ⟨"REGN_MIRROR", 0x1004, 4, 1, false, [
    ⟨"WARN_US", 0, 16, .rws, [100], .range 1 65535⟩]⟩,
  ⟨"REGN_STAT", 0x0400, 4, 1, true, [
    ⟨"ACTIVE_REGIONS", 0, 17, .ro, [0], .any⟩]⟩,
  ⟨"REGN_SPACE", 0x0404, 4, 1, true, [
    ⟨"PAGES_USED", 0, 22, .ro, [0], .any⟩]⟩,
  ⟨"REGN_DESTAGE_STAT", 0x0408, 4, 1, true, [
    ⟨"DIRTY_UNITS", 0, 20, .ro, [0], .any⟩]⟩,
  ⟨"REGN_DESTAGE_AGE", 0x040c, 4, 1, true, [
    ⟨"OLDEST_MS", 0, 32, .ro, [0], .any⟩]⟩,
  ⟨"REGN_OP", 0x0410, 4, 1, false, [
    ⟨"GO", 31, 1, .wo, [0], .any⟩,
    ⟨"OP", 29, 2, .wo, [0], .any⟩,
    ⟨"INDEX", 0, 16, .wo, [0], .any⟩]⟩,
  ⟨"REGN_OP_STAT", 0x0414, 4, 1, false, [
    ⟨"BUSY", 31, 1, .ro, [0], .any⟩,
    ⟨"STATUS", 28, 3, .ro, [0], .any⟩]⟩,
  ⟨"REGN_FLUSH_STAT", 0x0418, 4, 1, true, [
    ⟨"WAITING", 0, 20, .ro, [0], .any⟩]⟩]

def regsTmgr : List RegDef := [
  ⟨"TMGR_CFG", 0x1000, 4, 1, false, [
    ⟨"SHAPE_BURST_US", 16, 8, .rws, [8], .range 1 255⟩,
    ⟨"QUANTUM", 0, 14, .rws, [1024], .range 64 16383⟩]⟩,
  ⟨"TMGR_EXP", 0x1004, 4, 1, false, [
    ⟨"EXP_WINDOW_US", 0, 8, .rws, [100], .range 10 255⟩]⟩,
  ⟨"CAWARE_MAP", 0x1010, 4, 4, false, [
    ⟨"COLOUR", 0, 32, .rws, [0], .pairs⟩]⟩,
  ⟨"SAMPLE_CTL", 0x0400, 4, 1, false, [
    ⟨"FREEZE", 1, 1, .rw, [0], .any⟩,
    ⟨"STREAM_EN", 0, 1, .rw, [0], .any⟩]⟩,
  ⟨"SAMPLE_STAT", 0x0404, 4, 1, true, [
    ⟨"WRAPPED", 31, 1, .ro, [0], .any⟩,
    ⟨"NEXT", 0, 21, .ro, [0], .any⟩]⟩,
  ⟨"METER_GEN", 0x0410, 4, 1, true, [
    ⟨"GEN", 0, 32, .ro, [0], .any⟩]⟩,
  ⟨"METER_ACK", 0x0414, 4, 1, false, [
    ⟨"ACK", 0, 32, .rw, [0], .any⟩]⟩,
  ⟨"METER_OPEN", 0x0418, 4, 1, true, [
    ⟨"MINUTE", 0, 32, .ro, [0], .any⟩]⟩]

def regsVat : List RegDef := [
  ⟨"VAT_CFG", 0x1000, 4, 1, false, [
    ⟨"C0_AGE_NS", 0, 16, .rws, [4000], .range 500 65535⟩]⟩,
  ⟨"VAT_STAT", 0x0400, 4, 1, true, [
    ⟨"QUEUED", 0, 20, .ro, [0], .any⟩]⟩,
  ⟨"VAT_MAXQ", 0x0404, 4, 1, false, [
    ⟨"MAX", 0, 20, .rc, [0], .any⟩]⟩]

def regsCell : List RegDef := [
  ⟨"CELL_DT", 0x1000, 4, 1, false, [
    ⟨"ALPHA_C3", 24, 8, .rws, [16], .range 1 255⟩,
    ⟨"ALPHA_C2", 16, 8, .rws, [64], .range 1 255⟩,
    ⟨"ALPHA_C1", 8, 8, .rws, [8], .range 1 255⟩,
    ⟨"ALPHA_C0", 0, 8, .rws, [2], .range 1 255⟩]⟩,
  ⟨"CELL_FREE", 0x0400, 4, 1, true, [
    ⟨"FREE", 0, 20, .ro, [524288], .any⟩]⟩,
  ⟨"CELL_SHARED", 0x0404, 4, 1, true, [
    ⟨"SHARED_FREE", 0, 20, .ro, [499712], .any⟩]⟩,
  ⟨"CELL_MINFREE", 0x0408, 4, 1, false, [
    ⟨"MIN", 0, 20, .rc, [0], .any⟩]⟩,
  ⟨"CELL_BANK_CTL", 0x0410, 4, 1, false, [
    ⟨"GO", 31, 1, .wo, [0], .any⟩,
    ⟨"BANK", 0, 4, .wo, [0], .any⟩]⟩,
  ⟨"CELL_BANK_STAT", 0x0414, 4, 1, false, [
    ⟨"RETIRED", 0, 16, .ro, [0], .any⟩]⟩,
  ⟨"CELL_LOG_STAT", 0x0418, 4, 1, true, [
    ⟨"WRAPPED", 6, 1, .ro, [0], .any⟩,
    ⟨"NEXT", 0, 6, .ro, [0], .any⟩]⟩]

def regsJrnl : List RegDef := [
  ⟨"JRNL_CFG", 0x1000, 4, 1, false, [
    ⟨"DIRTY_LIMIT", 16, 8, .rws, [96], .range 16 176⟩,
    ⟨"HOLD_US", 0, 16, .rws, [100], .range 0 10000⟩]⟩,
  ⟨"JRNL_MIRROR", 0x1004, 4, 1, false, [
    ⟨"WARN_US", 0, 16, .rws, [100], .range 1 65535⟩]⟩,
  ⟨"JRNL_SAVE_CFG", 0x1008, 4, 1, false, [
    ⟨"PF_FILTER_US", 8, 8, .rws, [2], .range 1 255⟩,
    ⟨"SLICE_GIB", 0, 5, .rws, [1], .range 1 16⟩]⟩,
  ⟨"JRNL_DIRTY", 0x0400, 4, 1, true, [
    ⟨"DIRTY_MIB", 0, 14, .ro, [0], .any⟩]⟩,
  ⟨"JRNL_OCC", 0x0404, 4, 1, true, [
    ⟨"CHUNKS", 0, 12, .ro, [0], .any⟩]⟩,
  ⟨"JRNL_PENDING", 0x0408, 4, 1, true, [
    ⟨"PLACED_MIB", 0, 14, .ro, [0], .any⟩]⟩,
  ⟨"JRNL_SEQ", 0x040c, 4, 1, true, [
    ⟨"SEQ_LO", 0, 32, .ro, [0], .any⟩]⟩,
  ⟨"JRNL_INDEX", 0x0410, 4, 1, true, [
    ⟨"EXTENTS", 0, 25, .ro, [0], .any⟩]⟩,
  ⟨"JRNL_SAVE_EST", 0x0414, 4, 1, true, [
    ⟨"MS", 0, 16, .ro, [2], .any⟩]⟩,
  ⟨"JRNL_SAVE_STAT", 0x0418, 4, 1, false, [
    ⟨"MEMBERS", 8, 5, .ro, [0], .any⟩,
    ⟨"ARMED", 3, 1, .ro, [0], .any⟩,
    ⟨"PHASE", 0, 3, .ro, [0], .any⟩]⟩,
  ⟨"JRNL_RESTORE_STAT", 0x041c, 4, 1, true, [
    ⟨"LOSS", 19, 1, .ro, [0], .any⟩,
    ⟨"KEY_WAIT", 4, 15, .ro, [0], .any⟩,
    ⟨"REGN_SRC", 2, 2, .ro, [0], .any⟩,
    ⟨"JRNL_SRC", 0, 2, .ro, [0], .any⟩]⟩]

def regsCmpr : List RegDef := [
  ⟨"CMPR_CFG", 0x1000, 4, 1, false, [
    ⟨"INIT_CELLS", 16, 7, .rws, [32], .range 16 64⟩,
    ⟨"EXP_LANES", 8, 4, .rws, [2], .range 0 8⟩,
    ⟨"DESTAGE_FMT", 0, 2, .rws, [2], .enum [0, 1, 2]⟩]⟩,
  ⟨"CMPR_TEST", 0x1004, 4, 1, false, [
    ⟨"SELFTEST_MS", 0, 16, .rws, [1000], .any⟩]⟩,
  ⟨"CMPR_ERR", 0x1008, 4, 1, false, [
    ⟨"ERR_WINDOW_S", 8, 8, .rws, [60], .range 1 255⟩,
    ⟨"ERR_LIMIT", 0, 8, .rws, [8], .range 1 255⟩]⟩,
  ⟨"CMPR_STAT", 0x0400, 4, 1, false, [
    ⟨"CLANES_ON", 8, 6, .ro, [40], .any⟩,
    ⟨"DLANES_ON", 0, 5, .ro, [20], .any⟩]⟩,
  ⟨"CMPR_CRET_LO", 0x0404, 4, 1, false, [
    ⟨"RETIRED", 0, 32, .ro, [0], .any⟩]⟩,
  ⟨"CMPR_CRET_HI", 0x0408, 4, 1, false, [
    ⟨"RETIRED", 0, 8, .ro, [0], .any⟩]⟩,
  ⟨"CMPR_DRET", 0x040c, 4, 1, false, [
    ⟨"RETIRED", 0, 20, .ro, [0], .any⟩]⟩,
  ⟨"CMPR_LANE_CTL", 0x0410, 4, 1, false, [
    ⟨"GO", 31, 1, .wo, [0], .any⟩,
    ⟨"KIND", 6, 1, .wo, [0], .any⟩,
    ⟨"LANE", 0, 6, .wo, [0], .any⟩]⟩,
  ⟨"CMPR_LOG_STAT", 0x0414, 4, 1, true, [
    ⟨"WRAPPED", 6, 1, .ro, [0], .any⟩,
    ⟨"NEXT", 0, 6, .ro, [0], .any⟩]⟩]

def regsPlce : List RegDef := [
  ⟨"PLCE_CFG", 0x1000, 4, 1, false, [
    ⟨"WB_US", 16, 16, .rws, [1000], .range 100 65535⟩,
    ⟨"FILL_US", 0, 16, .rws, [200], .range 10 65535⟩]⟩,
  ⟨"PLCE_STALL", 0x1004, 4, 1, false, [
    ⟨"PLACE_STALL_MS", 0, 16, .rws, [10000], .range 100 65535⟩]⟩,
  ⟨"PLCE_PRESS_CFG", 0x1008, 4, 1, false, [
    ⟨"PRESS_MIN_FREE", 0, 8, .rws, [32], .range 1 255⟩]⟩,
  ⟨"PLCE_PIN", 0x100c, 4, 1, false, [
    ⟨"PIN_MAX_PAGES", 0, 23, .rws, [1048576], .any⟩]⟩,
  ⟨"PLCE_MAP_STAT", 0x0400, 4, 1, true, [
    ⟨"FRAMES", 0, 24, .ro, [11534336], .any⟩]⟩,
  ⟨"PLCE_MAP_DIRTY", 0x0404, 4, 1, true, [
    ⟨"DIRTY", 0, 24, .ro, [0], .any⟩]⟩,
  ⟨"PLCE_MAP_PINNED", 0x0408, 4, 1, true, [
    ⟨"PINNED", 0, 23, .ro, [0], .any⟩]⟩,
  ⟨"PLCE_PRESS_CTL", 0x0410, 4, 1, false, [
    ⟨"PAUSE", 0, 4, .rw, [0], .any⟩]⟩,
  ⟨"PLCE_PRESS_STAT", 0x0414, 4, 1, false, [
    ⟨"RUNNING", 0, 4, .ro, [0], .any⟩]⟩,
  ⟨"PLCE_VOL_OP", 0x0420, 4, 1, false, [
    ⟨"GO", 31, 1, .wo, [0], .any⟩,
    ⟨"VOLUME", 0, 14, .wo, [0], .any⟩]⟩,
  ⟨"PLCE_VOL_OP_STAT", 0x0424, 4, 1, false, [
    ⟨"BUSY", 31, 1, .ro, [0], .any⟩,
    ⟨"STATUS", 28, 3, .ro, [0], .any⟩]⟩]

def regsPool : List RegDef := [
  ⟨"POOL_CFG", 0x1000, 4, 1, false, [
    ⟨"MAP_GIB", 24, 8, .rws, [16], .range 1 64⟩,
    ⟨"D", 16, 5, .rws, [2], .any⟩,
    ⟨"PROT", 8, 2, .rws, [0], .any⟩,
    ⟨"TURNER_EN", 1, 1, .rws, [1], .any⟩,
    ⟨"DEFINED", 0, 1, .rws, [0], .any⟩]⟩,
  ⟨"POOL_BAYS", 0x1004, 4, 1, false, [
    ⟨"MEMBER_MASK", 0, 24, .rws, [0], .any⟩]⟩,
  ⟨"POOL_SPARES", 0x1008, 4, 1, false, [
    ⟨"SPARE_MASK", 0, 24, .rws, [0], .any⟩]⟩,
  ⟨"POOL_ID_LO", 0x1010, 4, 1, false, [
    ⟨"ID", 0, 32, .rws, [0], .any⟩]⟩,
  ⟨"POOL_ID_HI", 0x1014, 4, 1, false, [
    ⟨"ID", 0, 32, .rws, [0], .any⟩]⟩,
  ⟨"POOL_STAT", 0x0400, 4, 1, true, [
    ⟨"W", 16, 5, .ro, [0], .any⟩,
    ⟨"OSL_SRC", 12, 2, .ro, [0], .any⟩,
    ⟨"MARGIN", 8, 2, .ro, [0], .any⟩,
    ⟨"IMPORT_PHASE", 4, 3, .ro, [0], .any⟩,
    ⟨"STATE", 0, 3, .ro, [0], .any⟩]⟩,
  ⟨"REBUILD_STAT", 0x0404, 4, 1, true, [
    ⟨"RBSTATE", 30, 2, .ro, [0], .any⟩,
    ⟨"CURSOR", 0, 30, .ro, [0], .any⟩]⟩,
  ⟨"REBUILD_LEFT", 0x0408, 4, 1, true, [
    ⟨"SEGMENTS", 0, 32, .ro, [0], .any⟩]⟩,
  ⟨"TURNER_STAT", 0x040c, 4, 1, false, [
    ⟨"RUNNING", 31, 1, .ro, [0], .any⟩,
    ⟨"CURSOR", 0, 30, .ro, [0], .any⟩]⟩,
  ⟨"TURNER_PASS", 0x0410, 4, 1, false, [
    ⟨"PASSES", 0, 32, .ro, [0], .any⟩]⟩,
  ⟨"POOL_OP", 0x0420, 4, 1, false, [
    ⟨"GO", 31, 1, .wo, [0], .any⟩,
    ⟨"OP", 28, 3, .wo, [0], .any⟩,
    ⟨"BAY", 0, 5, .wo, [0], .any⟩]⟩,
  ⟨"POOL_OP_STAT", 0x0424, 4, 1, false, [
    ⟨"BUSY", 31, 1, .ro, [0], .any⟩,
    ⟨"STATUS", 28, 3, .ro, [0], .any⟩]⟩,
  ⟨"LOSS_STAT", 0x0428, 4, 1, true, [
    ⟨"ENTRIES", 0, 16, .ro, [0], .any⟩]⟩]

def regsDrvp : List RegDef := [
  ⟨"DRV_CFG", 0x1000, 4, 1, false, [
    ⟨"PERST_MS", 8, 8, .rws, [100], .range 100 255⟩,
    ⟨"AUTO_EN", 4, 1, .rws, [1], .any⟩,
    ⟨"DUALPORT_EN", 3, 1, .rws, [1], .any⟩,
    ⟨"SRIS", 2, 1, .rws, [0], .any⟩,
    ⟨"TARGET_GEN", 0, 2, .rws, [2], .enum [0, 1, 2]⟩]⟩,
  ⟨"DRV_TO", 0x1004, 4, 1, false, [
    ⟨"RESET_AFTER", 28, 3, .rws, [3], .range 1 7⟩,
    ⟨"RETRY_MAX", 24, 3, .rws, [2], .any⟩,
    ⟨"CTO_MS", 16, 8, .rws, [50], .range 1 255⟩,
    ⟨"CMD_TIMEOUT_MS", 0, 16, .rws, [2000], .range 100 60000⟩]⟩,
  ⟨"DRV_ERR", 0x1008, 4, 1, false, [
    ⟨"ERR_WINDOW_S", 24, 8, .rws, [60], .range 1 255⟩,
    ⟨"TO_LIMIT", 16, 8, .rws, [16], .any⟩,
    ⟨"RESET_LIMIT", 8, 8, .rws, [4], .any⟩,
    ⟨"MEDIA_LIMIT", 0, 8, .rws, [64], .any⟩]⟩,
  ⟨"DRV_PS", 0x100c, 4, 1, false, [
    ⟨"IDLE_MS", 16, 16, .rws, [1000], .range 10 65535⟩,
    ⟨"PS_TARGET", 2, 5, .rws, [0], .any⟩,
    ⟨"MODE", 0, 2, .rws, [0], .enum [0, 1, 2]⟩]⟩,
  ⟨"DRV_QOS", 0x1010, 4, 1, false, [
    ⟨"BG_MIN", 16, 12, .rws, [256], .any⟩,
    ⟨"BG_MAX", 0, 12, .rws, [1024], .any⟩]⟩,
  ⟨"BAY_STAT", 0x0400, 4, 1, false, [
    ⟨"UNFIT_CODE", 24, 4, .ro, [0], .any⟩,
    ⟨"PS", 16, 5, .ro, [0], .any⟩,
    ⟨"CLKREQ", 15, 1, .ro, [0], .any⟩,
    ⟨"FLIT", 14, 1, .ro, [0], .any⟩,
    ⟨"WIDTH", 11, 3, .ro, [0], .any⟩,
    ⟨"GEN", 9, 2, .ro, [0], .any⟩,
    ⟨"NVME", 6, 3, .ro, [0], .any⟩,
    ⟨"READY", 2, 1, .ro, [0], .any⟩,
    ⟨"LINK_UP", 1, 1, .ro, [0], .any⟩,
    ⟨"PRESENT", 0, 1, .ro, [0], .any⟩]⟩,
  ⟨"BAY_OUT", 0x0404, 4, 1, false, [
    ⟨"QUAR", 16, 13, .ro, [0], .any⟩,
    ⟨"OUTSTANDING", 0, 13, .ro, [0], .any⟩]⟩,
  ⟨"BAY_LIMIT", 0x0408, 4, 1, false, [
    ⟨"IOQ", 16, 7, .ro, [0], .any⟩,
    ⟨"LIMIT", 0, 13, .ro, [0], .any⟩]⟩,
  ⟨"BAY_ERRCNT", 0x040c, 4, 1, false, [
    ⟨"MEDIA", 16, 8, .ro, [0], .any⟩,
    ⟨"RESETS", 8, 8, .ro, [0], .any⟩,
    ⟨"TO", 0, 8, .ro, [0], .any⟩]⟩,
  ⟨"BAY_RT", 0x0410, 4, 1, false, [
    ⟨"RESET2", 1, 1, .wo, [0], .any⟩,
    ⟨"RESET1", 0, 1, .wo, [0], .any⟩]⟩]

def regsBayp : List RegDef := [
  ⟨"BAY_PWR_CFG", 0x1000, 4, 1, false, [
    ⟨"RETRIES", 24, 3, .rws, [3], .any⟩,
    ⟨"FAULT_MS", 16, 6, .rws, [10], .range 1 50⟩,
    ⟨"PLIM", 8, 8, .rws, [16], .range 4 32⟩,
    ⟨"ILIM", 0, 8, .rws, [40], .range 5 60⟩]⟩,
  ⟨"BAY_PWR_CFG2", 0x1004, 4, 1, false, [
    ⟨"RSENSE", 16, 8, .rws, [20], .range 5 100⟩,
    ⟨"DMG_BLANK_MS", 8, 8, .rws, [50], .range 10 255⟩,
    ⟨"RETRY_INT", 0, 7, .rws, [8], .range 1 64⟩]⟩,
  ⟨"BAY_PWR_STAT", 0x0400, 4, 1, false, [
    ⟨"LAST_CAUSE", 12, 4, .ro, [0], .any⟩,
    ⟨"RETRY_CNT", 8, 3, .ro, [0], .any⟩,
    ⟨"LIMIT", 5, 1, .ro, [0], .any⟩,
    ⟨"PG", 4, 1, .ro, [0], .any⟩,
    ⟨"DMG", 3, 1, .ro, [0], .any⟩,
    ⟨"CH", 0, 3, .ro, [0], .any⟩]⟩,
  ⟨"BAY_PWR_V", 0x0404, 4, 1, false, [
    ⟨"VOUT12", 16, 16, .ro, [0], .any⟩,
    ⟨"VIN12", 0, 16, .ro, [0], .any⟩]⟩,
  ⟨"BAY_PWR_I", 0x0408, 4, 1, false, [
    ⟨"VOUT3", 16, 16, .ro, [0], .any⟩,
    ⟨"I12", 0, 16, .ro, [0], .any⟩]⟩,
  ⟨"BAY_PWR_LAST", 0x040c, 4, 1, false, [
    ⟨"FET_MJ", 16, 16, .ro, [0], .any⟩,
    ⟨"LIMIT_TICKS", 0, 16, .ro, [0], .any⟩]⟩]

def regsPair : List RegDef := [
  ⟨"PAIR_CFG", 0x1000, 4, 1, false, [
    ⟨"LINK_LOSS_US", 16, 16, .rws, [200], .range 10 65535⟩,
    ⟨"HB_TIMEOUT_MS", 8, 8, .rws, [5], .range 2 50⟩,
    ⟨"AUTO_TAKEOVER", 1, 1, .rws, [1], .any⟩,
    ⟨"MODE", 0, 1, .rws, [0], .any⟩]⟩,
  ⟨"PAIR_CKPT", 0x1004, 4, 1, false, [
    ⟨"DISCOVER_MS", 16, 16, .rws, [500], .range 100 65535⟩,
    ⟨"CKPT_US", 0, 16, .rws, [50], .range 10 1000⟩]⟩,
  ⟨"PAIR_CULTURE", 0x1008, 4, 1, false, [
    ⟨"SYNC_PCT", 16, 8, .rws, [50], .range 10 90⟩,
    ⟨"CULTURE_MS", 0, 16, .rws, [1000], .range 100 65535⟩]⟩,
  ⟨"PEER_WIN_CTL", 0x1100, 16, 8, false, [
    ⟨"VALID", 31, 1, .rws, [1, 1, 1, 0], .any⟩,
    ⟨"KIND", 0, 2, .rws, [1, 2, 3, 0], .any⟩]⟩,
  ⟨"PEER_WIN_RBASE", 0x1104, 16, 8, false, [
    ⟨"REMOTE_BASE", 0, 18, .rws, [0], .any⟩]⟩,
  ⟨"PEER_WIN_LBASE", 0x1108, 16, 8, false, [
    ⟨"LOCAL_BASE", 0, 18, .rws, [0], .any⟩]⟩,
  ⟨"PEER_WIN_SIZE", 0x110c, 16, 8, false, [
    ⟨"SIZE", 0, 18, .rws, [196608, 131072, 32768, 0], .any⟩]⟩,
  ⟨"PAIR_STAT", 0x0400, 4, 1, false, [
    ⟨"VER", 24, 8, .ro, [0], .any⟩,
    ⟨"LANES_UP", 16, 5, .ro, [0], .any⟩,
    ⟨"MIRROR_VALID", 15, 1, .ro, [0], .any⟩,
    ⟨"LINK_UP", 14, 1, .ro, [0], .any⟩,
    ⟨"HB_OK", 13, 1, .ro, [0], .any⟩,
    ⟨"FENCE_OUT", 12, 1, .ro, [0], .any⟩,
    ⟨"FENCE_IN", 11, 1, .ro, [0], .any⟩,
    ⟨"OWN_IN", 10, 1, .ro, [0], .any⟩,
    ⟨"OWN", 9, 1, .ro, [0], .any⟩,
    ⟨"SLOT", 8, 1, .ro, [0], .any⟩,
    ⟨"PARTNER", 4, 2, .ro, [0], .any⟩,
    ⟨"UNFIT", 3, 1, .ro, [0], .any⟩,
    ⟨"ROLE", 0, 3, .ro, [0], .any⟩]⟩,
  ⟨"PAIR_SYNC", 0x0404, 4, 1, false, [
    ⟨"DONE_PCT", 0, 7, .ro, [0], .any⟩]⟩,
  ⟨"PAIR_CKPT_AGE", 0x0408, 4, 1, false, [
    ⟨"MAX_US", 0, 32, .rc, [0], .any⟩]⟩,
  ⟨"PAIR_RT", 0x0410, 4, 1, false, [
    ⟨"RELEASE", 2, 1, .wo, [0], .any⟩,
    ⟨"FORCE_CLAIM", 1, 1, .wo, [0], .any⟩,
    ⟨"UNFENCE", 0, 1, .wo, [0], .any⟩]⟩]

def regsMgmt1 : List RegDef := [
  ⟨"POL_CFG", 0x1000, 4, 1, false, [
    ⟨"ADAPT_MS", 24, 8, .rws, [10], .range 1 255⟩,
    ⟨"AUTO", 0, 7, .rws, [63], .any⟩]⟩,
  ⟨"POL_PC", 0x1004, 4, 1, false, [
    ⟨"PC_WINDOW_S", 24, 8, .rws, [60], .range 1 255⟩,
    ⟨"PC_CE_LIMIT", 0, 16, .rws, [1024], .range 1 65535⟩]⟩,
  ⟨"POL_BANK", 0x1008, 4, 1, false, [
    ⟨"BANK_WINDOW_S", 24, 8, .rws, [60], .range 1 255⟩,
    ⟨"BANK_CE_LIMIT", 0, 16, .rws, [256], .range 1 65535⟩]⟩,
  ⟨"POL_BRITOS", 0x100c, 4, 1, false, [
    ⟨"WINDOW_S", 8, 8, .rws, [60], .range 1 255⟩,
    ⟨"LIMIT", 0, 8, .rws, [4], .any⟩]⟩,
  ⟨"POL_PC_RETIRED", 0x0400, 4, 2, true, [
    ⟨"RETIRED", 0, 32, .ro, [0], .any⟩]⟩,
  ⟨"POL_DEFER", 0x0408, 4, 1, true, [
    ⟨"COUNT", 0, 6, .ro, [0], .any⟩]⟩]

def regsMgmt3 : List RegDef := [
  ⟨"THERM_CFG", 0x1000, 4, 1, false, [
    ⟨"THROTTLE_C", 24, 8, .rws, [90], .any⟩,
    ⟨"HYST_C", 20, 4, .rws, [5], .range 1 15⟩]⟩,
  ⟨"THERM_CAP", 0x1004, 4, 1, false, [
    ⟨"L2_MBS", 16, 16, .rws, [40000], .any⟩,
    ⟨"L3_MBS", 0, 16, .rws, [10000], .any⟩]⟩,
  ⟨"THERM_STAT", 0x0400, 4, 1, false, [
    ⟨"LEVEL", 8, 2, .ro, [0], .any⟩,
    ⟨"TJ", 0, 8, .ro, [0], .any⟩]⟩,
  ⟨"FW_CTL", 0x0410, 4, 1, false, [
    ⟨"ACTIVATE", 31, 1, .wo, [0], .any⟩,
    ⟨"SLOT", 0, 1, .wo, [0], .any⟩]⟩,
  ⟨"FW_STAT", 0x0414, 4, 1, true, [
    ⟨"BUSY", 31, 1, .ro, [0], .any⟩,
    ⟨"PHASE", 6, 2, .ro, [0], .any⟩,
    ⟨"RESULT", 3, 3, .ro, [0], .any⟩,
    ⟨"BOOT_SLOT", 1, 1, .ro, [0], .any⟩,
    ⟨"RUNNING_SLOT", 0, 1, .ro, [0], .any⟩]⟩,
  ⟨"FW_VER", 0x0418, 4, 1, true, [
    ⟨"VERSION", 0, 32, .ro, [0], .any⟩]⟩]

def regsMgmt2 : List RegDef := [
  ⟨"FLT_VEC0", 0x1000, 4, 1, false, [
    ⟨"CONTAINED_VEC", 16, 11, .rws, [1], .any⟩,
    ⟨"FATAL_VEC", 0, 11, .rws, [0], .any⟩]⟩,
  ⟨"FLT_VEC1", 0x1004, 4, 1, false, [
    ⟨"CORRECTED_VEC", 0, 11, .rws, [2], .any⟩]⟩,
  ⟨"FLT_PIN_CFG", 0x1008, 4, 1, false, [
    ⟨"ALERT_ON_CORR", 0, 1, .rws, [0], .any⟩]⟩,
  ⟨"FLT_SUM", 0x0400, 4, 32, true, [
    ⟨"PENDING", 0, 32, .ro, [0], .any⟩]⟩,
  ⟨"FLT_CLASS_STAT", 0x0480, 4, 1, true, [
    ⟨"FATAL", 2, 1, .ro, [0], .any⟩,
    ⟨"CONTAINED", 1, 1, .ro, [0], .any⟩,
    ⟨"CORRECTED", 0, 1, .ro, [0], .any⟩]⟩,
  ⟨"FLT_TEST_STAT", 0x0490, 4, 1, true, [
    ⟨"LOCKED", 2, 1, .ro, [0], .any⟩,
    ⟨"STRAP", 1, 1, .ro, [0], .any⟩,
    ⟨"FACTORY", 0, 1, .ro, [0], .any⟩]⟩,
  ⟨"CNT_GLOBAL", 0x04a0, 4, 1, false, [
    ⟨"CLEAR_ALL", 1, 1, .wo, [0], .any⟩,
    ⟨"FREEZE_ALL", 0, 1, .rw, [0], .any⟩]⟩]

def regsMgmt0 : List RegDef := [
  ⟨"EP_STAT", 0x0400, 4, 1, true, [
    ⟨"DOWN_COUNT", 16, 16, .ro, [0], .any⟩,
    ⟨"DSTATE", 0, 2, .ro, [0], .any⟩]⟩,
  ⟨"MBOX_RQ_LO", 0x0410, 4, 1, false, [
    ⟨"ADDR", 6, 26, .rw, [0], .any⟩]⟩,
  ⟨"MBOX_CQ_LO", 0x0418, 4, 1, false, [
    ⟨"ADDR", 6, 26, .rw, [0], .any⟩]⟩,
  ⟨"MBOX_RQ_HI", 0x0414, 4, 1, false, [
    ⟨"ADDR", 0, 32, .rw, [0], .any⟩]⟩,
  ⟨"MBOX_CQ_HI", 0x041c, 4, 1, false, [
    ⟨"ADDR", 0, 32, .rw, [0], .any⟩]⟩,
  ⟨"MBOX_CFG", 0x0420, 4, 1, false, [
    ⟨"EN", 31, 1, .rw, [0], .any⟩,
    ⟨"VECTOR", 16, 11, .rw, [3], .any⟩,
    ⟨"SIZE_LOG2", 0, 4, .rw, [4], .range 2 8⟩]⟩,
  ⟨"MBOX_DB", 0x0424, 4, 1, false, [
    ⟨"TAIL", 0, 8, .rw, [0], .any⟩]⟩,
  ⟨"MBOX_STAT", 0x0428, 4, 1, false, [
    ⟨"BUSY", 8, 1, .ro, [0], .any⟩,
    ⟨"HEAD", 0, 8, .ro, [0], .any⟩]⟩,
  ⟨"EVR_LO", 0x0440, 16, 4, false, [
    ⟨"ADDR", 5, 27, .rw, [0], .any⟩]⟩,
  ⟨"EVR_HI", 0x0444, 16, 4, false, [
    ⟨"ADDR", 0, 32, .rw, [0], .any⟩]⟩,
  ⟨"EVR_CFG", 0x0448, 16, 4, false, [
    ⟨"EN", 31, 1, .rw, [0], .any⟩,
    ⟨"VECTOR", 16, 11, .rw, [4, 5, 6, 7], .any⟩,
    ⟨"TYPE_MASK", 8, 8, .rw, [128], .any⟩,
    ⟨"SIZE_LOG2", 0, 4, .rw, [8], .range 4 12⟩]⟩,
  ⟨"EVR_HEAD", 0x044c, 16, 4, false, [
    ⟨"HEAD", 0, 12, .rw, [0], .any⟩]⟩,
  ⟨"EVR_STAT", 0x0480, 4, 4, false, [
    ⟨"LOST", 16, 16, .ro, [0], .any⟩,
    ⟨"TAIL", 0, 12, .ro, [0], .any⟩]⟩]

/-- The block-specific registers of each page type. -/
def blockRegs : PageType → List RegDef
  | .dev => regsDev
  | .grp0 => regsGrp ++ regsPtp
  | .grp => regsGrp
  | .lane => regsLane
  | .xprt => regsXprt
  | .gard0 => regsGard0
  | .gard1 => regsGard1
  | .gard2 => regsGard2
  | .cmdq => regsCmdq
  | .regn => regsRegn
  | .tmgr => regsTmgr
  | .vat => regsVat
  | .cell => regsCell
  | .jrnl => regsJrnl
  | .cmpr => regsCmpr
  | .plce => regsPlce
  | .pool => regsPool
  | .strpCommon => []
  | .drvp => regsDrvp
  | .bayp => regsBayp
  | .pair => regsPair
  | .mgmt0 => regsMgmt0
  | .mgmt1 => regsMgmt1
  | .mgmt2 => regsMgmt2
  | .mgmt3 => regsMgmt3

/-- The reset value of a field of the n-th register of an array: one value for all, or one for each with the last repeated
(Tables 16.10, 19.8). -/
def RegField.resetAt (f : RegField) (n : Nat) : Nat := f.reset.getD n (f.reset.getLastD 0)

end Sys2Proof.Machine
end

