-- ==== Sys2Proof/Machine/Sources.lean ====
section
/-!
DEFINITION. The fault sources of every page with their default classes and privileged marks (Tables 3.10, 4.14, 5.10, 6.14, 7.12, 8.12,
9.10, 10.9, 11.6, 12.11, 13.17, 14.8, 15.6, 16.12, 17.9, 18.2), and the performance-counter events of every page (Tables 3.11, 4.15,
5.11, 6.15, 7.13, 8.13, 9.11, 10.10, 11.7, 12.12, 13.18, 14.9, 15.7, 16.13, 17.10, 18.7, 19.9).
`S.<BLOCK>_<SOURCE>` names a source on the page of lowest instance that carries it, `E.<BLOCK>_<EVENT>` an event likewise;
`.on n` is the same on instance n.
-/
namespace Sys2Proof.Machine

/-- A fault source: the page that carries it and its local number there. -/
structure Src where
  page : Page
  loc : Nat
deriving DecidableEq, Repr

/-- The same source on another instance of the block. -/
def Src.on (s : Src) (inst : Nat) : Src := ⟨⟨s.page.blk, inst⟩, s.loc⟩
/-- The k-th source of an array of sources. -/
def Src.nth (s : Src) (k : Nat) : Src := ⟨s.page, s.loc + k⟩

/-- A performance-counter event: the page that counts it and its number. -/
structure Evt where
  page : Page
  num : Nat
deriving DecidableEq, Repr

def Evt.on (e : Evt) (inst : Nat) : Evt := ⟨⟨e.page.blk, inst⟩, e.num⟩
def Evt.nth (e : Evt) (k : Nat) : Evt := ⟨e.page, e.num + k⟩

abbrev S.LINE_LINK_DOWN : Src := ⟨⟨.line, 0⟩, 0⟩
abbrev S.LINE_LANE_RETIRED : Src := ⟨⟨.line, 0⟩, 1⟩
abbrev S.LINE_PORT_NARROWED : Src := ⟨⟨.line, 0⟩, 2⟩
abbrev S.LINE_TP_TABLE_CE : Src := ⟨⟨.line, 0⟩, 3⟩
abbrev S.LINE_TP_TABLE_UE : Src := ⟨⟨.line, 0⟩, 4⟩
abbrev S.LINE_PTP_LOSS : Src := ⟨⟨.line, 0⟩, 5⟩
abbrev S.LINE_PTP_STEP : Src := ⟨⟨.line, 0⟩, 6⟩
abbrev S.LINE_MAC_PARITY : Src := ⟨⟨.line, 0⟩, 7⟩
abbrev S.XPRT_CTX_CE : Src := ⟨⟨.xprt, 0⟩, 0⟩
abbrev S.XPRT_CTX_UE : Src := ⟨⟨.xprt, 0⟩, 1⟩
abbrev S.XPRT_MISSQ_OVF : Src := ⟨⟨.xprt, 0⟩, 2⟩
abbrev S.XPRT_RETRY_EXHAUSTED : Src := ⟨⟨.xprt, 0⟩, 3⟩
abbrev S.XPRT_FETCH_LATE : Src := ⟨⟨.xprt, 0⟩, 4⟩
abbrev S.XPRT_CM_PROTO : Src := ⟨⟨.xprt, 0⟩, 5⟩
abbrev S.XPRT_CONN_LIMIT : Src := ⟨⟨.xprt, 0⟩, 6⟩
abbrev S.XPRT_CACHE_PARITY : Src := ⟨⟨.xprt, 0⟩, 7⟩
abbrev S.GARD_KEY_CE : Src := ⟨⟨.gard, 0⟩, 0⟩
abbrev S.GARD_KEY_UE : Src := ⟨⟨.gard, 0⟩, 1⟩
abbrev S.GARD_KEY_CACHE_PARITY : Src := ⟨⟨.gard, 0⟩, 2⟩
abbrev S.GARD_SEAL_FAIL : Src := ⟨⟨.gard, 1⟩, 0⟩
abbrev S.GARD_REKEY_LATE : Src := ⟨⟨.gard, 1⟩, 1⟩
abbrev S.GARD_SLOT_UE : Src := ⟨⟨.gard, 1⟩, 2⟩
abbrev S.GARD_AUTH_FAIL : Src := ⟨⟨.gard, 1⟩, 3⟩
abbrev S.GARD_ENGINE_SELFTEST1 : Src := ⟨⟨.gard, 1⟩, 4⟩
abbrev S.GARD_XTS_KEY_UE : Src := ⟨⟨.gard, 2⟩, 0⟩
abbrev S.GARD_ENGINE_SELFTEST2 : Src := ⟨⟨.gard, 2⟩, 1⟩
abbrev S.CMDQ_SLOT_CE : Src := ⟨⟨.cmdq, 0⟩, 0⟩
abbrev S.CMDQ_SLOT_UE : Src := ⟨⟨.cmdq, 0⟩, 1⟩
abbrev S.CMDQ_SQ_OVERRUN : Src := ⟨⟨.cmdq, 0⟩, 2⟩
abbrev S.CMDQ_SHARED_EMPTY : Src := ⟨⟨.cmdq, 0⟩, 3⟩
abbrev S.CMDQ_DEFERRED_ERR : Src := ⟨⟨.cmdq, 0⟩, 4⟩
abbrev S.CMDQ_KATO_EXPIRED : Src := ⟨⟨.cmdq, 0⟩, 5⟩
abbrev S.CMDQ_FW_HOLD_LONG : Src := ⟨⟨.cmdq, 0⟩, 6⟩
abbrev S.CMDQ_STAGE_PARITY : Src := ⟨⟨.cmdq, 0⟩, 7⟩
abbrev S.REGN_HBM_CE : Src := ⟨⟨.regn, 0⟩, 0⟩
abbrev S.REGN_HBM_UE : Src := ⟨⟨.regn, 0⟩, 1⟩
abbrev S.REGN_MIRROR_LATE : Src := ⟨⟨.regn, 0⟩, 2⟩
abbrev S.REGN_NOTIFY_DROP : Src := ⟨⟨.regn, 0⟩, 3⟩
abbrev S.REGN_DESTAGE_LAG : Src := ⟨⟨.regn, 0⟩, 4⟩
abbrev S.REGN_DESTAGE_FAIL : Src := ⟨⟨.regn, 0⟩, 5⟩
abbrev S.REGN_CTL_PROTO : Src := ⟨⟨.regn, 0⟩, 6⟩
abbrev S.REGN_ORDER_PARITY : Src := ⟨⟨.regn, 0⟩, 7⟩
abbrev S.TMGR_TBL_CE : Src := ⟨⟨.tmgr, 0⟩, 0⟩
abbrev S.TMGR_TBL_UE : Src := ⟨⟨.tmgr, 0⟩, 1⟩
abbrev S.TMGR_METER_OVERRUN : Src := ⟨⟨.tmgr, 0⟩, 2⟩
abbrev S.TMGR_METER_SAT : Src := ⟨⟨.tmgr, 0⟩, 3⟩
abbrev S.TMGR_EXP_CAP_HIT : Src := ⟨⟨.tmgr, 0⟩, 4⟩
abbrev S.TMGR_POL_PARITY : Src := ⟨⟨.tmgr, 0⟩, 5⟩
abbrev S.TMGR_SCHED_PARITY : Src := ⟨⟨.tmgr, 0⟩, 6⟩
abbrev S.VAT_SCHED_PARITY : Src := ⟨⟨.vat, 0⟩, 0⟩
abbrev S.VAT_VOQ_PARITY : Src := ⟨⟨.vat, 0⟩, 1⟩
abbrev S.VAT_DEAD_OUT : Src := ⟨⟨.vat, 0⟩, 2⟩
abbrev S.CELL_BAD_FREE : Src := ⟨⟨.cell, 0⟩, 0⟩
abbrev S.CELL_SRAM_CE : Src := ⟨⟨.cell, 0⟩, 1⟩
abbrev S.CELL_SRAM_UE : Src := ⟨⟨.cell, 0⟩, 2⟩
abbrev S.CELL_PUSHOUT : Src := ⟨⟨.cell, 0⟩, 3⟩
abbrev S.CELL_NET_DROP : Src := ⟨⟨.cell, 0⟩, 4⟩
abbrev S.CELL_BANK_RETIRED : Src := ⟨⟨.cell, 0⟩, 5⟩
abbrev S.CELL_META_PARITY : Src := ⟨⟨.cell, 0⟩, 6⟩
abbrev S.JRNL_HBM_CE : Src := ⟨⟨.jrnl, 0⟩, 0⟩
abbrev S.JRNL_HBM_UE : Src := ⟨⟨.jrnl, 0⟩, 1⟩
abbrev S.JRNL_MIRROR_LATE : Src := ⟨⟨.jrnl, 0⟩, 2⟩
abbrev S.JRNL_DIRTY_LIMIT_HIT : Src := ⟨⟨.jrnl, 0⟩, 3⟩
abbrev S.JRNL_INDEX_FULL : Src := ⟨⟨.jrnl, 0⟩, 4⟩
abbrev S.JRNL_SAVE_DEGRADED : Src := ⟨⟨.jrnl, 0⟩, 5⟩
abbrev S.JRNL_SAVE_FAIL : Src := ⟨⟨.jrnl, 0⟩, 6⟩
abbrev S.JRNL_RESTORE_LOSS : Src := ⟨⟨.jrnl, 0⟩, 7⟩
abbrev S.JRNL_INDEX_PARITY : Src := ⟨⟨.jrnl, 0⟩, 8⟩
abbrev S.CMPR_LANE_CE : Src := ⟨⟨.cmpr, 0⟩, 0⟩
abbrev S.CMPR_LANE_ERR : Src := ⟨⟨.cmpr, 0⟩, 1⟩
abbrev S.CMPR_LANE_RETIRED : Src := ⟨⟨.cmpr, 0⟩, 2⟩
abbrev S.CMPR_SELFTEST : Src := ⟨⟨.cmpr, 0⟩, 3⟩
abbrev S.CMPR_INTEGRITY : Src := ⟨⟨.cmpr, 0⟩, 4⟩
abbrev S.CMPR_ABANDON : Src := ⟨⟨.cmpr, 0⟩, 5⟩
abbrev S.CMPR_NO_LANES : Src := ⟨⟨.cmpr, 0⟩, 6⟩
abbrev S.CMPR_CTL_PARITY : Src := ⟨⟨.cmpr, 0⟩, 7⟩
abbrev S.PLCE_MAP_CE : Src := ⟨⟨.plce, 0⟩, 0⟩
abbrev S.PLCE_MAP_UE : Src := ⟨⟨.plce, 0⟩, 1⟩
abbrev S.PLCE_MAP_COPY_BAD : Src := ⟨⟨.plce, 0⟩, 2⟩
abbrev S.PLCE_MAP_LOST : Src := ⟨⟨.plce, 0⟩, 3⟩
abbrev S.PLCE_PLACE_STALL : Src := ⟨⟨.plce, 0⟩, 4⟩
abbrev S.PLCE_CAP_CLIPPED : Src := ⟨⟨.plce, 0⟩, 5⟩
abbrev S.PLCE_SEG_PARITY : Src := ⟨⟨.plce, 0⟩, 6⟩
abbrev S.STRP_MEMBER_FAILED : Src := ⟨⟨.strp, 0⟩, 0⟩
abbrev S.STRP_NO_SPARE : Src := ⟨⟨.strp, 0⟩, 1⟩
abbrev S.STRP_DATA_LOSS : Src := ⟨⟨.strp, 0⟩, 2⟩
abbrev S.STRP_POOL_FAILED : Src := ⟨⟨.strp, 0⟩, 3⟩
abbrev S.STRP_ROW_REPAIRED : Src := ⟨⟨.strp, 0⟩, 4⟩
abbrev S.STRP_SCRUB_CORRECTED : Src := ⟨⟨.strp, 0⟩, 5⟩
abbrev S.STRP_SCRUB_UNRESOLVED : Src := ⟨⟨.strp, 0⟩, 6⟩
abbrev S.STRP_OSL_COPY_LOST : Src := ⟨⟨.strp, 0⟩, 7⟩
abbrev S.STRP_LOSS_LIST_FULL : Src := ⟨⟨.strp, 0⟩, 8⟩
abbrev S.STRP_SPARE_LOST : Src := ⟨⟨.strp, 0⟩, 9⟩
abbrev S.STRP_IMPORT_SCRUB : Src := ⟨⟨.strp, 0⟩, 10⟩
abbrev S.STRP_ENGINE_SELFTEST : Src := ⟨⟨.strp, 4⟩, 0⟩
abbrev S.STRP_FOREIGN_LABEL : Src := ⟨⟨.strp, 4⟩, 1⟩
abbrev S.STRP_ENGINE_PARITY : Src := ⟨⟨.strp, 4⟩, 2⟩
abbrev S.DRVP_LINK_DOWN : Src := ⟨⟨.drvp, 0⟩, 0⟩
abbrev S.DRVP_LINK_SLOW : Src := ⟨⟨.drvp, 0⟩, 1⟩
abbrev S.DRVP_DRIVE_UNFIT : Src := ⟨⟨.drvp, 0⟩, 2⟩
abbrev S.DRVP_DRIVE_RETIRED : Src := ⟨⟨.drvp, 0⟩, 3⟩
abbrev S.DRVP_AER_CE : Src := ⟨⟨.drvp, 0⟩, 4⟩
abbrev S.DRVP_AER_NF : Src := ⟨⟨.drvp, 0⟩, 5⟩
abbrev S.DRVP_AER_FATAL : Src := ⟨⟨.drvp, 0⟩, 6⟩
abbrev S.DRVP_WRITE_GATED : Src := ⟨⟨.drvp, 0⟩, 7⟩
abbrev S.DRVP_TAG_PARITY : Src := ⟨⟨.drvp, 0⟩, 8⟩
abbrev S.BAYP_INRUSH_FAULT : Src := ⟨⟨.bayp, 0⟩, 0⟩
abbrev S.BAYP_SHORT : Src := ⟨⟨.bayp, 0⟩, 1⟩
abbrev S.BAYP_AUX_FAULT : Src := ⟨⟨.bayp, 0⟩, 2⟩
abbrev S.BAYP_DROOP : Src := ⟨⟨.bayp, 0⟩, 3⟩
abbrev S.BAYP_LATCHED : Src := ⟨⟨.bayp, 0⟩, 4⟩
abbrev S.BAYP_FET_DAMAGED : Src := ⟨⟨.bayp, 0⟩, 5⟩
abbrev S.BAYP_ADC_FAIL : Src := ⟨⟨.bayp, 0⟩, 6⟩
abbrev S.PAIR_PARTNER_LOST : Src := ⟨⟨.pair, 0⟩, 0⟩
abbrev S.PAIR_TAKEOVER : Src := ⟨⟨.pair, 0⟩, 1⟩
abbrev S.PAIR_CLAIM_CONTENTION : Src := ⟨⟨.pair, 0⟩, 2⟩
abbrev S.PAIR_LINK_LANE_DOWN : Src := ⟨⟨.pair, 0⟩, 3⟩
abbrev S.PAIR_LINK_DOWN : Src := ⟨⟨.pair, 0⟩, 4⟩
abbrev S.PAIR_VERSION_MISMATCH : Src := ⟨⟨.pair, 0⟩, 5⟩
abbrev S.PAIR_CULTURE_FAIL : Src := ⟨⟨.pair, 0⟩, 6⟩
abbrev S.PAIR_NO_VALID_MIRROR : Src := ⟨⟨.pair, 0⟩, 7⟩
abbrev S.PAIR_WIN_MISS : Src := ⟨⟨.pair, 0⟩, 8⟩
abbrev S.PAIR_RESUME_FAIL : Src := ⟨⟨.pair, 0⟩, 9⟩
abbrev S.PAIR_LINK_PARITY : Src := ⟨⟨.pair, 0⟩, 10⟩
abbrev S.MGMT_RETIRE_DEFERRED : Src := ⟨⟨.mgmt, 1⟩, 0⟩
abbrev S.MGMT_CHANNEL_RETIRED : Src := ⟨⟨.mgmt, 1⟩, 1⟩
abbrev S.MGMT_THERM_THROTTLE : Src := ⟨⟨.mgmt, 3⟩, 0⟩
abbrev S.MGMT_BOOT_FALLBACK : Src := ⟨⟨.mgmt, 3⟩, 1⟩
abbrev S.MGMT_FW_ACTIVATE_FAIL : Src := ⟨⟨.mgmt, 3⟩, 2⟩
abbrev S.MGMT_SENSOR_FAIL : Src := ⟨⟨.mgmt, 3⟩, 3⟩
abbrev S.MGMT_REG_UNDEF : Src := ⟨⟨.mgmt, 0⟩, 0⟩
abbrev S.MGMT_FABRIC_PARITY : Src := ⟨⟨.mgmt, 0⟩, 1⟩
abbrev S.MGMT_SWAP_REJECT : Src := ⟨⟨.mgmt, 0⟩, 2⟩
abbrev S.MGMT_MBOX_PROTO : Src := ⟨⟨.mgmt, 0⟩, 3⟩
abbrev S.MGMT_EVRING_OVF : Src := ⟨⟨.mgmt, 0⟩, 4⟩
abbrev S.MGMT_CORE_CE : Src := ⟨⟨.mgmt, 1⟩, 32⟩
abbrev S.MGMT_CORE_UE : Src := ⟨⟨.mgmt, 1⟩, 48⟩
abbrev S.MGMT_CORE_WDOG : Src := ⟨⟨.mgmt, 1⟩, 64⟩
abbrev S.MGMT_HBM_CE : Src := ⟨⟨.mgmt, 2⟩, 0⟩
abbrev S.MGMT_HBM_UE : Src := ⟨⟨.mgmt, 2⟩, 64⟩
abbrev S.MGMT_HBM_PARITY : Src := ⟨⟨.mgmt, 2⟩, 128⟩

abbrev E.LINE_RX_FRAMES : Evt := ⟨⟨.line, 0⟩, 0x001⟩
abbrev E.LINE_ECHO_REPLY : Evt := ⟨⟨.line, 0⟩, 0x00b⟩
abbrev E.LINE_RX_BYTES : Evt := ⟨⟨.line, 0⟩, 0x002⟩
abbrev E.LINE_PFC_RX : Evt := ⟨⟨.line, 0⟩, 0x00c⟩
abbrev E.LINE_TX_FRAMES : Evt := ⟨⟨.line, 0⟩, 0x003⟩
abbrev E.LINE_PFC_TX : Evt := ⟨⟨.line, 0⟩, 0x00d⟩
abbrev E.LINE_TX_BYTES : Evt := ⟨⟨.line, 0⟩, 0x004⟩
abbrev E.LINE_CE_RX : Evt := ⟨⟨.line, 0⟩, 0x00e⟩
abbrev E.LINE_RX_FCS_ERR : Evt := ⟨⟨.line, 0⟩, 0x005⟩
abbrev E.LINE_CE_MARK : Evt := ⟨⟨.line, 0⟩, 0x00f⟩
abbrev E.LINE_RX_LEN_ERR : Evt := ⟨⟨.line, 0⟩, 0x006⟩
abbrev E.LINE_TX_PORT_DOWN : Evt := ⟨⟨.line, 0⟩, 0x010⟩
abbrev E.LINE_RX_MAC_MISS : Evt := ⟨⟨.line, 0⟩, 0x007⟩
abbrev E.LINE_RX_ETYPE : Evt := ⟨⟨.line, 0⟩, 0x011⟩
abbrev E.LINE_RX_NOMATCH : Evt := ⟨⟨.line, 0⟩, 0x008⟩
abbrev E.LINE_RX_IP_ERR : Evt := ⟨⟨.line, 0⟩, 0x012⟩
abbrev E.LINE_RX_NOT_ROCE : Evt := ⟨⟨.line, 0⟩, 0x009⟩
abbrev E.LINE_FEC_CORR_SYM : Evt := ⟨⟨.line, 16⟩, 0x020⟩
abbrev E.LINE_ARP_REPLY : Evt := ⟨⟨.line, 0⟩, 0x00a⟩
abbrev E.LINE_FEC_UNCORR_CW : Evt := ⟨⟨.line, 16⟩, 0x021⟩
abbrev E.LINE_ND_REPLY : Evt := ⟨⟨.line, 0⟩, 0x013⟩
abbrev E.LINE_RETRAIN : Evt := ⟨⟨.line, 16⟩, 0x022⟩
abbrev E.XPRT_RX_PKTS : Evt := ⟨⟨.xprt, 0⟩, 0x001⟩
abbrev E.XPRT_ACK_TIMEOUT : Evt := ⟨⟨.xprt, 0⟩, 0x012⟩
abbrev E.XPRT_TX_PKTS : Evt := ⟨⟨.xprt, 0⟩, 0x002⟩
abbrev E.XPRT_ACK_TX : Evt := ⟨⟨.xprt, 0⟩, 0x013⟩
abbrev E.XPRT_ICRC_ERR : Evt := ⟨⟨.xprt, 0⟩, 0x003⟩
abbrev E.XPRT_CNP_TX : Evt := ⟨⟨.xprt, 0⟩, 0x014⟩
abbrev E.XPRT_QPN_MISS : Evt := ⟨⟨.xprt, 0⟩, 0x004⟩
abbrev E.XPRT_CNP_RX : Evt := ⟨⟨.xprt, 0⟩, 0x015⟩
abbrev E.XPRT_CM_UNSUPPORTED : Evt := ⟨⟨.xprt, 0⟩, 0x005⟩
abbrev E.XPRT_CNP_HELD : Evt := ⟨⟨.xprt, 0⟩, 0x016⟩
abbrev E.XPRT_DUP_PKT : Evt := ⟨⟨.xprt, 0⟩, 0x006⟩
abbrev E.XPRT_RATE_DEC : Evt := ⟨⟨.xprt, 0⟩, 0x017⟩
abbrev E.XPRT_DUP_STALE : Evt := ⟨⟨.xprt, 0⟩, 0x007⟩
abbrev E.XPRT_CTX_HIT : Evt := ⟨⟨.xprt, 0⟩, 0x018⟩
abbrev E.XPRT_DUP_OLD : Evt := ⟨⟨.xprt, 0⟩, 0x008⟩
abbrev E.XPRT_CTX_MISS : Evt := ⟨⟨.xprt, 0⟩, 0x019⟩
abbrev E.XPRT_PSN_AHEAD : Evt := ⟨⟨.xprt, 0⟩, 0x009⟩
abbrev E.XPRT_CTX_WRITEBACK : Evt := ⟨⟨.xprt, 0⟩, 0x01a⟩
abbrev E.XPRT_NAK_SEQ_TX : Evt := ⟨⟨.xprt, 0⟩, 0x00b⟩
abbrev E.XPRT_MISS_DROP : Evt := ⟨⟨.xprt, 0⟩, 0x01b⟩
abbrev E.XPRT_NAK_INV_TX : Evt := ⟨⟨.xprt, 0⟩, 0x00c⟩
abbrev E.XPRT_CONN_OPEN : Evt := ⟨⟨.xprt, 0⟩, 0x01c⟩
abbrev E.XPRT_NAK_ACC_TX : Evt := ⟨⟨.xprt, 0⟩, 0x00d⟩
abbrev E.XPRT_CONN_REJECT : Evt := ⟨⟨.xprt, 0⟩, 0x01d⟩
abbrev E.XPRT_NAK_OP_TX : Evt := ⟨⟨.xprt, 0⟩, 0x00e⟩
abbrev E.XPRT_CONN_CLOSE : Evt := ⟨⟨.xprt, 0⟩, 0x01e⟩
abbrev E.XPRT_NAK_RX : Evt := ⟨⟨.xprt, 0⟩, 0x00f⟩
abbrev E.XPRT_CONN_ERROR : Evt := ⟨⟨.xprt, 0⟩, 0x01f⟩
abbrev E.XPRT_RNR_RX : Evt := ⟨⟨.xprt, 0⟩, 0x010⟩
abbrev E.XPRT_CLOSED_DROP : Evt := ⟨⟨.xprt, 0⟩, 0x020⟩
abbrev E.XPRT_RETX_PKTS : Evt := ⟨⟨.xprt, 0⟩, 0x011⟩
abbrev E.XPRT_NOT_ON_DROP : Evt := ⟨⟨.xprt, 0⟩, 0x021⟩
abbrev E.GARD_KEY_PASS : Evt := ⟨⟨.gard, 0⟩, 0x001⟩
abbrev E.GARD_SEAL_PKTS : Evt := ⟨⟨.gard, 1⟩, 0x020⟩
abbrev E.GARD_KEY_FAIL_RANGE : Evt := ⟨⟨.gard, 0⟩, 0x002⟩
abbrev E.GARD_OPEN_PKTS : Evt := ⟨⟨.gard, 1⟩, 0x021⟩
abbrev E.GARD_KEY_FAIL_VALID : Evt := ⟨⟨.gard, 0⟩, 0x003⟩
abbrev E.GARD_SEAL_AUTH_FAIL : Evt := ⟨⟨.gard, 1⟩, 0x022⟩
abbrev E.GARD_KEY_FAIL_GEN : Evt := ⟨⟨.gard, 0⟩, 0x004⟩
abbrev E.GARD_SEAL_REPLAY : Evt := ⟨⟨.gard, 1⟩, 0x023⟩
abbrev E.GARD_KEY_FAIL_TENANT : Evt := ⟨⟨.gard, 0⟩, 0x005⟩
abbrev E.GARD_REKEY_TX : Evt := ⟨⟨.gard, 1⟩, 0x024⟩
abbrev E.GARD_KEY_FAIL_RIGHTS : Evt := ⟨⟨.gard, 0⟩, 0x006⟩
abbrev E.GARD_REKEY_RX : Evt := ⟨⟨.gard, 1⟩, 0x025⟩
abbrev E.GARD_KEY_FAIL_BOUNDS : Evt := ⟨⟨.gard, 0⟩, 0x007⟩
abbrev E.GARD_AUTH_OK : Evt := ⟨⟨.gard, 1⟩, 0x026⟩
abbrev E.GARD_KEY_STALE_DUP : Evt := ⟨⟨.gard, 0⟩, 0x008⟩
abbrev E.GARD_AUTH_FAIL : Evt := ⟨⟨.gard, 1⟩, 0x027⟩
abbrev E.GARD_KEY_MISS : Evt := ⟨⟨.gard, 0⟩, 0x009⟩
abbrev E.GARD_XTS_SEAL_GRAN : Evt := ⟨⟨.gard, 2⟩, 0x040⟩
abbrev E.GARD_KEY_RETIRE : Evt := ⟨⟨.gard, 0⟩, 0x00a⟩
abbrev E.GARD_XTS_OPEN_GRAN : Evt := ⟨⟨.gard, 2⟩, 0x041⟩
abbrev E.GARD_XTS_KEY_DENIED : Evt := ⟨⟨.gard, 2⟩, 0x042⟩
abbrev E.CMDQ_CMD_FETCH : Evt := ⟨⟨.cmdq, 0⟩, 0x001⟩
abbrev E.CMDQ_ABORT_LOST : Evt := ⟨⟨.cmdq, 0⟩, 0x00d⟩
abbrev E.CMDQ_CMD_DONE : Evt := ⟨⟨.cmdq, 0⟩, 0x002⟩
abbrev E.CMDQ_LATE_DISCARD : Evt := ⟨⟨.cmdq, 0⟩, 0x00e⟩
abbrev E.CMDQ_READ_CMDS : Evt := ⟨⟨.cmdq, 0⟩, 0x003⟩
abbrev E.CMDQ_RESET_ABORT : Evt := ⟨⟨.cmdq, 0⟩, 0x00f⟩
abbrev E.CMDQ_WRITE_CMDS : Evt := ⟨⟨.cmdq, 0⟩, 0x004⟩
abbrev E.CMDQ_RESULT_DISCARD : Evt := ⟨⟨.cmdq, 0⟩, 0x010⟩
abbrev E.CMDQ_FLUSH_CMDS : Evt := ⟨⟨.cmdq, 0⟩, 0x005⟩
abbrev E.CMDQ_PS_DELAY : Evt := ⟨⟨.cmdq, 0⟩, 0x011⟩
abbrev E.CMDQ_WZ_CMDS : Evt := ⟨⟨.cmdq, 0⟩, 0x006⟩
abbrev E.CMDQ_PS_DELAY_US : Evt := ⟨⟨.cmdq, 0⟩, 0x012⟩
abbrev E.CMDQ_DSM_CMDS : Evt := ⟨⟨.cmdq, 0⟩, 0x007⟩
abbrev E.CMDQ_DEFERRED_ERR : Evt := ⟨⟨.cmdq, 0⟩, 0x013⟩
abbrev E.CMDQ_ADMIN_CMDS : Evt := ⟨⟨.cmdq, 0⟩, 0x008⟩
abbrev E.CMDQ_SUSPENDED : Evt := ⟨⟨.cmdq, 0⟩, 0x014⟩
abbrev E.CMDQ_INVALID_OPC : Evt := ⟨⟨.cmdq, 0⟩, 0x009⟩
abbrev E.CMDQ_FW_HELD : Evt := ⟨⟨.cmdq, 0⟩, 0x015⟩
abbrev E.CMDQ_SLOT_WAIT : Evt := ⟨⟨.cmdq, 0⟩, 0x00a⟩
abbrev E.CMDQ_KATO_EXPIRE : Evt := ⟨⟨.cmdq, 0⟩, 0x016⟩
abbrev E.CMDQ_SQ_OVERRUN : Evt := ⟨⟨.cmdq, 0⟩, 0x00b⟩
abbrev E.CMDQ_AER_POSTED : Evt := ⟨⟨.cmdq, 0⟩, 0x017⟩
abbrev E.CMDQ_ABORT_RX : Evt := ⟨⟨.cmdq, 0⟩, 0x00c⟩
abbrev E.CMDQ_ABORT_WON : Evt := ⟨⟨.cmdq, 0⟩, 0x018⟩
abbrev E.REGN_WR_MSGS : Evt := ⟨⟨.regn, 0⟩, 0x001⟩
abbrev E.REGN_FLUSH_RX : Evt := ⟨⟨.regn, 0⟩, 0x00a⟩
abbrev E.REGN_WR_BYTES : Evt := ⟨⟨.regn, 0⟩, 0x002⟩
abbrev E.REGN_FLUSH_DONE : Evt := ⟨⟨.regn, 0⟩, 0x00b⟩
abbrev E.REGN_WRIMM_MSGS : Evt := ⟨⟨.regn, 0⟩, 0x003⟩
abbrev E.REGN_FLUSH_FAIL : Evt := ⟨⟨.regn, 0⟩, 0x00c⟩
abbrev E.REGN_RD_MSGS : Evt := ⟨⟨.regn, 0⟩, 0x004⟩
abbrev E.REGN_SUB_OK : Evt := ⟨⟨.regn, 0⟩, 0x00d⟩
abbrev E.REGN_RD_BYTES : Evt := ⟨⟨.regn, 0⟩, 0x005⟩
abbrev E.REGN_SUB_REJECT : Evt := ⟨⟨.regn, 0⟩, 0x00e⟩
abbrev E.REGN_NOTIFY_POSTED : Evt := ⟨⟨.regn, 0⟩, 0x006⟩
abbrev E.REGN_CTL_INVALID : Evt := ⟨⟨.regn, 0⟩, 0x00f⟩
abbrev E.REGN_NOTIFY_SENT : Evt := ⟨⟨.regn, 0⟩, 0x007⟩
abbrev E.REGN_DESTAGE_UNITS : Evt := ⟨⟨.regn, 0⟩, 0x010⟩
abbrev E.REGN_NOTIFY_DROP : Evt := ⟨⟨.regn, 0⟩, 0x008⟩
abbrev E.REGN_DESTAGE_BYTES : Evt := ⟨⟨.regn, 0⟩, 0x011⟩
abbrev E.REGN_NOTIFY_NOSUB : Evt := ⟨⟨.regn, 0⟩, 0x009⟩
abbrev E.REGN_MIRROR_SOLO : Evt := ⟨⟨.regn, 0⟩, 0x012⟩
abbrev E.TMGR_FRM_GREEN : Evt := ⟨⟨.tmgr, 0⟩, 0x001⟩
abbrev E.TMGR_EGR_PKTS : Evt := ⟨⟨.tmgr, 0⟩, 0x009⟩
abbrev E.TMGR_FRM_YELLOW : Evt := ⟨⟨.tmgr, 0⟩, 0x002⟩
abbrev E.TMGR_EXP_PKTS : Evt := ⟨⟨.tmgr, 0⟩, 0x00a⟩
abbrev E.TMGR_FRM_RED : Evt := ⟨⟨.tmgr, 0⟩, 0x003⟩
abbrev E.TMGR_EXP_OVER_CAP : Evt := ⟨⟨.tmgr, 0⟩, 0x00b⟩
abbrev E.TMGR_CMD_GREEN : Evt := ⟨⟨.tmgr, 0⟩, 0x004⟩
abbrev E.TMGR_BG_ADM_BYTES : Evt := ⟨⟨.tmgr, 0⟩, 0x00c⟩
abbrev E.TMGR_CMD_YELLOW : Evt := ⟨⟨.tmgr, 0⟩, 0x005⟩
abbrev E.TMGR_METER_CLOSE : Evt := ⟨⟨.tmgr, 0⟩, 0x00d⟩
abbrev E.TMGR_CMD_RED : Evt := ⟨⟨.tmgr, 0⟩, 0x006⟩
abbrev E.TMGR_METER_LOST : Evt := ⟨⟨.tmgr, 0⟩, 0x00e⟩
abbrev E.TMGR_ADM_CMDS : Evt := ⟨⟨.tmgr, 0⟩, 0x007⟩
abbrev E.TMGR_SAMPLE_REC : Evt := ⟨⟨.tmgr, 0⟩, 0x00f⟩
abbrev E.TMGR_ADM_BYTES : Evt := ⟨⟨.tmgr, 0⟩, 0x008⟩
abbrev E.TMGR_NOT_ON_DROP : Evt := ⟨⟨.tmgr, 0⟩, 0x010⟩
abbrev E.VAT_MATCH_IT1 : Evt := ⟨⟨.vat, 0⟩, 0x001⟩
abbrev E.VAT_CELLS_OUT : Evt := ⟨⟨.vat, 0⟩, 0x100⟩
abbrev E.VAT_MATCH_IT2 : Evt := ⟨⟨.vat, 0⟩, 0x002⟩
abbrev E.VAT_CELLS_IN : Evt := ⟨⟨.vat, 0⟩, 0x140⟩
abbrev E.VAT_MATCH_IT3 : Evt := ⟨⟨.vat, 0⟩, 0x003⟩
abbrev E.CELL_ALLOC : Evt := ⟨⟨.cell, 0⟩, 0x001⟩
abbrev E.VAT_CELLS_C3 : Evt := ⟨⟨.vat, 0⟩, 0x004⟩
abbrev E.CELL_FREE : Evt := ⟨⟨.cell, 0⟩, 0x002⟩
abbrev E.VAT_CELLS_C2 : Evt := ⟨⟨.vat, 0⟩, 0x005⟩
abbrev E.CELL_BAD_FREE : Evt := ⟨⟨.cell, 0⟩, 0x003⟩
abbrev E.VAT_CELLS_C1 : Evt := ⟨⟨.vat, 0⟩, 0x006⟩
abbrev E.CELL_PUSHOUT_UNITS : Evt := ⟨⟨.cell, 0⟩, 0x004⟩
abbrev E.VAT_CELLS_C0 : Evt := ⟨⟨.vat, 0⟩, 0x007⟩
abbrev E.CELL_PUSHOUT_CELLS : Evt := ⟨⟨.cell, 0⟩, 0x005⟩
abbrev E.VAT_C0_AGED : Evt := ⟨⟨.vat, 0⟩, 0x008⟩
abbrev E.CELL_NET_DROP : Evt := ⟨⟨.cell, 0⟩, 0x006⟩
abbrev E.VAT_MCAST_UNITS : Evt := ⟨⟨.vat, 0⟩, 0x009⟩
abbrev E.CELL_ALLOC_WAIT : Evt := ⟨⟨.cell, 0⟩, 0x007⟩
abbrev E.VAT_DEAD_OUT : Evt := ⟨⟨.vat, 0⟩, 0x00a⟩
abbrev E.CELL_SRAM_CE : Evt := ⟨⟨.cell, 0⟩, 0x008⟩
abbrev E.JRNL_REC_COMMIT : Evt := ⟨⟨.jrnl, 0⟩, 0x001⟩
abbrev E.JRNL_READ_PARTIAL : Evt := ⟨⟨.jrnl, 0⟩, 0x00a⟩
abbrev E.JRNL_REC_BYTES : Evt := ⟨⟨.jrnl, 0⟩, 0x002⟩
abbrev E.JRNL_REREAD : Evt := ⟨⟨.jrnl, 0⟩, 0x00b⟩
abbrev E.JRNL_REC_DISCARD : Evt := ⟨⟨.jrnl, 0⟩, 0x003⟩
abbrev E.JRNL_UNITS_HANDED : Evt := ⟨⟨.jrnl, 0⟩, 0x00c⟩
abbrev E.JRNL_REC_PLACED : Evt := ⟨⟨.jrnl, 0⟩, 0x004⟩
abbrev E.JRNL_MERGE_READS : Evt := ⟨⟨.jrnl, 0⟩, 0x00d⟩
abbrev E.JRNL_REC_RELEASED : Evt := ⟨⟨.jrnl, 0⟩, 0x005⟩
abbrev E.JRNL_PF_GLITCH : Evt := ⟨⟨.jrnl, 0⟩, 0x00e⟩
abbrev E.JRNL_MIRROR_SOLO : Evt := ⟨⟨.jrnl, 0⟩, 0x006⟩
abbrev E.JRNL_SAVE_BYTES : Evt := ⟨⟨.jrnl, 0⟩, 0x00f⟩
abbrev E.JRNL_DIRTY_WAIT : Evt := ⟨⟨.jrnl, 0⟩, 0x007⟩
abbrev E.JRNL_RESTORE_BYTES : Evt := ⟨⟨.jrnl, 0⟩, 0x010⟩
abbrev E.JRNL_INDEX_WAIT : Evt := ⟨⟨.jrnl, 0⟩, 0x008⟩
abbrev E.JRNL_RESTORE_BAD : Evt := ⟨⟨.jrnl, 0⟩, 0x011⟩
abbrev E.JRNL_READ_HIT : Evt := ⟨⟨.jrnl, 0⟩, 0x009⟩
abbrev E.CMPR_C_UNITS : Evt := ⟨⟨.cmpr, 0⟩, 0x001⟩
abbrev E.CMPR_D_UNITS : Evt := ⟨⟨.cmpr, 0⟩, 0x00b⟩
abbrev E.CMPR_C_IN_BYTES : Evt := ⟨⟨.cmpr, 0⟩, 0x002⟩
abbrev E.CMPR_D_OUT_BYTES : Evt := ⟨⟨.cmpr, 0⟩, 0x00c⟩
abbrev E.CMPR_C_OUT_BYTES : Evt := ⟨⟨.cmpr, 0⟩, 0x003⟩
abbrev E.CMPR_D_PARTIAL : Evt := ⟨⟨.cmpr, 0⟩, 0x00d⟩
abbrev E.CMPR_RAW_OFF : Evt := ⟨⟨.cmpr, 0⟩, 0x004⟩
abbrev E.CMPR_CHECK_FAIL : Evt := ⟨⟨.cmpr, 0⟩, 0x00e⟩
abbrev E.CMPR_RAW_NOFIT : Evt := ⟨⟨.cmpr, 0⟩, 0x005⟩
abbrev E.CMPR_REPAIRED : Evt := ⟨⟨.cmpr, 0⟩, 0x00f⟩
abbrev E.CMPR_RAW_ABANDON : Evt := ⟨⟨.cmpr, 0⟩, 0x006⟩
abbrev E.CMPR_EXP_LANE_WAIT : Evt := ⟨⟨.cmpr, 0⟩, 0x010⟩
abbrev E.CMPR_ABANDON : Evt := ⟨⟨.cmpr, 0⟩, 0x007⟩
abbrev E.CMPR_POISON_RETRY : Evt := ⟨⟨.cmpr, 0⟩, 0x011⟩
abbrev E.CMPR_ZERO_UNITS : Evt := ⟨⟨.cmpr, 0⟩, 0x008⟩
abbrev E.CMPR_JOB_RESTART : Evt := ⟨⟨.cmpr, 0⟩, 0x012⟩
abbrev E.CMPR_CHAIN_CELLS : Evt := ⟨⟨.cmpr, 0⟩, 0x009⟩
abbrev E.CMPR_LANE_CE : Evt := ⟨⟨.cmpr, 0⟩, 0x013⟩
abbrev E.CMPR_DEFLATE_UNITS : Evt := ⟨⟨.cmpr, 0⟩, 0x00a⟩
abbrev E.CMPR_WFF_UNITS : Evt := ⟨⟨.cmpr, 0⟩, 0x014⟩
abbrev E.PLCE_UNITS_PLACED : Evt := ⟨⟨.plce, 0⟩, 0x001⟩
abbrev E.PLCE_MAP_WB : Evt := ⟨⟨.plce, 0⟩, 0x00b⟩
abbrev E.PLCE_GRAN_PLACED : Evt := ⟨⟨.plce, 0⟩, 0x002⟩
abbrev E.PLCE_MAP_COPY_BAD : Evt := ⟨⟨.plce, 0⟩, 0x00c⟩
abbrev E.PLCE_STRIPES : Evt := ⟨⟨.plce, 0⟩, 0x003⟩
abbrev E.PLCE_MAP_FRAME_WAIT : Evt := ⟨⟨.plce, 0⟩, 0x00d⟩
abbrev E.PLCE_STRIPE_PADDED : Evt := ⟨⟨.plce, 0⟩, 0x004⟩
abbrev E.PLCE_READ_DAMAGED : Evt := ⟨⟨.plce, 0⟩, 0x00e⟩
abbrev E.PLCE_PAD_GRAN : Evt := ⟨⟨.plce, 0⟩, 0x005⟩
abbrev E.PLCE_CAP_REFUSED : Evt := ⟨⟨.plce, 0⟩, 0x00f⟩
abbrev E.PLCE_SEG_WAIT : Evt := ⟨⟨.plce, 0⟩, 0x006⟩
abbrev E.PLCE_PRESS_SEGS : Evt := ⟨⟨.plce, 0⟩, 0x010⟩
abbrev E.PLCE_HANDOFF_SERIAL : Evt := ⟨⟨.plce, 0⟩, 0x007⟩
abbrev E.PLCE_PRESS_UNITS : Evt := ⟨⟨.plce, 0⟩, 0x011⟩
abbrev E.PLCE_MAP_HIT : Evt := ⟨⟨.plce, 0⟩, 0x008⟩
abbrev E.PLCE_PRESS_GRAN : Evt := ⟨⟨.plce, 0⟩, 0x012⟩
abbrev E.PLCE_MAP_MISS : Evt := ⟨⟨.plce, 0⟩, 0x009⟩
abbrev E.PLCE_PRESS_LOST_RACE : Evt := ⟨⟨.plce, 0⟩, 0x013⟩
abbrev E.PLCE_MAP_CHANGES : Evt := ⟨⟨.plce, 0⟩, 0x00a⟩
abbrev E.PLCE_SUMMARY_SCAN : Evt := ⟨⟨.plce, 0⟩, 0x014⟩
abbrev E.STRP_STRIPES_WRITTEN : Evt := ⟨⟨.strp, 0⟩, 0x001⟩
abbrev E.STRP_REBUILD_BYTES : Evt := ⟨⟨.strp, 0⟩, 0x009⟩
abbrev E.STRP_STRIP_WRITES : Evt := ⟨⟨.strp, 0⟩, 0x002⟩
abbrev E.STRP_TURNER_ROWS : Evt := ⟨⟨.strp, 0⟩, 0x00a⟩
abbrev E.STRP_DEGRADED_READS : Evt := ⟨⟨.strp, 0⟩, 0x003⟩
abbrev E.STRP_SCRUB_CORRECTED : Evt := ⟨⟨.strp, 0⟩, 0x00b⟩
abbrev E.STRP_RECON_ROWS : Evt := ⟨⟨.strp, 0⟩, 0x004⟩
abbrev E.STRP_SCRUB_UNRESOLVED : Evt := ⟨⟨.strp, 0⟩, 0x00c⟩
abbrev E.STRP_ROW_REPAIR : Evt := ⟨⟨.strp, 0⟩, 0x005⟩
abbrev E.STRP_LOSS_UNITS : Evt := ⟨⟨.strp, 0⟩, 0x00d⟩
abbrev E.STRP_CRC_RECON : Evt := ⟨⟨.strp, 0⟩, 0x006⟩
abbrev E.STRP_OSL_COPY : Evt := ⟨⟨.strp, 0⟩, 0x00e⟩
abbrev E.STRP_SPARE_TAKEN : Evt := ⟨⟨.strp, 0⟩, 0x007⟩
abbrev E.STRP_STRIPE_WRITE_FAIL : Evt := ⟨⟨.strp, 0⟩, 0x00f⟩
abbrev E.STRP_REBUILD_STRIPES : Evt := ⟨⟨.strp, 0⟩, 0x008⟩
abbrev E.STRP_PADDING_STRIPES : Evt := ⟨⟨.strp, 0⟩, 0x010⟩
abbrev E.DRVP_READS : Evt := ⟨⟨.drvp, 0⟩, 0x001⟩
abbrev E.DRVP_REISSUE : Evt := ⟨⟨.drvp, 0⟩, 0x00c⟩
abbrev E.DRVP_WRITES : Evt := ⟨⟨.drvp, 0⟩, 0x002⟩
abbrev E.DRVP_WRITE_GATED : Evt := ⟨⟨.drvp, 0⟩, 0x00d⟩
abbrev E.DRVP_READ_BYTES : Evt := ⟨⟨.drvp, 0⟩, 0x003⟩
abbrev E.DRVP_FUA_FORCED : Evt := ⟨⟨.drvp, 0⟩, 0x00e⟩
abbrev E.DRVP_WRITE_BYTES : Evt := ⟨⟨.drvp, 0⟩, 0x004⟩
abbrev E.DRVP_RMW : Evt := ⟨⟨.drvp, 0⟩, 0x00f⟩
abbrev E.DRVP_CMPL : Evt := ⟨⟨.drvp, 0⟩, 0x005⟩
abbrev E.DRVP_BAD_DMA : Evt := ⟨⟨.drvp, 0⟩, 0x010⟩
abbrev E.DRVP_RETRY : Evt := ⟨⟨.drvp, 0⟩, 0x006⟩
abbrev E.DRVP_RESET1 : Evt := ⟨⟨.drvp, 0⟩, 0x011⟩
abbrev E.DRVP_REQ_FAIL : Evt := ⟨⟨.drvp, 0⟩, 0x007⟩
abbrev E.DRVP_RESET2 : Evt := ⟨⟨.drvp, 0⟩, 0x012⟩
abbrev E.DRVP_MEDIA_ERR : Evt := ⟨⟨.drvp, 0⟩, 0x008⟩
abbrev E.DRVP_AER_CE : Evt := ⟨⟨.drvp, 0⟩, 0x013⟩
abbrev E.DRVP_CMD_TIMEOUT : Evt := ⟨⟨.drvp, 0⟩, 0x009⟩
abbrev E.DRVP_PS_ENTRY : Evt := ⟨⟨.drvp, 0⟩, 0x014⟩
abbrev E.DRVP_LATE_CMPL : Evt := ⟨⟨.drvp, 0⟩, 0x00a⟩
abbrev E.DRVP_PS_ABORTED_IDLE : Evt := ⟨⟨.drvp, 0⟩, 0x015⟩
abbrev E.DRVP_TAG_WAIT : Evt := ⟨⟨.drvp, 0⟩, 0x00b⟩
abbrev E.DRVP_PRESENCE : Evt := ⟨⟨.drvp, 0⟩, 0x016⟩
abbrev E.BAYP_STARTS : Evt := ⟨⟨.bayp, 0⟩, 0x001⟩
abbrev E.BAYP_RETRY : Evt := ⟨⟨.bayp, 0⟩, 0x007⟩
abbrev E.BAYP_PG_RISE : Evt := ⟨⟨.bayp, 0⟩, 0x002⟩
abbrev E.BAYP_LATCH : Evt := ⟨⟨.bayp, 0⟩, 0x008⟩
abbrev E.BAYP_FAULT_TIMER : Evt := ⟨⟨.bayp, 0⟩, 0x003⟩
abbrev E.BAYP_RETRY_CANCEL : Evt := ⟨⟨.bayp, 0⟩, 0x009⟩
abbrev E.BAYP_SHORT : Evt := ⟨⟨.bayp, 0⟩, 0x004⟩
abbrev E.BAYP_FET_DAMAGED : Evt := ⟨⟨.bayp, 0⟩, 0x00a⟩
abbrev E.BAYP_AUX_FAULT : Evt := ⟨⟨.bayp, 0⟩, 0x005⟩
abbrev E.BAYP_LIMIT_TICKS : Evt := ⟨⟨.bayp, 0⟩, 0x00b⟩
abbrev E.BAYP_DROOP : Evt := ⟨⟨.bayp, 0⟩, 0x006⟩
abbrev E.BAYP_ADOPT : Evt := ⟨⟨.bayp, 0⟩, 0x00c⟩
abbrev E.PAIR_TX_BYTES : Evt := ⟨⟨.pair, 0⟩, 0x001⟩
abbrev E.PAIR_WIN_STALE : Evt := ⟨⟨.pair, 0⟩, 0x00a⟩
abbrev E.PAIR_RX_BYTES : Evt := ⟨⟨.pair, 0⟩, 0x002⟩
abbrev E.PAIR_WIN_MISS : Evt := ⟨⟨.pair, 0⟩, 0x00b⟩
abbrev E.PAIR_LINK_RETX : Evt := ⟨⟨.pair, 0⟩, 0x003⟩
abbrev E.PAIR_STANDBY_RX_DROP : Evt := ⟨⟨.pair, 0⟩, 0x00c⟩
abbrev E.PAIR_LINK_CRC_ERR : Evt := ⟨⟨.pair, 0⟩, 0x004⟩
abbrev E.PAIR_PROBE_TX : Evt := ⟨⟨.pair, 0⟩, 0x00d⟩
abbrev E.PAIR_EXP_FRAMES : Evt := ⟨⟨.pair, 0⟩, 0x005⟩
abbrev E.PAIR_CONN_RESUMED : Evt := ⟨⟨.pair, 0⟩, 0x00e⟩
abbrev E.PAIR_ACK_HELD : Evt := ⟨⟨.pair, 0⟩, 0x006⟩
abbrev E.PAIR_CONN_RESUME_FAIL : Evt := ⟨⟨.pair, 0⟩, 0x00f⟩
abbrev E.PAIR_CKPT_TX : Evt := ⟨⟨.pair, 0⟩, 0x007⟩
abbrev E.PAIR_CMD_REPLAY : Evt := ⟨⟨.pair, 0⟩, 0x010⟩
abbrev E.PAIR_CKPT_RX : Evt := ⟨⟨.pair, 0⟩, 0x008⟩
abbrev E.PAIR_CULTURE_PASS : Evt := ⟨⟨.pair, 0⟩, 0x011⟩
abbrev E.PAIR_SYNC_BYTES : Evt := ⟨⟨.pair, 0⟩, 0x009⟩
abbrev E.PAIR_CULTURE_FAIL : Evt := ⟨⟨.pair, 0⟩, 0x012⟩
abbrev E.MGMT_POL_RATE_SET : Evt := ⟨⟨.mgmt, 1⟩, 0x101⟩
abbrev E.MGMT_RETIRE : Evt := ⟨⟨.mgmt, 1⟩, 0x102⟩
abbrev E.MGMT_RETIRE_DEFER : Evt := ⟨⟨.mgmt, 1⟩, 0x103⟩
abbrev E.MGMT_MULT_CHANGE : Evt := ⟨⟨.mgmt, 1⟩, 0x104⟩
abbrev E.MGMT_THROTTLE_STEP : Evt := ⟨⟨.mgmt, 3⟩, 0x181⟩
abbrev E.MGMT_FW_ACTIVATE : Evt := ⟨⟨.mgmt, 3⟩, 0x182⟩
abbrev E.MGMT_FLT_CAPTURE : Evt := ⟨⟨.mgmt, 2⟩, 0x201⟩
abbrev E.MGMT_FLT_MSG : Evt := ⟨⟨.mgmt, 2⟩, 0x202⟩
abbrev E.MGMT_FORCE_DENIED : Evt := ⟨⟨.mgmt, 2⟩, 0x203⟩
abbrev E.MGMT_FACTORY_KEY_BAD : Evt := ⟨⟨.mgmt, 2⟩, 0x204⟩
abbrev E.MGMT_HBM_CE : Evt := ⟨⟨.mgmt, 2⟩, 0x205⟩
abbrev E.MGMT_HBM_UE : Evt := ⟨⟨.mgmt, 2⟩, 0x206⟩
abbrev E.MGMT_REG_UNDEF : Evt := ⟨⟨.mgmt, 0⟩, 0x001⟩
abbrev E.MGMT_MBOX_CMDS : Evt := ⟨⟨.mgmt, 0⟩, 0x009⟩
abbrev E.MGMT_REG_RO_WRITE : Evt := ⟨⟨.mgmt, 0⟩, 0x002⟩
abbrev E.MGMT_MBOX_ERR : Evt := ⟨⟨.mgmt, 0⟩, 0x00a⟩
abbrev E.MGMT_REG_WO_READ : Evt := ⟨⟨.mgmt, 0⟩, 0x003⟩
abbrev E.MGMT_EVR_RECORDS : Evt := ⟨⟨.mgmt, 0⟩, 0x00b⟩
abbrev E.MGMT_CORE_RETRY : Evt := ⟨⟨.mgmt, 0⟩, 0x004⟩
abbrev E.MGMT_EVR_LOST : Evt := ⟨⟨.mgmt, 0⟩, 0x00c⟩
abbrev E.MGMT_CORE_DENIED : Evt := ⟨⟨.mgmt, 0⟩, 0x005⟩
abbrev E.MGMT_EP_LINK_DOWN : Evt := ⟨⟨.mgmt, 0⟩, 0x00d⟩
abbrev E.MGMT_CTL_IGNORED : Evt := ⟨⟨.mgmt, 0⟩, 0x006⟩
abbrev E.MGMT_EP_CTO : Evt := ⟨⟨.mgmt, 0⟩, 0x00e⟩
abbrev E.MGMT_SHD_WRITE_DROP : Evt := ⟨⟨.mgmt, 0⟩, 0x007⟩
abbrev E.MGMT_EP_LATE_CMPL : Evt := ⟨⟨.mgmt, 0⟩, 0x00f⟩
abbrev E.MGMT_TBL_BUSY : Evt := ⟨⟨.mgmt, 0⟩, 0x008⟩

/-- A row of a fault-source table: first local number, how many, default class (0 CORRECTED, 1 CONTAINED, 2 FATAL), privileged. -/
structure SrcRow where
  loc : Nat
  count : Nat
  cls : Nat
  priv : Bool
deriving DecidableEq, Repr

/-- The implemented sources of each page type (R674, R675). -/
def srcRows : PageType → List SrcRow
  | .dev => []
  | .grp0 => [⟨0, 1, 0, true⟩, ⟨1, 1, 1, false⟩, ⟨2, 1, 1, false⟩, ⟨3, 1, 0, false⟩, ⟨4, 1, 2, false⟩, ⟨5, 1, 1, true⟩, ⟨6, 1, 0, false⟩, ⟨7, 1, 2, false⟩]
  | .grp => [⟨0, 1, 0, false⟩, ⟨1, 1, 1, false⟩, ⟨2, 1, 1, false⟩, ⟨3, 1, 0, false⟩, ⟨4, 1, 2, false⟩, ⟨5, 1, 1, false⟩, ⟨6, 1, 0, false⟩, ⟨7, 1, 2, false⟩]
  | .lane => [⟨1, 1, 1, false⟩, ⟨7, 1, 2, false⟩]
  | .xprt => [⟨0, 1, 0, false⟩, ⟨1, 1, 1, false⟩, ⟨2, 1, 0, true⟩, ⟨3, 1, 0, true⟩, ⟨4, 1, 1, false⟩, ⟨5, 1, 0, false⟩, ⟨6, 1, 0, false⟩, ⟨7, 1, 2, false⟩]
  | .gard0 => [⟨0, 1, 0, false⟩, ⟨1, 1, 1, false⟩, ⟨2, 1, 2, false⟩]
  | .gard1 => [⟨0, 1, 0, true⟩, ⟨1, 1, 1, false⟩, ⟨2, 1, 1, false⟩, ⟨3, 1, 0, true⟩, ⟨4, 1, 2, false⟩]
  | .gard2 => [⟨0, 1, 1, false⟩, ⟨1, 1, 2, false⟩]
  | .cmdq => [⟨0, 1, 0, false⟩, ⟨1, 1, 1, false⟩, ⟨2, 1, 0, true⟩, ⟨3, 1, 0, true⟩, ⟨4, 1, 1, true⟩, ⟨5, 1, 0, false⟩, ⟨6, 1, 1, false⟩, ⟨7, 1, 2, false⟩]
  | .regn => [⟨0, 1, 0, false⟩, ⟨1, 1, 1, false⟩, ⟨2, 1, 1, true⟩, ⟨3, 1, 0, true⟩, ⟨4, 1, 1, true⟩, ⟨5, 1, 1, false⟩, ⟨6, 1, 0, false⟩, ⟨7, 1, 2, false⟩]
  | .tmgr => [⟨0, 1, 0, false⟩, ⟨1, 1, 1, false⟩, ⟨2, 1, 1, true⟩, ⟨3, 1, 0, true⟩, ⟨4, 1, 0, true⟩, ⟨5, 1, 2, false⟩, ⟨6, 1, 2, false⟩]
  | .vat => [⟨0, 1, 2, false⟩, ⟨1, 1, 2, false⟩, ⟨2, 1, 0, true⟩]
  | .cell => [⟨0, 1, 1, true⟩, ⟨1, 1, 0, false⟩, ⟨2, 1, 1, false⟩, ⟨3, 1, 0, true⟩, ⟨4, 1, 0, true⟩, ⟨5, 1, 1, false⟩, ⟨6, 1, 2, false⟩]
  | .jrnl => [⟨0, 1, 0, false⟩, ⟨1, 1, 1, false⟩, ⟨2, 1, 1, true⟩, ⟨3, 1, 0, true⟩, ⟨4, 1, 0, true⟩, ⟨5, 1, 1, false⟩, ⟨6, 1, 2, false⟩, ⟨7, 1, 1, true⟩, ⟨8, 1, 2, false⟩]
  | .cmpr => [⟨0, 1, 0, false⟩, ⟨1, 1, 1, false⟩, ⟨2, 1, 1, false⟩, ⟨3, 1, 1, false⟩, ⟨4, 1, 1, true⟩, ⟨5, 1, 0, true⟩, ⟨6, 1, 2, false⟩, ⟨7, 1, 2, false⟩]
  | .plce => [⟨0, 1, 0, false⟩, ⟨1, 1, 1, false⟩, ⟨2, 1, 0, true⟩, ⟨3, 1, 1, false⟩, ⟨4, 1, 1, true⟩, ⟨5, 1, 0, false⟩, ⟨6, 1, 2, false⟩]
  | .pool => [⟨0, 1, 1, false⟩, ⟨1, 1, 1, true⟩, ⟨2, 1, 1, true⟩, ⟨3, 1, 1, false⟩, ⟨4, 1, 0, true⟩, ⟨5, 1, 0, true⟩, ⟨6, 1, 1, true⟩, ⟨7, 1, 0, false⟩, ⟨8, 1, 1, false⟩, ⟨9, 1, 0, false⟩, ⟨10, 1, 1, false⟩]
  | .strpCommon => [⟨0, 1, 2, false⟩, ⟨1, 1, 0, false⟩, ⟨2, 1, 2, false⟩]
  | .drvp => [⟨0, 1, 0, true⟩, ⟨1, 1, 1, false⟩, ⟨2, 1, 1, false⟩, ⟨3, 1, 1, false⟩, ⟨4, 1, 0, false⟩, ⟨5, 1, 0, true⟩, ⟨6, 1, 1, false⟩, ⟨7, 1, 1, false⟩, ⟨8, 1, 2, false⟩]
  | .bayp => [⟨0, 1, 0, true⟩, ⟨1, 1, 0, false⟩, ⟨2, 1, 0, false⟩, ⟨3, 1, 0, false⟩, ⟨4, 1, 1, true⟩, ⟨5, 1, 1, false⟩, ⟨6, 1, 2, false⟩]
  | .pair => [⟨0, 1, 1, true⟩, ⟨1, 1, 1, true⟩, ⟨2, 1, 0, false⟩, ⟨3, 1, 0, true⟩, ⟨4, 1, 1, false⟩, ⟨5, 1, 1, false⟩, ⟨6, 1, 1, true⟩, ⟨7, 1, 1, false⟩, ⟨8, 1, 0, false⟩, ⟨9, 1, 0, false⟩, ⟨10, 1, 2, false⟩]
  | .mgmt0 => [⟨0, 1, 0, true⟩, ⟨1, 1, 2, true⟩, ⟨2, 1, 0, true⟩, ⟨3, 1, 0, true⟩, ⟨4, 1, 0, true⟩]
  | .mgmt1 => [⟨0, 1, 1, true⟩, ⟨1, 1, 1, false⟩, ⟨32, 16, 0, false⟩, ⟨48, 16, 1, false⟩, ⟨64, 16, 1, true⟩]
  | .mgmt2 => [⟨0, 64, 0, false⟩, ⟨64, 64, 1, false⟩, ⟨128, 64, 1, false⟩]
  | .mgmt3 => [⟨0, 1, 1, true⟩, ⟨1, 1, 1, false⟩, ⟨2, 1, 1, true⟩, ⟨3, 1, 2, false⟩]

/-- The event numbers of each page type, as first number and how many (R691). -/
def evtRows : PageType → List (Nat × Nat)
  | .dev => []
  | .grp0 => [(0x001, 1), (0x00b, 1), (0x002, 1), (0x00c, 1), (0x003, 1), (0x00d, 1), (0x004, 1), (0x00e, 1), (0x005, 1), (0x00f, 1), (0x006, 1), (0x010, 1), (0x007, 1), (0x011, 1), (0x008, 1), (0x012, 1), (0x009, 1), (0x00a, 1), (0x013, 1)]
  | .grp => [(0x001, 1), (0x00b, 1), (0x002, 1), (0x00c, 1), (0x003, 1), (0x00d, 1), (0x004, 1), (0x00e, 1), (0x005, 1), (0x00f, 1), (0x006, 1), (0x010, 1), (0x007, 1), (0x011, 1), (0x008, 1), (0x012, 1), (0x009, 1), (0x00a, 1), (0x013, 1)]
  | .lane => [(0x020, 1), (0x021, 1), (0x022, 1)]
  | .xprt => [(0x001, 1), (0x012, 1), (0x002, 1), (0x013, 1), (0x003, 1), (0x014, 1), (0x004, 1), (0x015, 1), (0x005, 1), (0x016, 1), (0x006, 1), (0x017, 1), (0x007, 1), (0x018, 1), (0x008, 1), (0x019, 1), (0x009, 1), (0x01a, 1), (0x00b, 1), (0x01b, 1), (0x00c, 1), (0x01c, 1), (0x00d, 1), (0x01d, 1), (0x00e, 1), (0x01e, 1), (0x00f, 1), (0x01f, 1), (0x010, 1), (0x020, 1), (0x011, 1), (0x021, 1)]
  | .gard0 => [(0x001, 1), (0x002, 1), (0x003, 1), (0x004, 1), (0x005, 1), (0x006, 1), (0x007, 1), (0x008, 1), (0x009, 1), (0x00a, 1)]
  | .gard1 => [(0x020, 1), (0x021, 1), (0x022, 1), (0x023, 1), (0x024, 1), (0x025, 1), (0x026, 1), (0x027, 1)]
  | .gard2 => [(0x040, 1), (0x041, 1), (0x042, 1)]
  | .cmdq => [(0x001, 1), (0x00d, 1), (0x002, 1), (0x00e, 1), (0x003, 1), (0x00f, 1), (0x004, 1), (0x010, 1), (0x005, 1), (0x011, 1), (0x006, 1), (0x012, 1), (0x007, 1), (0x013, 1), (0x008, 1), (0x014, 1), (0x009, 1), (0x015, 1), (0x00a, 1), (0x016, 1), (0x00b, 1), (0x017, 1), (0x00c, 1), (0x018, 1)]
  | .regn => [(0x001, 1), (0x00a, 1), (0x002, 1), (0x00b, 1), (0x003, 1), (0x00c, 1), (0x004, 1), (0x00d, 1), (0x005, 1), (0x00e, 1), (0x006, 1), (0x00f, 1), (0x007, 1), (0x010, 1), (0x008, 1), (0x011, 1), (0x009, 1), (0x012, 1)]
  | .tmgr => [(0x001, 1), (0x009, 1), (0x002, 1), (0x00a, 1), (0x003, 1), (0x00b, 1), (0x004, 1), (0x00c, 1), (0x005, 1), (0x00d, 1), (0x006, 1), (0x00e, 1), (0x007, 1), (0x00f, 1), (0x008, 1), (0x010, 1)]
  | .vat => [(0x001, 1), (0x100, 48), (0x002, 1), (0x140, 48), (0x003, 1), (0x004, 1), (0x005, 1), (0x006, 1), (0x007, 1), (0x008, 1), (0x009, 1), (0x00a, 1)]
  | .cell => [(0x001, 1), (0x002, 1), (0x003, 1), (0x004, 1), (0x005, 1), (0x006, 1), (0x007, 1), (0x008, 1)]
  | .jrnl => [(0x001, 1), (0x00a, 1), (0x002, 1), (0x00b, 1), (0x003, 1), (0x00c, 1), (0x004, 1), (0x00d, 1), (0x005, 1), (0x00e, 1), (0x006, 1), (0x00f, 1), (0x007, 1), (0x010, 1), (0x008, 1), (0x011, 1), (0x009, 1)]
  | .cmpr => [(0x001, 1), (0x00b, 1), (0x002, 1), (0x00c, 1), (0x003, 1), (0x00d, 1), (0x004, 1), (0x00e, 1), (0x005, 1), (0x00f, 1), (0x006, 1), (0x010, 1), (0x007, 1), (0x011, 1), (0x008, 1), (0x012, 1), (0x009, 1), (0x013, 1), (0x00a, 1), (0x014, 1)]
  | .plce => [(0x001, 1), (0x00b, 1), (0x002, 1), (0x00c, 1), (0x003, 1), (0x00d, 1), (0x004, 1), (0x00e, 1), (0x005, 1), (0x00f, 1), (0x006, 1), (0x010, 1), (0x007, 1), (0x011, 1), (0x008, 1), (0x012, 1), (0x009, 1), (0x013, 1), (0x00a, 1), (0x014, 1)]
  | .pool => [(0x001, 1), (0x009, 1), (0x002, 1), (0x00a, 1), (0x003, 1), (0x00b, 1), (0x004, 1), (0x00c, 1), (0x005, 1), (0x00d, 1), (0x006, 1), (0x00e, 1), (0x007, 1), (0x00f, 1), (0x008, 1), (0x010, 1)]
  | .strpCommon => []
  | .drvp => [(0x001, 1), (0x00c, 1), (0x002, 1), (0x00d, 1), (0x003, 1), (0x00e, 1), (0x004, 1), (0x00f, 1), (0x005, 1), (0x010, 1), (0x006, 1), (0x011, 1), (0x007, 1), (0x012, 1), (0x008, 1), (0x013, 1), (0x009, 1), (0x014, 1), (0x00a, 1), (0x015, 1), (0x00b, 1), (0x016, 1)]
  | .bayp => [(0x001, 1), (0x007, 1), (0x002, 1), (0x008, 1), (0x003, 1), (0x009, 1), (0x004, 1), (0x00a, 1), (0x005, 1), (0x00b, 1), (0x006, 1), (0x00c, 1)]
  | .pair => [(0x001, 1), (0x00a, 1), (0x002, 1), (0x00b, 1), (0x003, 1), (0x00c, 1), (0x004, 1), (0x00d, 1), (0x005, 1), (0x00e, 1), (0x006, 1), (0x00f, 1), (0x007, 1), (0x010, 1), (0x008, 1), (0x011, 1), (0x009, 1), (0x012, 1)]
  | .mgmt0 => [(0x001, 1), (0x009, 1), (0x002, 1), (0x00a, 1), (0x003, 1), (0x00b, 1), (0x004, 1), (0x00c, 1), (0x005, 1), (0x00d, 1), (0x006, 1), (0x00e, 1), (0x007, 1), (0x00f, 1), (0x008, 1)]
  | .mgmt1 => [(0x101, 1), (0x102, 1), (0x103, 1), (0x104, 1)]
  | .mgmt2 => [(0x201, 1), (0x202, 1), (0x203, 1), (0x204, 1), (0x205, 1), (0x206, 1)]
  | .mgmt3 => [(0x181, 1), (0x182, 1)]

end Sys2Proof.Machine
end

