-- ==== Sys2Proof/Machine/Emit.lean ====
section
/-!
DEFINITION. What the device puts out: what a requester, the host fabric, a drive, the partner or a pin sees.
-/
namespace Sys2Proof.Machine
open Sys2Proof

/-- What a frame mirrors (Table 16.4). -/
inductive MirrorItem
  | regionWrite (id : Nat)
  | horizon (ctx epsn msn : Nat)
  | keyChange (index : Nat)
  | regionChange (index : Nat)
  | tableWrite (page table index : Nat)
  /-- An entry of a live table that the hardware has changed by itself: nothing waits for it. -/
  | tableEntry (page table index : Nat)
  | subscription (index : Nat)
  | notification (index nseq : Nat)
  | journal (handle : Nat)
  | commitNotice (handle : Nat)
  | releaseNotice (handle : Nat)
  | config (epoch : Nat)
  | command (slot : Nat)
  | lastPsn (ctx psn : Nat)
  | placement (what index : Nat)
  | checkpoint (ctx : Nat)
  | accumulators
  | meter (gen : Nat)
  | meterAck (value : Nat)
  | health
  /-- A page of 4 KiB of the region space (R762). -/
  | regionPage (page : Nat)
  | handover
deriving DecidableEq, Repr

/-- What leaves the device, as far as it is seen from outside. -/
inductive Emit
  /-- Data returned to a register read. -/
  | readData (rq : Requester) (addr value : Nat)
  /-- An MSI-X message (R707). -/
  | msix (vector : Nat) (addr : BitVec 64) (data : Word)
  /-- A PM_PME message (Table 19.4). -/
  | pmPme
  /-- An event record written to a host ring: ring, index, SEQ, PHASE, body (Table 19.6). -/
  | evRecord (ring index seq phase : Nat) (body : EvBody)
  /-- A mailbox completion entry written: index, RQ_ID, STATUS, PHASE, BYTES (Table 19.5). -/
  | mboxCompletion (index rqId status phase bytes : Nat)
  /-- Bytes written to, and a read asked of, a host buffer of the management processor. -/
  | mgmtWrite (addr : Nat) (data : Blob)
  | mgmtRead (addr len tag : Nat)
  /-- A frame LINE answers by itself on a port: ARP, Neighbour Advertisement, echo (R102, R106): tenant port. -/
  | arpReply (port tport : Nat) (eth : EthHdr)
  | ndReply (port tport : Nat) (eth : EthHdr)
  | echoReply (port tport : Nat) (eth : EthHdr)
  | gratuitousArp (port tport : Nat) (eth : EthHdr)
  | unsolicitedNa (port tport : Nat) (eth : EthHdr)
  /-- Auto-negotiation begins on a port and advertises one PHY type (R95). -/
  | advertise (port : Nat) (phy : Phy)
  /-- A PFC frame: port, priority, quanta; 0 is XON (R108). -/
  | pfc (port prio quanta : Nat)
  /-- A frame handed on to XPRT, or to firmware's PTP clock (R101, R102). -/
  | toXprt (rx : RxMeta) (pkt : Packet)
  | toPtp (port : Nat) (msg : PtpMsg) (time : Option Nat)
  /-- The Delay_Req of the PTP slave clock (R113): transport, domain, sequence number. -/
  | ptpDelayReq (port : Nat) (eth : EthHdr) (transport domain seq : Nat)
  /-- A RoCEv2 packet of a connection leaving on a port (R104): its headers, its seal. -/
  | packet (ctx port : Nat) (hdr : NetHdr) (pkt : OutPkt) (trailer : Option SealTrailer)
  /-- A frame on the Britos link: lane group, link sequence number, what it mirrors (R628, Table 16.4). -/
  | mirrorFrame (group lseq : Nat) (item : MirrorItem)
  /-- A confirmation of the partner's frames up to one of them (TYPE 2), and a frame sent again (R628). -/
  | peerConfirm (group lseq : Nat)
  | linkRetx (group lseq : Nat)
  /-- The pins PAIR_OWN_OUT, PAIR_FENCE_OUT, THERMTRIP_N, and every lane idled electrically (R616, R621, R737). -/
  | pinOwn (on : Bool)
  | pinFence (on : Bool)
  | thermTrip (on : Bool)
  | lanesIdle
  /-- VDD_CORE's regulator is told a voltage, and asked for it, in millivolts (R722). -/
  | avsWrite (mv : Nat)
  | avsRead
  /-- An SMBus transfer of a bay: address, bytes written, how many read (R713). -/
  | smbus (bay addr : Nat) (data : Blob) (rlen : Nat)
  /-- Connection management messages sent (R133), with the port and headers they leave by; a REP carries private data (Table 4.2). -/
  | cmRep (ctx port : Nat) (hdr : NetHdr) (priv : Blob)
  | cmRej (hostQpn status port : Nat) (hdr : NetHdr)
  | cmDrep (ctx port : Nat) (hdr : NetHdr)
  | cmDreq (ctx port : Nat) (hdr : NetHdr)
  /-- A copy of a label written to a bay, A (0) or B (1) (R507); an open-stripe log to a half of a position's log slot (R540); a block of 256
  entries of the loss list to a position (R517); a save header to a bay (R412). -/
  | poolLabel (bay copy : Nat) (data : Blob)
  | oslCopy (pool position half : Nat) (data : Blob)
  | lossBlock (pool position block : Nat) (data : Blob)
  | saveHeader (bay : Nat) (data : Blob)
  /-- A strip of the save image, written with FUA to a bay at an offset of its slice (R412). -/
  | saveStrip (bay offset : Nat) (data : Blob)
  /-- The bytes of a strip and of a map page copy as they go to their position (R510, R476): pool, stripe, role or slot, copy. -/
  | strip (pool stripe role : Nat) (data : Blob)
  | mapPage (pool slot copy : Nat) (data : Blob)
  /-- A command rung to a drive (R559): bay, tag, write, byte offset, bytes, FUA; an Abort; a power state set (R576). -/
  | driveIo (bay tag : Nat) (isWrite : Bool) (offset bytes : Nat) (fua : Bool)
  | driveAbort (bay tag : Nat)
  | drivePs (bay ps : Nat)
  /-- APST set on a drive: the state and the idle time of every operational state; none turns it off (R576). -/
  | driveApst (bay : Nat) (state : Option (Nat × Nat))
  /-- PERST# of a bay, and CC.EN cleared by a level 1 reset (R554, R572). -/
  | drivePerst (bay : Nat) (asserted : Bool)
  | driveDisable (bay : Nat)
  /-- What the root port answers a drive's request with (R558, R560, R569). -/
  | driveData (bay tag : Nat) (data : Blob)
  | driveUr (bay : Nat)
  /-- Gates of a bay turned on or off by the owner, and sourced or released without ownership (R589, R591, R606). -/
  | gate12 (bay : Nat) (on : Bool)
  | gate3 (bay : Nat) (on : Bool)
  | gateSource (bay : Nat) (on : Bool)
deriving DecidableEq, Repr

end Sys2Proof.Machine
end

