-- ==== Sys2Proof/Machine/Maps.lean ====
section
/-!
DEFINITION. The operations on sparse maps. An unlisted key reads as a default; writing the default removes the entry, so that equal
contents are equal data.
-/
namespace Sys2Proof.Machine
open Sys2Proof

/-- The value listed at a key. -/
def listFind {α : Type} (k : Nat) : List (Nat × α) → Option α
  | [] => none
  | (k', v) :: m => if k = k' then some v else listFind k m

/-- Put a value at a key, keys kept rising. -/
def listInsert {α : Type} (k : Nat) (v : α) : List (Nat × α) → List (Nat × α)
  | [] => [(k, v)]
  | (k', v') :: m =>
    if k < k' then (k, v) :: (k', v') :: m
    else if k = k' then (k, v) :: m
    else (k', v') :: listInsert k v m

/-- Remove a key. -/
def listErase {α : Type} (k : Nat) (m : List (Nat × α)) : List (Nat × α) :=
  m.filter fun e => decide (e.1 ≠ k)

/-- Keys strictly rise. -/
def keysRise {α : Type} : List (Nat × α) → Bool
  | [] => true
  | [_] => true
  | (k, _) :: (k', v') :: m => decide (k < k') && keysRise ((k', v') :: m)

end Sys2Proof.Machine

/-- The elements of a list, each once, in the order of their first appearance. -/
def List.uniq {α : Type} [BEq α] : List α → List α
  | [] => []
  | x :: r => x :: (List.uniq r).filter fun y => !(y == x)

namespace Sys2Proof.SMap
open Sys2Proof.Machine

/-- The value listed at a key, if one is. -/
def find {α : Type} (m : SMap α) (k : Nat) : Option α := listFind k m.list

/-- The value at a key, `d` where none is listed. -/
def get {α : Type} (m : SMap α) (k : Nat) (d : α) : α := (m.find k).getD d

/-- List a value at a key. -/
def set {α : Type} (m : SMap α) (k : Nat) (v : α) : SMap α := ⟨listInsert k v m.list⟩

/-- Remove a key. -/
def erase {α : Type} (m : SMap α) (k : Nat) : SMap α := ⟨listErase k m.list⟩

/-- Write a value at a key whose unlisted value is `d`. -/
def put {α : Type} [DecidableEq α] (m : SMap α) (k : Nat) (d v : α) : SMap α :=
  if v = d then m.erase k else m.set k v

/-- Change the value at a key. -/
def modify {α : Type} [DecidableEq α] (m : SMap α) (k : Nat) (d : α) (f : α → α) : SMap α :=
  m.put k d (f (m.get k d))

def keys {α : Type} (m : SMap α) : List Nat := m.list.map Prod.fst
def vals {α : Type} (m : SMap α) : List α := m.list.map Prod.snd
def size {α : Type} (m : SMap α) : Nat := m.list.length
/-- The entries that satisfy a test. -/
def filter {α : Type} (m : SMap α) (p : Nat → α → Bool) : SMap α := ⟨m.list.filter fun e => p e.1 e.2⟩
/-- How many entries satisfy a test. -/
def count {α : Type} (m : SMap α) (p : Nat → α → Bool) : Nat := (m.list.filter fun e => p e.1 e.2).length
/-- Change every listed value. -/
def mapVals {α β : Type} (m : SMap α) (f : Nat → α → β) : SMap β := ⟨m.list.map fun e => (e.1, f e.1 e.2)⟩
/-- The first listed key that satisfies a test. -/
def findKey {α : Type} (m : SMap α) (p : Nat → α → Bool) : Option Nat :=
  (m.list.find? fun e => p e.1 e.2).map Prod.fst
def all {α : Type} (m : SMap α) (p : Nat → α → Bool) : Bool := m.list.all fun e => p e.1 e.2
def any {α : Type} (m : SMap α) (p : Nat → α → Bool) : Bool := m.list.any fun e => p e.1 e.2
/-- The canonical form: keys strictly rise and no entry holds the value an unlisted key reads as. -/
def wf {α : Type} [DecidableEq α] (d : Nat → α) (m : SMap α) : Bool :=
  keysRise m.list && m.list.all fun e => decide (e.2 ≠ d e.1)

end Sys2Proof.SMap
end

