-- ==== Sys2Proof/Machine/TypesFab.lean ====
section
/-!
DEFINITION. The parts of the register fabric, the collector and the management endpoint (chapters 02, 18 and 19 of spec/).
-/
namespace Sys2Proof.Machine
open Sys2Proof

/-- The states of Table 2.11. -/
inductive PgState
  | off | starting | on | draining | failed | retired
deriving DecidableEq, Repr

/-- The live state of one page: `PG_STAT` and `SHD_STAT` of Table 2.10. -/
structure PageSt where
  state : PgState := .off
  failCause : Nat := 0
  retireCause : Nat := 0
  toRetire : Bool := false
  pendEn : Bool := false
  lastEpoch : Word := 0
  shdDirty : Bool := false
deriving DecidableEq, Repr

/-- A table operation in progress in a window (R86); what it takes in the cycle of the `TBL_CMD` write. -/
structure TblOp where
  op : Nat
  sel : Bool
  table : Nat
  index : Nat
  chunk : Nat
  data : Nat
  order : Nat
deriving DecidableEq, Repr

/-- One table window: the operation that runs and the chunks held for one entry (R87). -/
structure Win where
  run : Option TblOp := none
  heldEntry : Option (Nat × Bool × Nat) := none
  heldChunks : SMap Nat := {}
deriving DecidableEq, Repr

/-- What runs while `SWAP_STAT.BUSY` is 1 (R77, R83). -/
inductive SwapRun
  | idle | go | revert | sync
deriving DecidableEq, Repr

/-- A page's failed consistency check (R14, R77): the page, the code and the active-set offset. -/
structure SwapFail where
  page : Page
  code : Nat
  offset : Nat
deriving DecidableEq, Repr

/-- The swap engine of the DEV page: what runs, which pages failed their check in the cycle of the GO or REVERT, and which pages could not
begin it then, since a shadow-table operation ran on them (R81). -/
structure SwapSt where
  run : SwapRun := .idle
  fails : List SwapFail := []
  late : List Page := []
deriving DecidableEq, Repr

/-- One MSI-X table entry of BAR4 (R700, R707). Its vector mask is set at reset. -/
structure MsixEntry where
  addr : BitVec 64 := 0
  data : Word := 0
  masked : Bool := true
deriving DecidableEq, Repr

/-- D-states of Table 19.4. -/
inductive DState
  | d0 | d3hot | d3cold
deriving DecidableEq, Repr

/-- The endpoint's AER registers (R703). -/
structure AerSt where
  corStatus : List AerErr := []
  uncStatus : List AerErr := []
  corMask : List AerErr := [.advisoryNonFatal, .correctedInternal, .headerLogOverflow]
  uncMask : List AerErr := [.uncorrectableInternal]
  firstErr : Option AerErr := none
  headerLog : Nat := 0
deriving DecidableEq, Repr

/-- A mailbox command in execution (R712). -/
structure MboxRun where
  req : MboxReq
  status : Nat := 0
  bytes : Nat := 0
  executed : Bool := false
  /-- Held by a firmware activation (R261); its completion is not to be written (R711). -/
  held : Bool := false
  orphan : Bool := false
  /-- The tag of its DMA read, while that is outstanding. -/
  tag : Option Nat := none
  /-- Bytes for the host buffer that could not leave yet: address and data. -/
  wr : Option (Nat × Blob) := none
deriving DecidableEq, Repr

/-- One event ring beyond its registers: its record count since EN and the bodies held on die (R715). -/
structure RingSt where
  seq : Nat := 0
  held : List EvBody := []
deriving DecidableEq, Repr

/-- The management endpoint (chapter 19). -/
structure EpSt where
  linkUp : Bool := false
  everUp : Bool := false
  /-- The link as it last trained (R701): rate 1 to 6 for 2.5 to 64 GT/s, FLIT mode, width. -/
  rate : Nat := 0
  flit : Bool := false
  width : Nat := 0
  /-- Max Read Request Size in bytes (R701). -/
  mrrs : Nat := 512
  dstate : DState := .d0
  bme : Bool := false
  funcMask : Bool := false
  pmeEn : Bool := false
  pmeStatus : Bool := false
  wake : Bool := false
  msix : SMap MsixEntry := {}
  pba : List Nat := []
  aer : AerSt := {}
  /-- Tags of DMA reads outstanding, and under quarantine (R706). -/
  dmaOut : List Nat := []
  tagQuar : List Nat := []
  mbox : Option MboxRun := none
  /-- A completion that waits for D0 (Table 19.4). -/
  mboxHeldCpl : Bool := false
  /-- The tag of the fetch of the request at HEAD, while that is outstanding. -/
  mboxFetch : Option Nat := none
  cqSeq : Nat := 0
  rings : SMap RingSt := {}
deriving DecidableEq, Repr

/-- The register fabric, the swap engine, the collector, the counters and the endpoint. -/
structure Fab where
  /-- Register words at their BAR0 offset; an unlisted word reads its reset value. -/
  regs : SMap Word := {}
  /-- Counters, by page base + 0x240 + 8k. -/
  cnts : SMap (BitVec 48) := {}
  /-- Pages, by page base. -/
  pages : SMap PageSt := {}
  /-- Stored table entries as little-endian numbers, keyed by `tabKey`. -/
  tabs : SMap Nat := {}
  /-- Table windows, by window base. -/
  wins : SMap Win := {}
  winOrder : Nat := 0
  /-- Upper halves latched by R55 and R696, per requester. -/
  latchM : SMap Word := {}
  latchC : SMap Word := {}
  swap : SwapSt := {}
  /-- Wrong factory keys since power-on reset (R689). -/
  factoryBad : Nat := 0
  ep : EpSt := {}
  /-- What the device has put out so far, newest first (the model's own record; no register of the spec). -/
  out : List Emit := []
deriving DecidableEq, Repr

end Sys2Proof.Machine
end

