-- ==== Sys2Proof/Machine/Ops.lean ====
section
/-!
DEFINITION. The named operations of the register fabric: bit fields, pages and their addresses, registers, tables, counters, the page
state machine, and what leaves the device.
-/
namespace Sys2Proof.Machine
open Sys2Proof

/-- The field of `w` bits at `lo` of a number (R9). -/
def bitsOf (x lo w : Nat) : Nat := x / 2 ^ lo % 2 ^ w
/-- A number with the field of `w` bits at `lo` replaced. -/
def withBits (x lo w v : Nat) : Nat := x - bitsOf x lo w * 2 ^ lo + v % 2 ^ w * 2 ^ lo
def getBits (x : Word) (lo w : Nat) : Nat := bitsOf x.toNat lo w
def setBits (x : Word) (lo w v : Nat) : Word := BitVec.ofNat 32 (withBits x.toNat lo w v)
/-- Bit `i` of a number. -/
def bitAt (x i : Nat) : Bool := decide (x / 2 ^ i % 2 = 1)
/-- Byte `i` of a little-endian number (R11). -/
def byteAt (x i : Nat) : Nat := bitsOf x (8 * i) 8
/-- `n` bytes from byte `i` of a little-endian number. -/
def bytesAt (x i n : Nat) : Nat := bitsOf x (8 * i) (8 * n)
def withBytes (x i n v : Nat) : Nat := withBits x (8 * i) (8 * n) v
/-- The bytes of a little-endian number, byte 0 first. -/
def toBytes (n x : Nat) : List Nat := (List.range n).map (byteAt x)
/-- The little-endian number that a list of bytes spells. -/
def ofBytes : List Nat → Nat
  | [] => 0
  | b :: bs => b % 256 + 256 * ofBytes bs
/-- `n` bytes of network order (R11) read as one number. -/
def netAt (x i n : Nat) : Nat := ofBytes (toBytes n (bytesAt x i n)).reverse
/-- The bytes of a number in network order, first byte first, and as a little-endian number. -/
def netBytes (n v : Nat) : List Nat := (toBytes n v).reverse
def toNet (n v : Nat) : Nat := ofBytes (netBytes n v)
def boolNat (b : Bool) : Nat := if b then 1 else 0
/-- How many of the low `n` bits are 1. -/
def popCount (n x : Nat) : Nat := ((List.range n).filter (bitAt x)).length

end Sys2Proof.Machine

namespace Sys2Proof

/-- The block index of Table 1.2; the DEV page stands at 0 (Table 2.1). -/
def Blk.idx : Blk → Nat
  | .dev => 0 | .line => 1 | .xprt => 2 | .gard => 3 | .cmdq => 4 | .regn => 5 | .tmgr => 6 | .vat => 7 | .cell => 8 | .jrnl => 9
  | .cmpr => 10 | .plce => 11 | .strp => 12 | .drvp => 13 | .bayp => 14 | .pair => 15 | .mgmt => 16

/-- The blocks in the order of their indices. -/
def allBlks : List Blk :=
  [.line, .xprt, .gard, .cmdq, .regn, .tmgr, .vat, .cell, .jrnl, .cmpr, .plce, .strp, .drvp, .bayp, .pair, .mgmt]

/-- How many instances a block has (R51, Table 2.2). -/
def Blk.instances : Blk → Nat
  | .line => 80 | .gard => 3 | .strp => 5 | .drvp => 24 | .bayp => 24 | .mgmt => 4 | _ => 1

end Sys2Proof

namespace Sys2Proof.Page
open Sys2Proof.Machine

/-- The BAR0 offset of a page (R50). -/
def base (p : Page) : Nat := p.blk.idx * 0x1000000 + p.inst * 0x10000
/-- The page exists (R51). -/
def valid (p : Page) : Bool := decide (p.inst < p.blk.instances)

/-- The registers a page holds, by its place (Tables 2.2, 3.8). -/
def kind (p : Page) : PageType :=
  match p.blk with
  | .dev => .dev
  | .line => if p.inst = 0 then .grp0 else if p.inst < 16 then .grp else .lane
  | .xprt => .xprt
  | .gard => if p.inst = 0 then .gard0 else if p.inst = 1 then .gard1 else .gard2
  | .cmdq => .cmdq | .regn => .regn | .tmgr => .tmgr | .vat => .vat | .cell => .cell | .jrnl => .jrnl | .cmpr => .cmpr
  | .plce => .plce
  | .strp => if p.inst < 4 then .pool else .strpCommon
  | .drvp => .drvp | .bayp => .bayp | .pair => .pair
  | .mgmt => if p.inst = 0 then .mgmt0 else if p.inst = 1 then .mgmt1 else if p.inst = 2 then .mgmt2 else .mgmt3

/-- `PG_ID.TYPE` (Table 2.2). -/
def typeCode (p : Page) : Nat :=
  match p.kind with
  | .grp0 | .grp => 2 | .lane => 3 | .drvp | .bayp => 4 | .pool => 5 | .strpCommon => 6 | .gard0 | .gard1 | .gard2 => 7
  | .mgmt0 | .mgmt1 | .mgmt2 | .mgmt3 => 8 | _ => 1

/-- The page a BAR0 offset lies in, if any (Table 2.1, R56). -/
def ofAddr (a : Nat) : Option Page :=
  let inst := a / 0x10000 % 256
  match (Blk.dev :: allBlks).find? fun b => decide (b.idx = a / 0x1000000) with
  | some b => if inst < b.instances then some ⟨b, inst⟩ else none
  | none => none

/-- `PG_ID` (Table 2.10). -/
def idWord (p : Page) : Word := BitVec.ofNat 32 (p.blk.idx * 2 ^ 24 + p.inst * 2 ^ 16 + p.typeCode)

end Sys2Proof.Page

namespace Sys2Proof.Machine
open Sys2Proof

/-- Every block page, in the order of block index and instance. -/
def allPages : List Page := allBlks.flatMap fun b => (List.range b.instances).map fun i => ⟨b, i⟩

def pgDev : Page := ⟨.dev, 0⟩
def pgXprt : Page := ⟨.xprt, 0⟩
def pgKeys : Page := ⟨.gard, 0⟩
def pgSeal : Page := ⟨.gard, 1⟩
def pgXts : Page := ⟨.gard, 2⟩
def pgCmdq : Page := ⟨.cmdq, 0⟩
def pgRegn : Page := ⟨.regn, 0⟩
def pgTmgr : Page := ⟨.tmgr, 0⟩
def pgVat : Page := ⟨.vat, 0⟩
def pgCell : Page := ⟨.cell, 0⟩
def pgJrnl : Page := ⟨.jrnl, 0⟩
def pgCmpr : Page := ⟨.cmpr, 0⟩
def pgPlce : Page := ⟨.plce, 0⟩
def pgPair : Page := ⟨.pair, 0⟩
def pgGrp (g : Nat) : Page := ⟨.line, g⟩
def pgLane (n : Nat) : Page := ⟨.line, 16 + n⟩
def pgPool (p : Nat) : Page := ⟨.strp, p⟩
def pgStrp : Page := ⟨.strp, 4⟩
def pgDrvp (b : Nat) : Page := ⟨.drvp, b⟩
def pgBayp (b : Nat) : Page := ⟨.bayp, b⟩
def pgMgmt (i : Nat) : Page := ⟨.mgmt, i⟩

/-- Which register of the array stands at a page offset. -/
def RegDef.at (d : RegDef) (off : Nat) : Option Nat :=
  if d.off ≤ off ∧ (off - d.off) % d.stride = 0 ∧ (off - d.off) / d.stride < d.count then some ((off - d.off) / d.stride) else none

/-- The register at a page offset of a page type. -/
def findReg (t : PageType) (off : Nat) : Option (RegDef × Nat) :=
  (blockRegs t).findSome? fun d => (d.at off).map fun n => (d, n)

/-- The reset word of the n-th register of a definition (R16). -/
def RegDef.resetWord (d : RegDef) (n : Nat) : Word :=
  d.fields.foldl (fun acc f => setBits acc f.lo f.w (f.resetAt n)) 0

/-- A source is implemented on a page type: its row (R674). -/
def srcRow (t : PageType) (loc : Nat) : Option SrcRow :=
  (srcRows t).find? fun r => decide (r.loc ≤ loc ∧ loc < r.loc + r.count)

/-- The reset word of `FLT_SEVn`: the default classes (Table 2.10). -/
def sevReset (t : PageType) (n : Nat) : Word :=
  (List.range 16).foldl (fun acc j => match srcRow t (16 * n + j) with
    | some r => setBits acc (2 * j) 2 r.cls
    | none => acc) 0

/-- The reset value of the word at a BAR0 offset; a shadow word resets as its active word does. -/
def resetWord (a : Nat) : Word :=
  match Page.ofAddr a with
  | none => 0
  | some p =>
    let off := if a % 0x10000 < 0x9000 then a % 0x10000 else a % 0x10000 - 0x8000
    if p.blk ≠ .dev ∧ 0x140 ≤ off ∧ off < 0x180 then sevReset p.kind ((off - 0x140) / 4)
    else match findReg p.kind off with
      | some (d, n) => d.resetWord n
      | none => 0

/-! ### Registers -/

/-- The word at a BAR0 offset. -/
def Fab.reg (f : Fab) (a : Nat) : Word := f.regs.get a (resetWord a)
def Fab.setReg (a : Nat) (v : Word) (f : Fab) : Fab := { f with regs := f.regs.put a (resetWord a) v }
/-- A field of a page, active copy. -/
def Fab.get (f : Fab) (p : Page) (x : Fld) : Nat := getBits (f.reg (p.base + x.off)) x.lo x.w
def Fab.flag (f : Fab) (p : Page) (x : Fld) : Bool := decide (f.get p x = 1)
def Fab.setF (p : Page) (x : Fld) (v : Nat) (f : Fab) : Fab :=
  f.setReg (p.base + x.off) (setBits (f.reg (p.base + x.off)) x.lo x.w v)
/-- A field of the set about to be activated (the shadow copy) or of the active set (R73). -/
def Fab.cfg (f : Fab) (shadow : Bool) (p : Page) (x : Fld) : Nat :=
  getBits (f.reg (p.base + x.off + if shadow then 0x8000 else 0)) x.lo x.w
/-- Add to a field that saturates at its largest value. -/
def Fab.satAdd (p : Page) (x : Fld) (n : Nat) (f : Fab) : Fab := f.setF p x (min (f.get p x + n) (2 ^ x.w - 1))

/-! ### Tables -/

/-- The key of a table entry: page, copy, table number, index. -/
def tabKey (p : Page) (shadow : Bool) (table index : Nat) : Nat :=
  ((p.base / 0x10000 * 2 + boolNat shadow) * 256 + table) * 0x1000000 + index

/-- The reset value of a shadowed entry whose reset value is not 0: CMDQ table 1, REGN table 3, TMGR tables 6 and 7, CELL table 1, PLCE table
2, and table 1 of MGMT instance 1 (Tables 6.12, 7.10, 8.10, 9.8, 12.8, chapter 17 under Table 17.7). -/
def tabReset (key : Nat) : Nat :=
  let index := key % 0x1000000
  let table := key / 0x1000000 % 256
  let page := key / 0x1000000 / 512
  if page = 0x0400 ∧ table = 1 ∧ index < 4096 then 16 + 262144 * 2 ^ 32
  else if page = 0x0500 ∧ table = 3 ∧ index < 4096 then 2097152
  else if page = 0x0600 ∧ table = 6 ∧ index < 64 then 10
  else if page = 0x0600 ∧ table = 7 ∧ index < 4 then 10 * 2 ^ 32
  else if page = 0x0800 ∧ table = 1 ∧ index < 192 then 512
  else if page = 0x0B00 ∧ table = 2 ∧ index < 4 then 256 + 512 * 2 ^ 16 + 8 * 2 ^ 32 + 64 * 2 ^ 48
  else if page = 0x1001 ∧ table = 1 ∧ index < 16384 then 64 * 2 ^ 32
  else 0

/-- A table entry as a little-endian number (R11). -/
def Fab.tab (f : Fab) (p : Page) (shadow : Bool) (table index : Nat) : Nat :=
  f.tabs.get (tabKey p shadow table index) (tabReset (tabKey p shadow table index))
def Fab.setTab (p : Page) (shadow : Bool) (table index v : Nat) (f : Fab) : Fab :=
  { f with tabs := f.tabs.put (tabKey p shadow table index) (tabReset (tabKey p shadow table index)) v }
/-- The indices of a table's copy that hold something other than the reset value, each once. -/
def Fab.tabIndices (f : Fab) (p : Page) (shadow : Bool) (table : Nat) : List Nat :=
  ((f.tabs.keys.filter fun k => decide (k / 0x1000000 = tabKey p shadow table 0 / 0x1000000)).map fun k => k % 0x1000000).uniq

/-- The table window of a page for a requester (R85): registers of Table 2.15 at this base. -/
def winBase (p : Page) (rq : Requester) : Nat := p.base + if rq = .core then 0x8800 else 0x8000
def Fab.win (f : Fab) (b : Nat) : Win := f.wins.get b {}
/-- A table operation ends: BUSY 0 and a status (R86). -/
def Fab.winDone (p : Page) (rq : Requester) (status : Nat) (f : Fab) : Fab :=
  let b := winBase p rq
  let cmd := f.reg (b + F.TBL_CMD_BUSY.off)
  { f.setReg (b + F.TBL_CMD_BUSY.off) (setBits (setBits cmd 31 1 0) 28 3 status) with
    wins := f.wins.put b {} { f.win b with run := none } }

/-! ### What leaves the device, and counters -/

/-- Record something the device puts out. -/
def Fab.emit (e : Emit) (f : Fab) : Fab := { f with out := e :: f.out }

/-- The key of counter k of a page. -/
def cntKey (p : Page) (k : Nat) : Nat := p.base + 0x240 + 8 * k
def Fab.cnt (f : Fab) (p : Page) (k : Nat) : BitVec 48 := f.cnts.get (cntKey p k) 0

/-- Counter k of a page counts this event (R691). -/
def Fab.counts (f : Fab) (e : Evt) (k : Nat) : Bool :=
  let sel := f.reg (e.page.base + 0x200 + 4 * k)
  !f.flag (pgMgmt 2) F.CNT_GLOBAL_FREEZE_ALL && decide (getBits sel 14 1 = 0) && decide (getBits sel 12 1 = 1)
    && decide (getBits sel 0 12 = e.num)

/-- An event of amount n (R692): every counter that selects it gains n, modulo 2^48. -/
def Fab.count (e : Evt) (n : Nat) (f : Fab) : Fab :=
  { f with cnts := (List.range 8).foldl (fun c k =>
      if f.counts e k then c.put (cntKey e.page k) 0 (c.get (cntKey e.page k) 0 + BitVec.ofNat 48 n) else c) f.cnts }

/-! ### Pages -/

def Fab.page (f : Fab) (p : Page) : PageSt := f.pages.get p.base {}
def Fab.setPage (p : Page) (st : PageSt) (f : Fab) : Fab := { f with pages := f.pages.put p.base {} st }
def Fab.isOn (f : Fab) (p : Page) : Bool := decide ((f.page p).state = .on)
/-- The page serves work: ON, or finishing it while DRAINING. -/
def Fab.isLive (f : Fab) (p : Page) : Bool := decide ((f.page p).state = .on ∨ (f.page p).state = .draining)

/-- The events of Table 2.11. -/
inductive PgEv
  | enable | drain | softReset | retire | startDone | startBound | drainDone | drainBound | fatal | threshold | restart
deriving DecidableEq, Repr

/-- Table 2.11: the next state of a page, none where the table lists nothing for the state (R68). A page whose drain completes with
PEND_EN set stands in OFF for one CD16 cycle, PEND_EN still set, and then enters STARTING. -/
def PageSt.next (s : PageSt) : PgEv → Option PageSt
  | .enable => match s.state with
    | .off => some { s with state := .starting, pendEn := false }
    | .draining => if s.toRetire then none else some { s with pendEn := true }
    | _ => none
  | .drain => match s.state with
    | .starting => some { s with state := .draining }
    | .on => some { s with state := .draining }
    | .draining => if s.toRetire || !s.pendEn then none else some { s with pendEn := false }
    | _ => none
  | .softReset => match s.state with
    | .off => some s
    | .failed => some { s with state := .off, failCause := 0 }
    | .retired => some { s with state := .off, failCause := 0, retireCause := 0 }
    | _ => none
  | .retire => match s.state with
    | .off => some { s with state := .retired, retireCause := 2, pendEn := false }
    | .failed => some { s with state := .retired, retireCause := 2 }
    | _ => none
  | .startDone => match s.state with
    | .starting => some { s with state := .on }
    | _ => none
  | .startBound => match s.state with
    | .starting => some { s with state := .failed, failCause := 1 }
    | _ => none
  | .drainDone => match s.state with
    | .draining =>
      if s.toRetire then some { s with state := .retired, retireCause := 1, toRetire := false }
      else some { s with state := .off }
    | _ => none
  | .restart => match s.state with
    | .off => if s.pendEn then some { s with state := .starting, pendEn := false } else none
    | _ => none
  | .drainBound => match s.state with
    | .draining => some { s with state := .failed, failCause := 3, pendEn := false, toRetire := false }
    | _ => none
  | .fatal => match s.state with
    | .starting => some { s with state := .failed, failCause := 2 }
    | .on => some { s with state := .failed, failCause := 2 }
    | .draining => some { s with state := .failed, failCause := 2, pendEn := false, toRetire := false }
    | _ => none
  | .threshold => match s.state with
    | .on => some { s with state := .draining, toRetire := true }
    | _ => none

/-- A register's word is a block's own runtime state, which SOFT_RESET returns to its reset value (R71). -/
def softResets (p : Page) (a : Nat) : Bool :=
  decide (p.base + 0x400 ≤ a ∧ a < p.base + 0x1000) &&
    match findReg p.kind (a - p.base) with
    | some (d, _) => !d.keep
    | none => true

/-- The part of SOFT_RESET that acts on the page's registers (R71). -/
def Fab.softResetRegs (p : Page) (f : Fab) : Fab := { f with regs := f.regs.filter fun a _ => !softResets p a }

/-- A page event: its row of Table 2.11, or left unchanged and counted by `MGMT.EVT_CTL_IGNORED` (R68). -/
def Fab.pageEv (p : Page) (e : PgEv) (f : Fab) : Fab :=
  match (f.page p).next e with
  | some st => if e = .softReset then (f.setPage p st).softResetRegs p else f.setPage p st
  | none => f.count E.MGMT_CTL_IGNORED 1

/-- A page is forced OFF by power: removal, loss of power-good (R575, R604). -/
def Fab.pageOff (p : Page) (f : Fab) : Fab :=
  f.setPage p { f.page p with state := .off, failCause := 0, retireCause := 0, pendEn := false, toRetire := false }

/-- `PG_STAT` (Table 2.10). -/
def PgState.code : PgState → Nat
  | .off => 0 | .starting => 1 | .on => 2 | .draining => 3 | .failed => 4 | .retired => 5
def PageSt.stat (s : PageSt) : Word :=
  BitVec.ofNat 32 (s.failCause * 2 ^ 12 + s.retireCause * 2 ^ 8 + boolNat s.toRetire * 16 + boolNat s.pendEn * 8 + s.state.code)
/-! ### CRC-32C -/

def crcBit (c : Nat) : Nat := if c % 2 = 1 then (c / 2) ^^^ 0x82F63B78 else c / 2
def crcByte (c b : Nat) : Nat := (List.range 8).foldl (fun x _ => crcBit x) (c ^^^ b)
/-- CRC-32C of `n` bytes. -/
def crc32c (n x : Nat) : Nat := ((toBytes n x).foldl crcByte 0xFFFFFFFF) ^^^ 0xFFFFFFFF

end Sys2Proof.Machine
end

