-- ==== Sys2Proof/Machine/Flags.lean ====
section
/-!
DEFINITION. The fault collector and its pins (chapter 18 of spec/), MSI-X messages (R707) and event records (R715): every status and
flag computation that more than one block uses.
-/
namespace Sys2Proof.Machine
open Sys2Proof

/-! ### MSI-X -/

def Fab.msixEntry (f : Fab) (v : Nat) : MsixEntry := f.ep.msix.get v {}

/-- A vector's message may leave: nothing of R707 holds it back, and the endpoint is in D0 (Table 19.4). -/
def Fab.msixOpen (f : Fab) (v : Nat) : Bool :=
  f.ep.linkUp && decide (f.ep.dstate = .d0) && f.ep.bme && !f.ep.funcMask && !(f.msixEntry v).masked
    && decide ((f.msixEntry v).addr ≠ 0)

/-- Insert in a rising list without repeats. -/
def insertSorted (n : Nat) : List Nat → List Nat
  | [] => [n]
  | m :: ms => if n < m then n :: m :: ms else if n = m then m :: ms else m :: insertSorted n ms

/-- A request of a vector (R707): the message leaves, or the vector's PBA bit is set; in D3 with PME_En a newly pending vector
sends PM_PME or asserts WAKE# (Table 19.4). -/
def Fab.msixRequest (v : Nat) (f : Fab) : Fab :=
  if f.msixOpen v then f.emit (.msix v (f.msixEntry v).addr (f.msixEntry v).data)
  else
    let fresh := !f.ep.pba.contains v && f.ep.pmeEn
    { f with
      ep := { f.ep with pba := insertSorted v f.ep.pba
                        pmeStatus := f.ep.pmeStatus || (fresh && decide (f.ep.dstate ≠ .d0))
                        wake := f.ep.wake || (f.ep.pmeEn && decide (f.ep.dstate = .d3cold)) }
      out := if fresh && decide (f.ep.dstate = .d3hot) then .pmPme :: f.out else f.out }

/-- Pending vectors whose conditions have all cleared send one message each (R707, R708). -/
def Fab.msixDrain (f : Fab) : Fab :=
  let go := f.ep.pba.filter f.msixOpen
  { f with
    ep := { f.ep with pba := f.ep.pba.filter fun v => !f.msixOpen v }
    out := (go.map fun v => Emit.msix v (f.msixEntry v).addr (f.msixEntry v).data).reverse ++ f.out }

/-! ### Sources -/

def stickyAddr (p : Page) (loc : Nat) : Nat := p.base + 0x100 + 4 * (loc / 32)
def maskAddr (p : Page) (loc : Nat) : Nat := p.base + 0x120 + 4 * (loc / 32)
def sevAddr (p : Page) (loc : Nat) : Nat := p.base + 0x140 + 4 * (loc / 16)

/-- The position is implemented (R674). -/
def Src.implemented (s : Src) : Bool := s.page.valid && (srcRow s.page.kind s.loc).isSome
/-- The position is privileged: marked, on the page of lowest instance that carries it (R686). -/
def Src.privileged (s : Src) : Bool :=
  s.page.valid && (match srcRow s.page.kind s.loc with
    | some r => r.priv
    | none => false) && (decide (s.page.inst = 0) || !(s.page.blk = .strp && s.page.inst < 4 || s.page.blk = .drvp || s.page.blk = .bayp))
def Src.defaultClass (s : Src) : Nat := match srcRow s.page.kind s.loc with
  | some r => r.cls
  | none => 0

def Fab.sticky (f : Fab) (s : Src) : Bool := decide (getBits (f.reg (stickyAddr s.page s.loc)) (s.loc % 32) 1 = 1)
def Fab.masked (f : Fab) (s : Src) : Bool := decide (getBits (f.reg (maskAddr s.page s.loc)) (s.loc % 32) 1 = 1)
/-- The programmed severity: 0 CORRECTED, 1 CONTAINED, 2 FATAL. -/
def Fab.severity (f : Fab) (s : Src) : Nat := getBits (f.reg (sevAddr s.page s.loc)) (2 * (s.loc % 16)) 2
/-- R681: pending while sticky and not masked. -/
def Fab.isPending (f : Fab) (s : Src) : Bool := f.sticky s && !f.masked s

/-- The number of fault positions on one page of each kind before a local number (Table 18.1). -/
def localIndex (t : PageType) (loc : Nat) : Nat :=
  ((srcRows t).map fun r => if r.loc + r.count ≤ loc then r.count else if r.loc ≤ loc then loc - r.loc else 0).sum

/-- The global number of a source (R674, Table 18.1). -/
def Src.global (s : Src) : Nat :=
  let i := s.page.inst
  let k := localIndex s.page.kind s.loc
  match s.page.blk with
  | .dev => 0
  | .line => if i < 16 then 8 * i + k else 128 + 2 * (i - 16) + k
  | .xprt => 256 + k
  | .gard => (if i = 0 then 264 else if i = 1 then 267 else 272) + k
  | .cmdq => 274 + k
  | .regn => 282 + k
  | .tmgr => 290 + k
  | .vat => 297 + k
  | .cell => 300 + k
  | .jrnl => 307 + k
  | .cmpr => 316 + k
  | .plce => 324 + k
  | .strp => (if i < 4 then 331 + 11 * i else 375) + k
  | .drvp => 378 + 9 * i + k
  | .bayp => 594 + 7 * i + k
  | .pair => 762 + k
  | .mgmt => (if i = 0 then 773 else if i = 1 then 778 else if i = 2 then 828 else 1020) + k

/-- Every position, in global order (R674). -/
def allSrcs : List Src :=
  allPages.flatMap fun p => (srcRows p.kind).flatMap fun r => (List.range r.count).map fun i => ⟨p, r.loc + i⟩

/-- The vector of a source: its table 1 entry with OVERRIDE, else its class vector (R682, R697). -/
def Fab.vectorOf (f : Fab) (s : Src) : Nat :=
  let e := f.tab (pgMgmt 2) false 1 s.global
  if bitAt e 15 then bitsOf e 0 11
  else match f.severity s with
    | 0 => f.get (pgMgmt 2) F.FLT_VEC1_CORRECTED_VEC
    | 1 => f.get (pgMgmt 2) F.FLT_VEC0_CONTAINED_VEC
    | _ => f.get (pgMgmt 2) F.FLT_VEC0_FATAL_VEC

/-- Sources become pending in one cycle: one message for each vector, and `MGMT.EVT_FLT_MSG` counts each (R682). -/
def Fab.faultMessages (ss : List Src) (f : Fab) : Fab :=
  ((ss.map f.vectorOf).uniq).foldl (fun g v => (g.msixRequest v).count E.MGMT_FLT_MSG 1) f

/-- The 0-to-1 transition of a sticky bit: it sets, is counted, applies the page reaction of R677, and requests its message. -/
def Fab.stickySet (s : Src) (f : Fab) : Fab :=
  let fatal := decide (f.severity s = 2) || decide (s.defaultClass = 2)
  let f1 := (f.setReg (stickyAddr s.page s.loc) (setBits (f.reg (stickyAddr s.page s.loc)) (s.loc % 32) 1 1)).count E.MGMT_FLT_CAPTURE 1
  let f2 := if fatal then f1.pageEv s.page .fatal else f1
  if f2.isPending s then f2.faultMessages [s] else f2

/-- An occurrence of a source (R676): only a 0-to-1 transition does anything in the collector. -/
def Fab.occur (s : Src) (f : Fab) : Fab :=
  if s.implemented && !f.sticky s then f.stickySet s else f

/-- `FLT_SUMn` (R681). -/
def Fab.fltSum (f : Fab) (n : Nat) : Word :=
  BitVec.ofNat 32 ((allSrcs.filter fun s => decide (s.global / 32 = n) && f.isPending s).map fun s => 2 ^ (s.global % 32)).sum
/-- `FLT_CLASS_STAT`: some pending source has the class (R681). -/
def Fab.classPending (f : Fab) (cls : Nat) : Bool := allSrcs.any fun s => f.isPending s && decide (f.severity s = cls)
/-- The pin FLT_FATAL_N is asserted (R684). -/
def Fab.pinFatal (f : Fab) : Bool := f.classPending 2
/-- The pin FLT_ALERT_N is asserted (R684). -/
def Fab.pinAlert (f : Fab) : Bool :=
  f.classPending 2 || f.classPending 1 || (f.flag (pgMgmt 2) F.FLT_PIN_CFG_ALERT_ON_CORR && f.classPending 0)

/-! ### Event records -/

def Fab.ring (f : Fab) (n : Nat) : RingSt := f.ep.rings.get n {}
def Fab.setRing (n : Nat) (r : RingSt) (f : Fab) : Fab := { f with ep := { f.ep with rings := f.ep.rings.put n {} r } }
def Fab.ringSize (f : Fab) (n : Nat) : Nat := 2 ^ f.get (pgMgmt 0) (F.EVR_CFG_SIZE_LOG2.idx n)
def Fab.ringTail (f : Fab) (n : Nat) : Nat := f.get (pgMgmt 0) (F.EVR_STAT_TAIL.idx n)
def Fab.ringHead (f : Fab) (n : Nat) : Nat := f.get (pgMgmt 0) (F.EVR_HEAD_HEAD.idx n)
/-- One entry always stays free, so that a full ring is told from an empty one (R714 says so of the mailbox ring). -/
def Fab.ringFull (f : Fab) (n : Nat) : Bool := decide ((f.ringTail n + 1) % f.ringSize n = f.ringHead n % f.ringSize n)
/-- The endpoint can post to host memory (R715). -/
def Fab.canPost (f : Fab) : Bool := f.ep.linkUp && f.ep.bme && decide (f.ep.dstate = .d0)
def Fab.ringOpen (f : Fab) (n : Nat) : Bool := f.isLive (pgMgmt 0) && f.canPost && !f.ringFull n

/-- Write one record at TAIL with the ring's SEQ and PHASE, then request the ring's vector (R715). -/
def Fab.ringWrite (n : Nat) (b : EvBody) (f : Fab) : Fab :=
  let r := f.ring n
  let size := f.ringSize n
  let rec1 : Emit := .evRecord n (f.ringTail n) r.seq ((r.seq / size + 1) % 2) b
  ((((f.emit rec1).setRing n { r with seq := (r.seq + 1) % 2 ^ 32 }).setF (pgMgmt 0) (F.EVR_STAT_TAIL.idx n)
      ((f.ringTail n + 1) % size)).count E.MGMT_EVR_RECORDS 1).msixRequest (f.get (pgMgmt 0) (F.EVR_CFG_VECTOR.idx n))

/-- Once the ring has space: one RING_LOSS record with the count, LOST cleared, then the held records (R715). -/
def Fab.ringFlush (n : Nat) (time : Nat) : Nat → Fab → Fab
  | 0, f => f
  | fuel + 1, f =>
    if !f.ringOpen n then f
    else
      let lost := f.get (pgMgmt 0) (F.EVR_STAT_LOST.idx n)
      if lost ≠ 0 then
        ringFlush n time fuel ((f.ringWrite n ⟨7, time, lost⟩).setF (pgMgmt 0) (F.EVR_STAT_LOST.idx n) 0)
      else match (f.ring n).held with
        | [] => f
        | b :: bs => ringFlush n time fuel ((f.setRing n { f.ring n with held := bs }).ringWrite n b)

/-- A record for ring n (R715): written, or held up to 64, or dropped and counted. The rings work while instance 0 is ON. -/
def Fab.ringPost (n : Nat) (b : EvBody) (f : Fab) : Fab :=
  if !f.isOn (pgMgmt 0) || !f.flag (pgMgmt 0) (F.EVR_CFG_EN.idx n) || !bitAt (f.get (pgMgmt 0) (F.EVR_CFG_TYPE_MASK.idx n)) b.type then f
  else if f.ringOpen n && (f.ring n).held.isEmpty && f.get (pgMgmt 0) (F.EVR_STAT_LOST.idx n) = 0 then f.ringWrite n b
  else if (f.ring n).held.length < 64 then f.setRing n { f.ring n with held := (f.ring n).held ++ [b] }
  else
    let g := (f.satAdd (pgMgmt 0) (F.EVR_STAT_LOST.idx n) 1).count E.MGMT_EVR_LOST 1
    if f.get (pgMgmt 0) (F.EVR_STAT_LOST.idx n) = 0 then g.occur S.MGMT_EVRING_OVF else g

/-- An event record goes to every ring that takes its TYPE (R715). -/
def Fab.postRecord (b : EvBody) (f : Fab) : Fab := (List.range 4).foldl (fun g n => g.ringPost n b) f

end Sys2Proof.Machine
end

