-- ==== Sys2Proof/Machine/TypesNet.lean ====
section
/-!
DEFINITION. The parts of the network side: LINE, XPRT, GARD, TMGR, the Vat and the cell pool (chapters 03, 04, 05, 08 and 09 of spec/).
-/
namespace Sys2Proof.Machine
open Sys2Proof

/-! ### LINE -/

/-- An Ethernet port, keyed by its lowest lane (R90): the lanes it runs on, whether it is up or coming up (training or link start-up,
R95), and whether it runs narrowed from a wider configured port (R119). -/
structure PortSt where
  lanes : List Nat := []
  up : Bool := false
  training : Bool := false
  narrowed : Bool := false
  /-- The configured port it was narrowed from. -/
  home : Nat := 0
deriving DecidableEq, Repr

/-- The device time counter and its servo (R111 to R116). `half` counts half nanoseconds of the second. -/
structure PtpSt where
  sec : Nat := 0
  half : Nat := 0
  /-- A seconds value has been written and not yet applied (R112). -/
  todPending : Bool := false
  /-- Time stamps of the last event message received and sent (R114). -/
  rxStamp : Nat := 0
  txStamp : Nat := 0
  /-- The delay request-response exchange of the slave clock (R113): a two-step Sync that waits for its Follow_Up, t2 − t1 of the last
  Sync, the sequence number of the Delay_Req that waits for its answer, the last offset measured. -/
  syncSeq : Option Nat := none
  syncDiff : Int := 0
  delaySeq : Nat := 0
  delayWait : Bool := false
  offset : Option Int := none
deriving DecidableEq, Repr

/-- A frame that LINE has to send, and may hold for a pause (R107): port, PCP, bytes, the connection whose counts it enters, what
leaves. -/
structure HeldFrame where
  port : Nat
  pcp : Option Nat
  len : Nat
  ctx : Option Nat
  /-- It is a packet of a connection (R105). -/
  conn : Bool
  out : Emit
deriving DecidableEq, Repr

structure LineSt where
  ports : SMap PortSt := {}
  /-- Frames that a pause holds, in order (R107). -/
  held : List HeldFrame := []
  /-- Lanes whose retrain has not completed, with the time at which it was counted (R124). -/
  retraining : SMap Nat := {}
  /-- Times of each lane's retrains, in half nanoseconds, newest first (R118). -/
  retrains : SMap (List Nat) := {}
  /-- Egress pauses in force: port × 8 + priority (R107). -/
  pauses : List Nat := []
  /-- XOFF sent and not yet followed by XON: port × 8 + priority (R108). -/
  xoff : List Nat := []
deriving DecidableEq, Repr

/-! ### XPRT -/

/-- Table 4.8. -/
inductive ConnState
  | free | connecting | ready | closing | timewait | error
deriving DecidableEq, Repr

/-- Work that CMDQ or REGN submits to a connection (R153). -/
inductive TxWork
  | send (slot key : Option Nat) (data : Blob)
  /-- `cells`: the units in the pool that hold the data already, a read command's. -/
  | write (va rkey : Nat) (data : Blob) (cells : Option UnitKind)
  | writeImm (va rkey imm sub : Nat) (data : Blob)
  | read (va rkey len slot : Nat)
  | readResp (psn key seen : Nat) (data : Blob)
deriving DecidableEq, Repr

/-- A READ Request of the KV24 that is not complete (R757): the PSNs of its responses, the next one expected, what it is for. -/
structure ReadOut where
  psn : Nat
  span : Nat
  nextPsn : Nat
  va : Nat
  rkey : Nat
  len : Nat
  got : Blob
  slot : Nat
  resent : Bool := false
deriving DecidableEq, Repr

/-- A message being received. `.send` gathers its bytes; `.write` follows the key check of its first packet (R184): the region write
it builds, none where it is discarded, the PSN of that packet and how many PSNs the message has. -/
inductive InMsg
  | send (psn : Nat) (dup : Bool) (colour : Colour) (data : Blob)
  | write (dup : Bool) (key : Nat) (id : Option Nat) (left : Nat) (first span : Nat)
deriving DecidableEq, Repr

/-- A SEND received whole: the PSN of its last packet, its bytes, the colour of its frame (R324). -/
structure InSend where
  psn : Nat
  colour : Colour
  data : Blob
deriving DecidableEq, Repr

/-- An ACK or NAK that waits for custody or for the standby (R377, R636): what it says, its PSN and MSN, the EPSN it covers, and how
many new packets had come when it was asked for. -/
structure Reply where
  aeth : Aeth
  psn : Nat
  msn : Nat
  epsn : Nat
  seen : Nat := 0
deriving DecidableEq, Repr

structure CtxId where
  kind : Nat := 0
  errPolicy : Bool := false
  pinned : Bool := false
  ocmVer : Nat := 0
  sealed : Bool := false
  ipv6 : Bool := false
  rcEn : Bool := false
  errCause : Nat := 0
  tport : Nat := 0
  tenant : Nat := 0
  remoteQpn : Nat := 0
  pmtu : Nat := 0
  remoteMac : Nat := 0
  egressPort : Nat := 0
  remoteIp : Nat := 0
  udpSport : Nat := 0
  qid : Nat := 0
  cntlid : Nat := 0
  hsqsize : Nat := 0
  hrqsize : Nat := 0
  /-- Agreed at establishment (R141), and the REQ's communication identifier (R133). -/
  initDepth : Nat := 0
  respRes : Nat := 0
  commId : Nat := 0
  /-- The device's X25519 public key of a sealed connection (R210), which a repeated REP carries again. -/
  devPub : Nat := 0
deriving DecidableEq, Repr

structure CtxRx where
  epsn : Nat := 0
  msn : Nat := 0
  lastAckPsn : Nat := 0
  unacked : Nat := 0
  /-- New packets accepted since the connection was opened: what an ACK covers is told from it (R145). -/
  seen : Nat := 0
  nakSent : Bool := false
  readsIn : Nat := 0
  /-- The message open on the connection, and the duplicate message being received. -/
  openMsg : Option InMsg := none
  dupMsg : Option InMsg := none
  /-- SENDs received whole that CMDQ or REGN has not taken yet. -/
  msgs : List InSend := []
  /-- Received packets not yet in custody: unit and PSN (R377). -/
  inVat : List (Nat × Nat) := []
  replies : List Reply := []
  /-- The EPSN of the last horizon record sent, and of the last confirmed (R636). -/
  horizonSent : Option Nat := none
  horizonOk : Option Nat := none
deriving DecidableEq, Repr

structure CtxTx where
  nextPsn : Nat := 0
  unaPsn : Nat := 0
  retryLeft : Nat := 0
  rnrLeft : Nat := 0
  rnrWait : Bool := false
  rate : Nat := 0
  quiet : Nat := 0
  lastDec : Nat := 0
  lastCnpTx : Nat := 0
  cnpSent : Bool := false
  decSeen : Bool := false
  work : List TxWork := []
  retained : List OutPkt := []
  reads : List ReadOut := []
  /-- Times REP or DREQ has been sent (Table 4.8). -/
  sends : Nat := 0
  /-- When RATE lets the connection send next (R155). -/
  nextSend : Nat := 0
deriving DecidableEq, Repr

structure CtxSeal where
  saltTx : Nat := 0
  saltRx : Nat := 0
  txCtr : Nat := 0
  /-- RX_CTR of R198: phase, a packet of the phase accepted, highest counter. -/
  rxPhase : Bool := false
  rxSeen : Bool := false
  rxCtr : Nat := 0
  keySlot : Bool := false
  /-- The send side waits for a slot that was late (R203). -/
  rekeyDue : Bool := false
deriving DecidableEq, Repr

structure CtxStat where
  rxPkts : Nat := 0
  txPkts : Nat := 0
  rxBytes : Nat := 0
  txBytes : Nat := 0
  retx : Nat := 0
  dups : Nat := 0
  cnpRx : Nat := 0
  missDrops : Nat := 0
deriving DecidableEq, Repr

/-- A connection context (Table 4.6). -/
structure Ctx where
  state : ConnState := .free
  incarnation : Nat := 1
  id : CtxId := {}
  rx : CtxRx := {}
  tx : CtxTx := {}
  sl : CtxSeal := {}
  st : CtxStat := {}
deriving DecidableEq, Repr

/-- Work on a context that waits for its fetch by the separate path of R171. -/
inductive CtxJob
  | ackDelay | rateRise | ackTimer | rnrTimer | send | repTimer | dreqTimer | timewait
deriving DecidableEq, Repr

/-- A packet parked in the miss queue (R166). -/
structure Parked where
  ctx : Nat
  rx : RxMeta
  pkt : Packet
deriving DecidableEq, Repr

structure XprtSt where
  /-- Contexts, by index; an unlisted one is FREE with INCARNATION 1 (R128). -/
  ctx : SMap Ctx := {}
  /-- Contexts on die, most recently used first, and those whose cached copy differs from HBM (R163, R164). -/
  cache : List Nat := []
  cacheDirty : List Nat := []
  /-- Fetches in progress. -/
  fetching : List Nat := []
  missq : List Parked := []
  /-- Timer expiries, egress work and checkpoint reads of contexts that are being fetched, in order (R171). -/
  jobs : List (Nat × CtxJob) := []
  /-- Connections whose TX_CTR has reached 2^40 with no ready slot (R204). -/
  spent : List Nat := []
  reqs : List CmReq := []
  /-- Responses and notification records that the host's transport has acknowledged and whose owner has not been told yet. -/
  ackedSlots : List Nat := []
  ackedSubs : List Nat := []
  /-- INCARNATION of a context that is not listed (R128). -/
  baseInc : Nat := 1
  /-- XPRT has entered STARTING once since power-on reset (R128). -/
  started : Bool := false
deriving DecidableEq, Repr

/-! ### GARD -/

/-- A region key entry (Table 5.1). -/
structure KeyEnt where
  base : Nat := 0
  length : Nat := 0
  region : Nat := 0
  tenant : Nat := 0
  rights : Nat := 0
  state : Nat := 0
  bindEn : Bool := false
  pin : Bool := false
  gen : Nat := 0
  bindQpn : Nat := 0
  inflight : Nat := 0
  /-- An uncorrectable error makes every check fail at the VALID step (R188). -/
  bad : Bool := false
deriving DecidableEq, Repr

/-- A change of the key table that waits for the partner (R181). -/
inductive KeyChange
  | write (index : Nat) (bytes : Nat) (window : Requester)
  | retire (index : Nat)
deriving DecidableEq, Repr

/-- One half of a key slot (Table 5.6). -/
structure SealHalf where
  key : Nat := 0
  epoch : Nat := 0
  ready : Bool := false
  fails : Nat := 0
deriving DecidableEq, Repr

structure KeySlot where
  rx : SealHalf := {}
  tx : SealHalf := {}
deriving DecidableEq, Repr

/-- An at-rest key entry (Table 5.8). -/
structure RestKey where
  k1 : Nat := 0
  k2 : Nat := 0
  volume : Nat := 0
  state : Nat := 0
  units : Nat := 0
deriving DecidableEq, Repr

/-- An authentication entry (Table 5.7). -/
structure AuthEnt where
  tenant : Nat := 0
  valid : Bool := false
  required : Bool := false
  bidir : Bool := false
  hashMask : Nat := 0
  dhMask : Nat := 0
  keyLen : Nat := 0
  hostNqn : Nat := 0
  hostKey : Nat := 0
  ctrlKey : Nat := 0
deriving DecidableEq, Repr

/-- The access that waits: a write that gathers its packets meanwhile, with where each of them stands in the pool; a read; a PLACE_FLUSH
at the front of its connection's messages. -/
inductive KeyWaitFor
  | write (id : Nat) (pkt : Packet) (dup : Bool) (units : List (RxMeta × Nat))
  | read (pkt : Packet) (dup : Bool) (seen : Nat)
  | flush
deriving DecidableEq, Repr

/-- A key check that waits for its entry from HBM (R185): its connection and PSN. -/
structure KeyWait where
  index : Nat
  ctx : Nat
  psn : Nat
  what : KeyWaitFor
deriving DecidableEq, Repr

structure GardSt where
  keys : SMap KeyEnt := {}
  keyCache : List Nat := []
  keyWaits : List KeyWait := []
  keyChange : List KeyChange := []
  keyLog : SMap Nat := {}
  slots : SMap KeySlot := {}
  secrets : SMap Nat := {}
  /-- PRK of each sealed connection, kept by firmware (R210). -/
  prk : SMap Nat := {}
  auth : SMap AuthEnt := {}
  rest : SMap RestKey := {}
deriving DecidableEq, Repr

/-! ### REGN -/

/-- A region entry (Table 7.1). -/
structure RegionEnt where
  base : Nat := 0
  size : Nat := 0
  tenant : Nat := 0
  state : Nat := 0
  writes : Nat := 0
deriving DecidableEq, Repr

/-- A subscription (Table 7.6), with the records queued and not yet acknowledged. -/
structure SubEnt where
  conn : Nat := 0
  incarnation : Nat := 0
  subTag : Nat := 0
  ringLog2 : Nat := 0
  rkey : Nat := 0
  va : Nat := 0
  nseq : Nat := 0
  dropped : Nat := 0
  /-- Records queued and not sent, and sent and not acknowledged: NSEQ, IMM and the 32 bytes. -/
  queued : List (Nat × Nat × Nat) := []
  sent : List (Nat × Nat × Nat) := []
  /-- An UNSUBSCRIBE waits for the queued records to go out (R309): its TAG. -/
  ending : Option Nat := none
  /-- The model's own name for this subscription: an acknowledgement of an earlier one in the same slot is not its own. -/
  serial : Nat := 0
deriving DecidableEq, Repr

/-- A region write that has passed the key check (R281): in arrival order in the list that holds it. -/
structure RegWrite where
  id : Nat
  ctx : Nat
  qpn : Nat
  key : Nat
  region : Nat
  /-- The R_Key and virtual address of its first packet. -/
  rkey : Nat := 0
  va : Nat := 0
  /-- Byte offset in the region space of the first byte; bytes of the message; bytes received. -/
  addr : Nat
  total : Nat
  data : Blob
  imm : Option Nat := none
  /-- The path MTU, and the packets of a duplicate message that have not come, by their place in it: their bytes are not placed again
  (R143, R144). -/
  mtu : Nat := 4096
  missing : List Nat := []
  /-- Its key check waits for the entry (R185). -/
  checking : Bool := false
  /-- Every packet has been received; the connection was lost before that (R288). -/
  whole : Bool := false
  cut : Bool := false
  dup : Bool := false
  psn : Nat := 0
  lastPsn : Nat := 0
  localAt : Option Nat := none
  mirrored : Bool := false
  /-- Mirroring is not asked of it (R281, R290). -/
  solo : Bool := false
  ue : Bool := false
deriving DecidableEq, Repr

/-- A region read that has passed the key check (R286). -/
structure RegRead where
  id : Nat
  ctx : Nat
  key : Nat
  addr : Nat
  len : Nat
  psn : Nat
  /-- New packets that had come before it (R145). -/
  seen : Nat := 0
deriving DecidableEq, Repr

/-- A PLACE_FLUSH that waits (R299): the access that its check began, the writes it covers that are not placed yet, whether a covered
write met an error or was placed alone; the status of one that is refused; the message itself while its key check waits (R185). -/
structure FlushWait where
  ctx : Nat
  key : Option Nat := none
  tag : Nat
  covers : List Nat := []
  ue : Bool := false
  solo : Bool := false
  refused : Option Nat := none
  check : Option InSend := none
deriving DecidableEq, Repr

/-- A change of the region table that waits for the partner (R277). -/
inductive RegChange
  | create (index : Nat) (bytes : Nat) (window : Requester)
  | retire (index : Nat)
  | free (index : Nat)
deriving DecidableEq, Repr

structure RegnSt where
  mem : SMap Byte := {}
  regions : SMap RegionEnt := {}
  subs : SMap SubEnt := {}
  writes : List RegWrite := []
  reads : List RegRead := []
  flushes : List FlushWait := []
  nextId : Nat := 0
  changes : List RegChange := []
  /-- A retirement that a key-table write of the region still goes before (R280). -/
  retireHeld : Option Nat := none
  /-- Regions being zeroed here, and on the partner (R278). -/
  zeroing : List Nat := []
  /-- Placed writes of a connection that met an error (1) or were placed without the partner (2), by device-side QPN × 65,536 + region:
  a later PLACE_FLUSH covers them too (R298, R299, R290). -/
  past : SMap Nat := {}
  /-- Dirty units, with the time of first dirtying (R311). -/
  dirty : SMap Nat := {}
deriving DecidableEq, Repr

/-! ### TMGR -/

/-- The buckets of one policer, in bits (R322). -/
structure Bucket where
  tc : Nat := 0
  tp : Nat := 0
deriving DecidableEq, Repr

/-- The shaping buckets of a leaf or service node (R333); a level below zero is a debt. -/
structure Shape where
  cir : Int := 0
  pir : Int := 0
deriving DecidableEq, Repr

/-- An egress packet queued at a port node (R330). -/
structure EgrWork where
  port : Nat
  leaf : Nat
  ctx : Nat
  bytes : Nat
  cells : Nat
  since : Nat
  pkt : OutPkt
  trailer : Option SealTrailer
deriving DecidableEq, Repr

/-- A command queued at a pool node (R335). -/
structure AdmWork where
  pool : Nat
  leaf : Nat
  slot : Nat
  cost : Nat
  isWrite : Bool
  since : Nat
deriving DecidableEq, Repr

/-- The scheduler state of a root: 0 to 63 port nodes, 64 to 67 pool nodes. -/
structure RootSt where
  /-- Deficits (R332), keyed by child: leaf, or 0x10000 + service node, or 0x20000 + express leaf. -/
  deficit : SMap Nat := {}
  /-- The child served last at each level. -/
  last : SMap Nat := {}
  /-- Level of the root's own rate bucket (R334). -/
  level : Int := 0
  /-- Express bytes of each of the last microseconds, newest first (R336). -/
  window : List Nat := []
deriving DecidableEq, Repr

/-- A command that its policer holds or is to colour (R326): slot, cost, input colour, already counted red, when it was
fetched. -/
structure HeldCmd where
  slot : Nat
  cost : Nat
  colour : Colour
  red : Bool := false
  since : Nat := 0
deriving DecidableEq, Repr

/-- The meter fields of one tenant (Table 8.4). -/
structure MeterAcc where
  readBytes : Nat := 0
  writeBytes : Nat := 0
  readOps : Nat := 0
  writeOps : Nat := 0
  regionBytes : Nat := 0
  expressOps : Nat := 0
  logicalMib : Nat := 0
  physicalMib : Nat := 0
  frameRed : Nat := 0
  cmdRed : Nat := 0
deriving DecidableEq, Repr

/-- The open minute (R347, R349, R351). -/
structure OpenMinute where
  isOpen : Bool := false
  minute : Nat := 0
  startSec : Nat := 0
  startHalf : Nat := 0
  freeRun : Bool := false
  stepped : Bool := false
  part : Bool := false
  takeover : Bool := false
  /-- A close is due: the milliseconds covered, and whether a time step is its cause. -/
  due : Option (Nat × Bool) := none
deriving DecidableEq, Repr

/-- One closed generation of the meter ring: the common fields and each tenant's own. -/
structure MeterGen where
  minute : Nat := 0
  flags : Nat := 0
  durationMs : Nat := 0
  accs : SMap MeterAcc := {}
deriving DecidableEq, Repr

/-- A leaf's sample entry (Table 8.2). -/
structure Sample where
  egrDepth : Nat := 0
  egrDelay : Nat := 0
  egrDepthMax : Nat := 0
  egrDelayMax : Nat := 0
  admDepth : Nat := 0
  admDelay : Nat := 0
  admDepthMax : Nat := 0
  admDelayMax : Nat := 0
deriving DecidableEq, Repr

structure TmgrSt where
  buckets : SMap Bucket := {}
  held : SMap (List HeldCmd) := {}
  egrShape : SMap Shape := {}
  admShape : SMap Shape := {}
  svcShape : SMap Shape := {}
  roots : SMap RootSt := {}
  egr : List EgrWork := []
  adm : List AdmWork := []
  /-- Background work that asks for admission, and what a pool node has admitted of it, in bytes by leaf (R338). -/
  bgWant : SMap Nat := {}
  bgGrant : SMap Nat := {}
  /-- Slots whose leaf a pool node has selected (R335). -/
  chosen : List Nat := []
  samples : SMap Sample := {}
  sampleRing : SMap Nat := {}
  samplePeriod : Nat := 0
  accs : SMap MeterAcc := {}
  minute : OpenMinute := {}
  gens : SMap MeterGen := {}
  /-- Live leaves that a swap made invalid with work queued (R339): their last entries. -/
  ghosts : SMap Nat := {}
deriving DecidableEq, Repr

/-! ### The Vat and the cell pool -/

/-- A unit waiting in a queue of the Vat (R360): the unit, how many cells are still to leave, when it came, aged (R367). -/
structure QUnit where
  unit : Nat
  left : Nat
  since : Nat
  aged : Bool := false
deriving DecidableEq, Repr

structure VatSt where
  /-- Virtual output queues, by (input × 48 + output) × 4 + class. -/
  queues : SMap (List QUnit) := {}
  /-- Grant and accept pointers, by port × 2 + (1 for the express set). -/
  grant : SMap Nat := {}
  accept : SMap Nat := {}
  maxQ : Nat := 0
  /-- What ports 40 to 47 have left of their pool access rates, into an output and out of an input, in thirds of a bit (R362). -/
  creditOut : SMap Nat := {}
  creditIn : SMap Nat := {}
  /-- Units with their cells, and their outputs, that wait at an input because VAT is not ON. -/
  held : List (Nat × List Nat) := []
deriving DecidableEq, Repr

/-- Cell metadata (Table 9.4). -/
structure CellMeta where
  alloc : Bool := false
  evictable : Bool := false
  poison : Bool := false
  last : Bool := false
  refs : Nat := 0
  owner : Nat := 0
  next : Nat := 0
deriving DecidableEq, Repr

/-- A unit in the pool: its owner, its cells still allocated in chain order, the Ethernet port and priority it came from where it is
network-origin. -/
structure UnitSt where
  owner : Nat
  cells : List Nat
  kind : UnitKind
  evictable : Bool := false
  network : Option (Nat × Nat) := none
deriving DecidableEq, Repr

/-- A request for the cells of a unit (R374), and the outputs that the unit is queued for once it has them. -/
structure AllocReq where
  port : Nat
  cls : Nat
  cells : Nat
  kind : UnitKind
  network : Option (Nat × Nat)
  evictable : Bool
  outs : List Nat
deriving DecidableEq, Repr

structure CellSt where
  cells : SMap CellMeta := {}
  units : SMap UnitSt := {}
  /-- The number the next unit takes: the model's own name for it. -/
  nextUnit : Nat := 0
  used : SMap Nat := {}
  peak : SMap Nat := {}
  pushedOut : SMap Nat := {}
  dropped : SMap Nat := {}
  /-- The bank the rotation gives the next cell to (R381). -/
  nextBank : Nat := 0
  waiters : List AllocReq := []
  log : SMap Nat := {}
  /-- The lowest SHARED_FREE since it was last read, none where nothing has lowered it since. -/
  minSeen : Option Nat := none
  /-- Errors of each bank's cells (Table 17.2): when, and whether uncorrectable, newest first. -/
  bankErrs : SMap (List (Nat × Bool)) := {}
deriving DecidableEq, Repr

end Sys2Proof.Machine
end

