-- ==== Sys2Proof/Machine/TypesCmd.lean ====
section
/-!
DEFINITION. The parts of storage command handling (chapter 06 of spec/).
-/
namespace Sys2Proof.Machine
open Sys2Proof

/-- Slot states (Table 6.4); a FREE slot is not listed. -/
inductive SlotState
  | fetched | started | committed | completed
deriving DecidableEq, Repr

/-- A completion's status fields and dword 0 (Table 6.5). -/
structure Cpl where
  sct : Nat := 0
  sc : Nat := 0
  dnr : Bool := false
  dw0 : Nat := 0
  dw1 : Nat := 0
deriving DecidableEq, Repr

/-- A capsule in staging (R242). -/
structure Capsule where
  sqe : Nat
  data : Blob
  colour : Colour
  psn : Nat
  /-- Counted by EVT_SLOT_WAIT. -/
  waited : Bool := false
deriving DecidableEq, Repr

/-- A command slot (Table 6.5), and what the model keeps of the command's own work. -/
structure Slot where
  state : SlotState := .fetched
  orphan : Bool := false
  discard : Bool := false
  aborted : Bool := false
  tenant : Nat := 0
  conn : Nat := 0
  incarnation : Nat := 0
  qid : Nat := 0
  cid : Nat := 0
  cntlid : Nat := 0
  volume : Nat := 0
  /-- The entry of its namespace in the epoch in which it took its slot: it finishes under it (R76, R265). -/
  nsEnt : Nat := 0
  sqe : Nat := 0
  fetchTime : Nat := 0
  jrnlRef : Nat := 0
  bayMask : Nat := 0
  drvOut : Nat := 0
  cpl : Cpl := {}
  bytesDone : Nat := 0
  psDelayUs : Nat := 0
  /-- Arrival order on its queue (R255), capsule PSN, response PSN, colour of the capsule's frame. -/
  order : Nat := 0
  capsulePsn : Nat := 0
  respPsn : Option Nat := none
  colour : Colour := .green
  /-- In-capsule data of an admin command (R234). -/
  capData : Blob := ⟨0, 0⟩
  /-- Host data fetched by RDMA READ, or the data to send; bytes still to come, and the reservation of cells (R376). -/
  data : Blob := ⟨0, 0⟩
  /-- The 512-byte blocks of a read that `data` holds, by bit. -/
  cover : Nat := 0
  /-- A Read's work has begun: the blocks that the journal gave, and the logical units looked up. -/
  begun : Bool := false
  jcover : Nat := 0
  looked : List Nat := []
  wanted : Nat := 0
  fetched : Bool := false
  /-- Journal records of the command that are not complete yet; the work has produced its result. -/
  recsOpen : Nat := 0
  recsMade : Bool := false
  outcome : Option Cpl := none
  /-- Held by a firmware activation (R261); its place among the commands of a hold that is over, until it has been executed (R262). -/
  fwHeld : Bool := false
  holdSeq : Option Nat := none
  /-- EVT_PS_DELAY has counted it (R263). -/
  psCounted : Bool := false
  /-- SQ head that the completion carries (R233). -/
  sqHead : Nat := 0
deriving DecidableEq, Repr

/-- What the two sides have agreed in an exchange: hash and group identifiers, transaction, the challenge and its sequence number, the
controller's DH exponent. -/
structure ChapEx where
  hash : Nat := 0
  group : Nat := 0
  tid : Nat := 0
  seq : Nat := 0
  challenge : Nat := 0
  priv : Nat := 0
deriving DecidableEq, Repr

/-- An NVMe queue, by context index (R242). -/
structure Queue where
  /-- The controller, by tenant × 65,536 + CNTLID, once a Connect has succeeded. -/
  ctrl : Option Nat := none
  qid : Nat := 0
  tenant : Nat := 0
  tport : Nat := 0
  size : Nat := 32
  staging : List Capsule := []
  sqHead : Nat := 0
  nextOrder : Nat := 0
  /-- Release from staging has stopped (R257). -/
  stopped : Bool := false
  authReq : Bool := false
  authDone : Bool := false
  /-- Progress of DH-HMAC-CHAP: 0 none, 1 negotiated, 2 challenged, 3 replied; the messages that Receive returns. -/
  authPhase : Nat := 0
  authEntry : Nat := 0
  challenge : Nat := 0
  chap : ChapEx := {}
  authOut : Blob := ⟨0, 0⟩
deriving DecidableEq, Repr

/-- An asynchronous event (R265, R266): type, information, log page. -/
structure AsyncEvt where
  type : Nat
  info : Nat
  log : Nat
deriving DecidableEq, Repr

/-- An NVMe controller (R226 to R229, R257 to R260). -/
structure Ctrl where
  tenant : Nat := 0
  cntlid : Nat := 0
  discovery : Bool := false
  hostNqn : Nat := 0
  hostId : Nat := 0
  adminConn : Nat := 0
  /-- Keep Alive Timeout in ms, 0 for none, and when the timer last restarted. -/
  kato : Nat := 0
  katoStart : Nat := 0
  cc : Nat := 0
  rdy : Bool := false
  shst : Nat := 0
  /-- Submission and completion queues granted (R229). -/
  granted : Nat := 0
  grantedCq : Nat := 0
  aerCfg : Nat := 0
  /-- A reset has begun, and its steps 5 and 6 have not (R257). -/
  resetting : Bool := false
  /-- Slots of the Asynchronous Event Requests held; events not posted yet; conditions posted and not yet cleared by a log read. -/
  aers : List Nat := []
  events : List AsyncEvt := []
  conditions : List AsyncEvt := []
  changedNs : List Nat := []
  errors : Nat := 0
deriving DecidableEq, Repr

/-- A deferred write error record (Table 6.9). -/
structure DeferredRec where
  seq : Nat
  nsid : Nat
  cause : Nat
  slba : Nat
  nlb : Nat
  time : Nat
deriving DecidableEq, Repr

structure DeferredLog where
  total : Nat := 0
  recs : List DeferredRec := []
deriving DecidableEq, Repr

structure CmdqSt where
  slots : SMap Slot := {}
  queues : SMap Queue := {}
  ctrls : SMap Ctrl := {}
  /-- Rotation among tenants below their reserve, and among queues (R243). -/
  lastTenant : Nat := 0
  lastQueue : Nat := 0
  /-- Admin slots held by a firmware activation, in arrival order. -/
  held : List Nat := []
  /-- Slots of mirrored commands that are to be executed again from FETCHED (Table 16.6). -/
  replay : List Nat := []
  deferred : SMap DeferredLog := {}
  /-- Volumes with DEFERRED_PENDING (R267). -/
  deferredPending : List Nat := []
  /-- Read results per tenant for the SMART summary: reads, writes, data units. -/
  smart : SMap (Nat × Nat × Nat × Nat) := {}
deriving DecidableEq, Repr

end Sys2Proof.Machine
end

