-- ==== Sys2Proof/Machine/TypesPair.lean ====
section
/-!
DEFINITION. The parts of the controller pair (chapter 16 of spec/).
-/
namespace Sys2Proof.Machine
open Sys2Proof

/-- A frame sent and not yet confirmed: its lane group, link sequence number, the connection or chunk that it belongs to, priority and
what it mirrors (R628, R629, R631). -/
structure SentFrame where
  group : Nat
  lseq : Nat
  key : Nat
  prio : Nat
  item : MirrorItem
deriving DecidableEq, Repr

/-- A frame that is ready and has not left yet (R628). -/
structure LinkWork where
  key : Nat
  prio : Nat
  item : MirrorItem
deriving DecidableEq, Repr

/-- A record of the partner's journal in this controller's mirror, by its offset: in which order it was opened; its commit notice has
come (Table 16.5). -/
structure MirRec where
  head : RestRec
  order : Nat
  noticed : Bool := false
deriving DecidableEq, Repr

/-- A command slot as the partner has mirrored it (Table 16.4). -/
structure MirCmd where
  sqe : Nat := 0
  conn : Nat := 0
  capsulePsn : Nat := 0
  cpl : Option Cpl := none
  respPsn : Option Nat := none
deriving DecidableEq, Repr

/-- A connection as the partner has mirrored it: bytes 0 to 191 of its last checkpoint; EPSN and MSN of its horizon; the last PSN sent. -/
structure MirCtx where
  bytes : Option Nat := none
  horizon : Option (Nat × Nat) := none
  lastPsn : Option Nat := none
deriving DecidableEq, Repr

/-- A window of the partner (R633). -/
structure PeerWin where
  valid : Bool
  kind : Nat
  rbase : Nat
  lbase : Nat
  size : Nat
deriving DecidableEq, Repr

/-- One bay power channel, beside its registers (chapter 15): the gates as this controller drives them; GATE3 still on until 10 ms after
GATE12 (R591); the damage detector armed; when it entered WAIT; the active set of its start (R596); gates sourced without ownership
(R606); DRVP takes an ENABLE at the next rise of power-good (R604). -/
structure BayPwr where
  gate12 : Bool := false
  gate3 : Bool := false
  gate3Delay : Bool := false
  armed : Bool := false
  since : Nat := 0
  ilim : Nat := 0
  plim : Nat := 0
  faultMs : Nat := 0
  retries : Nat := 0
  sourcing : Bool := false
  reEnable : Bool := false
deriving DecidableEq, Repr

/-- A live table write of management software that waits for the partner (R636): page base, table, index, entry, window. -/
structure TblWait where
  page : Page
  table : Nat
  index : Nat
  value : Nat
  window : Requester
deriving DecidableEq, Repr

/-- The stages of Table 16.5 after the fence and the claim. -/
inductive TakeStage
  | none | bays | journal | pools | announce | connections
deriving DecidableEq, Repr

/-- What the always-on island holds (R616 to R623, R648, R718): it keeps it while the core die is in reset. -/
structure IslandSt where
  /-- VAUX present and the island's reset released (R718). -/
  running : Bool := true
  /-- PAIR_OWN_OUT, PAIR_FENCE_OUT and when it was asserted, PAIR_OWN_IN, PAIR_FENCE_IN as received. -/
  ownOut : Bool := false
  fenceOut : Bool := false
  fenceOutAt : Nat := 0
  ownIn : Bool := false
  fenceIn : Bool := false
  /-- The partner's heartbeat is present. -/
  hbIn : Bool := false
  slot : Bool := false
  /-- The core die is held in reset by a fence, by POR_N, or by the thermal trip; THERMTRIP_N is asserted (R621, R723, R737). -/
  fenced : Bool := false
  inPor : Bool := true
  tripped : Bool := false
  thermTrip : Bool := false
  /-- The health records of tables 1 and 2, 64 bytes each (R648). -/
  health : Nat := 0
  partnerHealth : Nat := 0
deriving DecidableEq, Repr

structure PairSt where
  island : IslandSt := {}
  /-- Britos lanes that are up, taken out by firmware, and the times of each lane's retrains (R626, R632, R657). -/
  lanesUp : List Nat := []
  lanesOut : List Nat := []
  retrains : SMap (List Nat) := {}
  /-- Frames ready, frames sent and not yet confirmed, frames that no link acknowledgement covers (group, LSEQ); the next LSEQ of each
  lane group. -/
  waiting : List LinkWork := []
  sent : List SentFrame := []
  unacked : List (Nat × Nat) := []
  nextSeq : SMap Nat := {}
  tblWaits : List TblWait := []
  /-- The 5 ms back-off of R619 runs; a handover runs (R638); the heartbeat watchdog has expired (R620). -/
  backoff : Bool := false
  handover : Bool := false
  wdog : Bool := false
  /-- Ownership has been granted once, and the page has been ON once, since power-on reset (R615, Table 20.2). -/
  granted : Bool := false
  everOn : Bool := false
  stage : TakeStage := .none
  /-- The window set of the epoch before the current one (R634). -/
  prevWins : List PeerWin := []
  prevEpoch : Nat := 0
  /-- The partner's ROLE as its last health record gave it. -/
  partnerRole : Nat := 0
  /-- The mirror (Table 16.4): journal records by offset, command slots, connections. -/
  recs : SMap MirRec := {}
  nextOrder : Nat := 0
  cmds : SMap MirCmd := {}
  ctxs : SMap MirCtx := {}
  /-- Connections that await the host's answer to their probe: L of R642. -/
  probing : SMap Nat := {}
  /-- Writes with immediate whose notification the partner had recorded (R644): connection and PSN. -/
  notified : List (Nat × Nat) := []
  /-- Context bytes and key slots as last sent, and when (R637). -/
  sentCtx : SMap Nat := {}
  sentKeys : SMap (KeySlot × KeySlot) := {}
  ckptAt : SMap Nat := {}
  /-- Culture-check passes since power-on reset; bits of Table 16.8 failed since entry to INIT; members read under bit 6 (R647). -/
  passes : Nat := 0
  failMask : Nat := 0
  drivesOk : Nat := 0
deriving DecidableEq, Repr

end Sys2Proof.Machine
end

