-- ==== Sys2Proof/Machine/TypesPol.lean ====
section
/-!
DEFINITION. The parts of device firmware: the loops, the thermal throttle and the images (chapter 17 of spec/).
-/
namespace Sys2Proof.Machine
open Sys2Proof

/-- A background leaf's live rate and its reason (MGMT instance 1, table 2). -/
structure BgRate where
  rate : Nat := 0
  reason : Nat := 0
deriving DecidableEq, Repr

/-- A deferred retirement (MGMT instance 1, table 5). -/
structure Deferred where
  kind : Nat
  channel : Nat
  time : Nat
deriving DecidableEq, Repr

/-- Instructions of the TAP (R744). -/
inductive TapInstr
  | bypass | idcode | samplePreload | extest | clamp | highz | extestPulse | extestTrain | debug
deriving DecidableEq, Repr

/-- The TAP (R744): held in reset while TRST_N is low, as its pull-down leaves it (R736); the instruction in force. -/
structure TapSt where
  held : Bool := true
  instr : TapInstr := .idcode
deriving DecidableEq, Repr

structure PolSt where
  /-- By 4p + k. -/
  rates : SMap BgRate := {}
  /-- MULT by leaf; an unlisted leaf has 16 (R663). -/
  mults : SMap Nat := {}
  deferred : List Deferred := []
  /-- Errors of each pseudo-channel (Table 17.2): when, and whether uncorrectable, newest first. -/
  pcErrs : SMap (List (Nat × Bool)) := {}
  /-- Pseudo-channels whose lines are being moved (R659). -/
  pcMoving : List Nat := []
  /-- 100 ms periods in a row with TJ below the lowering threshold (R664). -/
  coolTicks : Nat := 0
  /-- Boot flash content, by byte address (R667); an unlisted byte reads 0xFF. -/
  flash : SMap Nat := {}
  /-- The slot an activation works on. -/
  actSlot : Nat := 0
  /-- VDD_CORE as last set, in millivolts (R722). -/
  vddCore : Nat := 720
  /-- The part is a KV24-6400-E (R666): fused at test. -/
  gradeE : Bool := false
deriving DecidableEq, Repr

end Sys2Proof.Machine
end

