-- ==== Sys2Proof/Machine/TypesStore.lean ====
section
/-!
DEFINITION. The parts of the storage back end: journal, compression, placement, pools and drive ports (chapters 10 to 14 of spec/).
-/
namespace Sys2Proof.Machine
open Sys2Proof

/-! ### JRNL -/

/-- Record states (Table 10.2); a FREE record is not listed. -/
inductive RecState
  | opened | committed | handed | placed
deriving DecidableEq, Repr

/-- A journal record (Table 10.1) with its place, its data, and what its life waits for. -/
structure JRec where
  seq : Nat := 0
  type : Nat := 1
  poison : Bool := false
  sealed : Bool := false
  solo : Bool := false
  volume : Nat := 0
  /-- LEN as the header has it. -/
  len : Nat := 0
  offset : Nat := 0
  tenant : Nat := 0
  keyIndex : Nat := 0
  slot : Option Nat := none
  data : Blob := ⟨0, 0⟩
  chunk : Nat := 0
  place : Nat := 0
  state : RecState := .opened
  /-- Committed before the last piece of its command: no index entry until that commits (R246, R397, Table 6.4). -/
  piece : Bool := false
  /-- Local copy placed; partner copy confirmed; discarded, and FREE once the partial copy is placed. -/
  localOk : Bool := false
  mirrored : Bool := false
  discard : Bool := false
  committedAt : Nat := 0
  /-- Units handed off with it, and units of it placed (Table 10.2). -/
  handedUnits : List Nat := []
  placedUnits : List Nat := []
  /-- Map changes of its units that are not durable yet: page key and change number (R480). -/
  undurable : List (Nat × Nat) := []
  /-- Slots of reads that hold a reference (R34). -/
  readers : List Nat := []
  /-- The 512-byte block of the save image that its data was sealed from (R414). -/
  imgBlock : Nat := 0
deriving DecidableEq, Repr

structure JrnlSt where
  recs : SMap JRec := {}
  /-- The number the next record takes: the model's own name for it. -/
  nextRec : Nat := 0
  seq : Nat := 0
  /-- The open chunk and the bytes used in it (R395). -/
  openChunk : Option Nat := none
  openUsed : Nat := 0
  /-- Slots already counted by EVT_DIRTY_WAIT and EVT_INDEX_WAIT; writes are held (R406). -/
  dirtyWaited : List Nat := []
  indexWaited : List Nat := []
  lastPlaced : SMap Nat := {}
  /-- POWER_FAIL is asserted; the members that the save still writes; those dropped (R419). -/
  powerFail : Bool := false
  saveMembers : List Nat := []
  saveLost : Nat := 0
  /-- The members and the PTP time at recognition (Table 10.5). -/
  saveAll : List Nat := []
  savePf : Nat := 0
  saveStart : Nat := 0
  saveBytes : Nat := 0
  saveGen : Nat := 0
  saveEnded : Bool := false
  /-- The header found at the last start-up (table 2). -/
  header : Nat := 0
  restoring : Bool := false
  restored : Bool := false
deriving DecidableEq, Repr

/-! ### CMPR -/

/-- What a unit is made for: a journal hand-off with the records it holds, or a region destage (R311). -/
inductive WFor
  | journal (recs : List Nat) | destage
deriving DecidableEq, Repr

/-- Where a unit to be written stands. -/
inductive WStage
  | merging | ready | lane (n : Nat) | rawWait (n : Nat) | stored | packed | mapOnly
deriving DecidableEq, Repr

/-- A logical unit on its way to the pool (R29, R407): its bytes, then its stored form. -/
structure WUnit where
  volume : Nat
  lun : Nat
  for_ : WFor
  stage : WStage
  data : Nat
  /-- The bytes the records cover, as a mask of 512-byte blocks (R408). -/
  cover : Nat := 0
  /-- The map entry of a change that needs no store (R409, R437). -/
  entry : Nat := 0
  stored : Blob := ⟨0, 0⟩
  raw : Bool := false
  keyIndex : Nat := 0
  /-- The format that was active when its compression started (R438); a chained cell is awaited (R445). -/
  fmt : Nat := 0
  chainWait : Bool := false
  /-- The lane that failed while it ran the unit (R454). -/
  avoid : Option Nat := none
deriving DecidableEq, Repr

/-- What a stored unit is read for: a command, a merge (R408), the Press (R496). -/
inductive RFor
  | slot (n : Nat) | merge (job : Nat) | press
deriving DecidableEq, Repr

/-- A run of a stored unit's granules on one strip, its bytes once they have come, and whether its row was unreadable. -/
structure RPart where
  start : Nat
  count : Nat
  role : Nat
  got : Option Nat := none
  bad : Bool := false
  /-- The drive returned its rows unreadable, and they are still to be rewritten (R515). -/
  media : Bool := false
deriving DecidableEq, Repr

/-- A stored unit being read and decompressed (R32, R450). -/
structure RUnit where
  volume : Nat
  lun : Nat
  entry : Nat
  pool : Nat
  for_ : RFor
  parts : List RPart
  /-- The granule ranges of the unit that are read: first granule within the unit, how many. -/
  ranges : List (Nat × Nat)
  /-- Only the granules of a part of a raw unit (R451). -/
  partial_ : Bool := false
  cls : Nat := 1
  /-- The check that failed first: REASON, the unit as read, the CRC computed (R452). -/
  failed : Option (Nat × Nat × Nat) := none
  lane : Option Nat := none
  avoid : Option Nat := none
  waited : Bool := false
  result : Option Nat := none
  /-- More is erased than the redundancy: it ends once its requests have returned. -/
  lost : Bool := false
deriving DecidableEq, Repr

structure CmprSt where
  writes : SMap WUnit := {}
  reads : SMap RUnit := {}
  nextJob : Nat := 0
  /-- Lanes in use: compress 0–39, decompress 40–59, by the job they run. -/
  lanes : SMap Nat := {}
  log : SMap Nat := {}
  /-- Times of the corrected errors and restarts of each lane (table 3), newest first. -/
  ce : SMap (List Nat) := {}
  restarts : SMap (List Nat) := {}
  testLane : Nat := 0
deriving DecidableEq, Repr

/-! ### PLCE -/

/-- A map page in the cache: dirty since when, its write-back in progress, WGEN, the highest SEQ of its changes, and how many changes it
has had. -/
structure MapPage where
  dirty : Option Nat := none
  changes : Nat := 0
  maxSeq : Nat := 0
  /-- The change number and MAX_SEQ captured when the write-back began (R480). -/
  wb : Option (Nat × Nat) := none
  wgen : Nat := 0
deriving DecidableEq, Repr

/-- A segment entry (Table 12.9); an unlisted one is FREE. -/
structure Seg where
  state : Nat := 0
  stream : Nat := 0
  reads : Nat := 0
  pad : Nat := 0
  closeS : Nat := 0
  /-- Stripes written, by bit (Table 13.10), and map changes that must be durable before it is FREE (R470). -/
  written : Nat := 0
  undurable : List (Nat × Nat) := []
deriving DecidableEq, Repr

/-- A unit packed into a stripe (Table 12.1): the job it came from, or the place a relocation read it from. -/
structure PackU where
  volume : Nat
  lun : Nat
  goff : Nat
  glen : Nat
  raw : Bool
  isSealed : Bool
  job : Option Nat
  from_ : Option (Nat × Nat)
  bytes : Nat
deriving DecidableEq, Repr

/-- A stripe: being filled, or closed and being written (R463, R510). -/
structure Stripe where
  pool : Nat
  seg : Nat
  t : Nat
  stream : Nat
  units : List PackU := []
  used : Nat := 0
  since : Nat := 0
  /-- Roles whose strip writes are outstanding; roles that failed. -/
  waiting : List Nat := []
  failed : List Nat := []
  /-- The bay that each role's strip went to. -/
  bays : List Nat := []
deriving DecidableEq, Repr

/-- A unit that waits for a segment (R467): the job, and since when. -/
structure SegWait where
  job : Nat
  pool : Nat
deriving DecidableEq, Repr

structure PlceSt where
  /-- Map entries (Table 12.3), by volume × 2^38 + logical unit; an unlisted one is UNMAPPED. -/
  map : SMap Nat := {}
  /-- Map pages in the cache, by volume × 2^29 + page; most recently used first. -/
  pages : SMap MapPage := {}
  lru : List Nat := []
  /-- Pages that have a slot in their pool's map region (R475), by page key; the next slot of each pool. -/
  slots : SMap Nat := {}
  /-- WGEN and MAX_SEQ of pages that stand in no frame (Table 12.4). -/
  trail : SMap (Nat × Nat) := {}
  /-- Copies of a page read for its miss, newest first; those before the newest were set aside (R478). -/
  copies : SMap (List Nat) := {}
  /-- The class of the work that caused a page's miss (R478). -/
  missCls : SMap Nat := {}
  /-- The at-rest key of each stored sealed unit, by map key: what `UNITS` counts (Table 5.8). -/
  unitKey : SMap Nat := {}
  fetching : List Nat := []
  segs : SMap Seg := {}
  /-- The stripe each stream fills, by pool × 2 + stream; stripes being written. -/
  open_ : SMap Stripe := {}
  writing : List Stripe := []
  waits : List SegWait := []
  /-- Relocated units whose stripes are written and whose map changes are not committed yet: pool, segment, stripe, unit (R497). -/
  relocs : List (Nat × Nat × Nat × PackU) := []
  /-- Units whose wait for an earlier hand-off has been counted, by map key (R488); pools on which the Press runs (R494). -/
  serial : List Nat := []
  pressOn : List Nat := []
  /-- The victim of the Press on each pool (R495). -/
  victims : SMap Nat := {}
  discarding : Option Nat := none
deriving DecidableEq, Repr

/-! ### STRP -/

/-- A member position (Table 13.15). -/
structure Member where
  bay : Nat
  state : Nat
  cause : Nat := 0
  start : Nat := 0
  capacity : Nat := 0
deriving DecidableEq, Repr

/-- A loss entry (Table 13.16). -/
structure LossEnt where
  first : Nat
  count : Nat
  roles : Nat
  cause : Nat
  rows : Nat
  done : Bool := false
deriving DecidableEq, Repr

/-- A pool (R501 to R547). -/
structure PoolRt where
  state : Nat := 0
  prot : Nat := 0
  d : Nat := 0
  w : Nat := 0
  m : Nat := 0
  mapGib : Nat := 0
  sliceGib : Nat := 0
  segments : Nat := 0
  members : List Member := []
  spares : List Nat := []
  labelGen : Nat := 0
  logGen : Nat := 0
  oslPos : List Nat := []
  /-- The half of each position's log slot that holds the newest copy (R540). -/
  oslHalf : SMap Nat := {}
  oslSrc : Nat := 0
  phase : Nat := 0
  busy : Bool := false
  /-- Need sets by position (R529); the rebuild cursor and the positions that took part when it entered its segment. -/
  need : SMap (List Nat) := {}
  /-- Map region slots that a REBUILDING position has still to receive (R528); the strips of the cursor's stripe are being written. -/
  mapLeft : SMap (List Nat) := {}
  rbWrote : Bool := false
  rbState : Nat := 0
  cursor : Nat := 0
  joined : List Nat := []
  loss : List LossEnt := []
  /-- Losses that found the list full and whose handling has not run (R519). -/
  unlisted : List LossEnt := []
  turnerCursor : Nat := 0
  turnerRow : Nat := 0
  turnerRun : Bool := false
  turnerPass : Nat := 0
  turnerLog : SMap Nat := {}
  turnerNext : Nat := 0
deriving DecidableEq, Repr

/-- What a drive request of the data path is for. -/
inductive DrvUse
  | unit (job part : Nat)
  | strip (pool seg t role : Nat)
  | mapRead (page : Nat)
  | mapCopy (page copy gen : Nat)
  /-- A row written again after its reconstruction (R515, R516). -/
  | repair (pool stripe role row : Nat)
  /-- A read of the Turner (1), a rebuild (2) or the copy of a map slot (3): its pool, segment, what it reads, and the part of it (R538). -/
  | bg (engine pool seg what part : Nat)
  /-- A strip of a stripe that a rebuild writes at a position (R530), or the position's copy of a map slot (R528). -/
  | rebuilt (pool : Nat) (map : Bool) (what pos : Nat)
  /-- A read whose data was pushed out of the cell pool; another has taken its place (R566): its slot, its pool and segment. -/
  | dropped (slot : Option Nat) (pool seg : Nat)
deriving DecidableEq, Repr

/-- A request to a drive (R562 to R568). -/
structure DrvReq where
  use : DrvUse
  isWrite : Bool
  cls : Nat
  offset : Nat
  bytes : Nat
  retries : Nat := 0
  waited : Bool := false
  since : Nat := 0
  /-- The bytes around a write that does not fill its 4,096-byte LBAs, once they have been read (R561). -/
  merged : Option Nat := none
  /-- The bytes that a repair writes, where the rows that they follow from have been read. -/
  data : Option Nat := none
deriving DecidableEq, Repr

/-- A background read that has returned: its bay, its request, its bytes if they could be read. -/
structure BgDone where
  bay : Nat
  req : DrvReq
  got : Option Nat
deriving DecidableEq, Repr

/-- What a rebuild is writing: its pool, whether it is the copy of a map slot, the slot or stripe, the position, the bytes. -/
structure RbWrite where
  pool : Nat
  map : Bool
  what : Nat
  pos : Nat
  data : Nat
deriving DecidableEq, Repr

structure StrpSt where
  pools : SMap PoolRt := {}
  /-- Labels as STRP last read or wrote them, by bay. -/
  labels : SMap PoolLabel := {}
  /-- Requests of STRP and PLCE that DRVP has finished, and whether they succeeded. -/
  done : List (DrvUse × Bool) := []
  /-- Background reads in progress: engine, pool, segment, what is read; their parts that have returned; what rebuilds are writing. -/
  bgReads : List (Nat × Nat × Nat × Nat) := []
  bgDone : List BgDone := []
  rebuilt : List RbWrite := []
deriving DecidableEq, Repr

/-! ### DRVP -/

/-- One bay of DRVP beyond its registers. -/
structure BaySt where
  waiting : List DrvReq := []
  out : SMap DrvReq := {}
  quar : List Nat := []
  /-- Requests failed by a drive reset, to be retried after READY (R573). -/
  held : List DrvReq := []
  nextTag : Nat := 64
  /-- Tags whose window has received the drive's data, and tags whose data waits for cells (R560). -/
  filled : SMap Nat := {}
  toRow : Nat := 0
  /-- Times of timeouts, resets and media errors in the window, newest first. -/
  toTimes : List Nat := []
  resetTimes : List Nat := []
  mediaTimes : List Nat := []
  log : SMap Nat := {}
  logNext : Nat := 0
  /-- The drive as brought up: table 2's entry, capacity, a write cache that could not be turned off, operational power states. -/
  ident : Nat := 0
  capacity : Nat := 0
  lba4k : Bool := false
  fua : Bool := false
  npss : Nat := 0
  opStates : Nat := 0
  /-- PERST# asserted; level of the reset in progress; a power-state Set Features in progress: 1 to PS_TARGET, 2 to PS0. -/
  perst : Bool := true
  resetLevel : Nat := 0
  psPending : Nat := 0
  /-- PCIe tags of the root port under quarantine (R570), and requests outstanding. -/
  rootOut : List Nat := []
  rootQuar : List Nat := []
deriving DecidableEq, Repr

structure DrvpSt where
  bays : SMap BaySt := {}
deriving DecidableEq, Repr

end Sys2Proof.Machine
end

