-- ==== Sys2Proof/Machine/State.lean ====
section
/-!
DEFINITION. The state of the device, as plain data, and the state right after power-on reset.
-/
namespace Sys2Proof.Machine
open Sys2Proof

structure State where
  fab : Fab := {}
  line : LineSt := {}
  ptp : PtpSt := {}
  xprt : XprtSt := {}
  gard : GardSt := {}
  tmgr : TmgrSt := {}
  vat : VatSt := {}
  cell : CellSt := {}
  cmdq : CmdqSt := {}
  regn : RegnSt := {}
  jrnl : JrnlSt := {}
  cmpr : CmprSt := {}
  plce : PlceSt := {}
  strp : StrpSt := {}
  drvp : DrvpSt := {}
  pair : PairSt := {}
  /-- The bay power channels, by bay. -/
  bayp : SMap BayPwr := {}
  pol : PolSt := {}
  tap : TapSt := {}
  /-- Half nanoseconds since the release of power-on reset. -/
  now : Nat := 0
  /-- How many free values have been drawn. -/
  drawn : Nat := 0
  /-- The commands that wait, first in first out. -/
  pending : List Instr := []
deriving DecidableEq, Repr

/-- Why the device could stop. -/
inductive Fault
  /-- Raised by no command of this model: the spec gives every command an effect. Safe. -/
  | none
deriving DecidableEq, Repr

/-- Why a command could be without meaning. -/
inductive Refusal
  /-- A command whose meaning is not written, by its mnemonic. Raised by Dispatch alone. Safe. -/
  | notModelled (mnemonic : String)
deriving DecidableEq, Repr

/-- The device right after reset, with no command waiting. -/
def State.reset : State := {}

end Sys2Proof.Machine
end

