-- ==== Sys2Proof/Machine/StateOps.lean ====
section
/-!
DEFINITION. The operations of the register fabric and the collector, on the whole state; the device time; free values.
-/
namespace Sys2Proof.Machine
open Sys2Proof

/-- What a command answers. -/
abbrev Result := Host.Outcome State Fault Refusal

/-- Act on the register fabric alone. -/
def State.onFab (g : Fab → Fab) (s : State) : State := { s with fab := g s.fab }

def State.get (s : State) (p : Page) (x : Fld) : Nat := s.fab.get p x
def State.flag (s : State) (p : Page) (x : Fld) : Bool := s.fab.flag p x
def State.isOn (s : State) (p : Page) : Bool := s.fab.isOn p
def State.isLive (s : State) (p : Page) : Bool := s.fab.isLive p
def State.tab (s : State) (p : Page) (table index : Nat) : Nat := s.fab.tab p false table index

def State.setF (p : Page) (x : Fld) (v : Nat) (s : State) : State := s.onFab (Fab.setF p x v)
def State.satAdd (p : Page) (x : Fld) (n : Nat) (s : State) : State := s.onFab (Fab.satAdd p x n)
def State.setTab (p : Page) (table index v : Nat) (s : State) : State := s.onFab (Fab.setTab p false table index v)
def State.count (e : Evt) (n : Nat) (s : State) : State := s.onFab (Fab.count e n)
def State.emit (e : Emit) (s : State) : State := s.onFab (Fab.emit e)
def State.occur (x : Src) (s : State) : State := s.onFab (Fab.occur x)
def State.pageEv (p : Page) (e : PgEv) (s : State) : State := s.onFab (Fab.pageEv p e)

/-- Apply an operation where a condition holds. -/
def State.when (c : Bool) (g : State → State) (s : State) : State := if c then g s else s

/-- `TBL_TIME`-form time: seconds in the upper bits, nanoseconds of the second below (R111), as one 64-bit number. -/
def State.timeStamp (s : State) : Nat := (s.ptp.sec * 2 ^ 30 + s.ptp.half / 2) % 2 ^ 64

/-- Microseconds and milliseconds since reset, by the device's own clock. -/
def State.nowUs (s : State) : Nat := s.now / 2000
def State.nowMs (s : State) : Nat := s.now / 2000000

/-- An event record of a type, stamped with the device time (Table 19.6). -/
def State.record (type payload : Nat) (s : State) : State := s.onFab (Fab.postRecord ⟨type, s.timeStamp, payload⟩)

/-- A free value is drawn. -/
def State.draw (s : State) : Nat × State := (Config.free s.drawn, { s with drawn := s.drawn + 1 })

/-- A page with the common layout (R63, R65). -/
def Page.common (p : Page) : Bool := p.valid && decide (p.blk ≠ .dev)

end Sys2Proof.Machine
end

