-- ==== Sys2Proof/Machine/LineBase.lean ====
section
/-!
DEFINITION. Port groups and Ethernet ports: the geometry of Table 3.1, live rates, tenant-port entries, and the status registers that
report them (chapter 03 of spec/).
-/
namespace Sys2Proof.Machine
open Sys2Proof

/-- The ports of a group by mode (Table 3.1): slot and lanes; the 800 GbE port stands on its lead group. -/
def modePorts : Nat → List (Nat × Nat)
  | 1 => [(0, 1), (1, 1), (2, 1), (3, 1)]
  | 2 => [(0, 2), (2, 2)]
  | 3 => [(0, 4)]
  | 4 => [(0, 8)]
  | 6 => [(0, 2), (2, 1), (3, 1)]
  | 8 => [(0, 1), (1, 1), (2, 1), (3, 1)]
  | 9 => [(0, 2), (2, 2)]
  | 10 => [(0, 4)]
  | _ => []

/-- The lane rate of a mode, in Mbit/s (Table 3.1). -/
def modeRate (mode : Nat) : Nat := if mode = 0 then 0 else if mode < 8 then 100000 else 50000

/-- `GRP_CFG.MODE` of a group, in the active or the shadow set. -/
def Fab.grpMode (f : Fab) (shadow : Bool) (g : Nat) : Nat := f.cfg shadow (pgGrp g) F.GRP_CFG_MODE

/-- The configured ports of a group: port number and its lanes. -/
def Fab.grpPorts (f : Fab) (shadow : Bool) (g : Nat) : List (Nat × List Nat) :=
  (modePorts (f.grpMode shadow g)).map fun e => (4 * g + e.1, (List.range e.2).map fun i => 4 * g + e.1 + i)

/-- Every configured port. -/
def Fab.cfgPorts (f : Fab) (shadow : Bool) : List (Nat × List Nat) := (List.range 16).flatMap (f.grpPorts shadow)

/-- The MAC address of the port at a lane (R99). -/
def Fab.portMac (f : Fab) (shadow : Bool) (port : Nat) : Nat :=
  f.cfg shadow (pgGrp (port / 4)) (F.PORT_MAC_HI_MAC_HI.idx (port % 4)) * 2 ^ 32
    + f.cfg shadow (pgGrp (port / 4)) (F.PORT_MAC_LO_MAC_LO.idx (port % 4))

def State.onLine (g : LineSt → LineSt) (s : State) : State := { s with line := g s.line }
def State.onPtp (g : PtpSt → PtpSt) (s : State) : State := { s with ptp := g s.ptp }

def State.port (s : State) (p : Nat) : Option PortSt := s.line.ports.find p
def State.setPort (p : Nat) (v : PortSt) (s : State) : State := s.onLine fun l => { l with ports := l.ports.set p v }
def State.portUp (s : State) (p : Nat) : Bool := match s.port p with
  | some v => v.up
  | none => false
/-- The live rate of a port, in Mbit/s: what LINE presents to TMGR (R119, R334). -/
def State.portRate (s : State) (p : Nat) : Nat := match s.port p with
  | some v => v.lanes.length * modeRate (s.fab.grpMode false (p / 4))
  | none => 0
/-- The port a lane belongs to. -/
def State.portOfLane (s : State) (lane : Nat) : Option Nat := s.line.ports.findKey fun _ v => v.lanes.contains lane

/-- The ports of a group run auto-negotiation and link training (R95). -/
def State.runsAn (s : State) (g : Nat) : Bool := s.flag (pgGrp g) F.GRP_CFG_AN_EN && decide (s.get (pgGrp g) F.GRP_CFG_MEDIA ≠ 2)
/-- The PHY type that a port's group selects for its lanes (Table 3.2). -/
def State.phyOf (s : State) (p : Nat) (lanes : List Nat) : Phy :=
  ⟨lanes.length, modeRate (s.fab.grpMode false (p / 4)), s.get (pgGrp (p / 4)) F.GRP_CFG_MEDIA⟩
/-- A port begins to come up: by auto-negotiation, which advertises its one PHY type, and training, or by link start-up (R95). -/
def State.beginPort (p : Nat) (v : PortSt) (s : State) : State :=
  (s.setPort p { v with up := false, training := true }).when (s.runsAn (p / 4)) (State.emit (.advertise p (s.phyOf p v.lanes)))

/-- The device time in nanoseconds. -/
def State.timeNs (s : State) : Nat := s.ptp.sec * 1000000000 + s.ptp.half / 2

/-! ### Status registers -/

def widthCode (n : Nat) : Nat := if n = 0 then 0 else if n = 1 then 1 else if n = 2 then 2 else 3

/-- `GRP_STAT` of a group from its live ports (Table 3.7). -/
def State.grpStat (s : State) (g : Nat) : Word :=
  (List.range 4).foldl (fun w i => match s.port (4 * g + i) with
    | some v =>
      let w1 := setBits w (16 + 2 * i) 2 (widthCode v.lanes.length)
      let w2 := setBits w1 (4 + i) 1 (boolNat v.narrowed)
      let w3 := setBits w2 i 1 (boolNat v.up)
      if v.lanes.length = 8 then setBits w3 8 1 1 else w3
    | none => w) 0

def State.syncGrp (g : Nat) (s : State) : State :=
  s.onFab fun f => f.setReg ((pgGrp g).base + F.GRP_STAT_LINK_UP.off) (s.grpStat g)

/-- The retrains of a lane inside the window (R118). -/
def State.retrainCount (s : State) (lane : Nat) : Nat :=
  ((s.line.retrains.get lane []).filter fun t =>
    decide (s.now - t ≤ s.get (pgLane lane) F.LANE_CFG_RETRAIN_WINDOW * 2000000000)).length

/-- `LANE_STAT` of a lane (Table 3.9): a lane of a port that is up is locked; one whose port comes up trains where training runs (R95). -/
def State.syncLane (lane : Nat) (s : State) : State :=
  let w0 := setBits 0 16 8 (s.retrainCount lane)
  let w := match s.portOfLane lane with
    | some p =>
      let v := (s.port p).getD {}
      let w1 := setBits w0 8 6 p
      let w2 := setBits w1 2 2 (if modeRate (s.fab.grpMode false (lane / 4)) = 100000 then 2 else 1)
      setBits (setBits w2 1 1 (boolNat (v.training && s.runsAn (p / 4)))) 0 1 (boolNat v.up)
    | none => w0
  s.onFab fun f => f.setReg ((pgLane lane).base + F.LANE_STAT_LOCK.off) w

/-- Bring every status register of a group and its lanes up to date. -/
def State.syncPorts (g : Nat) (s : State) : State :=
  (List.range 4).foldl (fun t i => t.syncLane (4 * g + i)) (s.syncGrp g)

/-- A frame leaves on a port of a group (Table 3.11). -/
def State.txFrame (g len : Nat) (s : State) : State := (s.count (E.LINE_TX_FRAMES.on g) 1).count (E.LINE_TX_BYTES.on g) len

/-- PFC is on for a priority of a port (R107, R109). DESIGN CHOICE (log entry 122): XOFF too is sent for the priorities of PRIO_MASK
only, although R108 names no mask. -/
def State.pfcOn (s : State) (port prio : Nat) : Bool :=
  s.flag (pgGrp (port / 4)) F.GRP_CFG_PFC_EN && bitAt (s.get (pgGrp (port / 4)) F.PFC_CFG_PRIO_MASK) prio
/-- A frame of a priority is paused on its port; an untagged frame carries no priority (R107, R109). -/
def State.paused (s : State) (port : Nat) (pcp : Option Nat) : Bool := match pcp with
  | some k => s.line.pauses.contains (port * 8 + k) && s.pfcOn port k
  | none => false

/-! ### Tenant ports (Table 3.3) -/

def tpValid (e : Nat) : Bool := bitAt e 0
def tpV4 (e : Nat) : Bool := bitAt e 1
def tpV6 (e : Nat) : Bool := bitAt e 2
def tpVlanEn (e : Nat) : Bool := bitAt e 3
def tpTenant (e : Nat) : Nat := bitsOf e 16 12
def tpVlan (e : Nat) : Nat := bitsOf e 32 12
def tpPcp (e : Nat) : Nat := bitsOf e 45 3
def tpDscp (e : Nat) : Nat := bitsOf e 48 6
def tpMask (e : Nat) : Nat := bitsOf e 64 64
def tpIp4 (e : Nat) : Nat := netAt e 16 4
def tpIp6 (e : Nat) : Nat := netAt e 32 16

/-- A tenant-port entry of the active set. -/
def Fab.tport (f : Fab) (n : Nat) : Nat := f.tab (pgGrp 0) false 1 n
/-- The valid tenant ports of a set. -/
def Fab.tports (f : Fab) (shadow : Bool) : List (Nat × Nat) :=
  ((f.tabIndices (pgGrp 0) shadow 1).map fun i => (i, f.tab (pgGrp 0) shadow 1 i)).filter fun e => tpValid e.2
/-- The VLAN identifier and PCP of a tenant port's frames (R104). -/
def tpTag (e : Nat) : Option (Nat × Nat) := if tpVlanEn e then some (tpVlan e, tpPcp e) else none
/-- The entry answers on a port with these lanes. -/
def tpCovers (e : Nat) (lanes : List Nat) : Bool := lanes.any fun l => bitAt (tpMask e) l

end Sys2Proof.Machine
end

