-- ==== Sys2Proof/Machine/CellOps.lean ====
section
/-!
DEFINITION. The cell pool: allocation, push-out, frees, and the PFC frames that follow its levels (chapter 09 of spec/, R108).
-/
namespace Sys2Proof.Machine
open Sys2Proof

def State.onCell (g : CellSt → CellSt) (s : State) : State := { s with cell := g s.cell }
def State.onVat (g : VatSt → VatSt) (s : State) : State := { s with vat := g s.vat }

def CellSt.meta (c : CellSt) (i : Nat) : CellMeta := c.cells.get i {}
def State.bankRetired (s : State) (b : Nat) : Bool := bitAt (s.get pgCell F.CELL_BANK_STAT_RETIRED) b
/-- The banks in service. -/
def State.liveBanks (s : State) : List Nat := (List.range 16).filter fun b => !s.bankRetired b
/-- `CELL_FREE.FREE` (Table 9.7). -/
def State.freeCells (s : State) : Nat :=
  32768 * s.liveBanks.length - s.cell.cells.count fun i m => m.alloc && !s.bankRetired (i / 32768)
def State.minOf (s : State) (o : Nat) : Nat := bitsOf (s.tab pgCell 1 o) 0 20
def State.usedOf (s : State) (o : Nat) : Nat := s.cell.used.get o 0
/-- S of R373. -/
def State.sharedFree (s : State) : Nat :=
  s.freeCells - ((List.range 48).map fun p => s.minOf (4 * p + 2) - s.usedOf (4 * p + 2)).sum

/-- `CELL_FREE`, `CELL_SHARED` and `CELL_MINFREE` after a change (Table 9.7). -/
def State.syncCell (s : State) : State :=
  let n := s.sharedFree
  let lowest := match s.cell.minSeen with
    | some m => min m n
    | none => n
  (((s.onCell fun c => { c with minSeen := some lowest }).setF pgCell F.CELL_FREE_FREE s.freeCells).setF pgCell
    F.CELL_SHARED_SHARED_FREE n).setF pgCell F.CELL_MINFREE_MIN lowest

/-- The lowest free cell of a bank (R380), from the allocated cells in rising order. -/
def lowestFree (b : Nat) (cells : SMap CellMeta) : Option Nat :=
  let start := 32768 * b
  let c := cells.list.foldl (fun (x : Nat) e => if e.1 = x ∧ e.2.alloc then x + 1 else x) start
  if c < start + 32768 then some c else none

/-- One cell, from the next bank in rotation that is in service and has a free cell (R381). -/
def allocCell (banks : List Nat) (next : Nat) (cells : SMap CellMeta) : Option Nat :=
  ((List.range 16).map fun i => (next + i) % 16).findSome? fun b => if banks.contains b then lowestFree b cells else none

/-- `n` cells with the metadata of R382: the cells and the new metadata. -/
def allocCells (banks : List Nat) (proto : CellMeta) : Nat → Nat → SMap CellMeta → List Nat → Option (List Nat × Nat × SMap CellMeta)
  | 0, next, cells, acc => some (acc.reverse, next, cells)
  | n + 1, next, cells, acc =>
    match allocCell banks next cells with
    | none => none
    | some c =>
      let linked := match acc with
        | [] => cells
        | p :: _ => cells.set p { cells.get p {} with next := c }
      allocCells banks proto n ((c / 32768 + 1) % 16) (linked.set c { proto with last := decide (n = 0) }) (c :: acc)

/-! ### PFC frames sent (R108) -/

/-- The network-origin cells of a port, of one priority or of all. -/
def State.netCells (s : State) (port : Nat) (prio : Option Nat) : Nat :=
  (s.cell.units.vals.map fun u => match u.network with
    | some (p, k) => if p = port ∧ (prio = none ∨ prio = some k) then u.cells.length else 0
    | none => 0).sum

def State.sendPfc (port prio quanta : Nat) (s : State) : State :=
  s.when (decide (s.get pgPair F.PAIR_STAT_ROLE ≠ 4)) fun t =>
    ((t.emit (.pfc port prio quanta)).count (E.LINE_PFC_TX.on (port / 4)) 1).txFrame (port / 4) 64

/-- XOFF when the count reaches its threshold, XON once it falls below its own (R108). -/
def State.pfcLevel (port prio : Nat) (s : State) : State :=
  let g := pgGrp (port / 4)
  let n := s.netCells port (some prio)
  let key := port * 8 + prio
  let off := s.line.xoff.contains key
  if !s.pfcOn port prio then s
  else if !off && decide (s.get g F.PFC_THR_XOFF ≤ n) then
    (s.onLine fun l => { l with xoff := insertSorted key l.xoff }).sendPfc port prio (s.get g F.PFC_CFG_QUANTA)
  else if off && decide (n < s.get g F.PFC_THR_XON) then
    (s.onLine fun l => { l with xoff := l.xoff.filter fun k => decide (k ≠ key) }).sendPfc port prio 0
  else s

def State.pfcUnit (u : UnitSt) (s : State) : State := match u.network with
  | some (p, k) => s.pfcLevel p k
  | none => s

/-! ### Queues (R360, R369) -/

def voqKey (i o c : Nat) : Nat := (i * 48 + o) * 4 + c
def voqIn (k : Nat) : Nat := k / 192
def voqOut (k : Nat) : Nat := k / 4 % 48
def voqCls (k : Nat) : Nat := k % 4
def State.voq (s : State) (k : Nat) : List QUnit := s.vat.queues.get k []
def State.setVoq (k : Nat) (q : List QUnit) (s : State) : State := s.onVat fun v => { v with queues := v.queues.put k [] q }
/-- The cells in a queue. -/
def queueCells (q : List QUnit) : Nat := (q.map QUnit.left).sum

/-- `VAT_STAT.QUEUED` and `VAT_MAXQ.MAX` after a change (Table 9.6). -/
def State.syncVat (s : State) : State :=
  let sizes := s.vat.queues.vals.map queueCells
  let m := sizes.foldl max s.vat.maxQ
  ((s.onVat fun v => { v with maxQ := m }).setF pgVat F.VAT_STAT_QUEUED sizes.sum).setF pgVat F.VAT_MAXQ_MAX m

/-- R369: one entry in the queue of each destination; each cell's REFS is the number of destinations. -/
def State.enqueueUnit (input : Nat) (outs : List Nat) (cls unit : Nat) (s : State) : State :=
  match s.cell.units.find unit with
  | none => s
  | some u =>
    let n := u.cells.length
    let s1 := s.onCell fun c => { c with
      cells := u.cells.foldl (fun m i => m.put i {} { m.get i {} with refs := outs.length }) c.cells }
    let s2 := outs.foldl (fun t o =>
      t.setVoq (voqKey input o cls) (t.voq (voqKey input o cls) ++ [⟨unit, n, s.now, false⟩])) s1
    (((s2.count (E.VAT_CELLS_IN.nth input) n).when (decide (1 < outs.length)) (State.count E.VAT_MCAST_UNITS 1))).syncVat

/-- A unit is given to its outputs, or waits at its input while VAT accepts none (Table 9.6). -/
def State.offerUnit (outs : List Nat) (unit : Nat) (s : State) : State :=
  match s.cell.units.find unit with
  | none => s
  | some u =>
    if s.isOn pgVat then s.enqueueUnit (u.owner / 4) outs (u.owner % 4) unit
    else s.onVat fun v => { v with held := v.held ++ [(unit, outs)] }
/-- The units that waited are given to their outputs. -/
def State.offerHeld (s : State) : State :=
  if s.vat.held.isEmpty ∨ !s.isOn pgVat then s
  else s.vat.held.foldl (fun t e => t.offerUnit e.2 e.1) (s.onVat fun v => { v with held := [] })
/-- The unit stands in no queue and waits at no input: every one of its cells has been granted out. -/
def State.unitLeft (s : State) (id : Nat) : Bool :=
  (s.vat.queues.all fun _ q => q.all fun e => decide (e.unit ≠ id)) && s.vat.held.all fun e => decide (e.1 ≠ id)

/-! ### Allocation (R374) -/

/-- Take the cells of a unit: the unit's number, none where not enough cells are free. -/
def State.takeCells (r : AllocReq) (s : State) : Option (Nat × State) :=
  let o := 4 * r.port + r.cls
  let proto : CellMeta := { alloc := true, evictable := r.evictable, refs := 1, owner := o }
  match allocCells s.liveBanks proto r.cells s.cell.nextBank s.cell.cells [] with
  | none => none
  | some (cells, next, metas) =>
    let u : UnitSt := ⟨o, cells, r.kind, r.evictable, r.network⟩
    let used := s.usedOf o + r.cells
    let s1 := s.onCell fun c => { c with
      cells := metas
      units := c.units.set c.nextUnit u
      nextUnit := c.nextUnit + 1
      used := c.used.put o 0 used
      peak := c.peak.put o 0 (max used (c.peak.get o 0))
      nextBank := next }
    some (s.cell.nextUnit, ((s1.count E.CELL_ALLOC r.cells).syncCell).pfcUnit u)

/-- Steps 1 to 3 of R374: the unit may take its cells now. -/
def State.mayTake (s : State) (r : AllocReq) : Bool :=
  let o := 4 * r.port + r.cls
  let used := s.usedOf o
  let mn := s.minOf o
  let sh := s.sharedFree
  let alpha := match r.cls with
    | 0 => s.get pgCell F.CELL_DT_ALPHA_C0
    | 1 => s.get pgCell F.CELL_DT_ALPHA_C1
    | 2 => s.get pgCell F.CELL_DT_ALPHA_C2
    | _ => s.get pgCell F.CELL_DT_ALPHA_C3
  (decide (r.cls = 2) && decide (used + r.cells ≤ mn)) || (decide (used < mn) && decide (r.cells ≤ sh))
    || (decide ((used - mn) * 8 < alpha * sh) && decide (r.cells ≤ sh))

/-- Free every cell of a unit outright, its entries leaving every queue (R363, R379). -/
def State.dropUnit (id : Nat) (s : State) : State :=
  match s.cell.units.find id with
  | none => s
  | some u =>
    let clear := fun (m : SMap CellMeta) (i : Nat) =>
      let x := m.get i {}
      m.put i {} { x with alloc := false, refs := 0, owner := if s.bankRetired (i / 32768) then 0xFF else x.owner }
    let s1 := s.onCell fun c => { c with
      cells := u.cells.foldl clear c.cells
      units := c.units.erase id
      used := c.used.put u.owner 0 (c.used.get u.owner 0 - u.cells.length) }
    let s2 := s1.onVat fun v => { v with
      queues := ⟨(v.queues.mapVals fun _ q => q.filter fun e => decide (e.unit ≠ id)).list.filter fun e => decide (e.2 ≠ [])⟩
      held := v.held.filter fun e => decide (e.1 ≠ id) }
    ((s2.count E.CELL_FREE u.cells.length).syncCell).pfcUnit u

/-- Evictable cells of a queue (R378). -/
def State.evictableIn (s : State) (q : List QUnit) : Nat :=
  (q.map fun e => match s.cell.units.find e.unit with
    | some u => if u.evictable then u.cells.length else 0
    | none => 0).sum

/-- The unit at a queue's tail may be evicted: it is evictable, it is whole, and none of its cells has been granted. -/
def State.tailCandidate (s : State) (q : List QUnit) : Option Nat :=
  match q.getLast? with
  | none => none
  | some e => match s.cell.units.find e.unit with
    | some u => if u.evictable && decide (e.left = u.cells.length) then some e.unit else none
    | none => none

/-- The victim of one push-out for a frame of a class (R378): of the queues of lower classes whose tail may go, the one with the most
evictable cells; of equals, the first. -/
def State.victim (s : State) (cls : Nat) : Option Nat :=
  let qs := s.vat.queues.list.filterMap fun e =>
    if e.1 % 4 < cls ∧ e.1 % 4 ≠ 2 then (match s.tailCandidate e.2 with
      | some u => some (s.evictableIn e.2, u)
      | none => none) else none
  match qs with
  | [] => none
  | q :: rest => some (rest.foldl (fun best x => if best.1 < x.1 then x else best) q).2

/-- Evict one unit (R379): its cells are freed and counted; what its loss means is its kind's. -/
def State.evictUnit (id : Nat) (s : State) : Option UnitKind × State :=
  match s.cell.units.find id with
  | none => (none, s)
  | some u =>
    let s1 := (s.dropUnit id).onCell fun c => { c with
      pushedOut := c.pushedOut.put u.owner 0 ((c.pushedOut.get u.owner 0 + u.cells.length) % 2 ^ 32) }
    (some u.kind, ((s1.count E.CELL_PUSHOUT_UNITS 1).count E.CELL_PUSHOUT_CELLS u.cells.length).occur S.CELL_PUSHOUT)

/-- Step 4 of R374: push-out until the frame fits under step 2 or no candidate remains; the kinds evicted. -/
def State.pushOut (r : AllocReq) : Nat → List UnitKind → State → List UnitKind × State
  | 0, acc, s => (acc.reverse, s)
  | fuel + 1, acc, s =>
    if r.cells ≤ s.sharedFree then (acc.reverse, s)
    else match s.victim r.cls with
      | none => (acc.reverse, s)
      | some id =>
        let e := s.evictUnit id
        State.pushOut r fuel (match e.1 with
          | some k => k :: acc
          | none => acc) e.2

/-- A frame that cannot be given cells (R374 step 5). -/
def State.netDrop (o : Nat) (s : State) : State :=
  ((s.onCell fun c => { c with dropped := c.dropped.put o 0 ((c.dropped.get o 0 + 1) % 2 ^ 32) }).count E.CELL_NET_DROP 1).occur
    S.CELL_NET_DROP

/-- What a request for cells came to. -/
structure AllocOut where
  unit : Option Nat
  evicted : List UnitKind
  after : State

/-- R374, for a request made or retried. -/
def State.allocRequest (r : AllocReq) (retry : Bool) (s : State) : AllocOut :=
  let o := 4 * r.port + r.cls
  let grant := fun (ev : List UnitKind) (t : State) => match t.takeCells r with
    | some (id, t') => (⟨some id, ev, t'.when (!r.outs.isEmpty) (State.offerUnit r.outs id)⟩ : AllocOut)
    | none => ⟨none, ev, t⟩
  let wait := fun (ev : List UnitKind) (t : State) =>
    if r.network.isSome then (⟨none, ev, t.netDrop o⟩ : AllocOut)
    else if retry then ⟨none, ev, t⟩
    else ⟨none, ev, (t.onCell fun c => { c with waiters := c.waiters ++ [r] }).count E.CELL_ALLOC_WAIT 1⟩
  if !s.isOn pgCell then wait [] s
  else if s.mayTake r && (s.takeCells r).isSome then grant [] s
  else if r.network.isSome && decide (r.cls = 3 ∨ r.cls = 1) && decide (s.usedOf o < s.minOf o) then
    let p := s.pushOut r (s.cell.units.size + 1) []
    if r.cells ≤ p.2.sharedFree && (p.2.takeCells r).isSome then grant p.1 p.2 else wait p.1 p.2
  else wait [] s

/-! ### Frees (R383, R384) -/

/-- A rejected free (R384, Table 9.5). -/
def State.badFree (ptr owner stored port reason : Nat) (s : State) : State :=
  let n := s.get pgCell F.CELL_LOG_STAT_NEXT
  let rec1 := s.timeStamp + ptr % 2 ^ 32 * 2 ^ 64 + owner % 256 * 2 ^ 96 + stored % 256 * 2 ^ 104 + port % 256 * 2 ^ 112 + reason * 2 ^ 120
  let wrapped := (s.cell.log.find n).isSome || s.flag pgCell F.CELL_LOG_STAT_WRAPPED
  ((((s.onCell fun c => { c with log := c.log.set n rec1 }).setF pgCell F.CELL_LOG_STAT_NEXT ((n + 1) % 64)).setF pgCell
    F.CELL_LOG_STAT_WRAPPED (boolNat wrapped)).count E.CELL_BAD_FREE 1).occur S.CELL_BAD_FREE

/-- The unit that a cell belongs to. -/
def State.unitOf (s : State) (c : Nat) : Option Nat := s.cell.units.findKey fun _ u => u.cells.contains c

/-- The unit whose first cell is c. -/
def State.unitAt (s : State) (c : Nat) : Option Nat := s.cell.units.findKey fun _ u => decide (u.cells.head? = some c)

/-- The last reference to a cell goes (R383). -/
def State.releaseCell (c owner : Nat) (m : CellMeta) (s : State) : State :=
  let id := s.unitOf c
  let m' := { m with alloc := false, refs := 0, owner := if s.bankRetired (c / 32768) then 0xFF else m.owner }
  let s1 := s.onCell fun x => { x with
    cells := x.cells.put c {} m'
    used := x.used.put owner 0 (x.used.get owner 0 - 1)
    units := match id with
      | some i => (match x.units.find i with
        | some u => if u.cells = [c] then x.units.erase i else x.units.set i { u with cells := u.cells.filter fun k => decide (k ≠ c) }
        | none => x.units)
      | none => x.units }
  let s2 := (s1.count E.CELL_FREE 1).syncCell
  match id with
  | some i => (match s.cell.units.find i with
    | some u => s2.pfcUnit u
    | none => s2)
  | none => s2

/-- The procedure of R383; a cell whose REFS is 0 already is NOT_ALLOC (R389). -/
def State.freeCell (ptr owner port : Nat) (s : State) : State :=
  if 2 ^ 27 ≤ ptr then s.badFree ptr owner 0 port 1
  else if ptr % 256 ≠ 0 then s.badFree ptr owner 0 port 2
  else
    let c := ptr / 256
    let m := s.cell.meta c
    if !m.alloc || decide (m.refs = 0) then s.badFree ptr owner m.owner port 3
    else if m.owner ≠ owner then s.badFree ptr owner m.owner port 4
    else if 1 < m.refs then s.onCell fun x => { x with cells := x.cells.set c { m with refs := m.refs - 1 } }
    else s.releaseCell c owner m

/-- A unit is no longer evictable: in custody, or its command has committed (R377, R391). -/
def State.pinUnit (id : Nat) (s : State) : State :=
  match s.cell.units.find id with
  | none => s
  | some u => s.onCell fun c => { c with
      units := c.units.set id { u with evictable := false }
      cells := u.cells.foldl (fun m i => m.put i {} { m.get i {} with evictable := false }) c.cells }

/-- The units of a kind. -/
def State.unitsWhere (s : State) (p : UnitKind → Bool) : List Nat := (s.cell.units.filter fun _ u => p u.kind).keys

/-! ### Units on their way -/

/-- A unit of some kind still waits for its cells or stands in a queue: it has not reached the block that it goes to. -/
def State.inVat (s : State) (p : UnitKind → Bool) : Bool :=
  s.cell.waiters.any (fun r => p r.kind) || s.cell.units.any fun i u => p u.kind && !s.unitLeft i
/-- The same, of the way to one output (R370). -/
def State.toOutput (s : State) (o : Nat) (p : UnitKind → Bool) : Bool :=
  let is := fun (u : Nat) => match s.cell.units.find u with
    | some x => p x.kind
    | none => false
  s.cell.waiters.any (fun r => r.outs.contains o && p r.kind) || s.vat.held.any (fun e => e.2.contains o && is e.1)
    || s.vat.queues.any fun k q => decide (voqOut k = o) && q.any fun e => is e.unit
/-- One of several copies of some units has been consumed: each cell gives back a reference (R371). -/
def State.unrefKind (p : UnitKind → Bool) (s : State) : State :=
  let cells := (s.cell.units.vals.filter fun u => p u.kind).flatMap UnitSt.cells
  s.onCell fun c => { c with cells := cells.foldl (fun m i =>
    let x := m.get i {}
    if 1 < x.refs then m.put i {} { x with refs := x.refs - 1 } else m) c.cells }
/-- A cell of a unit of some kind has reached an output. -/
def State.someAt (s : State) (o : Nat) (p : UnitKind → Bool) : Bool :=
  s.cell.units.any fun i u => p u.kind && (s.vat.held.all fun e => decide (e.1 ≠ i)) && s.vat.queues.all fun k q =>
    decide (voqOut k ≠ o) || q.all fun e => decide (e.unit ≠ i ∨ e.left < u.cells.length)
/-- Every cell of the units of a kind is given back, and no request for one waits. -/
def State.dropKind (p : UnitKind → Bool) (s : State) : State :=
  (s.unitsWhere p).foldl (fun t u => t.dropUnit u) (s.onCell fun c => { c with waiters := c.waiters.filter fun r => !p r.kind })
/-- The cells of the units of a kind. -/
def State.cellsOf (s : State) (k : UnitKind) : Nat := ((s.cell.units.vals.filter fun u => decide (u.kind = k)).map fun u => u.cells.length).sum

def cellsFor (bytes : Nat) : Nat := (bytes + 255) / 256
/-- A transfer of many cells is cut into units of at most 66 (R359). -/
def unitSizes (n : Nat) : List Nat := List.replicate (n / 66) 66 ++ (if n % 66 = 0 then [] else [n % 66])

/-- A transfer written at an input for outputs: its kind, class, bytes, and whether it may be pushed out (Table 9.1). -/
structure Hop where
  kind : UnitKind
  port : Nat
  cls : Nat
  bytes : Nat
  outs : List Nat
  evictable : Bool := false

/-- The cells that a transfer does not have yet are asked of CELL; each unit is queued as it is granted (R369, R375). -/
def State.ship (h : Hop) (s : State) : State :=
  let waiting := ((s.cell.waiters.filter fun r => decide (r.kind = h.kind)).map AllocReq.cells).sum
  (unitSizes (cellsFor h.bytes - s.cellsOf h.kind - waiting)).foldl (fun t n =>
    (t.allocRequest ⟨h.port, h.cls, n, h.kind, none, h.evictable, h.outs⟩ false).after) s
/-- A transfer is asked for: whether it has all its cells. -/
def State.hasCells (h : Hop) (s : State) : Bool × State := let t := s.ship h; (decide (cellsFor h.bytes ≤ t.cellsOf h.kind), t)
/-- A transfer is asked for: whether it has crossed whole. -/
def State.crossed (h : Hop) (s : State) : Bool × State :=
  let r := s.hasCells h
  (r.1 && !r.2.inVat fun k => decide (k = h.kind), r.2)

/-- The units of a kind, their data whole, are given to their outputs. -/
def State.offerKind (k : UnitKind) (outs : List Nat) (s : State) : State :=
  (s.unitsWhere fun x => decide (x = k)).foldl (fun t u => t.offerUnit outs u) s

/-- Some cells of a unit become a unit of another kind (R376): its number. -/
def State.splitUnit (id n : Nat) (k : UnitKind) (s : State) : Option (Nat × State) :=
  match s.cell.units.find id with
  | none => none
  | some u =>
    if u.cells.length ≤ n ∨ n = 0 then some (id, s.onCell fun c => { c with units := c.units.set id { u with kind := k } })
    else
      let mine := u.cells.take n
      let metas := match mine.getLast? with
        | some l => s.cell.cells.set l { s.cell.cells.get l {} with last := true }
        | none => s.cell.cells
      some (s.cell.nextUnit, s.onCell fun c => { c with
        cells := metas
        units := (c.units.set id { u with cells := u.cells.drop n }).set c.nextUnit { u with cells := mine, kind := k }
        nextUnit := c.nextUnit + 1 })

/-- Cell metadata (Table 9.4). -/
def CellMeta.entry (m : CellMeta) : Nat :=
  boolNat m.alloc + 2 * boolNat m.evictable + 4 * boolNat m.poison + 8 * boolNat m.last + 16 * m.refs + m.owner * 2 ^ 8 + m.next * 2 ^ 16

end Sys2Proof.Machine
end

