-- ==== Sys2Proof/Machine/DrvOps.lean ====
section
/-!
DEFINITION. Drive ports: requests, tags, queues, and what is recorded of them (chapter 14 of spec/).
-/
namespace Sys2Proof.Machine
open Sys2Proof

def State.onDrvp (g : DrvpSt → DrvpSt) (s : State) : State := { s with drvp := g s.drvp }
def State.onStrp (g : StrpSt → StrpSt) (s : State) : State := { s with strp := g s.strp }
def State.onJrnl (g : JrnlSt → JrnlSt) (s : State) : State := { s with jrnl := g s.jrnl }
def State.onCmpr (g : CmprSt → CmprSt) (s : State) : State := { s with cmpr := g s.cmpr }
def State.onPlce (g : PlceSt → PlceSt) (s : State) : State := { s with plce := g s.plce }

def State.bay (s : State) (b : Nat) : BaySt := s.drvp.bays.get b {}
def State.setBay (b : Nat) (v : BaySt) (s : State) : State := s.onDrvp fun d => { d with bays := d.bays.put b {} v }
def State.onBay (b : Nat) (g : BaySt → BaySt) (s : State) : State := s.setBay b (g (s.bay b))

/-- The bay serves I/O: its page is ON and its drive READY (R556). -/
def State.bayReady (s : State) (b : Nat) : Bool := s.isOn (pgDrvp b) && s.flag (pgDrvp b) F.BAY_STAT_READY
/-- Write ownership (R38, R565). -/
def State.owned (s : State) : Bool := s.flag pgPair F.PAIR_STAT_OWN

/-- `BAY_OUT` after a change. -/
def State.syncBay (b : Nat) (s : State) : State :=
  (s.setF (pgDrvp b) F.BAY_OUT_OUTSTANDING (s.bay b).out.size).setF (pgDrvp b) F.BAY_OUT_QUAR (s.bay b).quar.length

/-- One record of the bay's error ring (Table 14.6). -/
def State.drvRecord (b type detail tag hdr : Nat) (s : State) : State :=
  let r := s.timeStamp + type * 2 ^ 64 + detail * 2 ^ 72 + tag * 2 ^ 80 + hdr % 2 ^ 128 * 2 ^ 128
  s.onBay b fun v => { v with log := v.log.set v.logNext r, logNext := (v.logNext + 1) % 32 }

/-- A record of a packet that the root port has turned away or missed, types 2 and 3. The header log of such a packet is left free (log
entry 6). -/
def State.drvPacket (b type tag : Nat) (s : State) : State := s.draw.2.drvRecord b type 0 tag s.draw.1

/-- `BAY_ERRCNT`: the counts inside ERR_WINDOW_S, each saturating (Table 14.7). -/
def State.syncErrs (b : Nat) (s : State) : State :=
  let v := s.bay b
  let w := s.get (pgDrvp b) F.DRV_ERR_ERR_WINDOW_S * 2000000000
  let n := fun (l : List Nat) => min 255 (l.filter fun t => decide (s.now - t ≤ w)).length
  ((s.setF (pgDrvp b) F.BAY_ERRCNT_TO (n v.toTimes)).setF (pgDrvp b) F.BAY_ERRCNT_RESETS (n v.resetTimes)).setF (pgDrvp b)
    F.BAY_ERRCNT_MEDIA (n v.mediaTimes)

/-- A request joins a bay's waiting requests (R563). -/
def State.drvSubmit (b : Nat) (r : DrvReq) (s : State) : State := s.onBay b fun v => { v with waiting := v.waiting ++ [{ r with since := s.now }] }

/-! ### Cells of writes (Table 9.1) -/

/-- A unit carries the data of a write. -/
def DrvUse.carried (u : DrvUse) (k : UnitKind) : Bool := match u, k with
  | .strip p g t _, .strip p' g' t' _ => decide (p = p' ∧ g = g' ∧ t = t')
  | .mapCopy x i g, .mapCopy x' i' g' => decide (x = x' ∧ i = i' ∧ g = g')
  | .repair p t r n, .repairRow p' t' r' n' => decide (p = p' ∧ t = t' ∧ r = r' ∧ n = n')
  | .rebuilt p m w i, .rebuilt p' m' w' i' => decide (p = p' ∧ m = m' ∧ w = w' ∧ i = i')
  | _, _ => false
/-- A map page or a row for a bay, whose data crosses from port 43 (Table 1.3). -/
def State.drvWrite (b : Nat) (k : UnitKind) (r : DrvReq) (s : State) : State :=
  (s.ship { kind := k, port := 43, cls := r.cls, bytes := r.bytes, outs := [16 + b] }).drvSubmit b r
/-- A request's data, where it is a write, has reached the drive port. -/
def State.dataHere (s : State) (b : Nat) (r : DrvReq) : Bool := !r.isWrite || !s.toOutput (16 + b) r.use.carried
/-- The cells of a write that is over are given back. -/
def State.dropWrite (u : DrvUse) (s : State) : State := match u with
  | .strip _ _ _ _ => s
  | _ => s.dropKind u.carried

/-! ### Tags (R562 to R564) -/

/-- The free tags of a kind, standard tags from the queue whose turn it is. -/
def State.freeTag (s : State) (b : Nat) (express : Bool) : Option Nat :=
  let v := s.bay b
  let free := fun (t : Nat) => (v.out.find t).isNone && !v.quar.contains t
  let q := s.get (pgDrvp b) F.BAY_LIMIT_IOQ
  if express then (List.range 64).find? free
  else
    let first := v.nextTag / 64
    ((List.range (q - 1)).map fun i => 1 + (first - 1 + i) % (q - 1)).findSome? fun k =>
      ((List.range 64).map fun i => 64 * k + i).find? free
def State.freeStandard (s : State) (b : Nat) : Nat :=
  let v := s.bay b
  64 * (s.get (pgDrvp b) F.BAY_LIMIT_IOQ - 1) - (v.out.count fun t _ => decide (64 ≤ t)) - (v.quar.filter fun t => decide (64 ≤ t)).length
def State.bgTags (s : State) (b : Nat) : Nat := (s.bay b).out.count fun _ r => decide (r.cls = 0)

/-- The class order of R564 among standard requests. -/
def classRank : Nat → Nat
  | 2 => 0 | 1 => 1 | _ => 2

/-- A standard request of a class may take a tag now (R564). -/
def State.mayTag (s : State) (b : Nat) (r : DrvReq) : Bool :=
  let p := pgDrvp b
  let bgWaits := (s.bay b).waiting.any fun x => decide (x.cls = 0)
  if r.cls = 3 then (s.freeTag b true).isSome
  else if r.cls = 0 then (s.freeTag b false).isSome && decide (s.bgTags b < s.get p F.DRV_QOS_BG_MAX)
  else (s.freeTag b false).isSome && (!bgWaits || decide (s.get p F.DRV_QOS_BG_MIN < s.freeStandard b))

/-- The request that goes next: express requests on their own queue, then C2, C1 and C0, each in arrival order. -/
def State.nextRequest (s : State) (b : Nat) : Option DrvReq :=
  let ready := (s.bay b).waiting.filter fun r => s.mayTag b r && s.dataHere b r
  let of := fun (c : Nat) => ready.find? fun r => decide (r.cls = c)
  (of 3).orElse fun _ => (of 2).orElse fun _ => (of 1).orElse fun _ => of 0

/-- Remove the first request equal to r. -/
def dropReq (r : DrvReq) : List DrvReq → List DrvReq
  | [] => []
  | x :: xs => if x = r then xs else x :: dropReq r xs

/-- The whole LBAs that a request covers: the bytes before it in the first, and their length (R561). -/
def BaySt.wide (v : BaySt) (r : DrvReq) : Nat × Nat :=
  let lead := if v.lba4k then r.offset % 4096 else 0
  (lead, if v.lba4k then (lead + r.bytes + 4095) / 4096 * 4096 else r.bytes)
/-- A write that does not fill its LBAs, and whose neighbours have not been read, begins as a read of them (R561). -/
def BaySt.toMerge (v : BaySt) (r : DrvReq) : Bool := r.isWrite && r.merged.isNone && decide (v.wide r ≠ (0, r.bytes))
/-- The doorbell rings: the request takes its tag (R559, R563), for whole LBAs (R561). -/
def State.ring (b tag : Nat) (r0 : DrvReq) (s : State) : State :=
  let v := s.bay b
  let r := if v.toMerge r0 then { r0 with isWrite := false } else r0
  let w := v.wide r
  let fua := r.isWrite && v.fua
  let s1 := s.setBay b { v with waiting := dropReq r0 v.waiting, out := v.out.set tag r
                                nextTag := if r.cls = 3 then v.nextTag else (tag / 64 + 1) * 64 }
  let s2 := ((s1.emit (.driveIo b tag r.isWrite (r.offset - w.1) w.2 fua)).when fua (State.count (E.DRVP_FUA_FORCED.on b) 1)).when
    (r.isWrite && r.merged.isSome) (State.count (E.DRVP_RMW.on b) 1)
  (if r.isWrite then (s2.count (E.DRVP_WRITES.on b) 1).count (E.DRVP_WRITE_BYTES.on b) r.bytes
    else (s2.count (E.DRVP_READS.on b) 1).count (E.DRVP_READ_BYTES.on b) r.bytes).syncBay b

/-- A request is over: its tag is free. -/
def State.untag (b tag : Nat) (s : State) : State :=
  (s.onBay b fun v => { v with out := v.out.erase tag, filled := v.filled.erase tag }).syncBay b

end Sys2Proof.Machine
end

