-- ==== Sys2Proof/Machine/CoreReset.lean ====
section
/-!
DEFINITION. The reset of everything but the always-on island (R607, R621, R723, R737), and the pins that the island drives.
-/
namespace Sys2Proof.Machine
open Sys2Proof

def State.onIsland (g : IslandSt → IslandSt) (s : State) : State := { s with pair := { s.pair with island := g s.pair.island } }

/-- `PAIR_STAT`'s view of the pins (Table 16.10). -/
def State.syncPins (s : State) : State :=
  let i := s.pair.island
  ((((s.setF pgPair F.PAIR_STAT_OWN_IN (boolNat i.ownIn)).setF pgPair F.PAIR_STAT_FENCE_IN (boolNat i.fenceIn)).setF pgPair
    F.PAIR_STAT_FENCE_OUT (boolNat i.fenceOut)).setF pgPair F.PAIR_STAT_HB_OK (boolNat i.hbIn)).setF pgPair F.PAIR_STAT_SLOT (boolNat i.slot)

/-- PAIR_OWN_OUT and PAIR_FENCE_OUT change. -/
def State.setOwnOut (on : Bool) (s : State) : State :=
  if s.pair.island.ownOut = on then s else (s.onIsland fun i => { i with ownOut := on }).emit (.pinOwn on)
def State.setFenceOut (on : Bool) (s : State) : State :=
  if s.pair.island.fenceOut = on then s
  else ((s.onIsland fun i => { i with fenceOut := on, fenceOutAt := if on then s.now else i.fenceOutAt }).emit (.pinFence on)).syncPins

/-- Registers that only power-on reset returns to their reset values: everything but live status, runtime controls and the windows, and these
too on instances 0 and 2 of MGMT (R71, R678, R689, R709). -/
def heldReg (a : Nat) : Bool :=
  let off := a % 0x10000
  decide (a < 0x10000) || decide (a / 0x10000 = 0x1000 ∨ a / 0x10000 = 0x1002) || !(decide (0x400 ≤ off ∧ off < 0x1000) || decide (0x8000 ≤ off ∧ off < 0x9000))
/-- The register fabric after power-on reset, or, with `keep`, after a reset of the core die alone. -/
def Fab.coreReset (keep : Bool) (f : Fab) : Fab :=
  if keep then
    ({ f with
      regs := f.regs.filter fun a _ => heldReg a
      pages := ⟨(f.pages.list.map fun e => (e.1, { lastEpoch := e.2.lastEpoch, shdDirty := e.2.shdDirty })).filter fun e => decide (e.2 ≠ {})⟩
      wins := {}, swap := {} } : Fab).setF pgDev F.SWAP_STAT_BUSY 0
  else { out := f.out }

/-- The core die is reset. The island, the device's own clock, the TAP, the boot flash and the fuses stay; every bay that was good goes on being
sourced as R606 says; where the datapath alone is reset, so do the sets, the collector, the counters and the endpoint. -/
def State.coreReset (keep : Bool) (s : State) : State :=
  let good := (List.range 24).filter fun b => decide (s.get (pgBayp b) F.BAY_PWR_STAT_CH = 5)
  let t : State := {
    fab := s.fab.coreReset keep
    pair := { island := s.pair.island }
    pol := { flash := s.pol.flash, gradeE := s.pol.gradeE }
    tap := s.tap
    now := s.now
    drawn := s.drawn
    pending := s.pending }
  (good.foldl (fun (u : State) b => (({ u with bayp := u.bayp.put b {} { sourcing := true } }.setF (pgBayp b) F.BAY_PWR_STAT_CH 5).setF
    (pgBayp b) F.BAY_PWR_STAT_PG 1).emit (.gateSource b true)) t).syncPins

/-- THERMTRIP_N is asserted, and the core die is held in reset (R737). -/
def State.tripNow (s : State) : State :=
  (((s.setOwnOut false).coreReset true).onIsland fun i => { i with thermTrip := true }).emit (.thermTrip true)
/-- The save that a thermal trip started has ended. -/
def State.tripEnd (s : State) : State :=
  if s.pair.island.tripped ∧ !s.pair.island.thermTrip then s.tripNow else s

end Sys2Proof.Machine
end

