-- ==== Sys2Proof/Machine/AesOps.lean ====
section
/-!
DEFINITION. AES-256 (FIPS 197), its Galois/counter mode (NIST SP 800-38D) and XTS (IEEE 1619), which R194 and R217 name. Keys, texts and
tags are byte strings as numbers, byte 0 lowest; inside a block they are lists of 16 bytes.
-/
namespace Sys2Proof.Machine
open Sys2Proof

/-- The substitution box and its inverse, 64 bytes a row. -/
def sboxRows : List Nat :=
  [0x75B227EBE28012079A059618C323C7041531D871F1E5A534CCF73F362693FDB7C072A49CAFA2D4ADF04759FA7DC982CA76ABD7FE2B670130C56F6BF27B777C63,
   0xD2F3FF1021DAB6BCF5389D928F40A351A89F3C507F02F94585334D43FBAAEFD0CF584C4A39BECB6A5BB1FC20ED00D153842FE329B3D63B52A05A6E1B1A2C8309,
   0x08AE7A65EAF4566CA94ED58D6D37C8E779E4959162ACD3C25C2406490A3A32E0DB0B5EDE14B8EE4688902A22DC4F816073195D643D7EA7C41744975FEC130CCD,
   0x16BB54B00F2D99416842E6BF0D89A18CDF2855CEE9871E9B948ED9691198F8E19E1DC186B95735610EF6034866B53E708A8BBD4B1F74DDE8C6B4A61C2E2578BA]
def invSboxRows : List Nat :=
  [0x25D18B6D49A25B76B224D92866A12E084EC3FA420B954CEE3D23C2A632947B54CBE9DEC444438E3487FF2F9B8239E37CFBD7F3819EA340BF38A53630D56A0952,
   0x6B8A130103BDAFC1020F3FCA8F1E2CD00645B3B80558E4F70AD3BC8C00ABD890849D8DA75746155EDAB9EDFD5048706C92B6655DCC5CA4D41698688664F6F872,
   0xF45ACD78FEC0DB9A2079D2C64B3E56FC1BBE18AA0E62B76F89C5291D711AF1476EDF751CE837F9E28535ADE72274AC9673E6B4F0CECFF297EADC674F4111913A,
   0x7D0C2155631469E126D677BA7E042B17619953833CBBEBC8B0F52AAE4D3BE0A0EF9CC9939F7AE52D0D4AB519A97F51605FEC8027591012B131C7078833A8DD1F]
def boxAt (rows : List Nat) (x : Nat) : Nat := byteAt (rows.getD (x / 64) 0) (x % 64)
def subByte (x : Nat) : Nat := boxAt sboxRows x
def invSubByte (x : Nat) : Nat := boxAt invSboxRows x

/-- Doubling in the field of AES, and the product with a small constant. -/
def aesDouble (x : Nat) : Nat := if x < 128 then 2 * x else (2 * x) ^^^ 0x11B
def aesTimes (c x : Nat) : Nat :=
  let x2 := aesDouble x
  let x4 := aesDouble x2
  let x8 := aesDouble x4
  (if bitAt c 0 then x else 0) ^^^ (if bitAt c 1 then x2 else 0) ^^^ (if bitAt c 2 then x4 else 0) ^^^ (if bitAt c 3 then x8 else 0)
def xorBytes (a b : List Nat) : List Nat := List.zipWith (fun x y => x ^^^ y) a b

/-- One column by a circulant matrix. -/
def mixColumn (c0 c1 c2 c3 : Nat) : List Nat → List Nat
  | [a, b, c, d] =>
    [aesTimes c0 a ^^^ aesTimes c1 b ^^^ aesTimes c2 c ^^^ aesTimes c3 d, aesTimes c3 a ^^^ aesTimes c0 b ^^^ aesTimes c1 c ^^^ aesTimes c2 d,
     aesTimes c2 a ^^^ aesTimes c3 b ^^^ aesTimes c0 c ^^^ aesTimes c1 d, aesTimes c1 a ^^^ aesTimes c2 b ^^^ aesTimes c3 c ^^^ aesTimes c0 d]
  | l => l
def columns (s : List Nat) : List (List Nat) := (List.range 4).map fun i => (s.drop (4 * i)).take 4
def mixColumns (s : List Nat) : List Nat := (columns s).flatMap (mixColumn 2 3 1 1)
def unmixColumns (s : List Nat) : List Nat := (columns s).flatMap (mixColumn 14 11 13 9)
/-- Byte i of the state after the rows have shifted: it comes from column i/4 + row. -/
def shiftRows (s : List Nat) : List Nat := (List.range 16).map fun i => s.getD ((i + 4 * (i % 4)) % 16) 0
def unshiftRows (s : List Nat) : List Nat := (List.range 16).map fun i => s.getD ((i + 12 * (i % 4)) % 16) 0

/-- The words of the key schedule, newest first: `n` more after those given. -/
def aesExpand : Nat → Nat → List (List Nat) → List (List Nat)
  | 0, _, ws => ws
  | n + 1, i, ws =>
    let prev := ws.headD []
    let t := if i % 8 = 0 then (match prev.map subByte with
        | [a, b, c, d] => [b ^^^ 2 ^ (i / 8 - 1), c, d, a]
        | l => l)
      else if i % 8 = 4 then prev.map subByte else prev
    aesExpand n (i + 1) (xorBytes (ws.getD 7 []) t :: ws)
/-- The fifteen round keys of a 256-bit key. -/
def aesKeys (key : Nat) : List (List Nat) :=
  let b := toBytes 32 key
  let ws := (aesExpand 52 8 (((List.range 8).map fun i => (b.drop (4 * i)).take 4).reverse)).reverse
  (List.range 15).map fun r => ((ws.drop (4 * r)).take 4).flatten

def aesRound (last : Bool) (k s : List Nat) : List Nat :=
  let t := shiftRows (s.map subByte)
  xorBytes (if last then t else mixColumns t) k
/-- One block under the round keys. -/
def aesBlock (ks : List (List Nat)) (block : List Nat) : List Nat :=
  aesRound true (ks.getD 14 []) (((ks.drop 1).take 13).foldl (fun s k => aesRound false k s) (xorBytes block (ks.headD [])))
def aesUnround (k s : List Nat) : List Nat := (unshiftRows (unmixColumns (xorBytes s k))).map invSubByte
def aesUnblock (ks : List (List Nat)) (block : List Nat) : List Nat :=
  let s := (unshiftRows (xorBytes block (ks.getD 14 []))).map invSubByte
  xorBytes ((((ks.drop 1).take 13).reverse).foldl (fun s k => aesUnround k s) s) (ks.headD [])

/-! ### Galois/counter mode -/

/-- A block as the number GHASH works on: its first byte highest. -/
def blockNat (b : List Nat) : Nat := b.foldl (fun n x => n * 256 + x) 0
def natBlock (n : Nat) : List Nat := (toBytes 16 n).reverse
/-- The product in GF(2^128), bit 0 of the standard being the number's highest. -/
def gcmMul (x y : Nat) : Nat :=
  ((List.range 128).foldl (fun (zv : Nat × Nat) i =>
    (if bitAt x (127 - i) then zv.1 ^^^ zv.2 else zv.1, if bitAt zv.2 0 then (zv.2 / 2) ^^^ (0xE1 * 2 ^ 120) else zv.2 / 2)) (0, y)).1
/-- The 16-byte blocks of a string, the last padded with zeros. -/
def blocksOf (len text : Nat) : List Nat := (List.range ((len + 15) / 16)).map fun i => blockNat (toBytes 16 (bytesAt text (16 * i) (min 16 (len - 16 * i))))
def ghash (h : Nat) (blocks : List Nat) : Nat := blocks.foldl (fun y b => gcmMul (y ^^^ b) h) 0
/-- The counter block of a 12-byte nonce. -/
def gcmCounter (nonce n : Nat) : List Nat := toBytes 12 nonce ++ (toBytes 4 n).reverse
/-- AES-256-GCM encrypts and decrypts alike: the text under a key and a nonce. -/
def gcmCrypt (key nonce len text : Nat) : Nat :=
  let ks := aesKeys key
  (((List.range ((len + 15) / 16)).map fun i => ofBytes (aesBlock ks (gcmCounter nonce (i + 2))) * 2 ^ (128 * i)).sum ^^^ text) % 2 ^ (8 * len)
/-- The tag over additional data and encrypted text. -/
def gcmTag (key nonce aadLen aad len text : Nat) : Nat :=
  let ks := aesKeys key
  let h := blockNat (aesBlock ks (List.replicate 16 0))
  let s := ghash h (blocksOf aadLen aad ++ blocksOf len text ++ [8 * aadLen * 2 ^ 64 + 8 * len])
  ofBytes (natBlock (s ^^^ blockNat (aesBlock ks (gcmCounter nonce 1))))

/-! ### XTS -/

/-- The tweak of the next block: a product with the generator of GF(2^128), byte 0 lowest. -/
def xtsDouble (t : Nat) : Nat := if t < 2 ^ 127 then 2 * t else (2 * t - 2 ^ 128) ^^^ 0x87
def xtsTweaks : Nat → Nat → List Nat
  | 0, _ => []
  | n + 1, t => t :: xtsTweaks n (xtsDouble t)
/-- One data unit of whole blocks (every data unit of R217 and R414 is one): the keys, the tweak, how many bytes, the text. -/
def xtsUnit (f : List (List Nat) → List Nat → List Nat) (k1 k2 tweak len text : Nat) : Nat :=
  let ks := aesKeys k1
  let ts := xtsTweaks (len / 16) (ofBytes (aesBlock (aesKeys k2) (toBytes 16 tweak)))
  (ts.zipIdx.map fun e => (ofBytes (f ks (toBytes 16 (bytesAt text (16 * e.2) 16 ^^^ e.1))) ^^^ e.1) * 2 ^ (128 * e.2)).sum
def xtsSeal (k1 k2 tweak len text : Nat) : Nat := xtsUnit aesBlock k1 k2 tweak len text
def xtsOpen (k1 k2 tweak len text : Nat) : Nat := xtsUnit aesUnblock k1 k2 tweak len text

end Sys2Proof.Machine
end

