-- ==== Sys2Proof/Machine/ShaOps.lean ====
section
/-!
DEFINITION. SHA-256, SHA-384 and SHA-512 (FIPS 180-4), HMAC (RFC 2104) and HKDF (RFC 5869), which R210, R211 and R668 name. A byte string
is a list of bytes; where it is a key or a digest of the state it is a number, byte 0 lowest.
-/
namespace Sys2Proof.Machine
open Sys2Proof

/-- The round constants, eight words a row, the first lowest. -/
def sha256Rows : List Nat :=
  [0xAB1C5ED5923F82A459F111F13956C25BE9B5DBA5B5C0FBCF71374491428A2F98,
   0xC19BF1749BDC06A780DEB1FE72BE5D74550C7DC3243185BE12835B01D807AA98,
   0x76F988DA5CB0A9DC4A7484AA2DE92C6F240CA1CC0FC19DC6EFBE4786E49B69C1,
   0x1429296706CA6351D5A79147C6E00BF3BF597FC7B00327C8A831C66D983E5152,
   0x92722C8581C2C92E766A0ABB650A735453380D134D2C6DFC2E1B213827B70A85,
   0x106AA070F40E3585D6990624D192E819C76C51A3C24B8B70A81A664BA2BFE8A1,
   0x682E6FF35B9CCA4F4ED8AA4A391C0CB334B0BCB52748774C1E376C0819A4C116,
   0xC67178F2BEF9A3F7A4506CEB90BEFFFA8CC7020884C8781478A5636F748F82EE]
def sha512Rows : List Nat :=
  [0xAB1C5ED5DA6D8118923F82A4AF194F9B59F111F1B605D0193956C25BF348B538E9B5DBA58189DBBCB5C0FBCFEC4D3B2F7137449123EF65CD428A2F98D728AE22,
   0xC19BF174CF6926949BDC06A725C7123580DEB1FE3B1696B172BE5D74F27B896F550C7DC3D5FFB4E2243185BE4EE4B28C12835B0145706FBED807AA98A3030242,
   0x76F988DA831153B55CB0A9DCBD41FBD44A7484AA6EA6E4832DE92C6F592B0275240CA1CC77AC9C650FC19DC68B8CD5B5EFBE4786384F25E3E49B69C19EF14AD2,
   0x142929670A0E6E7006CA6351E003826FD5A79147930AA725C6E00BF33DA88FC2BF597FC7BEEF0EE4B00327C898FB213FA831C66D2DB43210983E5152EE66DFAB,
   0x92722C851482353B81C2C92E47EDAEE6766A0ABB3C77B2A8650A73548BAF63DE53380D139D95B3DF4D2C6DFC5AC42AED2E1B21385C26C92627B70A8546D22FFC,
   0x106AA07032BBD1B8F40E35855771202AD69906245565A910D192E819D6EF5218C76C51A30654BE30C24B8B70D0F89791A81A664BBC423001A2BFE8A14CF10364,
   0x682E6FF3D6B2B8A35B9CCA4F7763E3734ED8AA4AE3418ACB391C0CB3C5C95A6334B0BCB5E19B48A82748774CDF8EEB991E376C085141AB5319A4C116B8D2D0C8,
   0xC67178F2E372532BBEF9A3F7B2C67915A4506CEBDE82BDE990BEFFFA23631E288CC702081A6439EC84C87814A1F0AB7278A5636F43172F60748F82EE5DEFB2FC,
   0x1B710B35131C471B113F9804BEF90DAE0A637DC5A2C898A606F067AA72176FBAF57D4F7FEE6ED178EADA7DD6CDE0EB1ED186B8C721C0C207CA273ECEEA26619C,
   0x6C44198C4A4758175FCB6FAB3AD6FAEC597F299CFC657E2A4CC5D4BECB3E42B6431D67C49C100D4C3C9EBE0A15C9BEBC32CAAB7B40C7249328DB77F523047D84]
def sha256Init : List Nat := [0x6A09E667, 0xBB67AE85, 0x3C6EF372, 0xA54FF53A, 0x510E527F, 0x9B05688C, 0x1F83D9AB, 0x5BE0CD19]
def sha384Init : List Nat :=
  [0xCBBB9D5DC1059ED8, 0x629A292A367CD507, 0x9159015A3070DD17, 0x152FECD8F70E5939,
   0x67332667FFC00B31, 0x8EB44A8768581511, 0xDB0C2E0D64F98FA7, 0x47B5481DBEFA4FA4]
def sha512Init : List Nat :=
  [0x6A09E667F3BCC908, 0xBB67AE8584CAA73B, 0x3C6EF372FE94F82B, 0xA54FF53A5F1D36F1,
   0x510E527FADE682D1, 0x9B05688C2B3E6C1F, 0x1F83D9ABFB41BD6B, 0x5BE0CD19137E2179]

/-- One of the SHA-2 functions: word size, rounds, the rotations of its four sigmas (the last of the small ones is a shift), constants. -/
structure Sha2 where
  w : Nat
  rounds : Nat
  big0 : Nat × Nat × Nat
  big1 : Nat × Nat × Nat
  small0 : Nat × Nat × Nat
  small1 : Nat × Nat × Nat
  consts : List Nat
  start : List Nat
  out : Nat
def sha256 : Sha2 := ⟨32, 64, (2, 13, 22), (6, 11, 25), (7, 18, 3), (17, 19, 10), sha256Rows, sha256Init, 32⟩
def sha512 : Sha2 := ⟨64, 80, (28, 34, 39), (14, 18, 41), (1, 8, 7), (19, 61, 6), sha512Rows, sha512Init, 64⟩
def sha384 : Sha2 := { sha512 with start := sha384Init, out := 48 }

def rotr (w x n : Nat) : Nat := (x / 2 ^ n + x * 2 ^ (w - n)) % 2 ^ w
def Sha2.big (h : Sha2) (r : Nat × Nat × Nat) (x : Nat) : Nat := rotr h.w x r.1 ^^^ rotr h.w x r.2.1 ^^^ rotr h.w x r.2.2
def Sha2.small (h : Sha2) (r : Nat × Nat × Nat) (x : Nat) : Nat := rotr h.w x r.1 ^^^ rotr h.w x r.2.1 ^^^ (x / 2 ^ r.2.2)

/-- The message schedule, newest word first. -/
def Sha2.expand (h : Sha2) : Nat → List Nat → List Nat
  | 0, ws => ws
  | n + 1, ws => h.expand n ((h.small h.small1 (ws.getD 1 0) + ws.getD 6 0 + h.small h.small0 (ws.getD 14 0) + ws.getD 15 0) % 2 ^ h.w :: ws)
/-- One round on the eight working words. -/
def Sha2.round (h : Sha2) (v : List Nat) (kw : Nat) : List Nat := match v with
  | [a, b, c, d, e, f, g, k] =>
    let t1 := k + h.big h.big1 e + ((e &&& f) ^^^ ((2 ^ h.w - 1 - e) &&& g)) + kw
    let t2 := h.big h.big0 a + ((a &&& b) ^^^ (a &&& c) ^^^ (b &&& c))
    [(t1 + t2) % 2 ^ h.w, a, b, c, (d + t1) % 2 ^ h.w, e, f, g]
  | l => l
/-- A number from bytes in network order. -/
def netOf (b : List Nat) : Nat := b.foldl (fun n x => n * 256 + x) 0
def Sha2.block (h : Sha2) (v : List Nat) (block : List Nat) : List Nat :=
  let by_ := h.w / 8
  let ws := (h.expand (h.rounds - 16) ((List.range 16).map fun i => netOf ((block.drop (by_ * i)).take by_)).reverse).reverse
  let r := (ws.zipIdx).foldl (fun v e => h.round v (e.1 + bitsOf (h.consts.getD (e.2 / 8) 0) (h.w * (e.2 % 8)) h.w)) v
  List.zipWith (fun x y => (x + y) % 2 ^ h.w) v r
/-- The blocks of a padded message. -/
def chunks (n : Nat) : Nat → List Nat → List (List Nat)
  | 0, _ => []
  | k + 1, l => l.take n :: chunks n k (l.drop n)
def Sha2.hash (h : Sha2) (msg : List Nat) : List Nat :=
  let b := 2 * h.w
  let z := (b - (msg.length + 1 + h.w / 4) % b) % b
  let m := msg ++ 0x80 :: List.replicate z 0 ++ (toBytes (h.w / 4) (8 * msg.length)).reverse
  (((chunks b (m.length / b) m).foldl h.block h.start).flatMap fun x => (toBytes (h.w / 8) x).reverse).take h.out

def Sha2.hmac (h : Sha2) (key msg : List Nat) : List Nat :=
  let k0 := if 2 * h.w < key.length then h.hash key else key
  let k := k0 ++ List.replicate (2 * h.w - k0.length) 0
  h.hash (k.map (· ^^^ 0x5C) ++ h.hash (k.map (· ^^^ 0x36) ++ msg))

/-- HKDF-SHA-256 (R210): the pseudorandom key of a salt and key material of 32 bytes each. -/
def hkdfExtract (salt ikm : Nat) : Nat := ofBytes (sha256.hmac (toBytes 32 salt) (toBytes 32 ikm))
def hkdfBlocks (prk info : List Nat) : Nat → Nat → List Nat → List Nat
  | 0, _, _ => []
  | n + 1, i, prev =>
    let t := sha256.hmac prk (prev ++ info ++ [i])
    t ++ hkdfBlocks prk info n (i + 1) t
/-- `len` bytes from a pseudorandom key and `infoLen` bytes of info. -/
def hkdfExpand (prk info infoLen len : Nat) : Nat :=
  ofBytes ((hkdfBlocks (toBytes 32 prk) (toBytes infoLen info) ((len + 31) / 32) 1 []).take len)

end Sys2Proof.Machine
end

