-- ==== Sys2Proof/Machine/CurveOps.lean ====
section
/-!
DEFINITION. X25519 (RFC 7748), the Ed25519 check of a signature (RFC 8032), and the finite-field groups of RFC 7919, which R210, R211 and
R668 name. Byte strings stand as numbers, byte 0 lowest.
-/
namespace Sys2Proof.Machine
open Sys2Proof

/-- b to the power e modulo m, over the low `n` bits of e. -/
def powMod (m b : Nat) : Nat → Nat → Nat
  | 0, _ => 1 % m
  | n + 1, e => let r := powMod m (b * b % m) n (e / 2)
    if e % 2 = 1 then r * b % m else r

/-! ### The field and X25519 -/

def p25519 : Nat := 2 ^ 255 - 19
def fMul (a b : Nat) : Nat := a * b % p25519
def fAdd (a b : Nat) : Nat := (a + b) % p25519
def fSub (a b : Nat) : Nat := (a + p25519 - b % p25519) % p25519
def fPow (a e : Nat) : Nat := powMod p25519 a 256 e
def fInv (a : Nat) : Nat := fPow a (p25519 - 2)

/-- The two points of the Montgomery ladder, as X2, Z2, X3, Z3. -/
structure Ladder where
  x2 : Nat := 1
  z2 : Nat := 0
  x3 : Nat
  z3 : Nat := 1
def Ladder.swap (l : Ladder) (b : Bool) : Ladder := if b then ⟨l.x3, l.z3, l.x2, l.z2⟩ else l
def Ladder.step (x1 : Nat) (l : Ladder) : Ladder :=
  let a := fAdd l.x2 l.z2
  let b := fSub l.x2 l.z2
  let aa := fMul a a
  let bb := fMul b b
  let e := fSub aa bb
  let da := fMul (fSub l.x3 l.z3) a
  let cb := fMul (fAdd l.x3 l.z3) b
  let s := fAdd da cb
  let d := fSub da cb
  ⟨fMul aa bb, fMul e (fAdd aa (fMul 121665 e)), fMul s s, fMul x1 (fMul d d)⟩
/-- The scalar of 32 bytes, clamped. -/
def clamp (k : Nat) : Nat := k % 2 ^ 254 / 8 * 8 + 2 ^ 254
def x25519 (priv pub : Nat) : Nat :=
  let k := clamp priv
  let u := pub % 2 ^ 255 % p25519
  let r := (List.range 255).foldl (fun (l : Ladder) i =>
    let b := bitAt k (254 - i)
    ((l.swap b).step u).swap b) { x3 := u }
  fMul r.x2 (fInv r.z2)
def x25519Pub (priv : Nat) : Nat := x25519 priv 9

/-! ### Ed25519 -/

def edD : Nat := fMul (fSub 0 121665) (fInv 121666)
/-- The order of the base point. -/
def edL : Nat := 2 ^ 252 + 27742317777372353535851937790883648493
/-- A point in extended coordinates X, Y, Z, T. -/
structure EdPt where
  x : Nat
  y : Nat
  z : Nat := 1
  t : Nat
def edZero : EdPt := ⟨0, 1, 1, 0⟩
def EdPt.add (p q : EdPt) : EdPt :=
  let a := fMul (fSub p.y p.x) (fSub q.y q.x)
  let b := fMul (fAdd p.y p.x) (fAdd q.y q.x)
  let c := fMul (fMul 2 (fMul p.t q.t)) edD
  let d := fMul 2 (fMul p.z q.z)
  let e := fSub b a
  let f := fSub d c
  let g := fAdd d c
  let h := fAdd b a
  ⟨fMul e f, fMul g h, fMul f g, fMul e h⟩
/-- The multiple of a point by the low `n` bits of a number. -/
def EdPt.mul (p : EdPt) : Nat → Nat → EdPt
  | 0, _ => edZero
  | n + 1, k => let r := EdPt.mul (p.add p) n (k / 2)
    if k % 2 = 1 then r.add p else r
def EdPt.same (p q : EdPt) : Bool := decide (fMul p.x q.z = fMul q.x p.z) && decide (fMul p.y q.z = fMul q.y p.z)
/-- The x coordinate of a y with its sign, none where there is no such point. -/
def edX (y : Nat) (sign : Bool) : Option Nat :=
  if p25519 ≤ y then none
  else
    let x2 := fMul (fSub (fMul y y) 1) (fInv (fAdd (fMul edD (fMul y y)) 1))
    let c := fPow x2 ((p25519 + 3) / 8)
    let x := if fMul c c = x2 then c else fMul c (fPow 2 ((p25519 - 1) / 4))
    if fMul x x ≠ x2 then none
    else if x = 0 then (if sign then none else some 0)
    else some (if decide (x % 2 = 1) = sign then x else p25519 - x)
def edPoint (b : Nat) : Option EdPt := (edX (b % 2 ^ 255) (bitAt b 255)).map fun x => ⟨x, b % 2 ^ 255, 1, fMul x (b % 2 ^ 255)⟩
/-- The base point. -/
def edBase : EdPt := (edPoint (fMul 4 (fInv 5))).getD edZero
/-- The signature of 64 bytes over a message is valid under a public key. -/
def ed25519Ok (pub sig : Nat) (msg : List Nat) : Bool :=
  let k := ofBytes (sha512.hash (toBytes 32 sig ++ toBytes 32 pub ++ msg)) % edL
  match edPoint pub, edPoint (sig % 2 ^ 256) with
  | some a, some r => decide (sig / 2 ^ 256 < edL) && (edBase.mul 256 (sig / 2 ^ 256)).same (r.add (a.mul 256 k))
  | _, _ => false

/-! ### The Diffie-Hellman groups of RFC 7919 -/

/-- The leading bits of e: `n` terms of its series, scaled. -/
def eSeries : Nat → Nat → Nat → Nat
  | 0, _, _ => 0
  | n + 1, k, term => term + eSeries n (k + 1) (term / (k + 1))
/-- The prime of a group of b bits with its constant. -/
def ffPrime (b c : Nat) : Nat := 2 ^ b - 2 ^ (b - 64) + (eSeries 1200 0 (2 ^ (b - 130 + 64)) / 2 ^ 64 + c) * 2 ^ 64 - 1
/-- The size of a group's numbers in bytes, and its prime, by its identifier in NVMe: 1 to 5 are ffdhe2048, 3072, 4096, 6144, 8192. -/
def ffGroup : Nat → Option (Nat × Nat)
  | 1 => some (256, ffPrime 2048 560316)
  | 2 => some (384, ffPrime 3072 2625351)
  | 3 => some (512, ffPrime 4096 5736041)
  | 4 => some (768, ffPrime 6144 15705020)
  | 5 => some (1024, ffPrime 8192 10965728)
  | _ => none

end Sys2Proof.Machine
end

