-- ==== Sys2Proof/Machine/ChapOps.lean ====
section
/-!
DEFINITION. DH-HMAC-CHAP as the controller runs it (R211): the messages of NVMe in-band authentication and what they must hold. PRESUMED
(log entry 24): the layouts are those of NVMe base 2.x.
-/
namespace Sys2Proof.Machine
open Sys2Proof

/-- The hash functions that R211 lists, by identifier. -/
def chapHash : Nat → Option Sha2
  | 1 => some sha256
  | 2 => some sha384
  | 3 => some sha512
  | _ => none
def hashLen (id : Nat) : Nat := match chapHash id with
  | some h => h.out
  | none => 0

/-- The protocol descriptor for DH-HMAC-CHAP in a Negotiate message: its offset. -/
def chapDescriptor (d : Blob) : Option Nat :=
  ((List.range (byteAt d.val 7)).map fun i => 8 + 64 * i).find? fun o => decide (byteAt d.val o = 1 ∧ o + 64 ≤ d.len)
/-- A Negotiate message's first hash and first group that the entry allows; none where there is none in common, or where the host asks
for secure channel concatenation, which R211 does not support. -/
def chapPick (hashMask dhMask : Nat) (d : Blob) : Option (Nat × Nat) :=
  match chapDescriptor d with
  | none => none
  | some o =>
    let ids := fun (at_ n : Nat) => (List.range (min 30 n)).map fun i => byteAt d.val (at_ + i)
    match (ids (o + 4) (byteAt d.val (o + 2))).find? (fun h => decide (1 ≤ h ∧ h ≤ 3) && bitAt hashMask (h - 1)),
      (ids (o + 34) (byteAt d.val (o + 3))).find? (fun g => decide (g ≤ 5) && bitAt dhMask g) with
    | some h, some g => if byteAt d.val 6 = 0 then some (h, g) else none
    | _, _ => none

/-- The exchange that a Negotiate message opens: the challenge, its sequence number and the DH exponent come from the nonce. -/
def chapOpen (hash group nonce : Nat) (d : Blob) : ChapEx :=
  { hash := hash, group := group, tid := bytesAt d.val 4 2, seq := nonce / 2 ^ 512 % (2 ^ 32 - 1) + 1
    challenge := bytesAt nonce 0 (hashLen hash), priv := nonce / 2 ^ 544 }

def groupLen (g : Nat) : Nat := match ffGroup g with
  | some (n, _) => n
  | none => 0
/-- A group number as its bytes in network order. -/
def dhBytes (g x : Nat) : List Nat := (toBytes (groupLen g) x).reverse
def dhPow (g b e : Nat) : Nat := match ffGroup g with
  | some (n, p) => powMod p b (8 * n) e
  | none => 0

/-- A message from its bytes. -/
def blobOf (l : List Nat) : Blob := ⟨l.length, ofBytes l⟩
/-- DH-HMAC-CHAP_Challenge. -/
def ChapEx.message (c : ChapEx) : Blob :=
  blobOf ([1, 1, 0, 0] ++ toBytes 2 c.tid ++ [hashLen c.hash, 0, c.hash, c.group] ++ toBytes 2 (groupLen c.group) ++ toBytes 4 c.seq
    ++ toBytes (hashLen c.hash) c.challenge ++ dhBytes c.group (dhPow c.group 2 c.priv))

/-- A string's bytes up to its padding of zeros. -/
def textBytes (n x : Nat) : List Nat := (toBytes n x).takeWhile fun b => decide (b ≠ 0)
/-- The challenge that a response answers: itself, or with a DH group its HMAC under the hash of the shared secret. -/
def ChapEx.augmented (c : ChapEx) (h : Sha2) (peer : Nat) (challenge : List Nat) : List Nat :=
  if c.group = 0 then challenge else h.hmac (h.hash (dhBytes c.group (dhPow c.group peer c.priv))) challenge
/-- The response to a challenge under a key of KEY_LEN bytes. -/
def ChapEx.response (c : ChapEx) (h : Sha2) (key peer : Nat) (keyLen : Nat) (challenge : List Nat) (seq : Nat) (role a b : List Nat) : List Nat :=
  h.hmac (toBytes keyLen key) (c.augmented h peer challenge ++ toBytes 4 seq ++ toBytes 2 c.tid ++ [0] ++ role ++ a ++ [0] ++ b)
/-- The ASCII strings "HostHost" and "Controller". -/
def roleHost : List Nat := [0x48, 0x6F, 0x73, 0x74, 0x48, 0x6F, 0x73, 0x74]
def roleCtrl : List Nat := [0x43, 0x6F, 0x6E, 0x74, 0x72, 0x6F, 0x6C, 0x6C, 0x65, 0x72]

/-- The parts of a Reply: is it well formed, the response, whether it challenges the controller, that challenge and its sequence number,
the host's DH value. -/
structure ChapReply where
  ok : Bool
  rval : Nat
  cvalid : Bool
  cval : List Nat
  seq : Nat
  peer : Nat
def chapReply (c : ChapEx) (d : Blob) : ChapReply :=
  let n := hashLen c.hash
  let dl := bytesAt d.val 10 2
  let peer := netAt d.val (16 + 2 * n) dl
  { ok := decide (bytesAt d.val 4 2 = c.tid ∧ byteAt d.val 6 = n ∧ 16 + 2 * n + dl ≤ d.len ∧ dl = groupLen c.group)
      && (match ffGroup c.group with
        | some (_, p) => decide (2 ≤ peer ∧ peer + 2 ≤ p)
        | none => true)
    rval := bytesAt d.val 16 n, cvalid := decide (byteAt d.val 8 = 1), cval := toBytes n (bytesAt d.val (16 + n) n)
    seq := bytesAt d.val 12 4, peer := peer }
/-- The host's response is right; where the entry asks for it, the host challenges the controller too. -/
def chapVerify (c : ChapEx) (hostKey keyLen : Nat) (bidir : Bool) (hostNqn subNqn : Nat) (d : Blob) : Bool :=
  match chapHash c.hash with
  | none => false
  | some h =>
    let r := chapReply c d
    r.ok && decide (r.cvalid = bidir) && decide (toBytes (hashLen c.hash) r.rval =
      c.response h hostKey r.peer keyLen (toBytes (hashLen c.hash) c.challenge) c.seq roleHost (textBytes 256 hostNqn) (textBytes 256 subNqn))
/-- DH-HMAC-CHAP_Success1, with the controller's response where the host has challenged it. -/
def chapSuccess (c : ChapEx) (ctrlKey keyLen : Nat) (hostNqn subNqn : Nat) (d : Blob) : Blob :=
  let n := hashLen c.hash
  let r := chapReply c d
  let rval := match chapHash c.hash with
    | some h => if r.cvalid then c.response h ctrlKey r.peer keyLen r.cval r.seq roleCtrl (textBytes 256 subNqn) (textBytes 256 hostNqn)
        else List.replicate n 0
    | none => []
  blobOf ([1, 3, 0, 0] ++ toBytes 2 c.tid ++ [n, 0, boolNat r.cvalid, 0, 0, 0, 0, 0, 0, 0] ++ rval)
/-- AUTH_Failure1 for a transaction: authentication failed. -/
def chapFailure (tid : Nat) : Blob := blobOf ([0, 0xF1, 0, 0] ++ toBytes 2 tid ++ [1, 1])

end Sys2Proof.Machine
end

