-- ==== Sys2Proof/Machine/InflateOps.lean ====
section
/-!
DEFINITION. Reading a DEFLATE body (R439): an RFC 1951 stream whose back-references stay within the unit, which produces exactly a unit and
whose final block ends in the last body byte.
-/
namespace Sys2Proof.Machine
open Sys2Proof

/-- The bits of n bytes, the lowest of each byte first. -/
def bitList (n x : Nat) : List Bool := (toBytes n x).flatMap fun b => (List.range 8).map fun i => bitAt b i
/-- The next n bits as a number, the first lowest. -/
def takeBits : Nat → List Bool → Option (Nat × List Bool)
  | 0, l => some (0, l)
  | _ + 1, [] => none
  | n + 1, b :: l => (takeBits n l).map fun (x, r) => (boolNat b + 2 * x, r)

/-- A Huffman code: how many symbols each length 1 to 15 has, and the symbols in code order. -/
structure Huff where
  counts : List Nat
  syms : List Nat
/-- How many codes of the longest length a set of lengths leaves unused; none where it uses too many. -/
def huffLeft : List Nat → Nat → Option Nat
  | [], left => some left
  | c :: r, left => if 2 * left < c then none else huffLeft r (2 * left - c)
/-- The code with these lengths by symbol. An incomplete one is a code only where it is empty or one code of one bit. -/
def huffOf (strict : Bool) (lens : List Nat) : Option Huff :=
  let at_ := fun k => (lens.zipIdx.filter fun p => decide (p.1 = k)).map Prod.snd
  let by_ := (List.range 15).map fun i => at_ (i + 1)
  let counts := by_.map List.length
  match huffLeft counts 1 with
  | none => none
  | some left =>
    if left = 0 ∨ (!strict ∧ (at_ 0).length + (at_ 1).length = lens.length) then some ⟨counts, by_.flatten⟩ else none
/-- The next symbol: the code so far, the first code and the place of the first symbol of each length in turn. -/
def huffWalk (syms : List Nat) : List Nat → Nat → Nat → Nat → List Bool → Option (Nat × List Bool)
  | [], _, _, _, _ => none
  | _ :: _, _, _, _, [] => none
  | c :: cs, code, first, idx, b :: l =>
    let code' := code + boolNat b
    if code' < first + c then (syms[idx + (code' - first)]?).map fun x => (x, l)
    else huffWalk syms cs (2 * code') (2 * (first + c)) (idx + c) l
def Huff.next (h : Huff) (l : List Bool) : Option (Nat × List Bool) := huffWalk h.syms h.counts 0 0 0 l

/-- The base and the extra bits of length symbols 257 to 285 and of distance symbols 0 to 29. -/
def lenSym (k : Nat) : Option (Nat × Nat) :=
  if k < 257 ∨ 285 < k then none
  else if k < 265 then some (k - 254, 0)
  else if k = 285 then some (258, 0)
  else let e := (k - 261) / 4; some ((4 + (k - 261) % 4) * 2 ^ e + 3, e)
def distSym (k : Nat) : Option (Nat × Nat) :=
  if 29 < k then none else if k < 4 then some (k + 1, 0) else let e := k / 2 - 1; some ((2 + k % 2) * 2 ^ e + 1, e)

/-- A match of n bytes at a distance, onto an output that is held last byte first. -/
def copyBack (d : Nat) : Nat → List Nat → List Nat
  | 0, out => out
  | n + 1, out => copyBack d n (out.getD (d - 1) 0 :: out)
/-- A length symbol's match: its extra bits, the distance and its extra bits; none where it reaches outside the unit. -/
def inflateMatch (dist : Huff) (k : Nat) (l : List Bool) (out : List Nat) : Option (List Bool × List Nat) := do
  let (lb, le) ← lenSym k
  let (lx, l1) ← takeBits le l
  let (dk, l2) ← dist.next l1
  let (db, de) ← distSym dk
  let (dx, l3) ← takeBits de l2
  if out.length < db + dx ∨ 16384 < out.length + lb + lx then none else some (l3, copyBack (db + dx) (lb + lx) out)
/-- The symbols of a block up to its end-of-block code. -/
def inflateCodes (lit dist : Huff) : Nat → List Bool → List Nat → Option (List Bool × List Nat)
  | 0, _, _ => none
  | fuel + 1, l, out => match lit.next l with
    | none => none
    | some (k, l1) =>
      if k = 256 then some (l1, out)
      else if k < 256 then (if 16384 ≤ out.length then none else inflateCodes lit dist fuel l1 (k :: out))
      else match inflateMatch dist k l1 out with
        | none => none
        | some (l2, out2) => inflateCodes lit dist fuel l2 out2

/-- The lengths of a dynamic block's codes, n of them. -/
def inflateLens (h : Huff) : Nat → Nat → List Bool → List Nat → Option (List Nat × List Bool)
  | 0, _, _, _ => none
  | fuel + 1, n, l, acc =>
    if n ≤ acc.length then (if acc.length = n then some (acc, l) else none)
    else match h.next l with
      | none => none
      | some (k, l1) =>
        if k < 16 then inflateLens h fuel n l1 (acc ++ [k])
        else
          let (eb, base) := if k = 16 then (2, 3) else if k = 17 then (3, 3) else (7, 11)
          match takeBits eb l1 with
          | none => none
          | some (x, l2) => match k, acc.getLast? with
            | 16, none => none
            | 16, some p => inflateLens h fuel n l2 (acc ++ List.replicate (base + x) p)
            | _, _ => inflateLens h fuel n l2 (acc ++ List.replicate (base + x) 0)
/-- The two codes of a dynamic block. -/
def dynCodes (l : List Bool) : Option (Huff × Huff × List Bool) := do
  let (hl, l1) ← takeBits 5 l
  let (hd, l2) ← takeBits 5 l1
  let (hc, l3) ← takeBits 4 l2
  let (cs, l4) ← takeBits (3 * (hc + 4)) l3
  let order := [16, 17, 18, 0, 8, 7, 9, 6, 10, 5, 11, 4, 12, 3, 13, 2, 14, 1, 15].take (hc + 4)
  let clens := (List.range 19).map fun k => match order.findIdx? (fun x => decide (x = k)) with
    | some i => cs / 8 ^ i % 8
    | none => 0
  let ch ← huffOf true clens
  let (lens, l5) ← inflateLens ch 400 (hl + 257 + hd + 1) l4 []
  if 29 < hl ∨ 29 < hd ∨ lens.getD 256 0 = 0 then none
  let lit ← huffOf false (lens.take (hl + 257))
  let dist ← huffOf false (lens.drop (hl + 257))
  pure (lit, dist, l5)
/-- The fixed codes. -/
def fixedCodes : Option (Huff × Huff) := do
  let lit ← huffOf false (List.replicate 144 8 ++ List.replicate 112 9 ++ List.replicate 24 7 ++ List.replicate 8 8)
  let dist ← huffOf false (List.replicate 32 5)
  pure (lit, dist)
/-- A stored block. -/
def inflateStored (l : List Bool) (out : List Nat) : Option (List Bool × List Nat) := do
  let l0 := l.drop (l.length % 8)
  let (n, l1) ← takeBits 16 l0
  let (c, l2) ← takeBits 16 l1
  let (x, l3) ← takeBits (8 * n) l2
  if n + c ≠ 65535 ∨ 16384 < out.length + n then none else some (l3, (toBytes n x).reverse ++ out)
/-- One block: is it final, what follows it, the output. -/
def inflateBlock (l : List Bool) (out : List Nat) : Option (Bool × List Bool × List Nat) := do
  let (fin, l1) ← takeBits 1 l
  let (ty, l2) ← takeBits 2 l1
  let (l3, out') ← match ty with
    | 0 => inflateStored l2 out
    | 1 => do
      let (lit, dist) ← fixedCodes
      inflateCodes lit dist (l2.length + 1) l2 out
    | 2 => do
      let (lit, dist, l3) ← dynCodes l2
      inflateCodes lit dist (l3.length + 1) l3 out
    | _ => none
  pure (decide (fin = 1), l3, out')
def inflateBlocks : Nat → List Bool → List Nat → Option (List Bool × List Nat)
  | 0, _, _ => none
  | fuel + 1, l, out => match inflateBlock l out with
    | none => none
    | some (true, l', out') => some (l', out')
    | some (false, l', out') => inflateBlocks fuel l' out'
/-- The unit that a body of n bytes decodes to, none where the body does not meet R439. -/
def inflate (n body : Nat) : Option Nat :=
  match inflateBlocks (8 * n + 1) (bitList n body) [] with
  | none => none
  | some (l, out) => if l.length < 8 ∧ out.length = 16384 then some (ofBytes out.reverse) else none

end Sys2Proof.Machine
end

