-- ==== Sys2Proof/Machine/TmgrOps.lean ====
section
/-!
DEFINITION. Policers, shaping buckets, the scheduling trees, meter accumulators and their records (chapter 08 of spec/).
-/
namespace Sys2Proof.Machine
open Sys2Proof

def State.onTmgr (g : TmgrSt → TmgrSt) (s : State) : State := { s with tmgr := g s.tmgr }
def State.onPol (g : PolSt → PolSt) (s : State) : State := { s with pol := g s.pol }

/-! ### Policers (R319 to R328) -/

/-- Fields of a policer's entry of table 1. -/
def polEn (e : Nat) : Bool := bitAt e 0
def polAware (e : Nat) : Bool := bitAt e 1
def polPassRed (e : Nat) : Bool := bitAt e 2
def polCir (e : Nat) : Nat := bitsOf e 8 24
def polPir (e : Nat) : Nat := bitsOf e 32 24
def polCbs (e : Nat) : Nat := bitsOf e 64 32
def polPbs (e : Nat) : Nat := bitsOf e 96 32

/-- The two buckets full (R328, STARTING). -/
def polFull (e : Nat) : Bucket := ⟨polCbs e * 8, if polPir e = 0 then 0 else polPbs e * 8⟩
/-- The buckets clipped to the depths of an entry (R328). -/
def polClip (e : Nat) (b : Bucket) : Bucket := ⟨min b.tc (polCbs e * 8), if polPir e = 0 then 0 else min b.tp (polPbs e * 8)⟩
/-- One refill (R322). -/
def polRefill (e : Nat) (b : Bucket) : Bucket :=
  ⟨min (b.tc + polCir e) (polCbs e * 8), if polPir e = 0 then 0 else min (b.tp + polPir e) (polPbs e * 8)⟩

/-- The procedure of R322. -/
def polColour (e : Nat) (b : Bucket) (bits : Nat) (inColour : Colour) : Colour × Bucket :=
  let c := if polAware e then inColour else .green
  let limited := decide (polPir e ≠ 0)
  if c = .red then (.red, b)
  else if limited && decide (b.tp < bits) then (.red, b)
  else
    let tp := if limited then b.tp - bits else b.tp
    if c = .yellow ∨ b.tc < bits then (.yellow, { b with tp := tp })
    else (.green, ⟨b.tc - bits, tp⟩)

def State.polEntry (s : State) (p : Nat) : Nat := s.tab pgTmgr 1 p
def State.bucket (s : State) (p : Nat) : Bucket := s.tmgr.buckets.get p {}
def State.setBucket (p : Nat) (b : Bucket) (s : State) : State := s.onTmgr fun t => { t with buckets := t.buckets.put p {} b }

/-- A decision of policer p (R322, R327). -/
def State.police (p bits : Nat) (inColour : Colour) (s : State) : Colour × State :=
  let e := s.polEntry p
  if polEn e then
    let r := polColour e (s.bucket p) bits inColour
    (r.1, s.setBucket p r.2)
  else (.green, s)

/-- The input colour of a DSCP (R324). -/
def State.dscpColour (s : State) (dscp : Nat) : Colour :=
  match getBits (s.fab.reg (pgTmgr.base + 0x1010 + 4 * (dscp / 16))) (2 * (dscp % 16)) 2 with
  | 1 => .yellow
  | 2 => .red
  | _ => .green

/-! ### The meter (R344 to R351) -/

def State.addMeter (tenant : Nat) (g : MeterAcc → MeterAcc) (s : State) : State :=
  s.onTmgr fun t => { t with accs := t.accs.modify tenant {} g }

/-- Add to a 32-bit red field, which saturates (R345). -/
def satRed (n : Nat) : Nat := min (n + 1) 0xFFFFFFFF

/-- A frame of a tenant is policed (R321, R325): its colour and whether it passes. -/
def State.policeFrame (tenant len dscp : Nat) (s : State) : Colour × Bool × State :=
  let r := s.police tenant (len * 8) (s.dscpColour dscp)
  match r.1 with
  | .green => (.green, true, r.2.count E.TMGR_FRM_GREEN 1)
  | .yellow => (.yellow, true, r.2.count E.TMGR_FRM_YELLOW 1)
  | .red => (.red, polPassRed (s.polEntry tenant),
      (r.2.count E.TMGR_FRM_RED 1).addMeter tenant fun a => { a with frameRed := satRed a.frameRed })

/-- The record is closed with SAT (R345). -/
def MeterAcc.sat (a : MeterAcc) : Bool := decide (a.frameRed = 0xFFFFFFFF ∨ a.cmdRed = 0xFFFFFFFF)

/-- What a tenant's accumulators carry into the next minute (R346). -/
def MeterAcc.carry (a : MeterAcc) : MeterAcc := { logicalMib := a.logicalMib % 1024, physicalMib := a.physicalMib % 1024 }

/-- SRC is 0 or SYNC reads FREE (R349). -/
def State.freeRunning (s : State) : Bool :=
  decide (s.get (pgGrp 0) F.PTP_CFG_SRC = 0 ∨ s.get (pgGrp 0) F.PTP_STAT_SYNC = 2)

/-- Open a minute at the present time (R347, R349). -/
def State.openMinute (stepped part : Bool) (s : State) : State :=
  (s.onTmgr fun t => { t with minute := {
      isOpen := true, minute := s.ptp.sec / 60, startSec := s.ptp.sec, startHalf := s.ptp.half
      freeRun := s.freeRunning, stepped := stepped, part := part } }).setF pgTmgr F.METER_OPEN_MINUTE (s.ptp.sec / 60)

/-- The PTP milliseconds that the open minute has covered (Table 8.4). -/
def State.minuteCovered (s : State) : Nat :=
  let m := s.tmgr.minute
  min 60000 ((s.ptp.sec * 2000000000 + s.ptp.half - (m.startSec * 2000000000 + m.startHalf)) / 2000000)

/-- A close comes due: at a multiple of 60 seconds, or at a time step (R347). -/
def State.minuteDue (step : Bool) (s : State) : State :=
  s.when (s.tmgr.minute.isOpen && s.tmgr.minute.due.isNone) fun t =>
    t.onTmgr fun m => { m with minute := { m.minute with due := some (s.minuteCovered, step) } }

/-- The flags of every record of the open minute but SAT (R349, R351). -/
def OpenMinute.flags (m : OpenMinute) (freeNow stepNow partNow : Bool) : Nat :=
  boolNat (m.freeRun || freeNow) + 2 * boolNat (m.stepped || stepNow) + 4 * boolNat (m.part || partNow) + 8 * boolNat m.takeover

/-- Close the open minute as generation GEN (R344, R350). -/
def State.closeMinute (covered : Nat) (step part : Bool) (s : State) : State :=
  let k := s.get pgTmgr F.METER_GEN_GEN
  let m := s.tmgr.minute
  let gen : MeterGen := { minute := m.minute, flags := m.flags s.freeRunning step part, durationMs := covered, accs := s.tmgr.accs }
  let lost := decide (64 ≤ k - s.get pgTmgr F.METER_ACK_ACK)
  let s1 := s.onTmgr fun t => { t with
    gens := t.gens.set (k % 64) gen
    accs := t.accs.keys.foldl (fun (m : SMap MeterAcc) n => m.modify n {} MeterAcc.carry) t.accs
    minute := {} }
  (((((s1.setF pgTmgr F.METER_GEN_GEN ((k + 1) % 2 ^ 32)).count E.TMGR_METER_CLOSE 1).when lost fun t =>
    (t.occur S.TMGR_METER_OVERRUN).count E.TMGR_METER_LOST 1).when (s.tmgr.accs.any fun _ a => a.sat) fun t =>
    t.occur S.TMGR_METER_SAT)).record 3 (k + m.minute % 2 ^ 32 * 2 ^ 32)

/-- One meter record (Table 8.4) as a little-endian number. -/
def meterRecord (g : MeterGen) (tenant : Nat) : Nat :=
  let a := g.accs.get tenant {}
  1 + (g.flags + 16 * boolNat a.sat) * 2 ^ 8 + tenant * 2 ^ 16 + g.minute % 2 ^ 32 * 2 ^ 32 + g.durationMs % 2 ^ 16 * 2 ^ 64
    + a.readBytes % 2 ^ 48 * 2 ^ 80 + a.writeBytes % 2 ^ 48 * 2 ^ 128 + a.readOps % 2 ^ 40 * 2 ^ 176 + a.writeOps % 2 ^ 40 * 2 ^ 216
    + a.regionBytes % 2 ^ 48 * 2 ^ 256 + a.expressOps % 2 ^ 40 * 2 ^ 304 + a.logicalMib / 1024 % 2 ^ 48 * 2 ^ 344
    + a.physicalMib / 1024 % 2 ^ 48 * 2 ^ 392 + a.frameRed % 2 ^ 32 * 2 ^ 440 + a.cmdRed % 2 ^ 32 * 2 ^ 472

/-! ### Leaves, service nodes and roots (R329 to R338) -/

/-- Fields of a leaf's entry of table 4. -/
def leafValid (e : Nat) : Bool := bitAt e 0
def leafStream (e : Nat) : Bool := bitAt e 1
def leafExpress (e : Nat) : Bool := bitAt e 2
def leafTenant (e : Nat) : Nat := bitsOf e 16 12
def leafEgrSvc (e : Nat) : Nat := bitsOf e 32 10
def leafAdmSvc (e : Nat) : Nat := bitsOf e 48 10
def leafEgrCir (e : Nat) : Nat := bitsOf e 64 24
def leafEgrPir (e : Nat) : Nat := bitsOf e 96 24
def leafAdmCir (e : Nat) : Nat := bitsOf e 128 24
def leafAdmPir (e : Nat) : Nat := bitsOf e 160 24
def leafEgrWeight (e : Nat) : Nat := bitsOf e 192 8
def leafAdmWeight (e : Nat) : Nat := bitsOf e 200 8
/-- Fields of a service node's entry of table 5. -/
def svcValid (e : Nat) : Bool := bitAt e 0
def svcAdm (e : Nat) : Bool := bitAt e 1
def svcCir (e : Nat) : Nat := bitsOf e 32 24
def svcPir (e : Nat) : Nat := bitsOf e 64 24
def svcWeight (e : Nat) : Nat := bitsOf e 96 8

/-- The leaf of a tenant port (R329). -/
def State.leafOf (s : State) (tport : Nat) : Nat := bitsOf (s.tab pgTmgr 3 tport) 0 14
/-- A leaf's active entry, or its last one while it drains after losing VALID (R339). -/
def State.leafEntry (s : State) (leaf : Nat) : Nat :=
  let e := s.tab pgTmgr 4 leaf
  if leafValid e then e else s.tmgr.ghosts.get leaf e
def State.svcEntry (s : State) (n : Nat) : Nat := s.tab pgTmgr 5 n

/-- Background leaf of pool p and engine k (R338). -/
def bgLeaf (p k : Nat) : Nat := 16368 + 4 * p + k
def isBgLeaf (leaf : Nat) : Bool := decide (16368 ≤ leaf)
/-- The live rate of a background leaf (R338, R652). -/
def State.bgRate (s : State) (leaf : Nat) : Nat := (s.pol.rates.get (leaf - 16368) {}).rate
def State.mult (s : State) (leaf : Nat) : Nat := s.pol.mults.get leaf 16

/-- A leaf's or service node's quantum in bytes (R332, R662). -/
def State.quantum (s : State) (weight mult : Nat) : Nat :=
  let q := s.get pgTmgr F.TMGR_CFG_QUANTUM
  max q (weight * mult / 16 * q)

/-- A candidate of one DWRR selection: its key, the cost of its first work, its quantum. -/
structure Cand where
  key : Nat
  cost : Nat
  quantum : Nat
deriving DecidableEq, Repr

/-- How many quanta a child needs before its first work fits (R332). -/
def Cand.rounds (c : Cand) (deficit : Nat) : Nat := max 1 ((c.cost - deficit + c.quantum - 1) / max 1 c.quantum)

/-- The place of the smallest number of a list, the first of equals. -/
def argMin : List Nat → Nat
  | [] => 0
  | [_] => 0
  | x :: y :: r =>
    let k := argMin (y :: r)
    if x ≤ (y :: r).getD k 0 then 0 else k + 1

/-- One DWRR selection: the child at the pointer is served while its deficit covers its work; else the children after the pointer, in
rising order and round again, each take a quantum as they are reached, until one covers its work. -/
def dwrrPick (cands : List Cand) (last : Nat) (deficit : SMap Nat) : Option (Nat × SMap Nat) :=
  match cands.find? fun c => decide (c.key = last ∧ c.cost ≤ deficit.get c.key 0) with
  | some c => some (c.key, deficit.put c.key 0 (deficit.get c.key 0 - c.cost))
  | none =>
    let order := cands.filter (fun c => decide (last < c.key)) ++ cands.filter fun c => decide (c.key ≤ last)
    match order with
    | [] => none
    | c0 :: _ =>
      let ns := order.map fun c => c.rounds (deficit.get c.key 0)
      let at' := argMin ns
      let n := ns.getD at' 1
      let chosen := order.getD at' c0
      let give := fun (d : SMap Nat) (e : Nat × Cand) =>
        let k := if e.1 ≤ at' then n else n - 1
        d.put e.2.key 0 (d.get e.2.key 0 + k * e.2.quantum)
      let d1 := ((List.range order.length).zip order).foldl give deficit
      some (chosen.key, d1.put chosen.key 0 (d1.get chosen.key 0 - chosen.cost))

/-- The first work of each leaf at a root: leaf and cost. -/
abbrev Heads := List (Nat × Nat)

def headsAdd (leaf cost : Nat) (h : Heads) : Heads := if h.any fun e => decide (e.1 = leaf) then h else (leaf, cost) :: h

/-- Order a leaf list by leaf. -/
def headsSort (h : Heads) : Heads := h.mergeSort fun a b => decide (a.1 ≤ b.1)

/-- The shaping bucket of a leaf or service node in a tree. -/
def State.leafShape (s : State) (adm : Bool) (leaf : Nat) : Shape := (if adm then s.tmgr.admShape else s.tmgr.egrShape).get leaf {}
def State.svcShape (s : State) (n : Nat) : Shape := s.tmgr.svcShape.get n {}

/-- The rates of a leaf in a tree; a background leaf's peak is its live rate. -/
def State.leafCir (s : State) (adm : Bool) (leaf : Nat) : Nat :=
  let e := s.leafEntry leaf
  if adm then (if isBgLeaf leaf then min (leafAdmCir e) (s.bgRate leaf) else leafAdmCir e) else leafEgrCir e
def State.leafPir (s : State) (adm : Bool) (leaf : Nat) : Nat :=
  if adm then (if isBgLeaf leaf then s.bgRate leaf else leafAdmPir (s.leafEntry leaf)) else leafEgrPir (s.leafEntry leaf)
/-- Below its CIR; below its PIR (R331). A background leaf whose rate is 0 for want of work or under throttle admits nothing (R652,
Table 17.3). -/
def State.leafBelowCir (s : State) (adm : Bool) (leaf : Nat) : Bool :=
  decide (s.leafCir adm leaf ≠ 0 ∧ 0 < (s.leafShape adm leaf).cir)
def State.leafBelowPir (s : State) (adm : Bool) (leaf : Nat) : Bool :=
  if adm && isBgLeaf leaf then
    let r := s.pol.rates.get (leaf - 16368) {}
    if r.rate = 0 then decide (r.reason ≠ 0 ∧ r.reason ≠ 4) else decide (0 < (s.leafShape adm leaf).pir)
  else decide (s.leafPir adm leaf = 0 ∨ 0 < (s.leafShape adm leaf).pir)
def State.svcBelowCir (s : State) (n : Nat) : Bool := decide (svcCir (s.svcEntry n) ≠ 0 ∧ 0 < (s.svcShape n).cir)
def State.svcBelowPir (s : State) (n : Nat) : Bool := decide (svcPir (s.svcEntry n) = 0 ∨ 0 < (s.svcShape n).pir)

def State.leafCand (s : State) (adm : Bool) (base : Nat) (h : Nat × Nat) : Cand :=
  let e := s.leafEntry h.1
  ⟨base + h.1, h.2, s.quantum (if adm then leafAdmWeight e else leafEgrWeight e) (s.mult h.1)⟩
def State.leafSvc (s : State) (adm : Bool) (leaf : Nat) : Nat :=
  if adm then leafAdmSvc (s.leafEntry leaf) else leafEgrSvc (s.leafEntry leaf)

/-- Steps 2 to 4 of R331 among candidates: those below their CIR, else those below their PIR; one at its PIR is never selected. -/
def pickSteps (cands : List Cand) (belowCir belowPir : Nat → Bool) (last : Nat) (d : SMap Nat) : Option (Nat × SMap Nat) :=
  let open_ := cands.filter fun c => belowPir c.key
  match dwrrPick (open_.filter fun c => belowCir c.key) last d with
  | some r => some r
  | none => dwrrPick open_ last d

def State.root (s : State) (r : Nat) : RootSt := s.tmgr.roots.get r {}
def State.setRoot (r : Nat) (v : RootSt) (s : State) : State := s.onTmgr fun t => { t with roots := t.roots.put r {} v }

/-- The rate of a root: Mbit/s of a port node, MB/s of a pool node; none where the node itself does not limit (R334). -/
def State.rootRate (s : State) (r : Nat) : Option Nat :=
  if r < 64 then some (s.portRate r)
  else let v := bitsOf (s.tab pgTmgr 7 (r - 64)) 0 24; if v = 0 then none else some v
/-- The ceiling of Table 17.3 on a pool node. -/
def State.thermCeiling (s : State) : Option Nat :=
  match s.get (pgMgmt 3) F.THERM_STAT_LEVEL with
  | 2 => some (s.get (pgMgmt 3) F.THERM_CAP_L2_MBS)
  | 3 => some (s.get (pgMgmt 3) F.THERM_CAP_L3_MBS)
  | _ => none
/-- The rate a root may work at. -/
def State.rootLimit (s : State) (r : Nat) : Option Nat :=
  if r < 64 then s.rootRate r
  else match s.rootRate r, s.thermCeiling with
    | some a, some b => some (min a b)
    | some a, none => some a
    | none, b => b
def State.rootCapPct (s : State) (r : Nat) : Nat :=
  if r < 64 then bitsOf (s.tab pgTmgr 6 r) 0 7 else bitsOf (s.tab pgTmgr 7 (r - 64)) 32 7
/-- Bytes to the unit of a root's rate in one microsecond: bits at a port node, bytes at a pool node. -/
def rootUnits (r bytes : Nat) : Nat := if r < 64 then bytes * 8 else bytes
/-- The root's express work in the window is below its cap (R336). -/
def State.belowCap (s : State) (r : Nat) : Bool :=
  match s.rootRate r with
  | none => true
  | some rate => decide (rootUnits r (s.root r).window.sum * 100 <
      s.rootCapPct r * rate * s.get pgTmgr F.TMGR_EXP_EXP_WINDOW_US)

/-- A leaf holds work for a root, whether or not the work may go now (R332). -/
def State.rootHolds (s : State) (r leaf : Nat) : Bool :=
  if r < 64 then s.tmgr.egr.any fun e => decide (e.port = r ∧ e.leaf = leaf)
  else (s.tmgr.adm.any fun w => decide (w.pool = r - 64 ∧ w.leaf = leaf))
    || decide (isBgLeaf leaf ∧ (leaf - 16368) / 4 = r - 64) && (s.tmgr.bgWant.find leaf).isSome
/-- A service node does, through one of its leaves. -/
def State.svcHolds (s : State) (r svc : Nat) : Bool :=
  if r < 64 then s.tmgr.egr.any fun e => decide (e.port = r ∧ s.leafSvc false e.leaf = svc)
  else (s.tmgr.adm.any fun w => decide (w.pool = r - 64 ∧ s.leafSvc true w.leaf = svc))
    || s.tmgr.bgWant.any fun l _ => decide ((l - 16368) / 4 = r - 64 ∧ s.leafSvc true l = svc)
/-- A child of a root keeps its deficit (R332). -/
def State.keepsDeficit (s : State) (r k : Nat) : Bool :=
  if k < 0x10000 then s.rootHolds r k else if k < 0x20000 then s.svcHolds r (k - 0x10000) else s.rootHolds r (k - 0x20000)
/-- Work has gone from the queues: deficits of children that hold none are given up (R332). -/
def State.keepDeficits (s : State) : State := s.onTmgr fun t => { t with
  roots := t.roots.mapVals fun r v => { v with deficit := v.deficit.filter fun k _ => s.keepsDeficit r k } }

/-- Selection at a root (R331): the leaf chosen, whether by step 1, and the root's new scheduler state. Express leaves of step 1 are below
their PIR, as are their service nodes. -/
def State.rootSelect (s : State) (r : Nat) (heads : Heads) : Option (Nat × Bool × RootSt) :=
  let adm := decide (64 ≤ r)
  let rs := s.root r
  let work := heads.map Prod.fst
  let svcs := (work.map (s.leafSvc adm)).uniq
  let d0 := rs.deficit
  let express := heads.filter fun h => leafExpress (s.leafEntry h.1) && s.leafBelowPir adm h.1 && s.svcBelowPir (s.leafSvc adm h.1)
  match (if s.belowCap r then dwrrPick (express.map (s.leafCand adm 0x20000)) (rs.last.get 0x20000 0) d0 else none) with
  | some (k, d) => some (k - 0x20000, true, { rs with deficit := d, last := rs.last.set 0x20000 k })
  | none =>
    let rest := if s.belowCap r then heads.filter fun h => !leafExpress (s.leafEntry h.1) else heads
    let inner := svcs.filterMap fun n =>
      match pickSteps ((rest.filter fun h => decide (s.leafSvc adm h.1 = n)).map (s.leafCand adm 0)) (s.leafBelowCir adm)
          (s.leafBelowPir adm) (rs.last.get n 0) d0 with
      | some (leaf, d) => some (n, leaf, d)
      | none => none
    let cands := (inner.map fun e => (⟨0x10000 + e.1, ((rest.find? fun h => decide (h.1 = e.2.1)).getD (0, 0)).2,
        s.quantum (svcWeight (s.svcEntry e.1)) 16⟩ : Cand)).mergeSort fun a b => decide (a.key ≤ b.key)
    match pickSteps cands (fun k => s.svcBelowCir (k - 0x10000)) (fun k => s.svcBelowPir (k - 0x10000)) (rs.last.get 0x10000 0) d0 with
    | none => none
    | some (sk, dRoot) =>
      match inner.find? fun e => decide (e.1 = sk - 0x10000) with
      | none => none
      | some e =>
        let merged := (dRoot.filter fun k _ => decide (0x10000 ≤ k)).list.foldl (fun (m : SMap Nat) x => m.set x.1 x.2)
          (e.2.2.filter fun k _ => decide (k < 0x10000))
        some (e.2.1, false, { rs with deficit := merged, last := (rs.last.set 0x10000 sk).set e.1 e.2.1 })

def Shape.charge (n : Nat) (b : Shape) : Shape := ⟨b.cir - n, b.pir - n⟩

/-- Charge a leaf, its service node and its root for work (R333, R334, R336). -/
def State.chargeWork (r leaf bytes : Nat) (s : State) : State :=
  let adm := decide (64 ≤ r)
  let n := rootUnits r bytes
  let svc := s.leafSvc adm leaf
  let before := s.belowCap r
  let s1 := s.onTmgr fun t => { t with
    egrShape := if adm then t.egrShape else t.egrShape.modify leaf {} (Shape.charge n)
    admShape := if adm then t.admShape.modify leaf {} (Shape.charge n) else t.admShape
    svcShape := t.svcShape.modify svc {} (Shape.charge n) }
  let rs := s1.root r
  let win := if leafExpress (s.leafEntry leaf) then (match rs.window with
    | [] => [bytes]
    | w :: ws => (w + bytes) :: ws) else rs.window
  let s2 := s1.setRoot r { rs with level := rs.level - n, window := win }
  s2.when (before && !s2.belowCap r) (State.occur S.TMGR_EXP_CAP_HIT)

/-- One refill of a shaping bucket of a rate, its depth rate × SHAPE_BURST_US (R333). -/
def refillLevel (rate burst : Nat) (l : Int) : Int := min (l + rate) (rate * burst)
def Shape.refill (cir pir burst : Nat) (b : Shape) : Shape := ⟨refillLevel cir burst b.cir, refillLevel pir burst b.pir⟩

/-- The valid leaves and the leaves that still drain (R339). -/
def State.liveLeaves (s : State) : List Nat :=
  (((s.fab.tabIndices pgTmgr false 4).filter fun l => leafValid (s.tab pgTmgr 4 l)) ++ s.tmgr.ghosts.keys
    ++ s.pol.rates.keys.map fun k => 16368 + k).uniq
def State.liveSvcs (s : State) : List Nat := (s.fab.tabIndices pgTmgr false 5).filter fun n => svcValid (s.svcEntry n)

/-- Every bucket of a shaper gains one microsecond (R333), every root its rate (R334), and every express window moves on (R336). -/
def State.refillShapers (s : State) : State :=
  let burst := s.get pgTmgr F.TMGR_CFG_SHAPE_BURST_US
  let win := s.get pgTmgr F.TMGR_EXP_EXP_WINDOW_US
  let leaf := fun adm (m : SMap Shape) => s.liveLeaves.foldl (fun (m : SMap Shape) l =>
    m.modify l {} (Shape.refill (s.leafCir adm l) (s.leafPir adm l) burst)) m
  s.onTmgr fun t => { t with
    egrShape := leaf false t.egrShape
    admShape := leaf true t.admShape
    svcShape := s.liveSvcs.foldl (fun m n => m.modify n {} (Shape.refill (svcCir (s.svcEntry n)) (svcPir (s.svcEntry n)) burst)) t.svcShape
    roots := (List.range 68).foldl (fun m r => m.modify r {} fun v => { v with
      level := match s.rootLimit r with
        | some rate => refillLevel rate 1 v.level
        | none => 0
      window := if v.window.all fun x => decide (x = 0) then [] else (0 :: v.window).take win }) t.roots }

/-- The root's own rate admits more work (R334). -/
def State.rootOpen (s : State) (r : Nat) : Bool :=
  match s.rootLimit r with
  | some _ => decide (0 < (s.root r).level)
  | none => true

/-- Background work of engine k on pool p that costs so many bytes (R338): what the pool node has admitted goes, else the work asks for
admission and waits. -/
def State.bgTake (p k bytes : Nat) (s : State) : Bool × State :=
  let l := bgLeaf p k
  let got := s.tmgr.bgGrant.get l 0
  if bytes ≤ got then (true, s.onTmgr fun t => { t with bgGrant := t.bgGrant.put l 0 (got - bytes) })
  else (false, s.onTmgr fun t => { t with bgWant := t.bgWant.set l bytes })
/-- The background work of a pool that asks: leaf and cost. -/
def State.bgHeads (s : State) (p : Nat) : Heads := s.tmgr.bgWant.list.filter fun e => decide ((e.1 - 16368) / 4 = p)
/-- The pool node selects background work (R338). -/
def State.bgAdmit (leaf bytes : Nat) (s : State) : State :=
  (s.onTmgr fun t => { t with bgWant := t.bgWant.erase leaf, bgGrant := t.bgGrant.put leaf 0 (t.bgGrant.get leaf 0 + bytes) }).count E.TMGR_BG_ADM_BYTES bytes

/-! ### Samples (R340 to R342) -/

def minSince (l : List Nat) (now : Nat) : Nat := match l with
  | [] => 0
  | x :: r => min 0xFFFFFFFF ((now - r.foldl min x) / 2)

def Sample.take (egrDepth egrDelay admDepth admDelay : Nat) (m : Sample) : Sample :=
  { egrDepth := egrDepth, egrDelay := egrDelay, admDepth := admDepth, admDelay := admDelay
    egrDepthMax := max m.egrDepthMax egrDepth, egrDelayMax := max m.egrDelayMax egrDelay
    admDepthMax := max m.admDepthMax admDepth, admDelayMax := max m.admDelayMax admDelay }

/-- Table 8.2. -/
def Sample.entry (m : Sample) : Nat :=
  m.egrDepth + m.egrDelay * 2 ^ 32 + m.egrDepthMax * 2 ^ 64 + m.egrDelayMax * 2 ^ 96 + m.admDepth * 2 ^ 128 + m.admDelay * 2 ^ 160
    + m.admDepthMax * 2 ^ 192 + m.admDelayMax * 2 ^ 224
/-- The read of R341 clears the four MAX fields. -/
def Sample.cleared (m : Sample) : Sample := { m with egrDepthMax := 0, egrDelayMax := 0, admDepthMax := 0, admDelayMax := 0 }

end Sys2Proof.Machine
end

