-- ==== Sys2Proof/Machine/LinkOps.lean ====
section
/-!
DEFINITION. The parts of State that the blocks change, and the frames that go to the partner (R628 to R632, R636, R760).
-/
namespace Sys2Proof.Machine
open Sys2Proof

def State.onXprt (g : XprtSt → XprtSt) (s : State) : State := { s with xprt := g s.xprt }
def State.onGard (g : GardSt → GardSt) (s : State) : State := { s with gard := g s.gard }
def State.onRegn (g : RegnSt → RegnSt) (s : State) : State := { s with regn := g s.regn }
def State.onCmdq (g : CmdqSt → CmdqSt) (s : State) : State := { s with cmdq := g s.cmdq }
def State.onPair (g : PairSt → PairSt) (s : State) : State := { s with pair := g s.pair }

/-- An unlisted context is FREE, with the incarnation that contexts start with. -/
def XprtSt.blank (x : XprtSt) : Ctx := { incarnation := x.baseInc }
/-- A connection context (Table 4.6). -/
def State.ctx (s : State) (i : Nat) : Ctx := s.xprt.ctx.get i s.xprt.blank

/-! ### Frames to the partner (R636) -/

/-- The active's partner is present: paired mode in force. -/
def State.mirroring (s : State) : Bool :=
  decide (s.get pgPair F.PAIR_STAT_ROLE = 6) && decide (s.get pgPair F.PAIR_STAT_PARTNER = 2)
/-- The partner joins: synchronisation runs (R625, R762). -/
def State.syncing (s : State) : Bool :=
  decide (s.get pgPair F.PAIR_STAT_ROLE = 6) && decide (s.get pgPair F.PAIR_STAT_PARTNER = 1)
/-- Lane groups that carry frames: at least four lanes up (R632). -/
def State.groupsUp (s : State) : List Nat := (List.range 4).filter fun g =>
  decide (4 ≤ ((List.range 6).filter fun i => s.pair.lanesUp.contains (6 * g + i)).length)
/-- The lane group of a connection or a chunk (R631). -/
def State.groupFor (s : State) (n : Nat) : Nat := s.groupsUp.getD (n % max 1 s.groupsUp.length) 0
/-- The group that a connection's or a chunk's next frame takes: it moves only once none of its frames is unconfirmed (R631). -/
def State.linkGroup (s : State) (key : Nat) : Option Nat :=
  if s.groupsUp.isEmpty then none
  else match s.pair.sent.find? fun f => decide (f.key = key) with
    | some f => if s.groupsUp.contains f.group then some f.group else none
    | none => some (s.groupFor key)
/-- The priority of a frame outside synchronisation (R629). -/
def State.streamPrio (s : State) (key : Nat) : MirrorItem → Nat
  | .regionWrite _ => if leafExpress (s.leafEntry (s.leafOf (s.ctx key).id.tport)) then 0 else 1
  | .horizon _ _ _ => 0
  | .checkpoint _ => 2
  | .accumulators => 2
  | .meter _ => 2
  | .meterAck _ => 2
  | .health => 2
  | _ => 1
/-- The priority of a frame: what goes out while the partner joins is synchronisation (R629, R762). -/
def State.framePrio (s : State) (key : Nat) (item : MirrorItem) : Nat := if s.syncing then 3 else s.streamPrio key item
/-- The payload bytes of a frame, where the spec gives them. -/
def State.frameBytes (s : State) : MirrorItem → Option Nat
  | .regionWrite id => (s.regn.writes.find? fun w => decide (w.id = id)).map fun w => w.data.len
  | .journal h => (s.jrnl.recs.vals.find? fun r => decide (r.chunk * 2 ^ 22 + r.place = h)).map fun r => 256 + if r.type = 1 then r.len else 0
  | .checkpoint _ => some 192
  | .health => some 64
  | .regionPage _ => some 4096
  | _ => none
/-- Bytes on the link: a header for each frame of at most 4,096 payload bytes (R628); a payload whose length the spec does not give has
a free length. -/
def State.linkBytes (item : MirrorItem) (s : State) : Nat × State := match s.frameBytes item with
  | some n => (n + 32 * max 1 ((n + 4095) / 4096), s)
  | none => let r := s.draw; (r.1 + 32, r.2)
/-- The payload within those bytes. -/
def State.payloadOf (s : State) (item : MirrorItem) (n : Nat) : Nat := (s.frameBytes item).getD (n - 32)
/-- The frame that leaves next: the first of the highest priority whose group is up and has fewer than 256 frames outstanding (R628,
R629). -/
def State.nextFrame (s : State) : Option (LinkWork × Nat) :=
  (List.range 4).findSome? fun p => s.pair.waiting.findSome? fun w =>
    if w.prio ≠ p then none
    else match s.linkGroup w.key with
      | some g => if (s.pair.unacked.filter fun e => decide (e.1 = g)).length < 256 then some (w, g) else none
      | none => none
/-- Remove the first element equal to x. -/
def removeFirst {α : Type} [DecidableEq α] (x : α) : List α → List α
  | [] => []
  | y :: r => if x = y then r else y :: removeFirst x r
/-- Frames leave while the link takes them. -/
def State.pump : Nat → State → State
  | 0, s => s
  | fuel + 1, s => match s.nextFrame with
    | none => s
    | some (w, g) =>
      let q := s.pair.nextSeq.get g 0
      let n := s.linkBytes w.item
      let s1 := n.2.onPair fun p => { p with
        waiting := removeFirst w p.waiting, sent := p.sent ++ [⟨g, q, w.key, w.prio, w.item⟩], unacked := p.unacked ++ [(g, q)]
        nextSeq := p.nextSeq.put g 0 ((q + 1) % 2 ^ 32) }
      State.pump fuel ((((s1.emit (.mirrorFrame g q w.item)).count E.PAIR_TX_BYTES n.1).when (decide (w.prio = 0))
        (State.count E.PAIR_EXP_FRAMES 1)).when (decide (w.prio = 3)) (State.count E.PAIR_SYNC_BYTES (s.payloadOf w.item n.1)))
/-- Send one mirrored item to the partner, keyed to a group by its connection or chunk number. -/
def State.mirror (key : Nat) (item : MirrorItem) (s : State) : State :=
  (s.onPair fun p => { p with waiting := p.waiting ++ [⟨key, s.framePrio key item, item⟩] }).pump (s.pair.waiting.length + 1)
/-- A frame of the item has not been confirmed. -/
def State.awaits (s : State) (item : MirrorItem) : Bool :=
  s.pair.waiting.any (fun w => decide (w.item = item)) || s.pair.sent.any fun f => decide (f.item = item)
/-- Send it where the partner is present or joins (R636, R762). -/
def State.mirrorIf (key : Nat) (item : MirrorItem) (s : State) : State := s.when (s.mirroring || s.syncing) (State.mirror key item)
/-- Send it where the partner joins: a change made while synchronisation runs (R762). -/
def State.syncIf (key : Nat) (item : MirrorItem) (s : State) : State := s.when s.syncing (State.mirror key item)

end Sys2Proof.Machine
end

