-- ==== Sys2Proof/Machine/XprtBase.lean ====
section
/-!
DEFINITION. Connection contexts, their cache, the sealing of packets, and ACKs and NAKs
(chapters 04 and 05 of spec/).
-/
namespace Sys2Proof.Machine
open Sys2Proof

/-! ### PSNs (modulo 2^24) -/

def psnAdd (a n : Nat) : Nat := (a + n) % 2 ^ 24
def psnSub (a b : Nat) : Nat := (a + 2 ^ 24 - b % 2 ^ 24) % 2 ^ 24
/-- a stands below b, looking back at most half the space. -/
def psnBefore (a b : Nat) : Bool := decide (psnSub a b ≥ 2 ^ 23)
/-- How many packets carry n bytes at a path MTU. -/
def packetsOf (n mtu : Nat) : Nat := max 1 ((n + mtu - 1) / max 1 mtu)

/-! ### Contexts -/

/-- A context changes; a cached copy then differs from HBM (R164). -/
def State.setCtx (i : Nat) (c : Ctx) (s : State) : State :=
  s.onXprt fun x => { x with
    ctx := x.ctx.put i x.blank c
    cacheDirty := if x.cache.contains i then insertSorted i x.cacheDirty else x.cacheDirty }
def State.onCtx (i : Nat) (g : Ctx → Ctx) (s : State) : State := s.setCtx i (g (s.ctx i))
def State.onRx (i : Nat) (g : CtxRx → CtxRx) (s : State) : State := s.onCtx i fun c => { c with rx := g c.rx }
def State.onTx (i : Nat) (g : CtxTx → CtxTx) (s : State) : State := s.onCtx i fun c => { c with tx := g c.tx }
def State.onCtxId (i : Nat) (g : CtxId → CtxId) (s : State) : State := s.onCtx i fun c => { c with id := g c.id }
def State.onCtxStat (i : Nat) (g : CtxStat → CtxStat) (s : State) : State := s.onCtx i fun c => { c with st := g c.st }
def State.onSeal (i : Nat) (g : CtxSeal → CtxSeal) (s : State) : State := s.onCtx i fun c => { c with sl := g c.sl }

/-- The device-side queue pair number (R128). -/
def State.qpn (s : State) (i : Nat) : Nat := (s.ctx i).incarnation * 2 ^ 16 + i
def Ctx.mtu (c : Ctx) : Nat := match c.id.pmtu with
  | 1 => 1024
  | 2 => 2048
  | _ => 4096
def Ctx.isFree (c : Ctx) : Bool := decide (c.state = .free)
/-- Contexts of a tenant that are not FREE (R174, table 3). -/
def State.connsOf (s : State) (tenant : Nat) : Nat := s.xprt.ctx.count fun _ c => !c.isFree && decide (c.id.tenant = tenant)

/-- The status registers of XPRT and `SEAL_STAT` after a change (Tables 4.11, 5.9). -/
def State.syncXprt (s : State) : State :=
  let occ := s.xprt.missq.length
  (((((s.setF pgXprt F.XPRT_STAT_CONNS (s.xprt.ctx.count fun _ c => !c.isFree)).setF pgXprt F.XPRT_CACHE_STAT_PINNED
    (s.xprt.ctx.count fun _ c => !c.isFree && c.id.pinned)).setF pgXprt F.XPRT_CACHE_STAT_CACHED s.xprt.cache.length).setF pgXprt
    F.MISSQ_STAT_OCC occ).setF pgXprt F.MISSQ_STAT_MAX (max occ (s.get pgXprt F.MISSQ_STAT_MAX))).setF pgSeal
    F.SEAL_STAT_SEALED_CONNS (s.xprt.ctx.count fun _ c => !c.isFree && c.id.sealed)

/-! ### The context cache (R163 to R171) -/

def State.cached (s : State) (i : Nat) : Bool := s.xprt.cache.contains i
/-- Make a cached context the most recently used. -/
def State.touch (i : Nat) (s : State) : State :=
  s.onXprt fun x => { x with cache := i :: x.cache.filter fun j => decide (j ≠ i) }
/-- The least recently used context that may be evicted (R164). -/
def State.cacheVictim (s : State) : Option Nat :=
  s.xprt.cache.reverse.find? fun i =>
    !(s.ctx i).id.pinned && !(s.xprt.missq.any fun q => decide (q.ctx = i)) && !(s.gard.keyWaits.any fun w => decide (w.ctx = i))
      && !s.xprt.fetching.contains i
/-- A victim leaves the cache, written back where its copy differs (R164). -/
def State.evictCtx (v : Nat) (s : State) : State :=
  (s.when (s.xprt.cacheDirty.contains v) (State.count E.XPRT_CTX_WRITEBACK 1)).onXprt fun x => { x with
    cache := x.cache.filter fun j => decide (j ≠ v)
    cacheDirty := x.cacheDirty.filter fun j => decide (j ≠ v) }
/-- Room in the cache for one more context: by eviction if need be; false where nothing may leave. -/
def State.cacheRoom (s : State) : Bool × State :=
  if s.xprt.cache.length < 8192 then (true, s)
  else match s.cacheVictim with
    | some v => (true, s.evictCtx v)
    | none => (false, s)
/-- A fetch begins where none is in progress: a victim leaves, or the fetch waits until one may (R164). -/
def State.startFetch (i : Nat) (s : State) : State :=
  if s.xprt.fetching.contains i then s
  else ((s.cacheRoom).2.onXprt fun x => { x with fetching := x.fetching ++ [i] }).syncXprt
/-- A checkpoint read uses a context: a hit, or a fetch by the separate path of R171. -/
def State.acquire (i : Nat) (s : State) : State :=
  if s.cached i then (s.touch i).count E.XPRT_CTX_HIT 1 else s.when (!(s.ctx i).isFree) (State.startFetch i)
/-- A timer or egress work uses a context (R163, R171): at once on a hit; else once its fetch by the separate path has completed. -/
def State.useCtx (i : Nat) (j : CtxJob) (k : State → State) (s : State) : State :=
  if s.cached i then k ((s.touch i).count E.XPRT_CTX_HIT 1)
  else (s.startFetch i).onXprt fun x => if x.jobs.contains (i, j) then x else { x with jobs := x.jobs ++ [(i, j)] }

/-! ### Sealing (R194 to R204) -/

def State.keySlot (s : State) (i : Nat) (k : Bool) : KeySlot := s.gard.slots.get (2 * i + boolNat k) {}
def State.setKeySlot (i : Nat) (k : Bool) (v : KeySlot) (s : State) : State :=
  s.onGard fun g => { g with slots := g.slots.put (2 * i + boolNat k) {} v }

/-- The syndrome of an AETH. -/
def aethCode : Aeth → Nat
  | .ack => 0x1F
  | .seqNak => 0x60
  | .invalidNak => 0x61
  | .accessNak => 0x62
  | .opNak => 0x63
  | .rnr t => 0x20 + t % 32
/-- The BTH of a packet, byte by byte; its reserved bits are 0. -/
def bthBytes (opcode b1 pkey qpn : Nat) (ackReq : Bool) (psn : Nat) : List Nat :=
  [opcode, b1] ++ netBytes 2 pkey ++ [0] ++ netBytes 3 qpn ++ [128 * boolNat ackReq] ++ netBytes 3 psn
/-- The headers that opcodes have beside the BTH (Table 4.1): RETH, ImmDt, AETH. -/
def hasReth (op : Nat) : Bool := decide (op = 0x06 ∨ op = 0x0A ∨ op = 0x0B ∨ op = 0x0C)
def hasImm (op : Nat) : Bool := decide (op = 0x09 ∨ op = 0x0B)
def hasAeth (op : Nat) : Bool := decide (op = 0x0D ∨ op = 0x0F ∨ op = 0x10 ∨ op = 0x11)
def extBytes (op va rkey dmaLen imm syndrome msn : Nat) : List Nat :=
  (if hasReth op then netBytes 8 va ++ netBytes 4 rkey ++ netBytes 4 dmaLen else []) ++ (if hasImm op then netBytes 4 imm else [])
    ++ (if hasAeth op then syndrome :: netBytes 3 msn else [])
/-- Pad bytes that bring a payload to a multiple of four, and byte 1 of the BTH that says so. -/
def padOf (len : Nat) : Nat := (4 - len % 4) % 4
def outBth1 (len : Nat) : Nat := 0x40 + 16 * padOf len
/-- The additional data of R194: BTH with RETH, AETH and ImmDt. -/
def packetAad (p : Packet) : List Nat :=
  bthBytes p.opcode p.bth1 p.pkey p.qpn p.ackReq p.psn
    ++ extBytes p.opcode p.va p.rkey p.dmaLen p.imm (if p.aeth = .ack then p.credit else aethCode p.aeth) p.msn
def outAad (p : OutPkt) (qpn : Nat) : List Nat :=
  bthBytes p.opcode (outBth1 p.payload.len) 0xFFFF qpn p.ackReq p.psn ++ extBytes p.opcode p.va p.rkey p.dmaLen p.imm (aethCode p.aeth) p.msn

/-- The nonce of R195, as a little-endian number of 12 bytes: the four bytes of the salt, then CTR in eight bytes of network order. -/
def sealNonce (salt ctr : Nat) : Nat := salt + toNet 8 ctr * 2 ^ 32

/-- The send side takes a ready slot once TX_CTR has reached 2^REKEY_LOG2, or goes on late (R203); at 2^40 it may not go on (R204). -/
def State.rekeyTx (i : Nat) (s : State) : State :=
  let c := s.ctx i
  let other := (s.keySlot i (!c.sl.keySlot)).tx
  if c.sl.txCtr < 2 ^ s.get pgSeal F.SEAL_CFG_REKEY_LOG2 then s
  else if other.ready && decide (other.epoch = (s.keySlot i c.sl.keySlot).tx.epoch + 1) then
    (s.onSeal i fun l => { l with keySlot := !l.keySlot, txCtr := 0, rekeyDue := false }).count E.GARD_REKEY_TX 1
  else
    (s.when (!c.sl.rekeyDue) fun t => (t.onSeal i fun l => { l with rekeyDue := true }).occur S.GARD_REKEY_LATE).when
      (decide (2 ^ 40 ≤ c.sl.txCtr)) fun t => t.onXprt fun x => { x with spent := insertSorted i x.spent }

/-- The next packet sent, sealed under the next counter (R194, R199), and the switch that its counter brings (R203); none where the
counter is spent (R204). -/
def State.sealPkt (i : Nat) (p : OutPkt) (s : State) : Option (OutPkt × Option SealTrailer) × State :=
  let c := s.ctx i
  if !c.id.sealed then (some (p, none), s)
  else if 2 ^ 40 ≤ c.sl.txCtr then (none, s)
  else
    let half := (s.keySlot i c.sl.keySlot).tx
    let nonce := sealNonce c.sl.saltTx c.sl.txCtr
    let n := p.payload.len
    let aad := outAad p c.id.remoteQpn
    let text := gcmCrypt half.key nonce (n + padOf n) p.payload.val
    let tag := gcmTag half.key nonce aad.length (ofBytes aad) (n + padOf n) text
    (some ({ p with payload := ⟨n, bytesAt text 0 n⟩, pad := bytesAt text n (padOf n) }, some ⟨c.sl.keySlot, c.sl.txCtr, tag⟩),
      ((s.onSeal i fun l => { l with txCtr := l.txCtr + 1 }).count E.GARD_SEAL_PKTS 1).rekeyTx i)

/-- What opening a received packet came to. -/
inductive Opened
  | ok (pkt : Packet) | drop | limit

/-- The packet opens under a half with a salt. -/
def sealedLen (p : Packet) : Nat := p.payload.len + bitsOf p.bth1 4 2
def sealedText (p : Packet) : Nat := bytesAt p.payload.val 0 p.payload.len + bytesAt p.pad 0 (bitsOf p.bth1 4 2) * 2 ^ (8 * p.payload.len)
def opens (half : SealHalf) (salt : Nat) (p : Packet) (t : SealTrailer) : Bool :=
  let aad := packetAad p
  half.ready && decide (t.ctr < 2 ^ 40)
    && decide (gcmTag half.key (sealNonce salt t.ctr) aad.length (ofBytes aad) (sealedLen p) (sealedText p) = t.tag)
def plain (half : SealHalf) (salt : Nat) (p : Packet) (t : SealTrailer) : Packet :=
  { p with payload := ⟨p.payload.len, bytesAt (gcmCrypt half.key (sealNonce salt t.ctr) (sealedLen p) (sealedText p)) 0 p.payload.len⟩, pad := 0 }

/-- FAILS of a receive half rises, up to the limit (R202). -/
def State.openFail (i : Nat) (k : Bool) (s : State) : Opened × State :=
  let v := s.keySlot i k
  let n := min 255 (v.rx.fails + 1)
  let s1 := (s.setKeySlot i k { v with rx := { v.rx with fails := n } }).count E.GARD_SEAL_AUTH_FAIL 1
  if s.get pgSeal F.SEAL_CFG_SEAL_FAIL_LIMIT ≤ n then (.limit, s1.occur S.GARD_SEAL_FAIL) else (.drop, s1)

/-- Open a received packet of a connection (R200 to R204). -/
def State.openPkt (i : Nat) (p : Packet) (s : State) : Opened × State :=
  let c := s.ctx i
  if !c.id.sealed then (.ok p, s)
  else match p.trailer with
    | none => s.openFail i c.sl.rxPhase
    | some t =>
      let cur := s.keySlot i c.sl.rxPhase
      let oth := s.keySlot i (!c.sl.rxPhase)
      if t.phase = c.sl.rxPhase then
        if !opens cur.rx c.sl.saltRx p t then s.openFail i c.sl.rxPhase
        else if c.sl.rxSeen && decide (t.ctr ≤ c.sl.rxCtr) then (.drop, s.count E.GARD_SEAL_REPLAY 1)
        else
          (.ok (plain cur.rx c.sl.saltRx p t), (((s.setKeySlot i c.sl.rxPhase { cur with rx := { cur.rx with fails := 0 } }).onSeal i
            fun l => { l with rxSeen := true, rxCtr := t.ctr }).count E.GARD_OPEN_PKTS 1))
      else if oth.rx.ready && decide (oth.rx.epoch = cur.rx.epoch + 1) then
        if opens oth.rx c.sl.saltRx p t then
          (.ok (plain oth.rx c.sl.saltRx p t), ((((s.setKeySlot i (!c.sl.rxPhase) { oth with rx := { oth.rx with fails := 0 } }).onSeal i
            fun l => { l with rxPhase := !l.rxPhase, rxSeen := true, rxCtr := t.ctr }).count E.GARD_OPEN_PKTS 1).count E.GARD_REKEY_RX 1))
        else s.openFail i (!c.sl.rxPhase)
      else if decide (oth.rx.epoch + 1 = cur.rx.epoch) then (.drop, s.count E.GARD_SEAL_REPLAY 1)
      else s.openFail i (!c.sl.rxPhase)

/-- The Vat port by which a connection's packets enter and leave (R92): the port's group, or on an eight-lane port that of QPN bit 0. -/
def State.vatPort (s : State) (i port : Nat) : Nat :=
  port / 4 + match s.port port with
    | some v => if v.lanes.length = 8 then i % 2 else 0
    | none => 0

/-! ### What leaves at once: ACK, NAK and CNP (R337) -/

def portEct (s : State) (port : Nat) : Nat := s.get (pgGrp (port / 4)) F.ECN_CFG_ECT_TX

/-- Bytes of a frame that carries a packet (R96): Ethernet with its tag, IP, UDP, BTH, the extension headers, the payload padded to
four bytes, the seal trailer, ICRC and FCS. -/
def frameLen (tagged ipv6 sealed : Bool) (ext payload : Nat) : Nat :=
  14 + (if tagged then 4 else 0) + (if ipv6 then 40 else 20) + 8 + 12 + ext + (payload + 3) / 4 * 4 + (if sealed then 24 else 0) + 4 + 4
/-- Bytes of the extension headers of an opcode: RETH 16, AETH 4, ImmDt 4. -/
def extLen (opcode : Nat) : Nat :=
  (if hasReth opcode then 16 else 0) + (if hasImm opcode then 4 else 0) + (if hasAeth opcode then 4 else 0)
def State.pktLen (s : State) (i : Nat) (p : OutPkt) : Nat :=
  let c := s.ctx i
  frameLen (tpVlanEn (s.fab.tport c.id.tport)) c.id.ipv6 c.id.sealed (extLen p.opcode) p.payload.len

/-- The headers of a RoCEv2 packet from a tenant port on an Ethernet port (R99, R103, R104, R110). -/
def State.netHdr (s : State) (tport port : Nat) (ipv6 : Bool) (dstMac dstIp sport : Nat) : NetHdr :=
  let e := s.fab.tport tport
  { eth := ⟨dstMac, s.fab.portMac false port, tpTag e⟩, ipv6 := ipv6, srcIp := if ipv6 then tpIp6 e else tpIp4 e, dstIp := dstIp
    dscp := tpDscp e, ecn := portEct s port, sport := sport, udpSum := ipv6 }
def State.ctxHdr (s : State) (i port : Nat) : NetHdr :=
  let c := (s.ctx i).id
  s.netHdr c.tport port c.ipv6 c.remoteMac c.remoteIp c.udpSport
/-- The priority of a connection's frames; untagged ones carry none (R107). -/
def State.ctxPcp (s : State) (i : Nat) : Option Nat := (tpTag (s.fab.tport (s.ctx i).id.tport)).map Prod.snd

/-- A frame leaves, a PTP event message with its timestamp (R114); a short one is padded to 64 bytes (R96). -/
def State.frameOut (f : HeldFrame) (s : State) : State :=
  let len := max 64 f.len
  let s0 := match f.out with
    | .ptpDelayReq _ _ _ _ _ => s.onPtp fun p => { p with txStamp := s.timeNs }
    | _ => s
  let s1 := (s0.emit f.out).txFrame (f.port / 4) len
  match f.ctx with
  | some i => (s1.count E.XPRT_TX_PKTS 1).onCtxStat i fun st => { st with
      txPkts := (st.txPkts + 1) % 2 ^ 64, txBytes := (st.txBytes + len) % 2 ^ 64 }
  | none => s1
/-- LINE has a frame to send: discarded on a port that is down, with a connection's packets counted (R105); never sent above MAX_FRAME
(R96); held while its priority is paused (R107). A standby transmits nothing (R647). -/
def State.lineSend (f : HeldFrame) (s : State) : State :=
  if s.get pgPair F.PAIR_STAT_ROLE = 4 then s
  else if !s.portUp f.port then s.when f.conn (State.count (E.LINE_TX_PORT_DOWN.on (f.port / 4)) 1)
  else if s.get (pgGrp (f.port / 4)) F.GRP_CFG_MAX_FRAME < f.len then s
  else if s.paused f.port f.pcp then s.onLine fun l => { l with held := l.held ++ [f] }
  else s.frameOut f
/-- Held frames that no pause holds any more leave in order (R107). -/
def State.releaseHeld (s : State) : State :=
  let stays := fun (f : HeldFrame) => s.portUp f.port && s.paused f.port f.pcp
  (s.line.held.filter fun f => !stays f).foldl (fun t f => t.lineSend f) (s.onLine fun l => { l with held := l.held.filter stays })

/-- A packet leaves on the connection's port (R104, R105). -/
def State.transmit (i port : Nat) (p : OutPkt) (t : Option SealTrailer) (s : State) : State :=
  s.lineSend ⟨port, s.ctxPcp i, s.pktLen i p, some i, true, .packet i port (s.ctxHdr i port) p t⟩

/-- Seal and transmit a packet that bypasses the tree (R337). -/
def State.sendNow (i : Nat) (p : OutPkt) (s : State) : State :=
  let r := s.sealPkt i p
  match r.1 with
  | some (q, t) => r.2.transmit i (s.ctx i).id.egressPort q t
  | none => r.2

/-- Bytes of a connection management message (R133). PRESUMED (log entry 25): a MAD of 256 bytes after BTH and DETH. -/
def cmLen (tagged ipv6 : Bool) : Nat := frameLen tagged ipv6 false 8 256
/-- A connection management message leaves on a port. -/
def State.sendCm (port : Nat) (h : NetHdr) (o : Emit) (s : State) : State :=
  s.lineSend ⟨port, h.eth.tag.map Prod.snd, cmLen h.eth.tag.isSome h.ipv6, none, true, o⟩
/-- A connection's own, on its egress port. -/
def State.cmOn (i : Nat) (o : Nat → NetHdr → Emit) (s : State) : State :=
  let p := (s.ctx i).id.egressPort
  s.sendCm p (s.ctxHdr i p) (o p (s.ctxHdr i p))

/-- An ACK or NAK leaves. -/
def State.sendReply (i : Nat) (r : Reply) (s : State) : State :=
  let s1 := s.sendNow i { opcode := 0x11, psn := r.psn, aeth := r.aeth, msn := r.msn }
  let s2 := match r.aeth with
    | .ack => s1.count E.XPRT_ACK_TX 1
    | .seqNak => s1.count E.XPRT_NAK_SEQ_TX 1
    | .invalidNak => s1.count E.XPRT_NAK_INV_TX 1
    | .accessNak => s1.count E.XPRT_NAK_ACC_TX 1
    | .opNak => s1.count E.XPRT_NAK_OP_TX 1
    | .rnr _ => s1
  if r.aeth = .ack then s2.onRx i fun x => { x with lastAckPsn := r.psn, unacked := min x.unacked (x.seen - r.seen) } else s2

/-- Every received packet that the reply covers is in custody (R377). -/
def CtxRx.inCustody (x : CtxRx) (r : Reply) : Bool := x.inVat.all fun e => !psnBefore e.2 r.epsn
/-- The standby has confirmed the horizon that the reply covers (R636). -/
def CtxRx.horizonCovers (x : CtxRx) (r : Reply) : Bool := match x.horizonOk with
  | some h => !psnBefore h r.epsn
  | none => false

/-- An access before the reply's end still waits for its key entry: what it will be answered with is not known yet (R185). -/
def State.checkWaits (s : State) (i : Nat) (r : Reply) : Bool :=
  s.gard.keyWaits.any fun w => decide (w.ctx = i ∧ w.what ≠ .flush) && psnBefore w.psn r.epsn

/-- Held replies leave in order, each once its packets are in custody and, in paired mode, its horizon is confirmed; a horizon record is
sent for the first that lacks one (R377, R636). None leaves while the page is not ON or DRAINING (R759). -/
def State.releaseReplies (i : Nat) : Nat → State → State
  | 0, s => s
  | fuel + 1, s =>
    let x := (s.ctx i).rx
    match x.replies with
    | [] => s
    | r :: rest =>
      if !x.inCustody r || !s.isLive pgXprt || s.checkWaits i r then s
      else if s.mirroring && !x.horizonCovers r then
        if x.horizonSent = some x.epsn then s
        else (((s.mirror i (.horizon i x.epsn x.msn)).onRx i fun y => { y with horizonSent := some y.epsn }).count E.PAIR_ACK_HELD 1)
      else State.releaseReplies i fuel ((s.onRx i fun y => { y with replies := rest }).sendReply i r)

/-- Ask for an ACK or NAK. -/
def State.reply (i : Nat) (aeth : Aeth) (psn : Nat) (s : State) : State :=
  let x := (s.ctx i).rx
  let s1 := s.onRx i fun y => { y with replies := y.replies ++ [⟨aeth, psn, x.msn, x.epsn, x.seen⟩] }
  State.releaseReplies i (x.replies.length + 1) s1
/-- An ACK carrying the current MSN and EPSN − 1 (R145). -/
def State.ack (i : Nat) (s : State) : State := s.reply i .ack (psnSub (s.ctx i).rx.epsn 1)

/-- R154: a CNP for a congestion-experienced packet, at most one in CNP_INTERVAL. PRESUMED (log entry 25): its payload is 16 bytes of 0. -/
def State.maybeCnp (i : Nat) (ce : Bool) (s : State) : State :=
  let c := s.ctx i
  if ce && (!c.tx.cnpSent || decide (s.get pgXprt F.XPRT_RC3_CNP_INTERVAL ≤ s.nowUs - c.tx.lastCnpTx)) then
    ((s.onTx i fun t => { t with cnpSent := true, lastCnpTx := s.nowUs }).sendNow i { opcode := 0x81, psn := 0, payload := ⟨16, 0⟩ }).count E.XPRT_CNP_TX 1
  else s

/-! ### The other side's packets -/

/-- R104: the connection's packets go where its most recent valid packet came from. -/
def State.learnPath (i : Nat) (rx : RxMeta) (len : Nat) (s : State) : State :=
  s.onCtx i fun c => { c with
    id := { c.id with remoteMac := rx.srcMac, egressPort := rx.port }
    st := { c.st with rxPkts := (c.st.rxPkts + 1) % 2 ^ 64, rxBytes := (c.st.rxBytes + len) % 2 ^ 64 } }

/-- The context a packet names, where it names one (R129). -/
def State.ctxFor (s : State) (rx : RxMeta) (qpn : Nat) : Option Nat :=
  let i := qpn % 2 ^ 16
  let c := s.ctx i
  if c.isFree ∨ c.incarnation ≠ qpn / 2 ^ 16 ∨ c.id.tport ≠ rx.tport then none else some i

end Sys2Proof.Machine
end

