-- ==== Sys2Proof/Machine/KeyOps.lean ====
section
/-!
DEFINITION. Region keys: the table, the check, the failure log, retirement, and the changes that wait for the partner (chapter 05 of
spec/).
-/
namespace Sys2Proof.Machine
open Sys2Proof

/-- What an access asks of a key (R184). -/
inductive KeyUse
  | write | writeImm | read | flush
deriving DecidableEq, Repr

def State.key (s : State) (i : Nat) : KeyEnt := s.gard.keys.get i {}
def State.setKey (i : Nat) (k : KeyEnt) (s : State) : State := s.onGard fun g => { g with keys := g.keys.put i {} k }
/-- `KEY_STAT.VALID_KEYS` after a change. -/
def State.syncKeys (s : State) : State :=
  s.setF pgKeys F.KEY_STAT_VALID_KEYS (s.gard.keys.count fun _ k => decide (k.state ≠ 0))
/-- KEYS of a region (Table 7.1). -/
def State.keysOf (s : State) (region : Nat) : Nat := s.gard.keys.count fun _ k => decide (k.state ≠ 0 ∧ k.region = region)
def State.region (s : State) (i : Nat) : RegionEnt := s.regn.regions.get i {}

/-- The rights an access needs: READ 1, WRITE 2, WRITE_IMM 4, FLUSH 8 (Table 5.1). -/
def KeyUse.need : KeyUse → Nat
  | .write => 2 | .writeImm => 6 | .read => 1 | .flush => 8
def hasRights (rights need : Nat) : Bool := (List.range 4).all fun i => !bitAt need i || bitAt rights i

/-- What a key check came to: the index, or the failing step of Table 5.4. -/
inductive KeyRes
  | pass (index : Nat) | fail (step : Nat)
deriving DecidableEq, Repr

/-- The procedure of R184, without its effects. While GARD instance 0 is not ON every check fails at the VALID step. -/
def State.keyCheck (s : State) (key : Nat) (op : KeyUse) (va len tenant qpn : Nat) : KeyRes :=
  let idx := key / 256
  let e := s.key idx
  if idx = 0 ∨ 1048576 ≤ idx then .fail 1
  else if e.state ≠ 1 ∨ e.bad ∨ !s.isOn pgKeys then .fail 2
  else if e.gen ≠ key % 256 then .fail 3
  else if e.tenant ≠ tenant ∨ (e.bindEn ∧ e.bindQpn ≠ qpn) then .fail 4
  else if !hasRights e.rights op.need then .fail 5
  else if e.length < va + len then .fail 6
  else .pass idx

/-- A passed check: the access is in flight (R182, R184). -/
def State.keyPass (idx : Nat) (s : State) : State :=
  (s.setKey idx { s.key idx with inflight := (s.key idx).inflight + 1 }).count E.GARD_KEY_PASS 1

def keyFailEvt : Nat → Evt
  | 1 => E.GARD_KEY_FAIL_RANGE
  | 2 => E.GARD_KEY_FAIL_VALID
  | 3 => E.GARD_KEY_FAIL_GEN
  | 4 => E.GARD_KEY_FAIL_TENANT
  | 5 => E.GARD_KEY_FAIL_RIGHTS
  | _ => E.GARD_KEY_FAIL_BOUNDS

/-- A failed check's event and log record (R186, R193, Table 5.4). -/
def State.keyFail (step key qpn opcode : Nat) (dup : Bool) (tenant va len : Nat) (s : State) : State :=
  let n := s.get pgKeys F.KEYLOG_STAT_NEXT
  let r := s.timeStamp + key % 2 ^ 32 * 2 ^ 64 + qpn % 2 ^ 24 * 2 ^ 96 + step * 2 ^ 120 + opcode * 2 ^ 128 + boolNat dup * 2 ^ 136
    + tenant * 2 ^ 144 + va % 2 ^ 64 * 2 ^ 160 + len % 2 ^ 32 * 2 ^ 224
  let wrapped := (s.gard.keyLog.find n).isSome || s.flag pgKeys F.KEYLOG_STAT_WRAPPED
  (((s.onGard fun g => { g with keyLog := g.keyLog.set n r }).setF pgKeys F.KEYLOG_STAT_NEXT ((n + 1) % 256)).setF pgKeys
    F.KEYLOG_STAT_WRAPPED (boolNat wrapped)).count (keyFailEvt step) 1

/-- An access ends (R182); a RETIRING key with none left becomes QUIET (Table 5.2). -/
def State.keyEnd (idx : Nat) (s : State) : State :=
  let k := s.key idx
  let n := k.inflight - 1
  s.setKey idx { k with inflight := n, state := if k.state = 2 ∧ n = 0 then 3 else k.state }

/-! ### The cache of keys (R185) -/

/-- An index that names no entry needs none; entries with PIN stay in the cache. -/
def State.keyHit (s : State) (idx : Nat) : Bool :=
  idx = 0 || decide (1048576 ≤ idx) || (s.key idx).pin || s.gard.keyCache.contains idx
/-- Entries with PIN that the cache holds (Table 5.1). -/
def State.pinnedKeys (s : State) : Nat := s.gard.keys.count fun _ e => decide (e.state ≠ 0) && e.pin
/-- The entry becomes the most recently used; entries with PIN and those used recently are 16,384 together (R178). -/
def State.keyTouch (idx : Nat) (s : State) : State :=
  if idx = 0 ∨ 1048576 ≤ idx ∨ (s.key idx).pin then s
  else s.onGard fun g => { g with keyCache := (idx :: g.keyCache.filter fun j => decide (j ≠ idx)).take (16384 - s.pinnedKeys) }

/-! ### Changes of the table (R179 to R181) -/

/-- A key entry from its 32 bytes (Table 5.1), GEN and INFLIGHT kept by hardware. -/
def keyOfBytes (x : Nat) (old : KeyEnt) : KeyEnt :=
  { base := bitsOf x 0 33, length := bitsOf x 64 32, region := bitsOf x 96 16, tenant := bitsOf x 112 12, rights := bitsOf x 128 4
    state := bitsOf x 136 2, bindEn := bitAt x 138, pin := bitAt x 139, gen := old.gen, bindQpn := bitsOf x 160 24
    inflight := old.inflight, bad := false }
def keyBytes (k : KeyEnt) : Nat :=
  k.base + k.length * 2 ^ 64 + k.region * 2 ^ 96 + k.tenant * 2 ^ 112 + k.rights * 2 ^ 128 + k.state * 2 ^ 136 + boolNat k.bindEn * 2 ^ 138
    + boolNat k.pin * 2 ^ 139 + k.gen * 2 ^ 144 + k.bindQpn * 2 ^ 160 + k.inflight * 2 ^ 192
/-- Some reserved bit of Table 5.1 is 1. -/
def keyReserved (x : Nat) : Bool :=
  decide (bitsOf x 33 31 ≠ 0 ∨ bitsOf x 124 4 ≠ 0 ∨ bitsOf x 132 4 ≠ 0 ∨ bitsOf x 140 4 ≠ 0 ∨ bitsOf x 152 8 ≠ 0 ∨ bitsOf x 184 8 ≠ 0 ∨
    bitsOf x 224 32 ≠ 0)

/-- GARD accepts a key-table write (R180). -/
def State.keyWriteOk (s : State) (idx x : Nat) : Bool :=
  let k := keyOfBytes x {}
  let r := s.region k.region
  decide (idx ≠ 0) && decide ((s.key idx).state = 0) && decide (k.state = 1) && !keyReserved x
    && decide (0 < k.length ∧ k.length ≤ 2 ^ 30)
    && decide (r.state = 1 ∧ r.tenant = k.tenant ∧ r.base ≤ k.base ∧ k.base + k.length ≤ r.base + r.size)
    && (!k.pin || decide (s.pinnedKeys < 4096))

/-- Apply a change of the key table in the cycle of its completion (R181). -/
def State.applyKeyChange (c : KeyChange) (s : State) : State :=
  match c with
  | .write idx x rq =>
    if s.keyWriteOk idx x then ((s.setKey idx (keyOfBytes x (s.key idx))).syncKeys).onFab (Fab.winDone pgKeys rq 0)
    else s.onFab (Fab.winDone pgKeys rq 3)
  | .retire idx =>
    let k := s.key idx
    let s1 := (s.setF pgKeys F.KEY_OP_STAT_BUSY 0)
    if k.state = 1 then
      let g := (k.gen + 1) % 256
      ((((s1.setKey idx { k with state := if k.inflight = 0 then 3 else 2, gen := g }).setF pgKeys F.KEY_OP_STAT_STATUS 0).setF pgKeys
        F.KEY_OP_STAT_NEW_GEN g).count E.GARD_KEY_RETIRE 1).syncKeys
    else s1.setF pgKeys F.KEY_OP_STAT_STATUS 1

def KeyChange.index : KeyChange → Nat
  | .write i _ _ => i
  | .retire i => i
/-- The change would take effect on the table as it stands. -/
def State.keyAccepts (s : State) : KeyChange → Bool
  | .write idx x _ => s.keyWriteOk idx x
  | .retire idx => decide ((s.key idx).state = 1)
/-- A change takes effect at once, or in paired mode once the partner holds it (R181); one that the table refuses goes nowhere. -/
def State.keyChange (idx : Nat) (c : KeyChange) (s : State) : State :=
  if s.mirroring && s.keyAccepts c then (s.onGard fun g => { g with keyChange := g.keyChange ++ [c] }).mirror 0 (.keyChange idx)
  else (s.applyKeyChange c).syncIf 0 (.tableEntry pgKeys.base 1 idx)

/-- The partner's confirmation of the oldest change (R181). -/
def State.keyConfirm (s : State) : State :=
  match s.gard.keyChange with
  | [] => s
  | c :: rest =>
    let s1 := (s.onGard fun g => { g with keyChange := rest }).applyKeyChange c
    if s.keyAccepts c then s1 else s1.mirrorIf 0 (.tableEntry pgKeys.base 1 c.index)

end Sys2Proof.Machine
end

