-- ==== Sys2Proof/Machine/RegnOps.lean ====
section
/-!
DEFINITION. Persistent regions: the region memory, placement in order, PLACE-FLUSH, notifications and the region table (chapter 07 of
spec/).
-/
namespace Sys2Proof.Machine
open Sys2Proof

/-! ### The region space (R273): an unlisted byte reads 0 -/

def memRead (m : SMap Byte) (a : Nat) : Byte := m.get a 0
/-- `n` bytes from an address, as a little-endian number. -/
def memBytes (m : SMap Byte) (a n : Nat) : Nat := ofBytes ((List.range n).map fun i => (memRead m (a + i)).toNat)
/-- Write bytes from an address on. -/
def memWrite : List Nat → Nat → SMap Byte → SMap Byte
  | [], _, m => m
  | b :: bs, a, m => memWrite bs (a + 1) (m.put a 0 (BitVec.ofNat 8 b))
/-- Zero a range. -/
def memZero (a n : Nat) (m : SMap Byte) : SMap Byte := m.filter fun k _ => !decide (a ≤ k ∧ k < a + n)
/-- Equal contents are equal data: keys rise strictly and no listed byte is 0. -/
def memWf (m : SMap Byte) : Bool := m.wf fun _ => 0

/-! ### The region table -/

def State.setRegion (i : Nat) (r : RegionEnt) (s : State) : State := s.onRegn fun g => { g with regions := g.regions.put i {} r }
/-- `ACTIVE_REGIONS`, `PAGES_USED` after a change (Table 7.9). -/
def State.syncRegions (s : State) : State :=
  let live := s.regn.regions.filter fun _ r => decide (r.state ≠ 0)
  (s.setF pgRegn F.REGN_STAT_ACTIVE_REGIONS live.size).setF pgRegn F.REGN_SPACE_PAGES_USED ((live.vals.map fun r => r.size / 4096).sum)
/-- The region pages of a tenant. -/
def State.pagesOf (s : State) (tenant : Nat) : Nat :=
  ((s.regn.regions.filter fun _ r => decide (r.state ≠ 0 ∧ r.tenant = tenant)).vals.map fun r => r.size / 4096).sum

def regionOfBytes (x : Nat) (old : RegionEnt) : RegionEnt :=
  { base := bitsOf x 0 33, size := bitsOf x 64 32, tenant := bitsOf x 96 12, state := bitsOf x 112 2, writes := old.writes }
def regionReserved (x : Nat) : Bool :=
  decide (bitsOf x 33 31 ≠ 0 ∨ bitsOf x 108 4 ≠ 0 ∨ bitsOf x 114 6 ≠ 0 ∨ bitsOf x 124 4 ≠ 0 ∨ bitsOf x 148 12 ≠ 0 ∨ bitsOf x 224 32 ≠ 0)

def State.subKeys (s : State) (region : Nat) : List Nat := s.regn.subs.keys.filter fun k => decide (k / 8 = region)
/-- A region entry as table 1 shows it. -/
def State.regionBytes (s : State) (i : Nat) : Nat :=
  let r := s.region i
  r.base + r.size * 2 ^ 64 + r.tenant * 2 ^ 96 + r.state * 2 ^ 112 + (s.subKeys i).length * 2 ^ 120 + s.keysOf i * 2 ^ 128
    + r.writes % 2 ^ 64 * 2 ^ 160

/-- REGN accepts a region-table write (R275). -/
def State.regionWriteOk (s : State) (i x : Nat) : Bool :=
  let r := regionOfBytes x {}
  decide ((s.region i).state = 0) && decide (r.state = 1) && !regionReserved x
    && decide (r.base % 4096 = 0 ∧ r.size % 4096 = 0 ∧ 4096 ≤ r.size ∧ r.size ≤ 2 ^ 30 ∧ r.base + r.size ≤ 2 ^ 33)
    && s.regn.regions.all (fun _ e => decide (e.state = 0 ∨ r.base + r.size ≤ e.base ∨ e.base + e.size ≤ r.base))
    && decide (s.pagesOf r.tenant + r.size / 4096 ≤ bitsOf (s.tab pgRegn 3 r.tenant) 0 22)

/-- Egress work joins a connection's queue (R153). -/
def State.submit (i : Nat) (w : TxWork) (s : State) : State := s.onTx i fun t => { t with work := t.work ++ [w] }

/-! ### Control messages (Tables 7.3, 7.4) -/

/-- The header of Table 7.3. -/
def ctlHeader (op ver len tag : Nat) : Nat := op + ver * 2 ^ 8 + toNet 2 len * 2 ^ 16 + toNet 8 tag * 2 ^ 64
/-- A response, OP 0x81 to 0x84 or 0x80 plus a bad OP (Table 7.4). -/
def ctlResponse (op ver tag status : Nat) (solo : Bool) (nseq : Nat) : Blob :=
  ⟨32, ctlHeader op ver 32 tag + status * 2 ^ 128 + boolNat solo * 2 ^ 136 + toNet 8 nseq * 2 ^ 160⟩
/-- SUB_END (Table 7.4). -/
def subEnd (ver region subTag : Nat) : Blob :=
  ⟨32, ctlHeader 0x90 ver 32 0 + toNet 2 region * 2 ^ 128 + toNet 2 subTag * 2 ^ 144 + 2 ^ 160⟩
/-- A response goes out; the access `key` of a flush ends with it (R182). -/
def State.respondFor (i op tag status : Nat) (solo : Bool) (nseq : Nat) (key : Option Nat) (s : State) : State :=
  s.submit i (.send none key (ctlResponse op (s.ctx i).id.ocmVer tag status solo nseq))
def State.respond (i op tag status : Nat) (solo : Bool) (nseq : Nat) (s : State) : State := s.respondFor i op tag status solo nseq none
/-- An answer of 0x01 (R293). -/
def State.ctlProto (s : State) : State := (s.count E.REGN_CTL_INVALID 1).occur S.REGN_CTL_PROTO

/-- `REGN_FLUSH_STAT.WAITING` after a change: messages that await placement. -/
def State.syncFlushes (s : State) : State :=
  s.setF pgRegn F.REGN_FLUSH_STAT_WAITING (s.regn.flushes.filter fun f => f.refused.isNone && f.check.isNone).length

/-! ### Notifications (R304 to R309) -/

def State.sub (s : State) (i : Nat) : Option SubEnt := s.regn.subs.find i
def State.setSub (i : Nat) (e : SubEnt) (s : State) : State := s.onRegn fun g => { g with subs := g.subs.set i e }
def State.dropSub (i : Nat) (s : State) : State := s.onRegn fun g => { g with subs := g.subs.erase i }
/-- A subscription ends, and the partner learns of it (R310). -/
def State.endSub (i : Nat) (s : State) : State := match s.sub i with
  | some e => (s.dropSub i).mirrorIf e.conn (.subscription i)
  | none => s
def SubEnt.held (e : SubEnt) : Nat := e.queued.length + e.sent.length

/-- A notification record (Table 7.7). -/
def notifyRecord (nseq imm region subTag offset len dropped qpn : Nat) : Nat :=
  toNet 8 nseq + toNet 4 imm * 2 ^ 64 + toNet 2 region * 2 ^ 96 + toNet 2 subTag * 2 ^ 112 + toNet 8 offset * 2 ^ 128
    + toNet 4 len * 2 ^ 192 + dropped * 2 ^ 224 + toNet 3 qpn * 2 ^ 232

/-- Queue one record at a subscription, or drop it at 64 (R305, R307); one whose UNSUBSCRIBE waits is still held (R304). -/
def State.notifySub (imm region offset len qpn : Nat) (s : State) (i : Nat) : State :=
  match s.sub i with
  | none => s
  | some e =>
    if 64 ≤ e.held then
      (((s.setSub i { e with dropped := min 255 (e.dropped + 1) }).count E.REGN_NOTIFY_DROP 1).occur S.REGN_NOTIFY_DROP).mirrorIf e.conn
        (.subscription i)
    else
      let n := (e.nseq + 1) % 2 ^ 64
      let r := notifyRecord n imm region e.subTag offset len e.dropped qpn
      ((s.setSub i { e with nseq := n, dropped := 0, queued := e.queued ++ [(n, imm, r)] }).count E.REGN_NOTIFY_POSTED 1).mirrorIf
        e.conn (.notification i n)

/-- A placed write with immediate notifies every subscription of its region (R304). -/
def State.notifyRegion (w : RegWrite) (imm : Nat) (s : State) : State :=
  match s.subKeys w.region with
  | [] => s.count E.REGN_NOTIFY_NOSUB 1
  | ks => ks.foldl (State.notifySub imm w.region (w.addr - (s.region w.region).base) w.total w.qpn) s

/-! ### Placement (R281 to R291) -/

/-- The write needs nothing more of itself to be placed. -/
def RegWrite.done (w : RegWrite) : Bool := w.localAt.isSome && (w.mirrored || w.solo) && (w.whole || w.cut)

/-- The leaf of a connection's tenant port is express (Table 8.5). -/
def State.ctxExpress (s : State) (i : Nat) : Bool := leafExpress (s.leafEntry (s.leafOf (s.ctx i).id.tport))

/-- Meter a region access (Table 8.5). -/
def State.meterRegion (i bytes : Nat) (s : State) : State :=
  let x := boolNat (s.ctxExpress i)
  s.addMeter (s.ctx i).id.tenant fun a => { a with regionBytes := a.regionBytes + bytes, expressOps := a.expressOps + x }

/-- A write becomes placed (R281): its access ends, it is counted and metered, and its notification is queued; the partner's table
follows (R273). -/
def State.placed (w : RegWrite) (s : State) : State :=
  let r := s.region w.region
  let s1 := (s.keyEnd w.key).onRegn fun g => { g with
    writes := g.writes.filter fun x => decide (x.id ≠ w.id)
    flushes := g.flushes.map fun f => if f.covers.contains w.id then
      { f with covers := f.covers.filter (fun k => decide (k ≠ w.id)), ue := f.ue || w.ue, solo := f.solo || w.solo } else f }
  let mark := boolNat w.ue + 2 * boolNat w.solo
  let s2 := (s1.when w.solo (State.count E.REGN_MIRROR_SOLO 1)).when (decide (mark ≠ 0)) fun t => t.onRegn fun g => { g with
    past := g.past.modify (w.qpn * 65536 + w.region) 0 fun m => m ||| mark }
  if !w.whole ∨ w.dup then s2
  else
    let s3 := ((((s2.setRegion w.region { r with writes := (r.writes + 1) % 2 ^ 64 }).mirrorIf w.ctx (.tableEntry pgRegn.base 1 w.region)).count
      E.REGN_WR_MSGS 1).count E.REGN_WR_BYTES w.total).meterRegion w.ctx w.total
    match w.imm with
    | none => s3
    | some imm =>
      let s4 := s3.count E.REGN_WRIMM_MSGS 1
      if s.pair.notified.contains (w.ctx, w.lastPsn) then s4 else s4.notifyRegion w imm

/-- The first write in the list that is placed now: it is done, and no earlier write of its connection is still waiting (R282). -/
def firstPlaced : List RegWrite → List Nat → Option RegWrite
  | [], _ => none
  | w :: rest, blocked =>
    if w.done && !blocked.contains w.qpn then some w else firstPlaced rest (w.qpn :: blocked)

def State.placeAll : Nat → State → State
  | 0, s => s
  | fuel + 1, s => match firstPlaced s.regn.writes [] with
    | none => s
    | some w => State.placeAll fuel (s.placed w)

/-- The first flush whose covered writes are all placed, with none of its connection before it (R299, R300). -/
def firstFlush : List FlushWait → List Nat → Option FlushWait
  | [], _ => none
  | f :: rest, blocked =>
    if f.covers.isEmpty && f.check.isNone && !blocked.contains f.ctx then some f else firstFlush rest (f.ctx :: blocked)

/-- The response of a PLACE_FLUSH (R299); its access ends as the response leaves (R182). -/
def State.flushDone (f : FlushWait) (s : State) : State :=
  let st := f.refused.getD (if f.ue then 7 else 0)
  let s1 := (s.onRegn fun g => { g with flushes := removeFirst f g.flushes }).respondFor f.ctx 0x84 f.tag st f.solo 0 f.key
  (match st with
    | 0 => s1.count E.REGN_FLUSH_DONE 1
    | 7 => s1.count E.REGN_FLUSH_FAIL 1
    | 1 => s1.ctlProto
    | _ => s1).syncFlushes

def State.flushAll : Nat → State → State
  | 0, s => s
  | fuel + 1, s => match firstFlush s.regn.flushes [] with
    | none => s
    | some f => State.flushAll fuel (s.flushDone f)

/-- Everything that follows once a write has moved on (R281, R299). -/
def State.settle (s : State) : State :=
  let s1 := s.placeAll (s.regn.writes.length + 1)
  s1.flushAll (s1.regn.flushes.length + 1)

/-- The pieces of a write that came, each at its offset in the message. -/
def RegWrite.pieces (w : RegWrite) : List (Nat × List Nat) :=
  if w.missing.isEmpty then [(0, toBytes w.data.len w.data.val)]
  else ((List.range (packetsOf w.data.len w.mtu)).filter fun k => !w.missing.contains k).map fun k =>
    let n := min w.mtu (w.data.len - k * w.mtu)
    (k * w.mtu, toBytes n (bytesAt w.data.val (k * w.mtu) n))

def State.onWrite (id : Nat) (g : RegWrite → RegWrite) (s : State) : State :=
  s.onRegn fun r => { r with writes := r.writes.map fun w => if w.id = id then g w else w }

/-- Dirty bits of the 16 KiB units that a range touches, while destage is on (R311). -/
def State.markDirty (a n : Nat) (s : State) : State :=
  if n = 0 ∨ !s.flag pgRegn F.REGN_CFG_DESTAGE_EN then s
  else
    let s1 := s.onRegn fun g => { g with dirty := ((List.range ((a + n - 1) / 16384 - a / 16384 + 1)).foldl (fun d i =>
      if (d.find (a / 16384 + i)).isSome then d else d.set (a / 16384 + i) s.now) g.dirty) }
    s1.setF pgRegn F.REGN_DESTAGE_STAT_DIRTY_UNITS s1.regn.dirty.size

/-- The unit lies in an ACTIVE region. -/
def State.activeUnit (s : State) (n : Nat) : Bool :=
  s.regn.regions.any fun _ r => decide (r.state = 1 ∧ r.base < (n + 1) * 16384 ∧ n * 16384 < r.base + r.size)

/-- The age of the oldest dirty unit, in milliseconds (R313). -/
def State.oldestDirtyMs (s : State) : Nat := match s.regn.dirty.vals with
  | [] => 0
  | x :: r => min 0xFFFFFFFF ((s.now - r.foldl min x) / 2000000)
/-- DIRTY_UNITS and OLDEST_MS as they stand now. -/
def State.syncDirty (s : State) : State :=
  (s.setF pgRegn F.REGN_DESTAGE_STAT_DIRTY_UNITS s.regn.dirty.size).setF pgRegn F.REGN_DESTAGE_AGE_OLDEST_MS s.oldestDirtyMs

/-- The received bytes of a write reach the local region space, in the order of its connection (R281, R282). -/
def State.localPlace (id : Nat) (ue : Bool) (s : State) : State :=
  match s.regn.writes.find? fun w => decide (w.id = id) with
  | none => s
  | some w =>
    let earlier := s.regn.writes.takeWhile fun x => decide (x.id ≠ id)
    if w.checking ∨ w.localAt.isSome ∨ !(w.whole || w.cut) ∨ earlier.any (fun x => decide (x.qpn = w.qpn) && x.localAt.isNone) then s
    else
      let s1 := s.onRegn fun g => { g with mem := w.pieces.foldl (fun m e => memWrite e.2 (w.addr + e.1) m) g.mem }
      let s2 := ((s1.markDirty w.addr w.data.len).onWrite id fun x => { x with localAt := some s.now, ue := x.ue || ue }).when ue
        (State.occur S.REGN_HBM_UE)
      let pages := (List.range ((w.addr + w.data.len + 4095) / 4096)).drop (w.addr / 4096)
      (pages.foldl (fun t k => t.syncIf w.ctx (.regionPage k)) s2).settle

/-- A region write has been received whole (R281): it goes to the partner in paired mode; a zero-length one has nothing to place. One
whose key check waits goes on when it has passed (R185). -/
def State.wholeWrite (id : Nat) (s : State) : State :=
  match s.regn.writes.find? fun w => decide (w.id = id) with
  | none => s
  | some w => if w.checking then s.onWrite id fun x => { x with whole := true } else
    let zero := decide (w.data.len = 0)
    let s1 := s.onWrite id fun x => { x with whole := true, localAt := if zero then some s.now else x.localAt }
    let s2 := if s.mirroring && !zero then s1.mirror w.ctx (.regionWrite id) else s1
    s2.settle

/-- The confirmation of a region write arrives (R281). -/
def State.confirmWrite (id : Nat) (s : State) : State := (s.onWrite id fun w => { w with mirrored := true }).settle

/-- The partner is lost: what waits for it is placed without it (R290). -/
def State.soloWrites (s : State) : State :=
  (s.onRegn fun g => { g with writes := g.writes.map fun w => if w.mirrored then w else { w with solo := true } }).settle

/-- Begin a region write that has passed the check (R281): alone in single-controller mode, with SOLO in the solo mirror state. -/
def State.newWrite (w : RegWrite) (s : State) : State :=
  let active := decide (s.get pgPair F.PAIR_STAT_ROLE = 6)
  let alone := !s.mirroring
  s.onRegn fun g => { g with nextId := g.nextId + 1
                             writes := g.writes ++ [{ w with id := g.nextId, mirrored := (alone && !active) || decide (w.total = 0),
                                                             solo := alone && active }] }

/-- A write that gets no further packets goes on with the bytes that came (R288, R143). -/
def State.cutWrite (id : Nat) (s : State) : State :=
  match s.regn.writes.find? fun w => decide (w.id = id) with
  | none => s
  | some w =>
    let s1 := s.onWrite id fun x => { x with cut := true, imm := none }
    if w.checking then s1
    else if w.data.len = 0 then s1.onWrite id fun x => { x with mirrored := true } else s1.mirrorIf w.ctx (.regionWrite id)

/-! ### What a lost connection leaves (R288, R301, R302) -/

def State.regnConnLost (i : Nat) (s : State) : State :=
  let q := s.qpn i
  let mine := s.regn.flushes.filter fun f => decide (f.ctx = i)
  let reads := s.regn.reads.filter fun r => decide (r.ctx = i)
  let s0 := (s.regn.subs.filter fun _ e => decide (e.conn = i)).keys.foldl (fun t k => t.endSub k) s
  let s1 := (s0.onRegn fun g => { g with
    flushes := g.flushes.filter fun f => decide (f.ctx ≠ i)
    reads := g.reads.filter fun r => decide (r.ctx ≠ i)
    past := g.past.filter fun k _ => decide (k / 65536 ≠ q) }).onGard fun g => { g with
      keyWaits := g.keyWaits.filter fun w => decide (w.ctx ≠ i ∨ w.what ≠ .flush) }
  let cuts := s.regn.writes.filter fun w => decide (w.qpn = q) && !w.whole
  let s1' := cuts.foldl (fun t w => t.cutWrite w.id) s1
  let s2 := (mine.filterMap FlushWait.key ++ reads.map RegRead.key).foldl (fun t k => t.keyEnd k) s1'
  s2.syncFlushes.settle

/-! ### The subscription table -/

/-- A subscription entry (Table 7.6). -/
def SubEnt.entry (e : SubEnt) : Nat :=
  e.conn + e.incarnation * 2 ^ 16 + 2 ^ 24 + e.subTag * 2 ^ 32 + e.ringLog2 * 2 ^ 48 + e.held * 2 ^ 56 + e.rkey * 2 ^ 64 + e.va * 2 ^ 96
    + e.nseq * 2 ^ 160 + e.dropped * 2 ^ 224

end Sys2Proof.Machine
end

