-- ==== Sys2Proof/Machine/CmdqOps.lean ====
section
/-!
DEFINITION. Command slots, queues, controllers, and the life of a command from its slot to its response (chapter 06 of spec/).
-/
namespace Sys2Proof.Machine
open Sys2Proof

/-! ### Submission queue entries, as NVMe lays them out -/

def sqeOpc (q : Nat) : Nat := byteAt q 0
def sqeCid (q : Nat) : Nat := bytesAt q 2 2
def sqeFctype (q : Nat) : Nat := byteAt q 4
def sqeNsid (q : Nat) : Nat := bytesAt q 4 4
def sqeSglAddr (q : Nat) : Nat := bytesAt q 24 8
def sqeSglLen (q : Nat) : Nat := bytesAt q 32 3
def sqeSglKey (q : Nat) : Nat := bytesAt q 35 4
def sqeSglId (q : Nat) : Nat := byteAt q 39
def sqeCdw (q n : Nat) : Nat := bytesAt q (4 * n) 4
def sqeSlba (q : Nat) : Nat := bytesAt q 40 8
/-- Number of logical blocks, 1-based. -/
def sqeNlb (q : Nat) : Nat := sqeCdw q 12 % 2 ^ 16 + 1

/-- Status codes used by name: SCT and SC. -/
def cplOk : Cpl := {}
def cplErr (sct sc : Nat) (dnr : Bool := false) : Cpl := { sct := sct, sc := sc, dnr := dnr }
def Cpl.ok (c : Cpl) : Bool := decide (c.sct = 0 ∧ c.sc = 0)

/-! ### Namespaces (Table 6.12, table 2) -/

def nsValid (e : Nat) : Bool := bitAt e 0
def nsLba (e : Nat) : Nat := if bitAt e 1 then 4096 else 512
def nsTenant (e : Nat) : Nat := bitsOf e 16 12
def nsId (e : Nat) : Nat := bitsOf e 32 32
def nsSize (e : Nat) : Nat := bitsOf e 64 48
def Fab.nsEntries (f : Fab) (shadow : Bool) : List (Nat × Nat) :=
  ((f.tabIndices pgCmdq shadow 2).map fun i => (i, f.tab pgCmdq shadow 2 i)).filter fun e => nsValid e.2
def State.ns (s : State) (volume : Nat) : Nat := s.tab pgCmdq 2 volume
/-- The volume of a tenant's NSID (R231). -/
def State.nsVolume (s : State) (tenant nsid : Nat) : Option Nat :=
  ((s.fab.nsEntries false).find? fun e => decide (nsTenant e.2 = tenant ∧ nsId e.2 = nsid)).map Prod.fst
/-- A tenant's SUBNQN, 256 bytes. -/
def State.subNqn (s : State) (tenant : Nat) : Nat := s.tab pgCmdq 3 tenant

/-! ### Slots (R240 to R243) -/

def State.slot (s : State) (n : Nat) : Option Slot := s.cmdq.slots.find n
def State.setSlot (n : Nat) (v : Slot) (s : State) : State := s.onCmdq fun c => { c with slots := c.slots.set n v }
def State.onSlot (n : Nat) (g : Slot → Slot) (s : State) : State := match s.slot n with
  | some v => s.setSlot n (g v)
  | none => s
def State.queue (s : State) (i : Nat) : Option Queue := s.cmdq.queues.find i
def State.setQueue (i : Nat) (q : Queue) (s : State) : State := s.onCmdq fun c => { c with queues := c.queues.set i q }
def State.ctrl (s : State) (k : Nat) : Option Ctrl := s.cmdq.ctrls.find k
def State.setCtrl (k : Nat) (v : Ctrl) (s : State) : State := s.onCmdq fun c => { c with ctrls := c.ctrls.set k v }
def ctrlKey (tenant cntlid : Nat) : Nat := tenant * 65536 + cntlid

def State.slotMin (s : State) (t : Nat) : Nat := bitsOf (s.tab pgCmdq 1 t) 0 19
def State.slotMax (s : State) (t : Nat) : Nat := bitsOf (s.tab pgCmdq 1 t) 32 19
def State.suspended (s : State) (t : Nat) : Bool := bitAt (s.tab pgCmdq 1 t) 63
def State.slotsOf (s : State) (t : Nat) : Nat := s.cmdq.slots.count fun _ v => decide (v.tenant = t)
/-- Σ SLOT_MIN over the 4,096 tenants of a set. -/
def Fab.sumSlotMin (f : Fab) (shadow : Bool) : Nat :=
  let ix := f.tabIndices pgCmdq shadow 1
  (4096 - ix.length) * 16 + (ix.map fun t => bitsOf (f.tab pgCmdq shadow 1 t) 0 19).sum
/-- Free slots of the shared pool (R240). -/
def State.sharedSlots (s : State) : Nat :=
  262144 - s.fab.sumSlotMin false - (((s.cmdq.slots.vals.map Slot.tenant).uniq).map fun t => s.slotsOf t - s.slotMin t).sum
/-- A tenant may take a slot now, from its reserve or from the shared pool (R240). -/
def State.mayTakeSlot (s : State) (t : Nat) : Bool :=
  decide (s.slotsOf t < s.slotMin t) || (decide (0 < s.sharedSlots) && decide (s.slotsOf t < s.slotMax t))
/-- PENDING capsules of a tenant (Table 6.12, table 5). -/
def State.pendingOf (s : State) (t : Nat) : Nat :=
  ((s.cmdq.queues.vals.filter fun q => decide (q.tenant = t)).map fun q => q.staging.length).sum

/-- The status registers of CMDQ after a change (Table 6.11). -/
def State.syncCmdq (s : State) : State :=
  let used := s.cmdq.slots.size
  (((s.setF pgCmdq F.CMDQ_STAT_SLOTS_USED used).setF pgCmdq F.CMDQ_SHARED_SHARED_FREE s.sharedSlots).setF pgCmdq F.CMDQ_PEND_PENDING
    ((s.cmdq.queues.vals.map fun q => q.staging.length).sum)).setF pgCmdq F.CMDQ_MAXUSE_MAX (max used (s.get pgCmdq F.CMDQ_MAXUSE_MAX))

/-- The lowest FREE slot. -/
def State.freeSlotIndex (s : State) : Nat :=
  s.cmdq.slots.list.foldl (fun (x : Nat) e => if e.1 = x then x + 1 else x) 0

/-- Commands of a queue that count against it: PENDING, FETCHED, STARTED and COMMITTED (R249). -/
def State.queueLoad (s : State) (i : Nat) : Nat :=
  (match s.queue i with
    | some q => q.staging.length
    | none => 0) + s.cmdq.slots.count fun _ v => decide (v.conn = i ∧ v.incarnation = (s.ctx i).incarnation ∧ v.state ≠ .completed)

/-- The slot has work outstanding: drive requests, RDMA READs, journal records. -/
def State.slotBusy (s : State) (n : Nat) : Bool :=
  match s.slot n with
  | none => false
  | some v => decide (v.drvOut ≠ 0) || decide (v.recsOpen ≠ 0) || s.cmpr.reads.any (fun _ r => decide (r.for_ = .slot n))
      || (decide ((s.ctx v.conn).incarnation = v.incarnation) && (s.ctx v.conn).tx.reads.any fun r => decide (r.slot = n))

/-- The slot no longer names a packet or a piece of work. -/
def TxWork.forget (n : Nat) : TxWork → TxWork
  | .send (some m) k d => if m = n then .send none k d else .send (some m) k d
  | w => w
def forgetSlot (n : Nat) (p : OutPkt) : OutPkt := if p.slot = some n then { p with slot := none } else p

/-- The cells that a command's slot holds (R376). -/
def unitOfSlot (n : Nat) : UnitKind → Bool
  | .reserve m => decide (m = n)
  | .writeData m => decide (m = n)
  | .readData m _ _ => decide (m = n)
  | .jrnlRead m => decide (m = n)
  | .result m => decide (m = n)
  | _ => false
/-- The data of a Read whose drives or journal have given it. -/
def readOfSlot (n : Nat) : UnitKind → Bool
  | .readData m _ _ => decide (m = n)
  | _ => false
/-- What a Read has ready for its host (R245). -/
def resultOfSlot (n : Nat) : UnitKind → Bool
  | .jrnlRead m => decide (m = n)
  | .result m => decide (m = n)
  | _ => false
/-- A command is over: the references of its Read (R34), and an event request that waits. -/
def State.dropRefs (n : Nat) (s : State) : State :=
  let s1 := { s with jrnl := { s.jrnl with recs := s.jrnl.recs.mapVals fun _ r => { r with readers := r.readers.filter fun k => decide (k ≠ n) } } }
  s1.onCmdq fun c => { c with ctrls := c.ctrls.mapVals fun _ x => { x with aers := x.aers.filter fun k => decide (k ≠ n) } }
/-- A slot returns to FREE (R241): it leaves every queue of TMGR, and its reserved cells are given back. -/
def State.freeSlot (n : Nat) (s : State) : State :=
  match s.slot n with
  | none => s
  | some v =>
    let s1 := (s.onTmgr fun t => { t with
      adm := t.adm.filter fun a => decide (a.slot ≠ n)
      chosen := t.chosen.filter fun k => decide (k ≠ n)
      held := ⟨(t.held.mapVals fun _ l => l.filter fun h => decide (h.slot ≠ n)).list.filter fun e => decide (e.2 ≠ [])⟩
      egr := t.egr.map fun e => { e with pkt := forgetSlot n e.pkt } }).onTx v.conn fun t => { t with
        retained := t.retained.map (forgetSlot n), work := t.work.map (TxWork.forget n) }
    let s1 := { s1 with jrnl := { s1.jrnl with
      dirtyWaited := s1.jrnl.dirtyWaited.filter fun k => decide (k ≠ n), indexWaited := s1.jrnl.indexWaited.filter fun k => decide (k ≠ n) } }
    let s2 := (s1.keepDeficits.dropKind (unitOfSlot n)).dropRefs n
    (s2.onCmdq fun c => { c with slots := c.slots.erase n, held := c.held.filter fun k => decide (k ≠ n) }).syncCmdq

/-- A completion entry of 16 bytes. -/
def cqe (c : Cpl) (sqhd cid : Nat) : Blob :=
  ⟨16, c.dw0 % 2 ^ 32 + c.dw1 % 2 ^ 32 * 2 ^ 32 + sqhd % 2 ^ 16 * 2 ^ 64 + cid % 2 ^ 16 * 2 ^ 96 + c.sc % 256 * 2 ^ 113 + c.sct % 8 * 2 ^ 121
    + boolNat c.dnr * 2 ^ 127⟩

/-- What a tenant's SMART summary counts (Table 6.3): reads, writes, bytes read, bytes written. -/
def State.smartCmd (v : Slot) (s : State) : State :=
  let add := fun (r w br bw : Nat) => s.onCmdq fun c => { c with
    smart := c.smart.modify v.tenant (0, 0, 0, 0) fun x => (x.1 + r, x.2.1 + w, x.2.2.1 + br, x.2.2.2 + bw) }
  match sqeOpc v.sqe with
  | 0x02 => add 1 0 v.bytesDone 0
  | 0x01 => add 0 1 0 v.bytesDone
  | _ => s

/-- Meter a command that enters COMPLETED with SCT 0, SC 0x00 (Table 8.5). -/
def State.meterCmd (v : Slot) (s0 : State) : State :=
  if !v.cpl.ok ∨ v.qid = 0 then s0
  else
    let s := s0.smartCmd v
    let x := boolNat (s.ctxExpress v.conn)
    match sqeOpc v.sqe with
    | 0x02 => s.addMeter v.tenant fun a => { a with
        readOps := a.readOps + 1, readBytes := a.readBytes + v.bytesDone, expressOps := a.expressOps + x }
    | 0x01 => s.addMeter v.tenant fun a => { a with
        writeOps := a.writeOps + 1, writeBytes := a.writeBytes + v.bytesDone, expressOps := a.expressOps + x }
    | 0x08 => s.addMeter v.tenant fun a => { a with writeOps := a.writeOps + 1, expressOps := a.expressOps + x }
    | 0x09 => s.addMeter v.tenant fun a => { a with writeOps := a.writeOps + 1, expressOps := a.expressOps + x }
    | _ => s

/-- Runs of blocks from one source, first block and how many, of `n` blocks in all (R402). -/
def sourceRuns (mask : Nat) : Nat → Nat → List (Nat × Nat)
  | 0, _ => []
  | n + 1, i => match sourceRuns mask n (i + 1) with
    | (y, k) :: more => if bitAt mask i = bitAt mask y then (i, k + 1) :: more else (i, 1) :: (y, k) :: more
    | [] => [(i, 1)]
/-- The data of a command goes to the host's buffer: what the journal gave and what the pool gave, each at its own offset (R402). -/
def State.submitData (n : Nat) (v : Slot) (s : State) : State :=
  let from_ := fun (b : Nat) => if v.qid = 0 ∨ sqeOpc v.sqe ≠ 0x02 then none
    else if bitAt v.jcover b then some (UnitKind.jrnlRead n) else some (.result n)
  let parts := if v.qid ≠ 0 ∧ sqeOpc v.sqe = 0x02 ∧ v.jcover ≠ 0 then (sourceRuns v.jcover (v.data.len / 512) 0).map fun r => (512 * r.1, 512 * r.2)
    else [(0, v.data.len)]
  parts.foldl (fun t r => t.submit v.conn (.write (sqeSglAddr v.sqe + r.1) (sqeSglKey v.sqe) ⟨r.2, bytesAt v.data.val r.1 r.2⟩
    (from_ (r.1 / 512)))) s

/-- COMMITTED (R244): with DISCARD the slot is freed once nothing is outstanding; otherwise data and response go to XPRT and the slot
becomes COMPLETED. -/
def State.finishCommitted (n : Nat) (s : State) : State :=
  match s.slot n with
  | none => s
  | some v =>
    if v.state ≠ .committed then s
    else if v.discard then (if s.slotBusy n then s else (s.freeSlot n).count E.CMDQ_RESULT_DISCARD 1)
    else
      let hd := match s.queue v.conn with
        | some q => q.sqHead
        | none => 0
      let s1 := if v.cpl.ok && decide (v.data.len ≠ 0) && decide (sqeOpc v.sqe ≠ 0x01 ∧ sqeOpc v.sqe ≠ 0x09) && !v.fetched then
        s.submitData n v else s
      let s2 := s1.submit v.conn (.send (some n) none (cqe v.cpl hd v.cid))
      (((s2.setSlot n { v with state := .completed, sqHead := hd }).count E.CMDQ_CMD_DONE 1).meterCmd v).syncCmdq

/-- A command reaches its commit point with a status (R244). -/
def State.commitSlot (n : Nat) (c : Cpl) (s : State) : State :=
  match s.slot n with
  | none => s
  | some v =>
    let s1 := (((s.setSlot n { v with state := .committed, cpl := c, outcome := none }).dropRefs n).onTmgr fun t => { t with
      adm := t.adm.filter fun a => decide (a.slot ≠ n)
      chosen := t.chosen.filter fun k => decide (k ≠ n)
      held := ⟨(t.held.mapVals fun _ l => l.filter fun h => decide (h.slot ≠ n)).list.filter fun e => decide (e.2 ≠ [])⟩ }).keepDeficits.mirrorIf
        v.conn (.command n)
    s1.finishCommitted n

/-- Work of a command has a result (R245): it may commit. -/
def State.setOutcome (n : Nat) (c : Cpl) (s : State) : State := s.onSlot n fun v => { v with outcome := some c }

/-- The last outstanding work of an ORPHAN or discarded command has returned (Table 6.4). -/
def State.workReturned (n : Nat) (s : State) : State :=
  match s.slot n with
  | none => s
  | some v =>
    if s.slotBusy n then s
    else if v.state = .completed && v.orphan then s.freeSlot n
    else if v.state = .committed then s.finishCommitted n
    else s

/-- Data of an RDMA READ has come whole (R148, R757): it joins the slot's, in order. -/
def State.readArrived (n : Nat) (d : Blob) (s : State) : State :=
  match s.slot n with
  | none => s
  | some v =>
    if v.state = .started then
      (s.setSlot n { v with data := ⟨v.data.len + d.len, v.data.val + d.val * 2 ^ (8 * v.data.len)⟩
                            wanted := v.wanted - d.len, fetched := decide (v.wanted ≤ d.len) }).dropKind fun k => decide (k = .reserve n)
    else s.workReturned n

/-! ### What a lost connection leaves (R159, Table 6.4) -/

/-- No work of a STARTED command can still return: a held event request, or, with the connection lost, a command whose host data has not
come. -/
def Slot.stranded (v : Slot) (lost : Bool) : Bool :=
  decide (v.qid = 0 ∧ sqeOpc v.sqe = 0x0C) ||
    (lost && decide (v.qid ≠ 0 ∧ (sqeOpc v.sqe = 0x01 ∨ sqeOpc v.sqe = 0x09) ∧ v.recsOpen = 0) && !v.fetched)
/-- STARTED meets a controller reset or the loss of its connection (Table 6.4). -/
def State.abandonSlot (lost : Bool) (n : Nat) (v : Slot) (s : State) : State :=
  let s1 := s.setSlot n { v with discard := true }
  if v.stranded lost then s1.commitSlot n (cplErr 0 8) else s1

def State.slotConnLost (s : State) (n : Nat) : State :=
  match s.slot n with
  | none => s
  | some v => match v.state with
    | .fetched => s.freeSlot n
    | .started => s.abandonSlot true n v
    | .committed => (s.setSlot n { v with discard := true }).finishCommitted n
    | .completed => if v.orphan && s.slotBusy n then s else s.freeSlot n

/-- The queue goes, and its controller with its last queue. -/
def State.dropQueue (i : Nat) (s : State) : State :=
  match s.queue i with
  | none => s
  | some q =>
    let s1 := s.onCmdq fun c => { c with queues := c.queues.erase i }
    (match q.ctrl with
      | none => s1
      | some k => if s1.cmdq.queues.any fun _ x => decide (x.ctrl = some k) then s1
          else s1.onCmdq fun c => { c with ctrls := c.ctrls.erase k }).syncCmdq

def State.cmdqConnLost (i : Nat) (s : State) : State :=
  let mine := (s.cmdq.slots.filter fun _ v => decide (v.conn = i ∧ v.incarnation = (s.ctx i).incarnation)).keys
  (mine.foldl State.slotConnLost s).dropQueue i

/-! ### Asynchronous events -/

/-- Post what waits on a controller: one held request completes per event, once per condition (R236, R265, R266). -/
def State.postEvents (k : Nat) (s : State) : State :=
  match s.ctrl k with
  | none => s
  | some c =>
    if s.flag pgCmdq F.CMDQ_FW_HOLD then s
    else match c.aers, c.events with
      | n :: ns, e :: es =>
        ((s.setCtrl k { c with aers := ns, events := es, conditions := c.conditions ++ [e] }).count E.CMDQ_AER_POSTED 1).commitSlot n
          { dw0 := e.type + e.info * 2 ^ 8 + e.log * 2 ^ 16 }
      | _, _ => s

/-- An event for a controller; one whose condition stands is not raised again (NVMe). -/
def State.raiseEvent (e : AsyncEvt) (s : State) (k : Nat) : State :=
  match s.ctrl k with
  | none => s
  | some c =>
    if c.discovery ∨ c.conditions.contains e ∨ c.events.contains e then s
    else (s.setCtrl k { c with events := c.events ++ [e] }).postEvents k

/-- The controllers of a tenant. -/
def State.ctrlsOf (s : State) (tenant : Nat) : List Nat := (s.cmdq.ctrls.filter fun _ c => decide (c.tenant = tenant)).keys

/-- R266: blocks of a volume are lost: one record per contiguous range, the flag, the event. -/
def State.deferredErr (volume cause slba nlb : Nat) (s : State) : State :=
  let e := s.ns volume
  let t := nsTenant e
  let d := s.cmdq.deferred.get t {}
  let r : DeferredRec := ⟨d.total + 1, nsId e, cause, slba, nlb, s.ptp.sec % 2 ^ 32⟩
  let recs := d.recs ++ [r]
  let s1 := s.onCmdq fun c => { c with
    deferred := c.deferred.set t ⟨d.total + 1, recs.drop (recs.length - 256)⟩
    deferredPending := insertSorted volume c.deferredPending }
  (s.ctrlsOf t).foldl (State.raiseEvent ⟨7, 0, 0xD2⟩) ((s1.count E.CMDQ_DEFERRED_ERR 1).occur S.CMDQ_DEFERRED_ERR)

/-! ### Slot entries (Table 6.5) -/

def SlotState.code : SlotState → Nat
  | .fetched => 1 | .started => 2 | .committed => 3 | .completed => 4
def Slot.entry (v : Slot) : Nat :=
  v.sqe % 2 ^ 512 + (v.state.code + 8 * boolNat v.orphan + 16 * boolNat v.discard + 32 * boolNat v.aborted + v.tenant * 2 ^ 8) * 2 ^ 512
    + v.conn * 2 ^ 544 + v.qid * 2 ^ 560 + v.cid * 2 ^ 576 + v.cntlid * 2 ^ 592 + v.volume * 2 ^ 608 + v.fetchTime * 2 ^ 640
    + v.jrnlRef % 2 ^ 32 * 2 ^ 704 + v.bayMask * 2 ^ 736 + v.drvOut * 2 ^ 768
    + (v.cpl.sc + v.cpl.sct * 2 ^ 8 + boolNat v.cpl.dnr * 2 ^ 14) * 2 ^ 784 + v.cpl.dw0 % 2 ^ 32 * 2 ^ 800 + v.bytesDone % 2 ^ 32 * 2 ^ 832
    + v.psDelayUs % 2 ^ 32 * 2 ^ 864

end Sys2Proof.Machine
end

