-- ==== Sys2Proof/Machine/ConnOps.lean ====
section
/-!
DEFINITION. The states of a connection (Table 4.8), what leaving READY flushes, and the reset of a controller (chapters 04 and 06 of
spec/).
-/
namespace Sys2Proof.Machine
open Sys2Proof

/-- The key of a region read whose response has not left the Vat (R182). -/
def TxWork.keyOf : TxWork → Option Nat
  | .readResp _ k _ _ => some k
  | .send _ k _ => k
  | _ => none

/-- Cells of a received packet that never becomes traffic are given back (R167, R377). -/
def State.dropRxUnit (rx : RxMeta) (s : State) : State := match rx.unit with
  | some first => (match s.unitAt first with
    | some u => s.dropUnit u
    | none => s)
  | none => s

/-- Writes and reads of a connection that wait for their key entry from a PSN on end: they have passed no check (R185). -/
def State.dropChecks (i : Nat) (later : Nat → Bool) (s : State) : State :=
  let mine := s.gard.keyWaits.filter fun w => decide (w.ctx = i ∧ w.what ≠ .flush) && later w.psn
  let ids := mine.filterMap fun w => match w.what with
    | .write id _ _ _ => some id
    | _ => none
  let units := mine.flatMap fun w => match w.what with
    | .write _ _ _ us => us.map Prod.fst
    | _ => []
  units.foldl (fun t rx => t.dropRxUnit rx) ((s.onGard fun g => { g with keyWaits := g.keyWaits.filter fun w => !mine.contains w }).onRegn
    fun g => { g with writes := g.writes.filter fun w => !ids.contains w.id })

/-- Flushing (R159): CMDQ and REGN learn that the connection is lost, and the retained cells are released. Replies that wait for
custody or for the standby still go: a NAK precedes ERROR (R132, R147). -/
def State.connLost (i : Nat) (s0 : State) : State :=
  let s := s0.dropChecks i fun _ => true
  let keys := ((s.ctx i).tx.work.filterMap TxWork.keyOf) ++
    ((s.tmgr.egr.filter fun e => decide (e.ctx = i)).filterMap fun e => e.pkt.key)
  let s1 := keys.foldl (fun t k => t.keyEnd k) ((((s.dropKind fun k => match k with
    | .egress j _ => decide (j = i)
    | .response j _ => decide (j = i)
    | _ => false).onTx i fun t => { t with reads := [] }).cmdqConnLost i).regnConnLost i)
  ((s1.onTmgr fun t => { t with egr := t.egr.filter fun e => decide (e.ctx ≠ i) }).keepDeficits).onCtx i fun c => { c with
    rx := { c.rx with openMsg := none, dupMsg := none, msgs := [], readsIn := 0 }
    tx := { c.tx with work := [], retained := [], reads := [], rnrWait := false } }
/-- Replies that still wait are given up. -/
def State.dropReplies (i : Nat) (s : State) : State := s.onRx i fun x => { x with replies := [], inVat := [] }

def State.setConnState (i : Nat) (st : ConnState) (s : State) : State := s.onCtx i fun c => { c with state := st }

/-- READY to ERROR with causes 1 to 6 and 11 (Table 4.8). -/
def State.enterError (i cause : Nat) (s : State) : State :=
  if (s.ctx i).state ≠ .ready then s
  else
    let s1 := ((s.connLost i).onCtx i fun c => { c with state := .error, id := { c.id with errCause := cause } }).count E.XPRT_CONN_ERROR 1
    (s1.releaseReplies i ((s1.ctx i).rx.replies.length + 1)).when (decide (cause = 1)) (State.occur S.XPRT_RETRY_EXHAUSTED)

/-- Connections whose counter is spent enter ERROR with cause 11 (R204). -/
def State.settleSeal (s : State) : State :=
  if s.xprt.spent.isEmpty then s
  else s.xprt.spent.foldl (fun t i => t.enterError i 11) (s.onXprt fun x => { x with spent := [] })

/-- A DREQ goes out; it is sent again every 10 ms (Table 4.8). None goes while the page is not ON or DRAINING (R759). -/
def State.sendDreq (i : Nat) (s : State) : State :=
  s.when (s.isLive pgXprt) fun t => (t.onTx i fun x => { x with sends := x.sends + 1 }).cmOn i (.cmDreq i)

/-- READY to CLOSING with causes 7, 8 and 9 (Table 4.8). -/
def State.closeConn (i cause : Nat) (s : State) : State :=
  if (s.ctx i).state ≠ .ready then s
  else ((((s.connLost i).dropReplies i).onCtx i fun c => { c with
    state := .closing, id := { c.id with errCause := cause }, tx := { c.tx with sends := 0 } }).sendDreq i)

/-- To TIMEWAIT (Table 4.8); from READY the work is flushed. -/
def State.enterTimewait (i : Nat) (s : State) : State :=
  if (s.ctx i).state = .ready then (((s.connLost i).dropReplies i).setConnState i .timewait).count E.XPRT_CONN_CLOSE 1
  else ((s.dropQueue i).dropReplies i).setConnState i .timewait

/-- TIMEWAIT to FREE: the next INCARNATION (R128, Table 4.8). -/
def nextIncarnation (n : Nat) : Nat := if n = 255 then 1 else n + 1
def State.freeConn (i : Nat) (s : State) : State :=
  let c : Ctx := { incarnation := nextIncarnation (s.ctx i).incarnation }
  (((s.setCtx i c).onXprt fun x => { x with
    cache := x.cache.filter fun j => decide (j ≠ i), cacheDirty := x.cacheDirty.filter fun j => decide (j ≠ i)
    jobs := x.jobs.filter fun e => decide (e.1 ≠ i) }).onGard fun g => { g with
      slots := (g.slots.erase (2 * i)).erase (2 * i + 1), prk := g.prk.erase i }).syncXprt

/-! ### Controller reset (R257 to R260) -/

/-- A command that holds no slot completes: its response alone goes out, and SQHD advances past it (R252, R257). -/
def State.completeCapsule (i : Nat) (cap : Capsule) (c : Cpl) (s : State) : State :=
  match s.queue i with
  | none => s
  | some q =>
    let hd := (q.sqHead + 1) % max 1 q.size
    (s.setQueue i { q with sqHead := hd }).submit i (.send none none (cqe c hd (sqeCid cap.sqe)))

/-- The queues of a controller, by context index. -/
def State.ctrlQueues (s : State) (k : Nat) : List Nat := (s.cmdq.queues.filter fun _ q => decide (q.ctrl = some k)).keys

/-- Steps 1 to 4 of R257 on one queue, sparing the command that asks for the reset. -/
def State.resetQueue (spare : Option Nat) (s : State) (i : Nat) : State :=
  match s.queue i with
  | none => s
  | some q =>
    let s1 := s.setQueue i { q with stopped := decide (q.qid ≠ 0), staging := [] }
    let s2 := q.staging.foldl (fun t c => (t.completeCapsule i c (cplErr 0 8)).count E.CMDQ_RESET_ABORT 1) s1
    let mine := (s2.cmdq.slots.filter fun n v => decide (v.conn = i ∧ v.incarnation = (s2.ctx i).incarnation ∧ some n ≠ spare)).keys
    mine.foldl (fun t n => match t.slot n with
      | none => t
      | some v => match v.state with
        | .fetched => (t.commitSlot n (cplErr 0 8)).count E.CMDQ_RESET_ABORT 1
        | .started => t.abandonSlot false n v
        | .committed => t.finishCommitted n
        | .completed => t) s2

/-- A queue has nothing left of steps 2 to 4: no command that runs with DISCARD and, on an I/O queue, no command that has not completed
and no completion that has not gone. -/
def State.queueQuiet (s : State) (i : Nat) : Bool := match s.queue i with
  | none => true
  | some q =>
    let mine := s.cmdq.slots.vals.filter fun v => decide (v.conn = i ∧ v.incarnation = (s.ctx i).incarnation)
    mine.all (fun v => !v.discard || decide (v.state = .completed)) &&
      (decide (q.qid = 0) || (mine.all (fun v => decide (v.state = .completed)) && (s.ctx i).tx.work.isEmpty
        && s.tmgr.egr.all fun e => decide (e.ctx ≠ i)))
/-- Steps 5 and 6 of R257, once steps 2 to 4 have ended: the I/O connections close and RDY goes to 0; `admin` whether the admin
connection closes too (R260). -/
def State.endReset (k : Nat) (admin : Bool) (s : State) : State :=
  let close := (s.ctrlQueues k).filter fun i => admin || (match s.queue i with
    | some q => decide (q.qid ≠ 0)
    | none => false)
  let s1 := match s.ctrl k with
    | some c => s.setCtrl k { c with rdy := false, resetting := false }
    | none => s
  (close.foldl (fun t i => t.closeConn i 9) s1).syncCmdq
/-- Controllers whose reset may end. -/
def State.settleResets (s : State) : State :=
  ((s.cmdq.ctrls.filter fun _ c => c.resetting).keys).foldl (fun t k =>
    if (t.ctrlQueues k).all t.queueQuiet then t.endReset k false else t) s

/-- R257: `spare` is the Property Set itself. With `expired`, the keep-alive timer's reset: every connection closes at once, so that no
completion is delivered (R260). -/
def State.resetCtrl (k : Nat) (spare : Option Nat) (expired : Bool) (s : State) : State :=
  let s1 := (s.ctrlQueues k).foldl (State.resetQueue spare) s
  let s2 := match s1.ctrl k with
    | some c => s1.setCtrl k { c with resetting := true, aers := [], events := [], conditions := [] }
    | none => s1
  if expired then s2.endReset k true else s2.syncCmdq.settleResets

end Sys2Proof.Machine
end

