-- ==== Sys2Proof/Machine/ResumeOps.lean ====
section
/-!
DEFINITION. Connections resumed after a takeover (R642 to R645): contexts from their checkpoints, the NAK and the probe, the host's
answer, and the mirrored commands.
-/
namespace Sys2Proof.Machine
open Sys2Proof

/-- A context from bytes 0 to 191 of its checkpoint (Table 4.6). -/
def connStateOf : Nat → ConnState
  | 1 => .connecting | 2 => .ready | 3 => .closing | 4 => .timewait | 5 => .error | _ => .free
def ctxOfBytes (x : Nat) : Ctx :=
  let v6 := bitAt x 17
  { state := connStateOf (bitsOf x 0 4), incarnation := byteAt x 3
    id := { kind := bitsOf x 4 2, errPolicy := bitAt x 6, pinned := bitAt x 7, ocmVer := byteAt x 1, sealed := bitAt x 16, ipv6 := v6
            rcEn := bitAt x 18, errCause := bitsOf x 19 5, tport := bytesAt x 4 2, tenant := bytesAt x 6 2, remoteQpn := bytesAt x 8 3
            pmtu := byteAt x 11, remoteMac := netAt x 12 6, egressPort := byteAt x 18, remoteIp := if v6 then netAt x 20 16 else netAt x 20 4
            udpSport := netAt x 36 2, qid := bytesAt x 76 2, cntlid := bytesAt x 78 2, hsqsize := bytesAt x 80 2, hrqsize := bytesAt x 82 2
            initDepth := 16, respRes := 16 }
    rx := { epsn := bytesAt x 40 3, msn := bytesAt x 44 3, lastAckPsn := bytesAt x 48 3 }
    tx := { nextPsn := bytesAt x 52 3, unaPsn := bytesAt x 56 3 }
    sl := { saltTx := bytesAt x 128 4, saltRx := bytesAt x 132 4, txCtr := bytesAt x 136 8, rxCtr := bitsOf x 1152 40, rxSeen := bitAt x 1192
            rxPhase := bitAt x 1215, keySlot := bitAt x 1216 } }

def State.probing (s : State) (i : Nat) : Bool := (s.pair.probing.find i).isSome
/-- The commands of a connection that the partner mirrored. -/
def State.mirCmds (s : State) (i : Nat) : List (Nat × MirCmd) := s.pair.cmds.list.filter fun e => decide (e.2.conn = i)
def State.dropMirror (i : Nat) (s : State) : State := s.onPair fun p => { p with
  cmds := ⟨p.cmds.list.filter fun e => decide (e.2.conn ≠ i)⟩, ctxs := p.ctxs.erase i, probing := p.probing.erase i }

/-- R642: the NAK carrying EPSN, then the probe. -/
def State.sendProbe (i l : Nat) (s : State) : State :=
  let x := (s.ctx i).rx
  let s1 := s.sendReply i ⟨.seqNak, x.epsn, x.msn, x.epsn, x.seen⟩
  let op := if (s.ctx i).id.kind = 2 then 0x04 else 0x0C
  (s1.sendNow i { opcode := op, psn := psnAdd l (2 ^ 22), ackReq := true }).count E.PAIR_PROBE_TX 1

/-- A mirrored context is offered resumption (R642, R643). Until the host answers its probe it stands as CONNECTING. -/
def State.offerResume (i : Nat) (s : State) : State :=
  match s.pair.ctxs.find i with
  | none => s
  | some m => match m.bytes with
    | none => s.dropMirror i
    | some b =>
      let c := ctxOfBytes b
      let h := m.horizon.getD (c.rx.epsn, c.rx.msn)
      let l := m.lastPsn.getD (psnSub c.tx.nextPsn 1)
      match c.state with
      | .free => s.dropMirror i
      | .connecting => (s.dropMirror i).setCtx i { incarnation := nextIncarnation c.incarnation }
      | .ready =>
        let c1 : Ctx := { c with
          state := .connecting
          rx := { c.rx with epsn := h.1, msn := h.2 }
          tx := { c.tx with retryLeft := s.get pgXprt F.XPRT_CFG_RETRY_CNT, rnrLeft := s.get pgXprt F.XPRT_CFG_RNR_RETRY
                            rate := s.portRate c.id.egressPort, sends := 4 }
          sl := { c.sl with txCtr := c.sl.txCtr + 2 ^ 32 } }
        ((((s.setCtx i c1).rekeyTx i).when c1.id.pinned (State.startFetch i)).onPair fun p => { p with
          probing := p.probing.set i l }).sendProbe i l
      | _ => (s.dropMirror i).setCtx i { c with state := .timewait }

/-- No answer, or a host too far ahead: the context becomes FREE (R642, R645). -/
def State.resumeFail (i : Nat) (s : State) : State :=
  (((s.dropMirror i).freeConn i).count E.PAIR_CONN_RESUME_FAIL 1).occur S.PAIR_RESUME_FAIL

/-- The queue and the controller of a resumed connection, from its context; what no stream of Table 16.4 carries of them (SQ head,
authentication, the controller's kind, host, features and CC) is a free value, each from bits of its own of one draw. -/
def State.resumeQueue (i : Nat) (s : State) : State :=
  let c := (s.ctx i).id
  if c.kind = 2 then s
  else
    let k := ctrlKey c.tenant c.cntlid
    let r := s.draw
    let x := r.1
    let size := c.hsqsize + 1
    let s1 := r.2.setQueue i { ctrl := some k, qid := c.qid, tenant := c.tenant, tport := c.tport, size := size, sqHead := bitsOf x 0 5 % size
                               nextOrder := 2 ^ 24, authReq := bitAt x 5, authDone := bitAt x 6 }
    let old := s1.ctrl k
    let max := s.get pgCmdq F.CMDQ_CFG_MAX_IOQ
    let cc := bitsOf x 32 32
    let ct : Ctrl := old.getD { tenant := c.tenant, cntlid := c.cntlid, discovery := bitAt x 7 && decide (c.qid = 0), hostNqn := bitsOf x 256 2048
                                hostId := bitsOf x 128 128, kato := bitsOf x 64 32, katoStart := s.nowMs, cc := cc, rdy := bitAt cc 0
                                granted := bitsOf x 2304 16 % max + 1, grantedCq := bitsOf x 2320 16 % max + 1, aerCfg := bitsOf x 96 32 }
    s1.setCtrl k { ct with adminConn := if c.qid = 0 then i else ct.adminConn }

/-- A mirrored command is executed again from FETCHED (Table 16.6). -/
def State.replayCmd (n : Nat) (x : Slot) (s : State) : State :=
  (((s.setSlot n x).onCmdq fun c => { c with replay := c.replay ++ [n] }).syncCmdq).count E.PAIR_CMD_REPLAY 1

/-- One mirrored command of a resumed connection: the first row of Table 16.6 that applies. -/
def State.resumeCmd (i epsn h : Nat) (s : State) (e : Nat × MirCmd) : State :=
  let m := e.2
  let n := e.1
  let c := s.ctx i
  let opc := sqeOpc m.sqe
  let x : Slot := { tenant := c.id.tenant, conn := i, incarnation := c.incarnation, qid := c.id.qid, cid := sqeCid m.sqe, cntlid := c.id.cntlid
                    volume := (s.nsVolume c.id.tenant (sqeNsid m.sqe)).getD 0, sqe := m.sqe, fetchTime := s.timeStamp, order := psnSub m.capsulePsn epsn
                    capsulePsn := m.capsulePsn }
  let journaled := decide (c.id.qid ≠ 0) && decide (opc = 0x01 ∨ opc = 0x08 ∨ opc = 0x09)
  let whole := journaled && s.jrnl.recs.any fun _ r => decide (r.slot = some n ∧ r.state ≠ .opened)
  let status := fun (st : Cpl) (t : State) => (t.setSlot n { x with state := .started }).commitSlot n st
  if !psnBefore m.capsulePsn epsn then s
  else if (match m.respPsn with
    | some r => psnBefore r h
    | none => false) then s
  else if whole then (status cplOk s).count E.PAIR_CMD_REPLAY 1
  else match m.cpl with
    | some st => if c.id.qid ≠ 0 ∧ opc = 0x02 then s.replayCmd n x
        else (status st s).count E.PAIR_CMD_REPLAY 1
    | none => s.replayCmd n x

/-- Records that the subscriber had not acknowledged go out again (R310). -/
def State.requeueSubs (i : Nat) (s : State) : State := s.onRegn fun g => { g with
  subs := g.subs.mapVals fun _ e => if e.conn = i then { e with queued := e.sent ++ e.queued, sent := [] } else e }

/-- The host's answer H to the probe (R642, R644). -/
def State.resumeAnswer (i h : Nat) (s : State) : State :=
  let l := s.pair.probing.get i 0
  if psnBefore (psnAdd l 1) h then s.resumeFail i
  else
    let cmds := s.mirCmds i
    let s1 := (s.onCtx i fun c => { c with state := .ready, tx := { c.tx with nextPsn := h, unaPsn := h, sends := 0 } }).resumeQueue i
    let s2 := cmds.foldl (State.resumeCmd i (s1.ctx i).rx.epsn h) s1
    (((s2.requeueSubs i).dropMirror i).count E.PAIR_CONN_RESUMED 1).syncXprt

/-- An ACK timeout of a probe (R642). -/
def State.probeTimeout (i : Nat) (s : State) : State :=
  let n := (s.ctx i).tx.retryLeft - 1
  let s1 := (s.count E.XPRT_ACK_TIMEOUT 1).onTx i fun t => { t with retryLeft := n }
  if n = 0 then s1.resumeFail i else s1

end Sys2Proof.Machine
end

