-- ==== Sys2Proof/Machine/VatOps.lean ====
section
/-!
DEFINITION. The Vat: its queues, the outputs that cannot receive, and the request-grant-accept matching of R364 (chapter 09 of spec/).
-/
namespace Sys2Proof.Machine
open Sys2Proof

/-- The page behind an output port (R363). -/
def outPage (o : Nat) : Page :=
  if o < 16 then pgGrp o
  else if o < 40 then pgDrvp (o - 16)
  else match o with
    | 40 => pgJrnl
    | 41 => pgCmpr
    | 42 => pgCmpr
    | 43 => pgStrp
    | 44 => pgXts
    | 45 => pgPair
    | 46 => pgRegn
    | _ => pgMgmt 0

/-- The output receives cells (R363). -/
def State.outLive (s : State) (o : Nat) : Bool := s.isLive (outPage o)
/-- The output receives nothing and its queued units are freed (R363). -/
def State.outDead (s : State) (o : Nat) : Bool :=
  decide ((s.fab.page (outPage o)).state = .off ∨ (s.fab.page (outPage o)).state = .failed ∨ (s.fab.page (outPage o)).state = .retired)

/-- The head of a queue at an output that cannot receive is removed, and its reference given back (R363, R370). -/
def State.freeDead (k : Nat) (s : State) : State :=
  match s.voq k with
  | [] => s
  | q :: qs =>
    let cells := match s.cell.units.find q.unit with
      | some u => u.cells
      | none => []
    let s1 := cells.foldl (fun t c => let m := t.cell.meta c
      if m.alloc then t.freeCell (c * 256) m.owner (voqIn k) else t) (s.setVoq k qs)
    (s1.count E.VAT_DEAD_OUT q.left).occur S.VAT_DEAD_OUT

/-- A C0 head cell older than C0_AGE_NS is marked and counted once (R367). -/
def State.ageHead (k : Nat) (s : State) : State :=
  match s.voq k with
  | [] => s
  | q :: qs =>
    if voqCls k = 0 ∧ !q.aged ∧ s.get pgVat F.VAT_CFG_C0_AGE_NS * 2 < s.now - q.since then
      (s.setVoq k ({ q with aged := true } :: qs)).count E.VAT_C0_AGED 1
    else s

def portCap (p : Nat) : Nat := if p < 40 then 1 else 10

/-- Table 9.2: what the block behind a port takes from the pool, as an output, and writes into it, as an input, in thirds of a bit in a
cell time of 8/3 ns. -/
def readRate (p : Nat) : Nat := match p with
  | 40 => 38400 | 41 => 51200 | 42 => 38400 | 43 => 38400 | 44 => 61440 | 45 => 19200 | 46 => 25600 | _ => 3200
def writeRate (p : Nat) : Nat := match p with
  | 42 => 51200 | k => readRate k
/-- A cell, in thirds of a bit. -/
def cellBits : Nat := 6144
/-- The cells of this cell time for ports 40 to 47, from what each has left and its rate (R362). -/
def internalCaps (rate : Nat → Nat) (left : SMap Nat) : SMap Nat :=
  ((List.range 8).map (40 + ·)).foldl (fun m p => m.set p (min 10 ((left.get p 0 + rate p) / cellBits))) {}
/-- What is left after it: less than a cell, so that no port saves up for later. -/
def creditLeft (rate : Nat → Nat) (left cap after : SMap Nat) : SMap Nat :=
  ((List.range 8).map (40 + ·)).foldl (fun m p =>
    m.put p 0 (min (cellBits - 1) (left.get p 0 + rate p - cellBits * (cap.get p 0 - after.get p 0)))) {}

/-- A request of the first phase: the queue and the class it counts as. -/
structure VReq where
  key : Nat
  cls : Nat
  since : Nat
deriving DecidableEq, Repr

/-- A match: the queue, the cells that move, the iteration that made it. -/
structure VMatch where
  key : Nat
  n : Nat
  it : Nat
deriving DecidableEq, Repr

/-- What one cell time has matched so far. -/
structure VWork where
  fin : SMap Nat := {}
  fout : SMap Nat := {}
  done : List VMatch := []
  grant : SMap Nat := {}
  accept : SMap Nat := {}

def VWork.finOf (w : VWork) (p : Nat) : Nat := w.fin.get p (portCap p)
def VWork.foutOf (w : VWork) (p : Nat) : Nat := w.fout.get p (portCap p)
/-- The pointer set of a class: 1 for the express set (R366). -/
def ptrSet (c : Nat) : Nat := if c = 3 then 1 else 0
/-- How far a port lies from a pointer, scanning upward modulo 48. -/
def scanDist (p start : Nat) : Nat := (p + 48 - start) % 48

/-- The class at which a queue requests (R364, R367). -/
def reqClass (k : Nat) (q : List QUnit) : Nat := match q with
  | e :: _ => if voqCls k = 0 ∧ e.aged then 1 else voqCls k
  | [] => voqCls k

/-- The request of one pair of ports: its highest class; of two queues at one class, the one whose head has waited longer. -/
def bestReq (l : List VReq) : List VReq := match l with
  | [] => []
  | r :: rest => [rest.foldl (fun b x => if b.cls < x.cls ∨ (b.cls = x.cls ∧ x.since < b.since) then x else b) r]

/-- One iteration of R364. -/
def vatIter (queues : SMap (List QUnit)) (live : List Nat) (it : Nat) (w : VWork) : VWork :=
  let open1 := queues.list.filterMap fun e => match e.2 with
    | [] => none
    | h :: _ =>
      if 0 < w.finOf (voqIn e.1) ∧ 0 < w.foutOf (voqOut e.1) ∧ live.contains (voqOut e.1) ∧
          !(w.done.any fun m => decide (m.key / 4 = e.1 / 4)) then some (⟨e.1, reqClass e.1 e.2, h.since⟩ : VReq) else none
  let pairs := (open1.map fun r => r.key / 4).uniq
  let reqs := pairs.flatMap fun p => bestReq (open1.filter fun r => decide (r.key / 4 = p))
  let grants := ((reqs.map fun r => voqOut r.key).uniq).flatMap fun o =>
    let mine := reqs.filter fun r => decide (voqOut r.key = o)
    let c := (mine.map VReq.cls).foldl max 0
    let g := w.grant.get (o * 2 + ptrSet c) 0
    ((mine.filter fun r => decide (r.cls = c)).mergeSort fun a b =>
      decide (scanDist (voqIn a.key) g ≤ scanDist (voqIn b.key) g)).take (w.foutOf o)
  (List.range 48).foldl (fun w1 i =>
    let mine := grants.filter fun r => decide (voqIn r.key = i)
    let c := (mine.map VReq.cls).foldl max 0
    let a := w1.accept.get (i * 2 + ptrSet c) 0
    let order := (mine.filter fun r => decide (r.cls = c)).mergeSort fun x y =>
      decide (scanDist (voqOut x.key) a ≤ scanDist (voqOut y.key) a)
    order.foldl (fun w2 r =>
      let o := voqOut r.key
      if 0 < w2.finOf i ∧ 0 < w2.foutOf o then
        let n := if 40 ≤ i ∧ 40 ≤ o then min (min (w2.finOf i) (w2.foutOf o)) (queueCells (queues.get r.key [])) else 1
        { fin := w2.fin.set i (w2.finOf i - n), fout := w2.fout.set o (w2.foutOf o - n), done := w2.done ++ [⟨r.key, n, it⟩]
          accept := if it = 1 then w2.accept.set (i * 2 + ptrSet c) ((o + 1) % 48) else w2.accept
          grant := if it = 1 then w2.grant.set (o * 2 + ptrSet c) ((i + 1) % 48) else w2.grant }
      else w2) w1) w

/-- `n` cells leave the head of a queue, in chain order; the units that have left it whole. -/
def takeFront : Nat → List QUnit → List Nat × List QUnit
  | _, [] => ([], [])
  | 0, q => ([], q)
  | n, e :: rest => if n < e.left then ([], { e with left := e.left - n } :: rest)
    else let r := takeFront (n - e.left) rest
         (e.unit :: r.1, r.2)

/-- The cells of one match leave (R364): counts by iteration, class and port. -/
def State.moveMatch (m : VMatch) (x : List Nat × State) : List Nat × State :=
  let s := x.2
  let r := takeFront m.n (s.voq m.key)
  let itEv := match m.it with
    | 1 => E.VAT_MATCH_IT1
    | 2 => E.VAT_MATCH_IT2
    | _ => E.VAT_MATCH_IT3
  let clsEv := match voqCls m.key with
    | 0 => E.VAT_CELLS_C0
    | 1 => E.VAT_CELLS_C1
    | 2 => E.VAT_CELLS_C2
    | _ => E.VAT_CELLS_C3
  (x.1 ++ r.1, (((s.setVoq m.key r.2).count itEv 1).count clsEv m.n).count (E.VAT_CELLS_OUT.nth (voqOut m.key)) m.n)

/-- One cell time (R363 to R367): the units that have now left every queue, and the state. -/
def State.vatCellTime (s0 : State) : List Nat × State :=
  let s := s0.offerHeld
  let dead := s.vat.queues.keys.filter fun k => s.outDead (voqOut k)
  let s1 := dead.foldl (fun t k => t.freeDead k) s
  let s2 := s1.vat.queues.keys.foldl (fun t k => t.ageHead k) s1
  let live := (List.range 48).filter s2.outLive
  let capIn := internalCaps writeRate s2.vat.creditIn
  let capOut := internalCaps readRate s2.vat.creditOut
  let w0 : VWork := { fin := capIn, fout := capOut, grant := s2.vat.grant, accept := s2.vat.accept }
  let w := vatIter s2.vat.queues live 3 (vatIter s2.vat.queues live 2 (vatIter s2.vat.queues live 1 w0))
  let r := w.done.foldl (fun x m => State.moveMatch m x) (([] : List Nat), s2)
  let s3 := (r.2.onVat fun v => { v with
    grant := w.grant, accept := w.accept
    creditIn := creditLeft writeRate s2.vat.creditIn capIn w.fin, creditOut := creditLeft readRate s2.vat.creditOut capOut w.fout }).syncVat
  (r.1.uniq.filter s3.unitLeft, s3)

end Sys2Proof.Machine
end

