-- ==== Sys2Proof/Machine/XprtRx.lean ====
section
/-!
DEFINITION. XPRT as responder and requester: classification of request packets, the key check on region accesses, acknowledgements,
retransmission, sending, and rate control (chapter 04 of spec/; R184 to R192).
-/
namespace Sys2Proof.Machine
open Sys2Proof

/-! ### Opcodes (Table 4.1) -/

inductive OpKind
  | send | write | read
deriving DecidableEq, Repr

/-- A request opcode: its kind, whether it begins and ends its message, whether it carries an immediate. -/
structure OpInfo where
  kind : OpKind
  first : Bool
  last : Bool
  imm : Bool := false

def opInfo : Nat → Option OpInfo
  | 0x00 => some ⟨.send, true, false, false⟩
  | 0x01 => some ⟨.send, false, false, false⟩
  | 0x02 => some ⟨.send, false, true, false⟩
  | 0x04 => some ⟨.send, true, true, false⟩
  | 0x06 => some ⟨.write, true, false, false⟩
  | 0x07 => some ⟨.write, false, false, false⟩
  | 0x08 => some ⟨.write, false, true, false⟩
  | 0x09 => some ⟨.write, false, true, true⟩
  | 0x0A => some ⟨.write, true, true, false⟩
  | 0x0B => some ⟨.write, true, true, true⟩
  | 0x0C => some ⟨.read, true, true, false⟩
  | _ => none

/-- The opcodes that are not requests: READ Responses, Acknowledge, CNP. -/
def isReadResp (op : Nat) : Bool := decide (0x0D ≤ op ∧ op ≤ 0x10)
def isRequest (op : Nat) : Bool := !isReadResp op && decide (op ≠ 0x11 ∧ op ≠ 0x81)
/-- A connection's kind accepts a request opcode (Table 4.1). -/
def opAllowed (kind : Nat) (o : OpInfo) : Bool := decide (o.kind = .send) || decide (kind = 2)

/-! ### Failures of a request -/

/-- R132, R141, R294: an invalid-request NAK, then ERROR with cause 4. -/
def State.invalidRequest (i psn : Nat) (s : State) : State := (s.reply i .invalidNak psn).enterError i 4

/-- EPSN advances past a message (R142, R147). -/
def State.skipMessage (i psn n : Nat) (s : State) : State :=
  s.onRx i fun x => { x with epsn := psnAdd psn n, nakSent := false, openMsg := none }

/-- R147, R186: a key check fails on a new request, or on a duplicate that R190 treats as new; `n` packets are skipped under CONTINUE. -/
def State.accessFail (i : Nat) (p : Packet) (step opcode len n : Nat) (dup : Bool) (s : State) : State :=
  let c := s.ctx i
  let s1 := (s.keyFail step p.rkey (s.qpn i) opcode dup c.id.tenant p.va len).reply i .accessNak p.psn
  if !c.id.errPolicy then s1.enterError i 5
  else if dup then s1 else s1.skipMessage i p.psn n

/-- R147: a remote-operational-error NAK; the connection stays READY and EPSN passes the message. -/
def State.operationFail (i psn n : Nat) (dup : Bool) (s : State) : State :=
  let s1 := s.reply i .opNak psn
  if dup then s1 else s1.skipMessage i psn n

/-! ### Acknowledging (R145) -/

/-- After a new packet: an ACK at the coalescing count or on AckReq. -/
def State.ackNew (i : Nat) (ackReq : Bool) (s : State) : State :=
  let n := (s.ctx i).rx.unacked + 1
  let s1 := s.onRx i fun x => { x with unacked := min 63 n }
  if ackReq || decide (s.get pgXprt F.XPRT_CFG_ACK_COAL ≤ n) then s1.ack i else s1

/-- EPSN advances by one for a new packet (R142). -/
def State.accept (i : Nat) (s : State) : State :=
  s.onRx i fun x => { x with epsn := psnAdd x.epsn 1, nakSent := false, seen := x.seen + 1 }
def State.bumpMsn (i : Nat) (s : State) : State := s.onRx i fun x => { x with msn := psnAdd x.msn 1 }

/-- A received region packet crosses the Vat to REGN, and with region data to PAIR in paired mode (R35, R371); until it has left its
queues it is not in custody (R377). -/
def State.intoVat (i : Nat) (isWrite : Bool) (rx : RxMeta) (psn : Nat) (s : State) : State :=
  match rx.unit.bind s.unitAt with
  | none => s
  | some u =>
    if !s.isOn pgVat then s
    else
      let outs := if isWrite && s.mirroring then [46, 45] else [46]
      let cls := if s.ctxExpress i then 3 else 1
      (s.enqueueUnit (s.vatPort i rx.port) outs cls u).onRx i fun x => { x with inVat := x.inVat ++ [(u, psn)] }

/-! ### Region accesses -/

/-- The packets that an access of `n` bytes takes on a connection. -/
def State.span (s : State) (i n : Nat) : Nat := packetsOf n (s.ctx i).mtu

def appendBlob (a b : Blob) : Blob := ⟨a.len + b.len, a.val + b.val % 2 ^ (8 * b.len) * 2 ^ (8 * a.len)⟩

/-- The bytes of a packet of a duplicate stand at its place in the message; packets that it leaps over have not come (R143, R144). -/
def RegWrite.placeDup (w : RegWrite) (p : Packet) : RegWrite :=
  let k := psnSub p.psn w.psn
  let next := packetsOf w.data.len w.mtu
  let had := if w.data.len = 0 then 0 else next
  { w with data := ⟨max w.data.len (k * w.mtu + p.payload.len), withBytes w.data.val (k * w.mtu) p.payload.len p.payload.val⟩
           missing := (w.missing.filter fun j => decide (j ≠ k)) ++ ((List.range k).filter fun j => decide (had ≤ j)) }

/-- The bytes of a packet join the write it belongs to; with the last packet the write is whole. -/
def State.feedWrite (id : Nat) (p : Packet) (last : Bool) (imm : Option Nat) (s : State) : State :=
  let s1 := s.onWrite id fun w =>
    let w1 := if w.dup then w.placeDup p else { w with data := appendBlob w.data p.payload }
    { w1 with lastPsn := p.psn, imm := if last then imm else w.imm }
  if last then s1.wholeWrite id else s1

/-- The message that a write's first packet opens; none where that packet is its last. -/
def State.openWrite (i : Nat) (p : Packet) (last dup : Bool) (id : Option Nat) (s : State) : State :=
  let m : Option InMsg := if last then none
    else some (.write dup (p.rkey / 256) id (p.dmaLen - p.payload.len) p.psn (s.span i p.dmaLen))
  s.onRx i fun x => if dup then { x with dupMsg := m } else { x with openMsg := m }

/-- A write begins (R184): its check has passed, or waits for the entry. -/
def State.beginWrite (i : Nat) (p : Packet) (o : OpInfo) (idx : Nat) (dup checking : Bool) (s : State) : State :=
  let k := s.key idx
  let id := s.regn.nextId
  let w : RegWrite := { id := id, ctx := i, qpn := s.qpn i, key := idx, region := k.region, rkey := p.rkey, va := p.va, addr := k.base + p.va
                        total := p.dmaLen, data := ⟨0, 0⟩, dup := dup, psn := p.psn, lastPsn := p.psn, mtu := (s.ctx i).mtu, checking := checking }
  (((s.when (!checking) (State.keyPass idx)).newWrite w).feedWrite id p o.last (if o.imm then some p.imm else none)).openWrite i p o.last
    dup (some id)

/-- R187, R189: a stale duplicate write is acknowledged and not placed. DEDUCED (log entry 123): each of its packets is counted. -/
def State.staleDup (i : Nat) (s : State) : State := ((s.count E.XPRT_DUP_STALE 1).count E.GARD_KEY_STALE_DUP 1).ack i

/-- A duplicate message that lost its further packets goes on with those that came (R143). -/
def State.cutDup (i : Nat) (s : State) : State :=
  let s1 := s.onRx i fun x => { x with dupMsg := none }
  match (s.ctx i).rx.dupMsg with
  | some (.write _ _ (some id) _ _ _) => (s1.cutWrite id).settle
  | _ => s1

/-- A first packet of a new write is accepted (R142, R145). -/
def State.acceptFirst (i : Nat) (p : Packet) (last : Bool) (s : State) : State :=
  let s1 := s.accept i
  (if last then s1.bumpMsn i else s1).ackNew i p.ackReq

/-- The key check that a write's first packet asks for. -/
def State.writeCheck (s : State) (i : Nat) (p : Packet) (o : OpInfo) : KeyRes :=
  s.keyCheck p.rkey (if o.imm then .writeImm else .write) p.va p.dmaLen (s.ctx i).id.tenant (s.qpn i)

/-- The first or only packet of a region write (R184, R185, R189, R190, R289). -/
def State.writeFirst (i : Nat) (rx : RxMeta) (p : Packet) (o : OpInfo) (dup : Bool) (s0 : State) : State :=
  let idx := p.rkey / 256
  if !s0.keyHit idx then
    let id := s0.regn.nextId
    let s1 := ((s0.beginWrite i p o idx dup true).onGard fun g => { g with
      keyWaits := g.keyWaits ++ [⟨idx, i, p.psn, .write id p dup [(rx, p.psn)]⟩] }).count E.GARD_KEY_MISS 1
    if dup then s1 else s1.acceptFirst i p o.last
  else
    let s := s0.keyTouch idx
    let n := s.span i p.dmaLen
    match s.writeCheck i p o with
    | .fail step =>
      if dup && decide (step = 2 ∨ step = 3) then (s.openWrite i p o.last true none).staleDup i
      else s.accessFail i p step p.opcode p.dmaLen n dup
    | .pass idx =>
      if !s.isOn pgRegn then s.operationFail i p.psn n dup
      else
        let s1 := (s.beginWrite i p o idx dup false).intoVat i true rx p.psn
        if dup then s1.ack i else s1.acceptFirst i p o.last

/-- A region read whose check has an outcome (R184, R190, R286): `new` says that EPSN still stands at it. -/
def State.readChecked (i : Nat) (p : Packet) (seen : Nat) (s : State) : State :=
  let idx := p.rkey / 256
  let r : RegRead := ⟨s.regn.nextId, i, idx, (s.key idx).base + p.va, p.dmaLen, p.psn, seen⟩
  (s.keyPass idx).onRegn fun g => { g with nextId := g.nextId + 1, reads := g.reads ++ [r] }

/-- A READ Request takes its PSNs (R142). -/
def State.acceptRead (i n : Nat) (dup : Bool) (s : State) : State :=
  let s1 := s.onRx i fun x => { x with readsIn := x.readsIn + 1 }
  if dup then s1 else (s1.onRx i fun x => { x with epsn := psnAdd x.epsn n, nakSent := false }).bumpMsn i

/-- A region read (R141, R184, R185, R190, R286). -/
def State.readRequest (i : Nat) (p : Packet) (dup : Bool) (s0 : State) : State :=
  let idx := p.rkey / 256
  let c := s0.ctx i
  let n := s0.span i p.dmaLen
  if !s0.keyHit idx then
    if c.id.respRes ≤ c.rx.readsIn then s0.invalidRequest i p.psn
    else
      ((s0.acceptRead i n dup).onGard fun g => { g with keyWaits := g.keyWaits ++ [⟨idx, i, p.psn, .read p dup c.rx.seen⟩] }).count
        E.GARD_KEY_MISS 1
  else
    let s := s0.keyTouch idx
    match s.keyCheck p.rkey .read p.va p.dmaLen c.id.tenant (s.qpn i) with
    | .fail step => s.accessFail i p step p.opcode p.dmaLen n dup
    | .pass _ =>
      if !s.isOn pgRegn then s.operationFail i p.psn n dup
      else if c.id.respRes ≤ c.rx.readsIn then s.invalidRequest i p.psn
      else (s.readChecked i p c.rx.seen).acceptRead i n dup

/-! ### New requests (R132, R142) -/

/-- Control messages of a connection that are neither answered nor NAKed (R294). -/
def State.ctlOpen (s : State) (i : Nat) : Nat :=
  (s.ctx i).rx.msgs.length + (s.regn.flushes.filter fun f => decide (f.ctx = i)).length
    + s.regn.subs.count fun _ e => decide (e.conn = i) && e.ending.isSome

/-- A SEND packet (Table 4.1): a whole one goes to CMDQ or REGN. -/
def State.sendPacket (i : Nat) (rx : RxMeta) (p : Packet) (o : OpInfo) (s : State) : State :=
  let c := s.ctx i
  let d := match c.rx.openMsg with
    | some (.send _ _ _ d) => appendBlob d p.payload
    | _ => p.payload
  if !o.last then ((s.onRx i fun x => { x with openMsg := some (.send p.psn false rx.colour d) }).accept i).ackNew i p.ackReq
  else if c.id.kind = 2 ∧ 16 ≤ s.ctlOpen i then s.invalidRequest i p.psn
  else
    (((s.onRx i fun x => { x with openMsg := none, msgs := x.msgs ++ [⟨p.psn, rx.colour, d⟩] }).accept i).bumpMsn i).ackNew i p.ackReq

/-- A write's key check still waits (R185). -/
def State.writeWaits (s : State) (id : Nat) : Bool := s.regn.writes.any fun w => decide (w.id = id) && w.checking

/-- A later packet of a write stands where its write stands: it waits with it, or crosses the Vat. -/
def State.followWrite (i : Nat) (id : Option Nat) (rx : RxMeta) (psn : Nat) (s : State) : State :=
  match id with
  | none => s
  | some n =>
    if s.writeWaits n then s.onGard fun g => { g with keyWaits := g.keyWaits.map fun w => match w.what with
      | .write m p dup us => if m = n then { w with what := .write m p dup (us ++ [(rx, psn)]) } else w
      | _ => w }
    else s.intoVat i true rx psn

/-- An immediate's right is missing at the Last packet (R184): what has been received is placed, and the message fails there; the log
takes what the First packet asked for (R193). -/
def State.immFail (i : Nat) (p : Packet) (id : Option Nat) (dup : Bool) (s : State) : State :=
  match id.bind fun n => s.regn.writes.find? fun w => decide (w.id = n) with
  | none => s
  | some w => ((s.cutWrite w.id).settle).accessFail i { p with rkey := w.rkey, va := w.va } 5 p.opcode w.total 1 dup

/-- The entry of a write that has passed its check does not grant WRITE_IMM (R184). -/
def State.immDenied (s : State) (o : OpInfo) (idx : Nat) (id : Option Nat) : Bool :=
  o.imm && !hasRights (s.key idx).rights 4 && (match id with
    | some n => !s.writeWaits n
    | none => false)

/-- A later packet of an open region write (R184, R192). -/
def State.writeNext (i : Nat) (rx : RxMeta) (p : Packet) (o : OpInfo) (idx : Nat) (id : Option Nat) (left first span : Nat) (s : State) : State :=
  if s.immDenied o idx id then (s.immFail i p id false).onRx i fun x => { x with openMsg := none }
  else
    let s1 := match id with
      | some n => s.feedWrite n p o.last (if o.imm then some p.imm else none)
      | none => s
    let s2 := ((s1.followWrite i id rx p.psn).onRx i fun x => { x with
      openMsg := if o.last then none else some (.write false idx id (left - p.payload.len) first span) }).accept i
    (if o.last then s2.bumpMsn i else s2).ackNew i p.ackReq

/-- A new request packet, in sequence (R132). -/
def State.newPacket (i : Nat) (rx : RxMeta) (p : Packet) (s0 : State) : State :=
  let s := s0.cutDup i
  let c := s.ctx i
  match opInfo p.opcode with
  | none => s.invalidRequest i p.psn
  | some o =>
    let cross := s.when (decide (c.id.kind = 2)) (State.intoVat i false rx p.psn)
    if !opAllowed c.id.kind o then s.invalidRequest i p.psn
    else match o.kind, o.first, c.rx.openMsg with
      | .send, true, none => cross.sendPacket i rx p o
      | .send, false, some (.send _ _ _ _) => cross.sendPacket i rx p o
      | .write, true, none => s.writeFirst i rx p o false
      | .write, false, some (.write _ idx id left first span) => s.writeNext i rx p o idx id left first span
      | .read, _, none => s.readRequest i p false
      | _, _, _ => s.invalidRequest i p.psn

/-! ### Duplicates (R143, Table 4.5) -/

/-- A duplicate Middle or Last packet: it follows its message's first packet where that has come again, else it is acknowledged. -/
def State.dupNext (i : Nat) (rx : RxMeta) (p : Packet) (o : OpInfo) (s : State) : State :=
  match (s.ctx i).rx.dupMsg with
  | some (.write true idx id left first span) =>
    let s1 := s.onRx i fun x => { x with
      dupMsg := if o.last then none else some (.write true idx id (left - p.payload.len) first span) }
    if span ≤ psnSub p.psn first then s.ack i
    else match id with
      | none => s1.staleDup i
      | some n =>
        if s.immDenied o idx id then (s.immFail i p id true).onRx i fun x => { x with dupMsg := none }
        else ((s1.feedWrite n p o.last (if o.imm then some p.imm else none)).followWrite i id rx p.psn).ack i
  | _ => s.ack i

def State.dupPacket (i : Nat) (rx : RxMeta) (p : Packet) (s0 : State) : State :=
  let s := (s0.count E.XPRT_DUP_PKT 1).onCtxStat i fun st => { st with dups := (st.dups + 1) % 2 ^ 32 }
  match opInfo p.opcode with
  | none => s.invalidRequest i p.psn
  | some o =>
    if !opAllowed (s.ctx i).id.kind o then s.invalidRequest i p.psn
    else match o.kind, o.first with
      | .send, first => (s.when first (State.cutDup i)).ack i
      | .read, _ => (s.cutDup i).readRequest i p true
      | .write, true => (s.cutDup i).writeFirst i rx p o true
      | .write, false => s.dupNext i rx p o

/-! ### Classification (R142, Table 4.4) -/

/-- Classify a request packet by its PSN. -/
def State.request (i : Nat) (rx : RxMeta) (p : Packet) (s : State) : State :=
  let x := (s.ctx i).rx
  let behind := psnSub x.epsn p.psn
  if p.psn = x.epsn then (s.count E.XPRT_RX_PKTS 1).newPacket i rx p
  else if behind < 2 ^ 23 + 1 then
    if behind ≤ 2 ^ s.get pgXprt F.XPRT_WIN_REPLAY_LOG2 then s.dupPacket i rx p
    else (s.count E.XPRT_DUP_OLD 1).ack i
  else
    let s1 := s.count E.XPRT_PSN_AHEAD 1
    if x.nakSent then s1
    else (s1.reply i .seqNak x.epsn).onRx i fun y => { y with nakSent := true }

/-! ### A key check that has its entry (R185, R188) -/

/-- A NAK takes its place among the replies that wait, in PSN order. -/
def State.replyAt (i : Nat) (aeth : Aeth) (psn : Nat) (s : State) : State :=
  let x := (s.ctx i).rx
  let before := x.replies.takeWhile fun r => !psnBefore psn r.epsn
  let s1 := s.onRx i fun y => { y with replies := before ++ [⟨aeth, psn, x.msn, psn, x.seen⟩] ++ y.replies.drop before.length }
  s1.releaseReplies i (x.replies.length + 1)

/-- A message that has failed after its first packet was accepted: what is open of it ends there (R147). -/
def State.endMessage (i : Nat) (p : Packet) (id : Option Nat) (s : State) : State :=
  let mine := fun (m : Option InMsg) => match m with
    | some (.write _ _ k _ _ _) => decide (k = id)
    | _ => false
  let x := (s.ctx i).rx
  let s1 := s.onRx i fun y => if mine y.dupMsg then { y with dupMsg := none } else y
  if mine x.openMsg then s1.skipMessage i p.psn (s.span i p.dmaLen) else s1

/-- The write whose check waited has failed it: it never was, and its cells go. -/
def State.dropWaiting (i id : Nat) (units : List (RxMeta × Nat)) (s : State) : State :=
  units.foldl (fun t u => t.dropRxUnit u.1) (s.onRegn fun g => { g with writes := g.writes.filter fun w => decide (w.id ≠ id ∨ w.ctx ≠ i) })

/-- R147, R186 for a check that waited. -/
def State.lateAccessFail (i : Nat) (p : Packet) (step opcode : Nat) (dup : Bool) (id : Option Nat) (s : State) : State :=
  let c := s.ctx i
  let s1 := (s.keyFail step p.rkey (s.qpn i) opcode dup c.id.tenant p.va p.dmaLen).replyAt i .accessNak p.psn
  if c.id.errPolicy then s1.endMessage i p id else s1.enterError i 5
def State.lateOperationFail (i : Nat) (p : Packet) (id : Option Nat) (s : State) : State := (s.replyAt i .opNak p.psn).endMessage i p id

/-- A write that waited and has passed goes on (R184, R281). -/
def State.resumeWrite (i id idx : Nat) (p : Packet) (units : List (RxMeta × Nat)) (s : State) : State :=
  let k := s.key idx
  let s1 := (s.keyPass idx).onWrite id fun w => { w with checking := false, region := k.region, addr := k.base + p.va }
  let s2 := units.foldl (fun t u => t.intoVat i true u.1 u.2) s1
  match s.regn.writes.find? fun w => decide (w.id = id) with
  | none => s2
  | some w => if w.whole then s2.wholeWrite id else if w.cut then (s2.cutWrite id).settle else s2

/-- A write's entry has come, or an uncorrectable error of it (R188). -/
def State.writeArrived (ue : Bool) (i id : Nat) (p : Packet) (dup : Bool) (units : List (RxMeta × Nat)) (s : State) : State :=
  match opInfo p.opcode, s.regn.writes.find? (fun w => decide (w.id = id)) with
  | some o, some w =>
    let gone := s.dropWaiting i id units
    let immBad := !o.imm && w.imm.isSome && !hasRights (s.key (p.rkey / 256)).rights 4
    if ue then gone.lateOperationFail i p (some id)
    else match s.writeCheck i p o with
      | .fail step =>
        if dup && decide (step = 2 ∨ step = 3) then (gone.onRx i fun x => { x with dupMsg := match x.dupMsg with
          | some (.write d k (some n) a b c) => some (.write d k (if n = id then none else some n) a b c)
          | m => m }).staleDup i
        else gone.lateAccessFail i p step p.opcode dup (some id)
      | .pass idx =>
        if immBad then gone.lateAccessFail i p 5 0x09 dup (some id)
        else if !s.isOn pgRegn then gone.lateOperationFail i p (some id)
        else
          let s1 := s.resumeWrite i id idx p units
          if dup then s1.ack i else s1
  | _, _ => s

/-- A region read's entry has come. -/
def State.regReadArrived (ue : Bool) (i : Nat) (p : Packet) (dup : Bool) (seen : Nat) (s : State) : State :=
  let gone := s.onRx i fun x => { x with readsIn := x.readsIn - 1 }
  if ue then gone.lateOperationFail i p none
  else match s.keyCheck p.rkey .read p.va p.dmaLen (s.ctx i).id.tenant (s.qpn i) with
    | .fail step => gone.lateAccessFail i p step p.opcode dup none
    | .pass _ => if !s.isOn pgRegn then gone.lateOperationFail i p none else s.readChecked i p seen

/-! ### Sending (R148, R153) -/

/-- The last packet of a region access leaves, or never will: the access ends (R182). -/
def State.endKey (k : Option Nat) (s : State) : State := match k with
  | some n => s.keyEnd n
  | none => s

/-- A packet goes to the connection's leaf at its port node, sealed; on a port that is down it is discarded (R105). -/
def State.enqueueEgr (i : Nat) (p : OutPkt) (s : State) : State :=
  let c := s.ctx i
  let port := c.id.egressPort
  let r := s.sealPkt i p
  let bytes := s.pktLen i p
  match r.1 with
  | none => r.2.endKey p.key
  | some (q, trailer) =>
    if !s.portUp port then (r.2.count (E.LINE_TX_PORT_DOWN.on (port / 4)) 1).endKey p.key
    else r.2.onTmgr fun t => { t with
      egr := t.egr ++ [⟨port, s.leafOf c.id.tport, i, bytes, (bytes + 255) / 256, s.now, q, trailer⟩] }

/-- Packets of a message of `d` bytes at a path MTU, numbered from `psn`; `ops` gives the opcodes First, Middle, Last, Only. -/
def segment (mtu psn : Nat) (ops : Nat × Nat × Nat × Nat) (va rkey : Nat) (d : Blob) : List OutPkt :=
  let n := packetsOf d.len mtu
  (List.range n).map fun k =>
    let len := min mtu (d.len - k * mtu)
    let op := if n = 1 then ops.2.2.2 else if k = 0 then ops.1 else if k + 1 = n then ops.2.2.1 else ops.2.1
    { opcode := op, psn := psnAdd psn k, ackReq := decide (k + 1 = n), va := if k = 0 then va else 0, rkey := if k = 0 then rkey else 0
      dmaLen := if k = 0 then d.len else 0, payload := ⟨len, bytesAt d.val (k * mtu) len⟩ }

/-- The last packet of a message carries what its acknowledgement is for. -/
def tagLast (slot sub key : Option Nat) : List OutPkt → List OutPkt
  | [] => []
  | [p] => [{ p with slot := slot, sub := sub, key := key }]
  | p :: ps => p :: tagLast slot sub key ps

/-- The class of a connection's traffic to its port (Table 9.1). -/
def State.ctxClass (s : State) (i : Nat) : Nat := if s.ctxExpress i then 3 else 1
/-- A packet's cells, from the port of the block that builds it to the connection's port (R92, R148); a packet of a read's result takes
cells that are there already. -/
def State.cellsOut (i src : Nat) (cells : Option UnitKind) (kind : UnitKind) (p : OutPkt) (s : State) : State :=
  let n := cellsFor (max 1 p.payload.len)
  match cells.bind fun k => s.cell.units.findKey fun _ u => decide (u.kind = k) with
  | some u => match s.splitUnit u n kind with
    | some r => r.2
    | none => s
  | none => s.ship { kind := kind, port := src, cls := s.ctxClass i, bytes := 256 * n, outs := [s.vatPort i (s.ctx i).id.egressPort] }
/-- The port at which XPRT's own packets enter the Vat (Table 1.2). -/
def State.ownPort (s : State) (i : Nat) : Nat := s.vatPort i (s.ctx i).id.egressPort

/-- New packets take PSNs, are retained with their cells and go to egress (R148, R153). -/
def State.sendPackets (i src : Nat) (cells : Option UnitKind) (ps : List OutPkt) (s0 : State) : State :=
  let s := ps.foldl (fun t p => t.cellsOut i src cells (.egress i p.psn) p) s0
  let s1 := s.onTx i fun t => { t with
    nextPsn := psnAdd t.nextPsn ps.length, retained := t.retained ++ ps.map fun p => { p with key := none } }
  ps.foldl (fun t p => t.enqueueEgr i p) (s1.mirrorIf i (.lastPsn i (psnAdd (s.ctx i).tx.nextPsn (ps.length - 1))))

/-- READ Responses carry the request's PSNs and are not retained (R142, R757); they acknowledge the requests before them (R145). -/
def State.sendResponse (i psn key seen : Nat) (d : Blob) (s : State) : State :=
  let ps := tagLast none none (some key) (segment (s.ctx i).mtu psn (0x0D, 0x0E, 0x0F, 0x10) 0 0 d)
  let ps1 := ps.map fun p => { p with ackReq := false, msn := (s.ctx i).rx.msn }
  (ps1.foldl (fun t p => (t.cellsOut i 46 none (.response i p.psn) p).enqueueEgr i p) s).onRx i fun x => { x with readsIn := x.readsIn - 1, unacked := min x.unacked (x.seen - seen) }

/-- A READ Request takes as many PSNs as its response has packets (R757), with its cells reserved (R376); none where it must wait. -/
def State.sendRead (i va rkey len slot : Nat) (s : State) : Option State :=
  let c := s.ctx i
  let n := s.span i len
  let r : AllocReq := ⟨s.vatPort i c.id.egressPort, 2, cellsFor len, .reserve slot, none, false, []⟩
  if c.id.initDepth ≤ c.tx.reads.length ∨ !s.mayTake r then none
  else match s.takeCells r with
    | none => none
    | some (_, s1) =>
      let p : OutPkt := { opcode := 0x0C, psn := c.tx.nextPsn, span := n, va := va, rkey := rkey, dmaLen := len }
      let s2 := s1.onTx i fun t => { t with
        nextPsn := psnAdd t.nextPsn n, retained := t.retained ++ [p]
        reads := t.reads ++ [{ psn := p.psn, span := n, nextPsn := p.psn, va := va, rkey := rkey, len := len, got := ⟨0, 0⟩, slot := slot }] }
      some (((s2.mirrorIf i (.lastPsn i (psnAdd c.tx.nextPsn (n - 1)))).cellsOut i (s2.ownPort i) none (.egress i p.psn) p).enqueueEgr i p)

/-- The first submitted work of a connection leaves (R153); a READ that may not go yet stays first. -/
def State.sendWork (i : Nat) (s : State) : State :=
  let c := s.ctx i
  let pop := s.onTx i fun t => { t with work := t.work.tail }
  match c.tx.work with
  | [] => s
  | .send slot key d :: _ =>
    let ps := tagLast slot none key (segment c.mtu c.tx.nextPsn (0x00, 0x01, 0x02, 0x04) 0 0 d)
    let s1 := match slot with
      | some n => (pop.onSlot n fun v => { v with respPsn := some (psnAdd c.tx.nextPsn (ps.length - 1)) }).mirrorIf i (.command n)
      | none => pop
    s1.sendPackets i (s1.ownPort i) none (ps.map fun p => { p with dmaLen := 0 })
  | .write va rkey d cells :: _ => pop.sendPackets i (pop.ownPort i) cells (segment c.mtu c.tx.nextPsn (0x06, 0x07, 0x08, 0x0A) va rkey d)
  | .writeImm va rkey imm sub d :: _ =>
    let p : OutPkt := { opcode := 0x0B, psn := c.tx.nextPsn, ackReq := true, va := va, rkey := rkey, dmaLen := d.len, imm := imm
                        payload := d, sub := some sub }
    pop.sendPackets i 46 none [p]
  | .read va rkey len slot :: _ => (pop.sendRead i va rkey len slot).getD s
  | .readResp psn key seen d :: _ => pop.sendResponse i psn key seen d

/-! ### Retransmission (R149 to R152, R757) -/

/-- One retry of a connection, or ERROR with cause 1 where none is left (R152). -/
def State.retry (i : Nat) (k : State → State) (s : State) : State :=
  if (s.ctx i).state ≠ .ready then s
  else if (s.ctx i).tx.retryLeft = 0 then s.enterError i 1
  else k (s.onTx i fun t => { t with retryLeft := t.retryLeft - 1 })

/-- A retained packet as it is sent again: a READ Request asks only for what has not come. -/
def resendForm (reads : List ReadOut) (p : OutPkt) : OutPkt :=
  if p.opcode ≠ 0x0C then p
  else match reads.find? fun r => decide (r.psn = p.psn) with
    | some r => { p with psn := r.nextPsn, va := r.va + r.got.len, dmaLen := r.len - r.got.len }
    | none => p

def State.resendOne (i : Nat) (s : State) (p : OutPkt) : State :=
  ((s.enqueueEgr i (resendForm (s.ctx i).tx.reads p)).count E.XPRT_RETX_PKTS 1).onCtxStat i fun st => { st with retx := (st.retx + 1) % 2 ^ 32 }

/-- Go back N: every retained packet from a PSN on, in PSN order (R149). -/
def State.resendFrom (i psn : Nat) (s : State) : State :=
  ((s.ctx i).tx.retained.filter fun p => !psnBefore (psnAdd p.psn (p.span - 1)) psn).foldl (State.resendOne i) s

/-- Packets that an acknowledgement covers are released, and what they were for is told (R148); no acknowledgement releases a READ Request
(R757). -/
def State.release (i upto : Nat) (s : State) : State :=
  let t := (s.ctx i).tx
  let gone := t.retained.filter fun p => psnBefore p.psn upto && decide (p.opcode ≠ 0x0C)
  let s1 := (s.onTx i fun t => { t with retained := t.retained.filter fun p => !gone.contains p }).dropKind fun k =>
    gone.any fun p => decide (k = .egress i p.psn)
  s1.onXprt fun x => { x with
    ackedSlots := x.ackedSlots ++ gone.filterMap OutPkt.slot
    ackedSubs := x.ackedSubs ++ (gone.filterMap OutPkt.sub).filter fun n => s.regn.subs.any fun _ e => decide (e.serial = n) }

/-- UNA_PSN advances, and with it RETRY_LEFT and RNR_LEFT are restored (R150, R151). -/
def State.advanceUna (i upto : Nat) (s : State) : State :=
  if psnBefore (s.ctx i).tx.unaPsn upto then
    s.onTx i fun t => { t with unaPsn := upto, retryLeft := s.get pgXprt F.XPRT_CFG_RETRY_CNT, rnrLeft := s.get pgXprt F.XPRT_CFG_RNR_RETRY }
  else s

/-- The first response PSN of the oldest outstanding READ. -/
def CtxTx.readFloor (t : CtxTx) : Option Nat := t.reads.head?.map ReadOut.nextPsn

/-- Resend an outstanding READ from its first missing response, once per missing PSN (R757). -/
def State.resendRead (i psn : Nat) (s : State) : State :=
  match (s.ctx i).tx.reads.find? fun r => decide (r.psn = psn) with
  | none => s
  | some r =>
    if r.resent then s
    else s.retry i fun t =>
      match (t.ctx i).tx.retained.find? fun p => decide (p.opcode = 0x0C ∧ p.psn = psn) with
      | none => t
      | some p => (t.resendOne i p).onTx i fun x => { x with
          reads := x.reads.map fun y => if y.psn = psn then { y with resent := true } else y }

/-- An ACK for every PSN before `upto` (R148, R150, R757). -/
def State.handleAck (i upto : Nat) (s : State) : State :=
  let t := (s.ctx i).tx
  let lim := match t.readFloor with
    | some f => if psnBefore f upto then f else upto
    | none => upto
  let s1 := (s.release i lim).advanceUna i lim
  match t.reads.head? with
  | some r => if psnBefore r.nextPsn upto then s1.resendRead i r.psn else s1
  | none => s1

/-- The data of a READ Response takes its part of the reserved cells: a Write's goes to JRNL and, in paired mode, to PAIR (R28, R35, R371,
R376); what CMDQ itself takes is not traffic. -/
def State.writeCells (slot len : Nat) (s : State) : State :=
  match s.cell.units.findKey (fun _ u => decide (u.kind = .reserve slot)), s.slot slot with
  | some u, some x =>
    if x.qid ≠ 0 ∧ sqeOpc x.sqe = 0x01 then
      match s.splitUnit u (cellsFor len) (.writeData slot) with
      | some r => r.2.offerUnit (if s.mirroring then [40, 45] else [40]) r.1
      | none => s
    else match s.splitUnit u (cellsFor len) .other with
      | some r => r.2.dropUnit r.1
      | none => s
  | _, _ => s

/-- A READ Response (R757). -/
def State.handleReadResp (i : Nat) (p : Packet) (s1 : State) : State :=
  let s := match (s1.ctx i).tx.reads.find? fun r => decide (psnSub p.psn r.psn < r.span) with
    | some r => if p.psn = r.nextPsn then s1.writeCells r.slot p.payload.len else s1
    | none => s1
  let t := (s.ctx i).tx
  match t.reads.find? fun r => decide (psnSub p.psn r.psn < r.span) with
  | none => s
  | some r =>
    let s0 := s.handleAck i r.psn
    if p.psn ≠ r.nextPsn then
      if psnBefore r.nextPsn p.psn then s0.resendRead i r.psn else s0
    else
      let got := appendBlob r.got p.payload
      if psnAdd r.psn r.span = psnAdd p.psn 1 then
        let s1 := (s0.onTx i fun x => { x with
          reads := x.reads.filter fun y => decide (y.psn ≠ r.psn)
          retained := x.retained.filter fun q => decide (q.psn ≠ r.psn) }).dropKind fun k => decide (k = .egress i r.psn)
        (s1.advanceUna i (psnAdd p.psn 1)).readArrived r.slot got
      else
        (s0.onTx i fun x => { x with
          reads := x.reads.map fun y => if y.psn = r.psn then { y with nextPsn := psnAdd p.psn 1, got := got, resent := false } else y }).advanceUna
            i (psnAdd p.psn 1)

/-! ### Rate control (R155, R156) -/

def State.cnpReceived (i : Nat) (s0 : State) : State :=
  let s := (s0.count E.XPRT_CNP_RX 1).onCtxStat i fun st => { st with cnpRx := (st.cnpRx + 1) % 2 ^ 32 }
  let c := s.ctx i
  if !c.id.rcEn then s
  else if c.tx.decSeen && decide (s.nowUs - c.tx.lastDec < s.get pgXprt F.XPRT_RC3_RC_HOLD) then s.count E.XPRT_CNP_HELD 1
  else
    (s.onTx i fun t => { t with
      rate := max (s.get pgXprt F.XPRT_RC2_RC_MIN * 100) (t.rate - t.rate * s.get pgXprt F.XPRT_RC_RC_DEC / 256)
      quiet := 0, lastDec := s.nowUs, decSeen := true }).count E.XPRT_RATE_DEC 1

def State.rateIncrease (i : Nat) (s : State) : State :=
  let c := s.ctx i
  let port := s.portRate c.id.egressPort
  if !c.id.rcEn ∨ port ≤ c.tx.rate then s
  else
    let q := min 255 (c.tx.quiet + 1)
    let add := s.get pgXprt F.XPRT_RC2_RC_ADD
    let step := if q < s.get pgXprt F.XPRT_RC_RC_FAST_AFTER then add else 8 * add
    s.onTx i fun t => { t with quiet := q, rate := min port (t.rate + step) }

/-- R156: the rates of a port's connections above its new live rate are clipped. -/
def State.clipRates (port rate : Nat) (s : State) : State :=
  let mine := fun (c : Ctx) => !c.isFree && decide (c.id.egressPort = port ∧ rate < c.tx.rate)
  (s.xprt.ctx.filter fun _ c => mine c).keys.foldl (fun t i => t.onTx i fun x => { x with rate := rate }) s

/-! ### A received packet, whatever its opcode -/

/-- A packet of a connection that has opened: the path it came by, congestion, and its own handling by state and opcode. -/
def State.opened (i : Nat) (rx : RxMeta) (p : Packet) (s : State) : State :=
  let c := s.ctx i
  let len := frameLen (tpVlanEn (s.fab.tport c.id.tport)) c.id.ipv6 c.id.sealed (extLen p.opcode) p.payload.len
  let s1 := ((s.learnPath i rx len).maybeCnp i rx.ce)
  if isRequest p.opcode then
    let s2 := if c.state = .connecting then s1.setConnState i .ready else s1
    s2.request i rx p
  else if s.probing i then
    (if p.opcode = 0x11 ∧ p.aeth = .seqNak then (s1.count E.XPRT_NAK_RX 1).resumeAnswer i p.psn else s1)
  else if c.state ≠ .ready then s1
  else if p.opcode = 0x81 then s1.cnpReceived i
  else if isReadResp p.opcode then s1.handleReadResp i p
  else match p.aeth with
    | .ack => s1.handleAck i (psnAdd p.psn 1)
    | .seqNak => ((s1.handleAck i p.psn).count E.XPRT_NAK_RX 1).retry i fun t => t.resendFrom i p.psn
    | .rnr _ =>
      let s2 := ((s1.handleAck i p.psn).count E.XPRT_RNR_RX 1)
      if s.get pgXprt F.XPRT_CFG_RNR_RETRY ≠ 7 ∧ (s2.ctx i).tx.rnrLeft = 0 then s2.enterError i 2
      else s2.onTx i fun t => { t with rnrWait := true, rnrLeft := t.rnrLeft - 1 }
    | _ => (s1.count E.XPRT_NAK_RX 1).enterError i 3

/-- A received packet's cells are given back where they have not become traffic and wait for no key. -/
def State.dropUnused (rx : RxMeta) (s : State) : State :=
  match rx.unit.bind s.unitAt with
  | none => s
  | some u =>
    let waits := s.gard.keyWaits.any fun w => match w.what with
      | .write _ _ _ us => us.any fun e => decide (e.1.unit = rx.unit)
      | _ => false
    if waits || s.vat.queues.any (fun _ q => q.any fun e => decide (e.unit = u)) then s else s.dropUnit u

/-- A packet whose context is on die (R129, R160, R200). -/
def State.process (rx : RxMeta) (p : Packet) (s : State) : State :=
  match s.ctxFor rx p.qpn with
  | none => (s.dropRxUnit rx).count E.XPRT_QPN_MISS 1
  | some i =>
    let c := s.ctx i
    let live := decide (c.state = .ready ∨ c.state = .connecting) && !s.probing i
    if isRequest p.opcode && !live then (s.dropRxUnit rx).count E.XPRT_CLOSED_DROP 1
    else match s.openPkt i p with
      | (.drop, s1) => s1.dropRxUnit rx
      | (.limit, s1) => (s1.dropRxUnit rx).enterError i 11
      | (.ok q, s1) => (s1.opened i rx q).dropUnused rx

/-- Park a packet of a context that is not on die, or discard it (R166, R167); a fetch starts where none is in progress. -/
def State.park (i : Nat) (rx : RxMeta) (p : Packet) (s : State) : State :=
  let s1 := (s.startFetch i).when (!s.xprt.fetching.contains i) (State.count E.XPRT_CTX_MISS 1)
  if 512 ≤ s.xprt.missq.length ∨ 8 ≤ (s.xprt.missq.filter fun q => decide (q.ctx = i)).length then
    ((((s1.dropRxUnit rx).count E.XPRT_MISS_DROP 1).onCtxStat i fun st => { st with missDrops := (st.missDrops + 1) % 2 ^ 32 }).occur
      S.XPRT_MISSQ_OVF)
  else (s1.onXprt fun x => { x with missq := x.missq ++ [⟨i, rx, p⟩] }).syncXprt

/-- A RoCEv2 packet handed over by LINE (R130, R759, R163 to R170). -/
def State.rxPacket (rx : RxMeta) (p : Packet) (s : State) : State :=
  if !s.isLive pgXprt then (s.dropRxUnit rx).count E.XPRT_NOT_ON_DROP 1
  else if !p.icrcOk then (s.dropRxUnit rx).count E.XPRT_ICRC_ERR 1
  else match s.ctxFor rx p.qpn with
    | none => (s.dropRxUnit rx).count E.XPRT_QPN_MISS 1
    | some i =>
      if s.cached i && !(s.xprt.missq.any fun q => decide (q.ctx = i)) then ((s.touch i).count E.XPRT_CTX_HIT 1).process rx p
      else s.park i rx p

/-- A context has arrived (R169, R172): it takes its place on die, and its parked packets are processed in order; those of one that has
become FREE find no connection. -/
def State.fetched (i : Nat) (ue : Bool) (s : State) : State :=
  let free := (s.ctx i).isFree
  let r := if free then (true, s) else s.cacheRoom
  if !r.1 then s
  else
    let s1 := (r.2.when (!free) (State.touch i)).onXprt fun x => { x with fetching := x.fetching.filter fun j => decide (j ≠ i) }
    let mine := s.xprt.missq.filter fun q => decide (q.ctx = i)
    let s2 := (s1.onXprt fun x => { x with missq := x.missq.filter fun q => decide (q.ctx ≠ i) })
    if ue then (mine.foldl (fun t q => t.dropRxUnit q.rx) ((s2.occur S.XPRT_CTX_UE).enterError i 6)).syncXprt
    else (mine.foldl (fun t q => t.process q.rx q.pkt) s2).syncXprt

/-! ### Eviction of received packets (R379) -/

def State.evictRx (i psn : Nat) (s : State) : State :=
  let later := fun (n : Nat) => !psnBefore n psn
  let x := (s.ctx i).rx
  let q := s.qpn i
  let units := (x.inVat.filter fun e => later e.2).map Prod.fst
  let gone := s.regn.writes.filter fun w => decide (w.qpn = q) && !w.dup && later w.psn && w.localAt.isNone && !w.checking
  let part := s.regn.writes.find? fun w => decide (w.qpn = q) && !w.dup && !later w.psn && later w.lastPsn && w.localAt.isNone
  let reads := s.regn.reads.filter fun r => decide (r.ctx = i) && later r.psn
  let sends := x.msgs.filter fun m => later m.psn
  let back := (gone.filter RegWrite.whole).length + reads.length + sends.length + (match part with
    | some w => boolNat w.whole
    | none => 0)
  let mtu := (s.ctx i).mtu
  let s1 := units.foldl (fun t u => t.dropUnit u) (s.dropChecks i later)
  let s2 := (gone.map RegWrite.key ++ reads.map RegRead.key).foldl (fun t k => t.keyEnd k) s1
  let s3 := s2.onRegn fun g => { g with
    writes := (g.writes.filter fun w => !gone.contains w).map fun w => if some w = part then
      let n := psnSub psn w.psn * mtu
      { w with data := ⟨n, w.data.val % 2 ^ (8 * n)⟩, whole := false, lastPsn := psnSub psn 1 } else w
    reads := g.reads.filter fun r => !reads.contains r }
  s3.onRx i fun y => { y with
    epsn := psn, nakSent := false, msn := psnSub y.msn back, readsIn := y.readsIn - reads.length
    inVat := y.inVat.filter fun e => !later e.2
    msgs := y.msgs.filter fun m => !later m.psn
    replies := y.replies.filter fun r => !psnBefore psn r.epsn
    openMsg := match part with
      | some w => some (.write false w.key (some w.id) (w.total - psnSub psn w.psn * mtu) w.psn (s.span i w.total))
      | none => none }

end Sys2Proof.Machine
end

