-- ==== Sys2Proof/Machine/LineExec.lean ====
section
/-!
DEFINITION. LINE's commands: frames received, the life of lanes and ports, and the device time (chapter 03 of spec/).
-/
namespace Sys2Proof.Machine
open Sys2Proof

/-! ### Ports come and go (R89, R117 to R124) -/

/-- Every lane's page is ON. -/
def State.lanesOn (s : State) (lanes : List Nat) : Bool := lanes.all fun l => s.isOn (pgLane l)

/-- The group page and its 800 GbE partner's: both status registers follow a port (Table 3.7). -/
def State.syncAround (g : Nat) (s : State) : State := (s.syncPorts g).syncPorts (g / 2 * 2 + (1 - g % 2))

/-- Frames held on a port that goes down are discarded (R105). -/
def State.dropHeldOn (p : Nat) (s : State) : State :=
  let n := (s.line.held.filter fun f => f.conn && decide (f.port = p)).length
  (s.onLine fun l => { l with held := l.held.filter fun f => decide (f.port ≠ p) }).when (decide (n ≠ 0))
    (State.count (E.LINE_TX_PORT_DOWN.on (p / 4)) n)

/-- A port leaves the up state; LINE.LINK_DOWN is set where it was up. With `again` it begins at once to come up. -/
def State.portDown (p : Nat) (again : Bool) (s : State) : State :=
  match s.port p with
  | none => s
  | some v =>
    let s1 := if again then s.beginPort p v else s.setPort p { v with up := false, training := false }
    ((s1.when v.up (State.occur (S.LINE_LINK_DOWN.on (p / 4)))).dropHeldOn p).syncAround (p / 4)

/-- A retrain in progress is abandoned and not counted (R124). -/
def State.forgetRetrain (s : State) (lane : Nat) : State :=
  match s.line.retraining.find lane with
  | none => s
  | some t => (s.onLine fun l => { l with
      retraining := l.retraining.erase lane
      retrains := l.retrains.set lane (removeFirst t (l.retrains.get lane [])) }).count (E.LINE_RETRAIN.on (16 + lane)) (2 ^ 48 - 1)

/-- A port ceases to exist. -/
def State.removePort (p : Nat) (s : State) : State :=
  ((s.portDown p false).onLine fun l => { l with ports := l.ports.erase p }).syncAround (p / 4)

/-- The live ports that belong to a group: those whose lanes lie in it, and the eight-lane port it leads or partners. -/
def State.livePorts (s : State) (g : Nat) : List Nat := (s.line.ports.filter fun _ v => v.lanes.any fun l => decide (l / 4 = g)).keys

/-- A group page leaves service: its ports go. -/
def State.stopPorts (g : Nat) (s : State) : State := (s.livePorts g).foldl (fun t p => t.removePort p) s

/-- The ports of some groups go, and those of their modes begin training or link start-up (R95, R124; "STARTING on a group page"). An
800 GbE port stands on its lead group's page and runs on its partner's lanes too. -/
def State.restartPorts (gs : List Nat) (s : State) : State :=
  let mine := (s.fab.cfgPorts false).filter fun e =>
    e.2.any (fun l => gs.contains (l / 4)) && decide ((s.fab.page (pgGrp (e.1 / 4))).state = .starting ∨ (s.fab.page (pgGrp (e.1 / 4))).state = .on)
  let lanes := gs.flatMap fun g => (s.livePorts g).flatMap fun p => match s.port p with
    | some v => v.lanes
    | none => []
  let s1 := mine.foldl (fun t e => t.beginPort e.1 { lanes := e.2, home := e.1 })
    (gs.foldl (fun t g => t.stopPorts g) (lanes.foldl State.forgetRetrain s))
  gs.foldl (fun t g => t.syncAround g) s1
def State.startPorts (g : Nat) (s : State) : State := s.restartPorts [g]

/-! ### RX_FRAME (Table 3.5) -/

def pfcMac : Nat := 0x0180C2000001
def broadcastMac : Nat := 0xFFFFFFFFFFFF
def isPtpMac (m : Nat) : Bool := decide (m = 0x011B19000000 ∨ m = 0x01005E000181 ∨ m = 0x333300000181)
/-- 33-33-FF-xx-xx-xx. -/
def isSolicitedMac (m : Nat) : Bool := decide (m / 2 ^ 24 = 0x3333FF)
/-- The multicast addresses of PTP over UDP: 224.0.1.129, and FF0X::181. -/
def isPtpIp (v6 : Bool) (a : Nat) : Bool :=
  if v6 then decide (a / 2 ^ 120 = 0xFF ∧ a / 2 ^ 116 % 16 = 0 ∧ a % 2 ^ 112 = 0x181) else decide (a = 0xE0000181)

/-- Check 3. -/
def State.macOk (s : State) (port : Nat) (f : Frame) : Bool :=
  decide (f.dst = s.fab.portMac false port ∨ f.dst = pfcMac) || isSolicitedMac f.dst || isPtpMac f.dst
    || (decide (f.dst = broadcastMac) && match f.body with
      | .arp _ _ => true
      | _ => false)

/-- A tag with VID 0 counts as untagged. -/
def frameVlan (f : Frame) : Option Nat := match f.vid with
  | some 0 => none
  | v => v

/-- Check 6: the valid tenant port of a VLAN setting and an address that covers a lane of the receiving port. -/
def State.matchTport (s : State) (port : Nat) (vlan : Option Nat) (v6 : Bool) (addr : Nat) : Option Nat :=
  let lanes := match s.port port with
    | some v => v.lanes
    | none => []
  ((s.fab.tports false).find? fun e =>
    (if v6 then tpV6 e.2 && decide (tpIp6 e.2 = addr) else tpV4 e.2 && decide (tpIp4 e.2 = addr))
      && (match vlan with
        | none => !tpVlanEn e.2
        | some v => tpVlanEn e.2 && decide (tpVlan e.2 = v))
      && tpCovers e.2 lanes).map Prod.fst

/-- A frame is discarded, its event counted, its cells given back. -/
def State.lineDrop (e : Evt) (port : Nat) (unit : Option Nat) (s : State) : State :=
  (s.dropRxUnit ⟨port, 0, 0, false, .green, unit⟩).count (e.on (port / 4)) 1

/-- A PFC frame (R107, R109). -/
def State.pfcFrame (port vector quanta : Nat) (s0 : State) : State :=
  let s := s0.count (E.LINE_PFC_RX.on (port / 4)) 1
  let one := fun (ps : List Nat) (k : Nat) =>
    if bitAt vector k && bitAt (s.get (pgGrp (port / 4)) F.PFC_CFG_PRIO_MASK) k then
      (if bitsOf quanta (16 * k) 16 = 0 then ps.filter (fun x => decide (x ≠ port * 8 + k)) else insertSorted (port * 8 + k) ps)
    else ps
  if !s.flag (pgGrp (port / 4)) F.GRP_CFG_PFC_EN then s
  else (s.onLine fun l => { l with pauses := (List.range 8).foldl one l.pauses }).releaseHeld

/-- `PTP_ADDR` as an address in network order (Table 3.8). -/
def State.ptpAddr (s : State) (v6 : Bool) : Nat :=
  let w := fun n => netAt (s.get (pgGrp 0) (F.PTP_ADDR_ADDR.idx n)) 0 4
  if v6 then ((w 0 * 2 ^ 32 + w 1) * 2 ^ 32 + w 2) * 2 ^ 32 + w 3 else w 0

/-! ### PTP (R101, R113, R114) -/

/-- The multicast address of PTP by transport, and its Ethernet address. -/
def ptpMac (transport : Nat) : Nat := if transport = 0 then 0x01005E000181 else if transport = 1 then 0x333300000181 else 0x011B19000000
/-- The frame of a Delay_Req: 44 bytes of message after its headers. -/
def ptpLen (tagged : Bool) (transport : Nat) : Nat :=
  14 + (if tagged then 4 else 0) + (if transport = 0 then 28 else if transport = 1 then 48 else 0) + 44 + 4

/-- Firmware's slave clock sends its Delay_Req after a Sync (R113). DESIGN CHOICE (log entry 122): tagged frames of the clock carry PCP 0. -/
def State.sendDelayReq (s : State) : State :=
  let g := pgGrp 0
  let port := s.get g F.PTP_CFG_PORT
  let tag := if s.flag g F.PTP_CFG_VLAN_EN then some (s.get g F.PTP_CFG_VLAN_ID, 0) else none
  let tr := s.get g F.PTP_CFG_TRANSPORT
  let seq := (s.ptp.delaySeq + 1) % 2 ^ 16
  let h : EthHdr := ⟨ptpMac tr, s.fab.portMac false port, tag⟩
  (s.onPtp fun p => { p with delaySeq := seq, delayWait := true }).lineSend
    ⟨port, tag.map Prod.snd, ptpLen tag.isSome tr, none, false, .ptpDelayReq port h tr (s.get g F.PTP_CFG_DOMAIN) seq⟩

/-- A Sync's two times are known: t2 − t1, less the correction. -/
def State.syncTimes (t1 : Nat) (corr : Int) (s : State) : State :=
  (s.onPtp fun p => { p with syncSeq := none, syncDiff := (s.ptp.rxStamp : Int) - t1 - corr }).sendDelayReq

/-- The delay request-response exchange of a slave-only clock with a one-step or two-step master (R113): the offset is half the
difference of the two one-way times. -/
def State.ptpStep (m : PtpMsg) (s : State) : State :=
  match m.kind with
  | .sync false => s.syncTimes m.time m.corr
  | .sync true => s.onPtp fun p => { p with syncSeq := some m.seq, syncDiff := (s.ptp.rxStamp : Int) - m.corr }
  | .followUp =>
    if s.ptp.syncSeq = some m.seq then
      (s.onPtp fun p => { p with syncSeq := none, syncDiff := p.syncDiff - m.time - m.corr }).sendDelayReq
    else s
  | .delayResp =>
    if s.ptp.delayWait ∧ s.ptp.delaySeq = m.seq then
      s.onPtp fun p => { p with delayWait := false
                                offset := some ((p.syncDiff - ((m.time : Int) - p.txStamp - m.corr)) / 2) }
    else s
  | .delayReq => s
  | .otherEvent => s
  | .otherGeneral => s

/-- A PTP frame (R101, R114): to firmware's clock, or discarded; an event message is timestamped either way. -/
def State.ptpFrame (port : Nat) (vlan : Option Nat) (transport : Nat) (m : PtpMsg) (addrOk : Bool) (s0 : State) : State :=
  let g := pgGrp 0
  let s := if m.event then s0.onPtp fun p => { p with rxStamp := s0.timeNs } else s0
  let vlanOk := if s.flag g F.PTP_CFG_VLAN_EN then decide (vlan = some (s.get g F.PTP_CFG_VLAN_ID)) else vlan.isNone
  if s.get g F.PTP_CFG_SRC = 2 ∧ s.get g F.PTP_CFG_PORT = port ∧ s.get g F.PTP_CFG_TRANSPORT = transport ∧ vlanOk ∧
      s.get g F.PTP_CFG_DOMAIN = m.domain ∧ addrOk then
    (s.emit (.toPtp port m (if m.event then some s.ptp.rxStamp else none))).ptpStep m
  else s.count (E.LINE_RX_NOT_ROCE.on (port / 4)) 1

/-! ### Answers in hardware (R102) -/

/-- The bytes of a frame that LINE answers or announces by itself. -/
def lineLen (tagged : Bool) (untagged : Nat) : Nat := untagged + if tagged then 4 else 0
/-- LINE sends a frame of a tenant port by itself: from the port's MAC address, tagged as the tenant port is (R99, R104). -/
def State.sendLine (port tp dst len : Nat) (o : EthHdr → Emit) (s : State) : State :=
  let tag := tpTag (s.fab.tport tp)
  s.lineSend ⟨port, tag.map Prod.snd, len, none, false, o ⟨dst, s.fab.portMac false port, tag⟩⟩

/-- A RoCEv2 packet matched to a tenant port (R102, R110, R321): it is policed and handed to XPRT. -/
def State.roceFrame (port tp dscp ecn : Nat) (f : Frame) (p : Packet) (unit : Option Nat) (s : State) : State :=
  let g := port / 4
  let ce := decide (ecn = 3)
  let mark := decide (s.get (pgGrp g) F.ECN_CFG_MARK_THR ≤ s.netCells port none)
  let s1 := (s.when ce (State.count (E.LINE_CE_RX.on g) 1)).when mark (State.count (E.LINE_CE_MARK.on g) 1)
  let rx : RxMeta := ⟨port, tp, f.src, ce || mark, .green, unit⟩
  if p.opcode = 0x11 ∨ p.opcode = 0x81 then s1.emit (.toXprt rx p)
  else if !s.isOn pgTmgr then (s1.count E.TMGR_NOT_ON_DROP 1).dropRxUnit rx
  else
    let r := s1.policeFrame (tpTenant (s.fab.tport tp)) f.len dscp
    if r.2.1 then r.2.2.emit (.toXprt { rx with colour := r.1 } p) else r.2.2.dropRxUnit rx

/-- Checks 6 and 7 for an IP packet (Table 3.5). -/
def State.ipFrame (port : Nat) (v6 : Bool) (dst dscp ecn : Nat) (b : L4) (f : Frame) (unit : Option Nat) (s : State) : State :=
  let g := port / 4
  let target := match v6, b with
    | true, .neighbourSol t => t
    | _, _ => dst
  match b with
  | .udp dport body =>
    if dport = 319 ∨ dport = 320 then
      (match body with
        | .ptp m => (s.dropRxUnit ⟨port, 0, 0, false, .green, unit⟩).ptpFrame port (frameVlan f) (if v6 then 1 else 0) m
            (decide (dst = s.ptpAddr v6) || isPtpIp v6 dst)
        | _ => s.lineDrop E.LINE_RX_NOT_ROCE port unit)
    else match s.matchTport port (frameVlan f) v6 target with
      | none => s.lineDrop E.LINE_RX_NOMATCH port unit
      | some tp =>
        if dport ≠ 4791 then s.lineDrop E.LINE_RX_NOT_ROCE port unit
        else match body with
          | .roce p => s.roceFrame port tp dscp ecn f p unit
          | _ => s.roceFrame port tp dscp ecn f { icrcOk := false, opcode := 0xFF, qpn := 0, psn := 0 } unit
  | _ => match s.matchTport port (frameVlan f) v6 target with
    | none => s.lineDrop E.LINE_RX_NOMATCH port unit
    | some tp => match v6, b with
      | _, .echoRequest =>
        ((s.dropRxUnit ⟨port, 0, 0, false, .green, unit⟩).count (E.LINE_ECHO_REPLY.on g) 1).sendLine port tp f.src f.len (.echoReply port tp)
      | true, .neighbourSol _ =>
        ((s.dropRxUnit ⟨port, 0, 0, false, .green, unit⟩).count (E.LINE_ND_REPLY.on g) 1).sendLine port tp f.src
          (lineLen (frameVlan f).isSome 90) (.ndReply port tp)
      | _, _ => s.lineDrop E.LINE_RX_NOT_ROCE port unit

/-- Checks 4 and on, and what leaves after check 4 (R101). -/
def State.bodyFrame (port : Nat) (f : Frame) (unit : Option Nat) (s : State) : State :=
  match f.body with
  | .other => s.lineDrop E.LINE_RX_ETYPE port unit
  | .macControl none => s.lineDrop E.LINE_RX_ETYPE port unit
  | .macControl (some (v, q)) => (s.dropRxUnit ⟨port, 0, 0, false, .green, unit⟩).pfcFrame port v q
  | .ptp m => (s.dropRxUnit ⟨port, 0, 0, false, .green, unit⟩).ptpFrame port (frameVlan f) 2 m true
  | .arp request target =>
    (match (if request then s.matchTport port (frameVlan f) false target else none) with
      | some tp =>
        ((s.dropRxUnit ⟨port, 0, 0, false, .green, unit⟩).count (E.LINE_ARP_REPLY.on (port / 4)) 1).sendLine port tp f.src
          (lineLen (frameVlan f).isSome 64) (.arpReply port tp)
      | none => s.lineDrop E.LINE_RX_NOMATCH port unit)
  | .ipv4 headerOk dst dscp ecn b =>
    if headerOk then s.ipFrame port false dst dscp ecn b f unit else s.lineDrop E.LINE_RX_IP_ERR port unit
  | .ipv6 headerOk dst dscp ecn b =>
    if headerOk then s.ipFrame port true dst dscp ecn b f unit else s.lineDrop E.LINE_RX_IP_ERR port unit

/-- The checks of Table 3.5 in their order (R100). A standby discards after check 3 (R647); reception stops for a handover (R638). -/
def State.rxFrame (port : Nat) (f : Frame) (unit : Option Nat) (s0 : State) : State :=
  let s := (s0.count (E.LINE_RX_FRAMES.on (port / 4)) 1).count (E.LINE_RX_BYTES.on (port / 4)) f.len
  if !f.fcsOk then s.lineDrop E.LINE_RX_FCS_ERR port unit
  else if f.len < 64 ∨ s.get (pgGrp (port / 4)) F.GRP_CFG_MAX_FRAME < f.len then s.lineDrop E.LINE_RX_LEN_ERR port unit
  else if !s.macOk port f then s.lineDrop E.LINE_RX_MAC_MISS port unit
  else if s.get pgPair F.PAIR_STAT_ROLE = 3 ∨ s.get pgPair F.PAIR_STAT_ROLE = 4 then
    (s.dropRxUnit ⟨port, 0, 0, false, .green, unit⟩).count E.PAIR_STANDBY_RX_DROP 1
  else if s.pair.handover then s.dropRxUnit ⟨port, 0, 0, false, .green, unit⟩
  else s.bodyFrame port f unit

/-- A frame arrives on a port that is up; while the group page is not ON nothing is received. -/
def execRxFrame (port : Nat) (frame : Frame) (unit : Option Nat) (s : State) : Result :=
  .next (s.when (s.portUp port && s.isOn (pgGrp (port / 4))) (State.rxFrame port frame unit))

/-! ### Flow control and announcements -/

/-- Half a pause quantum has passed with XOFF in force (R108). -/
def execPfcXoffRefresh (port prio : Nat) (s : State) : Result :=
  .next (s.when (s.pfcOn port prio && s.line.xoff.contains (port * 8 + prio)
    && decide (s.get (pgGrp (port / 4)) F.PFC_THR_XON ≤ s.netCells port (some prio)))
    (State.sendPfc port prio (s.get (pgGrp (port / 4)) F.PFC_CFG_QUANTA)))

/-- A received pause runs out (R107). -/
def execPfcPauseExpiry (port prio : Nat) (s : State) : Result :=
  .next ((s.onLine fun l => { l with pauses := l.pauses.filter fun k => decide (k ≠ port * 8 + prio) }).releaseHeld)

/-- One tenant port on one up port (R106). -/
def State.announceOn (port : Nat) (lanes : List Nat) (s : State) (e : Nat × Nat) : State :=
  if !tpCovers e.2 lanes then s
  else
    let s1 := s.when (tpV4 e.2) (State.sendLine port e.1 broadcastMac (lineLen (tpVlanEn e.2) 64) (.gratuitousArp port e.1))
    s1.when (tpV6 e.2) (State.sendLine port e.1 0x333300000001 (lineLen (tpVlanEn e.2) 90) (.unsolicitedNa port e.1))

/-- The up ports whose number lies in a group. -/
def State.upPorts (s : State) (g : Nat) : List (Nat × PortSt) := s.line.ports.list.filter fun e => decide (e.1 / 4 = g) && e.2.up

/-- A write of 1 to ANNOUNCE (R106). -/
def State.announce (g : Nat) (s : State) : State :=
  (s.upPorts g).foldl (fun t e => (s.fab.tports false).foldl (State.announceOn e.1 e.2.lanes) t) s

def execGroupAnnounce (group : Nat) (s : State) : Result := .next (s.announce group)

/-! ### Lanes and ports -/

/-- One slot of a RESTORE (R122): the configured port returns once all its lanes are ON. -/
def State.restoreSlot (g : Nat) (s : State) (slot : Nat) : State :=
  match (s.fab.grpPorts false g).find? fun e => decide (e.1 = 4 * g + slot) with
  | none => s
  | some e =>
    let live := (s.line.ports.filter fun _ v => decide (v.home = e.1)).list
    let narrow := live.any fun x => x.2.narrowed || (!x.2.up && !x.2.training)
    if narrow && s.lanesOn e.2 then
      let s1 := ((live.foldl (fun t x => t.removePort x.1) s).beginPort e.1 { lanes := e.2, home := e.1 }).syncAround g
      live.foldl (fun t x => t.clipRates x.1 (s1.portRate e.1)) s1
    else s

def State.restorePorts (g slots : Nat) (s : State) : State :=
  ((List.range 4).filter (bitAt slots)).foldl (State.restoreSlot g) s

def execPortRestore (group slots : Nat) (s : State) : Result := .next (s.restorePorts group slots)

/-- The retrain of a lane (R117). -/
def State.retrainLane (lane p : Nat) (s : State) : State :=
  let s1 := (s.onLine fun l => { l with
    retraining := l.retraining.set lane s.now, retrains := l.retrains.set lane (s.now :: l.retrains.get lane []) }).count
      (E.LINE_RETRAIN.on (16 + lane)) 1
  s1.portDown p true

/-- A retrain condition (R117, R118): the lane retrains, or its page crosses its threshold. DESIGN CHOICE (log entry 122):
LINE.LANE_RETIRED is set as the threshold is crossed, before the page has drained. -/
def State.retrainOrRetire (lane : Nat) (s : State) : State :=
  match s.portOfLane lane with
  | none => s
  | some p =>
    if !s.isOn (pgLane lane) then s
    else if s.get (pgLane lane) F.LANE_CFG_RETRAIN_LIMIT ≤ s.retrainCount lane then
      (s.pageEv (pgLane lane) .threshold).occur (S.LINE_LANE_RETIRED.on (16 + lane))
    else s.retrainLane lane p

/-- A lane loses lock: its port goes down whether it retrains or retires. -/
def execLaneLockLoss (lane : Nat) (s : State) : Result :=
  .next (match s.portOfLane lane with
    | none => s
    | some p => if s.isOn (pgLane lane) then (s.retrainOrRetire lane).portDown p
        (decide (s.retrainCount lane < s.get (pgLane lane) F.LANE_CFG_RETRAIN_LIMIT)) else s)

/-- The code words of one second: the symbols corrected in them exceed SYM_THR. An uncorrectable one is counted and has no other
effect (Table 3.11). -/
def execLaneSymThreshold (lane : Nat) (fec : FecSecond) (s : State) : Result :=
  .next (((s.count (E.LINE_FEC_CORR_SYM.on (16 + lane)) fec.symbols).count (E.LINE_FEC_UNCORR_CW.on (16 + lane)) fec.words).when
    (decide (s.get (pgLane lane) F.LANE_ERR_CFG_SYM_THR < fec.symbols)) (State.retrainOrRetire lane))

/-- Training or link start-up completes (R117). -/
def execPortLinkUp (port : Nat) (s : State) : Result :=
  .next (match s.port port with
    | none => s
    | some v => if v.training && s.lanesOn v.lanes && s.isOn (pgGrp (port / 4)) then
        let s1 := ((s.onLine fun l => { l with retraining := l.retraining.filter fun k _ => !v.lanes.contains k }).setPort port
          { v with up := true, training := false }).syncAround (port / 4)
        s1.clipRates port (s1.portRate port) else s)

/-- Training that has not completed in 500 ms is repeated: the port goes on training (R117, R124). -/
def execPortTrainTimeout (port : Nat) (s : State) : Result :=
  .next (match s.port port with
    | none => s
    | some v => if v.training then (s.beginPort port v).syncAround (port / 4) else s)

/-- The narrower runs of lanes of a port, widest first, lowest lane first (R119, R120). -/
def narrowings (lanes : List Nat) : List (List Nat) :=
  let has := fun (l : List Nat) => l.all fun x => lanes.contains x
  let base := lanes.headD 0
  let runs := fun (w : Nat) => ((List.range (8 / w)).map fun i => (List.range w).map fun j => base / 8 * 8 + i * w + j).filter has
  (if lanes.length = 8 then runs 4 else []) ++ (if 4 ≤ lanes.length then runs 2 else []) ++ (if 2 ≤ lanes.length then runs 1 else [])

/-- After a lane of a port has been retired (R119 to R121). DESIGN CHOICE (log entry 122): a port that runs narrowed already looks for a
narrower run among the lanes it runs on. -/
def State.narrowPort (port : Nat) (s : State) : State :=
  match s.port port with
  | none => s
  | some v =>
    let retired := v.lanes.any fun l => decide ((s.fab.page (pgLane l)).state = .retired)
    if !retired then s
    else
      let s1 := s.portDown port false
      match (if s.flag (pgGrp (port / 4)) F.GRP_CFG_NARROW_EN then (narrowings v.lanes).find? s.lanesOn else none) with
      | none => s1
      | some lanes =>
        let q := lanes.headD 0
        let s2 := (((s1.removePort port).beginPort q { lanes := lanes, narrowed := true, home := v.home }).syncAround (q / 4)).occur
          (S.LINE_PORT_NARROWED.on (q / 4))
        s2.clipRates port (s2.portRate q)

def execPortNarrow (port : Nat) (s : State) : Result := .next (s.narrowPort port)

/-- A narrowed port that has not come up within 3 s stays down (R121). -/
def execNarrowTimeout (port : Nat) (s : State) : Result :=
  .next (match s.port port with
    | none => s
    | some v => if v.narrowed && !v.up then s.portDown port false else s)

/-! ### Device time (R111 to R116) -/

/-- The seconds value to apply (R112). -/
def State.todValue (s : State) : Nat := s.get (pgGrp 0) F.PTP_TOD_HI_SEC_HI * 2 ^ 32 + s.get (pgGrp 0) F.PTP_TOD_SEC

/-- The counter takes a new value out of sequence: the open minute closes at the step (R347). -/
def State.setTime (sec half : Nat) (s : State) : State :=
  if s.ptp.sec = sec ∧ s.ptp.half = half then s.onPtp fun p => { p with todPending := false }
  else (s.minuteDue true).onPtp fun p => { p with sec := sec % 2 ^ 48, half := half, todPending := false }

/-- `PTP_TOD` is written (R112). -/
def State.todWrite (value : Nat) (s : State) : State :=
  let s1 := s.setF (pgGrp 0) F.PTP_TOD_SEC value
  if s.get (pgGrp 0) F.PTP_CFG_SRC = 0 then s1.setTime s1.todValue s.ptp.half else s1.onPtp fun p => { p with todPending := true }

def execPtpTodWrite (value : BitVec 32) (s : State) : Result := .next (s.todWrite value.toNat)

/-- A 1PPS edge marks the start of a second: with SRC 1 the written seconds value takes effect (R111, R112). -/
def execPpsEdge (s : State) : Result :=
  .next (s.when (decide (s.get (pgGrp 0) F.PTP_CFG_SRC = 1)) fun t =>
    let u := t.setF (pgGrp 0) F.PTP_STAT_SYNC 0
    if t.ptp.todPending then u.setTime t.todValue 0 else u)

/-- A read of `PTP_TIME_NS` (R112). -/
def State.timeRead (rq : Requester) (s : State) : State :=
  ((s.emit (.readData rq ((pgGrp 0).base + F.PTP_TIME_NS_NS.off) (s.ptp.half / 2))).setF (pgGrp 0) F.PTP_TIME_SEC_SEC
    (s.ptp.sec % 2 ^ 32)).setF (pgGrp 0) F.PTP_TIME_SEC_HI_SEC_HI (s.ptp.sec / 2 ^ 32)

def execPtpTimeRead (rq : Requester) (s : State) : Result := .next (s.timeRead rq)

/-- Half nanoseconds added to the counter. -/
def State.timePlus (s : State) (d : Int) : Nat := ((s.ptp.sec * 2000000000 + s.ptp.half : Nat) + d : Int).toNat

/-- An update of firmware's PTP clock with SRC 2 (R112, R115, R116): a seconds value written before it takes effect; an offset below
100 µs is slewed, by the part of it that `slew` gives, a larger one stepped. Offsets are in nanoseconds. DESIGN CHOICE (log entry 122): an
offset of exactly 100 µs is stepped, and the offset that firmware's clock takes is an operand. -/
def State.ptpUpdate (offset slew : Int) (s0 : State) : State :=
  let s1 := if s0.ptp.todPending then s0.setTime s0.todValue s0.ptp.half else s0
  let s := s1.setF (pgGrp 0) F.PTP_STAT_SYNC 0
  if offset.natAbs < 100000 then
    let d : Int := if 0 ≤ offset then max 0 (min slew offset) else min 0 (max slew offset)
    let t := s.timePlus (2 * d)
    (s.onPtp fun p => { p with sec := t / 2000000000 % 2 ^ 48, half := t % 2000000000 }).when
      (decide (t / 2000000000 / 60 ≠ s.ptp.sec / 60)) (State.minuteDue false)
  else
    let t := s.timePlus (2 * offset)
    let s2 := ((s.setTime (t / 2000000000) (t % 2000000000)).satAdd (pgGrp 0) F.PTP_STAT_STEPS 1).occur S.LINE_PTP_STEP
    s2.record 4 ((offset % (2 ^ 64)).toNat + s2.get (pgGrp 0) F.PTP_STAT_STEPS * 2 ^ 64)

def execPtpUpdate (offset slew : Int) (s : State) : Result :=
  .next (s.when (decide (s.get (pgGrp 0) F.PTP_CFG_SRC = 2)) (State.ptpUpdate offset slew))

/-- No valid update for 2 s (R116). -/
def execPtpHoldoverTimeout (s : State) : Result :=
  .next (s.when (decide (s.get (pgGrp 0) F.PTP_STAT_SYNC = 0)) (State.setF (pgGrp 0) F.PTP_STAT_SYNC 1))

/-- A further 8 s without one: the minute that is open has run free (R116, R349). -/
def execPtpFreeTimeout (s : State) : Result :=
  .next (s.when (decide (s.get (pgGrp 0) F.PTP_STAT_SYNC = 1)) fun t =>
    ((t.setF (pgGrp 0) F.PTP_STAT_SYNC 2).onTmgr fun m => { m with minute := { m.minute with freeRun := true } }).occur S.LINE_PTP_LOSS)

end Sys2Proof.Machine
end

