-- ==== Sys2Proof/Machine/StrpOps.lean ====
section
/-!
DEFINITION. Pools: geometry, GF(2^8) parity and reconstruction, members and spares, pool states, labels and the open-stripe log (chapter 13
of spec/).
-/
namespace Sys2Proof.Machine
open Sys2Proof

def State.pool (s : State) (p : Nat) : PoolRt := s.strp.pools.get p {}
/-- The placement stream carries the same of two pools: member table, generations of label and log, the log's positions, loss list and
need sets (Table 16.4). -/
def PoolRt.sameMirror (v w : PoolRt) : Bool :=
  let row := fun (m : Member) => (m.bay, m.state, m.start)
  decide (v.members.map row = w.members.map row) && decide (v.labelGen = w.labelGen ∧ v.logGen = w.logGen ∧ v.oslPos = w.oslPos) &&
    decide (v.loss = w.loss) && decide (v.need = w.need)
def State.setPool (p : Nat) (v : PoolRt) (s : State) : State :=
  (s.onStrp fun x => { x with pools := x.pools.put p {} v }).when (!v.sameMirror (s.pool p)) (State.mirrorIf p (.placement 1 p))
def State.onPool (p : Nat) (g : PoolRt → PoolRt) (s : State) : State := s.setPool p (g (s.pool p))

/-! ### Geometry (R461, R462, R501 to R506) -/

def redundancy (prot : Nat) : Nat := if prot = 0 ∨ prot = 3 then 2 else 1
/-- W of a scheme (Table 13.1). -/
def widthOf (prot d : Nat) : Nat := match prot with
  | 0 => d + 2
  | 1 => d + 1
  | 2 => 2 * d
  | _ => 3 * d
def isMirror (prot : Nat) : Bool := decide (2 ≤ prot)
/-- The PROT, D and member count that Table 13.1 allows. -/
def schemeOk (prot d members : Nat) : Bool :=
  decide (members = widthOf prot d) && decide (2 ≤ d) &&
    decide (d ≤ match prot with
      | 0 => 20
      | 1 => 20
      | 2 => 12
      | _ => 8)
/-- SEGG (R461). -/
def PoolRt.segg (v : PoolRt) : Nat := 8192 * v.d
/-- A of Table 13.2 in 4 MiB units, capped: SEGMENTS (R462); and whether the cap acted. -/
def segmentsOf (m mapGib sliceGib : Nat) : Nat := (m - 9 * 2 ^ 20 - (mapGib + sliceGib) * 2 ^ 30) / 2 ^ 22
def segCap : Nat := 16777215
/-- Stripe S of stripe t of segment s (R504). -/
def stripeNo (seg t : Nat) : Nat := (seg - 1) * 64 + t
/-- The position of a role. -/
def PoolRt.posOf (v : PoolRt) (stripe role : Nat) : Nat := (role + stripe % max 1 v.w) % max 1 v.w
def PoolRt.roleOf (v : PoolRt) (stripe pos : Nat) : Nat := (pos + max 1 v.w - stripe % max 1 v.w) % max 1 v.w
def PoolRt.member (v : PoolRt) (pos : Nat) : Member := v.members.getD pos ⟨0, 0, 0, 0, 0⟩
/-- Byte offset of a strip in a drive (Table 13.2). -/
def PoolRt.stripOffset (v : PoolRt) (stripe : Nat) : Nat := 9 * 2 ^ 20 + v.mapGib * 2 ^ 30 + stripe * 65536
/-- Copy k of map slot n: its position and byte offset (R506). -/
def PoolRt.mapPos (v : PoolRt) (n k : Nat) : Nat := (n + k) % max 1 v.w
def PoolRt.mapOffset (v : PoolRt) (n k : Nat) : Nat := 9 * 2 ^ 20 + (n / max 1 v.w * 3 + k) * 4608
def mapSlots (mapGib w : Nat) : Nat := mapGib * 2 ^ 30 / 13824 * w
def PoolRt.usable (v : PoolRt) : Bool := decide (2 ≤ v.state ∧ v.state ≤ 4)

/-! ### The open-stripe log (Table 13.10) -/

/-- The region image's own volume in this model; a summary names it 0x3FFF (Table 12.1). -/
def imgVol : Nat := 16384
def summaryVol (v : Nat) : Nat := if v = imgVol then 0x3FFF else v
def State.volPool (s : State) (v : Nat) : Nat := if v = imgVol then s.get pgRegn F.REGN_CFG_DESTAGE_POOL else bitsOf (s.tab pgPlce 1 v) 0 2
def pageVol (k : Nat) : Nat := k / 2 ^ 29
def segKey (p seg : Nat) : Nat := p * 2 ^ 24 + seg
def State.seg (s : State) (p n : Nat) : Seg := s.plce.segs.get (segKey p n) {}
def State.mapPage (s : State) (k : Nat) : MapPage := s.plce.pages.get k {}
/-- Pages of a pool whose write-back is in progress: its intents (R483, R539). -/
def State.intentPages (s : State) (p : Nat) : List Nat :=
  (s.plce.pages.list.filter fun e => e.2.wb.isSome && decide (s.volPool (pageVol e.1) = p)).map Prod.fst
def State.intents (s : State) (p : Nat) : Nat := (s.intentPages p).length
/-- The page has a slot in its pool's map region (R475). -/
def State.pageSlot (s : State) (k : Nat) : Option Nat := s.plce.slots.find k
/-- Segments of a pool that are not FREE (R529). -/
def State.usedSegs (s : State) (p : Nat) : List Nat :=
  (s.plce.segs.list.filter fun e => decide (e.1 / 2 ^ 24 = p ∧ e.2.state ≠ 0)).map fun e => e.1 % 2 ^ 24

/-- The open segments of a pool's streams. -/
def State.openSegs (s : State) (p : Nat) : Nat × Nat :=
  let of := fun (k : Nat) => match s.plce.open_.find (2 * p + k) with
    | some x => x.seg
    | none => 0
  (of 0, of 1)
/-- POOL_ID of a pool (Table 13.14). -/
def State.poolId (s : State) (p : Nat) : Nat := s.get (pgPool p) F.POOL_ID_LO_ID + s.get (pgPool p) F.POOL_ID_HI_ID * 2 ^ 32
/-- Bytes 0 to 127 of a pool's open-stripe log. -/
def State.oslBytes (s : State) (p : Nat) : Nat :=
  if !(s.pool p).usable then 0
  else
    let o := s.openSegs p
    let rec1 := fun (n k : Nat) => n + k * 2 ^ 32 + (s.seg p n).written * 2 ^ 64 +
      ((s.plce.writing.filter fun x => decide (x.pool = p ∧ x.seg = n)).map fun x => 2 ^ x.t).sum * 2 ^ 128
    let h := 0x4C534F50 + s.poolId p * 2 ^ 32 + (s.pool p).logGen * 2 ^ 96 + o.1 * 2 ^ 160 + o.2 * 2 ^ 192 + s.intents p * 2 ^ 224
    h + crc32c 60 h * 2 ^ 480 + (if o.1 = 0 then 0 else rec1 o.1 0) * 2 ^ 512 + (if o.2 = 0 then 0 else rec1 o.2 1) * 2 ^ 768
/-- The whole log of a pool, with its intents. -/
def State.oslLog (s : State) (p : Nat) : Blob :=
  let ks := s.intentPages p
  let one := fun (k : Nat) => summaryVol (pageVol k) + k % 2 ^ 29 * 2 ^ 16 + (s.pageSlot k).getD 0 % 2 ^ 32 * 2 ^ 64
  ⟨128 + 16 * ks.length, s.oslBytes p + (((List.range ks.length).zip ks).map fun e => one e.2 * 2 ^ (8 * (128 + 16 * e.1))).sum⟩


/-! ### Labels (Table 13.3) -/

/-- The 4 KiB of a label, with how many loss entries are in use. -/
def labelBytes (l : PoolLabel) (losses : Nat) : Nat :=
  let head := 0x4C42564B + l.poolId * 2 ^ 32 + l.gen * 2 ^ 96 + l.role * 2 ^ 160 + l.position * 2 ^ 168 + l.prot * 2 ^ 176 + l.d * 2 ^ 184
    + l.w * 2 ^ 192 + l.mapGib * 2 ^ 200 + l.sliceGib * 2 ^ 208 + l.m * 2 ^ 224 + l.open0 * 2 ^ 288 + l.open1 * 2 ^ 320 + l.cursor * 2 ^ 352
    + ((l.oslPos.mapIdx fun i x => x * 2 ^ (8 * i)).sum) * 2 ^ 384
  let x := head + ((l.members.mapIdx fun i e => (e.1 + e.2.1 * 2 ^ 8 + e.2.2 * 2 ^ 32) * 2 ^ (512 + 64 * i)).sum) + losses * 2 ^ 2048
  x + crc32c 4092 x * 2 ^ (8 * 4092)

/-! ### Parity (R508, R509) -/

def mul2 (x : Nat) : Nat := if 128 ≤ x then (x * 2 % 256) ^^^ 0x1D else x * 2
def gfMul (a b : Nat) : Nat :=
  ((List.range 8).foldl (fun (r : Nat × Nat) i => (if bitAt b i then r.1 ^^^ r.2 else r.1, mul2 r.2)) (0, a)).1
def gfPow (n : Nat) : Nat := (List.range (n % 255)).foldl (fun x _ => mul2 x) 1
def gfInv (a : Nat) : Nat := (List.range 253).foldl (fun x _ => gfMul x a) a

/-- P and Q of one byte position from its data bytes, D_0 first (the procedure pq of R508). -/
def pqByte (ds : List Nat) : Nat × Nat := ds.reverse.foldl (fun r d => (r.1 ^^^ d, mul2 r.2 ^^^ d)) (0, 0)

/-- The parity strips of a stripe's data strips, `n` bytes each, as little-endian numbers. -/
def pqStrips (n : Nat) (data : List Nat) : Nat × Nat :=
  let r := (List.range n).map fun b => pqByte (data.map fun d => byteAt d b)
  (ofBytes (r.map Prod.fst), ofBytes (r.map Prod.snd))

/-- One byte of data strip x from the strips that are known (Table 13.4); `y` is a second erased data strip. -/
def recoverByte (d x : Nat) (y : Option Nat) (known : List (Nat × Nat)) : Nat :=
  let get := fun (r : Nat) => ((known.find? fun e => decide (e.1 = r)).map Prod.snd).getD 0
  let ds := (List.range d).map get
  let pq := pqByte ds
  let hasP := known.any fun e => decide (e.1 = d)
  let a := get d ^^^ pq.1
  let b := get (d + 1) ^^^ pq.2
  match y with
  | none => if hasP then a else gfMul b (gfPow (255 - x % 255))
  | some z =>
    if x < z then gfMul (gfMul (gfPow (z - x)) a ^^^ gfMul (gfPow (255 - x % 255)) b) (gfInv (gfPow (z - x) ^^^ 1))
    else a ^^^ gfMul (gfMul (gfPow (x - z)) a ^^^ gfMul (gfPow (255 - z % 255)) b) (gfInv (gfPow (x - z) ^^^ 1))

/-- `n` bytes of data strip x. -/
def recover (n d x : Nat) (y : Option Nat) (known : List (Nat × Nat)) : Nat :=
  ofBytes ((List.range n).map fun i => recoverByte d x y (known.map fun e => (e.1, byteAt e.2 i)))

/-! ### Members (R520 to R524) -/

/-- How many positions satisfy a test, counted as R524 counts them. -/
def PoolRt.countPos (v : PoolRt) (p : Member → Bool) : Nat :=
  if isMirror v.prot then
    ((List.range v.d).map fun i =>
      (((List.range v.members.length).zip v.members).filter fun e => decide (e.1 % v.d = i) && p e.2).length).foldl max 0
  else (v.members.filter p).length
def PoolRt.margin (v : PoolRt) : Int := (redundancy v.prot : Int) - v.countPos fun m => decide (m.state ≠ 1)
def PoolRt.failedCount (v : PoolRt) : Nat := v.countPos fun m => decide (m.state = 3)
/-- Table 13.6, for a pool that is imported. -/
def PoolRt.settled (v : PoolRt) : Nat :=
  if redundancy v.prot < v.failedCount then 5
  else if v.margin = redundancy v.prot then 2 else if 1 ≤ v.margin then 3 else 4

/-- The registers of a pool page after a change (Table 13.13). -/
def State.syncPool (p : Nat) (s : State) : State :=
  let v := s.pool p
  let g := pgPool p
  let left := (v.need.vals.map fun (l : List Nat) => l.length).sum
  ((((((((((((s.setF g F.POOL_STAT_W v.w).setF g F.POOL_STAT_OSL_SRC v.oslSrc).setF g F.POOL_STAT_MARGIN
    (if v.state = 0 ∨ v.state = 1 then 0 else v.margin.toNat)).setF g F.POOL_STAT_IMPORT_PHASE v.phase).setF g F.POOL_STAT_STATE v.state).setF g
    F.REBUILD_STAT_RBSTATE v.rbState).setF g F.REBUILD_STAT_CURSOR v.cursor).setF g F.REBUILD_LEFT_SEGMENTS left).setF g
    F.TURNER_STAT_RUNNING (boolNat v.turnerRun)).setF g F.TURNER_STAT_CURSOR v.turnerCursor).setF g F.TURNER_PASS_PASSES v.turnerPass).setF g
    F.LOSS_STAT_ENTRIES v.loss.length).setF g F.POOL_OP_STAT_BUSY (boolNat v.busy)

/-- A write of STRP's own structures to a bay. Without ownership its doorbell is refused and counted (R38, R565). -/
def State.writeBay (b : Nat) (e : List Emit) (g : StrpSt → StrpSt) (s : State) : State :=
  if s.owned then e.foldl (fun t x => t.emit x) (s.onStrp g) else (s.count (E.DRVP_WRITE_GATED.on b) 1).occur (S.DRVP_WRITE_GATED.on b)

/-- The label of a pool, but for its holder (R507). -/
def State.labelOf (s : State) (p open0 open1 : Nat) : PoolLabel :=
  let v := s.pool p
  { poolId := s.poolId p, gen := v.labelGen, role := 1, position := 0, prot := v.prot, d := v.d, w := v.w, mapGib := v.mapGib
    sliceGib := v.sliceGib, m := v.m, open0 := open0, open1 := open1, cursor := v.cursor, oslPos := v.oslPos
    members := v.members.map fun m => (m.bay, m.state, m.start) }
/-- Both copies of a label go to a bay, copy A first (R507). -/
def State.putLabel (p bay : Nat) (l : PoolLabel) (s : State) : State :=
  let x : Blob := ⟨4096, labelBytes l (s.pool p).loss.length⟩
  s.writeBay bay [.poolLabel bay 0 x, .poolLabel bay 1 x] fun y => { y with labels := y.labels.set bay l }
/-- Write the labels of every member that is present and every spare (R507). -/
def State.writeLabels (p : Nat) (bump : Bool) (open0 open1 : Nat) (s : State) : State :=
  let s1 := s.when bump fun t => t.onPool p fun v => { v with labelGen := v.labelGen + 1 }
  let v := s1.pool p
  let base := s1.labelOf p open0 open1
  let s2 := ((List.range v.members.length).zip v.members).foldl (fun t e =>
    if e.2.state = 1 ∨ e.2.state = 2 then t.putLabel p e.2.bay { base with position := e.1 } else t) s1
  v.spares.foldl (fun t b => t.putLabel p b { base with role := 2, position := 0xFF }) s2

def State.relabel (p : Nat) (bump : Bool) (s : State) : State := s.writeLabels p bump (s.openSegs p).1 (s.openSegs p).2

/-- Copy the open-stripe log to positions, each to the half that does not hold its newest copy (R540, R541). -/
def State.oslCopies (p : Nat) (ps : List Nat) (s : State) : State :=
  let s1 := s.onPool p fun v => { v with logGen := v.logGen + 1 }
  let x := s1.oslLog p
  ps.foldl (fun t i =>
    let half := 1 - (t.pool p).oslHalf.get i 1
    (t.writeBay ((t.pool p).member i).bay [.oslCopy p i half x] id).onPool p fun v => { v with oslHalf := v.oslHalf.set i half }) s1
def PoolRt.onlinePos (v : PoolRt) : List Nat :=
  (List.range v.members.length).filter fun i => decide ((v.member i).state = 1)
/-- At each segment open and close the log goes to OSL_POS, the three lowest ONLINE positions (R540). -/
def State.oslWrite (p : Nat) (s : State) : State :=
  let ps := (s.pool p).onlinePos.take 3
  (s.onPool p fun v => { v with oslPos := ps }).oslCopies p ps

/-- A spare is eligible (R522). -/
def State.eligible (s : State) (p b : Nat) : Bool := s.bayReady b && decide ((s.pool p).m ≤ (s.bay b).capacity)

/-- The map region slots of which a position holds a copy (R506). -/
def State.slotsAt (s : State) (p pos : Nat) : List Nat :=
  let v := s.pool p
  ((s.plce.slots.list.filter fun e => decide (s.volPool (pageVol e.1) = p)).map Prod.snd).filter fun n =>
    (List.range 3).any fun k => decide (v.mapPos n k = pos)
/-- An eligible spare takes a FAILED position, or none is found (R520, R522, R528 to R532). -/
def State.takeSpare (p pos : Nat) (s : State) : State :=
  let v := s.pool p
  match v.spares.find? (s.eligible p) with
  | none => s.occur (S.STRP_NO_SPARE.on p)
  | some b =>
    let need := s.usedSegs p
    let curSeg := v.cursor / 64 + 1
    let start := if v.rbState = 0 then need.headD 1 else if v.cursor % 64 = 0 then curSeg else curSeg + 1
    let m : Member := { bay := b, state := 2, start := start, capacity := (s.bay b).capacity }
    let v1 := { v with
      spares := v.spares.filter fun x => decide (x ≠ b)
      members := v.members.set pos m
      need := v.need.set pos need
      mapLeft := v.mapLeft.set pos (s.slotsAt p pos)
      cursor := if v.rbState = 0 then stripeNo (need.headD 1) 0 else v.cursor
      joined := if v.rbState = 0 then [pos] else v.joined
      rbState := if v.rbState = 0 then 1 else v.rbState }
    (s.setPool p v1).count (E.STRP_SPARE_TAKEN.on p) 1

/-- The pool's state after a member change (Table 13.6). -/
def State.settlePool (p : Nat) (s : State) : State :=
  let v := s.pool p
  if !v.usable then s.syncPool p
  else
    let st := v.settled
    (((s.setPool p { v with state := st, rbState := if st = 5 ∧ v.rbState = 1 then 2 else v.rbState
                            turnerRun := v.turnerRun && decide (st = 2), turnerRow := if st = 2 then v.turnerRow else 0 }).when (decide (st = 5)) (State.occur (S.STRP_POOL_FAILED.on p))).relabel
      p true).syncPool p

/-- The positions at which a stripe is not intact (R531). -/
def PoolRt.intact (v : PoolRt) (stripe pos : Nat) : Bool :=
  let m := v.member pos
  let seg := stripe / 64 + 1
  decide (m.state = 1) || (decide (m.state = 2) && (!(v.need.get pos []).contains seg ||
    (decide (v.cursor / 64 + 1 = seg) && v.joined.contains pos && decide (stripe < v.cursor))))

/-- Erasures above the redundancy at a stripe: the roles lost (R517). -/
def PoolRt.lostRoles (v : PoolRt) (stripe : Nat) : List Nat :=
  let er := (List.range v.w).filter fun r => !v.intact stripe (v.posOf stripe r)
  if isMirror v.prot then
    er.filter fun r => decide (((List.range v.w).filter fun q => decide (q % v.d = r % v.d)).length ≤
      (er.filter fun q => decide (q % v.d = r % v.d)).length)
  else if redundancy v.prot < er.length then er else []

/-- A loss entry (Table 13.16). -/
def LossEnt.entry (e : LossEnt) : Nat :=
  e.first + e.count * 2 ^ 32 + e.roles * 2 ^ 64 + e.cause * 2 ^ 88 + e.rows * 2 ^ 96 + boolNat e.done * 2 ^ 112
/-- The roles that an entry marks lost at one of its stripes. ROLES is the mask of its first stripe; the positions are the same throughout
the range, and their roles turn with the stripe (R504; DEDUCED, log entry 86). -/
def PoolRt.lossRole (v : PoolRt) (e : LossEnt) (stripe role : Nat) : Bool := bitAt e.roles (v.roleOf e.first (v.posOf stripe role))
/-- The loss list changes: every member that is present has the changed blocks of 256 entries written (R517). -/
def State.setLoss (p : Nat) (l : List LossEnt) (s : State) : State :=
  let old := (s.pool p).loss
  let part := fun (x : List LossEnt) (k : Nat) => (x.drop (256 * k)).take 256
  let blocks := (List.range ((max old.length l.length + 255) / 256)).filter fun k => decide (part old k ≠ part l k)
  let v := s.pool p
  let here := (List.range v.members.length).filter fun i => decide ((v.member i).state = 1 ∨ (v.member i).state = 2)
  let data := fun (k : Nat) => (⟨4096, ((part l k).mapIdx fun i e => e.entry * 2 ^ (128 * i)).sum⟩ : Blob)
  blocks.foldl (fun t k => here.foldl (fun u i => u.writeBay (v.member i).bay [.lossBlock p i k (data k)] id) t)
    (s.onPool p fun x => { x with loss := l })

/-- Append a loss entry, or find the list full: the loss is handled then without one (R517, R519). -/
def State.addLoss (p : Nat) (e : LossEnt) (s : State) : State :=
  if 32256 ≤ (s.pool p).loss.length then (s.onPool p fun v => { v with unlisted := v.unlisted ++ [e] }).occur (S.STRP_LOSS_LIST_FULL.on p)
  else s.setLoss p ((s.pool p).loss ++ [e])

/-- The stripes of a pool's segments that are not FREE, as ranges over which the same positions are intact: first stripe, how many. Only
the segment of the rebuild cursor is in two parts (R531). -/
def State.spans (s : State) (p : Nat) : List (Nat × Nat) :=
  let v := s.pool p
  (s.usedSegs p).flatMap fun g =>
    let k := v.cursor % 64
    if v.cursor / 64 + 1 = g ∧ k ≠ 0 then [(stripeNo g 0, k), (stripeNo g k, 64 - k)] else [(stripeNo g 0, 64)]
/-- The positions whose strips are lost at a stripe, rising. -/
def PoolRt.lostPos (v : PoolRt) (stripe : Nat) : List Nat :=
  (List.range v.w).filter fun i => (v.lostRoles stripe).contains (v.roleOf stripe i)
/-- Neighbouring ranges that have lost the same positions join. -/
def joinSpans (f : Nat → List Nat) : List (Nat × Nat) → List (Nat × Nat)
  | [] => []
  | x :: rest => match joinSpans f rest with
    | y :: more => if f x.1 = f y.1 then (x.1, y.1 + y.2 - x.1) :: more else x :: y :: more
    | [] => [x]
/-- After a member failure: what has lost more than the redundancy enters the loss list, a range for each run of stripes that have lost
the same positions (R517, R537). -/
def State.memberLoss (p : Nat) (s : State) : State :=
  let v := s.pool p
  let bad := (joinSpans v.lostPos (s.spans p)).filter fun e => decide (v.lostRoles e.1 ≠ []) && !v.loss.any fun x =>
    decide (x.first = e.1 ∧ x.count = e.2 ∧ x.roles = ((v.lostRoles e.1).map fun r => 2 ^ r).sum)
  bad.foldl (fun t e => (t.addLoss p ⟨e.1, e.2, ((v.lostRoles e.1).map fun r => 2 ^ r).sum, 1, 0xFFFF, false⟩).occur (S.STRP_DATA_LOSS.on p)) s

/-- A position enters FAILED (R520, R541): its spare, the log copy it held, and the pool's state follow. -/
def State.failMember (p pos cause : Nat) (s : State) : State :=
  let v := s.pool p
  let m := v.member pos
  if v.state = 0 ∨ v.members.length ≤ pos ∨ (m.state ≠ 1 ∧ m.state ≠ 2) then s
  else
    let s1 := ((s.onStrp fun x => { x with rebuilt := x.rebuilt.filter fun e => !decide (e.pool = p ∧ e.pos = pos) }).setPool p { v with
      members := v.members.set pos { m with state := 3, cause := cause, start := 0 }
      need := v.need.erase pos
      mapLeft := v.mapLeft.erase pos
      joined := v.joined.filter fun x => decide (x ≠ pos) }).occur (S.STRP_MEMBER_FAILED.on p)
    let s2 := if v.usable then s1.takeSpare p pos else s1
    let s3 := if v.oslPos.contains pos then
        (match (s2.pool p).onlinePos.find? fun x => !v.oslPos.contains x with
          | some x => ((s2.onPool p fun w => { w with oslPos := insertSorted x (w.oslPos.filter fun y => decide (y ≠ pos)) }).oslCopies p
              [x]).count (E.STRP_OSL_COPY.on p) 1
          | none => s2.onPool p fun w => { w with oslPos := w.oslPos.filter fun y => decide (y ≠ pos) }).occur (S.STRP_OSL_COPY_LOST.on p)
      else s2
    (if v.usable then s3.memberLoss p else s3).settlePool p

/-- The pool and position that a bay holds. -/
def State.placeOf (s : State) (b : Nat) : Option (Nat × Nat) :=
  (List.range 4).findSome? fun p => ((List.range (s.pool p).members.length).find? fun i =>
    decide (((s.pool p).member i).bay = b ∧ (((s.pool p).member i).state = 1 ∨ ((s.pool p).member i).state = 2))).map fun i => (p, i)

/-- A bay's page leaves ON, or its drive goes: its position fails, or its spare is lost (Table 13.5). -/
def State.bayLost (b : Nat) (s : State) : State :=
  let s1 := match s.placeOf b with
    | some e => s.failMember e.1 e.2 1
    | none => s
  (List.range 4).foldl (fun t p => if (t.pool p).spares.contains b then
    (t.onPool p fun v => { v with spares := v.spares.filter fun x => decide (x ≠ b) }).occur (S.STRP_SPARE_LOST.on p) else t) s1

/-- A bay becomes a spare of a pool that names it (R520, R523), and takes the first FAILED position that waits (R522). -/
def State.addSpare (p b : Nat) (s : State) : State :=
  let v := s.pool p
  let id := s.poolId p
  let foreign := match s.strp.labels.find b with
    | some l => decide (l.role ≠ 0 ∧ l.poolId ≠ id)
    | none => false
  if v.state = 0 ∨ v.spares.contains b ∨ (s.placeOf b).isSome ∨ !s.bayReady b ∨ (s.bay b).capacity < v.m then s
  else if foreign then s.occur S.STRP_FOREIGN_LABEL
  else
    let o := s.openSegs p
    let s1 := (s.setPool p { v with spares := insertSorted b v.spares }).putLabel p b { s.labelOf p o.1 o.2 with role := 2, position := 0xFF }
    match (if v.usable then (List.range v.members.length).find? fun i => decide ((v.member i).state = 3) else none) with
    | some i => (s1.takeSpare p i).settlePool p
    | none => s1

/-- The bay's page is ON and its drive READY: pools that designate it take it as a spare (R520, R522). -/
def State.bayArrived (b : Nat) (s : State) : State :=
  (List.range 4).foldl (fun t p => if bitAt (t.get (pgPool p) F.POOL_SPARES_SPARE_MASK) b then t.addSpare p b else t) s

end Sys2Proof.Machine
end

