-- ==== Sys2Proof/Machine/CmprFmt.lean ====
section
/-!
DEFINITION. The stored form of a unit: CRC-32C, the unit header, the WFF format, and sealing at rest (chapters 05 and 11 of spec/).
-/
namespace Sys2Proof.Machine
open Sys2Proof

/-! ### The unit header (Table 11.1) -/

def unitBytes : Nat := 16384
def hdrFormat (u : Nat) : Nat := bitsOf u 0 4
def hdrVer (u : Nat) : Nat := bitsOf u 4 4
def hdrLen (u : Nat) : Nat := bytesAt u 2 2
def hdrUcrc (u : Nat) : Nat := bytesAt u 4 4
def hdrKey (u : Nat) : Nat := bytesAt u 8 2
def hdrChk (u : Nat) : Nat := bytesAt u 12 4

/-- Bytes to whole granules (R434). -/
def granules (n : Nat) : Nat := (n + 511) / 512

/-- A stored unit with its header, padded with zeros to whole granules (R433, R434). -/
def storedUnit (format rawCause ucrc : Nat) (body : Blob) : Blob :=
  let len := 16 + body.len
  let h := format + 1 * 2 ^ 4 + rawCause * 2 ^ 8 + len % 2 ^ 16 * 2 ^ 16 + ucrc * 2 ^ 32
  ⟨granules len * 512, h + crc32c 8 h * 2 ^ 96 + body.val % 2 ^ (8 * body.len) * 2 ^ 128⟩
/-- A raw unit (R435). -/
def rawUnit (cause data : Nat) : Blob := storedUnit 0 cause (crc32c unitBytes data) ⟨unitBytes, data⟩

/-! ### WFF (R440) -/

/-- What the decoder has: the body not yet read, and the output, newest byte first. -/
abbrev WffSt := List Nat × List Nat

/-- Append `m` bytes, each the one `off` back. -/
def wffCopy (off : Nat) : Nat → List Nat → List Nat
  | 0, out => out
  | m + 1, out => wffCopy off m (out.getD (off - 1) 0 :: out)

def wffMatch (w : WffSt) : Option WffSt := match w.1 with
  | a :: b :: rest =>
    let v := a + 256 * b
    let off := v % 0x2000 + 1
    let c := v / 0x2000
    let mr : Option (Nat × List Nat) := if c < 7 then some (c + 3, rest) else match rest with
      | x :: r => some (10 + x, r)
      | [] => none
    match mr with
    | none => none
    | some (m, r) => if w.2.length < off ∨ unitBytes < w.2.length + m then none else some (r, wffCopy off m w.2)
  | _ => none

/-- The items that a flag word describes, from bit k on. -/
def wffItems (flags : Nat) : Nat → WffSt → Option WffSt
  | 0, w => some w
  | n + 1, w =>
    let k := 15 - n
    if w.2.length = unitBytes then (if flags / 2 ^ k = 0 then some w else none)
    else if flags / 2 ^ k % 2 = 0 then (match w.1 with
      | x :: r => wffItems flags n (r, x :: w.2)
      | [] => none)
    else (match wffMatch w with
      | some w' => wffItems flags n w'
      | none => none)

def wffGroups : Nat → WffSt → Option (List Nat)
  | 0, _ => none
  | fuel + 1, w =>
    if w.2.length = unitBytes then (if w.1.isEmpty then some w.2.reverse else none)
    else match w.1 with
      | a :: b :: rest => (match wffItems (a + 256 * b) 16 (rest, w.2) with
        | some w' => wffGroups fuel w'
        | none => none)
      | _ => none

/-- The 16,384 bytes of a WFF body of n bytes, none where the body is not valid. -/
def wffDecode (n body : Nat) : Option Nat := (wffGroups (unitBytes + 1) (toBytes n body, [])).map ofBytes

/-- The body of a stored unit decompressed by its format (R450, check 2). -/
def decodeBody (u : Nat) : Option Nat :=
  let n := hdrLen u - 16
  let body := bytesAt u 16 n
  match hdrFormat u with
  | 0 => some (bytesAt u 16 unitBytes)
  | 1 => inflate n body
  | _ => wffDecode n body

/-- Check 1 of R450: the header and its length within R433 and the granules read. -/
def headerOk (u grans : Nat) : Bool :=
  decide (hdrChk u = crc32c 8 (bytesAt u 0 8)) && decide (hdrVer u = 1) && decide (hdrFormat u ≤ 2)
    && decide (17 ≤ hdrLen u ∧ hdrLen u ≤ 16400 ∧ hdrLen u ≤ 512 * grans)

/-- The checks of R450: the output, or the REASON and the CRC computed. -/
def checkUnit (u grans : Nat) : Nat ⊕ (Nat × Nat) :=
  if !headerOk u grans then .inr (1, 0)
  else match decodeBody u with
    | none => .inr (2, 0)
    | some x => if crc32c unitBytes x = hdrUcrc u then .inl x else .inr (3, crc32c unitBytes x)

/-! ### Sealing at rest (R213 to R219, R436) -/

/-- The tweak of granule g of a unit. -/
def xtsTweak (volume lun g : Nat) : Nat :=
  if g < 32 then lun + g * 2 ^ 64 + volume % 2 ^ 14 * 2 ^ 69 else lun + 2 ^ 62 + volume % 2 ^ 14 * 2 ^ 69
/-- Apply a function to each data unit of a stored unit: bytes 16 to 511 of granule 0, then whole granules. -/
def xtsMap (f : Nat → Nat → Nat → Nat) (u grans : Nat) : Nat :=
  ((List.range grans).map fun g =>
    if g = 0 then bytesAt u 0 16 + f 0 496 (bytesAt u 16 496) * 2 ^ 128
    else f g 512 (bytesAt u (512 * g) 512) * 2 ^ (4096 * g)).sum

def State.restKey (s : State) (i : Nat) : RestKey := s.gard.rest.get i {}
/-- KEY_INDEX of a volume that is sealed at rest, 0 for one that is not (R215). -/
def State.sealIndex (s : State) (volume : Nat) : Nat :=
  let e := s.tab pgXts 2 volume
  if bitAt e 0 then bitsOf e 16 16 else 0

/-- Seal a stored unit under an index (R216, R217). -/
def State.sealUnit (s : State) (idx volume lun : Nat) (b : Blob) : Blob :=
  let k := s.restKey idx
  ⟨b.len, xtsMap (fun g n t => xtsSeal k.k1 k.k2 (xtsTweak volume lun g) n t) (withBytes b.val 8 2 idx) (b.len / 512)⟩
/-- Open one; none where the index is not ACTIVE (R219). -/
def State.openUnit (s : State) (volume lun u grans : Nat) : Option Nat :=
  if hdrKey u = 0 then some u
  else
    let k := s.restKey (hdrKey u)
    if k.state = 1 then some (xtsMap (fun g n t => xtsOpen k.k1 k.k2 (xtsTweak volume lun g) n t) u grans) else none

/-- One record of the integrity log (Table 11.5): unit, volume as a summary names it, REASON, OUTCOME, the unit as read, lane, CRC
computed. -/
def State.integrityRec (lun volume reason outcome u lane crc : Nat) (s : State) : State :=
  let n := s.get pgCmpr F.CMPR_LOG_STAT_NEXT
  let x := s.timeStamp + lun * 2 ^ 64 + volume * 2 ^ 128 + reason * 2 ^ 144 + outcome * 2 ^ 152 + hdrFormat u * 2 ^ 160
    + lane * 2 ^ 168 + hdrUcrc u * 2 ^ 192 + (if reason = 3 then crc else 0) * 2 ^ 224
  let wrapped := (s.cmpr.log.find n).isSome || s.flag pgCmpr F.CMPR_LOG_STAT_WRAPPED
  ((s.onCmpr fun c => { c with log := c.log.set n x }).setF pgCmpr F.CMPR_LOG_STAT_NEXT ((n + 1) % 64)).setF pgCmpr
    F.CMPR_LOG_STAT_WRAPPED (boolNat wrapped)

end Sys2Proof.Machine
end

