-- ==== Sys2Proof/Machine/PlceOps.lean ====
section
/-!
DEFINITION. Placement: map entries and pages, capacity, segments, streams and stripes, and the reads of stored units from their stripes
(chapters 12 and 13 of spec/).
-/
namespace Sys2Proof.Machine
open Sys2Proof

/-! ### Map entries (Table 12.3) -/

def meSeg (e : Nat) : Nat := bitsOf e 40 24
def meGoff (e : Nat) : Nat := bitsOf e 24 16 + bitsOf e 18 6 * 2 ^ 16
def meGlen (e : Nat) : Nat := bitsOf e 12 6
def meDamaged (e : Nat) : Bool := bitAt e 5
def meUnmapped (e : Nat) : Bool := bitAt e 2
def meZero (e : Nat) : Bool := bitAt e 1
def meRaw (e : Nat) : Bool := bitAt e 0
def mePhys (e : Nat) : Bool := decide (meSeg e ≠ 0)
def entUnmapped : Nat := 4
def entZero : Nat := 2
def entDamaged : Nat := 32
def entPhys (seg goff glen : Nat) (isSealed raw : Bool) : Nat :=
  seg * 2 ^ 40 + goff % 2 ^ 16 * 2 ^ 24 + goff / 2 ^ 16 % 64 * 2 ^ 18 + glen * 2 ^ 12 + boolNat isSealed * 8 + boolNat raw

def State.volPinned (s : State) (v : Nat) : Bool := decide (v ≠ imgVol) && bitAt (s.tab pgPlce 1 v) 2
/-- PHYS_MAX of a volume, in granules; 0 for no limit. -/
def State.physMax (s : State) (v : Nat) : Nat := bitsOf (s.tab pgPlce 1 v) 32 24 * 2097152
def State.pressStart (s : State) (p : Nat) : Nat := bitsOf (s.tab pgPlce 2 p) 0 16
def State.pressStop (s : State) (p : Nat) : Nat := bitsOf (s.tab pgPlce 2 p) 16 16
def State.pressReserve (s : State) (p : Nat) : Nat := bitsOf (s.tab pgPlce 2 p) 32 16
def State.hostReserve (s : State) (p : Nat) : Nat := bitsOf (s.tab pgPlce 2 p) 48 16

def mapKey (v lun : Nat) : Nat := v * 2 ^ 38 + lun
def mapVol (k : Nat) : Nat := k / 2 ^ 38
def pageKey (v lun : Nat) : Nat := v * 2 ^ 29 + lun / 512
def pageNo (k : Nat) : Nat := k % 2 ^ 29
/-- The entry of a unit, with PINNED where its volume is pinned (R485). -/
def State.entry (s : State) (v lun : Nat) : Nat := s.plce.map.get (mapKey v lun) entUnmapped + 16 * boolNat (s.volPinned v)
/-- The listed entries of a pool: key and entry. -/
def State.poolEntries (s : State) (p : Nat) : List (Nat × Nat) := s.plce.map.list.filter fun e => decide (s.volPool (mapVol e.1) = p)
def glenSum (l : List (Nat × Nat)) : Nat := (l.map fun e => meGlen e.2).sum
/-- LIVE of a segment and of a pool (R487, Table 12.8). -/
def State.segLive (s : State) (p seg : Nat) : Nat := glenSum ((s.poolEntries p).filter fun e => decide (meSeg e.2 = seg))
def State.poolLive (s : State) (p : Nat) : Nat := glenSum (s.poolEntries p)
def State.volEntries (s : State) (v : Nat) : List (Nat × Nat) := s.plce.map.list.filter fun e => decide (mapVol e.1 = v)
/-- PHYS_USED of a volume, in granules (R490). -/
def State.physUsed (s : State) (v : Nat) : Nat := glenSum (s.volEntries v)
def State.damagedUnits (s : State) (v : Nat) : Nat := ((s.volEntries v).filter fun e => meDamaged e.2).length
/-- Units that are physical or ZERO. -/
def State.mappedUnits (s : State) (v : Nat) : Nat := ((s.volEntries v).filter fun e => !meDamaged e.2 && !meUnmapped e.2).length
/-- NUSE of a volume: the LBAs of every unit that is not UNMAPPED (R490). -/
def State.nuse (s : State) (v : Nat) : Nat :=
  ((s.volEntries v).filter fun e => !meUnmapped e.2).length * (unitBytes / nsLba (s.ns v))

/-- Every LBA of units from `lun` on receives a deferred write error (R266): one contiguous range. -/
def State.unitErr (v lun count cause : Nat) (s : State) : State :=
  if v = imgVol then s
  else let n := unitBytes / nsLba (s.ns v)
       s.deferredErr v cause (lun * n) (count * n)

/-! ### Map pages (R475 to R485) -/

/-- `PLCE_MAP_DIRTY`, `PLCE_MAP_PINNED` after a change. -/
def State.syncMap (s : State) : State :=
  (s.setF pgPlce F.PLCE_MAP_DIRTY_DIRTY (s.plce.pages.count fun _ x => x.dirty.isSome)).setF pgPlce F.PLCE_MAP_PINNED_PINNED
    (s.plce.pages.count fun k _ => s.volPinned (pageVol k))
def State.pageCached (s : State) (k : Nat) : Bool := (s.plce.pages.find k).isSome
def State.pageUsed (k : Nat) (s : State) : State :=
  s.onPlce fun x => { x with lru := k :: x.lru.filter fun j => decide (j ≠ k) }
/-- The lowest free map region slot of a pool; 0 names none (R475). -/
def State.freeMapSlot (s : State) (p : Nat) : Nat :=
  let used := (s.plce.slots.list.filter fun e => decide (s.volPool (pageVol e.1) = p)).map Prod.snd
  (((List.range (used.length + 1)).map (· + 1)).find? fun n => !used.contains n).getD 0

/-- A frame may be taken: clean, unpinned, no write-back and no lookup in progress (R482). -/
def State.frameFree (s : State) (k : Nat) : Bool :=
  (s.mapPage k).dirty.isNone && (s.mapPage k).wb.isNone && !s.volPinned (pageVol k) && !s.plce.fetching.contains k
/-- A frame for a page: the cache as it is while frames are left, else without its least recently used frame that may go; none where
none may. -/
def State.takeFrame (s : State) : Option State :=
  if s.plce.pages.size < s.get pgPlce F.PLCE_MAP_STAT_FRAMES then some s
  else (s.plce.lru.reverse.find? s.frameFree).map fun v => s.onPlce fun x => { x with
    pages := x.pages.erase v, lru := x.lru.filter fun j => decide (j ≠ v)
    trail := x.trail.put v (0, 0) ((s.mapPage v).wgen, (s.mapPage v).maxSeq) }
/-- The page stands in a frame, with the WGEN and MAX_SEQ of its trailer. -/
def State.fillFrame (k : Nat) (s : State) : State :=
  ((s.onPlce fun x => if (x.pages.find k).isSome then x
    else { x with
      pages := x.pages.set k { wgen := (x.trail.get k (0, 0)).1, maxSeq := (x.trail.get k (0, 0)).2 }
      trail := x.trail.erase k }).pageUsed k).syncMap

/-- A position holds its copy of a map region slot: it is ONLINE, or REBUILDING with the slot copied (R528). -/
def PoolRt.mapHeld (v : PoolRt) (slot pos : Nat) : Bool :=
  decide ((v.member pos).state = 1) || (decide ((v.member pos).state = 2) && !(v.mapLeft.get pos []).contains slot)
/-- Of the copies of a page's slot that are held, but for some, the one whose member has the fewest drive commands outstanding (R478). -/
def State.mapCopyFor (s : State) (p slot : Nat) (but : List Nat) : Option Nat :=
  let v := s.pool p
  let ok := (List.range 3).filter fun k => v.mapHeld slot (v.mapPos slot k) && !but.contains k
  if ok.isEmpty then none else some (argMinBy ok fun k => (s.bay (v.member (v.mapPos slot k)).bay).out.size)
where
  argMinBy (l : List Nat) (f : Nat → Nat) : Nat := match l with
    | [] => 0
    | x :: r => r.foldl (fun b y => if f y < f b then y else b) x

/-- Read a copy of a page that has not been read for its miss; none where no such copy is left (R478). -/
def State.readCopy (k cls : Nat) (s : State) : Option State :=
  let p := s.volPool (pageVol k)
  let v := s.pool p
  let slot := (s.pageSlot k).getD 0
  let was := s.plce.copies.get k []
  (s.mapCopyFor p slot was).map fun c => (s.onPlce fun x => { x with copies := x.copies.set k (c :: was) }).drvSubmit
    (v.member (v.mapPos slot c)).bay { use := .mapRead k, isWrite := false, cls := cls, offset := v.mapOffset slot c, bytes := 4608 }
/-- Look a page up (R475, R478): in the cache, or never written, it is there at once; otherwise its read is asked of a drive. -/
def State.lookupPage (k cls : Nat) (s : State) : Bool × State :=
  if s.pageCached k then (true, (s.count E.PLCE_MAP_HIT 1).pageUsed k)
  else match s.pageSlot k with
    | none => match s.takeFrame with
      | some t => (true, t.fillFrame k)
      | none => (false, s.count E.PLCE_MAP_FRAME_WAIT 1)
    | some _ =>
      if s.plce.fetching.contains k then (false, s)
      else
        let t := (s.onPlce fun x => { x with
          fetching := x.fetching ++ [k], copies := x.copies.erase k, missCls := x.missCls.set k cls }).count E.PLCE_MAP_MISS 1
        (false, (t.readCopy k cls).getD (t.onStrp fun x => { x with done := x.done ++ [(.mapRead k, false)] }))

/-- WGEN and MAX_SEQ that a copy of a page bears: those of a write-back in progress, else those of its last one (R480, Table 12.4). -/
def State.trailOf (s : State) (k : Nat) : Nat × Nat := match s.plce.pages.find k with
  | some x => (x.wgen, (x.wb.map Prod.snd).getD x.maxSeq)
  | none => s.plce.trail.get k (0, 0)
/-- The image of a page copy (R476, Table 12.4). -/
def State.pageImage (s : State) (k : Nat) : Nat :=
  let v := pageVol k
  let body := ((List.range 512).map fun i => s.entry v (pageNo k * 512 + i) * 2 ^ (64 * i)).sum
  let x := s.trailOf k
  let t := summaryVol v + pageNo k * 2 ^ 16 + x.1 * 2 ^ 64 + x.2 * 2 ^ 128 + crc32c 4096 body * 2 ^ 192
  body + t * 2 ^ 32768 + crc32c 508 t * 2 ^ (32768 + 4064)

/-! ### Segments (R466 to R471) -/

/-- A segment entry changes; the placement stream carries its state, stream, stripes and times (Table 16.4). -/
def State.setSeg (p n : Nat) (g : Seg) (s : State) : State :=
  let old := s.seg p n
  (s.onPlce fun x => { x with segs := x.segs.put (segKey p n) {} g }).when
    (decide (g ≠ { old with reads := g.reads, undurable := g.undurable })) (State.mirrorIf p (.placement 3 (segKey p n)))
def State.onSeg (p n : Nat) (f : Seg → Seg) (s : State) : State := s.setSeg p n (f (s.seg p n))
/-- FREE segments of a pool. -/
def State.freeSegs (s : State) (p : Nat) : Nat := (s.pool p).segments - (s.usedSegs p).length
/-- The lowest-numbered FREE segment. -/
def State.lowestFreeSeg (s : State) (p : Nat) : Option Nat :=
  let n := (s.usedSegs p).foldl (fun x g => if g = x then x + 1 else x) 1
  if n ≤ (s.pool p).segments then some n else none

/-- A SEALED or VICTIM segment whose LIVE has reached 0 enters RELEASING (Table 12.2). -/
def State.settleSeg (p n : Nat) (s : State) : State :=
  let g := s.seg p n
  if (g.state = 2 ∨ g.state = 3) ∧ s.segLive p n = 0 then
    let s1 := s.setSeg p n { g with state := 4 }
    if g.state = 3 then ((s1.onPlce fun x => { x with victims := x.victims.erase p }).count E.PLCE_PRESS_SEGS 1).onFab fun f =>
        f.setF pgPlce F.PLCE_PRESS_STAT_RUNNING (withBits (f.get pgPlce F.PLCE_PRESS_STAT_RUNNING) p 1 0)
      else s1
  else s

/-- The unit at a map key is stored sealed under a key, or under none (0): `UNITS` of both keys follow (Table 5.8). -/
def State.keyStored (k idx : Nat) (s : State) : State :=
  let old := s.plce.unitKey.get k 0
  if old = idx then s
  else (s.onPlce fun x => { x with unitKey := x.unitKey.put k 0 idx }).onGard fun g => { g with
    rest := ((g.rest.modify old {} fun e => if old = 0 then e else { e with units := e.units - 1 }).modify idx {} fun e =>
      if idx = 0 then e else { e with units := e.units + 1 }) }

/-- Commit one map change (R487): the entry, its page, and the segment that the old entry leaves. -/
def State.mapChange (v lun new seq : Nat) (s : State) : State :=
  let p := s.volPool v
  let old := s.entry v lun
  let k := pageKey v lun
  let pg := s.mapPage k
  let n := pg.changes + 1
  let s1 := s.onPlce fun x => { x with
    map := x.map.put (mapKey v lun) entUnmapped (withBits new 4 1 0)
    pages := x.pages.set k { pg with dirty := if pg.dirty.isSome then pg.dirty else some s.now, changes := n, maxSeq := max pg.maxSeq seq }
    serial := x.serial.filter fun y => decide (y ≠ mapKey v lun) }
  let s2 := ((s1.count E.PLCE_MAP_CHANGES 1).syncMap).mirrorIf p (.placement 0 k)
  if mePhys old then (s2.onSeg p (meSeg old) fun g => { g with
      undurable := (k, n) :: g.undurable.filter fun e => decide (e.1 ≠ k) }).settleSeg p (meSeg old)
  else s2
/-- A map change whose new entry names a stored unit sealed under a key (R216, R487). -/
def State.commitSealed (v lun new seq idx : Nat) (s : State) : State := (s.mapChange v lun new seq).keyStored (mapKey v lun) idx
/-- A map change whose new entry names no sealed unit. -/
def State.commitEntry (v lun new seq : Nat) (s : State) : State := s.commitSealed v lun new seq 0
/-- The change that a commit has just made: page and change number (R480). -/
def State.lastChange (s : State) (v lun : Nat) : Nat × Nat := (pageKey v lun, (s.mapPage (pageKey v lun)).changes)

/-- A stream takes the lowest-numbered FREE segment (R466); stream 0 leaves PRESS_RESERVE segments (R467). The log and the labels are
written before its first stripe (R507, R540). -/
def State.takeSeg (p stream : Nat) (s : State) : State :=
  if stream = 0 ∧ s.freeSegs p ≤ s.pressReserve p then s
  else match s.lowestFreeSeg p with
    | none => s
    | some n => ((((s.setSeg p n { state := 1, stream := stream }).onPlce fun x => { x with
        open_ := x.open_.set (2 * p + stream) { pool := p, seg := n, t := 0, stream := stream } }).oslWrite p).relabel p false)

/-! ### Stripes (R463 to R465, R510) -/

def summaryGran (n : Nat) : Nat := granules (32 + 16 * n)
/-- A unit and its summary record fit (R463). -/
def Stripe.fits (x : Stripe) (d glen : Nat) : Bool := decide (x.used + glen + summaryGran (x.units.length + 1) ≤ 128 * d)

/-- The summary of a stripe (Table 12.1). -/
def Stripe.summary (x : Stripe) : Nat :=
  let recs := ofBytes (x.units.flatMap fun u => toBytes 16 (summaryVol u.volume % 2 ^ 16 + u.goff * 2 ^ 16 + u.glen * 2 ^ 32 + u.lun * 2 ^ 64))
  let n := x.units.length
  let h := 0x50535553 + x.seg * 2 ^ 32 + x.t * 2 ^ 64 + x.stream * 2 ^ 72 + n * 2 ^ 80 + crc32c (16 * n) recs * 2 ^ 96
  h + crc32c 28 h * 2 ^ 224 + recs * 2 ^ 256
/-- The data of a stripe, strip after strip. -/
def Stripe.data (x : Stripe) (d : Nat) : Nat :=
  (x.units.map fun u => u.bytes * 2 ^ (4096 * u.goff)).sum + x.summary * 2 ^ (4096 * (128 * d - summaryGran x.units.length))
/-- The strip of a role (Table 13.1, R508). -/
def PoolRt.strip (v : PoolRt) (data role : Nat) : Nat :=
  let strips := (List.range v.d).map fun i => bytesAt data (65536 * i) 65536
  if isMirror v.prot ∨ role < v.d then strips.getD (role % v.d) 0
  else let pq := pqStrips 65536 strips
       if role = v.d then pq.1 else pq.2

/-- The strip whose cells carry a role's: the copies of a mirrored pool share one (R371). -/
def PoolRt.stripCells (v : PoolRt) (role : Nat) : Nat := if isMirror v.prot then role % v.d else role

/-- Issue a closed stripe to every position that is ONLINE or REBUILDING (R510). -/
def State.issueStripe (x : Stripe) (s : State) : State :=
  let v := s.pool x.pool
  let st := stripeNo x.seg x.t
  let roles := (List.range v.w).filter fun r => decide ((v.member (v.posOf st r)).state = 1 ∨ (v.member (v.posOf st r)).state = 2)
  let data := x.data v.d
  let cls := if x.stream = 0 then 1 else 0
  let send := fun (t : State) (r : Nat) =>
    (t.emit (.strip x.pool st r ⟨65536, v.strip data r⟩)).drvSubmit (v.member (v.posOf st r)).bay
      { use := .strip x.pool x.seg x.t r, isWrite := true, cls := cls, offset := v.stripOffset st, bytes := 65536 }
  let cross := fun (t : State) (k : Nat) =>
    let bays := (roles.filter fun r => decide (v.stripCells r = k)).map fun r => (v.member (v.posOf st r)).bay
    t.ship { kind := .strip x.pool x.seg x.t k, port := 43, cls := cls, bytes := 65536, outs := bays.map (16 + ·) }
  let s1 := s.onPlce fun y => { y with writing := y.writing ++ [{ x with
    waiting := roles, failed := (List.range v.w).filter fun r => !roles.contains r
    bays := (List.range v.w).map fun r => (v.member (v.posOf st r)).bay }] }
  (roles.foldl send (((roles.map v.stripCells).uniq).foldl cross s1)).mirrorIf x.pool (.placement 1 x.pool)

/-- Close the stripe that a stream fills (R463, R465): padding and summary granules count as PAD; the next stripe of the segment opens,
or, after the 64th, the stream takes its next segment. -/
def State.closeStripe (p stream : Nat) (s : State) : State :=
  match s.plce.open_.find (2 * p + stream) with
  | none => s
  | some x =>
    let pad := 128 * (s.pool p).d - (x.units.map PackU.glen).sum
    let s1 := (s.onSeg p x.seg fun g => { g with pad := g.pad + pad }).count E.PLCE_STRIPES 1
    let s2 := if x.t < 63 then
        s1.onPlce fun y => { y with open_ := y.open_.set (2 * p + stream) { pool := p, seg := x.seg, t := x.t + 1, stream := stream } }
      else (s1.onPlce fun y => { y with open_ := y.open_.erase (2 * p + stream) }).takeSeg p stream
    s2.issueStripe x

/-! ### Reading stored units (R32, R512 to R514) -/

/-- A run of a unit's granules on one data strip: its first granule within the unit, the strip, the granule in the strip, how many. -/
structure Piece where
  rel : Nat
  strip : Nat
  off : Nat
  count : Nat
deriving DecidableEq, Repr

/-- The pieces of granule ranges of a unit at granule `goff` of its segment; a unit spans at most two strips (R463). -/
def pieces (d goff : Nat) (ranges : List (Nat × Nat)) : List Piece :=
  ranges.flatMap fun r =>
    let g := goff % (128 * d) + r.1
    let n1 := min r.2 (128 - g % 128)
    if n1 = r.2 then [⟨r.1, g / 128, g % 128, n1⟩] else [⟨r.1, g / 128, g % 128, n1⟩, ⟨r.1 + n1, g / 128 + 1, 0, r.2 - n1⟩]

/-- The loss list marks a row of the role lost and its handling has not finished (R513). -/
def PoolRt.markedLost (v : PoolRt) (stripe role off count : Nat) : Bool :=
  v.loss.any fun e => !e.done && decide (e.first ≤ stripe ∧ stripe < e.first + e.count) && v.lossRole e stripe role
    && (List.range count).any fun i => bitAt e.rows ((off + i) / 8)
/-- A role's rows are erased (R513); `bad` are the roles whose rows the drives or a check have called unreadable. -/
def PoolRt.erased (v : PoolRt) (stripe off count : Nat) (bad : List Nat) (role : Nat) : Bool :=
  !v.intact stripe (v.posOf stripe role) || v.markedLost stripe role off count || bad.contains role

/-- The roles whose rows give a piece: the strip itself, or those that reconstruct it (R509); none where they are too few. -/
def State.rolesFor (s : State) (p stripe : Nat) (x : Piece) (bad : List Nat) : Option (List Nat) :=
  let v := s.pool p
  let gone := v.erased stripe x.off x.count bad
  if isMirror v.prot then
    match ((List.range v.w).filter fun r => decide (r % v.d = x.strip)).filter fun r => !gone r with
    | [] => none
    | r :: rest => some [rest.foldl (fun b y => if (s.bay (v.member (v.posOf stripe y)).bay).out.size <
        (s.bay (v.member (v.posOf stripe b)).bay).out.size then y else b) r]
  else if !gone x.strip then some [x.strip]
  else
    let er := (List.range v.w).filter gone
    let data := (List.range v.d).filter fun r => !gone r
    if redundancy v.prot < er.length then none
    else if (er.filter fun r => decide (r < v.d)).length = 1 then
      some (data ++ (if gone v.d then [v.d + 1] else [v.d]))
    else some (data ++ [v.d, v.d + 1])

/-- The bytes of a piece from the parts read: the strip's own, or reconstructed (R509, R514). -/
def PoolRt.pieceBytes (v : PoolRt) (parts : List RPart) (x : Piece) : Nat :=
  let mine := parts.filter fun q => decide (q.start = x.off ∧ q.count = x.count) && !q.bad && q.got.isSome
  let known := mine.map fun q => (q.role, q.got.getD 0)
  match known.find? fun e => if isMirror v.prot then decide (e.1 % v.d = x.strip) else decide (e.1 = x.strip) with
  | some e => e.2
  | none =>
    let er := (List.range v.d).filter fun r => !known.any fun e => decide (e.1 = r)
    recover (512 * x.count) v.d x.strip (er.find? fun r => decide (r ≠ x.strip)) known

def RUnit.pieces (r : RUnit) (v : PoolRt) : List Piece := Machine.pieces v.d (meGoff r.entry) r.ranges
def RUnit.stripe (r : RUnit) (v : PoolRt) : Nat := stripeNo (meSeg r.entry) (meGoff r.entry / (128 * v.d))
/-- The stored unit, granules that were not read being 0. -/
def RUnit.bytes (r : RUnit) (v : PoolRt) : Nat := ((r.pieces v).map fun x => v.pieceBytes r.parts x * 2 ^ (4096 * x.rel)).sum
/-- Every part has come, or has been given up for others. -/
def RUnit.complete (r : RUnit) : Bool := r.parts.all fun q => q.got.isSome || q.bad

def State.readJob (s : State) (j : Nat) : Option RUnit := s.cmpr.reads.find j
def State.setReadJob (j : Nat) (r : RUnit) (s : State) : State := s.onCmpr fun c => { c with reads := c.reads.set j r }

/-- The slot's bay mask and drive requests follow a request issued for it (Table 6.5). -/
def State.slotDrive (f : RFor) (bay : Nat) (s : State) : State := match f with
  | .slot n => s.onSlot n fun x => { x with bayMask := if bitAt x.bayMask bay then x.bayMask else x.bayMask + 2 ^ bay, drvOut := x.drvOut + 1 }
  | .merge _ => s
  | .press => s

/-- Ask the drives for the rows of each piece that no part covers yet. `none`: more is erased than the redundancy. READS counts each
request (R471); a degraded piece counts its read and its rows (R514). -/
def State.askParts (j : Nat) (bad : List Nat) (s : State) : Option State :=
  match s.readJob j with
  | none => some s
  | some r =>
    let v := s.pool r.pool
    let st := r.stripe v
    (r.pieces v).foldl (fun (acc : Option State) x => match acc with
      | none => none
      | some t => match t.rolesFor r.pool st x bad with
        | none => none
        | some roles =>
          let cur := ((t.readJob j).map RUnit.parts).getD []
          let fresh := roles.filter fun k => !cur.any fun q => decide (q.role = k ∧ q.start = x.off ∧ q.count = x.count)
          let degraded := decide (1 < roles.length) || (isMirror v.prot && decide (bad ≠ []))
          let t1 := (t.when (degraded && !fresh.isEmpty) fun u => (u.count (E.STRP_DEGRADED_READS.on r.pool) 1).count
            (E.STRP_RECON_ROWS.on r.pool) ((x.off + x.count - 1) / 8 - x.off / 8 + 1))
          some (fresh.foldl (fun u k =>
            let n := (((u.readJob j).map RUnit.parts).getD []).length
            let bay := (v.member (v.posOf st k)).bay
            ((((u.onCmpr fun c => { c with reads := c.reads.set j { (c.reads.get j r) with
              parts := (c.reads.get j r).parts ++ [{ start := x.off, count := x.count, role := k }] } }).onSeg r.pool (meSeg r.entry) fun g =>
              { g with reads := g.reads + 1 }).slotDrive r.for_ bay).drvSubmit bay
                { use := .unit j n, isWrite := false, cls := r.cls, offset := v.stripOffset st + 512 * x.off, bytes := 512 * x.count })) t1))
      (some s)

/-- Rewrite the rows of a run of granules to the member that holds them, if one does (R515), with the bytes of each row that are known. -/
def State.rewriteRows (p stripe role off count : Nat) (data : Option Nat) (s : State) : State :=
  let v := s.pool p
  if (v.member (v.posOf stripe role)).state ≠ 1 ∧ (v.member (v.posOf stripe role)).state ≠ 2 then s
  else ((List.range ((off + count - 1) / 8 - off / 8 + 1)).map fun i => off / 8 + i).foldl (fun t k =>
    t.drvWrite (v.member (v.posOf stripe role)).bay (.repairRow p stripe role k)
      { use := .repair p stripe role k, isWrite := true, cls := 1, offset := v.stripOffset stripe + 4096 * k, bytes := 4096
        data := data }) s

/-- Begin the read of a stored unit: its job. -/
def State.newRead (v lun : Nat) (f : RFor) (ranges : List (Nat × Nat)) (part : Bool) (cls : Nat) (s : State) : Nat × State :=
  let j := s.cmpr.nextJob
  (j, s.onCmpr fun c => { c with
    nextJob := j + 1
    reads := c.reads.set j { volume := v, lun := lun, entry := s.entry v lun, pool := s.volPool v, for_ := f, parts := [], ranges := ranges
                             partial_ := part, cls := cls } })

/-! ### Background reads (R37, R338, R471, R538, Table 9.1) -/

/-- The cells of a background read. -/
def bgKind (e p w : Nat) : UnitKind → Bool
  | .background e' p' w' _ => decide (e' = e ∧ p' = p ∧ w' = w)
  | _ => false
def DrvUse.isBg (e p w : Nat) : DrvUse → Bool
  | .bg e' p' _ w' _ => decide (e' = e ∧ p' = p ∧ w' = w)
  | _ => false
/-- A background read is over: its cells are given back, and its count in READS (R538). -/
def State.bgEnd (x : Nat × Nat × Nat × Nat) (s : State) : State :=
  ((s.dropKind (bgKind x.1 x.2.1 x.2.2.2)).onStrp fun y => { y with
    bgReads := y.bgReads.filter fun z => decide (z ≠ x)
    bgDone := y.bgDone.filter fun d => !d.req.use.isBg x.1 x.2.1 x.2.2.2 }).when (decide (x.2.2.1 ≠ 0)) (State.onSeg x.2.1 x.2.2.1 fun g =>
      { g with reads := g.reads - 1 })
/-- A part of a background read is asked of its bay, at class C0. -/
def State.bgAsk (e p g w : Nat) (part : Nat × Nat × Nat × Nat) (s : State) : State :=
  s.drvSubmit part.2.1 { use := .bg e p g w part.1, isWrite := false, cls := 0, offset := part.2.2.1, bytes := part.2.2.2 }
/-- A background engine reads the parts of something, each a bay, an offset and a length: its bandwidth is admitted, the drives are asked,
and once every part has returned and crossed to port 43 the bytes are there, of a part that could not be read none. What the engine read
before on the pool it has given up. -/
def State.bgRead (e p g w bytes : Nat) (parts : List (Nat × Nat × Nat)) (s0 : State) : Option (List (Option Nat)) × State :=
  let me := (e, p, g, w)
  let s := (s0.strp.bgReads.filter fun x => decide (x.1 = e ∧ x.2.1 = p ∧ x ≠ me)).foldl (fun t x => t.bgEnd x) s0
  if !s.strp.bgReads.contains me then
    let a := s.bgTake p (if e = 3 then 2 else e) bytes
    if !a.1 then (none, a.2)
    else
      let t := (a.2.onStrp fun y => { y with bgReads := y.bgReads ++ [me] }).when (decide (g ≠ 0)) (State.onSeg p g fun x =>
        { x with reads := x.reads + 1 })
      (none, (parts.mapIdx fun i x => (i, x)).foldl (fun u x => u.bgAsk e p g w x) t)
  else
    let got := (List.range parts.length).map fun i => s.strp.bgDone.find? fun d => decide (d.req.use = .bg e p g w i)
    if got.all Option.isSome && !s.inVat (bgKind e p w) then (some (got.map fun d => d.bind BgDone.got), s.bgEnd me) else (none, s)
/-- A part of a background read has returned; one whose read was given up is dropped. -/
def State.bgBack (b : Nat) (r : DrvReq) (got : Option Nat) (s : State) : State := match r.use with
  | .bg e p g w _ => if s.strp.bgReads.contains (e, p, g, w) then s.onStrp fun x => { x with bgDone := x.bgDone ++ [⟨b, r, got⟩] } else s
  | _ => s
/-- A part whose data was pushed out after it had returned is asked again: the bay that is asked (R379). -/
def State.bgAgain (e p w i : Nat) (s : State) : Option (Nat × State) :=
  (s.strp.bgDone.find? fun d => d.req.use.isBg e p w && decide (d.req.use = .bg e p (match d.req.use with
    | .bg _ _ g _ _ => g
    | _ => 0) w i)).map fun d => (d.bay, (s.onStrp fun x => { x with bgDone := x.bgDone.filter fun y => decide (y ≠ d) }).drvSubmit d.bay
      { d.req with waited := false })

/-! ### The Press (R494 to R496) -/

/-- The score of R495, none for a segment that is no candidate. -/
def State.pressScore (s : State) (p : Nat) (n : Nat) (g : Seg) : Option Nat :=
  let segg := (s.pool p).segg
  let live := s.segLive p n
  let free := segg - live
  if g.state ≠ 2 ∨ free * 256 < s.get pgPlce F.PLCE_PRESS_CFG_PRESS_MIN_FREE * segg then none
  else
    let age := min 65535 ((s.ptp.sec % 2 ^ 32 + 2 ^ 32 - g.closeS) % 2 ^ 32)
    some (free * (age + 1) * 65536 / (segg + live))
/-- The procedure of R495. -/
def State.selectVictim (s : State) (p : Nat) : Option Nat :=
  ((s.usedSegs p).foldl (fun (best : Option (Nat × Nat)) n => match s.pressScore p n (s.seg p n) with
    | none => best
    | some sc => match best with
      | none => some (n, sc)
      | some b => if b.2 < sc then some (n, sc) else best) none).map Prod.fst

/-! ### Tables (Tables 12.8, 12.9) -/

def State.segEntry (s : State) (p n : Nat) : Nat :=
  let g := s.seg p n
  g.state + g.stream * 8 + g.reads * 2 ^ 16 + s.segLive p n * 2 ^ 32 + g.pad * 2 ^ 64 + g.closeS * 2 ^ 96
/-- Physical-used bytes of a tenant (R490). -/
def State.tenantPhys (s : State) (t : Nat) : Nat :=
  512 * (((s.fab.nsEntries false).filter fun e => decide (nsTenant e.2 = t)).map fun e => s.physUsed e.1).sum
def State.tenantLogical (s : State) (t : Nat) : Nat :=
  (((s.fab.nsEntries false).filter fun e => decide (nsTenant e.2 = t)).map fun e => s.nuse e.1 * nsLba e.2).sum

end Sys2Proof.Machine
end

