-- ==== Sys2Proof/Machine/JrnlOps.lean ====
section
/-!
DEFINITION. The journal: records and their life, the index, admission, capacity, and what the map and the placement of units do to
records (chapters 10 and 12 of spec/).
-/
namespace Sys2Proof.Machine
open Sys2Proof

/-! ### Records -/

def State.jrec (s : State) (k : Nat) : Option JRec := s.jrnl.recs.find k
def State.setRec (k : Nat) (r : JRec) (s : State) : State := s.onJrnl fun j => { j with recs := j.recs.set k r }
/-- Bytes of the volume that a record covers. -/
def JRec.span (r : JRec) : Nat := if r.type = 1 then r.len else r.len * 512
/-- The logical units that it touches. -/
def unitsOf (offset span : Nat) : List Nat :=
  if span = 0 then [] else (List.range ((offset + span - 1) / unitBytes - offset / unitBytes + 1)).map fun i => offset / unitBytes + i
def JRec.units (r : JRec) : List Nat := unitsOf r.offset r.span
/-- Units covered only in part. -/
def partUnits (offset span : Nat) : List Nat :=
  (unitsOf offset span).filter fun u => decide (u * unitBytes < offset ∨ offset + span < (u + 1) * unitBytes)
/-- The record is in the index. -/
def JRec.indexed (r : JRec) : Bool := decide (r.state ≠ .opened) && !r.piece
/-- Journal space of a record (R396). -/
def recSpace (type len : Nat) : Nat := if type = 1 then 256 + (len + 255) / 256 * 256 else 256
def chunkBytes : Nat := 4194304
/-- The number that names a record on the Britos link: its place in the journal (R631). -/
def JRec.handle (r : JRec) : Nat := r.chunk * 2 ^ 22 + r.place

def sumLen (l : List JRec) : Nat := (l.map JRec.len).sum
def State.recsWhere (s : State) (f : JRec → Bool) : List JRec := s.jrnl.recs.vals.filter f
/-- R398. -/
def JRec.dirty (r : JRec) : Bool := decide (r.type = 1 ∧ (r.state = .committed ∨ r.state = .handed))
def JRec.isPending (r : JRec) : Bool := decide (r.type = 1 ∧ r.state = .placed)
def State.dirtyBytes (s : State) : Nat := sumLen (s.recsWhere JRec.dirty)
def State.pendingBytes (s : State) : Nat := sumLen (s.recsWhere JRec.isPending)
/-- Pending bytes of the volumes of a pool (R481). -/
def State.poolPending (s : State) (p : Nat) : Nat := sumLen (s.recsWhere fun r => r.isPending && decide (s.volPool r.volume = p))
def mib (n : Nat) : Nat := (n + 1048575) / 1048576
def State.chunksUsed (s : State) : Nat := ((s.jrnl.recs.vals.map JRec.chunk).uniq).length

/-! ### The index (R399, R400): newest record first gives each byte its content -/

/-- What remains of [a, b) beside the intervals of a list. -/
def minusAll : List (Nat × Nat) → List (Nat × Nat) → List (Nat × Nat)
  | [], l => l
  | (c, d) :: rest, l =>
    minusAll rest (l.flatMap fun e => (if e.1 < min e.2 c then [(e.1, min e.2 c)] else []) ++ (if max e.1 d < e.2 then [(max e.1 d, e.2)] else []))
/-- Ranges of records, newest first, to how many extents they leave. -/
def extentsOf : List (Nat × Nat) → List (Nat × Nat) → Nat
  | [], _ => 0
  | r :: rest, done => (minusAll done [r]).length + extentsOf rest (r :: done)
def State.indexRanges (s : State) (volume : Nat) : List (Nat × Nat) :=
  ((s.recsWhere fun r => r.indexed && decide (r.volume = volume)).mergeSort fun a b => decide (b.seq ≤ a.seq)).map fun r =>
    (r.offset, r.offset + r.span)
def State.extents (s : State) : Nat :=
  ((((s.recsWhere JRec.indexed).map JRec.volume).uniq).map fun v => extentsOf (s.indexRanges v) []).sum
/-- Extents that a further range of a volume adds. -/
def State.extentsAdded (s : State) (volume : Nat) (ranges : List (Nat × Nat)) : Nat :=
  extentsOf (ranges ++ s.indexRanges volume) [] - extentsOf (s.indexRanges volume) []
def maxExtents : Nat := 16777216

/-- The newest record that covers a 512-byte block of a volume. -/
def State.recAt (s : State) (volume block : Nat) : Option (Nat × JRec) :=
  (s.jrnl.recs.list.filter fun e => e.2.indexed && decide (e.2.volume = volume ∧ e.2.offset ≤ block * 512 ∧ block * 512 < e.2.offset + e.2.span)).foldl
    (fun (b : Option (Nat × JRec)) e => match b with
      | none => some e
      | some x => if x.2.seq < e.2.seq then some e else b) none
/-- The 512 bytes that a record gives a block. -/
def JRec.block (r : JRec) (block : Nat) : Nat := if r.type = 1 then bytesAt r.data.val (block * 512 - r.offset) 512 else 0

/-- What the journal has of blocks from `first` on: the mask of blocks covered, and their bytes laid in place. -/
def State.overlay (s : State) (volume first count : Nat) : Nat × Nat :=
  (List.range count).foldl (fun a i => match s.recAt volume (first + i) with
    | some e => (a.1 + 2 ^ i, a.2 + e.2.block (first + i) * 2 ^ (4096 * i))
    | none => a) (0, 0)

/-! ### Registers (Table 10.7) -/

/-- A claim with a fence that is 10 µs old and a valid mirror (R646). -/
def State.claimSaves (s : State) : Bool :=
  decide (s.get pgPair F.PAIR_STAT_ROLE = 5) && s.flag pgPair F.PAIR_STAT_MIRROR_VALID && s.pair.island.fenceOut
    && decide (20000 ≤ s.now - s.pair.island.fenceOutAt)
/-- The save is armed (R411, R646). -/
def State.armed (s : State) : Bool :=
  s.isOn pgJrnl && (s.owned || s.claimSaves) && (List.range 4).any fun p => s.flag (pgPool p) F.POOL_CFG_DEFINED
/-- The drives that hold the save area (R412). -/
def State.saveBays (s : State) : List Nat := (List.range 24).filter fun b => (List.range 4).any fun p =>
  s.flag (pgPool p) F.POOL_CFG_DEFINED &&
    (bitAt (s.get (pgPool p) F.POOL_SPARES_SPARE_MASK) b || (s.pool p).members.any (fun m => decide (m.bay = b ∧ (m.state = 1 ∨ m.state = 2)))
      || (decide ((s.pool p).state = 0) && bitAt (s.get (pgPool p) F.POOL_BAYS_MEMBER_MASK) b))
/-- The pages of the regions that are not FREE, and the open-stripe logs that STRP holds, each as long as its intents make it (R410,
Table 13.10): their bytes. -/
def State.savePages (s : State) : Nat := ((s.regn.regions.vals.filter fun r => decide (r.state ≠ 0)).map RegionEnt.size).sum
def State.saveLogs (s : State) : Nat := (((List.range 4).filter fun p => (s.pool p).usable).map fun p => 128 + 16 * s.intents p).sum
/-- The bytes that a save would write (R410), without P. -/
def State.saveSize (s : State) : Nat := s.chunksUsed * chunkBytes + 2097152 + s.savePages + s.saveLogs
/-- With P (R415), in whole bytes. -/
def withParity (n w : Nat) : Nat := (n * w + (w - 2)) / max 1 (w - 1)
def State.saveMs (s : State) : Nat :=
  let w := s.saveBays.length
  if w = 0 then 2 else (withParity s.saveSize w + w * 12000000 - 1) / (w * 12000000) + 2

def State.syncJrnl (s : State) : State :=
  ((((((((s.setF pgJrnl F.JRNL_DIRTY_DIRTY_MIB (mib s.dirtyBytes)).setF pgJrnl F.JRNL_PENDING_PLACED_MIB (mib s.pendingBytes)).setF pgJrnl
    F.JRNL_OCC_CHUNKS s.chunksUsed).setF pgJrnl F.JRNL_SEQ_SEQ_LO s.jrnl.seq).setF pgJrnl F.JRNL_INDEX_EXTENTS s.extents).setF pgJrnl
    F.JRNL_SAVE_EST_MS s.saveMs).setF pgJrnl F.JRNL_SAVE_STAT_MEMBERS s.saveBays.length).setF pgJrnl F.JRNL_SAVE_STAT_ARMED
    (boolNat s.armed))
/-- A brine save has begun (Table 10.3). -/
def State.saving (s : State) : Bool := decide (s.get pgJrnl F.JRNL_SAVE_STAT_PHASE ≠ 0)

/-! ### Space (R395, R406) -/

def State.freeChunks (s : State) : List Nat :=
  (List.range 3072).filter fun c => decide (s.jrnl.openChunk ≠ some c) && s.jrnl.recs.vals.all fun r => decide (r.chunk ≠ c)
/-- The chunk and place of a record of n bytes: in the open chunk where it fits, else in the lowest free chunk, which opens. -/
def State.findSpace (s : State) (n : Nat) : Option (Nat × Nat) :=
  match s.jrnl.openChunk with
  | some c => if s.jrnl.openUsed + n ≤ chunkBytes then some (c, s.jrnl.openUsed) else s.freeChunks.head?.map fun k => (k, 0)
  | none => s.freeChunks.head?.map fun k => (k, 0)

/-- Writes that are admitted and whose records have not been opened: slot and SQE (R406). -/
def State.unmade (s : State) : List (Nat × Slot) :=
  s.cmdq.slots.list.filter fun e => decide (e.2.state = .started) && !e.2.recsMade && (decide (e.2.qid ≠ 0)) &&
    (decide (sqeOpc e.2.sqe = 0x01) || decide (sqeOpc e.2.sqe = 0x08) || decide (sqeOpc e.2.sqe = 0x09))
def Slot.lba (x : Slot) : Nat := nsLba x.nsEnt
def Slot.bytes (x : Slot) : Nat := sqeNlb x.sqe * x.lba
/-- Every logical unit of a Read has been looked up. -/
def Slot.allLooked (x : Slot) : Bool := (unitsOf (sqeSlba x.sqe * x.lba) x.bytes).all fun u => x.looked.contains u
def Slot.writeLen (x : Slot) : Nat := if sqeOpc x.sqe = 0x01 then x.bytes else 0
/-- The bytes that a write command's records take in the journal at most (R396, R397). -/
def Slot.recBytes (x : Slot) : Nat := match sqeOpc x.sqe with
  | 0x01 => recSpace 1 x.writeLen
  | 0x08 => 256 * ((x.bytes + 2 ^ 40 - 1) / 2 ^ 40)
  | _ => 256 * ((sqeCdw x.sqe 10 % 256 + 1) * (x.lba / 256))
/-- With those that a pool node has just selected. -/
def State.admitted (s : State) : List (Nat × Slot) :=
  s.unmade ++ s.cmdq.slots.list.filter fun e => s.tmgr.chosen.contains e.1 && decide (e.2.state = .fetched) &&
    (decide (sqeOpc e.2.sqe = 0x01) || decide (sqeOpc e.2.sqe = 0x08) || decide (sqeOpc e.2.sqe = 0x09))
/-- Admitted bytes (R406). -/
def State.admittedBytes (s : State) : Nat :=
  (s.admitted.map fun e => e.2.writeLen).sum + sumLen (s.recsWhere fun r => decide (r.type = 1 ∧ r.state = .opened))
def State.dirtyLimit (s : State) : Nat := s.get pgJrnl F.JRNL_CFG_DIRTY_LIMIT * 67108864
/-- Chunks that writes already admitted still need, each record in a chunk of its own at worst, and one further record. -/
def State.spaceFor (s : State) (n : Nat) : Bool :=
  let need := (s.admitted.map fun e => e.2.recBytes).sum + n
  let here := match s.jrnl.openChunk with
    | some _ => chunkBytes - s.jrnl.openUsed
    | none => 0
  decide (need ≤ here + s.freeChunks.length * (chunkBytes - 2097152 - 512))

/-- Why a write command cannot be admitted now: 0 it can, 1 the dirty limit or the space (R406), 2 the index (R400), 3 JRNL drains and
admits none. -/
def State.jrnlHolds (s : State) (x : Slot) : Nat :=
  let opc := sqeOpc x.sqe
  if opc ≠ 0x01 ∧ opc ≠ 0x08 ∧ opc ≠ 0x09 then 0
  else if (s.fab.page pgJrnl).state = .draining then 3
  else
    let n := s.dirtyBytes + s.admittedBytes
    let len := x.writeLen
    let lba := x.lba
    let ok := if opc = 0x01 then decide (n + len ≤ s.dirtyLimit) else decide (n < s.dirtyLimit)
    let first := sqeSlba x.sqe * lba
    let ranges := if opc = 0x09 then [] else [(first, first + sqeNlb x.sqe * lba)]
    if !ok || !s.spaceFor x.recBytes then 1
    else if maxExtents < s.extents + s.extentsAdded x.volume ranges then 2
    else 0

/-! ### Capacity (R491, R492) -/

def recResv (r : JRec) : Nat :=
  33 * (((if r.type = 1 then r.units else partUnits r.offset r.span).filter fun u => !r.placedUnits.contains u).length)
/-- What a Write or Write Zeroes reserves. -/
def Slot.resv (x : Slot) : Nat :=
  let off := sqeSlba x.sqe * x.lba
  let len := x.bytes
  match sqeOpc x.sqe with
  | 0x01 => 33 * (unitsOf off len).length
  | 0x08 => 33 * (partUnits off len).length
  | _ => 0
/-- RESV of a volume. -/
def State.volResv (s : State) (v : Nat) : Nat :=
  ((s.recsWhere fun r => decide (r.volume = v ∧ r.state ≠ .placed)).map recResv).sum +
    ((s.unmade.filter fun e => decide (e.2.volume = v)).map fun e => e.2.resv).sum
def State.poolResv (s : State) (p : Nat) : Nat :=
  let vols := (((s.jrnl.recs.vals.map JRec.volume) ++ (s.unmade.map fun e => e.2.volume)).uniq).filter fun v => decide (s.volPool v = p)
  (vols.map s.volResv).sum
/-- R492: the command would exceed its volume's or its pool's capacity. -/
def State.overCapacity (s : State) (v need : Nat) : Bool :=
  let p := s.volPool v
  decide (need ≠ 0) &&
    (decide (s.physMax v ≠ 0 ∧ s.physMax v < s.physUsed v + s.volResv v + need) ||
      decide (((s.pool p).segments - s.hostReserve p) * (s.pool p).segg < s.poolLive p + s.poolResv p + need))

/-! ### The life of a record (Table 10.2) -/

/-- A record opens in the journal (R395, R396): its number. -/
def State.openRec (r : JRec) (s : State) : State :=
  let n := recSpace r.type r.len
  match s.findSpace n with
  | none => s
  | some (c, at') =>
    let k := s.jrnl.nextRec
    let x := { r with chunk := c, place := at', state := .opened }
    let s1 := ((s.onJrnl fun j => { j with recs := j.recs.set k x, nextRec := k + 1, openChunk := some c, openUsed := at' + n }).mirrorIf c
      (.journal x.handle)).syncJrnl
    match r.slot with
    | some m => s1.onSlot m fun y => { y with jrnlRef := if y.jrnlRef = 0 then x.handle % 2 ^ 32 else y.jrnlRef }
    | none => s1

/-- Bytes of a command's records, for its completion. -/
def State.dropRec (k : Nat) (s : State) : State := (s.onJrnl fun j => { j with recs := j.recs.erase k }).syncJrnl

/-- The open record's command will not commit: aborted, or already completed with an error, or its connection has been lost before its
data came (Tables 6.4 and 10.2). -/
def State.recLost (s : State) (r : JRec) : Bool :=
  r.discard || (match r.slot with
    | some n => (match s.slot n with
      | some x => decide (x.state ≠ .started) || x.discard && !x.fetched && decide (r.type = 1 ∧
          ((s.ctx x.conn).incarnation ≠ x.incarnation ∨ (s.ctx x.conn).state ≠ .ready))
      | none => true)
    | none => false)

/-- The command's records are one fewer. -/
def State.recDone (r : JRec) (s : State) : State := match r.slot with
  | some n => s.onSlot n fun x => { x with recsOpen := x.recsOpen - 1 }
  | none => s

/-- The last record of the command in slot n has committed: its commit point, and its index entries (R245, R246, R397). -/
def State.lastRec (n : Nat) (s : State) : State := match s.slot n with
  | some x => if x.state = .started ∧ x.recsOpen = 0 then
      ((s.onJrnl fun j => { j with recs := j.recs.mapVals fun _ q => if q.slot = some n then { q with piece := false } else q }).onSlot n fun y =>
        { y with bytesDone := y.writeLen }).commitSlot n cplOk else s
  | none => s

/-- OPEN to COMMITTED (R399): SEQ, index, commit point of the command with its last record (R245, R397). -/
def State.commitRec (k : Nat) (s : State) : State :=
  match s.jrec k with
  | none => s
  | some r =>
    let q := s.jrnl.seq + 1
    let s1 := (((s.setRec k { r with seq := q, state := .committed, committedAt := s.now, piece := r.slot.isSome }).onJrnl fun j => { j with seq := q }).count
      E.JRNL_REC_COMMIT 1).when (decide (r.type = 1)) (State.count E.JRNL_REC_BYTES r.len)
    let s2 := (s1.recDone r).syncJrnl
    let s3 := s2.mirrorIf r.chunk (.commitNotice r.handle)
    match r.slot with
    | none => s3
    | some n => s3.lastRec n

/-- Records of a command that ends without its last one: they never entered the index (R246, R397). -/
def State.dropPieces (n : Nat) (s : State) : State :=
  (s.jrnl.recs.list.filter fun e => decide (e.2.slot = some n) && e.2.piece).foldl (fun t e =>
    ((t.dropRec e.1).count E.JRNL_REC_DISCARD 1).mirrorIf e.2.chunk (.releaseNotice e.2.handle)) s

/-- OPEN to FREE (Table 10.2). -/
def State.discardRec (k : Nat) (s : State) : State :=
  match s.jrec k with
  | none => s
  | some r =>
    let s1 := (((s.dropRec k).recDone r).count E.JRNL_REC_DISCARD 1).mirrorIf r.chunk (.releaseNotice r.handle)
    match r.slot with
    | none => s1
    | some n => match s1.slot n with
      | some x => if x.state = .started ∧ x.recsOpen = 0 then (s1.dropPieces n).commitSlot n (cplErr 0 8) else s1.workReturned n
      | none => s1

/-- Records q and r are neighbouring pieces of one extent of a command, q the earlier (R397). -/
def JRec.precedes (q r : JRec) : Bool :=
  decide (q.state = .opened ∧ r.state = .opened ∧ q.slot = r.slot ∧ q.type = r.type ∧ q.type ≠ 1 ∧ q.len = 2 ^ 31 ∧ q.offset + 2 ^ 40 = r.offset) && r.slot.isSome

/-- An OPEN record whose local copy is placed moves on: to FREE where its command is lost, to COMMITTED where no confirmation is missing
and no earlier piece of its extent is still OPEN (R397, R404, Table 10.2). -/
def State.stepOne (k : Nat) (s : State) : State :=
  match s.jrec k with
  | none => s
  | some r =>
    if r.state ≠ .opened ∨ !r.localOk then s
    else if s.recLost r then s.discardRec k
    else if (r.mirrored || !s.mirroring) && !(s.jrnl.recs.any fun _ q => q.precedes r) then
      (s.setRec k { r with solo := r.solo || (!r.mirrored && decide (s.get pgPair F.PAIR_STAT_ROLE = 6)) }).commitRec k
    else s
/-- The record moves on, and after it the pieces of its extent that waited for it. -/
def State.stepPieces : Nat → Nat → State → State
  | 0, _, s => s
  | fuel + 1, k, s => match s.jrec k with
    | none => s
    | some r =>
      let s1 := s.stepOne k
      match s.jrnl.recs.findKey fun _ q => r.precedes q with
      | none => s1
      | some m => State.stepPieces fuel m s1
def State.stepRec (k : Nat) (s : State) : State := s.stepPieces 32 k

/-- Every record that waits is committed alone when the partner is lost, the lower slot first (R399); each that waited for its
confirmation is counted (R404). -/
def State.soloRecords (s : State) : State :=
  let ks := (s.jrnl.recs.list.filter fun e => decide (e.2.state = .opened) && e.2.localOk).mergeSort fun a b =>
    decide (a.2.slot.getD 0 ≤ b.2.slot.getD 0)
  ks.foldl (fun t e => (t.stepRec e.1).when (!e.2.mirrored && !s.recLost e.2) (State.count E.JRNL_MIRROR_SOLO 1)) s

/-- PLACED to FREE: every map change of its units durable and no read holding a reference; in a FAILED pool as soon as it is PLACED
(R761, Table 10.2). -/
def State.releasable (s : State) (r : JRec) : Bool :=
  decide (r.state = .placed) && (r.undurable.isEmpty || decide ((s.pool (s.volPool r.volume)).state = 5))
    && r.readers.isEmpty
def State.releaseRecs (s : State) : State :=
  let go := s.jrnl.recs.list.filter fun e => s.releasable e.2
  let s1 := go.foldl (fun t e => (((t.onJrnl fun j => { j with recs := j.recs.erase e.1 }).count E.JRNL_REC_RELEASED 1).mirrorIf e.2.chunk
    (.releaseNotice e.2.handle))) s
  if go.isEmpty then s else s1.syncJrnl

/-- A unit with some records' bytes has its map change (R33, Table 10.2). -/
def State.unitPlaced (recs : List Nat) (lun : Nat) (change : Nat × Nat) (s : State) : State :=
  let one := fun (t : State) (k : Nat) => match t.jrec k with
    | none => t
    | some r =>
      let placed := if r.placedUnits.contains lun then r.placedUnits else lun :: r.placedUnits
      let all := r.units.all fun u => placed.contains u
      let r1 := { r with placedUnits := placed, undurable := change :: r.undurable.filter fun e => decide (e.1 ≠ change.1)
                         state := if all then RecState.placed else r.state }
      let t1 := t.setRec k r1
      if all ∧ r.state ≠ .placed then (t1.onJrnl fun j => { j with lastPlaced := j.lastPlaced.set r.volume (max r.seq (j.lastPlaced.get r.volume 0)) }).count
          E.JRNL_REC_PLACED 1 else t1
  (recs.foldl one s).releaseRecs.syncJrnl

/-- The highest SEQ of some records. -/
def State.maxSeqOf (s : State) (recs : List Nat) : Nat := ((recs.filterMap s.jrec).map JRec.seq).foldl max 0

/-! ### Units on their way to the pool -/

def State.wjob (s : State) (j : Nat) : Option WUnit := s.cmpr.writes.find j
def State.setJob (j : Nat) (w : WUnit) (s : State) : State := s.onCmpr fun c => { c with writes := c.writes.set j w }
def WUnit.recs (w : WUnit) : List Nat := match w.for_ with
  | .journal l => l
  | .destage => []

/-- The cells of a unit on its way to the pool. -/
def cellsOfJob (j : Nat) : UnitKind → Bool
  | .handOff k => decide (k = j)
  | .stored k => decide (k = j)
  | _ => false
/-- A unit with its data crosses from JRNL or REGN to CMPR (Table 1.3, R311). -/
def State.handCells (j : Nat) (s : State) : State := match s.wjob j with
  | none => s
  | some w => s.ship { kind := .handOff j, port := if w.for_ = .destage then 46 else 40, cls := if w.for_ = .destage then 0 else 1
                       bytes := unitBytes, outs := [41] }
/-- The job ends: its cells are freed and its wait is over. -/
def State.endJob (j : Nat) (s : State) : State :=
  match s.wjob j with
  | none => s
  | some _ => (s.dropKind (cellsOfJob j)).onPlce (fun x => { x with waits := x.waits.filter fun y => decide (y.job ≠ j) })
      |>.onCmpr fun c => { c with writes := c.writes.erase j }

/-- The unit's map change commits, and its records follow (R33, R487). A copy of a region unit that no ACTIVE region holds any more maps
nothing (R278). -/
def State.finishJob (j entry : Nat) (s : State) : State :=
  match s.wjob j with
  | none => s
  | some w =>
    let e := if w.for_ = .destage ∧ !s.activeUnit w.lun then entUnmapped else entry
    let s1 := (s.endJob j).commitSealed w.volume w.lun e (s.maxSeqOf w.recs) (if mePhys e then w.keyIndex else 0)
    s1.unitPlaced w.recs w.lun (s1.lastChange w.volume w.lun)

/-- Contiguous runs of a rising list: first and length. -/
def runsOf : List Nat → List (Nat × Nat)
  | [] => []
  | x :: rest => match runsOf rest with
    | (y, n) :: more => if x + 1 = y then (x, n + 1) :: more else (x, 1) :: (y, n) :: more
    | [] => [(x, 1)]
/-- Every LBA of these units receives a deferred write error: one record for each contiguous range (R266). -/
def State.unitErrs (cause : Nat) (us : List (Nat × Nat)) (s : State) : State :=
  ((us.map Prod.fst).uniq).foldl (fun t v =>
    (runsOf ((((us.filter fun e => decide (e.1 = v)).map Prod.snd).uniq).mergeSort fun a b => decide (a ≤ b))).foldl (fun u r =>
      u.unitErr v r.1 r.2 cause) t) s

/-- A permanent failure of placement (R761): a ZERO entry, and every LBA of the unit a deferred write error. -/
def State.failJob (j cause : Nat) (s : State) : State :=
  match s.wjob j with
  | none => s
  | some w => (s.unitErr w.volume w.lun 1 cause).finishJob j entZero

/-- The oldest COMMITTED record of a volume that touches a unit and has not been handed off with it, and every record that is. -/
def State.unitRecs (s : State) (v lun : Nat) : List (Nat × JRec) :=
  s.jrnl.recs.list.filter fun e => e.2.indexed && decide (e.2.state ≠ .placed ∧ e.2.volume = v) && e.2.units.contains lun
    && !e.2.handedUnits.contains lun

end Sys2Proof.Machine
end

