-- ==== Sys2Proof/Machine/SaveOps.lean ====
section
/-!
DEFINITION. What the brine save writes: sealed records, the image in its stripes, the header (chapter 10 of spec/).
-/
namespace Sys2Proof.Machine
open Sys2Proof

/-! ### Records of the image (Table 10.1, R414, R420) -/

/-- The chunks that hold a record, rising: the image holds them in this order. -/
def State.usedChunks (s : State) : List Nat := ((s.jrnl.recs.vals.map JRec.chunk).uniq).mergeSort fun a b => decide (a ≤ b)
/-- Where a record's header stands in the image. -/
def State.imagePos (s : State) (r : JRec) : Nat := s.usedChunks.idxOf r.chunk * chunkBytes + r.place
/-- SEQ of a record in the image. An OPEN one whose local copy is complete takes the next number in the order of R399 (DESIGN CHOICE, log
entry 75). -/
def State.imageSeq (s : State) (r : JRec) : Nat :=
  if r.state = .opened then
    s.jrnl.seq + 1 + (s.recsWhere fun q => decide (q.state = .opened ∧ q.slot.getD 0 * 2 ^ 48 + q.handle < r.slot.getD 0 * 2 ^ 48 + r.handle)).length
  else r.seq
/-- The tweak of a block of a sealed record: bit 63 and its block index in the image, and the volume (R218, R414). -/
def recTweak (block volume : Nat) : Nat := 2 ^ 63 + block + volume % 2 ^ 14 * 2 ^ 69
/-- The 512-byte blocks of a record's data, each turned by `f` under its tweak. -/
def recMap (f : Nat → Nat → Nat) (block volume : Nat) (d : Blob) : Blob :=
  ⟨d.len, ((List.range (d.len / 512)).map fun i => f (recTweak (block + i) volume) (bytesAt d.val (512 * i) 512) * 2 ^ (4096 * i)).sum⟩
/-- A record as the image holds it: its header and its data, sealed where its volume is (R222, R414). One that is still sealed from an
earlier image is written as it stands (DESIGN CHOICE, log entry 75). -/
def State.savedRec (s : State) (r : JRec) : Nat × Blob :=
  let idx := if r.sealed then r.keyIndex else if r.type = 1 then s.sealIndex r.volume else 0
  let k := s.restKey idx
  let d := if r.type ≠ 1 then ⟨0, 0⟩ else if r.sealed ∨ idx = 0 then r.data
    else recMap (fun t x => xtsSeal k.k1 k.k2 t 512 x) (s.imagePos r / 512) r.volume r.data
  let h := s.imageSeq r % 2 ^ 64 + r.type * 2 ^ 64 + boolNat r.poison * 2 ^ 72 + boolNat (decide (idx ≠ 0)) * 2 ^ 73 + boolNat r.solo * 2 ^ 74
    + r.volume * 2 ^ 80 + r.len * 2 ^ 96 + r.offset * 2 ^ 128 + r.tenant * 2 ^ 192 + idx * 2 ^ 208 + r.slot.getD 0 * 2 ^ 224
    + crc32c d.len d.val * 2 ^ 256
  (h + crc32c 36 h * 2 ^ 288, d)

/-! ### The image (R410, R412) -/

/-- Bytes laid out at offsets. -/
abbrev Pieces := List (Nat × Blob)
def Pieces.lay (ps : Pieces) (at' n base : Nat) : Nat := ps.foldl (fun x p =>
  let lo := max at' p.1
  let hi := min (at' + n) (p.1 + p.2.len)
  if lo < hi then withBytes x (lo - at') (hi - lo) (bytesAt p.2.val (lo - p.1) (hi - lo)) else x) base

/-- The live regions, by index. -/
def State.savedRegions (s : State) : List (Nat × RegionEnt) := s.regn.regions.list.filter fun e => decide (e.2.state ≠ 0)
/-- Blobs one after another from an offset on. -/
def piecesFrom : Nat → List Blob → Pieces
  | _, [] => []
  | at', b :: bs => (at', b) :: piecesFrom (at' + b.len) bs
/-- The image: chunks, the region table, the pages of the regions, the open-stripe logs. -/
def State.image (s : State) : Pieces :=
  let c := s.chunksUsed * chunkBytes
  (s.jrnl.recs.vals.flatMap fun r => [(s.imagePos r, ⟨64, (s.savedRec r).1⟩), (s.imagePos r + 256, (s.savedRec r).2)])
    ++ (s.savedRegions.map fun e => (c + 32 * e.1, ⟨32, s.regionBytes e.1⟩))
    ++ piecesFrom (c + 2097152) ((s.savedRegions.map fun e => ⟨e.2.size, memBytes s.regn.mem e.2.base e.2.size⟩)
      ++ ((List.range 4).filter fun p => (s.pool p).usable).map s.oslLog)
/-- Bytes of the image; bytes of a chunk that no record of it holds are free values. -/
def State.imageBytes (s : State) (fill at' n : Nat) : Nat :=
  let c := s.chunksUsed * chunkBytes
  s.image.lay at' n (if at' < c then bytesAt fill at' (min n (c - at')) else 0)
def stripBytes : Nat := 65536
/-- The strip of a stripe that the i-th of W members takes. P stands at stripe mod W (DESIGN CHOICE, log entry 75). -/
def State.saveStripAt (s : State) (fill w stripe i : Nat) : Blob :=
  let p := stripe % w
  let data := fun (k : Nat) => s.imageBytes fill ((stripe * (w - 1) + k) * stripBytes) stripBytes
  ⟨stripBytes, if i = p then (List.range (w - 1)).foldl (fun x k => x ^^^ data k) 0 else data (if i < p then i else i - 1)⟩
/-- Every strip goes to its member, with FUA, but for members dropped (R412, R419). -/
def State.writeImage (s0 : State) : State :=
  let (fill, s) := s0.draw
  let all := s.jrnl.saveAll
  let w := all.length
  let stripes := (s.saveSize + (w - 1) * stripBytes - 1) / max 1 ((w - 1) * stripBytes)
  (List.range stripes).foldl (fun t n => ((List.range w).zip all).foldl (fun u e =>
    if s.jrnl.saveMembers.contains e.2 then u.emit (.saveStrip e.2 (stripBytes * (n + 1)) (s.saveStripAt fill w n e.1)) else u) t) s

/-! ### The header (Table 10.5) -/

def State.saveHead (s : State) : Nat :=
  let ms := (s.now - s.jrnl.saveStart + 1999999) / 2000000
  let top := (s.recsWhere fun _ => true).foldl (fun a r => max a (s.imageSeq r)) 0
  let h := s.jrnl.saveGen % 2 ^ 64 + s.jrnl.savePf % 2 ^ 64 * 2 ^ 64 + s.chunksUsed * chunkBytes * 2 ^ 128 + (2097152 + s.savePages) * 2 ^ 192
    + s.saveLogs * 2 ^ 256 + s.jrnl.saveAll.length * 2 ^ 320 + (if s.jrnl.saveLost = 0 then 1 else 2) * 2 ^ 328 + ms % 2 ^ 16 * 2 ^ 336
    + (s.jrnl.saveAll.map fun b => 2 ^ b).sum * 2 ^ 352 + top * 2 ^ 384
  h + crc32c 56 h * 2 ^ 448
/-- A header as a bay's slice holds it: 4 KiB, zeros after its 64 bytes (R412). -/
def headBlock (h : Nat) : Blob := ⟨4096, h⟩
/-- The header with RESULT 0 (R428). -/
def deadHead (h : Nat) : Nat :=
  let x := withBytes (bytesAt h 0 56) 41 1 0
  x + crc32c 56 x * 2 ^ 448

end Sys2Proof.Machine
end

