-- ==== Sys2Proof/Machine/JrnlExec.lean ====
section
/-!
DEFINITION. The commands of JRNL: records, hand-off, the brine save and the restore (chapter 10 of spec/).
-/
namespace Sys2Proof.Machine
open Sys2Proof

/-! ### Records -/

/-- The first data cell of a Write reaches port 40 (R395 to R398). -/
def execJrnlRecordOpen (slot : Nat) (s : State) : Result :=
  .next (match s.slot slot with
    | none => s
    | some x =>
      let len := x.writeLen
      if x.state ≠ .started ∨ sqeOpc x.sqe ≠ 0x01 ∨ x.qid = 0 ∨ x.recsMade ∨ !s.isLive pgJrnl ∨ s.saving ∨ (s.findSpace (recSpace 1 len)).isNone ∨
          !s.someAt 40 (fun k => decide (k = .writeData slot)) then s
      else
        (s.setSlot slot { x with recsMade := true, recsOpen := x.recsOpen + 1 }).openRec
          { type := 1, volume := x.volume, len := len, offset := sqeSlba x.sqe * x.lba, tenant := x.tenant, slot := some slot })

/-- A unit's data has been copied into HBM: its cells are given back, or only JRNL's reference where PAIR's copy is still on its way (R371). -/
def State.copied (u : Nat) (s : State) : State :=
  if s.unitLeft u then s.dropUnit u
  else match s.cell.units.find u with
    | none => s
    | some x => (s.onCell fun c => { c with units := c.units.set u { x with kind := .mirrorCopy u } }).unrefKind fun k => decide (k = .mirrorCopy u)

/-- A record's local copy is placed (R245, R398). A Write's is placed once all its data has come, or what has come of a command that is
lost. An uncorrectable HBM error sets POISON. -/
def execJrnlLocalPlaced (rec : Nat) (ue : Bool) (s : State) : Result :=
  .next (match s.jrec rec with
    | none => s
    | some r =>
      let data := match r.slot.bind s.slot with
        | some x => x.data
        | none => r.data
      let whole := match r.slot, r.slot.bind s.slot with
        | some n, some x => decide (r.type ≠ 1) || (x.fetched && !s.toOutput 40 fun k => decide (k = .writeData n))
        | _, _ => true
      if r.state ≠ .opened ∨ r.localOk ∨ !(whole || s.recLost r) then s
      else
        let s1 := (s.setRec rec { r with data := if r.type = 1 then data else r.data, localOk := true, poison := r.poison || ue }).when ue
          (State.occur S.JRNL_HBM_UE)
        let s2 := match r.slot with
          | some n => (s1.unitsWhere fun k => decide (k = UnitKind.writeData n)).foldl (fun (t : State) u => t.copied u) s1
          | none => s1
        (s2.stepRec rec).settleResets)

/-- WARN_US after local placement the confirmation is still missing (R405). -/
def execJrnlMirrorLate (rec : Nat) (s : State) : Result :=
  .next (match s.jrec rec with
    | none => s
    | some r => s.when (decide (r.state = .opened) && r.localOk && !r.mirrored && s.mirroring) (State.occur S.JRNL_MIRROR_LATE))

/-! ### Hand-off (R407 to R409) -/

/-- The blocks of a unit that no record covers receive deferred write errors of cause 1, one record a contiguous range (R452). -/
def State.uncoveredErr (v lun cover : Nat) (s : State) : State :=
  if v = imgVol then s
  else
    let per := nsLba (s.ns v) / 512
    let n := 32 / max 1 per
    let bad := (List.range n).filter fun i => !bitAt cover (i * per)
    (runsOf (bad.map fun i => lun * n + i)).foldl (fun t r => t.deferredErr v 1 r.1 r.2) s

/-- The range of a record that holds an uncorrectable HBM error (Table 10.9). -/
def State.poisonErr (r : JRec) (s : State) : State :=
  if r.poison ∧ r.state = .committed then
    let lba := nsLba (s.ns r.volume)
    s.deferredErr r.volume 1 (r.offset / lba) (r.span / lba)
  else s

def State.newJob (w : WUnit) (s : State) : Nat × State :=
  (s.cmpr.nextJob, s.onCmpr fun c => { c with nextJob := c.nextJob + 1, writes := c.writes.set c.nextJob w })

/-- Which blocks of a unit hold data that a Write put there, and whether every other block is deallocated. -/
def State.unitKinds (s : State) (v lun : Nat) : Bool × Bool :=
  (List.range 32).foldl (fun a i => match s.recAt v (lun * 32 + i) with
    | some e => (a.1 || decide (e.2.type = 1), a.2 && decide (e.2.type = 3))
    | none => (a.1, a.2 && meUnmapped (s.entry v lun))) (false, true)

/-- The unit itself goes to CMPR, or to PLCE as a map change (R408, R409). -/
def State.handUnit (v lun : Nat) (recs : List Nat) (s : State) : State :=
  let o := s.overlay v (lun * 32) 32
  let full := decide (o.1 = 2 ^ 32 - 1)
  let e := s.entry v lun
  let k := s.unitKinds v lun
  let merge := !full && mePhys e
  let w : WUnit := { volume := v, lun := lun, for_ := .journal recs, stage := if merge then .merging else .ready, data := o.2, cover := o.1 }
  let r := s.newJob w
  let s1 := r.2.count E.JRNL_UNITS_HANDED 1
  if (s.pool (s.volPool v)).state = 5 then s1.failJob r.1 1
  else if !k.1 ∧ !merge then
    let entry := if k.2 then entUnmapped else entZero
    (s1.setJob r.1 { w with stage := .mapOnly, entry := entry }).finishJob r.1 entry
  else if merge then
    let q := (s1.count E.JRNL_MERGE_READS 1).newRead v lun (.merge r.1) [(0, meGlen e)] false 1
    match q.2.askParts q.1 [] with
    | some t => t
    | none => (((q.2.onCmpr fun c => { c with reads := c.reads.erase q.1 }).uncoveredErr v lun o.1).setJob r.1 { w with stage := .ready }).handCells r.1
  else s1.handCells r.1

/-- No unit that could go now contains an older record than this one's oldest (R407). -/
def State.handTurn (s : State) (v lun : Nat) : Bool :=
  let oldest := fun (w u : Nat) => (s.unitRecs w u).foldl (fun (a : Option Nat) e => some (min (a.getD e.2.seq) e.2.seq)) none
  let free := fun (w u : Nat) => !((s.unitRecs w u).any fun e => e.2.sealed) && !(s.cmpr.writes.any fun _ x => decide (x.volume = w ∧ x.lun = u))
    && !(s.plce.waits.any fun y => decide (y.pool = s.volPool w)) && !s.plce.fetching.contains (pageKey w u)
  match oldest v lun with
  | none => false
  | some q => s.jrnl.recs.all fun _ r => !decide (r.seq < q) || r.units.all fun u => match oldest r.volume u with
    | some n => decide (q ≤ n) || !free r.volume u
    | none => true

def State.handoff (v lun : Nat) (s : State) : State :=
  let recs := s.unitRecs v lun
  let key := mapKey v lun
  if !s.isLive pgJrnl ∨ !s.isOn pgPlce ∨ s.saving ∨ !(recs.any fun e => !e.2.sealed) ∨ recs.any (fun e => e.2.sealed) then s
  else if !s.handTurn v lun ∧ !(s.cmpr.writes.any fun _ w => decide (w.volume = v ∧ w.lun = lun)) then s
  else if s.cmpr.writes.any fun _ w => decide (w.volume = v ∧ w.lun = lun) then
    if s.plce.serial.contains key then s
    else (s.onPlce fun x => { x with serial := insertSorted key x.serial }).count E.PLCE_HANDOFF_SERIAL 1
  else if s.plce.waits.any fun y => decide (y.pool = s.volPool v) then s
  else
    let r := s.lookupPage (pageKey v lun) 1
    if !r.1 then r.2
    else
      let s1 := recs.foldl (fun t e => t.poisonErr e.2) r.2
      let s2 := recs.foldl (fun t e => t.setRec e.1 { e.2 with
        handedUnits := lun :: e.2.handedUnits, state := if e.2.state = .committed then RecState.handed else e.2.state }) s1
      (s2.handUnit v lun (recs.map Prod.fst)).syncJrnl

def execJrnlHandoff (volume lun : Nat) (s : State) : Result := .next (s.handoff volume lun)

/-! ### The brine save (R410 to R421) -/

def execPowerFailAssert (s : State) : Result := .next (s.onJrnl fun j => { j with powerFail := true })

/-- Deasserted before PF_FILTER_US (R417). -/
def execPowerFailGlitch (s : State) : Result :=
  .next (if s.jrnl.powerFail ∧ !s.saving then (s.onJrnl fun j => { j with powerFail := false }).count E.JRNL_PF_GLITCH 1
    else s.onJrnl fun j => { j with powerFail := false })

/-- Recognition: quiesce begins where the save is armed (R417, R421, R429, R577). -/
def State.beginSave (s : State) : State :=
  if !s.jrnl.powerFail ∨ s.saving ∨ !s.armed then s
    else
      let s1 := (List.range 16).foldl (fun t g => t.stopPorts g) s
      let s2 := (List.range 24).foldl (fun t b =>
        if t.get (pgDrvp b) F.DRV_PS_MODE = 1 ∧ t.get (pgDrvp b) F.BAY_STAT_PS ≠ 0 then (t.emit (.drivePs b 0)).setF (pgDrvp b) F.BAY_STAT_PS 0
        else t) s1
      let s3 := s2.onFab fun f => if f.swap.run = .idle then f else { f.setF ⟨.dev, 0⟩ F.SWAP_STAT_BUSY 0 with swap := {} }
      ((s3.onJrnl fun j => { j with
        saveMembers := s.saveBays, saveAll := s.saveBays, savePf := s.timeStamp, saveLost := 0, saveStart := s.now, saveBytes := 0
        saveEnded := false }).setF pgJrnl
        F.JRNL_SAVE_STAT_PHASE 1).syncJrnl

/-- Quiesce ends (Table 10.3); OPEN records whose local copy is not complete are not saved (R420). -/
def execSaveQuiesceEnd (s : State) : Result :=
  .next (if s.get pgJrnl F.JRNL_SAVE_STAT_PHASE = 1 then
      let s1 := (s.onJrnl fun j => { j with recs := j.recs.filter fun _ r => decide (r.state ≠ .opened) || r.localOk }).setF pgJrnl
        F.JRNL_SAVE_STAT_PHASE 2
      s1.onJrnl fun j => { j with saveBytes := withParity s1.saveSize s1.jrnl.saveMembers.length }
    else s)

/-- The image is written, and its headers go to every member whose writes succeeded (R410, R412, R419, Table 10.5). -/
def execSaveWriteEnd (s : State) : Result :=
  .next (if (s.get pgJrnl F.JRNL_SAVE_STAT_PHASE ≠ 2 ∧ s.jrnl.saveLost < 2) ∨ s.jrnl.saveEnded then s
    else
      let s1 := (s.onJrnl fun j => { j with saveEnded := true }).count E.JRNL_SAVE_BYTES s.jrnl.saveBytes
      if s.get pgJrnl F.JRNL_SAVE_STAT_PHASE ≠ 2 then s1.writeImage
      else
        let s2 := s1.onJrnl fun j => { j with saveGen := j.saveGen + 1 }
        s.jrnl.saveMembers.foldl (fun t b => t.emit (.saveHeader b (headBlock s2.saveHead))) s2.writeImage)

/-- R419. -/
def execSaveMemberFail (bay : Nat) (s : State) : Result :=
  .next (if (s.get pgJrnl F.JRNL_SAVE_STAT_PHASE ≠ 2 ∧ s.jrnl.saveLost < 2) ∨ !s.jrnl.saveMembers.contains bay then s
    else
      let n := s.jrnl.saveLost + 1
      let s1 := s.onJrnl fun j => { j with saveLost := n, saveMembers := j.saveMembers.filter fun b => decide (b ≠ bay) }
      if n = 1 then s1.occur S.JRNL_SAVE_DEGRADED
      else if 2 < n then s1
      else ((s1.setF pgJrnl F.JRNL_SAVE_STAT_PHASE 4).occur S.JRNL_SAVE_FAIL).tripEnd)

/-- The headers are written: Done (Table 10.3). -/
def execSaveCommitEnd (s : State) : Result :=
  .next (s.when (decide (s.get pgJrnl F.JRNL_SAVE_STAT_PHASE = 2) && s.jrnl.saveEnded) fun t =>
    (t.setF pgJrnl F.JRNL_SAVE_STAT_PHASE 3).tripEnd)

/-! ### Restore (R422 to R429) -/

def hdGen (h : Nat) : Nat := bytesAt h 0 8
def hdMembers (h : Nat) : Nat := byteAt h 40
def hdMask (h : Nat) : Nat := bytesAt h 44 4
def hdCrcOk (h : Nat) : Bool := decide (bytesAt h 56 4 = crc32c 56 (bytesAt h 0 56))
def hdGood (h : Nat) : Bool := hdCrcOk h && decide (byteAt h 41 = 1 ∨ byteAt h 41 = 2)
/-- The highest SAVE_GEN that a header with a correct HCRC carries: the next save takes the one after it. -/
def lastGen (headers : List (Nat × Nat)) : Nat := (headers.filter fun e => hdCrcOk e.2).foldl (fun a e => max a (hdGen e.2)) 0

/-- The header of the valid image of the highest SAVE_GEN among the bays' headers, 0 if none is valid (R422). -/
def validImage (headers : List (Nat × Nat)) : Nat :=
  let good := headers.filter fun e => hdGood e.2
  good.foldl (fun best e =>
    let same := good.filter fun x => decide (hdGen x.2 = hdGen e.2)
    if hdMembers e.2 ≤ same.length + 1 ∧ same.all (fun x => bitAt (hdMask e.2) x.1) ∧ (best = 0 ∨ hdGen best < hdGen e.2) then e.2 else best) 0

/-- The restore begins, with its sources chosen (R422, R423, R727). -/
def execJrnlRestoreBegin (partner regionImage : Bool) (headers : List (Nat × Nat)) (s : State) : Result :=
  .next (if (s.fab.page pgJrnl).state ≠ .starting ∨ s.jrnl.restoring ∨ s.jrnl.restored then s
    else
      let h := validImage headers
      let src := if partner then (1, 1) else if h ≠ 0 then (2, 2) else if regionImage then (0, 3) else (0, 0)
      ((s.onJrnl fun j => { j with restoring := true, header := h, saveGen := lastGen headers }).setF pgJrnl F.JRNL_RESTORE_STAT_JRNL_SRC
        src.1).setF pgJrnl F.JRNL_RESTORE_STAT_REGN_SRC src.2)

/-- `KEY_WAIT`: volumes with a record still sealed (R427). -/
def State.syncKeyWait (s : State) : State :=
  s.setF pgJrnl F.JRNL_RESTORE_STAT_KEY_WAIT (((s.recsWhere JRec.sealed).map JRec.volume).uniq).length
def State.restoreLoss (s : State) : State :=
  ((s.count E.JRNL_RESTORE_BAD 1).setF pgJrnl F.JRNL_RESTORE_STAT_LOSS 1).occur S.JRNL_RESTORE_LOSS

/-- The record that a header of the image and its data spell (Table 10.1); where it stood in the image. -/
def recOfImage (h : Nat) (d : Blob) (pos : Nat) : JRec :=
  { seq := bytesAt h 0 8, type := byteAt h 8, poison := bitAt h 72, sealed := bitAt h 73, solo := bitAt h 74, volume := bitsOf h 80 14
    len := bytesAt h 12 4, offset := bytesAt h 16 8, tenant := bitsOf h 192 12, keyIndex := bytesAt h 26 2, data := d, localOk := true
    mirrored := true, imgBlock := pos / 512 }
/-- HCRC and DCRC are right (R425). -/
def imageRecOk (h : Nat) (d : Blob) : Bool :=
  decide (bytesAt h 36 4 = crc32c 36 (bytesAt h 0 36) ∧ bytesAt h 32 4 = crc32c d.len d.val)
/-- A record that passes its checks, as read or as P repairs it. -/
def goodRec (x : ImageRec) : Option JRec :=
  if imageRecOk x.head x.data then some (recOfImage x.head x.data x.pos)
  else match x.fixed with
    | some f => if imageRecOk f.1 f.2 then some (recOfImage f.1 f.2 x.pos) else none
    | none => none
/-- A page that passes its check against the index's CRC, as read or as P repairs it. -/
def goodPage (x : ImagePage) (crc : Nat) : Option Nat :=
  if crc = crc32c 4096 x.data then some x.data
  else match x.fixed with
    | some d => if crc = crc32c 4096 d then some d else none
    | none => none

/-- One record of the image returns, or is dropped (R425, R426). -/
def State.restoreRec (s : State) (x : ImageRec) : State :=
  match goodRec x with
  | none =>
    let r := recOfImage x.head x.data x.pos
    let lba := nsLba (s.ns r.volume)
    (s.deferredErr r.volume 1 (r.offset / lba) (r.span / lba)).restoreLoss
  | some r => match s.findSpace (recSpace r.type r.len) with
    | none => s
    | some (c, at') =>
      let k := s.jrnl.nextRec
      (s.onJrnl fun j => { j with
        recs := j.recs.set k { r with chunk := c, place := at', state := .committed, committedAt := s.now }
        nextRec := k + 1, openChunk := some c, openUsed := at' + recSpace r.type r.len, seq := max j.seq r.seq }).count
        E.JRNL_RESTORE_BYTES r.data.len
/-- One page of a region returns, or is zeroed where it cannot be repaired (R425). -/
def State.restorePage (s : State) (x : ImagePage × Nat) : State :=
  match goodPage x.1 x.2 with
  | some d => (s.onRegn fun g => { g with mem := memWrite (toBytes 4096 d) x.1.addr g.mem }).count E.JRNL_RESTORE_BYTES 4096
  | none => s.restoreLoss
/-- One stored unit of the region image returns, or is restored as zeros (Table 11.3). -/
def State.restoreUnit (s : State) (x : ImagePage) : State :=
  match checkUnit x.data 33 with
  | .inl d => (s.onRegn fun g => { g with mem := memWrite (toBytes unitBytes d) x.addr g.mem }).count E.JRNL_RESTORE_BYTES unitBytes
  | .inr e => (((s.count E.CMPR_CHECK_FAIL 1).occur S.CMPR_INTEGRITY).integrityRec (x.addr / unitBytes) 0x3FFF e.1 4 x.data 0 e.2).count
      E.JRNL_RESTORE_BAD 1

/-- SAVE_HEADER_INVALIDATE (R424, R428). -/
def State.invalidateHeaders (s : State) : State :=
  ((List.range 24).filter fun b => bitAt (hdMask s.jrnl.header) b).foldl (fun t b =>
    t.emit (.saveHeader b (headBlock (deadHead s.jrnl.header)))) s

/-- The regions are zeroed (Table 10.4). -/
def State.clearRegions (s : State) : State :=
  (s.onRegn fun g => { g with regions := {}, mem := {}, subs := {}, dirty := {} }).syncRegions

/-- The restore ends (R425, R426, R428): under source 2 the records of the image, under sources 2 and 3 the region table and pages; under
source 1 the partner's copy has come over the Britos link (R424). -/
def execJrnlRestoreComplete (recs : List ImageRec) (regions : List (Nat × Nat)) (pages : List ImagePage) (crcs : List Nat)
    (s : State) : Result :=
  .next (if !s.jrnl.restoring then s
    else
      let rs := s.get pgJrnl F.JRNL_RESTORE_STAT_REGN_SRC
      let s1 := if s.get pgJrnl F.JRNL_RESTORE_STAT_JRNL_SRC = 2 then recs.foldl State.restoreRec s else s
      let s2 := if rs = 1 then s1 else if rs = 0 then s1.clearRegions else
        let t1 := regions.foldl (fun t e => t.setRegion e.1 (regionOfBytes e.2 { writes := bitsOf e.2 160 64 })) s1.clearRegions
        let t2 := if rs = 2 then (pages.mapIdx fun i x => (x, crcs.getD i 0)).foldl State.restorePage t1 else pages.foldl State.restoreUnit t1
        (t2.regn.regions.vals.filter fun r => decide (r.state ≠ 0)).foldl (fun t r => t.markDirty r.base r.size) t2.syncRegions
      (((s2.invalidateHeaders).onJrnl fun j => { j with restoring := false, restored := true }).syncKeyWait).syncJrnl)

/-- A sealed record is opened once its key is ACTIVE (R414, R427). An uncorrectable error in its data poisons it (R431).
DESIGN CHOICE (log entry 125): EVT_XTS_OPEN_GRAN counts stored units only, not the blocks of a record. -/
def execSealedRecordOpen (rec : Nat) (ue : Bool) (s : State) : Result :=
  .next (match s.jrec rec with
    | none => s
    | some r =>
      let k := s.restKey r.keyIndex
      if !r.sealed ∨ k.state ≠ 1 then s
      else
        let d := recMap (fun t x => xtsOpen k.k1 k.k2 t 512 x) r.imgBlock r.volume r.data
        (((s.setRec rec { r with sealed := false, keyIndex := 0, data := d, poison := r.poison || ue }).when ue (State.occur S.JRNL_HBM_UE))).syncKeyWait)

end Sys2Proof.Machine
end

