-- ==== Sys2Proof/Machine/CmprExec.lean ====
section
/-!
DEFINITION. The commands of CMPR: lanes, compression, decompression and its checks, self-test and retirement (chapter 11 of spec/).
-/
namespace Sys2Proof.Machine
open Sys2Proof

/-! ### Lanes: compress 0 to 39, decompress 40 to 59 -/

def isDLane (n : Nat) : Bool := decide (40 ≤ n)
def State.laneRetired (s : State) (n : Nat) : Bool :=
  if n < 32 then bitAt (s.get pgCmpr F.CMPR_CRET_LO_RETIRED) n
  else if n < 40 then bitAt (s.get pgCmpr F.CMPR_CRET_HI_RETIRED) (n - 32)
  else bitAt (s.get pgCmpr F.CMPR_DRET_RETIRED) (n - 40)
def State.laneIdle (s : State) (n : Nat) : Bool := !s.laneRetired n && (s.cmpr.lanes.find n).isNone
def State.setLane (n : Nat) (job : Option Nat) (s : State) : State := s.onCmpr fun c => { c with
  lanes := match job with
    | some j => c.lanes.set n j
    | none => c.lanes.erase n }
def State.cmprLanesOn (s : State) (d : Bool) : Nat := ((List.range 60).filter fun n => decide (isDLane n = d) && !s.laneRetired n).length
/-- Retire a lane (R455, R456). -/
def State.retireLane (n : Nat) (s : State) : State :=
  let s1 := if n < 32 then s.setF pgCmpr F.CMPR_CRET_LO_RETIRED (withBits (s.get pgCmpr F.CMPR_CRET_LO_RETIRED) n 1 1)
    else if n < 40 then s.setF pgCmpr F.CMPR_CRET_HI_RETIRED (withBits (s.get pgCmpr F.CMPR_CRET_HI_RETIRED) (n - 32) 1 1)
    else s.setF pgCmpr F.CMPR_DRET_RETIRED (withBits (s.get pgCmpr F.CMPR_DRET_RETIRED) (n - 40) 1 1)
  ((s1.setF pgCmpr F.CMPR_STAT_CLANES_ON (s1.cmprLanesOn false)).setF pgCmpr F.CMPR_STAT_DLANES_ON (s1.cmprLanesOn true)).occur S.CMPR_LANE_RETIRED

/-- One more error of a lane. -/
def bump (n now : Nat) (m : SMap (List Nat)) : SMap (List Nat) := m.set n (now :: m.get n [])
/-- The errors of a lane within the window that ends now (table 3). -/
def State.laneErrs (s : State) (m : SMap (List Nat)) (n : Nat) : Nat :=
  ((m.get n []).filter fun t => decide (s.now - t ≤ s.get pgCmpr F.CMPR_ERR_ERR_WINDOW_S * 2000000000)).length

/-! ### Compression -/

/-- The class of a unit to be compressed (R443, R444). -/
def WUnit.cls (w : WUnit) : Nat := match w.for_ with
  | .journal _ => 1
  | .destage => 0
/-- A lane may run a unit that another lane failed on (R454): any lane but that one, while another of its kind is in service. -/
def State.laneFor (s : State) (avoid : Option Nat) (n : Nat) : Bool :=
  s.laneIdle n && (decide (avoid ≠ some n) || decide (s.cmprLanesOn (isDLane n) = 1))
def State.lowestCLane (s : State) (avoid : Option Nat := none) : Option Nat := (List.range 40).find? (s.laneFor avoid)
/-- The unit that starts next: C1 before C0, in the order of their hand-off (R443). -/
def State.nextCompress (s : State) : Option (Nat × WUnit) :=
  let ready := s.cmpr.writes.list.filter fun e => decide (e.2.stage = .ready) && (s.lowestCLane e.2.avoid).isSome &&
    !s.inVat fun k => decide (k = .handOff e.1)
  (ready.find? fun e => decide (e.2.cls = 1)).orElse fun _ => ready.head?

def laneReq (lane cls cells : Nat) : AllocReq := ⟨41, cls, cells, .chain lane, none, false, []⟩
/-- Ask CELL for output cells of a lane; what is not granted waits (R375). -/
def State.laneCells (lane cls cells : Nat) (s : State) : Bool × State :=
  let r := s.allocRequest (laneReq lane cls cells) false
  (r.unit.isSome, r.after)

/-- R443, R444: the unit takes the lowest idle lane and INIT_CELLS output cells, in the format of this epoch (R438). -/
def execCompressStart (s : State) : Result :=
  .next (match s.nextCompress.bind fun e => (s.lowestCLane e.2.avoid).map fun n => (e.1, e.2, n) with
    | some (j, w, n) =>
      if !s.isOn pgCmpr ∨ s.saving then s
      else
        let fmt := if w.volume = imgVol then s.get pgCmpr F.CMPR_CFG_DESTAGE_FMT else bitsOf (s.tab pgCmpr 1 w.volume) 0 2
        let s1 := (s.setJob j { w with stage := .lane n, fmt := fmt }).setLane n (some j)
        (((s1.laneCells n w.cls (s.get pgCmpr F.CMPR_CFG_INIT_CELLS)).2).count E.CMPR_C_UNITS 1).count E.CMPR_C_IN_BYTES unitBytes
    | none => s)

/-- The pool units and cells that a lane holds. -/
def State.laneUnits (s : State) (n : Nat) : List Nat := s.unitsWhere fun k => decide (k = UnitKind.chain n)
def State.laneHeld (s : State) (n : Nat) : Nat := ((s.laneUnits n).map fun u => match s.cell.units.find u with
  | some x => x.cells.length
  | none => 0).sum

/-- Chain further cells one by one until `need` are held; false where one must wait (R444). -/
def State.chainTo (n cls need : Nat) : Nat → State → Bool × State
  | 0, s => (decide (need ≤ s.laneHeld n), s)
  | fuel + 1, s =>
    if need ≤ s.laneHeld n then (true, s)
    else
      let r := s.laneCells n cls 1
      if r.1 then State.chainTo n cls need fuel (r.2.count E.CMPR_CHAIN_CELLS 1) else (false, r.2)

/-- The finished unit leaves its lane: to port 44 and sealed where its volume is (R216), else to port 43 (R442). DESIGN CHOICE (log entry
124): an entry that was DESTROYED after the swap that named it seals under its cleared keys, and the unit counts in UNITS once stored. -/
def State.sendStored (j n : Nat) (w : WUnit) (b : Blob) (raw : Bool) (s : State) : State :=
  let idx := if w.volume = imgVol then 0 else s.sealIndex w.volume
  let out := if idx = 0 then b else s.sealUnit idx w.volume w.lun b
  let us := s.laneUnits n
  let named := ((s.dropKind fun k => decide (k = .handOff j)).setJob j { w with
    stage := .stored, stored := out, raw := raw, keyIndex := idx, chainWait := false }).onCell fun c =>
    { c with units := us.foldl (fun m u => match m.find u with
        | some x => m.set u { x with kind := .stored j }
        | none => m) c.units }
  let s1 := (us.foldl (fun t u => t.offerUnit [if idx = 0 then 43 else 44] u) named).setLane n none
  let s2 := s1.count E.CMPR_C_OUT_BYTES b.len
  if idx = 0 then s2
  else s2.count E.GARD_XTS_SEAL_GRAN (b.len / 512)

/-- What a unit's compression came to: the stored form, whether it is raw, and its event (R434, R435, R439, R440, R447). -/
def WUnit.form (w : WUnit) (body : Blob) (abandoned : Bool) : Blob × Bool × Evt :=
  if abandoned then (rawUnit 3 w.data, true, E.CMPR_RAW_ABANDON)
  else if w.fmt = 0 ∨ w.fmt = 3 then (rawUnit 1 w.data, true, E.CMPR_RAW_OFF)
  else if 15872 < body.len ∨ body.len = 0 then (rawUnit 2 w.data, true, E.CMPR_RAW_NOFIT)
  else (storedUnit w.fmt 0 (crc32c unitBytes w.data) body, false, if w.fmt = 1 then E.CMPR_DEFLATE_UNITS else E.CMPR_WFF_UNITS)

/-- A compress lane finishes its unit: what it needs beyond the cells it holds is chained, at once or as it is granted (R444, R447). `body` is
what the lane's encoder made of it, which the spec leaves open (R441, R449); `poison`, an input cell carried POISON, so that the unit is
handed off again (R453). -/
def State.compressDone (lane : Nat) (body : Blob) (poison : Bool) (s : State) : State :=
  match (s.cmpr.lanes.find lane).bind fun j => (s.wjob j).map fun w => (j, w) with
  | none => s
  | some (j, w) =>
    let waiting := s.cell.waiters.any fun r => decide (r.kind = UnitKind.chain lane)
    let abandoned := decide (w.stage = .rawWait lane)
    if waiting ∨ s.laneHeld lane = 0 then s
    else if poison then
      ((((s.dropKind fun k => decide (k = .chain lane ∨ k = .handOff j)).setLane lane none).setJob j { w with
        stage := .ready, chainWait := false }).handCells j).count E.CMPR_POISON_RETRY 1
    else if w.data = 0 then
      ((((s.laneUnits lane).foldl (fun (t : State) u => t.dropUnit u) s).setLane lane none).count E.CMPR_ZERO_UNITS 1).finishJob j entZero
    else
      let f := w.form body abandoned
      let r := (s.when w.chainWait (State.count E.CMPR_CHAIN_CELLS 1)).chainTo lane w.cls (if f.2.1 then 66 else (hdrLen f.1.val + 255) / 256) 66
      if r.1 then (r.2.sendStored j lane w f.1 f.2.1).count f.2.2 1
      else r.2.setJob j { w with chainWait := true }

def execCompressComplete (lane : Nat) (body : Blob) (poison : Bool) (s : State) : Result := .next (s.compressDone lane body poison)

/-- R445, R446: the chained cell was not granted within 2 µs. -/
def execChainAbandonTimeout (lane : Nat) (s : State) : Result :=
  .next (match (s.cmpr.lanes.find lane).bind fun j => (s.wjob j).map fun w => (j, w) with
    | none => s
    | some (j, w) =>
      let waiting := s.cell.waiters.any fun r => decide (r.kind = UnitKind.chain lane)
      if !w.chainWait ∨ !waiting ∨ w.stage ≠ .lane lane then s
      else
        let s1 := ((s.laneUnits lane).foldl (fun (t : State) u => t.dropUnit u) s).onCell fun c => { c with
          waiters := c.waiters.filter fun r => decide (r.kind ≠ UnitKind.chain lane) }
        let s2 := ((s1.setJob j { w with stage := .rawWait lane, chainWait := false }).count E.CMPR_ABANDON 1).occur S.CMPR_ABANDON
        (s2.laneCells lane w.cls 66).2)

/-! ### Decompression -/

/-- The decompress lane a class may take: lanes 0 to EXP_LANES − 1 serve C3 alone (R443). -/
def State.lowestDLane (s : State) (cls : Nat) (avoid : Option Nat := none) : Option Nat :=
  ((List.range 20).map fun i => 40 + i).find? fun n => s.laneFor avoid n && (decide (cls = 3) || decide (s.get pgCmpr F.CMPR_CFG_EXP_LANES ≤ n - 40))

/-- The cells of a stored unit that is read. -/
def cellsOfRead (j : Nat) : UnitKind → Bool
  | .readData _ k _ => decide (k = j)
  | .mergeRead k _ => decide (k = j)
  | .background 0 _ k _ => decide (k = j)
  | _ => false
/-- Reads whose granules have all come and have crossed to port 42, C3 before C1 before C0 (R443). -/
def State.readyReads (s : State) : List (Nat × RUnit) :=
  let l := s.cmpr.reads.list.filter fun e => e.2.complete && decide (e.2.for_ ≠ .press) && e.2.lane.isNone && e.2.result.isNone &&
    !e.2.lost && !s.inVat (cellsOfRead e.1)
  (l.filter fun e => decide (e.2.cls = 3)) ++ (l.filter fun e => decide (e.2.cls = 1 ∨ e.2.cls = 2)) ++ l.filter fun e => decide (e.2.cls = 0)

/-- The command fails with a status; its other reads go on and are discarded (R474, Table 11.3). -/
def State.failRead (r : RUnit) (c : Cpl) (s : State) : State := match r.for_ with
  | .slot n => s.onSlot n fun x => if x.state = .started ∧ x.outcome.isNone then { x with outcome := some c } else x
  | .merge _ => s
  | .press => s

/-- A merge read is over: the journal bytes over the unit, or over zeros where it could not be read, for whatever reason (R408, R452).
DESIGN CHOICE (log entry 124): a unit whose key entry is not ACTIVE is one that could not be read. -/
def State.mergeDone (j : Nat) (got : Option Nat) (s : State) : State :=
  match s.wjob j with
  | none => s
  | some w =>
    let keep := (List.range 32).foldl (fun (x : Nat) i => if bitAt w.cover i then x else
      x + bytesAt (got.getD 0) (512 * i) 512 * 2 ^ (4096 * i)) 0
    let s1 := if got.isSome then s else s.uncoveredErr w.volume w.lun w.cover
    (s1.setJob j { w with stage := .ready, data := w.data + keep }).handCells j

/-- The bytes of a whole unit for a read command: they fill the blocks that the journal has not (R402). -/
def State.fillSlot (n : Nat) (lun x : Nat) (s : State) : State :=
  s.onSlot n fun v =>
    let first := sqeSlba v.sqe * v.lba / 512
    let count := v.bytes / 512
    let put := (List.range 32).foldl (fun (a : Nat × Nat) i =>
      let b := lun * 32 + i
      if first ≤ b ∧ b < first + count ∧ !bitAt v.cover (b - first) then
        (a.1 + 2 ^ (b - first), a.2 + bytesAt x (512 * i) 512 * 2 ^ (4096 * (b - first))) else a) (v.cover, v.data.val)
    { v with cover := put.1, data := ⟨count * 512, put.2⟩ }
/-- The part of a read's result that CMPR delivers crosses to the connection's port (Table 1.4). -/
def State.resultCells (n : Nat) (v : Slot) (s : State) : State :=
  s.ship { kind := .result n, port := 42, cls := s.ctxClass v.conn, bytes := v.bytes - 512 * popCount (v.bytes / 512) v.jcover
           outs := [s.ownPort v.conn] }
/-- Every unit of a read command has been looked up and served: its result is ready once its cells have crossed (R245). -/
def State.readReady (n : Nat) (s : State) : State :=
  match s.slot n with
  | none => s
  | some v =>
    if (s.cmpr.reads.any fun _ r => decide (r.for_ = .slot n)) ∨ (v.state = .started ∧ v.outcome.isNone ∧ !v.allLooked) then s
    else
      let s1 := s.dropKind (readOfSlot n)
      if v.state = .started ∧ v.outcome.isNone then
        (s1.onSlot n fun x => { x with outcome := some cplOk, bytesDone := v.bytes }).resultCells n v
      else s1.workReturned n

/-- The read ends; its drive requests have all returned. -/
def State.endRead (j : Nat) (r : RUnit) (s : State) : State :=
  let s1 := (s.onCmpr fun c => { c with reads := c.reads.erase j }).dropKind (cellsOfRead j)
  match r.for_ with
  | .slot n => s1.readReady n
  | .merge _ => s1
  | .press => s1

/-- The result of a unit goes to what asked for it. -/
def State.serveRead (j : Nat) (r : RUnit) (x : Nat) (s : State) : State := match r.for_ with
  | .slot n => (s.fillSlot n r.lun x).endRead j r
  | .merge k => (s.mergeDone k (some x)).endRead j r
  | .press => s.endRead j r
/-- The unit cannot be had: the outcome of Table 11.3 and R474. -/
def State.loseRead (j : Nat) (r : RUnit) (c : Cpl) (s : State) : State := match r.for_ with
  | .slot _ => (s.failRead r c).endRead j r
  | .merge k => (s.mergeDone k none).endRead j r
  | .press => s.endRead j r

/-- R443. A unit whose key entry is not ACTIVE never reaches a lane (R219, R450). -/
def State.decompressStart (s : State) : State :=
  match s.readyReads.find? fun e => (s.lowestDLane e.2.cls e.2.avoid).isSome with
  | none => match s.readyReads.find? fun e => decide (e.2.cls = 3) && !e.2.waited with
    | some (j, r) => (s.setReadJob j { r with waited := true }).count E.CMPR_EXP_LANE_WAIT 1
    | none => s
  | some (j, r) =>
    let v := s.pool r.pool
    match s.openUnit r.volume r.lun (r.bytes v) (meGlen r.entry) with
    | none => (s.count E.GARD_XTS_KEY_DENIED 1).loseRead j r (cplErr 2 0x86)
    | some u =>
      match s.lowestDLane r.cls r.avoid with
      | none => s
      | some n => ((s.setReadJob j { r with lane := some n, result := some u }).setLane n (some j)).when (decide (hdrKey (r.bytes v) ≠ 0))
          (State.count E.GARD_XTS_OPEN_GRAN ((r.ranges.map Prod.snd).sum))

def execDecompressStart (s : State) : Result := .next (if s.isOn pgCmpr && !s.saving then s.decompressStart else s)

/-- One record of the integrity log (Table 11.5), of the check that failed first. -/
def State.integrityLog (r : RUnit) (outcome lane : Nat) (s : State) : State :=
  match r.failed with
  | none => s
  | some (reason, u, crc) => s.integrityRec r.lun (summaryVol r.volume) reason outcome u (lane - 40) crc

/-- INTEGRITY_FAIL (R452, R516): the unit's own rows count as erased, and it is read again from the others, once. -/
def State.integrityFail (j : Nat) (r0 : RUnit) (reason lane u crc : Nat) (s0 : State) : State :=
  let v := s0.pool r0.pool
  let own := ((r0.pieces v).map Piece.strip).uniq
  let bad := if isMirror v.prot then (r0.parts.map RPart.role).uniq else own
  let lost := match r0.for_ with
    | .slot _ => 2
    | _ => 3
  if r0.failed.isSome then (s0.integrityLog r0 lost lane).loseRead j r0 (cplErr 0 0xC3 true)
  else
    let r := { r0 with failed := some (reason, u, crc) }
    let s := (s0.count E.CMPR_CHECK_FAIL 1).occur S.CMPR_INTEGRITY
    let s1 := (s.count (E.STRP_CRC_RECON.on r.pool) 1).setReadJob j { r with
      lane := none, result := none, parts := r.parts.map fun q => if bad.contains q.role then { q with bad := true } else q }
    match s1.askParts j bad with
    | some t => t
    | none => (s.integrityLog r lost lane).loseRead j r (cplErr 0 0xC3 true)

/-- The repaired unit is rewritten over its bad rows (R516). -/
def State.rewriteUnit (r : RUnit) (s : State) : State :=
  let v := s.pool r.pool
  (r.parts.filter RPart.bad).foldl (fun t q => t.rewriteRows r.pool (r.stripe v) q.role q.start q.count none) s

/-- A decompress lane finishes its unit (R450 to R452). -/
def State.decompressDone (lane : Nat) (s0 : State) : State :=
  match (s0.cmpr.lanes.find lane).bind fun j => (s0.readJob j).bind fun r => r.result.map fun u => (j, r, u) with
  | none => s0
  | some (j, r, u) =>
    let s := (s0.setLane lane none).count E.CMPR_D_UNITS 1
    if r.partial_ then
      let s1 := s.count E.CMPR_D_PARTIAL 1
      if headerOk u (meGlen r.entry) then ((s1.count E.CMPR_D_OUT_BYTES (512 * (r.ranges.map Prod.snd).sum))).serveRead j r (bytesAt u 16 unitBytes)
      else s1.integrityFail j r 1 lane u 0
    else match checkUnit u (meGlen r.entry) with
      | .inl x =>
        let s1 := s.count E.CMPR_D_OUT_BYTES unitBytes
        let s2 := if r.failed.isSome then ((s1.integrityLog r 1 lane).count E.CMPR_REPAIRED 1).rewriteUnit r else s1
        s2.serveRead j r x
      | .inr e => s.integrityFail j r e.1 lane u e.2

def execDecompressComplete (lane : Nat) (s : State) : Result := .next (if isDLane lane then s.decompressDone lane else s)

/-! ### Errors of lanes (R454 to R456) -/

/-- A parity error of a lane; an uncorrectable one restarts its unit from its input cells on another lane. -/
def execLaneParityError (lane : Nat) (corrected : Bool) (s : State) : Result :=
  .next (if 60 ≤ lane then s
    else if corrected then
      ((s.onCmpr fun c => { c with ce := bump lane s.now c.ce }).count E.CMPR_LANE_CE 1).occur S.CMPR_LANE_CE
    else
      let s1 := (s.onCmpr fun c => { c with restarts := bump lane s.now c.restarts }).occur S.CMPR_LANE_ERR
      match s.cmpr.lanes.find lane with
      | none => s1
      | some j =>
        let s2 := (s1.setLane lane none).count E.CMPR_JOB_RESTART 1
        if isDLane lane then (match s2.readJob j with
          | some r => s2.setReadJob j { r with lane := none, result := none, avoid := some lane }
          | none => s2)
        else (match s2.wjob j with
          | some w => (((s2.laneUnits lane).foldl (fun (t : State) u => t.dropUnit u) s2).onCell fun c => { c with
              waiters := c.waiters.filter fun q => decide (q.kind ≠ UnitKind.chain lane) }).setJob j { w with
              stage := .ready, chainWait := false, avoid := some lane }
          | none => s2))

/-- The periodic test of one idle lane in rotation (R455). -/
def execLaneSelftest (fails : Bool) (s : State) : Result :=
  .next (if !s.isOn pgCmpr ∨ s.get pgCmpr F.CMPR_TEST_SELFTEST_MS = 0 then s
    else match ((List.range 60).map fun i => (s.cmpr.testLane + i) % 60).find? s.laneIdle with
      | none => s
      | some n =>
        let s1 := s.onCmpr fun c => { c with testLane := (n + 1) % 60 }
        if fails then (s1.retireLane n).occur S.CMPR_SELFTEST else s1)

/-- A write of `CMPR_LANE_CTL` (R456). -/
def State.cmprLaneCtl (w : Nat) (s : State) : State :=
  if !bitAt w 31 then s
  else
    let d := bitAt w 6
    let lane := bitsOf w 0 6
    let n := if d then 40 + lane else lane
    if (if d then 20 else 40) ≤ lane then s
    else if s.laneRetired n then s
    else if s.cmprLanesOn d ≤ 1 then s.count E.MGMT_CTL_IGNORED 1
    else s.retireLane n

def execCmprLaneRetire (value : BitVec 32) (s : State) : Result := .next (s.cmprLaneCtl value.toNat)

end Sys2Proof.Machine
end

