-- ==== Sys2Proof/Machine/TmgrExec.lean ====
section
/-!
DEFINITION. The commands of TMGR: refills, selection at a root, samples, the minute meter (chapter 08 of spec/); the destage of region
units (R311 to R315).
-/
namespace Sys2Proof.Machine
open Sys2Proof

/-! ### The command limiter (R320, R326) -/

def isJournaled (opc : Nat) : Bool := decide (opc = 0x01 ∨ opc = 0x08 ∨ opc = 0x09)
/-- The cost of a command (R320). -/
def Slot.cost (x : Slot) : Nat :=
  if sqeOpc x.sqe = 0x01 ∨ sqeOpc x.sqe = 0x02 then max 4096 x.bytes else 4096

def State.setHeld (t : Nat) (l : List HeldCmd) (s : State) : State := s.onTmgr fun m => { m with held := m.held.put t [] l }

/-- A command that its policer has passed joins its leaf at its pool node (R330, R335). -/
def State.passCmd (h : HeldCmd) (c : Colour) (s : State) : State :=
  match s.slot h.slot with
  | none => s
  | some x => (s.onTmgr fun t => { t with
      adm := t.adm ++ [⟨s.volPool x.volume, s.leafOf (s.ctx x.conn).id.tport, h.slot, h.cost, isJournaled (sqeOpc x.sqe), h.since⟩] }).count
        (if c = .green then E.TMGR_CMD_GREEN else E.TMGR_CMD_YELLOW) 1

/-- The commands of a tenant are coloured in order until one is red (R326). -/
def State.policeHeld (t : Nat) : Nat → State → State
  | 0, s => s
  | fuel + 1, s =>
    match s.tmgr.held.get t [] with
    | [] => s
    | h :: rest =>
      let inC := if h.red ∧ h.colour = .red then Colour.yellow else h.colour
      let r := s.police (4096 + t) (h.cost * 8) inC
      if r.1 ≠ .red then State.policeHeld t fuel ((r.2.setHeld t rest).passCmd h r.1)
      else if h.red then r.2
      else ((r.2.setHeld t ({ h with red := true } :: rest)).count E.TMGR_CMD_RED 1).addMeter t fun a => { a with cmdRed := satRed a.cmdRed }

/-- A command reaches FETCHED at its tenant's command policer. -/
def State.policeCmd (n : Nat) (s : State) : State :=
  match s.slot n with
  | none => s
  | some x =>
    let l := s.tmgr.held.get x.tenant []
    let s1 := s.setHeld x.tenant (l ++ [{ slot := n, cost := x.cost, colour := x.colour, since := s.now }])
    if l.isEmpty && s.isOn pgTmgr then s1.policeHeld x.tenant 1 else s1

/-- Every enabled policer gains a microsecond of its rates (R322). -/
def State.refillPolicers (s : State) : State :=
  ((s.fab.tabIndices pgTmgr false 1).filter fun p => polEn (s.polEntry p)).foldl (fun t p =>
    t.setBucket p (polRefill (t.polEntry p) (t.bucket p))) s

def execPolicerRefill (s : State) : Result :=
  .next (if !s.isLive pgTmgr then s
    else
      let s1 := s.refillPolicers.refillShapers
      if s1.isOn pgTmgr then s1.tmgr.held.list.foldl (fun t e => t.policeHeld e.1 e.2.length) s1 else s1)

/-! ### Selection (R331 to R337) -/

/-- A leaf that lost VALID is forgotten once it holds no work (R339). -/
def State.settleGhost (leaf : Nat) (s : State) : State :=
  if s.tmgr.egr.any (fun e => decide (e.leaf = leaf)) || s.tmgr.adm.any (fun e => decide (e.leaf = leaf)) then s
  else s.onTmgr fun t => { t with ghosts := t.ghosts.erase leaf }

/-- The packet may leave: its priority is not paused (R107), and its connection's rate admits it (R155). -/
def State.egrMay (s : State) (e : EgrWork) : Bool :=
  let c := s.ctx e.ctx
  !s.paused e.port (s.ctxPcp e.ctx) && (!c.id.rcEn || decide (c.tx.nextSend ≤ s.now))
/-- The packet's cells have crossed to its port (Table 9.1). -/
def State.egrHere (s : State) (e : EgrWork) : Bool := !s.inVat fun k => decide (k = .egress e.ctx e.pkt.psn ∨ k = .response e.ctx e.pkt.psn)
/-- The packets that a port may send now, in order: none overtakes an earlier one of its connection. -/
def State.egrReady (s : State) (port : Nat) : List EgrWork :=
  (s.tmgr.egr.foldl (fun (a : List Nat × List EgrWork) e =>
    if e.port ≠ port ∨ a.1.contains e.ctx then a
    else if s.egrMay e && s.egrHere e then (a.1, a.2 ++ [e]) else (e.ctx :: a.1, a.2)) ([], [])).2
/-- The time that a packet takes at its connection's rate, in half nanoseconds (R155); rates are in Mbit/s. -/
def Ctx.sendTime (c : Ctx) (bytes : Nat) : Nat := bytes * 16000 / max 1 c.tx.rate
/-- A packet of a connection under rate control leaves: the next one follows at its rate. -/
def State.pace (e : EgrWork) (s : State) : State :=
  s.when (s.ctx e.ctx).id.rcEn fun t => t.onTx e.ctx fun x => { x with nextSend := max s.now x.nextSend + (s.ctx e.ctx).sendTime e.bytes }

/-- A selection is counted: express work, and express work above its cap (R336). -/
def State.countExpress (leaf : Nat) (step1 : Bool) (s : State) : State :=
  let x := leafExpress (s.leafEntry leaf)
  (s.when (x && step1) (State.count E.TMGR_EXP_PKTS 1)).when (x && !step1) (State.count E.TMGR_EXP_OVER_CAP 1)

/-- A port node sends one packet (R331, R334). -/
def State.portSelect (port : Nat) (s : State) : State :=
  let ready := s.egrReady port
  let heads := headsSort (ready.foldl (fun h e => headsAdd e.leaf e.bytes h) [])
  if !s.isLive pgTmgr ∨ !s.rootOpen port then s
  else match s.rootSelect port heads with
    | none => s
    | some (leaf, step1, rs) => match ready.find? fun e => decide (e.leaf = leaf) with
      | none => s
      | some e =>
        let s1 := (((s.setRoot port rs).chargeWork port leaf e.bytes).onTmgr fun t => { t with egr := removeFirst e t.egr }).countExpress leaf step1
        let s2 := ((((s1.count E.TMGR_EGR_PKTS 1).pace e).transmit e.ctx port e.pkt e.trailer).settleGhost leaf).endKey e.pkt.key
        ((s2.dropKind fun k => decide (isReadResp e.pkt.opcode) && decide (k = .response e.ctx e.pkt.psn)).keepDeficits).settleResets

/-- The first command of each leaf that a pool node may admit: a leaf's held writes are passed over, and no write overtakes them
(R335, R406). -/
def State.admHeads (s : State) : List AdmWork → List Nat → List AdmWork → List AdmWork
  | [], _, acc => acc.reverse
  | w :: ws, heldLeaves, acc =>
    if acc.any fun x => decide (x.leaf = w.leaf) then s.admHeads ws heldLeaves acc
    else if !w.isWrite then s.admHeads ws heldLeaves (w :: acc)
    else
      let holds := match s.slot w.slot with
        | some x => s.jrnlHolds x
        | none => 0
      if heldLeaves.contains w.leaf ∨ holds ≠ 0 then s.admHeads ws (w.leaf :: heldLeaves) acc
      else s.admHeads ws heldLeaves (w :: acc)

/-- A held write is counted once (R400, R406). -/
def State.countHold (s : State) (w : AdmWork) : State :=
  match (if w.isWrite then s.slot w.slot else none) with
  | none => s
  | some x => match s.jrnlHolds x with
    | 0 => s
    | 1 => if s.jrnl.dirtyWaited.contains w.slot then s
      else ((s.onJrnl fun j => { j with dirtyWaited := insertSorted w.slot j.dirtyWaited }).count E.JRNL_DIRTY_WAIT 1).occur S.JRNL_DIRTY_LIMIT_HIT
    | 3 => s
    | _ => if s.jrnl.indexWaited.contains w.slot then s
      else ((s.onJrnl fun j => { j with indexWaited := insertSorted w.slot j.indexWaited }).count E.JRNL_INDEX_WAIT 1).occur S.JRNL_INDEX_FULL

/-- A pool node selects one command, or background work (R331, R335, R338). -/
def State.poolSelect (p : Nat) (s0 : State) : State :=
  if !s0.isOn pgTmgr then s0
  else
    let mine := s0.tmgr.adm.filter fun w => decide (w.pool = p)
    let s := mine.foldl State.countHold s0
    let ready := s.admHeads mine [] []
    let heads := headsSort (ready.foldl (fun h w => headsAdd w.leaf w.cost h) (s.bgHeads p))
    if !s.rootOpen (64 + p) then s
    else match s.rootSelect (64 + p) heads with
      | none => s
      | some (leaf, step1, rs) => match ready.find? fun w => decide (w.leaf = leaf) with
        | none => match s.tmgr.bgWant.find leaf with
          | none => s
          | some cost => (((s.setRoot (64 + p) rs).chargeWork (64 + p) leaf cost).bgAdmit leaf cost).keepDeficits
        | some w =>
          let s1 := (((s.setRoot (64 + p) rs).chargeWork (64 + p) leaf w.cost).onTmgr fun t => { t with
            adm := t.adm.filter fun x => decide (x.slot ≠ w.slot), chosen := t.chosen ++ [w.slot] }).when
              (leafExpress (s.leafEntry leaf) && !step1) (State.count E.TMGR_EXP_OVER_CAP 1)
          (((s1.count E.TMGR_ADM_CMDS 1).count E.TMGR_ADM_BYTES w.cost).settleGhost leaf).keepDeficits

def execRootSelect (root : Nat) (s : State) : Result :=
  .next (if root < 64 then s.portSelect root else if root < 68 then s.poolSelect (root - 64) else s)

/-! ### Samples (R340 to R342) -/

/-- One leaf's four values. -/
def State.sampleLeaf (s : State) (leaf : Nat) : Sample :=
  let e := s.tmgr.egr.filter fun w => decide (w.leaf = leaf)
  let a := s.tmgr.adm.filter fun w => decide (w.leaf = leaf)
  (s.tmgr.samples.get leaf {}).take (e.map EgrWork.cells).sum (minSince (e.map EgrWork.since) s.now) a.length
    (minSince (a.map AdmWork.since) s.now)

/-- A record of the sample ring (Table 8.3). -/
def State.sampleRecord (leaf : Nat) (s : State) : State :=
  let m := s.tmgr.samples.get leaf {}
  let n := s.get pgTmgr F.SAMPLE_STAT_NEXT
  let x := s.tmgr.samplePeriod % 2 ^ 32 + leaf * 2 ^ 32 + m.egrDepth % 2 ^ 32 * 2 ^ 64 + m.egrDelay * 2 ^ 96 + m.admDepth % 2 ^ 32 * 2 ^ 128
    + m.admDelay * 2 ^ 160 + s.timeStamp * 2 ^ 192
  let wrapped := (s.tmgr.sampleRing.find n).isSome || s.flag pgTmgr F.SAMPLE_STAT_WRAPPED
  (((s.onTmgr fun t => { t with sampleRing := t.sampleRing.set n x }).setF pgTmgr F.SAMPLE_STAT_NEXT ((n + 1) % 2 ^ 21)).setF pgTmgr
    F.SAMPLE_STAT_WRAPPED (boolNat wrapped)).count E.TMGR_SAMPLE_REC 1

def execSampleTick (s : State) : Result :=
  .next (if !s.isLive pgTmgr then s
    else
      let leaves := (s.fab.tabIndices pgTmgr false 4).filter fun l => leafValid (s.tab pgTmgr 4 l)
      let s1 := leaves.foldl (fun t l => t.onTmgr fun m => { m with samples := m.samples.put l {} (s.sampleLeaf l) }) s
      let on := s.flag pgTmgr F.SAMPLE_CTL_STREAM_EN && !s.flag pgTmgr F.SAMPLE_CTL_FREEZE
      let s2 := if on then (leaves.filter fun l => leafStream (s.tab pgTmgr 4 l)).foldl (fun t l => t.sampleRecord l) s1 else s1
      s2.onTmgr fun m => { m with samplePeriod := m.samplePeriod + 1 })

/-! ### The meter (R346 to R351) -/

/-- Provisioned bytes of a tenant: its namespaces' NSZE × LBA size (R346). -/
def State.tenantProvisioned (s : State) (t : Nat) : Nat :=
  (((s.fab.nsEntries false).filter fun e => decide (nsTenant e.2 = t)).map fun e => nsSize e.2 * nsLba e.2).sum

/-- The PTP seconds value has changed (R346). -/
def execMeterSecondTick (s : State) : Result :=
  .next (if !s.isLive pgTmgr ∨ !s.tmgr.minute.isOpen then s
    else (((s.fab.nsEntries false).map fun e => nsTenant e.2).uniq).foldl (fun t n => t.addMeter n fun a => { a with
      logicalMib := a.logicalMib + mib (s.tenantProvisioned n), physicalMib := a.physicalMib + mib (s.tenantPhys n) }) s)

/-- The open minute closes where a close is due, and the next opens (R347). -/
def execMeterMinuteClose (s : State) : Result :=
  .next (match s.tmgr.minute.due with
    | none => s
    | some (covered, step) =>
      let k := s.get pgTmgr F.METER_GEN_GEN
      ((s.closeMinute covered step false).openMinute step false).mirrorIf 0 (.meter k))

/-- A write of `METER_ACK` (R350). -/
def State.meterAck (v : Nat) (s : State) : State :=
  if s.get pgTmgr F.METER_GEN_GEN < v ∨ v < s.get pgTmgr F.METER_ACK_ACK then s.count E.MGMT_CTL_IGNORED 1
  else (s.setF pgTmgr F.METER_ACK_ACK v).mirrorIf 0 (.meterAck v)

def execMeterAckWrite (value : BitVec 32) (s : State) : Result := .next (s.meterAck value.toNat)

/-! ### Destage (R311 to R315) -/

/-- REGN starts reading a dirty unit once its pool node admits the work; its bit is cleared, and it goes to CMPR (R311, R315, R338). -/
def State.destage (n : Nat) (s : State) : State :=
  let p := s.get pgRegn F.REGN_CFG_DESTAGE_POOL
  if !s.isLive pgRegn ∨ !s.flag pgRegn F.REGN_CFG_DESTAGE_EN ∨ s.saving ∨ !s.owned ∨ (s.regn.dirty.find n).isNone ∨ !s.activeUnit n then s
  else if !(s.pool p).usable then s.occur S.REGN_DESTAGE_FAIL
  else if s.cmpr.writes.any fun _ w => decide (w.volume = imgVol ∧ w.lun = n) then s
  else
    let r := s.bgTake p 3 16384
    if !r.1 then r.2
    else
      let s1 := (r.2.onRegn fun g => { g with dirty := g.dirty.erase n }).syncDirty
      let s2 := (s1.count E.REGN_DESTAGE_UNITS 1).count E.REGN_DESTAGE_BYTES 16384
      let j := s2.newJob { volume := imgVol, lun := n, for_ := .destage, stage := .ready, data := memBytes s.regn.mem (n * 16384) 16384
                           cover := 2 ^ 32 - 1 }
      j.2.handCells j.1

def execDestageUnit (unit : Nat) (s : State) : Result := .next (s.destage unit)

end Sys2Proof.Machine
end

