-- ==== Sys2Proof/Machine/PlceExec.lean ====
section
/-!
DEFINITION. The commands of PLCE: packing, stripes written, map pages, segments, the Press, volume discard (chapter 12 of spec/).
-/
namespace Sys2Proof.Machine
open Sys2Proof

/-! ### Packing (R463 to R468) -/

/-- Put a unit into its stream's stripe: the stripe takes it, or is closed and the next one takes it; none where the stream has no
segment, or where the standby has not confirmed the opening of its segment (Table 16.4). A stripe that can take no further unit is closed at once. -/
def State.pack (p stream : Nat) (u : PackU) : Nat → State → Option State
  | 0, _ => none
  | fuel + 1, s =>
    match s.plce.open_.find (2 * p + stream) with
    | none =>
      let t := s.takeSeg p stream
      if (t.plce.open_.find (2 * p + stream)).isSome then State.pack p stream u fuel t else none
    | some x =>
      let d := (s.pool p).d
      if x.t = 0 ∧ x.units.isEmpty ∧ s.awaits (.placement 3 (segKey p x.seg)) then none
      else if x.fits d u.glen then
        let y := { x with units := x.units ++ [{ u with goff := x.used }], used := x.used + u.glen
                          since := if x.units.isEmpty then s.now else x.since }
        let t := s.onPlce fun z => { z with open_ := z.open_.set (2 * p + stream) y }
        some (if y.fits d 1 then t else t.closeStripe p stream)
      else State.pack p stream u fuel (s.closeStripe p stream)

/-- A unit from CMPR (R463, R467, R525). -/
def State.packJob (j : Nat) (s : State) : State :=
  match s.wjob j with
  | none => s
  | some w =>
    let p := s.volPool w.volume
    if w.stage ≠ .stored ∨ s.inVat (cellsOfJob j) then s
    else if (s.pool p).state = 5 then s.failJob j 1
    else if !(s.pool p).usable then s
    else
      let u : PackU := { volume := w.volume, lun := w.lun, goff := 0, glen := w.stored.len / 512, raw := w.raw, isSealed := decide (w.keyIndex ≠ 0)
                         job := some j, from_ := none, bytes := w.stored.val }
      match s.pack p 0 u 3 with
      | some t => (t.setJob j { w with stage := .packed }).onPlce fun x => { x with waits := x.waits.filter fun y => decide (y.job ≠ j) }
      | none =>
        if s.plce.waits.any fun y => decide (y.job = j) then s
        else (s.onPlce fun x => { x with waits := x.waits ++ [⟨j, p⟩] }).count E.PLCE_SEG_WAIT 1

/-- The unit is on its way already: packed, being written, or waiting for its map change. -/
def State.moving (s : State) (v lun : Nat) (place : Nat × Nat) : Bool :=
  let is := fun (u : PackU) => decide (u.volume = v ∧ u.lun = lun ∧ u.from_ = some place)
  s.plce.open_.any (fun _ x => x.units.any is) || s.plce.writing.any (fun x => x.units.any is) || s.plce.relocs.any fun e => is e.2.2.2

/-- A live unit of the Press's victim (R494, R496): its granules are read as they are stored, and placed through stream 1. The read is
admitted with what its write will cost (R338); one whose entry changes meanwhile is given up. -/
def State.packPress (p v lun : Nat) (s : State) : State :=
  let e := s.entry v lun
  let off := decide (s.plce.victims.find p ≠ some (meSeg e) ∨ !mePhys e ∨ s.volPool v ≠ p ∨ s.moving v lun (meSeg e, meGoff e)
    ∨ !(s.pool p).usable ∨ bitAt (s.get pgPlce F.PLCE_PRESS_CTL_PAUSE) p ∨ !s.isOn pgPlce)
  match s.cmpr.reads.findKey fun _ r => decide (r.for_ = .press ∧ r.volume = v ∧ r.lun = lun) with
  | none =>
    if off then s
    else
      let a := s.bgTake p 0 (1024 * meGlen e)
      if !a.1 then a.2
      else
        let n := a.2.newRead v lun .press [(0, meGlen e)] false 0
        (n.2.askParts n.1 []).getD a.2
  | some j => match s.readJob j with
    | none => s
    | some r =>
      if !r.complete ∨ s.inVat (cellsOfRead j) then s
      else if off ∨ r.entry ≠ e ∨ r.lost then s.endRead j r
      else
        let u : PackU := { volume := v, lun := lun, goff := 0, glen := meGlen e, raw := meRaw e, isSealed := bitAt e 3, job := none
                           from_ := some (meSeg e, meGoff e), bytes := r.bytes (s.pool p) }
        match s.pack p 1 u 3 with
        | some t => ((t.endRead j r).count E.PLCE_PRESS_UNITS 1).count E.PLCE_PRESS_GRAN (meGlen e)
        | none => s

def execUnitPack (src : PackSrc) (s : State) : Result :=
  .next (if !s.isLive pgPlce ∨ s.saving then s
    else match src with
      | .job n => s.packJob n
      | .press p v lun => s.packPress p v lun)

/-- A stripe has held a unit for FILL_US (R465). -/
def execStripeFillTimeout (pool stream : Nat) (s : State) : Result :=
  .next (match s.plce.open_.find (2 * pool + stream) with
    | none => s
    | some x =>
      if x.units.isEmpty ∨ 2 ≤ stream ∨ s.saving then s
      else ((s.count E.PLCE_STRIPE_PADDED 1).count E.PLCE_PAD_GRAN
        (128 * (s.pool pool).d - x.used - summaryGran x.units.length)).closeStripe pool stream)

/-! ### Stripes written (R469, R510, R511) -/

/-- A stripe's erasures exceed the pool's redundancy. -/
def PoolRt.tooMany (v : PoolRt) (failed : List Nat) : Bool :=
  if isMirror v.prot then (List.range v.d).any fun i => ((List.range v.w).filter fun r => decide (r % v.d = i)).all fun r => failed.contains r
  else decide (redundancy v.prot < failed.length)

/-- Every issued strip has completed (R469, R510, R511). -/
def State.stripeWritten (x : Stripe) (s : State) : State :=
  let p := x.pool
  let v := s.pool p
  let s0 := s.dropKind fun k => match k with
    | .strip p' g t _ => decide (p' = p ∧ g = x.seg ∧ t = x.t)
    | _ => false
  let s1 := (s0.onPlce fun y => { y with writing := y.writing.filter fun z => !decide (z.pool = p ∧ z.seg = x.seg ∧ z.t = x.t) }).onSeg p x.seg
    fun g => { g with written := if bitAt g.written x.t then g.written else g.written + 2 ^ x.t }
  let place := fun (t : State) (u : PackU) => match u.job with
    | some j => ((t.count E.PLCE_UNITS_PLACED 1).count E.PLCE_GRAN_PLACED u.glen).finishJob j
        (entPhys x.seg (x.t * 128 * v.d + u.goff) u.glen u.isSealed u.raw)
    | none => t.onPlce fun y => { y with relocs := y.relocs ++ [(p, x.seg, x.t, u)] }
  let lost := (x.units.filterMap PackU.job).filterMap fun j => (s1.wjob j).map fun w => (j, w.volume, w.lun)
  let s2 := if v.tooMany x.failed then
      let mask := ((List.range v.d).map fun r => 2 ^ r).sum
      (((lost.foldl (fun t e => t.finishJob e.1 entZero) (s1.count (E.STRP_STRIPE_WRITE_FAIL.on p) 1)).unitErrs 1 (lost.map Prod.snd)).addLoss p
        ⟨stripeNo x.seg x.t, 1, mask, 1, 0xFFFF, false⟩).syncPool p
    else x.units.foldl place (s1.count (E.STRP_STRIPES_WRITTEN.on p) 1)
  let s3 := s2.mirrorIf p (.placement 1 p)
  let g := s3.seg p x.seg
  if g.state = 1 ∧ g.written = 2 ^ 64 - 1 then
    (((s3.setSeg p x.seg { g with state := 2, closeS := s3.ptp.sec % 2 ^ 32 }).oslWrite p).relabel p false).settleSeg p x.seg
  else s3

/-- A write of a rebuild has completed (R511, R528, R530). -/
def State.rebuiltDone (p : Nat) (m : Bool) (w pos : Nat) (ok : Bool) (s : State) : State :=
  match s.strp.rebuilt.find? fun e => decide (e.pool = p ∧ e.map = m ∧ e.what = w ∧ e.pos = pos) with
  | none => s
  | some e =>
    let s1 := s.onStrp fun y => { y with rebuilt := removeFirst e y.rebuilt }
    if !ok then s1.failMember p pos 2
    else s1.when m (State.onPool p fun v => { v with mapLeft := v.mapLeft.set pos ((v.mapLeft.get pos []).filter fun n => decide (n ≠ w)) })

/-- The first write of a strip that DRVP has finished (R510, R511). A position whose bay is no longer the one that the strip went to does
not fail by it. -/
def State.stripDone (s : State) : State :=
  match s.strp.done.find? fun e => match e.1 with
    | .strip _ _ _ _ => true
    | .rebuilt _ _ _ _ => true
    | _ => false with
  | some (.rebuilt p m w pos, ok) =>
    ((s.onStrp fun y => { y with done := removeFirst (.rebuilt p m w pos, ok) y.done }).when (!m) (State.count (E.STRP_STRIP_WRITES.on p) 1)).rebuiltDone
      p m w pos ok
  | some (.strip p seg t role, ok) =>
    let s1 := (s.onStrp fun y => { y with done := removeFirst (.strip p seg t role, ok) y.done }).count (E.STRP_STRIP_WRITES.on p) 1
    let pos := (s1.pool p).posOf (stripeNo seg t) role
    let here := (s.plce.writing.find? fun z => decide (z.pool = p ∧ z.seg = seg ∧ z.t = t)).any fun x =>
      decide (x.bays[role]? = some ((s1.pool p).member pos).bay)
    let s2 := if ok ∨ !here then s1 else s1.failMember p pos 2
    (match s2.plce.writing.find? fun z => decide (z.pool = p ∧ z.seg = seg ∧ z.t = t) with
    | none => s2
    | some x =>
      let y := { x with waiting := x.waiting.filter fun r => decide (r ≠ role), failed := if ok then x.failed else role :: x.failed }
      let s3 := (s2.unrefKind fun k => decide (k = .strip p seg t ((s2.pool p).stripCells role))).onPlce fun z => { z with
        writing := z.writing.map fun q => if q.pool = p ∧ q.seg = seg ∧ q.t = t then y else q }
      if y.waiting.isEmpty then s3.stripeWritten y else s3)
  | _ => s

def execStripWriteComplete (s : State) : Result := .next s.stripDone

/-- A stream 0 unit has waited PLACE_STALL_MS (R468). -/
def execSegmentWaitStall (job : Nat) (s : State) : Result :=
  .next (if s.plce.waits.any fun y => decide (y.job = job) then (s.failJob job 3).occur S.PLCE_PLACE_STALL else s)

/-! ### Map pages -/

/-- The units of a map page that lie within NSZE: first and how many. -/
def State.pageUnits (s : State) (k : Nat) : Nat × Nat :=
  let v := pageVol k
  let first := pageNo k * 512
  let total := nsSize (s.ns v) * nsLba (s.ns v) / unitBytes
  (first, if v = imgVol then 512 else min 512 (total - first))

/-- MAP_LOST (R479): every entry of the page becomes DAMAGED; the LBAs within NSZE receive their error. -/
def State.mapLost (k : Nat) (s : State) : State :=
  let u := s.pageUnits k
  let s1 := (List.range 512).foldl (fun t i => t.commitEntry (pageVol k) (u.1 + i) entDamaged 0) (s.occur S.PLCE_MAP_LOST)
  if u.2 = 0 then s1 else s1.unitErr (pageVol k) u.1 u.2 1

/-- The page's read is over: it stands in its frame. -/
def State.missEnd (k : Nat) (s : State) : State :=
  (s.onPlce fun x => { x with
    fetching := x.fetching.filter fun j => decide (j ≠ k), copies := x.copies.erase k, missCls := x.missCls.erase k }).fillFrame k
/-- Write a copy of a page over the one that a member holds (R478, R483). -/
def State.rewriteCopy (k c : Nat) (s : State) : State :=
  let v := s.pool (s.volPool (pageVol k))
  let slot := (s.pageSlot k).getD 0
  s.drvWrite (v.member (v.mapPos slot c)).bay (.mapCopy k c 0)
    { use := .mapCopy k c 0, isWrite := true, cls := 1, offset := v.mapOffset slot c, bytes := 4608 }

/-- A read of a page copy completes (R478, R479, R482). `bad`: its PCRC, TCRC, VOLUME or PAGE is wrong. A copy that is wrong or could not be
read is set aside and the next one read; a good one is written over those set aside; with none left the page is lost. -/
def State.mapReadDone (k : Nat) (bad : Bool) (s : State) : State :=
  let mine := fun (e : DrvUse × Bool) => decide (e.1 = .mapRead k)
  match (if s.plce.fetching.contains k && !s.inVat (fun x => decide (x = .mapRead k)) then s.strp.done.find? mine else none) with
  | none => s
  | some (_, ok) =>
    let t0 := (s.dropKind fun x => decide (x = .mapRead k)).onStrp fun y => { y with done := y.done.filter fun e => !mine e }
    let was := s.plce.copies.get k []
    if ok && !bad then (match t0.takeFrame with
      | none => s.count E.PLCE_MAP_FRAME_WAIT 1
      | some t => (was.drop 1).foldl (fun u c => u.rewriteCopy k c) (t.missEnd k))
    else
      let t1 := t0.when (!was.isEmpty) fun t => (t.count E.PLCE_MAP_COPY_BAD 1).occur S.PLCE_MAP_COPY_BAD
      match t1.readCopy k (s.plce.missCls.get k 1) with
      | some t => t
      | none => (match t1.takeFrame with
        | none => s.count E.PLCE_MAP_FRAME_WAIT 1
        | some t => (t.missEnd k).mapLost k)

def execMapPageReadComplete (page : Nat) (bad : Bool) (s : State) : Result := .next (s.mapReadDone page bad)

/-- A page has been dirty for WB_US, or its frame is needed (R481, R483); the standby holds its changes first (Table 16.4). -/
def State.writeBack (k : Nat) (s : State) : State :=
  let p := s.volPool (pageVol k)
  let x := s.mapPage k
  if x.dirty.isNone ∨ x.wb.isSome ∨ !s.isLive pgPlce ∨ s.saving ∨ !(s.pool p).usable ∨ 262136 ≤ s.intents p
      ∨ s.awaits (.placement 0 k) then s
  else if !(s.bgTake p 3 13824).1 then (s.bgTake p 3 13824).2
  else
    let slot := (s.pageSlot k).getD (s.freeMapSlot p)
    let g := x.wgen + 1
    let v := s.pool p
    let cls := if s.dirtyLimit < 2 * s.poolPending p then 1 else 0
    let s1 := (((s.bgTake p 3 13824).2.onPool p fun y => { y with mapLeft := y.mapLeft.mapVals fun _ l => l.filter fun n => decide (n ≠ slot) }).onPlce fun y => { y with
      slots := y.slots.set k slot
      pages := y.pages.set k { x with dirty := none, wb := some (x.changes, x.maxSeq), wgen := g } }).syncMap
    let s2 := s1.mirrorIf p (.placement 1 p)
    let image := s2.pageImage k
    (List.range 3).foldl (fun t i =>
      let m := v.member (v.mapPos slot i)
      if m.state = 1 ∨ m.state = 2 then (t.emit (.mapPage p slot i ⟨4608, image⟩)).drvWrite m.bay (.mapCopy k i g)
        { use := .mapCopy k i g, isWrite := true, cls := cls, offset := v.mapOffset slot i, bytes := 4608 } else t) s2

def execMapWbTimer (page : Nat) (s : State) : Result := .next (s.writeBack page)

/-- Changes of a page up to a number are durable (R480): records and segments wait for them no longer. -/
def State.durable (k n : Nat) (s : State) : State :=
  let keep := fun (e : Nat × Nat) => !decide (e.1 = k ∧ e.2 ≤ n)
  ((s.onJrnl fun j => { j with recs := j.recs.mapVals fun _ r => { r with undurable := r.undurable.filter keep } }).onPlce fun x => { x with
    segs := x.segs.mapVals fun _ g => { g with undurable := g.undurable.filter keep } }).releaseRecs

/-- Two copies of the write-back are written (R480). -/
def State.writeBackDone (k : Nat) (s : State) : State :=
  let x := s.mapPage k
  let mine := fun (e : DrvUse × Bool) => match e.1 with
    | .mapCopy k' _ g => decide (k' = k ∧ g = x.wgen)
    | _ => false
  match x.wb with
  | none => s
  | some (n, _) =>
    if ((s.strp.done.filter fun e => mine e && e.2).length) < 2 then s
    else
      let s1 := (s.onStrp fun y => { y with done := y.done.filter fun e => !mine e }).onPlce fun y => { y with
        pages := y.pages.set k { x with wb := none } }
      ((s1.count E.PLCE_MAP_WB 1).durable k n).mirrorIf (s.volPool (pageVol k)) (.placement 2 k)

def execMapWbComplete (page : Nat) (s : State) : Result := .next (s.writeBackDone page)

/-! ### Segments and the Press -/

/-- A position with an empty need set is ONLINE; with none REBUILDING the rebuild is IDLE (R532, Table 13.8). -/
def State.settleRebuild (p : Nat) (s : State) : State :=
  let v := s.pool p
  let done := (List.range v.members.length).filter fun i => decide ((v.member i).state = 2) && (v.need.get i []).isEmpty
  if done.isEmpty then s.syncPool p
  else
    let ms := done.foldl (fun (l : List Member) i => l.set i { v.member i with state := 1, start := 0, cause := 0 }) v.members
    let left := ms.any fun m => decide (m.state = 2)
    (s.setPool p { v with
      members := ms
      need := done.foldl (fun m i => m.erase i) v.need
      joined := v.joined.filter fun i => !done.contains i
      rbState := if left then v.rbState else 0 }).settlePool p

/-- RELEASING to FREE (Table 12.2), with what leaves the loss list and the need sets (R519, R529, R538). -/
def State.freeSegment (p n : Nat) (s : State) : State :=
  let g := s.seg p n
  if g.state ≠ 4 ∨ !g.undurable.isEmpty ∨ g.reads ≠ 0 then s
  else
    let s1 := s.setSeg p n {}
    let used := s1.usedSegs p
    let s2 := (s1.setLoss p ((s1.pool p).loss.filter fun e => used.any fun k =>
      decide (e.first / 64 + 1 ≤ k ∧ k ≤ (e.first + e.count - 1) / 64 + 1))).onPool p fun v => { v with
      need := v.need.mapVals fun _ l => l.filter fun k => decide (k ≠ n) }
    s2.settleRebuild p

def execSegmentFree (pool seg : Nat) (s : State) : Result := .next (s.freeSegment pool seg)

/-- A summary that fails its CRC is read again from parity: its rows count as erased, and what passes then is rewritten over them (R496,
R516). Given by its stripe and its number of units. -/
def State.mendSummary (p n : Nat) (e : Nat × Nat) (s : State) : State :=
  let g := summaryGran e.2
  (s.count (E.STRP_CRC_RECON.on p) 1).rewriteRows p (stripeNo n (e.1 % 64)) ((s.pool p).d - 1) (128 - g) g none
/-- The Press selects its next victim (R494, R495) and reads its summaries (R496). -/
def State.pressSelect (p : Nat) (scan : SummaryScan) (s : State) : State :=
  let free := s.freeSegs p
  let on := decide (free < s.pressStart p) || (s.plce.pressOn.contains p && decide (free < s.pressStop p))
  let s1 := s.onPlce fun x => { x with pressOn := if on then insertSorted p x.pressOn else x.pressOn.filter fun q => decide (q ≠ p) }
  if !s.isOn pgPlce ∨ s.saving ∨ !(s.pool p).usable ∨ !on ∨ bitAt (s.get pgPlce F.PLCE_PRESS_CTL_PAUSE) p ∨ (s.plce.victims.find p).isSome then s1
  else match s1.selectVictim p with
    | none => s1
    | some n => (((scan.mended.foldl (fun t e => t.mendSummary p n e) ((s1.onSeg p n fun g => { g with state := 3 }).count
        (E.STRP_CRC_RECON.on p) scan.lost)).count E.PLCE_SUMMARY_SCAN scan.lost).onPlce fun x => { x with victims := x.victims.set p n }).onFab fun f =>
        f.setF pgPlce F.PLCE_PRESS_STAT_RUNNING (withBits (f.get pgPlce F.PLCE_PRESS_STAT_RUNNING) p 1 1)

def execPressSelect (pool : Nat) (scan : SummaryScan) (s : State) : Result := .next (if pool < 4 then s.pressSelect pool scan else s)

/-- The oldest relocated unit commits its map change, or has lost its race (R497). -/
def State.relocate (s : State) : State :=
  match s.plce.relocs with
  | [] => s
  | (p, seg, t, u) :: rest =>
    let s1 := s.onPlce fun x => { x with relocs := rest }
    let e := s.entry u.volume u.lun
    if mePhys e ∧ u.from_ = some (meSeg e, meGoff e) then
      s1.commitSealed u.volume u.lun (entPhys seg (t * 128 * (s.pool p).d + u.goff) u.glen u.isSealed u.raw) 0
        (s.plce.unitKey.get (mapKey u.volume u.lun) 0)
    else s1.count E.PLCE_PRESS_LOST_RACE 1

def execPressRelocateCommit (s : State) : Result := .next s.relocate

/-! ### Volume discard (R493) -/

/-- A write of `PLCE_VOL_OP`. -/
def State.volOp (w : Nat) (s : State) : State :=
  let v := bitsOf w 0 14
  if s.flag pgPlce F.PLCE_VOL_OP_STAT_BUSY then s.count E.MGMT_CTL_IGNORED 1
  else if !bitAt w 31 then s
  else if nsValid (s.ns v) then s.setF pgPlce F.PLCE_VOL_OP_STAT_STATUS 1
  else ((s.setF pgPlce F.PLCE_VOL_OP_STAT_BUSY 1).setF pgPlce F.PLCE_VOL_OP_STAT_STATUS 0).onPlce fun x => { x with discarding := some v }

def execVolumeDiscard (value : BitVec 32) (s : State) : Result := .next (s.volOp value.toNat)

/-- Every entry is UNMAPPED, and the directory and map region slots are free. -/
def execVolumeDiscardComplete (s : State) : Result :=
  .next (match s.plce.discarding with
    | none => s
    | some v =>
      let p := s.volPool v
      let segs := (((s.volEntries v).map fun e => meSeg e.2).uniq).filter fun n => decide (n ≠ 0)
      let sealed_ := s.plce.unitKey.keys.filter fun k => decide (mapVol k = v)
      let s1 := (sealed_.foldl (fun t k => t.keyStored k 0) s).onPlce fun x => { x with
        map := x.map.filter fun k _ => decide (mapVol k ≠ v)
        pages := x.pages.filter fun k _ => decide (pageVol k ≠ v)
        lru := x.lru.filter fun k => decide (pageVol k ≠ v)
        slots := x.slots.filter fun k _ => decide (pageVol k ≠ v)
        trail := x.trail.filter fun k _ => decide (pageVol k ≠ v)
        fetching := x.fetching.filter fun k => decide (pageVol k ≠ v)
        discarding := none }
      ((segs.foldl (fun t n => t.settleSeg p n) s1).syncMap).setF pgPlce F.PLCE_VOL_OP_STAT_BUSY 0)

end Sys2Proof.Machine
end

