-- ==== Sys2Proof/Machine/StrpExec.lean ====
section
/-!
DEFINITION. The commands of STRP: pool operations, import, rebuild, loss and the Turner (chapter 13 of spec/).
-/
namespace Sys2Proof.Machine
open Sys2Proof

/-! ### Pool operations (Table 13.6, R520 to R527) -/

def bitsIn (n x : Nat) : List Nat := (List.range n).filter (bitAt x)
def State.opStatus (p st : Nat) (s : State) : State := s.setF (pgPool p) F.POOL_OP_STAT_STATUS st
/-- The bay holds a label that is not cleared. -/
def State.labelled (s : State) (b : Nat) : Bool := match s.strp.labels.find b with
  | some l => decide (l.role ≠ 0)
  | none => false
/-- The bay belongs to a pool that is not UNDEFINED, as a position or a spare. -/
def State.inPool (s : State) (b : Nat) : Bool := (List.range 4).any fun p =>
  decide ((s.pool p).state ≠ 0) && ((s.pool p).spares.contains b || (s.pool p).members.any fun m => decide (m.bay = b ∧ (m.state = 1 ∨ m.state = 2)))
/-- The least of a list of numbers, 0 of none. -/
def leastOf : List Nat → Nat
  | [] => 0
  | x :: r => r.foldl min x

/-- CREATE (R503, R505, R526): labels written, both streams on segments 1 and 2, OPTIMAL. -/
def State.poolCreate (p : Nat) (s : State) : State :=
  let g := pgPool p
  let bays := bitsIn 24 (s.get g F.POOL_BAYS_MEMBER_MASK)
  if (s.pool p).state ≠ 0 ∨ !s.flag g F.POOL_CFG_DEFINED ∨ !s.isOn g then s.opStatus p 1
  else if bays.any (fun b => s.labelled b || !s.bayReady b) then s.opStatus p 3
  else
    let prot := s.get g F.POOL_CFG_PROT
    let d := s.get g F.POOL_CFG_D
    let mapGib := s.get g F.POOL_CFG_MAP_GIB
    let slice := s.get pgJrnl F.JRNL_SAVE_CFG_SLICE_GIB
    let m := leastOf (bays.map fun b => (s.bay b).capacity)
    let spares := (bitsIn 24 (s.get g F.POOL_SPARES_SPARE_MASK)).filter fun b => s.bayReady b && !s.labelled b && decide (m ≤ (s.bay b).capacity)
    let v : PoolRt := { state := 2, prot := prot, d := d, w := bays.length, m := m, mapGib := mapGib, sliceGib := slice
                        segments := min segCap (segmentsOf m mapGib slice)
                        members := bays.map fun b => { bay := b, state := 1, capacity := (s.bay b).capacity }
                        spares := spares }
    let take := fun (k : Nat) (t : State) => (t.setSeg p (k + 1) { state := 1, stream := k }).onPlce fun x => { x with
      open_ := x.open_.set (2 * p + k) { pool := p, seg := k + 1, t := 0, stream := k } }
    (((take 1 (take 0 (s.setPool p v))).oslWrite p).relabel p true).syncPool p |>.opStatus p 0 |>.syncJrnl

/-- What PLCE holds of a pool is unloaded: it stays on the drives. -/
def State.unloadPool (p : Nat) (s : State) : State :=
  let mine := fun (v : Nat) => decide (s.volPool v = p)
  (s.onPlce fun x => { x with
    map := x.map.filter fun k _ => !mine (mapVol k)
    pages := x.pages.filter fun k _ => !mine (pageVol k)
    lru := x.lru.filter fun k => !mine (pageVol k)
    slots := x.slots.filter fun k _ => !mine (pageVol k)
    trail := x.trail.filter fun k _ => !mine (pageVol k)
    copies := x.copies.filter fun k _ => !mine (pageVol k)
    missCls := x.missCls.filter fun k _ => !mine (pageVol k)
    fetching := x.fetching.filter fun k => !mine (pageVol k)
    segs := x.segs.filter fun k _ => decide (k / 2 ^ 24 ≠ p)
    open_ := x.open_.filter fun k _ => decide (k / 2 ≠ p)
    writing := x.writing.filter fun y => decide (y.pool ≠ p)
    relocs := x.relocs.filter fun y => decide (y.1 ≠ p)
    victims := x.victims.erase p }).syncMap

/-- The pool is UNDEFINED again. -/
def State.undefine (p : Nat) (s : State) : State := (((s.unloadPool p).setPool p {}).syncPool p).syncJrnl

/-- EXPORT (R524, R526). -/
def State.poolExport (p : Nat) (s : State) : State :=
  if (s.pool p).state = 1 ∨ (s.fab.nsEntries false).any (fun e => decide (s.volPool e.1 = p)) then s.opStatus p 1
  else (((s.when (decide ((s.pool p).state ≠ 0)) (State.relabel p true)).undefine p).opStatus p 0)

/-- IMPORT begins, or waits while JRNL is STARTING (R527, R728). -/
def State.poolImport (p : Nat) (s : State) : State :=
  if (s.pool p).state ≠ 0 ∨ !s.flag (pgPool p) F.POOL_CFG_DEFINED ∨ !s.isOn (pgPool p) then s.opStatus p 1
  else if (s.fab.page pgJrnl).state = .starting then (s.onPool p fun v => { v with busy := true }).syncPool p
  else (s.onPool p fun v => { v with busy := true, state := 1, phase := 1 }).syncPool p

/-- FAIL_MEMBER (R520). -/
def State.poolFail (p b : Nat) (s : State) : State :=
  if !(s.pool p).usable then s.opStatus p 1
  else match s.placeOf b with
    | some (q, i) => if q = p then (s.failMember p i 3).opStatus p 0 else s.opStatus p 5
    | none => s.opStatus p 5

/-- A cleared label: ROLE 0 (Table 13.3). DESIGN CHOICE (log entry 86): its other fields are 0. -/
def clearedLabel : PoolLabel :=
  { poolId := 0, gen := 0, role := 0, position := 0, prot := 0, d := 0, w := 0, mapGib := 0, sliceGib := 0, m := 0, open0 := 0, open1 := 0
    cursor := 0, oslPos := [], members := [] }
/-- CLEAR_LABEL (R523). -/
def State.poolClear (p b : Nat) (s : State) : State :=
  if s.inPool b then s.opStatus p 1
  else if !s.bayReady b then s.opStatus p 3
  else
    let x : Blob := ⟨4096, labelBytes clearedLabel 0⟩
    (s.writeBay b [.poolLabel b 0 x, .poolLabel b 1 x] fun y => { y with labels := y.labels.erase b }).opStatus p 0

/-- A write of `POOL_OP` with GO (Table 13.13). -/
def State.poolOp (p op b : Nat) (s : State) : State :=
  if (s.pool p).busy then s.count E.MGMT_CTL_IGNORED 1
  else match op with
    | 1 => s.poolCreate p
    | 2 => s.poolImport p
    | 3 => s.poolExport p
    | 4 => s.poolFail p b
    | 5 => s.poolClear p b
    | _ => s

def execPoolCreate (pool : Nat) (s : State) : Result := .next (if pool < 4 then s.poolOp pool 1 0 else s)
def execPoolImport (pool : Nat) (s : State) : Result := .next (if pool < 4 then s.poolOp pool 2 0 else s)
def execPoolExport (pool : Nat) (s : State) : Result := .next (if pool < 4 then s.poolOp pool 3 0 else s)
def execPoolFailMember (pool bay : Nat) (s : State) : Result := .next (if pool < 4 then s.poolOp pool 4 bay else s)
def execPoolClearLabel (pool bay : Nat) (s : State) : Result := .next (if pool < 4 then s.poolOp pool 5 bay else s)

/-! ### Import (Table 13.7, R527, R542, R543) -/

/-- The labels of a pool's identity on bays in no imported pool. -/
def State.labelsOf (s : State) (p : Nat) : List (Nat × PoolLabel) :=
  s.strp.labels.list.filter fun e => decide (e.2.role ≠ 0 ∧ e.2.poolId = s.poolId p) && !s.inPool e.1

/-- The import ends with a status and leaves the pool UNDEFINED. -/
def State.importFail (p st : Nat) (s : State) : State := (s.undefine p).opStatus p st

/-- Phase 1: members and spares chosen from the label of highest LABEL_GEN. -/
def State.importLabels (p : Nat) (s : State) : State :=
  let ls := s.labelsOf p
  match ls with
  | [] => s.importFail p 2
  | e0 :: rest =>
    let best := (rest.foldl (fun b e => if b.2.gen < e.2.gen then e else b) e0).2
    let pos := fun (x : Nat × Nat × Nat) =>
      let b := x.1
      let m : Member := { bay := b, state := x.2.1, start := x.2.2, capacity := (s.bay b).capacity }
      if x.2.1 = 3 then m
      else if !s.bayReady b then { m with state := 3, cause := 5, start := 0 }
      else match ls.find? fun e => decide (e.1 = b) with
        | some e => if e.2.gen < best.gen then { m with state := 3, cause := 4, start := 0 } else m
        | none => { m with state := 3, cause := 4, start := 0 }
    let spares := (bitsIn 24 (s.get (pgPool p) F.POOL_SPARES_SPARE_MASK)).filter fun b => s.bayReady b && decide (best.m ≤ (s.bay b).capacity) &&
      !(best.members.any fun x => decide (x.1 = b ∧ x.2.1 ≠ 3)) && (match s.strp.labels.find b with
        | some l => decide (l.role = 0 ∨ l.poolId = best.poolId)
        | none => true)
    let n := segmentsOf best.m best.mapGib best.sliceGib
    let v : PoolRt := { state := 1, prot := best.prot, d := best.d, w := best.w, m := best.m, mapGib := best.mapGib, sliceGib := best.sliceGib
                        segments := min segCap n, members := best.members.map pos, spares := spares, labelGen := best.gen
                        oslPos := best.oslPos, cursor := best.cursor, phase := 2, busy := true }
    if redundancy v.prot < v.failedCount then s.importFail p 4
    else ((s.setPool p v).when (decide (segCap < n)) (State.occur S.PLCE_CAP_CLIPPED)).syncPool p

/-- Phase 2: the open-stripe log of the first source (Table 13.11), and the loss list. -/
def State.importLog (p : Nat) (x : ImportIn) (s : State) : State :=
  let src1 := decide (s.get pgJrnl F.JRNL_RESTORE_STAT_JRNL_SRC ≠ 0)
  let src := match x.osl with
    | some _ => if src1 then 1 else 2
    | none => 3
  let lab := ((s.labelsOf p).map Prod.snd).foldl (fun (b : Option PoolLabel) l => match b with
    | some y => if y.gen < l.gen then some l else b
    | none => some l) none
  let o := match x.osl with
    | some y => y
    | none => match lab with
      | some l => (l.open0, 0, l.open1, 0)
      | none => (0, 0, 0, 0)
  let mk := fun (n w k : Nat) (t : State) => if n = 0 then t else t.setSeg p n { state := 1, stream := k, written := w }
  let loss := x.losses.map fun e => (⟨e.1, e.2.1, e.2.2.1, e.2.2.2.1, e.2.2.2.2.1, e.2.2.2.2.2⟩ : LossEnt)
  ((((mk o.2.2.1 o.2.2.2 1 (mk o.1 o.2.1 0 s)).onPool p fun v => { v with oslSrc := src, phase := 3, loss := loss }).when (decide (src = 3))
    (State.occur (S.STRP_IMPORT_SCRUB.on p)))).syncPool p

/-- Phase 3: the directory, the map, and the segment table that follows from it; copies of a page that are behind are rewritten (R483),
pinned pages stand in frames (R485). -/
def State.importMap (p : Nat) (x : ImportIn) (s : State) : State :=
  let ps := x.pages.filter fun e => decide (s.volPool e.1 = p ∧ e.2.2.1 ≠ 0)
  let key := fun (e : Nat × Nat × Nat × Nat × Nat) => e.1 * 2 ^ 29 + e.2.1
  let keys := ps.map key
  let es := x.entries.filter fun e => keys.contains (pageKey e.1 e.2.1)
  let s1 := s.onPlce fun y => { y with
    slots := ps.foldl (fun m e => m.set (key e) e.2.2.1) y.slots
    trail := ps.foldl (fun m e => m.put (key e) (0, 0) e.2.2.2) y.trail
    map := es.foldl (fun m e => m.put (mapKey e.1 e.2.1) entUnmapped (withBits e.2.2 4 1 0)) y.map }
  let s2 := (x.stale.filter fun e => keys.contains (e.1 * 2 ^ 29 + e.2.1)).foldl (fun t e => t.rewriteCopy (e.1 * 2 ^ 29 + e.2.1) (e.2.2 % 3)) s1
  let named := ((es.map fun e => meSeg e.2.2).uniq).filter fun n => decide (n ≠ 0)
  let s3 := named.foldl (fun t n => if (t.seg p n).state = 0 then t.setSeg p n { state := 2, closeS := t.ptp.sec % 2 ^ 32 } else t) s2
  let pinned := keys.filter fun k => s.volPinned (pageVol k)
  ((pinned.foldl (fun t k => t.fillFrame k) s3).onPool p fun v => { v with phase := 4 }).syncPool p

/-- An open segment is closed (R543): each stripe that is not kept is written as a padding stripe, zero data and a summary of no unit, and
the segment is SEALED once all are written. -/
def State.padSegment (p : Nat) (x : ImportIn) (n : Nat) (s : State) : State :=
  let g := s.seg p n
  let kept := if (s.pool p).oslSrc = 1 then g.written else g.written ||| (if g.stream = 0 then x.kept0 else x.kept1) % 2 ^ 64
  let torn := (List.range 64).filter fun t => !bitAt kept t
  if torn.isEmpty then (s.setSeg p n { g with state := 2, written := kept, closeS := s.ptp.sec % 2 ^ 32 }).settleSeg p n
  else torn.foldl (fun t k => (t.count (E.STRP_PADDING_STRIPES.on p) 1).issueStripe { pool := p, seg := n, t := k, stream := g.stream })
    (s.setSeg p n { g with written := kept, pad := g.pad + 128 * (s.pool p).d * torn.length })

/-- Phase 4: both open segments are closed, then the streams take fresh ones. -/
def State.importClose (p : Nat) (x : ImportIn) (s : State) : State :=
  let opens := (s.usedSegs p).filter fun n => decide ((s.seg p n).state = 1)
  if opens.isEmpty then (((s.takeSeg p 0).takeSeg p 1).onPool p fun v => { v with phase := 5 }).syncPool p
  else if s.plce.writing.any fun y => decide (y.pool = p) then s
  else opens.foldl (fun t n => t.padSegment p x n) s

/-- The segments of a cyclic range from one up to, but not including, another (R534). From a segment up to itself it is the whole cycle: a
position that needs nothing is ONLINE (DEDUCED, log entry 83). -/
def inCycle (lo hi n : Nat) : Bool := if lo < hi then decide (lo ≤ n ∧ n < hi) else decide (lo ≤ n ∨ n < hi)

/-- Phase 5: the pool enters its state; the rebuild goes on from CURSOR, and FAILED positions take spares; what has lost more than the
redundancy enters the loss list (R517). A need set that the mirror holds is used as held (R527, R529); others follow from the labels (R534). -/
def State.importEnd (p : Nat) (s : State) : State :=
  let v := s.pool p
  if redundancy v.prot < v.failedCount then s.importFail p 4
  else
    let used := s.usedSegs p
    let rb := (List.range v.members.length).filter fun i => decide ((v.member i).state = 2)
    let seg := v.cursor / 64 + 1
    let need := rb.foldl (fun (m : SMap (List Nat)) i => m.set i (match v.need.find i with
      | some l => l
      | none => used.filter (inCycle seg (v.member i).start))) {}
    let s1 := s.setPool p { v with
      state := v.settled, phase := 0, busy := false, need := need, rbState := if rb.isEmpty then 0 else 1
      joined := rb.filter fun i => decide ((v.member i).start ≠ seg + 1)
      mapLeft := rb.foldl (fun (m : SMap (List Nat)) i => m.set i (s.slotsAt p i)) {} }
    let s2 := ((List.range v.members.length).filter fun i => decide ((v.member i).state = 3)).foldl (fun t i => t.takeSpare p i) s1
    ((((s2.memberLoss p).settleRebuild p).settlePool p).opStatus p 0).syncJrnl

def execImportPhaseComplete (pool : Nat) (found : ImportIn) (s : State) : Result :=
  .next (let v := s.pool pool
    if 4 ≤ pool ∨ !v.busy then s
    else if v.state = 0 then (if (s.fab.page pgJrnl).state = .starting then s
      else (s.onPool pool fun x => { x with state := 1, phase := 1 }).syncPool pool)
    else match v.phase with
      | 1 => s.importLabels pool
      | 2 => s.importLog pool found
      | 3 => s.importMap pool found
      | 4 => s.importClose pool found
      | 5 => s.importEnd pool
      | _ => s)

/-! ### Rebuild (R528 to R538) -/

/-- The first segment of a need set at or after n, wrapping. -/
def PoolRt.nextNeed (v : PoolRt) (n : Nat) : Option Nat :=
  let all := (v.need.vals.flatten).mergeSort fun a b => decide (a ≤ b)
  (all.find? fun k => decide (n ≤ k)).orElse fun _ => all.head?

/-- The rebuild stands at a stripe that some position needs. -/
def State.rebuildAt (p : Nat) (s : State) : State :=
  let v := s.pool p
  let seg := v.cursor / 64 + 1
  if v.need.any fun _ l => l.contains seg then
    (if v.cursor % 64 = 0 then s.onPool p fun x => { x with joined := (x.need.list.filter fun e => e.2.contains seg).map Prod.fst } else s)
  else match v.nextNeed seg with
    | none => s
    | some n => s.onPool p fun x => { x with
      cursor := stripeNo n 0, joined := (x.need.list.filter fun e => e.2.contains n).map Prod.fst }

/-- Rows lost at a stripe: those where the erasures, the unreadable rows with them, exceed the redundancy (R536). -/
def PoolRt.lostRows (v : PoolRt) (er : List Nat) (bad : List (Nat × Nat)) : List Nat :=
  (List.range 16).filter fun k => v.tooMany (er ++ (bad.filter fun e => bitAt e.2 k && !er.contains e.1).map Prod.fst)

/-- A strip of a role from strips that are known, by role (R509, R530). -/
def PoolRt.stripFrom (v : PoolRt) (known : List (Nat × Nat)) (role : Nat) : Nat :=
  if isMirror v.prot then ((known.find? fun e => decide (e.1 % v.d = role % v.d)).map Prod.snd).getD 0
  else
    let miss := (List.range v.d).filter fun r => !known.any fun e => decide (e.1 = r)
    let datum := fun (r : Nat) => match known.find? fun e => decide (e.1 = r) with
      | some e => e.2
      | none => recover 65536 v.d r (miss.find? fun x => decide (x ≠ r)) known
    v.strip (((List.range v.d).map fun r => datum r * 2 ^ (524288 * r)).sum) role
/-- One row of it, from the rows of the strips that are known: the arithmetic is byte by byte. -/
def PoolRt.rowFrom (v : PoolRt) (known : List (Nat × Nat)) (role : Nat) : Nat := v.stripFrom known role % 2 ^ 32768
/-- A strip with some of its rows zero. -/
def zeroRows (rows : List Nat) (x : Nat) : Nat :=
  ((List.range 16).map fun k => if rows.contains k then 0 else bytesAt x (4096 * k) 4096 * 2 ^ (32768 * k)).sum

/-- A rebuild writes something at a position: its bytes are kept until the drive has them. -/
def State.rebuildWrite (e : RbWrite) (off len : Nat) (s : State) : State :=
  (s.onStrp fun x => { x with rebuilt := x.rebuilt ++ [e] }).drvWrite ((s.pool e.pool).member e.pos).bay (.rebuilt e.pool e.map e.what e.pos)
    { use := .rebuilt e.pool e.map e.what e.pos, isWrite := true, cls := 0, offset := off, bytes := len }

/-- The first map slot copy that a REBUILDING position lacks: position and slot (R528). -/
def PoolRt.nextMapCopy (v : PoolRt) : Option (Nat × Nat) :=
  (List.range v.members.length).findSome? fun i => if (v.member i).state = 2 then ((v.mapLeft.get i []).head?).map fun n => (i, n) else none
/-- Map region slot copies come first: each is read from another copy of its slot (R528). -/
def State.rebuildMap (p pos slot : Nat) (s : State) : State :=
  let v := s.pool p
  let mine := ((List.range 3).find? fun k => decide (v.mapPos slot k = pos)).getD 0
  if s.strp.rebuilt.any fun e => decide (e.pool = p) then s
  else match s.mapCopyFor p slot [] with
    | none => s
    | some c =>
      let r := s.bgRead 3 p 0 slot 9216 [((v.member (v.mapPos slot c)).bay, v.mapOffset slot c, 4608)]
      match r.1 with
      | none => r.2
      | some got => match got.head?.bind id with
        | none => r.2
        | some d => ((r.2.emit (.mapPage p slot mine ⟨4608, d⟩)).count (E.STRP_REBUILD_BYTES.on p) 9216).rebuildWrite ⟨p, true, slot, pos, d⟩
            (v.mapOffset slot mine) 4608

/-- The cursor leaves a stripe that is rebuilt; after the last of its segment the positions that took part need the segment no more (R529,
R530, R532). -/
def State.rebuildNext (p : Nat) (s : State) : State :=
  let v := s.pool p
  let seg := v.cursor / 64 + 1
  let s2 := s.onPool p fun x => { x with cursor := v.cursor + 1, rbWrote := false }
  if v.cursor % 64 = 63 then
    ((s2.onPool p fun x => { x with need := x.need.mapVals fun i l => if v.joined.contains i then l.filter fun n => decide (n ≠ seg) else l }).onPool p fun x =>
      match x.nextNeed (seg + 1) with
      | some n => { x with cursor := stripeNo n 0 }
      | none => x).settleRebuild p
  else s2.syncPool p

/-- The strips of the cursor's stripe have been read, each by its role; none where its drive could not. The strips that are rebuilt are
written, lost rows as zeros (R530, R535, R536). Where a strip could not be read whole, what the rows that R509 then asks of the other
positions give is left free (DESIGN CHOICE, log entry 87). -/
def State.rebuildStrips (p : Nat) (bad : List (Nat × Nat)) (known : List (Nat × Option Nat)) (writers : List Nat) (bytes : Nat) (s : State) : State :=
  let v := s.pool p
  let st := v.cursor
  let er := (List.range v.w).filter fun r => !v.intact st (v.posOf st r)
  let gone := (known.filter fun e => e.2.isNone).map fun e => (e.1, ((bad.find? fun x => decide (x.1 = e.1)).map Prod.snd).getD 0xFFFF)
  let lost := v.lostRows er gone
  let t := (s.count (E.STRP_REBUILD_STRIPES.on p) 1).count (E.STRP_REBUILD_BYTES.on p) bytes
  let mended := gone.flatMap fun e => ((List.range 16).filter fun k => bitAt e.2 k && !lost.contains k).map fun k => (e.1, k)
  let t1 := mended.foldl (fun u e => (((u.count (E.STRP_ROW_REPAIR.on p) 1).occur (S.STRP_ROW_REPAIRED.on p)).rewriteRows p st e.1 (8 * e.2) 8 none)) t
  let t2 := if lost.isEmpty then t1
    else (t1.addLoss p ⟨st, 1, ((er ++ gone.map Prod.fst).uniq.map fun r => 2 ^ r).sum, 2, (lost.map fun k => 2 ^ k).sum, false⟩).occur
      (S.STRP_DATA_LOSS.on p)
  let have_ := known.filterMap fun e => e.2.map fun d => (e.1, d)
  (writers.foldl (fun u i =>
    let r := v.roleOf st i
    let x : Nat × State := if gone.isEmpty then (v.stripFrom have_ r, u) else u.draw
    let d := zeroRows lost (x.1 % 2 ^ 524288)
    (x.2.emit (.strip p st r ⟨65536, d⟩)).rebuildWrite ⟨p, false, st, i, d⟩ (v.stripOffset st) 65536) t2).onPool p fun x => { x with rbWrote := true }

/-- The positions that are rebuilt at the cursor's stripe. -/
def PoolRt.rebuildWriters (v : PoolRt) : List Nat := v.joined.filter fun i => (v.need.get i []).contains (v.cursor / 64 + 1)
/-- The roles that are read for them: of a mirrored pool a copy of each strip, of the others the first D strips (R530). -/
def PoolRt.rebuildSources (v : PoolRt) : List Nat :=
  let whole := (List.range v.w).filter fun r => v.intact v.cursor (v.posOf v.cursor r)
  if isMirror v.prot then ((v.rebuildWriters.map fun i => v.roleOf v.cursor i % max 1 v.d).uniq).filterMap fun k =>
      whole.find? fun r => decide (r % max 1 v.d = k)
    else whole.take v.d
/-- The bytes that a stripe costs the rebuild. -/
def PoolRt.rebuildBytes (v : PoolRt) : Nat := (v.rebuildSources.length + v.rebuildWriters.length) * 65536
/-- The read of the cursor's stripe. -/
def State.rebuildRead (p : Nat) (s : State) : Option (List (Option Nat)) × State :=
  let v := s.pool p
  s.bgRead 2 p (v.cursor / 64 + 1) v.cursor v.rebuildBytes
    (v.rebuildSources.map fun r => ((v.member (v.posOf v.cursor r)).bay, v.stripOffset v.cursor, 65536))

/-- One stripe of the rebuild (R530, R531, R536): its strips are read once, then written; the cursor leaves it when they are. `bad`: of a
strip that a drive could not read, its role and the mask of its unreadable rows. -/
def State.rebuildStripe (p : Nat) (bad : List (Nat × Nat)) (s0 : State) : State :=
  if s0.strp.rebuilt.any fun e => decide (e.pool = p) then s0
  else match (s0.pool p).nextMapCopy with
    | some e => s0.rebuildMap p e.1 e.2
    | none =>
      let s := (if (s0.pool p).rbWrote then s0.rebuildNext p else s0).rebuildAt p
      let v := s.pool p
      let st := v.cursor
      let seg := st / 64 + 1
      let g := s.seg p seg
      if v.rbState ≠ 1 then s
      else if g.state = 0 ∨ v.rebuildWriters.isEmpty ∨ (g.state = 1 ∧ !bitAt g.written (st % 64)) then s.rebuildNext p
      else
        let r := s.rebuildRead p
        match r.1 with
        | none => r.2
        | some got => r.2.rebuildStrips p bad (v.rebuildSources.zip got) v.rebuildWriters v.rebuildBytes

def execRebuildStripe (pool : Nat) (bad : List (Nat × Nat)) (s : State) : Result :=
  .next (let v := s.pool pool
    if 4 ≤ pool ∨ s.saving then s
    else if !v.usable ∨ !s.isOn (pgPool pool) then
      (if v.rbState = 1 then ((s.onPool pool fun x => { x with rbState := 2 }).relabel pool false).syncPool pool else s)
    else if v.rbState = 2 then (s.onPool pool fun x => { x with rbState := 1 }).syncPool pool
    else if v.rbState = 1 then s.rebuildStripe pool bad
    else s)

/-- R507, R534. -/
def execRebuildCheckpoint (pool : Nat) (s : State) : Result :=
  .next (s.when (decide (pool < 4) && decide ((s.pool pool).rbState ≠ 0)) (State.relabel pool false))

/-! ### Loss (R517 to R519) -/

/-- A unit's granules of its stripe touch a lost row of a lost data role. -/
def hitsLoss (v : PoolRt) (e : LossEnt) (entry : Nat) : Bool :=
  let st := stripeNo (meSeg entry) (meGoff entry / (128 * max 1 v.d))
  mePhys entry && decide (e.first ≤ st ∧ st < e.first + e.count) &&
    (pieces v.d (meGoff entry) [(0, meGlen entry)]).any fun x =>
      ((List.range v.w).any fun r => v.lossRole e st r && decide (if isMirror v.prot then r % v.d = x.strip else r = x.strip)) &&
        (List.range x.count).any fun i => bitAt e.rows ((x.off + i) / 8)

/-- Units become DAMAGED, with one deferred error record for each contiguous range (R266, R518). -/
def State.damageUnits (p cause : Nat) (us : List (Nat × Nat)) (s : State) : State :=
  (us.foldl (fun t e => (t.commitEntry e.1 e.2 entDamaged 0).count (E.STRP_LOSS_UNITS.on p) 1) s).unitErrs cause us

/-- A stripe has been written. -/
def State.stripeIs (s : State) (p st : Nat) : Bool :=
  let g := s.seg p (st / 64 + 1)
  decide (g.state ≠ 0) && (decide (g.state ≠ 1) || bitAt g.written (st % 64))
/-- The rows that make the stripes of a loss consistent again (R518): stripe, role, row. The lost data rows become zero, P and Q follow, at
every position that is not FAILED. -/
def State.lossRows (s : State) (p : Nat) (e : LossEnt) : List (Nat × Nat × Nat) :=
  let v := s.pool p
  let role := fun (st r : Nat) => if isMirror v.prot then (List.range v.w).any fun q => v.lossRole e st q && decide (q % v.d = r % v.d)
    else decide (v.d ≤ r) || v.lossRole e st r
  (((List.range e.count).map (e.first + ·)).filter (s.stripeIs p)).flatMap fun st =>
    ((List.range v.w).filter fun r => role st r && decide ((v.member (v.posOf st r)).state = 1 ∨ (v.member (v.posOf st r)).state = 2)).flatMap fun r =>
      (bitsIn 16 e.rows).map fun k => (st, r, k)

/-- The units of a loss, as its stripes still name them, become DAMAGED (R518 step 2). -/
def State.lossUnits (p : Nat) (e : LossEnt) (s : State) : State :=
  let us := ((s.poolEntries p).filter fun x => hitsLoss (s.pool p) e x.2).map fun x => (mapVol x.1, x.1 % 2 ^ 38)
  (s.damageUnits p e.cause us).occur (S.STRP_DATA_LOSS.on p)

/-- A loss is handled (R518), once the rebuild leaf has admitted the rows that it writes. A loss that found the list full has step 2 alone
(R519); its index counts on from the list's end. -/
def State.lossHandle (p i : Nat) (s : State) : State :=
  let v := s.pool p
  match v.loss[i]? with
  | none => (match v.unlisted[i - 32256]? with
    | none => s
    | some e => if i < 32256 then s else (s.lossUnits p e).onPool p fun x => { x with unlisted := x.unlisted.eraseIdx (i - 32256) })
  | some e =>
    if e.done then s
    else
      let rows := s.lossRows p e
      let adm := if rows.isEmpty then (true, s) else s.bgTake p 2 (4096 * rows.length)
      if !adm.1 then adm.2
      else
        let s1 := rows.foldl (fun t x => t.rewriteRows p x.1 x.2.1 (8 * x.2.2) 8 (if isMirror v.prot ∨ x.2.1 < v.d then some 0 else none))
          (adm.2.lossUnits p e)
        s1.setLoss p ((s1.pool p).loss.set i { e with done := true })

def execLossHandle (pool index : Nat) (s : State) : Result := .next (if pool < 4 then s.lossHandle pool index else s)

/-! ### The Turner (R544 to R547) -/

def gfLog (x : Nat) : Nat := ((List.range 255).find? fun i => decide (gfPow i = x)).getD 0

/-- What one row's comparison came to. -/
inductive Located
  | consistent | at (role : Nat) | multiple
deriving DecidableEq, Repr

/-- The role that one byte position names (the procedure of R545), for a P+Q row. -/
def locateByte (d sp sq : Nat) : Located :=
  if sp = 0 ∧ sq = 0 then .consistent
  else if sp = 0 then .at (d + 1)
  else if sq = 0 then .at d
  else
    let z := (gfLog sq + 255 - gfLog sp) % 255
    if d ≤ z then .multiple else .at z
def Located.join : Located → Located → Located
  | .consistent, x => x
  | x, .consistent => x
  | .at a, .at b => if a = b then .at a else .multiple
  | _, _ => .multiple

/-- Compare one row, given by role (R545). -/
def locateRow (prot d : Nat) (rows : List Nat) : Located :=
  if prot = 0 then
    (List.range 4096).foldl (fun acc b =>
      let pq := pqByte ((List.range d).map fun i => byteAt (rows.getD i 0) b)
      acc.join (locateByte d (byteAt (rows.getD d 0) b ^^^ pq.1) (byteAt (rows.getD (d + 1) 0) b ^^^ pq.2))) .consistent
  else if prot = 1 then
    (if (List.range 4096).all fun b => decide ((pqByte ((List.range d).map fun i => byteAt (rows.getD i 0) b)).1 = byteAt (rows.getD d 0) b) then
      .consistent else .multiple)
  else if prot = 2 then
    (if (List.range d).all fun i => decide (rows.getD i 0 = rows.getD (i + d) 0) then .consistent else .multiple)
  else (List.range d).foldl (fun acc i =>
    let a := rows.getD i 0
    let b := rows.getD (i + d) 0
    let c := rows.getD (i + 2 * d) 0
    acc.join (if a = b ∧ b = c then .consistent else if a = b then .at (i + 2 * d) else if a = c then .at (i + d) else if b = c then .at i
      else .multiple)) .consistent

/-- A record of the Turner log (R547). -/
def State.turnerLog (p st row result role : Nat) (s : State) : State :=
  s.onPool p fun v => { v with
    turnerLog := v.turnerLog.set v.turnerNext (s.timeStamp + st * 2 ^ 64 + row * 2 ^ 96 + result * 2 ^ 104 + role * 2 ^ 112)
    turnerNext := (v.turnerNext + 1) % 64 }

/-- The first written stripe at or after one, none to the end of the pool. -/
def State.nextWritten (s : State) (p st : Nat) : Option Nat :=
  (((s.usedSegs p).filter fun n => decide (st / 64 + 1 ≤ n)).flatMap fun n => (List.range 64).map fun t => stripeNo n t).find? fun k =>
    decide (st ≤ k) && s.stripeIs p k

/-- The next row: of this stripe, of the next one written, or of the first after a wrap, which counts a pass (R544). -/
def State.turnerMove (p : Nat) (s : State) : State :=
  let v := s.pool p
  if v.turnerRow < 15 then s.onPool p fun x => { x with turnerRow := x.turnerRow + 1 }
  else match s.nextWritten p (v.turnerCursor + 1) with
    | some k => s.onPool p fun x => { x with turnerRow := 0, turnerCursor := k }
    | none => s.onPool p fun x => { x with
      turnerRow := 0, turnerCursor := (s.nextWritten p 0).getD 0, turnerPass := (x.turnerPass + 1) % 2 ^ 32 }

/-- The units of a stripe with a granule in a row. -/
def State.unitsIn (s : State) (p st row : Nat) : List (Nat × Nat) :=
  let v := s.pool p
  ((s.poolEntries p).filter fun x => mePhys x.2 && decide (stripeNo (meSeg x.2) (meGoff x.2 / (128 * max 1 v.d)) = st) &&
    (pieces v.d (meGoff x.2) [(0, meGlen x.2)]).any fun y => (List.range y.count).any fun i => decide ((y.off + i) / 8 = row)).map fun x =>
      (mapVol x.1, x.1 % 2 ^ 38)
/-- A unit's own rows are rewritten: they were bad, and its reconstruction has passed its check (R516). -/
def State.mendUnit (p st : Nat) (u : Nat × Nat) (s : State) : State :=
  let v := s.pool p
  let e := s.entry u.1 u.2
  (pieces v.d (meGoff e) [(0, meGlen e)]).foldl (fun t x => t.rewriteRows p st x.strip x.off x.count none) s

/-- What the Turner does with one row (Table 13.12). `rows` holds the row of each role, none where the drive could not read it. Of the
units in a row that is MULTIPLE, `mended` fail their check and pass it when reconstructed, `failed` fail even then. -/
def State.turnerRow (p : Nat) (rows : List (Option Nat)) (mended failed : List (Nat × Nat)) (s : State) : State :=
  let v := s.pool p
  let st := v.turnerCursor
  let row := v.turnerRow
  let gone := (List.range v.w).filter fun r => (rows.getD r none).isNone
  let known := (List.range v.w).filterMap fun r => (rows.getD r none).map fun x => (r, x)
  let s1 :=
    if !gone.isEmpty then
      if v.tooMany gone then
        (s.addLoss p ⟨st, 1, (gone.map fun r => 2 ^ r).sum, 2, 2 ^ row, false⟩).occur (S.STRP_DATA_LOSS.on p)
      else gone.foldl (fun t r => ((t.count (E.STRP_ROW_REPAIR.on p) 1).occur (S.STRP_ROW_REPAIRED.on p)).rewriteRows p st r (8 * row) 8
        (some (v.rowFrom known r))) s
    else match locateRow v.prot v.d (rows.map fun r => r.getD 0) with
      | .consistent => s.count (E.STRP_TURNER_ROWS.on p) 1
      | .at r => (((s.count (E.STRP_SCRUB_CORRECTED.on p) 1).occur (S.STRP_SCRUB_CORRECTED.on p)).turnerLog p st row 1 r).rewriteRows p st r
          (8 * row) 8 (some (v.rowFrom (known.filter fun e => decide (e.1 ≠ r)) r))
      | .multiple =>
        let here := s.unitsIn p st row
        let us := here.filter failed.contains
        let ok := here.filter fun u => mended.contains u && !us.contains u
        let t := ((s.count (E.STRP_SCRUB_UNRESOLVED.on p) 1).occur (S.STRP_SCRUB_UNRESOLVED.on p)).turnerLog p st row
          (if us.isEmpty then 2 else 3) 0xFF
        let t1 := ok.foldl (fun u x => u.mendUnit p st x) (t.count (E.STRP_CRC_RECON.on p) (ok.length + us.length))
        let t2 := (us.foldl (fun u x => u.commitEntry x.1 x.2 entDamaged 0) t1).unitErrs 1 us
        ((List.range v.w).filter fun r => decide (v.d ≤ r)).foldl (fun u r => u.rewriteRows p st r (8 * row) 8
          (if ok.isEmpty then some (v.rowFrom (known.take v.d) r) else none)) t2
  (s1.turnerMove p).syncPool p

/-- The read of a row of a stripe, from every position (R544). -/
def State.turnerRead (p st row : Nat) (s : State) : Option (List (Option Nat)) × State :=
  let v := s.pool p
  s.bgRead 1 p (st / 64 + 1) (16 * st + row) (4096 * v.w) ((List.range v.w).map fun r =>
    ((v.member (v.posOf st r)).bay, v.stripOffset st + 4096 * row, 4096))

def execTurnerRow (pool : Nat) (mended failed : List (Nat × Nat)) (s : State) : Result :=
  .next (let v := s.pool pool
    if 4 ≤ pool ∨ s.saving ∨ v.state ≠ 2 ∨ !s.flag (pgPool pool) F.POOL_CFG_TURNER_EN ∨ !s.isOn (pgPool pool) then s
    else match (if s.stripeIs pool v.turnerCursor then some v.turnerCursor else s.nextWritten pool v.turnerCursor) with
      | none => s
      | some k =>
        let row := if k = v.turnerCursor then v.turnerRow else 0
        let r := s.turnerRead pool k row
        let t := r.2.onPool pool fun x => { x with turnerRun := true, turnerCursor := k, turnerRow := row }
        match r.1 with
        | none => t.syncPool pool
        | some rows => t.turnerRow pool rows mended failed)

/-! ### Tables (R548, Tables 13.10, 13.14, 13.15, 13.16) -/

def State.memberEntry (s : State) (p i : Nat) : Nat :=
  let v := s.pool p
  if v.members.length ≤ i then 0
  else
    let m := v.member i
    m.bay + m.state * 2 ^ 8 + m.cause * 2 ^ 16 + boolNat (v.oslPos.contains i) * 2 ^ 24 + m.start * 2 ^ 32 + m.capacity * 2 ^ 64
/-- Table 1 of the common page, by bay. -/
def State.bayRole (s : State) (b : Nat) : Nat :=
  let at' := (List.range 4).findSome? fun p =>
    if decide ((s.pool p).state ≠ 0) && (s.pool p).spares.contains b then some (p, 2, 0xFF)
    else match s.placeOf b with
      | some (q, i) => if q = p then some (p, 1, i) else none
      | none => none
  let id := match s.strp.labels.find b with
    | some l => if l.role ≠ 0 then l.poolId else 0
    | none => 0
  match at' with
  | some (p, r, i) => p + r * 2 ^ 8 + i * 2 ^ 16 + id * 2 ^ 64
  | none => (if id ≠ 0 ∧ !((List.range 4).any fun p => decide (s.flag (pgPool p) F.POOL_CFG_DEFINED ∧ s.poolId p = id)) then 3 * 2 ^ 8 else 0) + id * 2 ^ 64

end Sys2Proof.Machine
end

