-- ==== Sys2Proof/Machine/DrvExec.lean ====
section
/-!
DEFINITION. The commands of DRVP: bring-up, requests and their outcomes, timeouts, resets, power states (chapter 14 of spec/).
-/
namespace Sys2Proof.Machine
open Sys2Proof

/-! ### What becomes of a request (R567) -/

/-- The cells that a read's data takes (Table 9.1). -/
def State.readKind (s : State) (b tag : Nat) (r : DrvReq) : UnitKind := match r.use with
  | .unit j i => (match (s.readJob j).map RUnit.for_ with
    | some (.slot n) => .readData n j i
    | some .press => .background 0 (((s.readJob j).map RUnit.pool).getD 0) j i
    | _ => .mergeRead j i)
  | .mapRead k => .mapRead k
  | .bg e p _ w i => .background e p w i
  | _ => .bgRead b tag
/-- The cells of a read that failed, or whose data nothing takes, are given back. -/
def State.dropBg (b tag : Nat) (r : DrvReq) (s : State) : State := let k := s.readKind b tag r
  s.dropKind fun x => decide (x = k)
/-- The cells of every read that a bay has outstanding. -/
def State.dropReads (b : Nat) (s : State) : State := (s.bay b).out.list.foldl (fun t e => t.dropBg b e.1 e.2) s

/-- The bays with drive requests of a slot outstanding (Table 6.5). -/
def State.baysOf (s : State) (n : Nat) : Nat :=
  let mine := fun (r : DrvReq) => match r.use with
    | .unit j _ => (match (s.readJob j).map RUnit.for_ with
      | some (.slot m) => decide (m = n)
      | _ => false)
    | .dropped m _ _ => decide (m = some n)
    | _ => false
  ((List.range 24).filter fun b => let v := s.bay b
    v.waiting.any mine || v.held.any mine || v.out.any fun _ r => mine r).foldl (fun x b => x + 2 ^ b) 0
/-- A drive request of a slot is over: DRV_OUT and BAY_MASK; the completion of one whose command is over is a late result (Table 6.4). -/
def State.slotBack (n : Nat) (completed : Bool) (s : State) : State :=
  let late := completed && (match s.slot n with
    | some x => x.orphan
    | none => true)
  (s.onSlot n fun x => { x with drvOut := x.drvOut - 1, bayMask := s.baysOf n }).when late (State.count E.CMDQ_LATE_DISCARD 1)
/-- A drive request of a unit has come back, with a completion or not: READS and the slot follow. -/
def State.partBack (j i : Nat) (q : RPart → RPart) (completed : Bool) (s : State) : State :=
  match s.readJob j with
  | none => s
  | some r =>
    let s1 := (s.setReadJob j { r with parts := r.parts.mapIdx fun k p => if k = i then q p else p }).onSeg r.pool (meSeg r.entry) fun g =>
      { g with reads := g.reads - 1 }
    match r.for_ with
    | .merge _ => s1
    | .press => s1
    | .slot n => s1.slotBack n completed

/-- Rows that a present member returned unreadable are rewritten once the unit has been reconstructed (R515). -/
def State.repairRows (j : Nat) (s : State) : State :=
  match s.readJob j with
  | none => s
  | some r =>
    let v := s.pool r.pool
    let bad := r.parts.filter RPart.media
    if bad.isEmpty ∨ r.lost then s
    else
      let s1 := bad.foldl (fun t p => (((t.count (E.STRP_ROW_REPAIR.on r.pool) ((p.start + p.count - 1) / 8 - p.start / 8 + 1)).occur
        (S.STRP_ROW_REPAIRED.on r.pool)).rewriteRows r.pool (r.stripe v) p.role p.start p.count none)) s
      s1.setReadJob j { r with parts := r.parts.map fun p => { p with media := false } }

/-- Every request of a unit has returned: repaired rows, a lost unit, or a command that is over. -/
def State.settleUnit (j : Nat) (s : State) : State :=
  match s.readJob j with
  | none => s
  | some r =>
    if !r.complete then s
    else
      let ends : Bool := match r.for_ with
        | .slot n => (match s.slot n with
          | some x => decide (x.state ≠ .started)
          | none => true)
        | .merge _ => false
        | .press => false
      if ends then s.endRead j r
      else if r.lost then s.loseRead j r (cplErr 0 0xC3 true)
      else s.repairRows j

/-- A unit's part could not be read: it counts as erased, and others are read for it (R513, R514); rows beyond the redundancy are lost. -/
def State.partLost (j i : Nat) (media completed : Bool) (s : State) : State :=
  let s1 := s.partBack j i (fun p => { p with bad := true, media := media }) completed
  match s1.readJob j with
  | none => s1
  | some r =>
    let bad := ((r.parts.filter RPart.bad).map RPart.role).uniq
    match s1.askParts j bad with
    | some t => t.settleUnit j
    | none =>
      let v := s1.pool r.pool
      let rows := ((r.parts.filter RPart.bad).flatMap fun p => (List.range p.count).map fun k => (p.start + k) / 8).uniq
      let er := ((List.range v.w).filter fun k => !v.intact (r.stripe v) (v.posOf (r.stripe v) k) || bad.contains k)
      let s2 := if media then ((s1.addLoss r.pool ⟨r.stripe v, 1, (er.map fun k => 2 ^ k).sum, 2, (rows.map fun k => 2 ^ k).sum, false⟩).occur
          (S.STRP_DATA_LOSS.on r.pool)).syncPool r.pool else s1
      (s2.setReadJob j { r with lost := true }).settleUnit j

/-- The request of pushed-out data is over. -/
def State.dropBack (slot : Option Nat) (p seg : Nat) (completed : Bool) (s : State) : State :=
  let s1 := s.when (decide (seg ≠ 0)) (State.onSeg p seg fun g => { g with reads := g.reads - 1 })
  match slot with
  | some n => (s1.slotBack n completed).workReturned n
  | none => s1

/-- A request fails to its user (R567), `completed` by an entry of the drive or not. -/
def State.failUser (b : Nat) (r : DrvReq) (media completed : Bool) (s : State) : State := match r.use with
  | .unit j i => s.partLost j i media completed
  | .repair _ _ _ _ => s.dropWrite r.use
  | .dropped n p g => s.dropBack n p g completed
  | .bg _ _ _ _ _ => s.bgBack b r none
  | u => (s.onStrp fun x => { x with done := x.done ++ [(u, false)] }).dropWrite u
def State.reqFail (b : Nat) (r : DrvReq) (completed : Bool) (s : State) : State := (s.count (E.DRVP_REQ_FAIL.on b) 1).failUser b r false completed

/-- Retry under R567, or fail to its user. -/
def DrvUse.isDropped : DrvUse → Bool
  | .dropped _ _ _ => true
  | _ => false
def State.drvRetry (b : Nat) (r : DrvReq) (completed : Bool) (s : State) : State :=
  if r.use.isDropped then s.failUser b r false completed
  else if r.retries < s.get (pgDrvp b) F.DRV_TO_RETRY_MAX then
    (s.drvSubmit b { r with retries := r.retries + 1, waited := false }).count (E.DRVP_RETRY.on b) 1
  else s.reqFail b r completed

/-- DRAINING, removal (R574, R575): every outstanding and waiting request fails to its user. -/
def State.bayDrain (b : Nat) (s : State) : State :=
  let v := s.bay b
  let all := v.out.vals ++ v.waiting ++ v.held
  let s1 := ((s.dropReads b).setBay b { v with waiting := [], held := [], out := {}, filled := {} }).syncBay b
  all.foldl (fun t r => t.reqFail b r false) s1

/-- The drive stands down: not READY, link down (Table 14.7). -/
def State.bayDown (b nvme : Nat) (s : State) : State :=
  let p := pgDrvp b
  (((s.setF p F.BAY_STAT_READY 0).setF p F.BAY_STAT_LINK_UP 0).setF p F.BAY_STAT_NVME nvme).onBay b fun v => { v with ident := 0 }

/-- The page's errors have crossed a limit (R574): DRAINING to RETIRED, and its pools lose the bay. -/
def State.driveRetire (b : Nat) (s : State) : State :=
  if !s.isOn (pgDrvp b) then s
  else (((s.pageEv (pgDrvp b) .threshold).occur (S.DRVP_DRIVE_RETIRED.on b)).bayDrain b).bayLost b
/-- A count exceeds its limit (R574). Firmware acts on it at its next evaluation (R657). -/
def State.errsOver (s : State) (b : Nat) : Bool :=
  let p := pgDrvp b
  decide (s.get p F.DRV_ERR_TO_LIMIT < s.get p F.BAY_ERRCNT_TO ∨ s.get p F.DRV_ERR_RESET_LIMIT < s.get p F.BAY_ERRCNT_RESETS ∨
    s.get p F.DRV_ERR_MEDIA_LIMIT < s.get p F.BAY_ERRCNT_MEDIA)

/-! ### Resets (R572, R573) -/

/-- A drive reset of a level starts: what is outstanding is failed internally and kept for a retry after READY. -/
def State.driveReset (b level : Nat) (s : State) : State :=
  let p := pgDrvp b
  let v := s.bay b
  let maxR := s.get p F.DRV_TO_RETRY_MAX
  let keep := v.out.vals.filter fun r => decide (r.retries < maxR)
  let lose := v.out.vals.filter fun r => !decide (r.retries < maxR)
  let s1 := ((s.dropReads b).setBay b { v with
      out := {}, filled := {}, held := v.held ++ keep, resetLevel := level, toRow := 0, psPending := 0
      resetTimes := s.now :: v.resetTimes, perst := v.perst || decide (level = 2) }).syncBay b
  let s2 := ((s1.setF p F.BAY_STAT_READY 0).setF p F.BAY_STAT_NVME 3).setF p F.BAY_STAT_PS 0
  let s3 := if level = 1 then (s2.emit (.driveDisable b)).count (E.DRVP_RESET1.on b) 1
    else ((s2.setF p F.BAY_STAT_LINK_UP 0).emit (.drivePerst b true)).count (E.DRVP_RESET2.on b) 1
  ((lose.foldl (fun t r => t.reqFail b r false) (s3.drvRecord b 7 level 0 0))).syncErrs b

def execBayReset1 (bay : Nat) (s : State) : Result :=
  .next (s.when (decide (bay < 24) && s.isOn (pgDrvp bay) && decide ((s.bay bay).resetLevel = 0)) (State.driveReset bay 1))
def execBayReset2 (bay : Nat) (s : State) : Result :=
  .next (s.when (decide (bay < 24) && s.isOn (pgDrvp bay) && decide ((s.bay bay).resetLevel < 2)) (State.driveReset bay 2))
/-- A level 1 reset has not reached READY within CAP.TO. -/
def execReset1Timeout (bay : Nat) (s : State) : Result :=
  .next (s.when (decide ((s.bay bay).resetLevel = 1)) (State.driveReset bay 2))
/-- A level 2 reset has not reached READY within 2 s: the error threshold at once. -/
def execReset2Timeout (bay : Nat) (s : State) : Result :=
  .next (s.when (decide ((s.bay bay).resetLevel = 2)) (State.driveRetire bay))

/-! ### Presence, link, bring-up (R553 to R557, R575, R582) -/

/-- DRIVE_REMOVAL (R575). -/
def State.driveRemoved (b : Nat) (s : State) : State :=
  let s1 := (s.bayDrain b).bayDown b 0
  let s2 := (s1.onBay b fun v => { v with quar := [], resetLevel := 0, perst := true, psPending := 0 }).syncBay b
  (s2.onFab (Fab.pageOff (pgDrvp b))).bayLost b

/-- The debounced presence changes (R554, R582). -/
def State.presence (b : Nat) (present : Bool) (s : State) : State :=
  let p := pgDrvp b
  if s.flag p F.BAY_STAT_PRESENT = present then s
  else
    let s1 := (s.setF p F.BAY_STAT_PRESENT (boolNat present)).count (E.DRVP_PRESENCE.on b) 1
    if present then s1.when (s.flag p F.DRV_CFG_AUTO_EN) (State.pageEv p .enable)
    else s1.driveRemoved b

/-- R554: PERST_MS after power-good. -/
def execPerstRelease (bay : Nat) (s : State) : Result :=
  .next (if (s.bay bay).perst ∧ s.flag (pgBayp bay) F.BAY_PWR_STAT_PG ∧
      ((s.fab.page (pgDrvp bay)).state = .starting ∨ (s.bay bay).resetLevel = 2) then
      (s.onBay bay fun v => { v with perst := false }).emit (.drivePerst bay false)
    else s)

/-- The link trains (R551, R552, R554): the highest rate that both ends support up to TARGET_GEN, coded as TARGET_GEN codes it; FLIT mode
at 64 GT/s and above, and at 32 GT/s where the drive advertises it; at 16 GT/s or below it is held down. -/
def execDriveLinkUp (bay gen width : Nat) (flit slow : Bool) (s : State) : Result :=
  .next (let p := pgDrvp bay
    let starting := decide ((s.fab.page p).state = .starting)
    if 24 ≤ bay ∨ (s.bay bay).perst ∨ !(starting || decide ((s.bay bay).resetLevel = 2)) then s
    else if slow then s.occur (S.DRVP_LINK_SLOW.on bay)
    else
      let rate := min (min gen 2) (s.get p F.DRV_CFG_TARGET_GEN)
      let s1 := ((((s.setF p F.BAY_STAT_LINK_UP 1).setF p F.BAY_STAT_GEN rate).setF p F.BAY_STAT_WIDTH
        (if 4 ≤ width then 4 else if 2 ≤ width then 2 else 1)).setF p F.BAY_STAT_FLIT (boolNat (flit || decide (1 ≤ rate))))
      if starting then (s1.setF p F.BAY_STAT_NVME 1).pageEv p .startDone else s1)

/-- Mode 2: the drive moves by itself to PS_TARGET after IDLE_MS (R576). -/
def State.driveApst (b : Nat) (s : State) : State :=
  let p := pgDrvp b
  s.emit (.driveApst b (if s.get p F.DRV_PS_MODE = 2 then some (s.get p F.DRV_PS_PS_TARGET, s.get p F.DRV_PS_IDLE_MS) else none))

/-- The drive is READY, or UNFIT (R555, Table 14.2). -/
def State.driveReady (b : Nat) (i : DriveInfo) (s : State) : State :=
  let p := pgDrvp b
  if i.unfit ≠ 0 then ((s.setF p F.BAY_STAT_NVME 4).setF p F.BAY_STAT_UNFIT_CODE i.unfit).occur (S.DRVP_DRIVE_UNFIT.on b)
  else
    let q := min 64 i.queues
    let s1 := (((((s.setF p F.BAY_STAT_NVME 2).setF p F.BAY_STAT_READY 1).setF p F.BAY_STAT_UNFIT_CODE 0).setF p F.BAY_STAT_PS 0).setF p
      F.BAY_LIMIT_IOQ q).setF p F.BAY_LIMIT_LIMIT (64 * q)
    let s2 := s1.onBay b fun v => { v with
      ident := i.ident, capacity := i.capacity, lba4k := i.lba4k, fua := i.fua, npss := i.npss, opStates := i.opStates, resetLevel := 0 }
    let s3 := s2.onStrp fun x => { x with labels := match i.label with
      | some l => x.labels.set b l
      | none => x.labels.erase b }
    (s3.when (decide (s3.get p F.DRV_PS_MODE = 2)) (State.driveApst b)).when (s3.isOn p) (State.bayArrived b)

def execDriveBringup (bay : Nat) (info : DriveInfo) (s : State) : Result :=
  .next (let p := pgDrvp bay
    if bay < 24 ∧ s.flag p F.BAY_STAT_LINK_UP ∧ s.get p F.BAY_STAT_NVME = 1 then s.driveReady bay info else s)

/-- A reset reaches READY: what it failed internally is retried (R573). A drive that fails a requirement is UNFIT and does not reach READY:
the bounds of the reset go on (R572). -/
def execDriveResetComplete (bay : Nat) (info : DriveInfo) (s : State) : Result :=
  .next (if 24 ≤ bay ∨ (s.bay bay).resetLevel = 0 ∨ !s.flag (pgDrvp bay) F.BAY_STAT_LINK_UP ∨ s.get (pgDrvp bay) F.BAY_STAT_NVME = 4 then s
    else if info.unfit ≠ 0 then s.driveReady bay info
    else
      let held := (s.bay bay).held
      let s1 := (s.onBay bay fun v => { v with held := [], resetLevel := 0 }).driveReady bay info
      held.foldl (fun t r => t.drvRetry bay r false) s1)

def execDriveLinkDown (bay : Nat) (s : State) : Result :=
  .next (let p := pgDrvp bay
    if 24 ≤ bay ∨ !s.flag p F.BAY_STAT_LINK_UP then s
    else if s.flag p F.BAY_STAT_READY then (s.occur (S.DRVP_LINK_DOWN.on bay)).driveReset bay 2
    else s.setF p F.BAY_STAT_LINK_UP 0)

/-! ### Requests (R562 to R571) -/

/-- Mode 1 holds the bay's requests until PS0 is set (R576). -/
def State.psHolds (s : State) (b : Nat) : Bool :=
  decide (s.get (pgDrvp b) F.DRV_PS_MODE = 1) && (decide (s.get (pgDrvp b) F.BAY_STAT_PS ≠ 0) || decide ((s.bay b).psPending ≠ 0))

/-- The first request that waits for a tag of its kind and has not been counted. -/
def State.tagWait (b : Nat) (s : State) : State :=
  match (s.bay b).waiting.find? fun r => !r.waited with
  | none => s
  | some r => (s.onBay b fun v => { v with waiting := v.waiting.map fun x => if x = r then { x with waited := true } else x }).count
      (E.DRVP_TAG_WAIT.on b) 1

/-- The next request rings its doorbell (R559, R563, R564); a Write without ownership is failed to its user (R565); under mode 1 PS0 comes
first (R576). -/
def State.issueNext (b : Nat) (s : State) : State :=
  if !s.bayReady b ∨ (s.bay b).waiting.isEmpty ∨ s.saving then s
  else if s.psHolds b then
    (if (s.bay b).psPending = 0 then (s.onBay b fun v => { v with psPending := 2 }).emit (.drivePs b 0) else s)
  else match s.nextRequest b with
    | none => s.tagWait b
    | some r =>
      if r.isWrite ∧ !s.owned then
        (((s.onBay b fun v => { v with waiting := dropReq r v.waiting }).count (E.DRVP_WRITE_GATED.on b) 1).occur
          (S.DRVP_WRITE_GATED.on b)).failUser b r false false
      else match s.freeTag b (decide (r.cls = 3)) with
        | none => s.tagWait b
        | some t => s.ring b t r

def execDriveRequestIssue (bay : Nat) (s : State) : Result := .next (if bay < 24 then s.issueNext bay else s)

/-- The bytes that a drive has delivered for a read, from its window; a widened read's extra bytes are discarded there (R561). -/
def State.windowData (s : State) (b tag : Nat) (r : DrvReq) : Nat := bytesAt ((s.bay b).filled.get tag 0) ((s.bay b).wide r).1 r.bytes
/-- A write's request that was issued as a read of the LBAs around it (R561). -/
def DrvUse.writes : DrvUse → Bool
  | .strip _ _ _ _ => true
  | .mapCopy _ _ _ => true
  | .repair _ _ _ _ => true
  | .rebuilt _ _ _ _ => true
  | _ => false

/-- The ports that the data of a read goes to: XTS for a sealed unit, else CMPR; STRP for a map page and for what the Press, the Turner or a
rebuild reads (Table 1.4); none for what no engine waits for any more. -/
def State.readOuts (s : State) (r : DrvReq) : List Nat := match r.use with
  | .unit j _ => (match s.readJob j with
    | some u => [if u.for_ = .press then 43 else if bitAt u.entry 3 then 44 else 42]
    | none => [])
  | .mapRead _ => [43]
  | .bg e p g w _ => if s.strp.bgReads.contains (e, p, g, w) then [43] else []
  | _ => []
/-- The data of a read is whole: it crosses to the block that takes it. -/
def State.readCross (b tag : Nat) (r : DrvReq) (s : State) : State := match s.readOuts r with
  | [] => s.dropBg b tag r
  | o => s.offerKind (s.readKind b tag r) o

/-- A request succeeds. -/
def State.reqDone (b tag : Nat) (r : DrvReq) (s : State) : State :=
  let d := s.windowData b tag r
  let s1 := ((s.untag b tag).onBay b fun v => { v with toRow := 0 }).count (E.DRVP_CMPL.on b) 1
  if !r.isWrite && r.use.writes then (s1.readCross b tag r).drvSubmit b { r with
    isWrite := true, merged := some ((s.bay b).filled.get tag 0 % 2 ^ (8 * ((s.bay b).wide r).2)) }
  else match r.use with
  | .unit j i => ((s1.readCross b tag r).partBack j i (fun p => { p with got := some d }) true).settleUnit j
  | .repair _ _ _ _ => s1.dropWrite r.use
  | .dropped n p g => (s1.dropBg b tag r).dropBack n p g true
  | .bg _ _ _ _ _ => (s1.readCross b tag r).bgBack b r (some d)
  | u => ((s1.readCross b tag r).onStrp fun x => { x with done := x.done ++ [(u, true)] }).dropWrite u

/-- A completion entry (Table 14.4, R567, R569). -/
def State.driveCompletion (b cid sct sc : Nat) (dnr : Bool) (s : State) : State :=
  match (s.bay b).out.find cid with
  | none =>
    if (s.bay b).quar.contains cid then (s.count (E.DRVP_LATE_CMPL.on b) 1).drvPacket b 3 cid else s
  | some r =>
    if s.saving then s.untag b cid
    else if sct = 0 ∧ sc = 0 then s.reqDone b cid r
    else
      let s1 := (s.untag b cid).dropBg b cid r
      let media := decide (sct = 2 ∧ ((sc = 0x81 ∧ !r.isWrite) ∨ (sc = 0x80 ∧ r.isWrite)))
      if media then
        ((((s1.count (E.DRVP_MEDIA_ERR.on b) 1).onBay b fun v => { v with mediaTimes := s.now :: v.mediaTimes }).failUser b r true true)).syncErrs b
      else if dnr then s1.reqFail b r true
      else s1.drvRetry b r true

def execDriveCompletion (bay cid sct sc : Nat) (dnr : Bool) (s : State) : Result :=
  .next (if bay < 24 then s.driveCompletion bay cid sct sc dnr else s)

/-- The tag whose data window a bus address lies in, and the offset in it (Table 14.3). -/
def windowOf (addr : Nat) : Option (Nat × Nat) :=
  if 0x200000000 ≤ addr ∧ addr < 0x200000000 + 4096 * 65536 then some ((addr - 0x200000000) / 65536, addr % 65536) else none
def inQueueArea (addr : Nat) : Bool := decide (0x100000000 ≤ addr ∧ addr < 0x100000000 + 16777216)

/-- The cells of a read's window: granted already, or granted now (R560). -/
def State.windowCells (b tag : Nat) (r : DrvReq) (s : State) : Bool × State :=
  let kind := s.readKind b tag r
  let page := match r.use with
    | .mapRead _ => true
    | _ => false
  let evictable := match kind with
    | .readData _ _ _ => true
    | _ => decide (r.cls = 0)
  s.hasCells { kind := kind, port := 16 + b, cls := if page then 1 else r.cls, bytes := r.bytes, outs := [], evictable := evictable }

/-- A memory write of the drive (R558, R560, R569). -/
def State.dmaWrite (b addr : Nat) (d : Blob) (s : State) : State :=
  match windowOf addr with
  | none => if inQueueArea addr then s else s.count (E.DRVP_BAD_DMA.on b) 1
  | some (tag, off) => match (s.bay b).out.find tag with
    | some r =>
      if r.isWrite then s.drvPacket b 3 tag
      else
        let c := s.windowCells b tag r
        if !c.1 then c.2
        else c.2.onBay b fun v => { v with filled := v.filled.set tag (withBytes (v.filled.get tag 0) off d.len d.val) }
    | none => s.drvPacket b 3 tag

def execDriveDmaWrite (bay addr : Nat) (data : Blob) (s : State) : Result := .next (if bay < 24 then s.dmaWrite bay addr data else s)

/-- The tag whose PRP list an address lies in, and the offset in the list (R558, Table 14.3). -/
def prpListOf (addr : Nat) : Option (Nat × Nat) :=
  if 0x100F00000 ≤ addr ∧ addr < 0x100F00000 + 4096 * 128 then some ((addr - 0x100F00000) / 128, (addr - 0x100F00000) % 128) else none
/-- A tag's PRP list: the pages of its window after the first (R559). -/
def prpList (tag : Nat) : Nat :=
  ((List.range 15).map fun i => (0x200000000 + tag * 0x10000 + 4096 * (i + 1)) * 2 ^ (64 * i)).sum

/-- The bytes of a write. -/
def State.writeData (r : DrvReq) (s : State) : Nat × State := match r.use with
  | .strip p seg t role => (match s.plce.writing.find? fun x => decide (x.pool = p ∧ x.seg = seg ∧ x.t = t) with
    | some x => ((s.pool p).strip (x.data (s.pool p).d) role, s)
    | none => s.draw)
  | .mapCopy k _ _ => (s.pageImage k, s)
  | .repair _ _ _ _ => (match r.data with
    | some d => (d, s)
    | none => s.draw)
  | .rebuilt p m w i => (match s.strp.rebuilt.find? fun e => decide (e.pool = p ∧ e.map = m ∧ e.what = w ∧ e.pos = i) with
    | some e => (e.data, s)
    | none => s.draw)
  | _ => s.draw

/-- The bytes of a tag's window: of a write its data, over the LBAs that it is merged into; of a read what has come, else what its cells
hold, which the spec leaves open. -/
def State.windowBytes (b tag : Nat) (r : DrvReq) (s : State) : Nat × State :=
  if r.isWrite then
    let d := s.writeData r
    (withBytes (r.merged.getD 0) ((s.bay b).wide r).1 r.bytes (d.1 % 2 ^ (8 * r.bytes)), d.2)
  else match (s.bay b).filled.find tag with
    | some x => (x, s)
    | none => s.draw
/-- A memory read of the drive (R558, R560, R569). -/
def State.dmaRead (b addr n : Nat) (s : State) : State :=
  match windowOf addr with
  | none => if inQueueArea addr then (match prpListOf addr with
      | some (tag, off) => s.emit (.driveData b tag ⟨n, bytesAt (prpList tag) off n⟩)
      | none => s)
    else (s.count (E.DRVP_BAD_DMA.on b) 1).emit (.driveUr b)
  | some (tag, off) => match (s.bay b).out.find tag with
    | some r =>
      let d := s.windowBytes b tag r
      d.2.emit (.driveData b tag ⟨n, bytesAt d.1 off n⟩)
    | none => (s.drvPacket b 3 tag).emit (.driveUr b)

def execDriveDmaRead (bay addr bytes : Nat) (s : State) : Result := .next (if bay < 24 then s.dmaRead bay addr bytes else s)

/-- A request has no completion entry CMD_TIMEOUT_MS after its doorbell (R568); RESET_AFTER of them in a row start a level 1 reset. -/
def State.cmdTimeout (b tag : Nat) (s : State) : State :=
  match (s.bay b).out.find tag with
  | none => s
  | some r =>
    let s1 := ((s.untag b tag).onBay b fun v => { v with
      quar := insertSorted tag v.quar, toRow := v.toRow + 1, toTimes := s.now :: v.toTimes }).syncBay b
    let s2 := (((s1.dropBg b tag r).emit (.driveAbort b tag)).count (E.DRVP_CMD_TIMEOUT.on b) 1).drvRecord b 1 0 tag 0
    let s3 := (s2.drvRetry b r false).syncErrs b
    if s.get (pgDrvp b) F.DRV_TO_RESET_AFTER ≤ (s3.bay b).toRow ∧ s3.isOn (pgDrvp b) ∧ (s3.bay b).resetLevel = 0 then s3.driveReset b 1 else s3

def execDriveCmdTimeout (bay tag : Nat) (s : State) : Result := .next (if bay < 24 then s.cmdTimeout bay tag else s)

/-- The quarantine of an I/O tag ends (R568). -/
def execTagQuarantineEnd (bay tag : Nat) (s : State) : Result :=
  .next (if 24 ≤ bay then s else (s.onBay bay fun v => { v with quar := v.quar.filter fun t => decide (t ≠ tag) }).syncBay bay)

/-- A non-posted request of the root port times out (R570). -/
def execDriveCto (bay tag : Nat) (s : State) : Result :=
  .next (if 24 ≤ bay ∨ (s.bay bay).rootQuar.contains tag then s
    else (s.drvPacket bay 2 tag).onBay bay fun v => { v with rootQuar := insertSorted tag v.rootQuar })

/-! ### Power states (R576 to R578) -/

def execDriveIdleTimeout (bay : Nat) (s : State) : Result :=
  .next (let p := pgDrvp bay
    let v := s.bay bay
    if 24 ≤ bay ∨ s.get p F.DRV_PS_MODE ≠ 1 ∨ !s.bayReady bay ∨ v.out.size ≠ 0 ∨ !v.waiting.isEmpty ∨ v.psPending ≠ 0 ∨
        s.get p F.BAY_STAT_PS = s.get p F.DRV_PS_PS_TARGET then s
    else ((s.onBay bay fun x => { x with psPending := 1 }).emit (.drivePs bay (s.get p F.DRV_PS_PS_TARGET))).count (E.DRVP_PS_ENTRY.on bay) 1)

/-- A command has waited for a drive: the slowest one counts (R263). -/
def State.psDelayed (n us : Nat) (s : State) : State := match s.slot n with
  | none => s
  | some x =>
    let s1 := if x.psCounted then s else s.count E.CMDQ_PS_DELAY 1
    (s1.count E.CMDQ_PS_DELAY_US (us - x.psDelayUs)).setSlot n { x with psDelayUs := max x.psDelayUs us, psCounted := true }
/-- The delay of the requests that waited for PS0 (R263, R578). -/
def State.psDelays (b : Nat) (s : State) : State :=
  (s.bay b).waiting.foldl (fun t r => match r.use with
    | .unit j _ => (match (t.readJob j).map RUnit.for_ with
      | some (.slot n) => t.psDelayed n ((t.now - r.since) / 2000)
      | _ => t)
    | _ => t) s

def execDrivePsComplete (bay : Nat) (s : State) : Result :=
  .next (let p := pgDrvp bay
    let v := s.bay bay
    if 24 ≤ bay ∨ v.psPending = 0 then s
    else if v.psPending = 1 then
      let s1 := (s.setF p F.BAY_STAT_PS (s.get p F.DRV_PS_PS_TARGET)).onBay bay fun x => { x with psPending := 0 }
      if v.waiting.isEmpty then s1
      else (((s1.onBay bay fun x => { x with psPending := 2 }).emit (.drivePs bay 0)).count (E.DRVP_PS_ABORTED_IDLE.on bay) 1)
    else ((s.setF p F.BAY_STAT_PS 0).onBay bay fun x => { x with psPending := 0 }).psDelays bay)

/-! ### AER of the root port (R579) -/

/-- An error or message: 0 correctable, 1 non-fatal, 2 fatal; its status bit, the request's tag, the header. -/
def execDriveAerMessage (bay kind detail tag hdr : Nat) (s : State) : Result :=
  .next (if 24 ≤ bay then s
    else match kind with
      | 0 => ((s.drvRecord bay 4 detail tag hdr).count (E.DRVP_AER_CE.on bay) 1).occur (S.DRVP_AER_CE.on bay)
      | 1 =>
        let s1 := (s.drvRecord bay 5 detail tag hdr).occur (S.DRVP_AER_NF.on bay)
        (match (s1.bay bay).out.find tag with
        | some r => ((s1.untag bay tag).dropBg bay tag r).drvRetry bay r false
        | none => s1)
      | _ =>
        let s1 := (s.drvRecord bay 6 detail tag hdr).occur (S.DRVP_AER_FATAL.on bay)
        if s1.isOn (pgDrvp bay) ∧ (s1.bay bay).resetLevel < 2 then s1.driveReset bay 2 else s1)

end Sys2Proof.Machine
end

