-- ==== Sys2Proof/Machine/BaypExec.lean ====
section
/-!
DEFINITION. Bay power switching (chapter 15 of spec/). Each sense event carries what the channel senses in its tick; the limiter is the
analogue bound of R594 on the current.
-/
namespace Sys2Proof.Machine
open Sys2Proof

def State.pwr (s : State) (b : Nat) : BayPwr := s.bayp.get b {}
def State.onPwr (b : Nat) (g : BayPwr → BayPwr) (s : State) : State := { s with bayp := s.bayp.put b {} (g (s.pwr b)) }
/-- `BAY_PWR_STAT.CH` (Table 15.2). -/
def State.ch (s : State) (b : Nat) : Nat := s.get (pgBayp b) F.BAY_PWR_STAT_CH
def State.setCh (b n : Nat) (s : State) : State := s.setF (pgBayp b) F.BAY_PWR_STAT_CH n
def State.present (s : State) (b : Nat) : Bool := s.flag (pgDrvp b) F.BAY_STAT_PRESENT
/-- This controller runs the channel (R606, R607). -/
def State.runsBay (s : State) (b : Nat) : Bool := decide (b < 24) && s.owned

/-- A ratio of two voltages, in percent. -/
def atLeast (pct part whole : Nat) : Bool := decide (pct * whole ≤ 100 * part)

/-- ILIM in mA and PLIM in mW that bound the channel now: those of its start until GOOD, those of the active set in GOOD (R596). -/
def State.bayIlim (s : State) (b : Nat) : Nat := (if s.ch b = 4 then (s.pwr b).ilim else s.get (pgBayp b) F.BAY_PWR_CFG_ILIM) * 100
def State.bayPlim (s : State) (b : Nat) : Nat := (if s.ch b = 4 then (s.pwr b).plim else s.get (pgBayp b) F.BAY_PWR_CFG_PLIM) * 500
def State.bayFaultMs (s : State) (b : Nat) : Nat := if s.ch b = 4 then (s.pwr b).faultMs else s.get (pgBayp b) F.BAY_PWR_CFG_FAULT_MS
/-- min(ILIM, PLIM / (VIN12 − VOUT12)) in mA (R594). -/
def State.limitBound (s : State) (b : Nat) (x : PwrSample) : Nat :=
  let dv := x.vin12 - x.vout12
  if dv = 0 then s.bayIlim b else min (s.bayIlim b) (s.bayPlim b * 1000 / dv)
/-- The limiter is active in the tick: the current has reached its bound. -/
def State.limiting (s : State) (b : Nat) (x : PwrSample) : Bool :=
  s.owned && (decide (s.ch b = 4) || decide (s.ch b = 5)) && decide (s.limitBound b x ≤ x.i12)

/-- What the sense inputs show, in the registers (Table 15.5); with the limiter at work the current is its bound. -/
def State.sense (b : Nat) (x : PwrSample) (s : State) : State :=
  let p := pgBayp b
  let lim := s.limiting b x
  let i := if lim then s.limitBound b x else x.i12
  ((((s.setF p F.BAY_PWR_STAT_LIMIT (boolNat lim)).setF p F.BAY_PWR_V_VIN12 (min 65535 x.vin12)).setF p F.BAY_PWR_V_VOUT12
    (min 65535 x.vout12)).setF p F.BAY_PWR_I_VOUT3 (min 65535 x.vout3)).setF p F.BAY_PWR_I_I12 (min 65535 i)

/-- Ticks of limiting and energy since the channel's last event: counted, and added to those of the start (R595, Table 15.5). -/
def State.limited (b ticks mj : Nat) (s : State) : State :=
  let p := pgBayp b
  let s1 := s.when (decide (ticks ≠ 0)) (State.count (E.BAYP_LIMIT_TICKS.on b) ticks)
  if s.ch b = 4 then (s1.satAdd p F.BAY_PWR_LAST_LIMIT_TICKS ticks).satAdd p F.BAY_PWR_LAST_FET_MJ mj else s1

/-! ### Gates -/

/-- The turn-off of R591: the 12 V gate now, the 3.3 V gate 10 ms later. -/
def State.gatesOff (b : Nat) (s : State) : State :=
  let g := s.pwr b
  let s1 := s.when g.gate12 (State.emit (.gate12 b false))
  s1.onPwr b fun v => { v with gate12 := false, gate3Delay := v.gate3 }

/-! ### Power-good and the drive port (R554, R604) -/

/-- Power-good falls: the drive port stands down as at removal; a port that is STARTING waits again. -/
def State.pgFall (b : Nat) (s : State) : State :=
  let p := pgDrvp b
  if !s.flag (pgBayp b) F.BAY_PWR_STAT_PG then s
  else
    let s1 := s.setF (pgBayp b) F.BAY_PWR_STAT_PG 0
    if s.isLive p then (s1.driveRemoved b).onPwr b fun v => { v with reEnable := true }
    else if (s.fab.page p).state = .starting then
      ((s1.bayDown b 0).onBay b fun v => { v with perst := true }).emit (.drivePerst b true)
    else s1

/-- Power-good rises: the drive port takes its ENABLE again where a fall had taken it down. -/
def State.pgRise (b : Nat) (s : State) : State :=
  let g := s.pwr b
  let s1 := (s.setF (pgBayp b) F.BAY_PWR_STAT_PG 1).onPwr b fun v => { v with reEnable := false }
  s1.when (g.reEnable && s.flag (pgDrvp b) F.DRV_CFG_AUTO_EN) (State.pageEv (pgDrvp b) .enable)

/-! ### Channel states (Table 15.2) -/

/-- An exit to COOL, LATCHED, OFF or EMPTY. -/
def State.chanDown (b n : Nat) (s : State) : State :=
  let p := pgBayp b
  ((s.gatesOff b).pgFall b).setF p F.BAY_PWR_STAT_LIMIT 0 |>.setCh b n

/-- A fault in AUX, INRUSH or GOOD (R599); RETRIES is that of the start until GOOD (R596). -/
def State.chanFault (b cause : Nat) (s : State) : State :=
  let p := pgBayp b
  let s1 := s.setF p F.BAY_PWR_STAT_LAST_CAUSE cause
  let most := if s.ch b = 5 then s.get p F.BAY_PWR_CFG_RETRIES else (s.pwr b).retries
  if s.get p F.BAY_PWR_STAT_RETRY_CNT < most then s1.chanDown b 6
  else ((s1.chanDown b 7).occur (S.BAYP_LATCHED.on b)).count (E.BAYP_LATCH.on b) 1

/-- The channel enters WAIT. -/
def State.chanWait (b : Nat) (s : State) : State := (s.setCh b 2).onPwr b fun v => { v with since := s.now }

/-- The page leaves ON, or ownership ends: AUX, INRUSH, GOOD, WAIT and COOL turn off, LATCHED is toggled (Table 15.2). -/
def State.baypLeave (b : Nat) (s : State) : State :=
  let p := pgBayp b
  let s1 := if s.ch b = 7 then s.setCh b 1 else if 2 ≤ s.ch b then s.chanDown b 1 else s
  if 2 ≤ s.ch b then s1.setF p F.BAY_PWR_STAT_RETRY_CNT 0 else s1

/-- Debounced presence at the channel (Table 15.2, R601). -/
def State.chanPresence (b : Nat) (present : Bool) (s : State) : State :=
  let p := pgBayp b
  let c := s.ch b
  if !s.owned then (if c = 5 then s else s.setCh b (boolNat present))
  else if present then (if c = 0 then s.setCh b 1 else s)
  else if c = 0 ∨ c = 7 then s
  else ((s.chanDown b 0).setF p F.BAY_PWR_STAT_RETRY_CNT 0).when (decide (c = 6)) (State.count (E.BAYP_RETRY_CANCEL.on b) 1)

def execDrivePresenceDebounce (bay : Nat) (present : Bool) (s : State) : Result :=
  .next (if 24 ≤ bay ∨ s.present bay = present then s else (s.presence bay present).chanPresence bay present)

/-- The two channels of a boundary (R593): in WAIT since an earlier tick, DMG 0, the longest waiting first. -/
def State.granted (s : State) : List Nat :=
  (((List.range 24).filter fun b => decide (s.ch b = 2 ∧ (s.pwr b).since / 20000 < s.now / 20000) && !s.flag (pgBayp b) F.BAY_PWR_STAT_DMG
    ).mergeSort fun a b => decide ((s.pwr a).since / 20000 ≤ (s.pwr b).since / 20000)).take 2

/-- WAIT to AUX, with the active set of the grant (R596). -/
def State.startBay (s : State) (b : Nat) : State :=
  let p := pgBayp b
  let s1 := (((s.setCh b 3).setF p F.BAY_PWR_LAST_FET_MJ 0).setF p F.BAY_PWR_LAST_LIMIT_TICKS 0).onPwr b fun v => { v with
    gate3 := true, gate3Delay := false, armed := false, ilim := s.get p F.BAY_PWR_CFG_ILIM, plim := s.get p F.BAY_PWR_CFG_PLIM
    faultMs := s.get p F.BAY_PWR_CFG_FAULT_MS, retries := s.get p F.BAY_PWR_CFG_RETRIES }
  (s1.emit (.gate3 b true)).count (E.BAYP_STARTS.on b) 1

def execBayStartGrant (s : State) : Result := .next (if s.owned then s.granted.foldl State.startBay s else s)

def execAuxGood (bay : Nat) (sample : PwrSample) (s : State) : Result :=
  .next (if !s.runsBay bay ∨ s.ch bay ≠ 3 ∨ !atLeast 90 sample.vout3 sample.vin3 then s
    else (((s.sense bay sample).setCh bay 4).onPwr bay fun v => { v with gate12 := true, armed := false }).emit (.gate12 bay true))

def execAuxTimeout (bay : Nat) (s : State) : Result :=
  .next (if !s.runsBay bay ∨ s.ch bay ≠ 3 then s else (s.chanFault bay 3).count (E.BAYP_AUX_FAULT.on bay) 1)

def State.powered (s : State) (b : Nat) : Bool := s.runsBay b && (decide (s.ch b = 4) || decide (s.ch b = 5))

/-- The fault timer has counted FAULT_MS of limiting without a break (R595); a limiter that releases in that tick changes nothing
(R597). -/
def execFaultTimerExpiry (bay ticks mj : Nat) (sample : PwrSample) (s : State) : Result :=
  .next (if !s.powered bay ∨ ticks < 100 * s.bayFaultMs bay then s
    else ((((s.sense bay sample).limited bay ticks mj).chanFault bay 1).occur (S.BAYP_INRUSH_FAULT.on bay)).count
      (E.BAYP_FAULT_TIMER.on bay) 1)

def execShortTrip (bay ticks mj : Nat) (sample : PwrSample) (s : State) : Result :=
  .next (if !s.powered bay then s
    else ((((s.sense bay sample).limited bay ticks mj).chanFault bay 2).occur (S.BAYP_SHORT.on bay)).count (E.BAYP_SHORT.on bay) 1)

/-- Power-good (R595): withheld in a tick in which the limiter is active (R598). -/
def execPowerGood (bay ticks mj : Nat) (sample : PwrSample) (s : State) : Result :=
  .next (if !s.runsBay bay ∨ s.ch bay ≠ 4 then s
    else
      let s1 := (s.sense bay sample).limited bay ticks mj
      if s.limiting bay sample ∨ !atLeast 90 sample.vout12 sample.vin12 ∨ !atLeast 90 sample.vout3 sample.vin3 then s1
      else ((s1.setCh bay 5).pgRise bay).count (E.BAYP_PG_RISE.on bay) 1)

def execDroopFault (bay : Nat) (sample : PwrSample) (s : State) : Result :=
  .next (if !s.runsBay bay ∨ s.ch bay ≠ 5 ∨ atLeast 80 sample.vout12 sample.vin12 ∨ s.limiting bay sample then s
    else (((s.sense bay sample).chanFault bay 4).occur (S.BAYP_DROOP.on bay)).count (E.BAYP_DROOP.on bay) 1)

def execAuxDroopFault (bay : Nat) (sample : PwrSample) (s : State) : Result :=
  .next (if !s.runsBay bay ∨ s.ch bay ≠ 5 ∨ atLeast 80 sample.vout3 sample.vin3 then s
    else (((s.sense bay sample).chanFault bay 3).occur (S.BAYP_AUX_FAULT.on bay)).count (E.BAYP_AUX_FAULT.on bay) 1)

def execPgStable (bay : Nat) (s : State) : Result :=
  .next (if s.runsBay bay ∧ s.ch bay = 5 then s.setF (pgBayp bay) F.BAY_PWR_STAT_RETRY_CNT 0 else s)

def execRetryIntervalExpiry (bay : Nat) (s : State) : Result :=
  .next (if !s.runsBay bay ∨ s.ch bay ≠ 6 then s
    else ((s.chanWait bay).satAdd (pgBayp bay) F.BAY_PWR_STAT_RETRY_CNT 1).count (E.BAYP_RETRY.on bay) 1)

def execGate3OffDelay (bay : Nat) (s : State) : Result :=
  .next (if !s.runsBay bay ∨ !(s.pwr bay).gate3Delay then s
    else (s.onPwr bay fun v => { v with gate3 := false, gate3Delay := false }).emit (.gate3 bay false))

/-! ### Damage detector (R602, R603) -/

def State.gatesAreOff (s : State) (b : Nat) : Bool := !(s.pwr b).gate12 && !(s.pwr b).gate3

def execDamageDetectorArm (bay : Nat) (s : State) : Result :=
  .next (if s.runsBay bay ∧ s.gatesAreOff bay then s.onPwr bay fun v => { v with armed := true } else s)

def execDamageTrip (bay : Nat) (sample : PwrSample) (s : State) : Result :=
  .next (if !s.runsBay bay ∨ !(s.pwr bay).armed ∨ sample.vout12 ≤ 1000 ∨ s.flag (pgBayp bay) F.BAY_PWR_STAT_DMG then s
    else
      let s1 := (((s.sense bay sample).setF (pgBayp bay) F.BAY_PWR_STAT_DMG 1).occur (S.BAYP_FET_DAMAGED.on bay)).count
        (E.BAYP_FET_DAMAGED.on bay) 1
      if s.ch bay = 2 then s1.setCh bay 1 else s1)

def execDamageCheckPass (bay : Nat) (s : State) : Result :=
  .next (if s.runsBay bay ∧ s.ch bay = 1 ∧ s.isOn (pgBayp bay) ∧ !s.flag (pgBayp bay) F.BAY_PWR_STAT_DMG ∧ (s.pwr bay).armed then
      s.chanWait bay else s)

/-- ENABLE written while the page is OFF clears DMG and re-arms the detector from the start. -/
def State.baypEnable (b : Nat) (s : State) : State :=
  (s.setF (pgBayp b) F.BAY_PWR_STAT_DMG 0).onPwr b fun v => { v with armed := false }

/-! ### Ownership (R606 to R608) -/

/-- Without ownership a controller sources the gates only while both outputs are good, and CH reads what is sensed. -/
def execNonOwnerSenseChange (bay : Nat) (sample : PwrSample) (s : State) : Result :=
  .next (if 24 ≤ bay ∨ s.owned then s
    else
      let good := atLeast 90 sample.vout12 sample.vin12 && atLeast 90 sample.vout3 sample.vin3 && decide (sample.vin12 ≠ 0)
      let s1 := s.sense bay sample
      if good = (s.pwr bay).sourcing then s1
      else
        let s2 := (s1.onPwr bay fun v => { v with sourcing := good }).emit (.gateSource bay good)
        if good then (s2.setCh bay 5).pgRise bay else (s2.pgFall bay).setCh bay (boolNat (s.present bay)))

/-- Ownership ends: every gate output goes into the mode of R606; a bay that was GOOD goes on being sourced. -/
def State.baysYield (s : State) : State :=
  (List.range 24).foldl (fun t b =>
    let good := decide (t.ch b = 5)
    let t1 := t.onPwr b fun v => { v with gate12 := false, gate3 := false, gate3Delay := false, armed := false, sourcing := good }
    let t2 := if t.ch b = 5 then t1.emit (.gateSource b true) else if t.ch b = 0 then t1 else t1.setCh b (boolNat (t.present b))
    t2.setF (pgBayp b) F.BAY_PWR_STAT_LIMIT 0) s

/-- The new owner adopts what it senses as good; every other channel starts anew (R608). -/
def State.baysAdopt (s : State) : State :=
  (List.range 24).foldl (fun t b =>
    let p := pgBayp b
    let t1 := (t.setF p F.BAY_PWR_STAT_RETRY_CNT 0).setF p F.BAY_PWR_STAT_DMG 0
    if (t.pwr b).sourcing then
      (((t1.setCh b 5).setF p F.BAY_PWR_STAT_PG 1).onPwr b fun v => { v with sourcing := false, gate12 := true, gate3 := true, armed := false }).count
        (E.BAYP_ADOPT.on b) 1
    else (t1.setCh b (boolNat (t.present b))).onPwr b fun v => { v with armed := false }) s

end Sys2Proof.Machine
end

