-- ==== Sys2Proof/Machine/CellExec.lean ====
section
/-!
DEFINITION. The commands of the Vat and the cell pool, and what the loss of a unit means (chapter 09 of spec/).
-/
namespace Sys2Proof.Machine
open Sys2Proof

/-! ### Evicted units (R379) -/

/-- A request whose data is lost before it was consumed is issued again, and the old one finishes for nothing (R566). -/
def State.reissueTag (b tag : Nat) (s : State) : State :=
  match (s.bay b).out.find tag with
  | none => s
  | some r =>
    let place := match r.use with
      | .unit j _ => (match s.readJob j with
        | some q => (q.for_, q.pool, meSeg q.entry)
        | none => (RFor.merge 0, 0, 0))
      | .bg _ p g _ _ => (RFor.press, p, g)
      | _ => (RFor.merge 0, 0, 0)
    let slot := match place.1 with
      | .slot n => some n
      | .merge _ => none
      | .press => none
    let s1 := s.onBay b fun v => { v with
      out := v.out.set tag { r with use := .dropped slot place.2.1 place.2.2 }, filled := v.filled.erase tag }
    let s2 := s1.when (decide (place.2.2 ≠ 0)) (State.onSeg place.2.1 place.2.2 fun g => { g with reads := g.reads + 1 })
    (s2.slotDrive place.1 b).drvSubmit b { r with waited := false }

/-- Tenant read data is lost: DRVP reads it again (R379, R566). -/
def State.reissueRead (j i : Nat) (s : State) : State :=
  match s.readJob j with
  | none => s
  | some r => match r.parts[i]? with
    | none => s
    | some q =>
      if r.lane.isSome ∨ r.result.isSome then s
      else
        let v := s.pool r.pool
        let st := r.stripe v
        let bay := (v.member (v.posOf st q.role)).bay
        let s1 := s.count (E.DRVP_REISSUE.on bay) 1
        if q.got.isSome then
          ((((s1.setReadJob j { r with parts := r.parts.set i { q with got := none } }).onSeg r.pool (meSeg r.entry) fun g =>
            { g with reads := g.reads + 1 }).slotDrive r.for_ bay).drvSubmit bay
              { use := .unit j i, isWrite := false, cls := r.cls, offset := v.stripOffset st + 512 * q.start, bytes := 512 * q.count })
        else match (s1.bay bay).out.list.find? fun e => decide (e.2.use = .unit j i) with
          | some e => s1.reissueTag bay e.1
          | none => s1

/-- A part of a background read is lost: DRVP reads it again (R379, R566). -/
def State.reissueBg (e p w i : Nat) (s : State) : State :=
  match s.bgAgain e p w i with
  | some x => x.2.count (E.DRVP_REISSUE.on x.1) 1
  | none => (match (List.range 24).findSome? fun b => ((s.bay b).out.findKey fun _ r => s.readKind b 0 r == .background e p w i).map fun t => (b, t) with
    | some x => (s.count (E.DRVP_REISSUE.on x.1) 1).reissueTag x.1 x.2
    | none => s)

/-- The class of a command's read data (Table 9.1). -/
def State.slotClass (s : State) (x : Slot) : Nat := s.ctxClass x.conn

/-- The cells of a read's journal bytes, granted already or now; they cross to the connection's port (Table 1.4). -/
def State.jrnlCells (n bytes : Nat) (s : State) : Bool × State := match s.slot n with
  | none => (false, s)
  | some x => s.hasCells { kind := .jrnlRead n, port := 40, cls := s.slotClass x, bytes := bytes, outs := [s.ownPort x.conn], evictable := true }

/-- What the loss of an evicted unit means (R379). -/
def State.unitLost (s : State) (k : UnitKind) : State := match k with
  | .rxPacket ctx psn => s.evictRx ctx psn
  | .readData _ j i => s.reissueRead j i
  | .jrnlRead n => match s.slot n with
    | some x => ((s.count E.JRNL_REREAD 1).jrnlCells n (512 * popCount (x.bytes / 512) x.jcover)).2
    | none => s
  | .bgRead b tag => s.reissueTag b tag
  | .background 0 _ j i => s.reissueRead j i
  | .background e p w i => s.reissueBg e p w i
  | _ => s

/-! ### The Vat -/

/-- A received packet reaches custody (R377). -/
def State.custody (s : State) (unit : Nat) : State :=
  let mine := (s.xprt.ctx.filter fun _ c => c.rx.inVat.any fun e => decide (e.1 = unit)).keys
  mine.foldl (fun t i => (t.onRx i fun x => { x with inVat := x.inVat.filter fun e => decide (e.1 ≠ unit) }).releaseReplies i
    ((t.ctx i).rx.replies.length + 1)) (s.pinUnit unit)

/-- A unit that XTS has opened or sealed leaves port 44 in cells of its own; those it came in are given back (Tables 1.3, 1.4). -/
def State.xtsHop (u out : Nat) (x : UnitSt) (s : State) : State :=
  ((s.dropUnit u).allocRequest ⟨44, x.owner % 4, x.cells.length, x.kind, none, x.evictable, [out]⟩ false).after

/-- A region read's last packet has left the Vat: its access is over (R182). -/
def State.responseLeft (i psn : Nat) (s : State) : State :=
  match s.tmgr.egr.find? fun e => decide (e.ctx = i ∧ e.pkt.psn = psn) && isReadResp e.pkt.opcode with
  | none => s
  | some e => (s.onTmgr fun t => { t with egr := t.egr.map fun y => if y = e then { y with pkt := { y.pkt with key := none } } else y }).endKey e.pkt.key

/-- A unit has left its queues whole: a received packet is in custody, a sealed unit goes on through XTS, PAIR's copy of write data is taken;
the rest waits for its block. -/
def State.arrived (s : State) (u : Nat) : State :=
  match s.cell.units.find u with
  | none => s.custody u
  | some x =>
    let xts := decide (x.owner / 4 ≠ 44)
    match x.kind with
    | .rxPacket _ _ => s.custody u
    | .readData _ j _ => s.when (xts && (s.readJob j).any fun r => bitAt r.entry 3) (State.xtsHop u 42 x)
    | .mergeRead j _ => s.when (xts && (s.readJob j).any fun r => bitAt r.entry 3) (State.xtsHop u 42 x)
    | .stored j => s.when (xts && (s.wjob j).any fun w => decide (w.keyIndex ≠ 0)) (State.xtsHop u 43 x)
    | .mirrorCopy _ => s.dropUnit u
    | .response i psn => s.responseLeft i psn
    | _ => s

/-- One cell time; what each unit that has left its queues comes to (R364, R377, R390). -/
def execVatCellTime (s : State) : Result :=
  .next (if !s.isLive pgVat then s
    else
      let r := s.vatCellTime
      (r.1.foldl State.arrived r.2).settleSeal)

/-- A block gives a unit, named by its first cell, to one to four outputs at the unit's class (R361, R369, R372). -/
def execUnitEnqueue (input : Nat) (outs : List Nat) (cls first : Nat) (s : State) : Result :=
  .next (match s.unitAt first with
    | none => s
    | some u =>
      let owner := match s.cell.units.find u with
        | some x => x.owner
        | none => 0
      if !s.isOn pgVat ∨ 48 ≤ input ∨ 4 ≤ cls ∨ owner ≠ 4 * input + cls ∨ outs = [] ∨ 4 < outs.length ∨ outs.any (fun o => decide (48 ≤ o))
          ∨ outs.uniq ≠ outs ∨ !s.unitLeft u then s
      else s.enqueueUnit input outs cls u)

/-! ### The cell pool -/

def execCellAllocRequest (port cls cells : Nat) (kind : UnitKind) (network : Option (Nat × Nat)) (evictable : Bool) (s : State) : Result :=
  .next (if 48 ≤ port ∨ 4 ≤ cls ∨ cells = 0 then s
    else
      let q := s.allocRequest ⟨port, cls, cells, kind, network, evictable, []⟩ false
      q.evicted.foldl State.unitLost q.after)

/-- One waiting request is tried again (R375). -/
def State.retryAlloc (s : State) (r : AllocReq) : State :=
  let q := s.allocRequest r true
  let s1 := if q.unit.isSome then q.after.onCell fun c => { c with waiters := removeFirst r c.waiters } else q.after
  q.evicted.foldl State.unitLost s1

def execCellAllocRetry (s : State) : Result := .next (s.cell.waiters.foldl State.retryAlloc s)

def execCellFree (ptr owner port : Nat) (s : State) : Result := .next (if s.isLive pgCell then s.freeCell ptr owner port else s)

/-- An uncorrectable error: POISON, then the unit by its class (R385). -/
def State.cellUe (c : Nat) (s : State) : State :=
  let m := s.cell.meta c
  let s1 := (s.onCell fun x => { x with cells := if m.alloc then x.cells.set c { m with poison := true } else x.cells }).occur S.CELL_SRAM_UE
  match s1.unitOf c with
  | none => s1
  | some u => match s1.cell.units.find u with
    | none => s1
    | some v =>
      if v.evictable then
        let e := s1.evictUnit u
        (match e.1 with
          | some k => e.2.unitLost k
          | none => e.2)
      else match v.kind with
        | .writeData n => (match s1.slot n with
          | some x => if x.state = .fetched ∨ x.state = .started then
              (((s1.dropPieces n).setSlot n { x with orphan := s1.slotBusy n }).commitSlot n (cplErr 0 6)).releaseRecs else s1
          | none => s1)
        | _ => s1

def execCellSramError (cell : Nat) (ue : Bool) (s : State) : Result :=
  .next (if 524288 ≤ cell then s
    else
      let b := cell / 32768
      let s1 := s.onCell fun c => { c with bankErrs := c.bankErrs.set b ((s.now, ue) :: c.bankErrs.get b []) }
      if ue then s1.cellUe cell else (s1.count E.CELL_SRAM_CE 1).occur S.CELL_SRAM_CE)

/-- A write of `CELL_BANK_CTL` (R386). -/
def State.bankCtl (v : Nat) (s : State) : State :=
  let b := v % 16
  if !bitAt v 31 ∨ s.bankRetired b then s
  else if s.liveBanks.length ≤ 1 then s.count E.MGMT_CTL_IGNORED 1
  else ((s.setF pgCell F.CELL_BANK_STAT_RETIRED (s.get pgCell F.CELL_BANK_STAT_RETIRED + 2 ^ b)).syncCell).occur S.CELL_BANK_RETIRED

def execCellBankRetire (value : BitVec 32) (s : State) : Result := .next (s.bankCtl value.toNat)

end Sys2Proof.Machine
end

