-- ==== Sys2Proof/Machine/EpOps.lean ====
section
/-!
DEFINITION. The management endpoint: AER, the mailbox engine, and its resets (chapter 19 of spec/).
-/
namespace Sys2Proof.Machine
open Sys2Proof

def State.onEp (g : EpSt → EpSt) (s : State) : State := s.onFab fun f => { f with ep := g f.ep }

/-! ### Configuration space (R699 to R701) -/

/-- The header values of Table 19.1: offset, bytes, value. -/
def cfgHeader : List (Nat × Nat × Nat) :=
  [(0x00, 2, 0x1F9C), (0x02, 2, 0x4B18), (0x08, 1, 0x00), (0x09, 3, 0x088000), (0x0E, 1, 0x00), (0x2C, 2, 0x1F9C), (0x2E, 2, 0x4B18)
   , (0x34, 1, 0x40), (0x3D, 1, 0x00)]
/-- The 64-bit memory BARs, none prefetchable: offset and size. -/
def cfgBars : List (Nat × Nat) := [(0x10, 2 ^ 29), (0x18, 2 ^ 20), (0x20, 2 ^ 16)]
/-- The capabilities in their order (Table 19.2): offset and ID. -/
def cfgCaps : List (Nat × Nat) :=
  [(0x40, 0x01), (0x50, 0x11), (0x70, 0x10), (0x100, 0x0001), (0x150, 0x0003), (0x160, 0x0019), (0x180, 0x0025), (0x190, 0x0026), (0x1D0, 0x002A)
   , (0x210, 0x0031), (0x240, 0x0032)]
/-- A write of Max Read Request Size in Device Control, honoured up to 4,096 bytes (R701). -/
def State.setMrrs (bytes : Nat) (s : State) : State :=
  if [128, 256, 512, 1024, 2048, 4096].contains bytes then s.onEp fun p => { p with mrrs := bytes } else s

/-! ### AER (R703 to R706, Table 19.3) -/

def aerCorrectable : AerErr → Bool
  | .receiverError | .badTlp | .badDllp | .replayRollover | .replayTimeout | .advisoryNonFatal | .correctedInternal | .headerLogOverflow => true
  | _ => false
/-- Set a status bit. -/
def addErr (e : AerErr) (l : List AerErr) : List AerErr := if l.contains e then l else l ++ [e]

/-- An uncorrectable error: the first unmasked one takes the Header Log; a later one overflows it (R703). -/
def AerSt.uncorrectable (e : AerErr) (hdr : Nat) (a : AerSt) : AerSt :=
  let b := { a with uncStatus := addErr e a.uncStatus }
  if a.uncMask.contains e then b
  else match a.firstErr with
    | none => { b with firstErr := some e, headerLog := hdr }
    | some _ => { b with corStatus := addErr .headerLogOverflow b.corStatus }
/-- An unexpected completion is an advisory non-fatal error (R706). -/
def AerSt.advisory (e : AerErr) (a : AerSt) : AerSt :=
  { a with corStatus := addErr .advisoryNonFatal a.corStatus, uncStatus := addErr e a.uncStatus }
def AerSt.log (e : AerErr) (hdr : Nat) (a : AerSt) : AerSt :=
  if aerCorrectable e then { a with corStatus := addErr e a.corStatus }
  else if e = .unexpectedCompletion then a.advisory e
  else a.uncorrectable e hdr
def State.aerLog (e : AerErr) (hdr : Nat) (s : State) : State := s.onEp fun p => { p with aer := p.aer.log e hdr }

/-! ### What waited for the endpoint -/

/-- Messages, and records, that nothing holds back any more leave (R707, R715). -/
def State.epService (s : State) : State :=
  s.onFab fun f => (List.range 4).foldl (fun (g : Fab) n => g.ringFlush n s.timeStamp 66) f.msixDrain

/-! ### The mailbox (R712 to R714) -/

def State.mboxSize (s : State) : Nat := 2 ^ s.get (pgMgmt 0) F.MBOX_CFG_SIZE_LOG2
def State.mboxBase (s : State) : Nat := s.get (pgMgmt 0) F.MBOX_RQ_LO_ADDR * 64 + s.get (pgMgmt 0) F.MBOX_RQ_HI_ADDR * 2 ^ 32
/-- The lowest PCIe tag that is free. -/
def EpSt.freeTag (p : EpSt) : Nat := ((List.range 1024).find? fun t => !p.dmaOut.contains t && !p.tagQuar.contains t).getD 0
def EpSt.endDma (t : Nat) (p : EpSt) : EpSt := { p with dmaOut := p.dmaOut.filter fun x => decide (x ≠ t) }
/-- The read requests of a buffer, none longer than Max Read Request Size (R701): address and length of each. -/
def EpSt.readParts (p : EpSt) (addr len : Nat) : List (Nat × Nat) :=
  let m := max 1 p.mrrs
  (List.range ((len + m - 1) / m)).map fun i => (addr + m * i, min m (len - m * i))
/-- A buffer is read by DMA: its requests use one tag, one after another. -/
def State.mgmtDma (addr len tag : Nat) (s : State) : State :=
  (s.fab.ep.readParts addr len).foldl (fun t e => t.emit (.mgmtRead e.1 e.2 tag)) (s.onEp fun p => { p with
    dmaOut := insertSorted tag p.dmaOut })

/-- The request at HEAD is fetched, one at a time (R712). -/
def State.mboxKick (s : State) : State :=
  let p := s.fab.ep
  let head := s.get (pgMgmt 0) F.MBOX_STAT_HEAD
  if !s.flag (pgMgmt 0) F.MBOX_CFG_EN ∨ !s.isOn (pgMgmt 0) ∨ !s.fab.canPost ∨ p.mbox.isSome ∨ p.mboxFetch.isSome
      ∨ head = s.get (pgMgmt 0) F.MBOX_DB_TAIL % s.mboxSize then s
  else (s.mgmtDma (s.mboxBase + 64 * head) 64 p.freeTag).onEp fun q => { q with mboxFetch := some p.freeTag }

/-- A request is one that R713 allows (STATUS 1 otherwise). -/
def mboxValid (r : MboxReq) : Bool :=
  decide (r.version = 1 ∧ r.dataLen ≤ 1048576) && r.reservedZero &&
    match r.opcode with
    | 1 => decide (64 ≤ r.dataLen)
    | 2 => decide (r.slotBay < 2 ∧ r.dataLen % 65536 = 0 ∧ r.offset % 65536 = 0 ∧ r.offset + r.dataLen ≤ 0x2000000)
    | 3 => decide (r.slotBay < 2 ∧ r.offset % 65536 = 0 ∧ r.offset + r.dataLen ≤ 0x2000000)
    | 4 => decide (r.slotBay < 24 ∧ r.smbAddr < 128 ∧ r.wlen ≤ 32 ∧ r.rlen ≤ 32 ∧ r.rlen ≤ r.dataLen)
    | _ => false

/-- The command in execution has come to its status. -/
def State.mboxEnd (status bytes : Nat) (s : State) : State :=
  match s.fab.ep.mbox with
  | none => s
  | some m => ((s.onEp fun p => { p with mbox := some { m with status := status, bytes := bytes, executed := true, tag := none } }).when
      (decide (status ≠ 0)) (State.count E.MGMT_MBOX_ERR 1))

/-- Execution begins: a SLOT_WRITE asks for its data, unless the slot runs. -/
def State.mboxBegin (s : State) : State :=
  match s.fab.ep.mbox with
  | none => s
  | some m =>
    if m.executed ∨ m.tag.isSome then s
    else
      let s1 := s.onEp fun p => { p with mbox := some { m with held := false } }
      if m.req.opcode ≠ 2 then s1
      else if m.req.slotBay = s.get (pgMgmt 3) F.FW_STAT_RUNNING_SLOT then s1.mboxEnd 3 0
      else if m.req.dataLen = 0 then s1.mboxEnd 0 0
      else
        let t := s.fab.ep.freeTag
        (s1.mgmtDma m.req.dataAddr m.req.dataLen t).onEp fun p => { p with mbox := some { m with held := false, tag := some t } }

/-- A request has arrived (R261, R712, R713). -/
def State.mboxArrive (r : MboxReq) (s : State) : State :=
  let s1 := ((s.onEp fun p => { p with mbox := some { req := r } }).setF (pgMgmt 0) F.MBOX_STAT_BUSY 1).count E.MGMT_MBOX_CMDS 1
  if !mboxValid r then (s1.mboxEnd 1 0).occur S.MGMT_MBOX_PROTO
  else if s.flag pgCmdq F.CMDQ_FW_HOLD then
    ((s1.onEp fun p => { p with mbox := some { req := r, held := true } }).satAdd pgCmdq F.CMDQ_FW_HELD 1).count E.CMDQ_FW_HELD 1
  else s1.mboxBegin

/-- The host buffer takes bytes of a command that has ended with success: at once, or with its completion. -/
def State.mboxData (data : Blob) (s : State) : State :=
  match s.fab.ep.mbox with
  | none => s
  | some m =>
    let t := s.mboxEnd 0 data.len
    if m.orphan ∨ data.len = 0 then t
    else if s.fab.canPost then t.emit (.mgmtWrite m.req.dataAddr data)
    else t.onEp fun p => { p with mbox := p.mbox.map fun x => { x with wr := some (m.req.dataAddr, data) } }

/-- The completion entry leaves, HEAD advances, and the vector is requested (R712). -/
def State.mboxFinish (m : MboxRun) (s : State) : State :=
  let size := s.mboxSize
  let k := s.fab.ep.cqSeq
  let s1 := match m.wr with
    | some (a, d) => s.emit (.mgmtWrite a d)
    | none => s
  let s2 := s1.emit (.mboxCompletion (k % size) m.req.rqId m.status ((k / size + 1) % 2) m.bytes)
  let s3 := s2.onEp fun p => { p with mbox := none, mboxHeldCpl := false, cqSeq := k + 1 }
  (((s3.setF (pgMgmt 0) F.MBOX_STAT_HEAD ((s.get (pgMgmt 0) F.MBOX_STAT_HEAD + 1) % size)).setF (pgMgmt 0) F.MBOX_STAT_BUSY 0).onFab
    (Fab.msixRequest (s.get (pgMgmt 0) F.MBOX_CFG_VECTOR))).mboxKick

/-- A command that has its status completes: an orphan leaves nothing (R711), and the completion waits for D0 (Table 19.4). -/
def State.mboxComplete (s : State) : State :=
  match s.fab.ep.mbox with
  | none => s
  | some m =>
    if !m.executed then s
    else if m.orphan then (s.onEp fun p => { p with mbox := none }).mboxKick
    else if s.fab.canPost then s.mboxFinish m
    else s.onEp fun p => { p with mboxHeldCpl := true }

/-- The endpoint can post again: messages, records, the held completion, and the next request. -/
def State.epResume (s : State) : State := (s.epService.when s.fab.ep.mboxHeldCpl State.mboxComplete).mboxKick

/-! ### Resets of the endpoint (R709 to R711) -/

/-- The mailbox and the rings stop where they stand: outstanding reads are discarded and their tags quarantined. -/
def EpSt.cut (p : EpSt) : EpSt := { p with
  rings := {}, cqSeq := 0, mboxFetch := none, mboxHeldCpl := false, dmaOut := []
  tagQuar := p.dmaOut.foldl (fun l t => insertSorted t l) p.tagQuar
  mbox := match p.mbox with
    | none => none
    | some m => if m.executed then none else some { m with orphan := true, tag := none } }

/-- FLR, and with `fundamental` the reset of PERST#: the fields of Table 19.8 but DOWN_COUNT, the configuration space, and nothing else
(R709, R710). -/
def State.epReset (fundamental : Bool) (s : State) : State :=
  (s.onFab (Fab.softResetRegs (pgMgmt 0))).setF (pgMgmt 0) F.EP_STAT_DSTATE 0 |>.onEp fun p =>
    let q := p.cut
    { q with dstate := .d0, bme := false, funcMask := false, msix := {}, pba := [], mrrs := 512
             aer := if fundamental then {} else q.aer }

end Sys2Proof.Machine
end

