-- ==== Sys2Proof/Machine/CmdqExec.lean ====
section
/-!
DEFINITION. The commands of CMDQ that every host command meets: staging, slots, checks, admission, the I/O commands, the commit point
(chapter 06 of spec/).
-/
namespace Sys2Proof.Machine
open Sys2Proof

/-! ### Staging and slots (R240 to R249) -/

/-- Capsules that their tenant's slots hold back are counted once each (Table 6.6). -/
def State.markWaits (s : State) : State :=
  s.cmdq.queues.list.foldl (fun t e =>
    let n := (e.2.staging.filter fun c => !c.waited).length
    if n = 0 ∨ s.mayTakeSlot e.2.tenant then t
    else (t.setQueue e.1 { e.2 with staging := e.2.staging.map fun c => { c with waited := true } }).count E.CMDQ_SLOT_WAIT n) s

/-- A message received whole on an NVMe connection: the 64 bytes of its SQE and its in-capsule data (R234). -/
def InSend.capsule (m : InSend) : Capsule :=
  { sqe := m.data.val % 2 ^ 512, data := ⟨m.data.len - 64, m.data.val / 2 ^ 512⟩, colour := m.colour, psn := m.psn }

def execCapsuleRx (ctx : Nat) (s : State) : Result :=
  .next (match s.queue ctx, (s.ctx ctx).rx.msgs with
    | some q, m :: rest =>
      if !s.isLive pgCmdq ∨ (s.ctx ctx).state ≠ .ready then s
      else
        let s1 := s.onRx ctx fun x => { x with msgs := rest }
        if 32 ≤ s.queueLoad ctx then ((s1.count E.CMDQ_SQ_OVERRUN 1).occur S.CMDQ_SQ_OVERRUN).closeConn ctx 9
        else (s1.setQueue ctx { q with staging := q.staging ++ [m.capsule] }).markWaits.syncCmdq
    | _, _ => s)

/-- The first of a rising list above a mark, or its first (rotation). -/
def nextAfter (mark : Nat) (l : List Nat) : Option Nat := (l.find? fun x => decide (mark < x)).orElse fun _ => l.head?

/-- The queue whose capsule takes the next slot (R239, R243), and whether a tenant below its reserve has it. -/
def State.nextQueue (s : State) : Option (Nat × Bool) :=
  let wait := s.cmdq.queues.list.filter fun e => !e.2.stopped && !e.2.staging.isEmpty && decide (s.cmdq.slots.size < 262144)
  let low := wait.filter fun e => decide (s.slotsOf e.2.tenant < s.slotMin e.2.tenant)
  let tenants := ((low.map fun e => e.2.tenant).uniq).mergeSort fun a b => decide (a ≤ b)
  match nextAfter s.cmdq.lastTenant tenants with
  | some t => (nextAfter s.cmdq.lastQueue ((low.filter fun e => decide (e.2.tenant = t)).map Prod.fst)).map fun i => (i, true)
  | none => (nextAfter s.cmdq.lastQueue ((wait.filter fun e => s.mayTakeSlot e.2.tenant).map Prod.fst)).map fun i => (i, false)

/-- FREE to FETCHED (Table 6.4): the slot taken. -/
def State.takeSlot (i : Nat) (reserve : Bool) (s : State) : Nat × State :=
  let n := s.freeSlotIndex
  match s.queue i with
  | none => (n, s)
  | some q => match q.staging with
    | [] => (n, s)
    | c :: rest =>
      let x : Slot := { tenant := q.tenant, conn := i, incarnation := (s.ctx i).incarnation, qid := q.qid, cid := sqeCid c.sqe
                        cntlid := q.ctrl.getD 0 % 65536, sqe := c.sqe, fetchTime := s.timeStamp, order := q.nextOrder
                        capsulePsn := c.psn, colour := c.colour, capData := c.data }
      let s1 := (s.setQueue i { q with staging := rest, sqHead := (q.sqHead + 1) % max 1 q.size, nextOrder := q.nextOrder + 1 }).setSlot n x
      let s2 := s1.onCmdq fun m => { m with lastQueue := i, lastTenant := if reserve then q.tenant else m.lastTenant }
      (n, ((s2.count E.CMDQ_CMD_FETCH 1).when (decide (s.sharedSlots ≠ 0 ∧ s2.sharedSlots = 0)) (State.occur S.CMDQ_SHARED_EMPTY)).markWaits.syncCmdq.mirrorIf
        i (.command n))

/-! ### Checks (R236 to R238, R492) -/

/-- Table 6.3: the opcodes that a queue of a controller takes. -/
def opcValid (discovery authReq : Bool) (qid sqe : Nat) : Bool :=
  let opc := sqeOpc sqe
  if opc = 0x7F then
    let f := sqeFctype sqe
    decide (f = 0x00 ∨ f = 0x01 ∨ f = 0x04) || (decide (f = 0x05 ∨ f = 0x06) && (!discovery || authReq))
  else if qid = 0 then
    decide (opc = 0x02 ∨ opc = 0x06 ∨ opc = 0x18) || (!discovery && decide (opc = 0x08 ∨ opc = 0x09 ∨ opc = 0x0A ∨ opc = 0x0C))
  else decide (opc = 0x00 ∨ opc = 0x01 ∨ opc = 0x02 ∨ opc = 0x08 ∨ opc = 0x09)

/-- What the checks of R237 come to: the status of the first that fails, the volume, the state. -/
structure IoTest where
  fail : Option Cpl
  volume : Nat
  after : State

/-- Checks 4 to 8. -/
def State.ioCheck4 (s : State) (x : Slot) (v : Nat) : Option Cpl :=
  let opc := sqeOpc x.sqe
  let e := s.ns v
  let n := sqeNlb x.sqe
  let moves := decide (opc = 0x01 ∨ opc = 0x02)
  let waits := s.jrnl.recs.any fun _ r => r.sealed && decide (r.volume = v)
  if !(s.pool (s.volPool v)).usable ∨ waits then some (cplErr 0 0xC0)
  else if opc = 0x00 then none
  else if (moves ∨ opc = 0x09) ∧ sqeSglId x.sqe ≠ 0x40 then some (cplErr 0 0x11)
  else if moves ∧ 2097152 < n * nsLba e then some (cplErr 0 0x02)
  else if moves ∧ sqeSglLen x.sqe ≠ n * nsLba e then some (cplErr 0 0x0F)
  else if opc = 0x09 ∧ sqeSglLen x.sqe < 16 * (sqeCdw x.sqe 10 % 256 + 1) then some (cplErr 0 0x0F)
  else if (moves ∨ opc = 0x08) ∧ nsSize e < sqeSlba x.sqe + n then some (cplErr 0 0x80)
  else none

def State.ioChecks (x : Slot) (s : State) : IoTest :=
  let nsid := sqeNsid x.sqe
  let all := decide (sqeOpc x.sqe = 0x00 ∧ nsid = 0xFFFFFFFF)
  let vol := if all then none else s.nsVolume x.tenant nsid
  let v := vol.getD 0
  if !all ∧ vol.isNone then ⟨some (cplErr 0 0x0B), 0, s⟩
  else if s.suspended x.tenant then ⟨some (cplErr 0 0xC1 true), v, s.count E.CMDQ_SUSPENDED 1⟩
  else match s.cmdq.deferredPending.find? fun k => if all then decide (nsTenant (s.ns k) = x.tenant) else decide (k = v) with
    | some k => ⟨some (cplErr 0 0xC4), v, s.onCmdq fun c => { c with deferredPending := c.deferredPending.filter fun y => decide (y ≠ k) }⟩
    | none => if all then ⟨none, 0, s⟩ else ⟨s.ioCheck4 x v, v, s⟩

/-- The event that counts an I/O command. -/
def ioEvt : Nat → Evt
  | 0x00 => E.CMDQ_FLUSH_CMDS | 0x01 => E.CMDQ_WRITE_CMDS | 0x02 => E.CMDQ_READ_CMDS | 0x08 => E.CMDQ_WZ_CMDS | _ => E.CMDQ_DSM_CMDS

/-- An I/O command: its checks in order, its capacity, then the command limiter; a Flush starts at once (R335). -/
def State.beginIo (n : Nat) (x : Slot) (s0 : State) : State :=
  let opc := sqeOpc x.sqe
  let r := (s0.count (ioEvt opc) 1).ioChecks x
  let y := { x with volume := r.volume, nsEnt := s0.ns r.volume }
  let s := r.after.setSlot n y
  match r.fail with
  | some c => s.commitSlot n c
  | none =>
    if opc = 0x00 then s.setSlot n { y with state := .started }
    else if s.overCapacity r.volume y.resv then
      (s.count E.PLCE_CAP_REFUSED 1).commitSlot n (cplErr 0 0xC2 true)
    else s.policeCmd n

/-- What becomes of a command that is FETCHED (R236, R238, R261, R335). -/
def State.beginCmd (n : Nat) (s : State) : State :=
  match s.slot n with
  | none => s
  | some x => match s.queue x.conn with
    | none => s
    | some q =>
      let fab := decide (sqeOpc x.sqe = 0x7F)
      let f := sqeFctype x.sqe
      let disc := match q.ctrl.bind s.ctrl with
        | some c => c.discovery
        | none => false
      if x.qid = 0 ∧ s.flag pgCmdq F.CMDQ_FW_HOLD then
        ((s.setSlot n { x with fwHeld := true }).onCmdq fun c => { c with held := c.held ++ [n] }).satAdd pgCmdq F.CMDQ_FW_HELD 1
          |>.count E.CMDQ_FW_HELD 1
      else if (q.authReq && !q.authDone && !(fab && decide (f = 0x05 ∨ f = 0x06))) || (q.ctrl.isNone && !(fab && decide (f = 0x01))) then
        s.commitSlot n (cplErr 0 0x0C)
      else
        let adm := fab || decide (x.qid = 0)
        let s1 := s.when adm (State.count E.CMDQ_ADMIN_CMDS 1)
        if !opcValid disc q.authReq x.qid x.sqe then (s1.count E.CMDQ_INVALID_OPC 1).commitSlot n (cplErr 0 0x01)
        else if adm then s1.setSlot n { x with state := .started, fwHeld := false }
        else s1.beginIo n x

def execSlotAssign (s : State) : Result :=
  .next (if !s.isOn pgCmdq then s
    else match s.nextQueue with
      | none => s
      | some (i, reserve) =>
        let r := s.takeSlot i reserve
        r.2.beginCmd r.1)

/-! ### The work of the I/O commands -/

/-- Host data of a command is fetched by RDMA READ (R234). -/
def State.fetchHost (n len : Nat) (x : Slot) (s : State) : State :=
  (s.setSlot n { x with wanted := len }).submit x.conn (.read (sqeSglAddr x.sqe) (sqeSglKey x.sqe) len n)

def State.writeWork (n : Nat) (x : Slot) (s : State) : State :=
  if x.wanted ≠ 0 ∨ x.fetched then s else s.fetchHost n x.writeLen x

/-- Extents of records of at most 2^31 blocks, in rising order (R397): byte offset and blocks. -/
def splitExtent (offset blocks : Nat) : List (Nat × Nat) :=
  (List.range ((blocks + 2 ^ 31 - 1) / 2 ^ 31)).map fun i => (offset + i * 2 ^ 40, min (2 ^ 31) (blocks - i * 2 ^ 31))

/-- Zero or deallocate records of a command open, all of them (R397). -/
def State.openZero (n type : Nat) (x : Slot) (ext : List (Nat × Nat)) (s : State) : State :=
  if !s.isLive pgJrnl ∨ s.saving ∨ (s.findSpace (256 * ext.length)).isNone then s
  else ext.foldl (fun t e => t.openRec { type := type, volume := x.volume, len := e.2, offset := e.1, tenant := x.tenant, slot := some n })
    (s.setSlot n { x with recsMade := true, recsOpen := ext.length })

def State.zeroWork (n : Nat) (x : Slot) (s : State) : State :=
  if x.recsMade then s else s.openZero n 2 x (splitExtent (sqeSlba x.sqe * x.lba) (x.bytes / 512))

/-- The ranges of a Dataset Management command: SLBA and length. -/
def dsmRanges (x : Slot) : List (Nat × Nat) :=
  (List.range (sqeCdw x.sqe 10 % 256 + 1)).map fun i => (bytesAt x.data.val (16 * i + 8) 8, bytesAt x.data.val (16 * i + 4) 4)
/-- Check 8 of R237 on every range, then, with AD = 1, the records of those with some length (R397). -/
def State.dsmWork (n : Nat) (x : Slot) (s : State) : State :=
  let e := x.nsEnt
  let some_ := (dsmRanges x).filter fun r => decide (r.2 ≠ 0)
  if !x.fetched then (if x.wanted = 0 then s.fetchHost n (16 * (sqeCdw x.sqe 10 % 256 + 1)) x else s)
  else if x.recsMade then s
  else if (dsmRanges x).any fun r => decide (nsSize e < r.1 + r.2) then s.setSlot n { x with outcome := some (cplErr 0 0x80) }
  else if some_.isEmpty ∨ !bitAt (sqeCdw x.sqe 11) 2 then s.setSlot n { x with outcome := some cplOk }
  else s.openZero n 3 x (some_.flatMap fun r => splitExtent (r.1 * nsLba e) (r.2 * nsLba e / 512))

/-- The blocks of a unit that a read needs from the pool. -/
def readNeed (lun first count cover : Nat) : List Nat :=
  (List.range 32).filter fun i => decide (first ≤ lun * 32 + i ∧ lun * 32 + i < first + count) && !bitAt cover (lun * 32 + i - first)
/-- The granules of a raw unit that hold blocks lo to hi, and its header (R32). -/
def rawRanges (lo hi : Nat) : List (Nat × Nat) := if lo ≤ 1 then [(0, hi + 2)] else [(0, 1), (lo, hi + 2 - lo)]

/-- One unit of a read: its map page, its entry, its granules (Table 1.4, R474). -/
def State.readUnit (n : Nat) (s : State) (lun : Nat) : State :=
  match s.slot n with
  | none => s
  | some x =>
    let v := x.volume
    let first := sqeSlba x.sqe * x.lba / 512
    let need := readNeed lun first (x.bytes / 512) x.cover
    let mark := fun (t : State) => t.onSlot n fun y => { y with looked := lun :: y.looked }
    if x.looked.contains lun ∨ x.outcome.isSome then s
    else match need with
      | [] => mark s
      | lo :: rest =>
        let cls := s.slotClass x
        let r := if s.isLive pgPlce then s.lookupPage (pageKey v lun) cls else (false, s)
        if !r.1 then r.2
        else
          let t := mark r.2
          let e := t.entry v lun
          if meDamaged e then (t.setOutcome n (cplErr 0 0xC3 true)).count E.PLCE_READ_DAMAGED 1
          else if !mePhys e then t.fillSlot n lun 0
          else
            let part := meRaw e && decide (need.length < 32)
            let q := t.newRead v lun (.slot n) (if part then rawRanges lo (rest.getLast?.getD lo) else [(0, meGlen e)]) part cls
            match q.2.askParts q.1 [], q.2.readJob q.1 with
            | some u, _ => u
            | none, some j => q.2.loseRead q.1 j (cplErr 0 0xC3 true)
            | none, none => q.2

/-- The journal's part of a read (R400 to R402): the references it takes, held until its bytes are in cells (R34). -/
def State.readBegin (n : Nat) (x : Slot) (s : State) : State :=
  let first := sqeSlba x.sqe * x.lba / 512
  let count := x.bytes / 512
  let o := s.overlay x.volume first count
  let hit := ((List.range count).filterMap fun i => (s.recAt x.volume (first + i)).map Prod.fst).uniq
  let s1 := hit.foldl (fun t k => match t.jrec k with
    | some r => t.setRec k { r with readers := insertSorted n r.readers }
    | none => t) s
  let c := if o.1 = 0 then (true, s1) else s1.jrnlCells n (512 * popCount count o.1)
  if !c.1 then c.2
  else
    let s2 := ((c.2.dropRefs n).onSlot n fun y => { y with begun := true, jcover := o.1, cover := o.1, data := ⟨512 * count, o.2⟩ }).releaseRecs
    if o.1 = 2 ^ count - 1 then s2.count E.JRNL_READ_HIT 1 else s2.when (decide (o.1 ≠ 0)) (State.count E.JRNL_READ_PARTIAL 1)

def State.readWork (n : Nat) (x : Slot) (s : State) : State :=
  if s.saving then s
  else
    let s1 := if x.begun then s else s.readBegin n x
    match s1.slot n with
    | none => s1
    | some y =>
      if !y.begun then s1
      else
        let units := unitsOf (sqeSlba y.sqe * y.lba) y.bytes
        let s2 := units.foldl (State.readUnit n) s1
        match s2.slot n with
        | some z => if z.allLooked && z.outcome.isNone then s2.readReady n else s2
        | none => s2

/-- Every earlier Write, Write Zeroes and Dataset Management of a Flush's queue has committed (R255). -/
def State.flushReady (s : State) (x : Slot) : Bool :=
  s.cmdq.slots.all fun _ y => !(isJournaled (sqeOpc y.sqe) && decide (y.qid ≠ 0 ∧ y.conn = x.conn ∧ y.incarnation = x.incarnation ∧
    y.order < x.order ∧ (y.state = .fetched ∨ y.state = .started)))

/-- A STARTED I/O command of an opcode whose result has not been produced. -/
def State.ioCmd (s : State) (n opc : Nat) : Option Slot := match s.slot n with
  | some x => if x.state = .started ∧ x.qid ≠ 0 ∧ sqeOpc x.sqe = opc ∧ x.outcome.isNone then some x else none
  | none => none

/-- The first work of a command that its leaf admits (Table 6.4). -/
def State.startWork (n : Nat) (s : State) : State :=
  match s.slot n with
  | none => s
  | some x => match sqeOpc x.sqe with
    | 0x01 => s.writeWork n x
    | 0x02 => s.readWork n x
    | 0x08 => s.zeroWork n x
    | 0x09 => s.dsmWork n x
    | _ => s

def execCmdAdmit (slot : Nat) (s : State) : Result :=
  .next (match s.slot slot with
    | none => s
    | some x =>
      if x.state ≠ .fetched ∨ !s.tmgr.chosen.contains slot ∨ !s.isLive pgCmdq then s
      else ((s.setSlot slot { x with state := .started }).onTmgr fun t => { t with
        chosen := t.chosen.filter fun k => decide (k ≠ slot) }).startWork slot)

def execFlush (slot : Nat) (s : State) : Result :=
  .next (match s.ioCmd slot 0x00 with
    | some x => if s.flushReady x then s.setOutcome slot cplOk else s
    | none => s)
def execWrite (slot : Nat) (s : State) : Result := .next (match s.ioCmd slot 0x01 with
  | some x => s.writeWork slot x
  | none => s)
def execRead (slot : Nat) (s : State) : Result := .next (match s.ioCmd slot 0x02 with
  | some x => s.readWork slot x
  | none => s)
def execWriteZeroes (slot : Nat) (s : State) : Result := .next (match s.ioCmd slot 0x08 with
  | some x => s.zeroWork slot x
  | none => s)
def execDatasetManagement (slot : Nat) (s : State) : Result := .next (match s.ioCmd slot 0x09 with
  | some x => s.dsmWork slot x
  | none => s)

/-! ### Commit and response (R244, R245) -/

/-- The cells of a read's data are given back. -/
def State.dropReadCells (n : Nat) (s : State) : State := (s.dropKind (readOfSlot n)).dropKind (resultOfSlot n)

/-- The work of a command commits with its result. -/
def State.commitWork (n : Nat) (s : State) : State :=
  match s.slot n with
  | none => s
  | some x => match x.outcome with
    | none => s
    | some c =>
      let rd := decide (x.qid ≠ 0 ∧ sqeOpc x.sqe = 0x02)
      if x.state ≠ .started ∨ (rd && (s.slotBusy n || (c.ok && s.inVat (resultOfSlot n)))) then s
      else if rd then (if c.ok then ((s.unitsWhere (resultOfSlot n)).foldl (fun t u => t.pinUnit u) s).commitSlot n c
        else (s.dropReadCells n).commitSlot n c).releaseRecs
      else s.commitSlot n c

def execCmdCommit (slot : Nat) (s : State) : Result := .next (if s.isLive pgCmdq then (s.commitWork slot).settleResets else s)

/-- The host's transport has acknowledged a response (Table 6.4). -/
def execResponseAcked (slot : Nat) (s : State) : Result :=
  .next (if !s.xprt.ackedSlots.contains slot then s
    else
      let s1 := s.onXprt fun x => { x with ackedSlots := removeFirst slot x.ackedSlots }
      match s1.slot slot with
      | none => s1
      | some x =>
        if x.state ≠ .completed then s1
        else if s1.slotBusy slot then s1.setSlot slot { x with orphan := true }
        else (s1.freeSlot slot).settleResets)

/-! ### Controllers that expire, and the firmware hold (R260 to R262) -/

def execKatoExpiry (ctrl : Nat) (s : State) : Result :=
  .next (match s.ctrl ctrl with
    | none => s
    | some c =>
      if c.kato = 0 ∨ s.flag pgCmdq F.CMDQ_FW_HOLD then s
      else ((s.count E.CMDQ_KATO_EXPIRE 1).occur S.CMDQ_KATO_EXPIRED).resetCtrl ctrl none true)

/-- Every event that waits is posted while requests are held. -/
def State.postAll (s : State) (k : Nat) : State :=
  match s.ctrl k with
  | none => s
  | some c => (List.range c.events.length).foldl (fun t _ => t.postEvents k) s

/-- The hold ends: keep-alive timers restart, held commands run in order, events are posted (R261, R262). -/
def State.holdEnd (s : State) : State :=
  if !s.flag pgCmdq F.CMDQ_FW_HOLD then s
  else
    let s1 := (s.setF pgCmdq F.CMDQ_FW_HOLD 0).onCmdq fun c => { c with
      held := [], ctrls := c.ctrls.mapVals fun _ v => { v with katoStart := s.nowMs } }
    let s2 := (s.cmdq.held.mapIdx fun i n => (i, n)).foldl (fun t e =>
      (t.onSlot e.2 fun x => { x with holdSeq := some e.1 }).beginCmd e.2) s1
    let s3 := s2.cmdq.ctrls.keys.foldl State.postAll s2
    match s3.fab.ep.mbox with
    | some m => if m.held then s3.mboxBegin else s3
    | none => s3

def execFwHoldEnd (s : State) : Result := .next s.holdEnd
def execFwHoldTimeout (s : State) : Result :=
  .next (if s.flag pgCmdq F.CMDQ_FW_HOLD then s.holdEnd.occur S.CMDQ_FW_HOLD_LONG else s)

end Sys2Proof.Machine
end

