-- ==== Sys2Proof/Machine/CmdqAdmin.lean ====
section
/-!
DEFINITION. The fabrics and admin commands of CMDQ (chapter 06 of spec/): what device firmware answers to each. A command acts on a
STARTED slot of its own opcode and leaves its result in the slot; CMD_COMMIT commits it.
-/
namespace Sys2Proof.Machine
open Sys2Proof

/-- The discovery NQN of NVMe over Fabrics. -/
def discoveryNqn : Nat := ofBytes (("nqn.2014-08.org.nvmexpress.discovery".toList).map Char.toNat)
/-- The text of a C string of 256 bytes: what stands before its first NUL. -/
def cString (x : Nat) : List Nat := (toBytes 256 x).takeWhile fun b => decide (b ≠ 0)

/-- Admin commands wait: during a firmware activation's hold, and after it behind the held ones that came before (R261, R262). -/
def State.mustWait (s : State) (x : Slot) : Bool :=
  decide (x.qid = 0) && (s.flag pgCmdq F.CMDQ_FW_HOLD || s.cmdq.slots.any fun _ y => match y.holdSeq, x.holdSeq with
    | some a, some b => decide (y.state = .started ∧ a < b) && y.outcome.isNone
    | some _, none => decide (y.state = .started) && y.outcome.isNone
    | none, _ => false)
/-- A STARTED command with no result yet, with its queue, where its opcode fits. -/
def State.adminCmd (s : State) (n : Nat) (fits : Slot → Bool) : Option (Slot × Queue) :=
  match s.slot n with
  | none => none
  | some x => match s.queue x.conn with
    | none => none
    | some q => if x.state = .started ∧ x.outcome.isNone ∧ fits x ∧ !s.mustWait x then some (x, q) else none
def isAdmin (opc : Nat) (x : Slot) : Bool := decide (x.qid = 0 ∧ sqeOpc x.sqe = opc)
def isFabrics (f : Nat) (x : Slot) : Bool := decide (sqeOpc x.sqe = 0x7F ∧ sqeFctype x.sqe = f)

/-- A command whose result is a status and a dword. -/
def State.answer (n dw0 : Nat) (s : State) : State := s.setOutcome n { dw0 := dw0 }
def State.refuseCmd (n sct sc : Nat) (dw0 : Nat := 0) (s : State) : State := s.setOutcome n { sct := sct, sc := sc, dw0 := dw0 }

/-- Data for the host's buffer, cut to the buffer's length; it moves through a keyed data block only (R234). -/
def State.answerData (n : Nat) (x : Slot) (d : Blob) (s : State) : State :=
  if sqeSglId x.sqe ≠ 0x40 then s.refuseCmd n 0 0x11
  else
    let len := min d.len (sqeSglLen x.sqe)
    (s.onSlot n fun v => { v with data := ⟨len, bytesAt d.val 0 len⟩ }).setOutcome n cplOk

/-- What a command that takes host data has of it: the data, a refusal, or nothing yet. -/
inductive HostData
  | ready (d : Blob)
  | bad (sc : Nat)
  | fetch (len : Nat)
  | coming
deriving DecidableEq, Repr

/-- Host data of a fabrics command (R234): in the capsule on the admin queue, else by RDMA READ. -/
def hostData (x : Slot) (need : Nat) : HostData :=
  let len := sqeSglLen x.sqe
  if x.fetched then .ready x.data
  else if x.wanted ≠ 0 then .coming
  else if x.qid = 0 ∧ sqeSglId x.sqe = 0x01 then
    if len < need ∨ 8192 < len ∨ x.capData.len < sqeSglAddr x.sqe + len then .bad 0x0F
    else .ready ⟨len, bytesAt x.capData.val (sqeSglAddr x.sqe) len⟩
  else if sqeSglId x.sqe ≠ 0x40 then .bad 0x11
  else if len < need ∨ 8192 < len ∨ len = 0 then .bad 0x0F
  else .fetch len

/-! ### Connect (R225 to R230, R233) -/

/-- The least CNTLID that is free within a subsystem (R227). -/
def State.freeCntlid (s : State) (tenant : Nat) : Option Nat :=
  let used := (s.ctrlsOf tenant).map fun k => k % 65536
  ((List.range (used.length + 1)).map (· + 1)).find? fun c => decide (c ≤ 0xFFEF) && !used.contains c

/-- The authentication entry of a tenant's host (R212): the first VALID one with REQUIRED = 1, else the first VALID one. -/
def State.authFor (s : State) (tenant hostNqn : Nat) : Option (Nat × AuthEnt) :=
  let fits := s.gard.auth.list.filter fun e => e.2.valid && decide (e.2.tenant = tenant ∧ e.2.hostNqn = hostNqn)
  (fits.find? fun e => e.2.required).or fits.head?

/-- The fields of a Connect. -/
structure ConnectCmd where
  cntlid : Nat
  hostId : Nat
  subNqn : Nat
  hostNqn : Nat
  qid : Nat
  sqSize : Nat
  cattr : Nat
  kato : Nat
deriving DecidableEq, Repr

def connectCmd (sqe : Nat) (d : Nat) : ConnectCmd :=
  { hostId := bytesAt d 0 16, cntlid := bytesAt d 16 2, subNqn := bytesAt d 256 256, hostNqn := bytesAt d 512 256
    qid := bytesAt sqe 42 2, sqSize := bytesAt sqe 44 2, cattr := byteAt sqe 46, kato := bytesAt sqe 48 4 }

/-- Connect Invalid Parameters: DW0 points at the field, bit 16 says that it lies in the data. -/
def connectInvalid (offset : Nat) (inData : Bool) : Cpl := { sct := 1, sc := 0x82, dw0 := offset + boolNat inData * 2 ^ 16 }

/-- The queue joins its controller (R227, R238): DW0 carries the CNTLID, bit 17 that authentication comes first. -/
def State.joinCtrl (n : Nat) (x : Slot) (q : Queue) (c : ConnectCmd) (cntlid : Nat) (s : State) : State :=
  let a := s.authFor q.tenant c.hostNqn
  let need := match a with
    | some e => e.2.required
    | none => false
  let q' := { q with ctrl := some (ctrlKey q.tenant cntlid), size := c.sqSize + 1, authReq := need, authDone := false, authPhase := 0
                     authEntry := match a with
                       | some e => e.1 + 1
                       | none => 0 }
  ((s.setQueue x.conn q').onSlot n fun v => { v with cntlid := cntlid }).answer n (cntlid + boolNat need * 2 ^ 17)

def State.connectAdmin (n : Nat) (x : Slot) (q : Queue) (c : ConnectCmd) (s : State) : State :=
  if c.cntlid ≠ 0xFFFF then s.setOutcome n (connectInvalid 16 true)
  else match s.freeCntlid q.tenant with
    | none => s.refuseCmd n 1 0x81
    | some k =>
      let max := s.get pgCmdq F.CMDQ_CFG_MAX_IOQ
      let v : Ctrl := { tenant := q.tenant, cntlid := k, discovery := decide (cString c.subNqn = cString discoveryNqn), hostNqn := c.hostNqn
                        hostId := c.hostId, adminConn := x.conn, kato := c.kato, katoStart := s.nowMs, granted := max, grantedCq := max }
      (s.setCtrl (ctrlKey q.tenant k) v).joinCtrl n x q c k

def State.connectIo (n : Nat) (x : Slot) (q : Queue) (c : ConnectCmd) (s : State) : State :=
  match s.ctrl (ctrlKey q.tenant c.cntlid) with
  | none => s.refuseCmd n 1 0x84
  | some v =>
    if v.hostNqn ≠ c.hostNqn ∨ v.hostId ≠ c.hostId ∨ v.discovery then s.refuseCmd n 1 0x84
    else if min v.granted v.grantedCq < c.qid ∨
        (s.cmdq.queues.any fun _ y => decide (y.ctrl = some (ctrlKey q.tenant c.cntlid) ∧ y.qid = c.qid)) then
      s.setOutcome n (connectInvalid 42 false)
    else s.joinCtrl n x q c c.cntlid

/-- The checks of a Connect in order; discovery has no I/O queue. -/
def State.connectWork (n : Nat) (x : Slot) (q : Queue) (c : ConnectCmd) (s : State) : State :=
  let disc := decide (cString c.subNqn = cString discoveryNqn)
  if q.ctrl.isSome then s.refuseCmd n 0 0x0C
  else if c.qid ≠ q.qid then s.setOutcome n (connectInvalid 42 false)
  else if c.sqSize = 0 ∨ 31 < c.sqSize then s.setOutcome n (connectInvalid 44 false)
  else if bitAt c.cattr 2 then s.setOutcome n (connectInvalid 46 false)
  else if (!disc ∧ cString c.subNqn ≠ cString (s.subNqn q.tenant)) ∨ (disc ∧ c.qid ≠ 0) then s.setOutcome n (connectInvalid 256 true)
  else if c.qid = 0 then s.connectAdmin n x q c
  else s.connectIo n x q c

def execConnect (slot : Nat) (s : State) : Result :=
  .next (match s.adminCmd slot (isFabrics 0x01) with
    | none => s
    | some (x, q) => match hostData x 1024 with
      | .ready d => s.connectWork slot x q (connectCmd x.sqe d.val)
      | .bad sc => s.refuseCmd slot 0 sc
      | .fetch len => s.fetchHost slot len x
      | .coming => s)

/-! ### Properties (R257, R259) -/

/-- Commands of a controller that run to their commit point with DISCARD (R257, step 3). -/
def State.ctrlResetting (s : State) (k : Nat) : Bool :=
  s.cmdq.slots.any fun _ x => decide (ctrlKey x.tenant x.cntlid = k ∧ x.state = .started) && x.discard

/-- CAP (Table 6.2, R233): MQES 31, contiguous queues, TO 10, the NVM command set. -/
def propCap : Nat := 31 + 2 ^ 16 + 10 * 2 ^ 24 + 2 ^ 37
def propVs : Nat := 0x20000
def State.propCsts (s : State) (k : Nat) (c : Ctrl) : Nat :=
  let busy := s.ctrlResetting k
  boolNat (c.rdy || c.resetting) + (if c.shst = 0 then 0 else if busy then 1 else 2) * 4

def execPropertyGet (slot : Nat) (s : State) : Result :=
  .next (match s.adminCmd slot (isFabrics 0x04) with
    | none => s
    | some (x, q) => match q.ctrl.bind s.ctrl with
      | none => s.refuseCmd slot 0 0x0C
      | some c =>
        let wide := decide (byteAt x.sqe 40 % 8 = 1)
        if x.qid ≠ 0 then s.refuseCmd slot 0 0x02
        else match bytesAt x.sqe 44 4 with
          | 0x00 => if wide then s.setOutcome slot { dw0 := propCap % 2 ^ 32, dw1 := propCap / 2 ^ 32 } else s.refuseCmd slot 0 0x02
          | 0x08 => if wide then s.refuseCmd slot 0 0x02 else s.answer slot propVs
          | 0x14 => if wide then s.refuseCmd slot 0 0x02 else s.answer slot c.cc
          | 0x1C => if wide then s.refuseCmd slot 0 0x02 else s.answer slot (s.propCsts (q.ctrl.getD 0) c)
          | _ => s.refuseCmd slot 0 0x02)

/-- A write of CC: EN 1 to 0 resets, SHN normal or abrupt shuts down in the same order, EN 0 to 1 readies. -/
def State.writeCc (n k : Nat) (c : Ctrl) (v : Nat) (s : State) : State :=
  let was := bitAt c.cc 0
  let on := bitAt v 0
  let down := fun (w : Nat) => decide (bitsOf w 14 2 = 1 ∨ bitsOf w 14 2 = 2)
  let s1 := s.setCtrl k { c with cc := v, shst := if down v then 1 else if on && !was then 0 else c.shst, rdy := c.rdy || (on && !was) }
  (if (was && !on) || (down v && !down c.cc) then s1.resetCtrl k (some n) false else s1).answer n 0

def execPropertySet (slot : Nat) (s : State) : Result :=
  .next (match s.adminCmd slot (isFabrics 0x00) with
    | none => s
    | some (x, q) => match q.ctrl with
      | none => s.refuseCmd slot 0 0x0C
      | some k => match s.ctrl k with
        | none => s.refuseCmd slot 0 0x0C
        | some c =>
          if x.qid ≠ 0 ∨ bytesAt x.sqe 44 4 ≠ 0x14 ∨ byteAt x.sqe 40 % 8 ≠ 0 then s.refuseCmd slot 0 0x02
          else s.writeCc slot k c (bytesAt x.sqe 48 4))

/-! ### Authentication (R211, R212, R238) -/

/-- A failed exchange: the failure message waits for Authentication Receive. -/
def State.authFail (i : Nat) (q : Queue) (msg : Nat) (s : State) : State :=
  ((s.setQueue i { q with authPhase := 0, authOut := chapFailure (bytesAt msg 4 2) }).count E.GARD_AUTH_FAIL 1).occur S.GARD_AUTH_FAIL
def State.authOk (i : Nat) (q : Queue) (s : State) : State :=
  (s.setQueue i { q with authPhase := 0, authDone := true }).count E.GARD_AUTH_OK 1

/-- One message from the host: Negotiate, Reply, Success2, Failure2. The random values of an exchange come from the nonce. -/
def State.authMessage (i : Nat) (q : Queue) (nonce : Nat) (d : Blob) (s : State) : State :=
  let e := s.gard.auth.get (q.authEntry - 1) {}
  if q.authEntry = 0 ∨ !e.valid then s.authFail i q d.val
  else match q.authPhase, byteAt d.val 0, byteAt d.val 1 with
    | _, 0, 0 =>
      match chapPick e.hashMask e.dhMask d with
      | some (h, g) =>
        let c := chapOpen h g nonce d
        s.setQueue i { q with authPhase := 1, challenge := nonce, chap := c, authOut := c.message }
      | none => s.authFail i q d.val
    | 1, 1, 2 =>
      if chapVerify q.chap e.hostKey e.keyLen e.bidir e.hostNqn (s.subNqn q.tenant) d then
        let q' := { q with authOut := chapSuccess q.chap e.ctrlKey e.keyLen e.hostNqn (s.subNqn q.tenant) d, authPhase := 2 }
        if e.bidir then s.setQueue i q' else s.authOk i q'
      else s.authFail i q d.val
    | 2, 1, 4 => s.authOk i q
    | 0, 1, 4 => s
    | _, 0, 0xF2 =>
      ((s.setQueue i { q with authPhase := 0, authOut := ⟨0, 0⟩ }).count E.GARD_AUTH_FAIL 1).occur S.GARD_AUTH_FAIL
    | _, _, _ => s.authFail i q d.val

def execAuthenticationSend (slot nonce : Nat) (s : State) : Result :=
  .next (match s.adminCmd slot (isFabrics 0x05) with
    | none => s
    | some (x, q) => match hostData x 1 with
      | .ready d => (s.authMessage x.conn q nonce d).answer slot 0
      | .bad sc => s.refuseCmd slot 0 sc
      | .fetch len => s.fetchHost slot len x
      | .coming => s)

def execAuthenticationReceive (slot : Nat) (s : State) : Result :=
  .next (match s.adminCmd slot (isFabrics 0x06) with
    | none => s
    | some (x, q) =>
      if q.authOut.len = 0 then s.refuseCmd slot 0 0x0C
      else (s.setQueue x.conn { q with authOut := ⟨0, 0⟩ }).answerData slot x q.authOut)

/-! ### Log pages (Tables 6.3, 6.9) -/

/-- Record k of log 0xD2. -/
def DeferredRec.bytes (r : DeferredRec) : Nat :=
  r.seq % 2 ^ 64 + r.nsid % 2 ^ 32 * 2 ^ 64 + r.cause % 256 * 2 ^ 96 + r.slba % 2 ^ 64 * 2 ^ 128 + r.nlb % 2 ^ 32 * 2 ^ 192 + r.time % 2 ^ 32 * 2 ^ 224
def numberBlocks (width : Nat) : List Nat → Nat
  | [] => 0
  | x :: r => x % 2 ^ width + numberBlocks width r * 2 ^ width

/-- Log 0xD2 (Table 6.9). -/
def DeferredLog.page (d : DeferredLog) : Blob :=
  ⟨16 + 32 * d.recs.length, d.total % 2 ^ 64 + d.recs.length % 2 ^ 16 * 2 ^ 64 + numberBlocks 256 (d.recs.map DeferredRec.bytes) * 2 ^ 128⟩

/-- The changed namespace list, as NVMe lays it out: rising NSIDs, or 0xFFFFFFFF alone where more than 1,024 changed. -/
def changedPage (l : List Nat) : Blob := ⟨4096, if 1024 < l.length then 0xFFFFFFFF else numberBlocks 32 l⟩

/-- The SMART summary of a tenant, in the places NVMe gives; `fill` stands for the bytes that this manual does not give. -/
def State.smartPage (s : State) (tenant fill : Nat) : Blob :=
  let m := s.cmdq.smart.get tenant (0, 0, 0, 0)
  let units := fun (b : Nat) => (b + 511999) / 512000
  ⟨512, withBytes (withBytes (withBytes (withBytes (bytesAt fill 0 512) 32 16 (units m.2.2.1)) 48 16 (units m.2.2.2)) 64 16 m.1) 80 16 m.2.1⟩

/-- One discovery entry (R226): RDMA, an NVM subsystem, TREQ, the service "4420", the tenant's SUBNQN. -/
def State.discoveryEntry (s : State) (tenant port fill : Nat) : Nat :=
  let e := s.fab.tport port
  let f := withBytes (withBytes (withBytes (bytesAt fill 0 1024) 0 1 1) 2 1 2) 3 1 0x02
  let g := withBytes (withBytes f 1 1 (if tpV4 e then 1 else 2)) 4 2 port
  withBytes (withBytes g 32 32 (ofBytes ([0x34, 0x34, 0x32, 0x30] ++ List.replicate 28 0x20))) 256 256 (s.subNqn tenant)
def State.discoveryPage (s : State) (tenant fill : Nat) : Blob :=
  let ports := ((s.fab.tports false).filter fun e => decide (tpTenant e.2 = tenant)).map Prod.fst
  let head := withBytes (withBytes (bytesAt fill 0 1024) 8 8 ports.length) 16 2 0
  ⟨1024 * (ports.length + 1), numberBlocks 8192 (head :: ports.map fun p => s.discoveryEntry tenant p fill)⟩

/-- The part of a log page that a command asks for, from its offset; bytes past the page's end are the fill's. -/
def logPart (x : Slot) (page : Blob) (fill : Nat) : Option Blob :=
  let n := 4 * (bitsOf (sqeCdw x.sqe 10) 16 16 + sqeCdw x.sqe 11 % 2 ^ 16 * 2 ^ 16 + 1)
  let off := sqeCdw x.sqe 12 + sqeCdw x.sqe 13 * 2 ^ 32
  let have_ := min n (page.len - off)
  if page.len < off ∨ 2097152 < n then none else some ⟨n, bytesAt page.val off have_ + bytesAt fill 0 (n - have_) * 2 ^ (8 * have_)⟩

/-- A read with RAE 0 clears the event condition of its page (R268). -/
def State.clearCondition (k log : Nat) (s : State) : State := match s.ctrl k with
  | some c => s.setCtrl k { c with conditions := c.conditions.filter fun e => decide (e.log ≠ log)
                                   changedNs := if log = 0x04 then [] else c.changedNs }
  | none => s

/-- The log page of an identifier, where the controller has it. -/
def State.logPage (s : State) (c : Ctrl) (lid fill : Nat) : Option Blob :=
  if c.discovery then (if lid = 0x70 then some (s.discoveryPage c.tenant fill) else none)
  else match lid with
    | 0x01 => some ⟨64, bytesAt fill 0 64⟩
    | 0x02 => some (s.smartPage c.tenant fill)
    | 0x04 => some (changedPage c.changedNs)
    | 0xD2 => some (s.cmdq.deferred.get c.tenant {}).page
    | _ => none

def execGetLogPage (slot : Nat) (s : State) : Result :=
  .next (match s.adminCmd slot (isAdmin 0x02) with
    | none => s
    | some (x, q) => match q.ctrl.bind s.ctrl with
      | none => s.refuseCmd slot 0 0x0C
      | some c =>
        let lid := sqeCdw x.sqe 10 % 256
        let d := s.draw
        match (s.logPage c lid d.1).bind fun p => logPart x p d.1 with
        | none => s.refuseCmd slot 0 0x02
        | some b =>
          let t := d.2.answerData slot x b
          if bitAt (sqeCdw x.sqe 10) 15 ∨ sqeSglId x.sqe ≠ 0x40 then t else t.clearCondition (q.ctrl.getD 0) lid)

/-! ### Identify (R231, R232, R235) -/

def asciiText (width : Nat) (t : String) : Nat :=
  let cs := t.toList.map Char.toNat
  ofBytes (cs ++ List.replicate (width - cs.length) 0x20)
/-- SN: 16 hexadecimal ASCII characters, most significant first, then 4 spaces. -/
def hexDigit (d : Nat) : Nat := if d < 10 then 0x30 + d else 0x37 + d
def serialText : Nat :=
  ofBytes ((List.range 16).map (fun i => hexDigit (bitsOf Config.serial.toNat (60 - 4 * i) 4)) ++ List.replicate 4 0x20)

/-- The fields that every controller reports. -/
def State.identifyCommon (s : State) (c : Ctrl) (fill : Nat) : Nat :=
  let a := withBytes (withBytes (bytesAt fill 0 4096) 0 2 0x1F9C) 4 20 serialText
  let b := withBytes (withBytes a 24 40 (asciiText 40 "Keovouf KV24-6400")) 64 8 (Config.versionText (s.get pgDev F.FW_VER_VERSION))
  withBytes (withBytes b 78 2 c.cntlid) 111 1 (if c.discovery then 2 else 1)

/-- Table 6.2 in the places NVMe gives; one power state, PS0 (R264): NPSS is 0 and no descriptor beyond the first is there. -/
def State.identifyCtrl (s : State) (c : Ctrl) (fill : Nat) : Nat :=
  let a := s.identifyCommon c fill
  if c.discovery then a
  else [(2, 2, 0x1F9C), (77, 1, 9), (80, 4, 0x20000), (256, 2, 0), (258, 1, s.get pgCmdq F.CMDQ_CFG_ACL)
       , (259, 1, s.get pgCmdq F.CMDQ_CFG_AERL), (263, 1, 0), (320, 2, 10), (512, 1, 0x66), (513, 1, 0x44), (514, 2, 32), (516, 4, 16384)
       , (520, 2, 0x000C), (525, 1, 0), (768, 256, s.subNqn c.tenant), (1792, 4, 4), (1796, 4, 1), (1800, 2, 0), (1803, 1, 1)
       , (2080, 992, 0)].foldl
       (fun y f => withBytes y f.1 f.2.1 f.2.2) (withBits a (8 * 536) 3 5)

/-- Identify Namespace (R232); a namespace that is not active reads as zeros. MC, DPC, DPS and RESCAP are 0: no metadata, no end-to-end
protection information, no reservations (R7). -/
def State.identifyNs (s : State) (v fill : Nat) : Nat :=
  let e := s.ns v
  [(0, 8, nsSize e), (8, 8, nsSize e), (16, 8, s.nuse v), (25, 1, 0), (26, 1, 0), (27, 3, 0), (31, 1, 0), (33, 1, 1), (128, 2, 0)
  , (130, 1, if nsLba e = 512 then 9 else 12)].foldl (fun y f => withBytes y f.1 f.2.1 f.2.2) (bytesAt fill 0 4096)

/-- The valid NSIDs of a tenant above a mark, rising, 1,024 at most (R231). -/
def State.activeNsids (s : State) (tenant after : Nat) : List Nat :=
  ((((s.fab.nsEntries false).filter fun e => decide (nsTenant e.2 = tenant ∧ after < nsId e.2)).map fun e => nsId e.2).mergeSort
    fun a b => decide (a ≤ b)).take 1024

/-- The namespace identification descriptors: an identifier of 16 bytes, which the spec does not give, and the NVM command set (no zoned
namespaces, R7). PRESUMED (log entry 24): the identifier is of the UUID type. -/
def nsDescriptors (fill : Nat) : Nat := 3 + 16 * 2 ^ 8 + bytesAt fill 0 16 * 2 ^ 32 + (4 + 1 * 2 ^ 8) * 2 ^ 160

/-- What Identify answers: data or a status. -/
def State.identifyData (s : State) (c : Ctrl) (x : Slot) (fill : Nat) : Nat ⊕ Nat :=
  let nsid := sqeNsid x.sqe
  let inRange := decide (1 ≤ nsid ∧ nsid ≤ 16384)
  match sqeCdw x.sqe 10 % 256, c.discovery with
  | 0x01, _ => .inl (s.identifyCtrl c fill)
  | _, true => .inr 0x02
  | 0x00, _ => if !inRange then .inr 0x0B else .inl (match s.nsVolume c.tenant nsid with
    | some v => s.identifyNs v fill
    | none => 0)
  | 0x02, _ => if 0xFFFFFFFE ≤ nsid then .inr 0x0B else .inl (numberBlocks 32 (s.activeNsids c.tenant nsid))
  | 0x03, _ => if (s.nsVolume c.tenant nsid).isNone then .inr 0x0B else .inl (nsDescriptors fill)
  | _, _ => .inr 0x02

def execIdentify (slot : Nat) (s : State) : Result :=
  .next (match s.adminCmd slot (isAdmin 0x06) with
    | none => s
    | some (x, q) => match q.ctrl.bind s.ctrl with
      | none => s.refuseCmd slot 0 0x0C
      | some c =>
        let d := s.draw
        match s.identifyData c x d.1 with
        | .inl v => d.2.answerData slot x ⟨4096, bytesAt v 0 4096⟩
        | .inr sc => s.refuseCmd slot 0 sc)

/-! ### Abort (R250 to R254) -/

/-- Aborts of a controller that have not committed and came before one with an arrival number. -/
def State.abortsOut (s : State) (k order : Nat) : Nat :=
  s.cmdq.slots.count fun _ x =>
    decide (ctrlKey x.tenant x.cntlid = k ∧ (x.state = .fetched ∨ x.state = .started) ∧ x.order < order) && isAdmin 0x08 x

/-- The queue of a controller by QID, and the slot of a CID on it that has not committed. -/
def State.abortTarget (s : State) (k sqid cid : Nat) : Option (Nat × Option Nat) :=
  match (s.ctrlQueues k).find? fun i => match s.queue i with
    | some q => decide (q.qid = sqid)
    | none => false with
  | none => none
  | some i => some (i, (s.cmdq.slots.findKey fun _ x => decide (x.conn = i ∧ x.incarnation = (s.ctx i).incarnation ∧ x.cid = cid ∧
      (x.state = .fetched ∨ x.state = .started))))

def State.abortLost (n : Nat) (s : State) : State := (s.count E.CMDQ_ABORT_LOST 1).answer n 1

/-- The Abort commits first (Table 6.4). -/
def State.abortWins (n m : Nat) (x : Slot) (s : State) : State :=
  let busy := s.slotBusy m
  let s1 := (s.setSlot m { x with aborted := true, orphan := busy }).when (!busy) (State.dropReadCells m)
  ((((s1.dropPieces m).commitSlot m (cplErr 0 7)).releaseRecs).count E.CMDQ_ABORT_WON 1).answer n 0

/-- A command in staging is taken out (R252). -/
def State.abortPending (n i cid : Nat) (s : State) : State :=
  match s.queue i with
  | none => s.abortLost n
  | some q => match q.staging.find? fun c => decide (sqeCid c.sqe = cid) with
    | none => s.abortLost n
    | some c =>
      (((s.setQueue i { q with staging := removeFirst c q.staging }).completeCapsule i c (cplErr 0 7)).syncCmdq).answer n 0

/-- A command whose work has its result has reached the commit point in this cycle: the work wins (R253). -/
def State.abortWork (n k : Nat) (x : Slot) (s : State) : State :=
  let sqid := sqeCdw x.sqe 10 % 2 ^ 16
  let cid := bitsOf (sqeCdw x.sqe 10) 16 16
  if s.get pgCmdq F.CMDQ_CFG_ACL + 1 ≤ s.abortsOut k x.order then s.refuseCmd n 1 0x03
  else if sqid = 0 then s.abortLost n
  else match s.abortTarget k sqid cid with
    | none => s.abortLost n
    | some (i, none) => s.abortPending n i cid
    | some (_, some m) => match s.slot m with
      | none => s.abortLost n
      | some y => if y.outcome.isSome then (s.commitWork m).abortLost n else s.abortWins n m y

def execAbort (slot : Nat) (s : State) : Result :=
  .next (match s.adminCmd slot (isAdmin 0x08) with
    | none => s
    | some (x, q) => match q.ctrl with
      | none => s.refuseCmd slot 0 0x0C
      | some k => (s.count E.CMDQ_ABORT_RX 1).abortWork slot k x)

/-! ### Features, event requests, keep-alive -/

def State.setFeature (n k : Nat) (c : Ctrl) (x : Slot) (s : State) : State :=
  let v := sqeCdw x.sqe 11
  match sqeCdw x.sqe 10 % 256 with
  | 0x07 =>
    let max := s.get pgCmdq F.CMDQ_CFG_MAX_IOQ
    let sq := min (v % 2 ^ 16 + 1) max
    let cq := min (bitsOf v 16 16 + 1) max
    (s.setCtrl k { c with granted := sq, grantedCq := cq }).answer n (sq - 1 + (cq - 1) * 2 ^ 16)
  | 0x0B => (s.setCtrl k { c with aerCfg := v }).answer n 0
  | 0x0F => (s.setCtrl k { c with kato := v, katoStart := s.nowMs }).answer n 0
  | _ => s.refuseCmd n 0 0x02

def State.getFeature (n : Nat) (c : Ctrl) (x : Slot) (s : State) : State :=
  match sqeCdw x.sqe 10 % 256 with
  | 0x07 => s.answer n (c.granted - 1 + (c.grantedCq - 1) * 2 ^ 16)
  | 0x0B => s.answer n c.aerCfg
  | 0x0F => s.answer n c.kato
  | _ => s.refuseCmd n 0 0x02

def execSetFeatures (slot : Nat) (s : State) : Result :=
  .next (match s.adminCmd slot (isAdmin 0x09) with
    | none => s
    | some (x, q) => match q.ctrl.bind s.ctrl with
      | none => s.refuseCmd slot 0 0x0C
      | some c => s.setFeature slot (q.ctrl.getD 0) c x)

def execGetFeatures (slot : Nat) (s : State) : Result :=
  .next (match s.adminCmd slot (isAdmin 0x0A) with
    | none => s
    | some (x, q) => match q.ctrl.bind s.ctrl with
      | none => s.refuseCmd slot 0 0x0C
      | some c => s.getFeature slot c x)

/-- A request is held until an event comes; an event that waits completes it at once. -/
def execAsyncEventRequest (slot : Nat) (s : State) : Result :=
  .next (match s.adminCmd slot (isAdmin 0x0C) with
    | none => s
    | some (_, q) => match q.ctrl.bind s.ctrl with
      | none => s.refuseCmd slot 0 0x0C
      | some c =>
        if c.aers.contains slot then s
        else if s.get pgCmdq F.CMDQ_CFG_AERL + 1 ≤ c.aers.length then s.refuseCmd slot 1 0x05
        else ((s.onSlot slot fun v => { v with holdSeq := none }).setCtrl (q.ctrl.getD 0) { c with aers := c.aers ++ [slot] }).postEvents
          (q.ctrl.getD 0))

def execKeepAlive (slot : Nat) (s : State) : Result :=
  .next (match s.adminCmd slot (isAdmin 0x18) with
    | none => s
    | some (_, q) => match q.ctrl.bind s.ctrl with
      | none => s.refuseCmd slot 0 0x0C
      | some c => (s.setCtrl (q.ctrl.getD 0) { c with katoStart := s.nowMs }).answer slot 0)

end Sys2Proof.Machine
end

