-- ==== Sys2Proof/Machine/CmOps.lean ====
section
/-!
DEFINITION. Establishing a connection: the checks of a REQ in their order, the version and path MTU in use, the keys of a sealed
connection, and the context that results (chapter 04 of spec/; R208 to R210, R230).
-/
namespace Sys2Proof.Machine
open Sys2Proof

/-! ### Private data (Table 4.2) -/

def reqOcm (r : CmReq) : Bool := decide (netAt r.priv.val 32 2 = 0x4F43)
def reqVer (r : CmReq) : Nat := byteAt r.priv.val 34
def reqKind (r : CmReq) : Nat := byteAt r.priv.val 35
def reqPub (r : CmReq) : Nat := bytesAt r.priv.val 40 32
def reqReserved (r : CmReq) : Bool := decide (bytesAt r.priv.val 36 4 ≠ 0 ∨ bytesAt r.priv.val 72 20 ≠ 0)
/-- The NVMe block, as NVMe over RDMA lays it out: RECFMT, QID, HRQSIZE, HSQSIZE (0's based), CNTLID. -/
def reqRecfmt (r : CmReq) : Nat := bytesAt r.priv.val 0 2
def reqQid (r : CmReq) : Nat := bytesAt r.priv.val 2 2
def reqHrq (r : CmReq) : Nat := bytesAt r.priv.val 4 2
def reqHsq (r : CmReq) : Nat := bytesAt r.priv.val 6 2
def reqCntlid (r : CmReq) : Nat := bytesAt r.priv.val 8 2

/-- The kind of connection that a REQ asks for (R127, R135). -/
def connKind (r : CmReq) : Nat := if reqOcm r ∧ reqKind r = 2 then 2 else if reqQid r = 0 then 0 else 1

/-! ### The tenant's transport policy (Table 4.12) -/

def polConnMax (e : Nat) : Nat := bitsOf e 0 16
def polOcmMax (e : Nat) : Nat := bitsOf e 16 8
def polRequireSeal (e : Nat) : Bool := bitAt e 24
def polPin (e : Nat) : Bool := bitAt e 25
def polRcEn (e : Nat) : Bool := bitAt e 26

/-- The version in use (R136, R137): 0 for a standard connection. -/
def versionFor (r : CmReq) (e : Nat) : Nat := if reqOcm r then min (min (reqVer r) (polOcmMax e)) 0x12 else 0

/-- The largest frame of a connection with a path MTU (R140). -/
def mtuFits (tagged sealed : Bool) (r : CmReq) (maxFrame mtu : Nat) : Bool :=
  decide (frameLen tagged r.ipv6 sealed (if connKind r = 2 then 20 else 16) mtu ≤ maxFrame)
def pathMtu (tagged sealed : Bool) (r : CmReq) (maxFrame : Nat) : Nat :=
  let largest := if mtuFits tagged sealed r maxFrame 4096 then 4096 else if mtuFits tagged sealed r maxFrame 2048 then 2048 else 1024
  if r.mtu < 2048 then 1024 else if r.mtu < 4096 then min 2048 largest else largest
def mtuCode (m : Nat) : Nat := if m = 1024 then 1 else if m = 2048 then 2 else 3

/-! ### Keys of a sealed connection (R210): byte strings stand as numbers, byte 0 lowest -/

/-- The eight bytes "ocm seal". -/
def ocmSeal : Nat := 0x6C616573206D636F
def info0 (devQpn hostQpn hostPub devPub : Nat) : Nat :=
  ocmSeal + 1 * 2 ^ 64 + toNet 3 devQpn * 2 ^ 72 + toNet 3 hostQpn * 2 ^ 96 + hostPub * 2 ^ 120 + devPub * 2 ^ 376
def infoN (n devQpn hostQpn : Nat) : Nat :=
  ocmSeal + 2 * 2 ^ 64 + toNet 4 n * 2 ^ 72 + toNet 3 devQpn * 2 ^ 104 + toNet 3 hostQpn * 2 ^ 128
def okm0 (prk devQpn hostQpn hostPub devPub : Nat) : Nat := hkdfExpand prk (info0 devQpn hostQpn hostPub devPub) 79 72
def okmN (prk n devQpn hostQpn : Nat) : Nat := hkdfExpand prk (infoN n devQpn hostQpn) 19 64

/-- The shared secret Z of a REQ under a device private key. -/
def sharedZ (devPriv : Nat) (r : CmReq) : Nat := x25519 devPriv (reqPub r)

/-! ### The checks (Table 4.3, Table 6.1, R758) -/

/-- Table 6.1. The staging space of its fifth check is always there: each of the 65,536 contexts has its own. -/
def State.nvmeReject (s : State) (r : CmReq) (tenant : Nat) : Option Nat :=
  if connKind r = 2 then none
  else if reqRecfmt r ≠ 0 then some 1
  else if reqQid r ≠ 0 ∧ (match s.ctrl (ctrlKey tenant (reqCntlid r)) with
    | some c => min c.granted c.grantedCq
    | none => 0) < reqQid r then some 2
  else if reqHsq r + 1 < 2 ∨ 32 < reqHsq r + 1 then some 3
  else if reqHrq r < reqHsq r + 1 then some 4
  else none

/-- The lowest FREE context. -/
def State.lowestFreeCtx (s : State) : Nat :=
  s.xprt.ctx.list.foldl (fun (x : Nat) e => if e.1 = x ∧ !e.2.isFree then x + 1 else x) 0

/-- The status of the first cause that holds (R758). -/
def State.rejectStatus (s : State) (r : CmReq) (devPriv : Nat) : Option Nat :=
  let tenant := tpTenant (s.fab.tport r.tport)
  let e := s.tab pgXprt 1 tenant
  let ver := versionFor r e
  if !s.isOn pgXprt then some 0x8008
  else if reqOcm r ∧ (reqReserved r ∨ (reqKind r ≠ 1 ∧ reqKind r ≠ 2) ∨
      (0x12 ≤ reqVer r ∧ (reqPub r = 0 ∨ (ver = 0x12 ∧ sharedZ devPriv r = 0)))) then some 0x8006
  else if reqOcm r ∧ reqVer r < 0x10 then some 0x8003
  else if r.mtu < 1024 then some 0x8007
  else if connKind r = 2 ∧ polOcmMax e = 0 then some 0x8005
  else if polRequireSeal e ∧ ver < 0x12 then some 0x8004
  else match s.nvmeReject r tenant with
    | some n => some n
    | none =>
      if polConnMax e ≤ s.connsOf tenant then some 0x8001
      else if 65536 ≤ s.lowestFreeCtx then some 0x8002
      else none

/-- A REJ answers a REQ: reason 28, RECFMT 0 and the status in its private data (R139). -/
def State.sendRej (r : CmReq) (sport status : Nat) (s : State) : State :=
  let h := s.netHdr r.tport r.port r.ipv6 r.srcMac r.remoteIp sport
  ((s.sendCm r.port h (.cmRej r.hostQpn status r.port h)).count E.XPRT_CONN_REJECT 1).when (decide (status = 0x8001 ∨ status = 0x8002))
    (State.occur S.XPRT_CONN_LIMIT)

/-! ### The context that results -/

/-- The private data of a REP (Table 4.2). PRESUMED (log entry 24): the accept block of NVMe over RDMA is RECFMT 0 and CRQSIZE, which is 32,
the capsules that a queue stages. -/
def repPriv (c : CtxId) : Blob :=
  ⟨92, (if c.kind = 2 then 0 else 32 * 2 ^ 16) + (if c.ocmVer = 0 then 0 else toNet 2 0x4F43 * 2 ^ 256) + c.ocmVer * 2 ^ 272
    + (if c.kind = 2 then 2 else 1) * 2 ^ 280 + c.devPub * 2 ^ 320⟩
/-- A REP goes out (R133, Table 4.8). -/
def State.sendRep (i : Nat) (s : State) : State := s.cmOn i fun p h => .cmRep i p h (repPriv (s.ctx i).id)

/-- The key slots and salts of a sealed connection; epoch 1 stands in slot 1 before the REP goes out (R210). -/
def State.installSeal (i devPriv secret : Nat) (r : CmReq) (s : State) : State :=
  let q := s.qpn i
  let devPub := x25519Pub devPriv
  let prk := hkdfExtract secret (sharedZ devPriv r)
  let k0 := okm0 prk q r.hostQpn (reqPub r) devPub
  let k1 := okmN prk 1 q r.hostQpn
  let half := fun (key epoch : Nat) => ({ key := key, epoch := epoch, ready := true } : SealHalf)
  ((((s.setKeySlot i false ⟨half (bytesAt k0 0 32) 0, half (bytesAt k0 32 32) 0⟩).setKeySlot i true
    ⟨half (bytesAt k1 0 32) 1, half (bytesAt k1 32 32) 1⟩).onGard fun g => { g with prk := g.prk.set i prk }).onSeal i fun _ =>
      { saltRx := bytesAt k0 64 4, saltTx := bytesAt k0 68 4 }).onCtxId i fun c => { c with devPub := devPub }

/-- FREE to CONNECTING (Table 4.8). -/
def State.openConn (i devPriv sport startPsn : Nat) (r : CmReq) (s : State) : State :=
  let tenant := tpTenant (s.fab.tport r.tport)
  let e := s.tab pgXprt 1 tenant
  let ver := versionFor r e
  let sealed := decide (ver = 0x12)
  let kind := connKind r
  let nvme := decide (kind ≠ 2)
  let c : Ctx := {
    state := .connecting, incarnation := (s.ctx i).incarnation
    id := { kind := kind, pinned := polPin e, ocmVer := ver, sealed := sealed, ipv6 := r.ipv6, rcEn := polRcEn e, tport := r.tport
            tenant := tenant, remoteQpn := r.hostQpn
            pmtu := mtuCode (pathMtu (tpVlanEn (s.fab.tport r.tport)) sealed r (s.get (pgGrp (r.port / 4)) F.GRP_CFG_MAX_FRAME))
            remoteMac := r.srcMac, egressPort := r.port, remoteIp := r.remoteIp, udpSport := sport
            qid := if nvme then reqQid r else 0, cntlid := if nvme then reqCntlid r else 0
            hsqsize := if nvme then reqHsq r else 0, hrqsize := if nvme then reqHrq r else 0
            initDepth := min 16 r.respRes, respRes := min 16 r.initDepth, commId := r.commId }
    rx := { epsn := r.startPsn, lastAckPsn := psnSub r.startPsn 1 }
    tx := { nextPsn := startPsn % 2 ^ 24, unaPsn := startPsn % 2 ^ 24, retryLeft := s.get pgXprt F.XPRT_CFG_RETRY_CNT
            rnrLeft := s.get pgXprt F.XPRT_CFG_RNR_RETRY, rate := s.portRate r.port, sends := 1 } }
  let s1 := s.setCtx i c
  let s2 := s1.when sealed (State.installSeal i devPriv (s.gard.secrets.get tenant 0) r)
  let s2' := s2.onXprt fun x => { x with
    cache := x.cache.filter fun j => decide (j ≠ i), cacheDirty := x.cacheDirty.filter fun j => decide (j ≠ i) }
  let s3 := s2'.when (polPin e) (State.startFetch i)
  let s4 := s3.when nvme fun t => t.setQueue i { qid := reqQid r, tenant := tenant, tport := r.tport, size := reqHsq r + 1 }
  ((s4.sendRep i).count E.XPRT_CONN_OPEN 1).syncXprt

/-- The context that a repeated REQ names (R133). -/
def State.repeatOf (s : State) (r : CmReq) : Option Nat :=
  s.xprt.ctx.findKey fun _ c => decide (c.state = .connecting ∧ c.id.remoteQpn = r.hostQpn ∧ c.id.commId = r.commId ∧
    c.id.tport = r.tport ∧ c.id.remoteIp = r.remoteIp)

/-- Firmware answers the oldest REQ (R133, R134, R758): `pick` is the context it takes where that one is FREE. -/
def State.answerReq (devPriv sport pick startPsn : Nat) (s : State) : State :=
  match s.xprt.reqs with
  | [] => s
  | r :: rest =>
    let s1 := s.onXprt fun x => { x with reqs := rest }
    match s1.repeatOf r with
    | some i => s1.sendRep i
    | none => match s1.rejectStatus r devPriv with
      | some st => s1.sendRej r sport st
      | none =>
        let i := if pick < 65536 ∧ (s1.ctx pick).isFree then pick else s1.lowestFreeCtx
        s1.openConn i devPriv sport startPsn r

end Sys2Proof.Machine
end

