-- ==== Sys2Proof/Machine/RegnExec.lean ====
section
/-!
DEFINITION. The commands of REGN: placement, region reads, control messages, notifications, the region table (chapter 07 of spec/).
-/
namespace Sys2Proof.Machine
open Sys2Proof

/-! ### Placement and reads -/

/-- The packets of a write that the Vat has not delivered yet (R281, R377). -/
def State.writeInVat (s : State) (w : RegWrite) : Bool :=
  decide (s.qpn w.ctx = w.qpn) && !w.dup && (s.ctx w.ctx).rx.inVat.any fun e => !psnBefore e.2 w.psn && !psnBefore w.lastPsn e.2

/-- A region write's bytes are placed in the local region space (R281, R282). -/
def execRegionLocalPlaced (id : Nat) (ue : Bool) (s : State) : Result :=
  .next (s.when (s.regn.writes.any fun w => decide (w.id = id) && !s.writeInVat w) (State.localPlace id ue))

/-- Every earlier write of the read's connection has been placed locally (R286). -/
def State.readMayGo (s : State) (r : RegRead) : Bool :=
  s.regn.writes.all fun w => decide (w.qpn ≠ s.qpn r.ctx) || w.localAt.isSome || !psnBefore w.psn r.psn

/-- A region read executes (R286); the read access ends once its last response packet has left (R182). An uncorrectable error in what
it reads answers with the operational-error NAK. -/
def State.readExecute (r : RegRead) (ue : Bool) (s : State) : State :=
  let s1 := s.onRegn fun g => { g with reads := removeFirst r g.reads }
  if ue then ((((s1.occur S.REGN_HBM_UE).keyEnd r.key).onRx r.ctx fun x => { x with readsIn := x.readsIn - 1 })).replyAt r.ctx .opNak r.psn
  else
    (((s1.submit r.ctx (.readResp r.psn r.key r.seen ⟨r.len, memBytes s.regn.mem r.addr r.len⟩)).count E.REGN_RD_MSGS 1).count E.REGN_RD_BYTES
      r.len).meterRegion r.ctx r.len

def execRegionReadExecute (id : Nat) (ue : Bool) (s : State) : Result :=
  .next (match s.regn.reads.find? fun r => decide (r.id = id) with
    | none => s
    | some r => if s.readMayGo r then (s.readExecute r ue).settleSeal else s)

/-- Confirmation is still missing WARN_US after a write was placed locally (R291). -/
def execRegnMirrorLate (id : Nat) (s : State) : Result :=
  .next (s.when (s.regn.writes.any fun w => decide (w.id = id) && w.localAt.isSome && !w.mirrored && !w.solo)
    (State.occur S.REGN_MIRROR_LATE))

/-! ### Control messages (R292 to R301) -/

def ctlOp (d : Blob) : Nat := byteAt d.val 0
def ctlVer (d : Blob) : Nat := byteAt d.val 1
def ctlLen (d : Blob) : Nat := netAt d.val 2 2
def ctlTag (d : Blob) : Nat := netAt d.val 8 8

/-- The message has the LEN of its OP (Table 7.4), the VER in use, and no reserved byte or field out of range. -/
def ctlValid (ver : Nat) (d : Blob) : Bool :=
  decide (ctlLen d = d.len ∧ ctlVer d = ver ∧ bytesAt d.val 4 4 = 0) &&
    match ctlOp d with
    | 1 => decide (d.len = 32 ∧ byteAt d.val 16 < 2 ∧ bytesAt d.val 17 15 = 0)
    | 2 => decide (d.len = 48 ∧ 4 ≤ byteAt d.val 32 ∧ byteAt d.val 32 ≤ 16 ∧ bytesAt d.val 33 15 = 0)
    | 3 => decide (d.len = 32 ∧ bytesAt d.val 18 14 = 0)
    | 4 => decide (d.len = 32 ∧ byteAt d.val 20 < 2 ∧ bytesAt d.val 21 11 = 0)
    | _ => false

/-- The oldest message of a region connection that is READY; an UNSUBSCRIBE that waits comes before it (R296). -/
def State.ctlFront (s : State) (i : Nat) : Option InSend :=
  let c := s.ctx i
  let held := s.regn.subs.any fun _ e => decide (e.conn = i) && e.ending.isSome
  if c.state = .ready ∧ c.id.kind = 2 ∧ !held then c.rx.msgs.head? else none
/-- The front message, where it is valid and has an OP. -/
def State.ctlMsg (s : State) (i op : Nat) : Option InSend := match s.ctlFront i with
  | some m => if ctlOp m.data = op ∧ ctlValid (s.ctx i).id.ocmVer m.data then some m else none
  | none => none
def State.popMsg (i : Nat) (s : State) : State := s.onRx i fun x => { x with msgs := x.msgs.tail }

/-- R295. -/
def execSetPolicy (ctx : Nat) (s : State) : Result :=
  .next (match s.ctlMsg ctx 1 with
    | none => s
    | some m => ((s.popMsg ctx).onCtxId ctx fun c => { c with errPolicy := decide (byteAt m.data.val 16 = 1) }).respond ctx 0x81
        (ctlTag m.data) 0 false 0)

/-- The status of a SUBSCRIBE (Table 7.5). -/
def State.subStatus (s : State) (i region : Nat) : Nat :=
  let r := s.region region
  if !s.isOn pgRegn then 8
  else if r.state ≠ 1 ∨ r.tenant ≠ (s.ctx i).id.tenant then 3
  else if 8 ≤ (s.subKeys region).length then 4
  else if (s.subKeys region).any (fun k => match s.sub k with
    | some e => decide (e.conn = i)
    | none => false) then 5
  else 0
/-- The lowest free slot of a region. -/
def State.subSlot (s : State) (region : Nat) : Nat :=
  ((List.range 8).find? fun j => (s.sub (region * 8 + j)).isNone).getD 0

/-- R302, R303. -/
def State.subscribe (i : Nat) (m : InSend) (s0 : State) : State :=
  let s := s0.popMsg i
  let region := netAt m.data.val 16 2
  let st := s.subStatus i region
  let k := region * 8 + s.subSlot region
  let e : SubEnt := { conn := i, incarnation := (s.ctx i).incarnation, subTag := netAt m.data.val 18 2, ringLog2 := byteAt m.data.val 32
                      rkey := netAt m.data.val 20 4, va := netAt m.data.val 24 8, serial := s.regn.nextId }
  let s1 := if st = 0 then (((s.setSub k e).onRegn fun g => { g with nextId := g.nextId + 1 }).count E.REGN_SUB_OK 1).mirrorIf i (.subscription k) else s.count E.REGN_SUB_REJECT 1
  s1.respond i 0x82 (ctlTag m.data) st false 0

def execSubscribe (ctx : Nat) (s : State) : Result :=
  .next (match s.ctlMsg ctx 2 with
    | none => s
    | some m => s.subscribe ctx m)

/-- The subscription has sent what was queued: it ends and the UNSUBSCRIBE is answered (R303, R309). -/
def State.subFinish (k : Nat) (s : State) : State :=
  match s.sub k with
  | none => s
  | some e => match e.ending with
    | none => s
    | some tag => if e.queued.isEmpty then
        (s.endSub k).respond e.conn 0x83 tag 0 false e.nseq else s

/-- R309. -/
def State.unsubscribe (i : Nat) (m : InSend) (s0 : State) : State :=
  let s := s0.popMsg i
  let region := netAt m.data.val 16 2
  let r := s.region region
  let mine := (s.subKeys region).find? fun k => match s.sub k with
    | some e => decide (e.conn = i) && e.ending.isNone
    | none => false
  let refuse := fun (st : Nat) => s.respond i 0x83 (ctlTag m.data) st false 0
  if !s.isOn pgRegn then refuse 8
  else if r.state ≠ 1 ∨ r.tenant ≠ (s.ctx i).id.tenant then refuse 3
  else match mine with
    | none => refuse 6
    | some k => match s.sub k with
      | none => refuse 6
      | some e => (s.setSub k { e with ending := some (ctlTag m.data) }).subFinish k

def execUnsubscribe (ctx : Nat) (s : State) : Result :=
  .next (match s.ctlMsg ctx 3 with
    | none => s
    | some m => s.unsubscribe ctx m)

/-- The marks that placed writes have left for a flush (R290, R299). -/
def State.pastMarks (s : State) (qpn : Nat) (region : Option Nat) : Nat :=
  (s.regn.past.list.filter fun e => decide (e.1 / 65536 = qpn ∧ (region = none ∨ region = some (e.1 % 65536)))).foldl
    (fun m e => m ||| e.2) 0

/-- What a PLACE_FLUSH that has passed its key check is refused with (Table 7.5). -/
def State.flushRefusal (s : State) (i : Nat) (m : InSend) : Option Nat :=
  let ver := (s.ctx i).id.ocmVer
  if !ctlValid ver m.data then some 1
  else if byteAt m.data.val 20 = 1 ∧ ver < 0x11 then some 2
  else if !s.isOn pgRegn then some 8
  else none

/-- A flush that has passed its check: its access is in flight, and it covers the writes that came before it (R298). -/
def State.flushCovers (s : State) (i idx : Nat) (m : InSend) : FlushWait :=
  let q := s.qpn i
  match s.flushRefusal i m with
  | some st => { ctx := i, key := some idx, tag := ctlTag m.data, refused := some st }
  | none =>
    let scope := byteAt m.data.val 20
    let region := (s.key idx).region
    let past := s.pastMarks q (if scope = 0 then none else some region)
    { ctx := i, key := some idx, tag := ctlTag m.data, ue := bitAt past 0, solo := bitAt past 1
      covers := (s.regn.writes.filter fun w =>
        decide (w.qpn = q) && psnBefore w.psn m.psn && (decide (scope = 0) || decide (w.region = region))).map RegWrite.id }

/-- The place of a flush among those of its connection goes to what it has come to, or is given up. -/
def State.settleFlush (f : FlushWait) (left : Option FlushWait) (s : State) : State :=
  s.onRegn fun g => { g with flushes := g.flushes.flatMap fun x => if x = f then left.toList else [x] }

/-- R297, R186: the key check of a flush, before anything else. -/
def State.flushCheck (f : FlushWait) (m : InSend) (s : State) : State :=
  let i := f.ctx
  let c := s.ctx i
  let key := netAt m.data.val 16 4
  match s.keyCheck key .flush 0 0 c.id.tenant (s.qpn i) with
  | .fail step =>
    let s1 := ((s.settleFlush f none).keyFail step key (s.qpn i) 0xFF false c.id.tenant 0 0).replyAt i .accessNak m.psn
    if c.id.errPolicy then s1.settle else s1.enterError i 5
  | .pass idx =>
    let w := s.flushCovers i idx m
    ((((s.keyPass idx).settleFlush f (some w)).when w.refused.isNone (State.count E.REGN_FLUSH_RX 1)).syncFlushes).settle

/-- R297 to R300: a PLACE_FLUSH takes its place among the flushes of its connection; its check waits for the entry where that is not on
die (R185). -/
def State.placeFlush (i : Nat) (m : InSend) (s0 : State) : State :=
  let f : FlushWait := { ctx := i, tag := ctlTag m.data, check := some m }
  let s := (s0.popMsg i).onRegn fun g => { g with flushes := g.flushes ++ [f] }
  let idx := netAt m.data.val 16 4 / 256
  if s.keyHit idx then (s.keyTouch idx).flushCheck f m
  else (s.onGard fun g => { g with keyWaits := g.keyWaits ++ [⟨idx, i, m.psn, .flush⟩] }).count E.GARD_KEY_MISS 1

/-- The entry that a flush waited for has come, or an uncorrectable error of it (R188). -/
def State.flushArrived (ue : Bool) (i psn : Nat) (s : State) : State :=
  match s.regn.flushes.findSome? fun f => match f.check with
    | some m => if f.ctx = i ∧ m.psn = psn then some (f, m) else none
    | none => none with
  | none => s
  | some (f, m) => if ue then ((s.settleFlush f none).replyAt i .opNak m.psn).settle else s.flushCheck f m

def execPlaceFlush (ctx : Nat) (s : State) : Result :=
  .next (match s.ctlMsg ctx 4 with
    | none => s
    | some m => (s.placeFlush ctx m).settleSeal)

/-- R292, R293: a message that is not valid. A PLACE_FLUSH passes its key check first all the same (R297), and a message that is none of
the three of R296 waits behind a PLACE_FLUSH. -/
def execControlMsgInvalid (ctx : Nat) (s : State) : Result :=
  .next (match s.ctlFront ctx with
    | none => s
    | some m =>
      let op := ctlOp m.data
      if ctlValid (s.ctx ctx).id.ocmVer m.data then s
      else if op = 4 then (s.placeFlush ctx m).settleSeal
      else if (op = 0 ∨ 4 < op) ∧ s.regn.flushes.any (fun f => decide (f.ctx = ctx)) then s
      else ((s.popMsg ctx).respond ctx (0x80 + op % 128) (ctlTag m.data) 1 false 0).ctlProto)

/-! ### Notifications (R304 to R310) -/

/-- R306. -/
def State.notifySend (k : Nat) (s : State) : State :=
  match s.sub k with
  | none => s
  | some e => match e.queued with
    | [] => s
    | r :: rest =>
      (((s.setSub k { e with queued := rest, sent := e.sent ++ [r] }).submit e.conn
        (.writeImm ((e.va + r.1 % 2 ^ e.ringLog2 * 32) % 2 ^ 64) e.rkey r.2.1 e.serial ⟨32, r.2.2⟩)).count E.REGN_NOTIFY_SENT 1).subFinish k

def execNotifySend (index : Nat) (s : State) : Result := .next (s.when (s.isLive pgRegn) (State.notifySend index))

/-- The subscriber's transport has acknowledged a record (R307, R308). -/
def execNotifyAcked (index : Nat) (s : State) : Result :=
  .next (match s.sub index with
    | none => s
    | some e =>
      if s.xprt.ackedSubs.contains e.serial then
        ((s.onXprt fun x => { x with ackedSubs := removeFirst e.serial x.ackedSubs }).setSub index { e with sent := e.sent.tail }).mirrorIf
          e.conn (.subscription index)
      else s)

/-! ### Changes of the region table (R277 to R280) -/

/-- Another region than `i` that is not FREE shares the 16 KiB unit. -/
def State.unitShared (s : State) (i u : Nat) : Bool :=
  s.regn.regions.any fun j r => decide (j ≠ i ∧ r.state = 1 ∧ r.base / 16384 ≤ u ∧ u * 16384 < r.base + r.size)
/-- The 16 KiB units that only this region touches. -/
def State.ownUnits (s : State) (i : Nat) : List Nat :=
  let r := s.region i
  ((List.range ((r.size + 16383) / 16384 + 1)).map fun k => r.base / 16384 + k).filter fun u =>
    decide (u * 16384 < r.base + r.size) && !s.unitShared i u
/-- A destage unit is deallocated (R278): its entry is UNMAPPED. -/
def State.freeDestage (s : State) (u : Nat) : State :=
  if meUnmapped (s.entry imgVol u) then s else ((s.lookupPage (pageKey imgVol u) 0).2).commitEntry imgVol u entUnmapped 0

/-- What a retirement is refused with (Table 7.2). -/
def State.retireRefusal (s : State) (i : Nat) : Option Nat :=
  if (s.region i).state ≠ 1 then some 1 else if s.keysOf i ≠ 0 then some 2 else none
def State.regionOpDone (status : Nat) (s : State) : State :=
  (s.setF pgRegn F.REGN_OP_STAT_BUSY 0).setF pgRegn F.REGN_OP_STAT_STATUS status

/-- A retirement takes effect (Table 7.2): subscriptions end, zeroing starts, and the destage units go. -/
def State.regionRetire (i : Nat) (s : State) : State :=
  match s.retireRefusal i with
  | some st => s.regionOpDone st
  | none =>
    let r := s.region i
    let mine := s.ownUnits i
    let s1 := (s.subKeys i).foldl (fun t k => match t.sub k with
      | some e => (t.endSub k).submit e.conn (.send none none (subEnd (t.ctx e.conn).id.ocmVer i e.subTag))
      | none => t) (s.regionOpDone 0)
    let s2 := (s1.setRegion i { r with state := 2 }).onRegn fun g => { g with
      zeroing := insertSorted i g.zeroing, dirty := g.dirty.filter fun u _ => !mine.contains u }
    mine.foldl State.freeDestage s2.syncDirty

def State.applyRegChange (c : RegChange) (s : State) : State :=
  match c with
  | .create i x rq =>
    if s.regionWriteOk i x then ((s.setRegion i (regionOfBytes x (s.region i))).syncRegions).onFab (Fab.winDone pgRegn rq 0)
    else s.onFab (Fab.winDone pgRegn rq 3)
  | .retire i => s.regionRetire i
  | .free i =>
    let r := s.region i
    if r.state = 2 then ((s.setRegion i { writes := r.writes }).onRegn fun g => { g with
        zeroing := g.zeroing.filter fun k => decide (k ≠ i)
        mem := memZero r.base r.size g.mem }).syncRegions
    else s

/-- The change would take effect on the table as it stands. -/
def State.regionAccepts (s : State) : RegChange → Bool
  | .create i x _ => s.regionWriteOk i x
  | .retire i => (s.retireRefusal i).isNone
  | .free i => decide ((s.region i).state = 2)
def RegChange.index : RegChange → Nat
  | .create i _ _ => i
  | .retire i => i
  | .free i => i
/-- A key-table write of the region waits for the partner. -/
def State.keyWritePending (s : State) (i : Nat) : Bool := s.gard.keyChange.any fun c => match c with
  | .write _ x _ => decide ((keyOfBytes x {}).region = i)
  | .retire _ => false

/-- A change takes effect at once, or in paired mode once the partner holds it (R277); one that the table refuses goes nowhere. A
retirement follows the key-table writes of its region that wait already (R280). -/
def State.regionChange (i : Nat) (c : RegChange) (s : State) : State :=
  if !(s.mirroring && s.regionAccepts c) then (s.applyRegChange c).syncIf 0 (.tableEntry pgRegn.base 1 i)
  else if c = .retire i ∧ s.keyWritePending i then s.onRegn fun g => { g with retireHeld := some i }
  else (s.onRegn fun g => { g with changes := g.changes ++ [c] }).mirror 0 (.regionChange i)

/-- The partner has confirmed the oldest change; where the table refuses it by now, the partner's entry is set right. -/
def State.regionConfirm (s : State) : State :=
  match s.regn.changes with
  | [] => s
  | c :: rest =>
    let s1 := (s.onRegn fun g => { g with changes := rest }).applyRegChange c
    if s.regionAccepts c then s1 else s1.mirrorIf 0 (.tableEntry pgRegn.base 1 c.index)

/-- The retirement that waited for key-table writes of its region goes on. -/
def State.retireDue (s : State) : State :=
  match s.regn.retireHeld with
  | none => s
  | some i => if s.keyWritePending i then s else (s.onRegn fun g => { g with retireHeld := none }).regionChange i (.retire i)
/-- The partner has confirmed the oldest change of the key table (R181). -/
def State.keyConfirmed (s : State) : State := s.keyConfirm.retireDue
/-- A retirement that still waits takes effect without the partner (R280). -/
def State.retireAlone (s : State) : State :=
  match s.regn.retireHeld with
  | none => s
  | some i => (s.onRegn fun g => { g with retireHeld := none }).applyRegChange (.retire i)

/-! ### The region table -/

/-- A write of `REGN_OP` with GO and OP 1 (R277, R278): it sees the region's entry as it stands. -/
def State.regionRetireWrite (index : Nat) (s : State) : State :=
  if s.flag pgRegn F.REGN_OP_STAT_BUSY then s.count E.MGMT_CTL_IGNORED 1
  else (s.setF pgRegn F.REGN_OP_STAT_BUSY 1).regionChange index (.retire index)

def execRegionRetire (index : Nat) (s : State) : Result := .next (s.regionRetireWrite (index % 65536))

/-- Zeroing is complete on both controllers (Table 7.2). -/
def execRegionZeroComplete (index : Nat) (s : State) : Result :=
  .next (s.when (s.regn.zeroing.contains index && !s.regn.changes.contains (.free index)) (State.regionChange index (.free index)))

/-- The partner has confirmed the oldest change of the region table (R277). -/
def execRegionTableConfirm (s : State) : Result := .next s.regionConfirm

/-- The oldest dirty unit is older than DESTAGE_MS (R313). -/
def execDestageLag (s : State) : Result :=
  .next (s.syncDirty.when (s.owned && decide (s.get pgRegn F.REGN_CFG_DESTAGE_MS < s.oldestDirtyMs)) (State.occur S.REGN_DESTAGE_LAG))

end Sys2Proof.Machine
end

