-- ==== Sys2Proof/Machine/XprtExec.lean ====
section
/-!
DEFINITION. The commands of XPRT and GARD: packets received, timers, egress work, connection management, region keys (chapters 04 and 05
of spec/).
-/
namespace Sys2Proof.Machine
open Sys2Proof

/-! ### Packets received -/

/-- A packet of the class that the command names goes to XPRT. -/
def State.rxIf (c : Bool) (rx : RxMeta) (p : Packet) (s : State) : State := s.when c fun t => (t.rxPacket rx p).settleSeal

def execRxRequestPacket (rx : RxMeta) (pkt : Packet) (s : State) : Result := .next (s.rxIf (isRequest pkt.opcode) rx pkt)
def execRxReadResponse (rx : RxMeta) (pkt : Packet) (s : State) : Result := .next (s.rxIf (isReadResp pkt.opcode) rx pkt)
def execRxCnp (rx : RxMeta) (pkt : Packet) (s : State) : Result := .next (s.rxIf (decide (pkt.opcode = 0x81)) rx pkt)
def execRxAck (rx : RxMeta) (pkt : Packet) (s : State) : Result :=
  .next (s.rxIf (decide (pkt.opcode = 0x11 ∧ pkt.aeth = .ack)) rx pkt)
/-- The mirrored commands of a connection that has just resumed begin again (Table 16.6). -/
def State.beginReplays (s : State) : State :=
  if s.cmdq.replay.isEmpty then s
  else s.cmdq.replay.foldl (fun t n => t.beginCmd n) (s.onCmdq fun c => { c with replay := [] })
def execRxSeqNak (rx : RxMeta) (pkt : Packet) (s : State) : Result :=
  .next (s.rxIf (decide (pkt.opcode = 0x11 ∧ pkt.aeth = .seqNak)) rx pkt).beginReplays
def isRnr : Aeth → Bool
  | .rnr _ => true
  | _ => false
def execRxRnrNak (rx : RxMeta) (pkt : Packet) (s : State) : Result :=
  .next (s.rxIf (decide (pkt.opcode = 0x11) && isRnr pkt.aeth) rx pkt)
def execRxFatalNak (rx : RxMeta) (pkt : Packet) (s : State) : Result :=
  .next (s.rxIf (decide (pkt.opcode = 0x11 ∧ (pkt.aeth = .invalidNak ∨ pkt.aeth = .accessNak ∨ pkt.aeth = .opNak))) rx pkt)

/-! ### Timers and egress work: an uncached context comes in by the separate path of R171 -/

def State.live (s : State) (i : Nat) : Bool := decide ((s.ctx i).state = .ready) && s.isLive pgXprt

/-- What a job does to a context that is on die, where its cause still stands: the ACK delay (R145), a rate rise (R155), the local ACK
timer (R150) and that of a probe (R642), the RNR delay (R151), submitted work (R153), a REP or DREQ to send again, the end of TIMEWAIT
(Table 4.8). -/
def State.runJob (i : Nat) (j : CtxJob) (s : State) : State :=
  let c := s.ctx i
  match j with
  | .ackDelay => s.when (s.live i && decide (c.rx.unacked ≠ 0)) (State.ack i)
  | .rateRise => s.when (s.live i) (State.rateIncrease i)
  | .ackTimer =>
    if s.probing i ∧ s.isLive pgXprt then s.probeTimeout i
    else s.when (s.live i && !c.tx.retained.isEmpty) fun t => (t.count E.XPRT_ACK_TIMEOUT 1).retry i fun u =>
      (u.onTx i fun x => { x with reads := x.reads.map fun r => { r with resent := false } }).resendFrom i (u.ctx i).tx.unaPsn
  | .rnrTimer => s.when (s.live i && c.tx.rnrWait) fun t => (t.onTx i fun x => { x with rnrWait := false }).resendFrom i c.tx.unaPsn
  | .send => s.when (s.live i && !c.tx.work.isEmpty) (State.sendWork i)
  | .repTimer => s.when (decide (c.state = .connecting) && !s.probing i && s.isLive pgXprt) fun t =>
    if c.tx.sends < 4 then (t.onTx i fun x => { x with sends := x.sends + 1 }).sendRep i
    else (t.enterTimewait i).onCtxId i fun x => { x with errCause := 10 }
  | .dreqTimer => s.when (decide (c.state = .closing) && s.isLive pgXprt) fun t =>
    if c.tx.sends < 3 then t.sendDreq i else t.enterTimewait i
  | .timewait => s.when (decide (c.state = .timewait)) (State.freeConn i)
/-- The job's cause stands: there is a context for it. -/
def State.job (i : Nat) (j : CtxJob) (s : State) : State :=
  s.when (!(s.ctx i).isFree) fun t => (t.useCtx i j (State.runJob i j)).settleSeal

/-- ACK_DELAY has passed since the oldest unacknowledged new packet (R145). -/
def execAckDelayExpiry (ctx : Nat) (s : State) : Result :=
  .next (s.when (s.live ctx && decide ((s.ctx ctx).rx.unacked ≠ 0)) (State.job ctx .ackDelay))

/-- One RC_PERIOD after the last decrease or rise (R155). -/
def execRateIncrease (ctx : Nat) (s : State) : Result := .next (s.when (s.live ctx) (State.job ctx .rateRise))

/-- The local ACK timer (R150); that of a probe after a takeover (R642). -/
def execAckTimeout (ctx : Nat) (s : State) : Result :=
  .next (s.when ((s.probing ctx && s.isLive pgXprt) || (s.live ctx && !(s.ctx ctx).tx.retained.isEmpty)) (State.job ctx .ackTimer))

/-- The delay of an RNR NAK ends (R151). -/
def execRnrTimerExpiry (ctx : Nat) (s : State) : Result :=
  .next (s.when (s.live ctx && (s.ctx ctx).tx.rnrWait) (State.job ctx .rnrTimer))

/-- The first submitted work of a connection goes out (R153, R204). -/
def execXprtSend (ctx : Nat) (s : State) : Result :=
  .next (s.when (s.live ctx && !(s.ctx ctx).tx.work.isEmpty) (State.job ctx .send))

/-- Firmware loads the half of epoch e + 2 once e + 1 is current (R205); a send side that is due then switches (R203). DESIGN CHOICE (log
entry 123): a half that is loaded begins with FAILS 0. -/
def State.rekeyLoad (i : Nat) (rxHalf : Bool) (s : State) : State :=
  let c := s.ctx i
  let cur := if rxHalf then c.sl.rxPhase else c.sl.keySlot
  let half := fun (v : KeySlot) => if rxHalf then v.rx else v.tx
  let e := (half (s.keySlot i cur)).epoch
  if !c.id.sealed ∨ c.isFree ∨ (half (s.keySlot i (!cur))).epoch + 1 ≠ e then s
  else
    let okm := okmN (s.gard.prk.get i 0) (e + 1) (s.qpn i) c.id.remoteQpn
    let v := s.keySlot i (!cur)
    let s1 := if rxHalf then s.setKeySlot i (!cur) { v with rx := { key := bytesAt okm 0 32, epoch := e + 1, ready := true } }
      else s.setKeySlot i (!cur) { v with tx := { key := bytesAt okm 32 32, epoch := e + 1, ready := true } }
    s1.when (!rxHalf) (State.rekeyTx i)

def execRekeyLoad (ctx : Nat) (rxHalf : Bool) (s : State) : Result := .next (s.rekeyLoad ctx rxHalf)

/-- The jobs that waited for a context, once it is on die (R171). -/
def State.runJobs (i : Nat) (s : State) : State :=
  if !s.cached i ∧ !(s.ctx i).isFree then s
  else
    let mine := (s.xprt.jobs.filter fun e => decide (e.1 = i)).map Prod.snd
    mine.foldl (fun t j => t.runJob i j) (s.onXprt fun x => { x with jobs := x.jobs.filter fun e => decide (e.1 ≠ i) })

/-- A context arrives from HBM (R168, R169, R172): its parked packets first, then the timers and the work that wait for it. -/
def execCtxFetchComplete (ctx : Nat) (late ue : Bool) (s : State) : Result :=
  .next (s.when (s.xprt.fetching.contains ctx) fun t =>
    (((t.when late (State.occur S.XPRT_FETCH_LATE)).fetched ctx ue).runJobs ctx).settleSeal).beginReplays

/-! ### Connection management (R133, R134, Table 4.8) -/

/-- A communication-management message: none is answered while the page is not ON or DRAINING (R759). -/
def State.cmMessage (g : State → State) (s : State) : State := if s.isLive pgXprt then g s else s.count E.XPRT_NOT_ON_DROP 1

def execCmReq (req : CmReq) (s : State) : Result :=
  .next (s.cmMessage fun t => if 4096 ≤ t.xprt.reqs.length then t else t.onXprt fun x => { x with reqs := x.reqs ++ [req] })

def execCmReqAnswer (devPriv sport pick startPsn : Nat) (s : State) : Result :=
  .next (s.when (s.isLive pgXprt) (State.answerReq devPriv sport pick startPsn))

def execCmRtu (ctx : Nat) (s : State) : Result :=
  .next (s.cmMessage fun t => t.when (decide ((t.ctx ctx).state = .connecting) && !t.probing ctx) (State.setConnState ctx .ready))

def execCmRej (ctx : Nat) (s : State) : Result :=
  .next (s.cmMessage fun t => t.when (decide ((t.ctx ctx).state = .connecting) && !t.probing ctx) (State.enterTimewait ctx))

/-- A DREQ is answered with DREP in every state that Table 4.8 and R133 name. -/
def execCmDreq (ctx : Nat) (s : State) : Result :=
  .next (s.cmMessage fun t => match (t.ctx ctx).state with
    | .connecting => ((t.dropMirror ctx).cmOn ctx (.cmDrep ctx)).enterTimewait ctx
    | .ready => (t.cmOn ctx (.cmDrep ctx)).enterTimewait ctx
    | .closing => (t.cmOn ctx (.cmDrep ctx)).enterTimewait ctx
    | .timewait => t.cmOn ctx (.cmDrep ctx)
    | .free => t
    | .error => t)

def execCmDrep (ctx : Nat) (s : State) : Result :=
  .next (s.cmMessage fun t => t.when (decide ((t.ctx ctx).state = .closing)) (State.enterTimewait ctx))

def execCmUnsupported (malformed : Bool) (s : State) : Result :=
  .next (s.cmMessage fun t => if malformed then t.occur S.XPRT_CM_PROTO else t.count E.XPRT_CM_UNSUPPORTED 1)

/-- 10 ms after a REP (Table 4.8). -/
def execRepRetryTimeout (ctx : Nat) (s : State) : Result :=
  .next (s.when (decide ((s.ctx ctx).state = .connecting) && !s.probing ctx && s.isLive pgXprt) (State.job ctx .repTimer))

/-- 10 ms after a DREQ (Table 4.8). -/
def execDreqRetryTimeout (ctx : Nat) (s : State) : Result :=
  .next (s.when (decide ((s.ctx ctx).state = .closing) && s.isLive pgXprt) (State.job ctx .dreqTimer))

/-- ERROR to CLOSING (Table 4.8). -/
def execFlushComplete (ctx : Nat) (s : State) : Result :=
  .next (s.when (decide ((s.ctx ctx).state = .error)) fun t =>
    (t.onCtx ctx fun c => { c with state := .closing, tx := { c.tx with sends := 0 } }).sendDreq ctx)

/-- TIMEWAIT_MS has passed (Table 4.8). -/
def execTimewaitExpiry (ctx : Nat) (s : State) : Result :=
  .next (s.when (decide ((s.ctx ctx).state = .timewait)) (State.job ctx .timewait))

/-- A write of `XPRT_CLOSE`: GO 1 closes context INDEX where it is READY (Table 4.11). -/
def State.xprtCloseWrite (value : Nat) (s : State) : State := s.when (bitAt value 31) (State.closeConn (value % 65536) 8)

def execXprtClose (value : BitVec 32) (s : State) : Result := .next (s.xprtCloseWrite value.toNat)

/-! ### Region keys (R181, R185, R188) -/

/-- An access that waited goes on (R185), or receives the operational-error NAK of an uncorrectable error (R188). -/
def State.keyArrived (ue : Bool) (s : State) (w : KeyWait) : State := match w.what with
  | .write id p dup us => s.writeArrived ue w.ctx id p dup us
  | .read p dup seen => s.regReadArrived ue w.ctx p dup seen
  | .flush => s.flushArrived ue w.ctx w.psn

/-- A key entry arrives from HBM. -/
def State.keyFetched (index : Nat) (ue : Bool) (s : State) : State :=
  let ws := s.gard.keyWaits.filter fun w => decide (w.index = index)
  let s1 := (s.onGard fun g => { g with keyWaits := g.keyWaits.filter fun w => decide (w.index ≠ index) }).keyTouch index
  let s2 := if ue then (s1.setKey index { s1.key index with bad := true }).occur S.GARD_KEY_UE else s1
  (ws.foldl (fun t w => (t.keyArrived ue w).releaseReplies w.ctx ((t.ctx w.ctx).rx.replies.length + 2)) s2).settleSeal

def execKeyFetchComplete (index : Nat) (ue : Bool) (s : State) : Result :=
  .next (s.when (s.gard.keyWaits.any fun w => decide (w.index = index)) (State.keyFetched index ue))

/-- A write of `KEY_OP` with GO and OP 1 (Table 5.9): ignored and counted while one runs; INDEX 0 is refused. -/
def State.keyRetire (index : Nat) (s : State) : State :=
  if s.flag pgKeys F.KEY_OP_STAT_BUSY then s.count E.MGMT_CTL_IGNORED 1
  else if index = 0 then s.setF pgKeys F.KEY_OP_STAT_STATUS 2
  else (s.setF pgKeys F.KEY_OP_STAT_BUSY 1).keyChange index (.retire index)

def execKeyRetire (index : Nat) (s : State) : Result := .next (s.keyRetire (index % 2 ^ 20))

/-- The partner has confirmed the oldest change of the key table (R181). -/
def execKeyChangeConfirm (s : State) : Result := .next s.keyConfirmed

/-- KEY_QUIET_MS has passed for a QUIET key (Table 5.2). -/
def execKeyQuietExpiry (index : Nat) (s : State) : Result :=
  .next (s.when (decide ((s.key index).state = 3)) fun t => (t.setKey index { t.key index with state := 0, bad := false }).syncKeys)

end Sys2Proof.Machine
end

