-- ==== Sys2Proof/Machine/TblOps.lean ====
section
/-!
DEFINITION. The tables of every page and their windows (R85 to R88): which tables there are, what a live entry reads, what a write of
one does.
-/
namespace Sys2Proof.Machine
open Sys2Proof

/-- A table of a page: its number, whether it is shadowed, its entries, the bytes of one, and of a shadowed entry the bits that are not
reserved; a live table that takes writes. -/
structure TblDef where
  table : Nat
  shadowed : Bool
  entries : Nat
  size : Nat
  bits : List (Nat × Nat) := []
  writable : Bool := false
deriving DecidableEq, Repr

def TblDef.chunks (d : TblDef) : Nat := (d.size + 31) / 32

/-- The tables of each kind of page (Tables 3.3, 4.12, 5.7, 5.8, 6.12, 7.10, 8.10, 9.8, 10.8, 11.5, 12.8, 13.14; R178, R193, R208, R212,
R213, R215, R548, R585, R648, R697; chapters 09 and 17 below their register tables). -/
def tblDefs : PageType → List TblDef
  | .grp0 => [⟨1, true, 4096, 64, [(0, 4), (16, 12), (32, 12), (45, 3), (48, 6), (64, 64), (128, 32), (256, 128)], false⟩]
  | .xprt => [⟨1, true, 4096, 8, [(0, 24), (24, 3)], false⟩, ⟨2, false, 65536, 256, [], false⟩, ⟨3, false, 4096, 4, [], false⟩]
  | .gard0 => [⟨1, false, 1048576, 32, [], true⟩, ⟨2, false, 256, 32, [], false⟩]
  | .gard1 => [⟨1, false, 4096, 32, [], true⟩, ⟨2, false, 131072, 128, [], false⟩, ⟨3, false, 16384, 512, [], true⟩]
  | .gard2 => [⟨1, false, 65536, 128, [], true⟩, ⟨2, true, 16384, 8, [(0, 1), (16, 16)], false⟩]
  | .cmdq => [⟨1, true, 4096, 8, [(0, 19), (32, 19), (63, 1)], false⟩, ⟨2, true, 16384, 16, [(0, 2), (16, 12), (32, 32), (64, 48)], false⟩
             , ⟨3, true, 4096, 256, [(0, 2048)], false⟩, ⟨4, false, 262144, 128, [], false⟩, ⟨5, false, 4096, 8, [], false⟩]
  | .regn => [⟨1, false, 65536, 32, [], true⟩, ⟨2, false, 524288, 64, [], false⟩, ⟨3, true, 4096, 8, [(0, 22)], false⟩]
  | .tmgr => [⟨1, true, 8192, 16, [(0, 3), (8, 24), (32, 24), (64, 64)], false⟩, ⟨2, false, 8192, 16, [], false⟩
             , ⟨3, true, 4096, 4, [(0, 14)], false⟩
             , ⟨4, true, 16384, 32, [(0, 3), (16, 12), (32, 10), (48, 10), (64, 24), (96, 24), (128, 24), (160, 24), (192, 16)], false⟩
             , ⟨5, true, 1024, 16, [(0, 2), (32, 24), (64, 24), (96, 8)], false⟩, ⟨6, true, 64, 4, [(0, 7)], false⟩
             , ⟨7, true, 4, 8, [(0, 24), (32, 7)], false⟩, ⟨8, false, 16384, 32, [], false⟩, ⟨9, false, 2097152, 32, [], false⟩
             , ⟨10, false, 262144, 64, [], false⟩]
  | .vat => [⟨1, false, 9216, 4, [], false⟩]
  | .cell => [⟨1, true, 192, 4, [(0, 20)], false⟩, ⟨2, false, 192, 16, [], false⟩, ⟨3, false, 64, 16, [], false⟩
             , ⟨4, false, 524288, 8, [], false⟩]
  | .jrnl => [⟨1, false, 16384, 32, [], false⟩, ⟨2, false, 1, 64, [], false⟩]
  | .cmpr => [⟨1, true, 16384, 4, [(0, 2)], false⟩, ⟨2, false, 64, 32, [], false⟩, ⟨3, false, 60, 4, [], false⟩]
  | .plce => [⟨1, true, 16384, 8, [(0, 3), (32, 24)], false⟩, ⟨2, true, 4, 8, [(0, 64)], false⟩, ⟨3, false, 4, 64, [], false⟩
             , ⟨4, false, 16384, 32, [], false⟩, ⟨5, false, 4096, 8, [], false⟩, ⟨6, false, 16777216, 16, [], false⟩
             , ⟨7, false, 16777216, 16, [], false⟩, ⟨8, false, 16777216, 16, [], false⟩, ⟨9, false, 16777216, 16, [], false⟩]
  | .pool => [⟨1, false, 24, 16, [], false⟩, ⟨2, false, 1, 128, [], false⟩, ⟨3, false, 32256, 16, [], false⟩, ⟨4, false, 64, 16, [], false⟩]
  | .strpCommon => [⟨1, false, 24, 16, [], false⟩]
  | .drvp => [⟨1, false, 32, 32, [], false⟩, ⟨2, false, 1, 256, [], false⟩]
  | .pair => [⟨1, false, 1, 64, [], false⟩, ⟨2, false, 1, 64, [], false⟩]
  | .mgmt1 => [⟨1, true, 16384, 8, [(0, 40)], false⟩, ⟨2, false, 16, 8, [], false⟩, ⟨3, false, 16384, 4, [], false⟩
              , ⟨5, false, 32, 8, [], false⟩]
  | .mgmt2 => [⟨1, true, 1024, 2, [(0, 11), (15, 1)], false⟩]
  | _ => []

def findTbl (p : Page) (table : Nat) : Option TblDef := (tblDefs p.kind).find? fun d => decide (d.table = table)
/-- An entry without its reserved bits. -/
def TblDef.masked (d : TblDef) (v : Nat) : Nat := (d.bits.map fun r => bitsOf v r.1 r.2 * 2 ^ r.1).sum

/-! ### Live entries -/

def ConnState.code : ConnState → Nat
  | .free => 0 | .connecting => 1 | .ready => 2 | .closing => 3 | .timewait => 4 | .error => 5

/-- Bytes of a number placed at a byte offset. -/
def atByte (i v : Nat) : Nat := v * 2 ^ (8 * i)

/-- A connection context (Table 4.6). -/
def Ctx.entry (c : Ctx) : Nat :=
  c.state.code + c.id.kind * 2 ^ 4 + boolNat c.id.errPolicy * 2 ^ 6 + boolNat c.id.pinned * 2 ^ 7 + c.id.ocmVer * 2 ^ 8
    + boolNat c.id.sealed * 2 ^ 16 + boolNat c.id.ipv6 * 2 ^ 17 + boolNat c.id.rcEn * 2 ^ 18 + c.id.errCause * 2 ^ 19
    + c.incarnation * 2 ^ 24 + atByte 4 c.id.tport + atByte 6 c.id.tenant + atByte 8 (c.id.remoteQpn + c.id.pmtu * 2 ^ 24)
    + atByte 12 (toNet 6 c.id.remoteMac) + atByte 18 c.id.egressPort
    + atByte 20 (if c.id.ipv6 then toNet 16 c.id.remoteIp else toNet 4 c.id.remoteIp) + atByte 36 (toNet 2 c.id.udpSport)
    + atByte 40 c.rx.epsn + atByte 44 c.rx.msn + atByte 48 (c.rx.lastAckPsn + c.rx.unacked % 64 * 2 ^ 24 + boolNat c.rx.nakSent * 2 ^ 30)
    + atByte 52 c.tx.nextPsn + atByte 56 c.tx.unaPsn
    + atByte 60 (c.tx.retryLeft + c.tx.rnrLeft * 2 ^ 3 + c.tx.reads.length * 2 ^ 6 + c.rx.readsIn * 2 ^ 11)
    + atByte 64 (c.tx.rate + c.tx.quiet * 2 ^ 20) + atByte 68 (c.tx.lastDec % 2 ^ 32) + atByte 72 (c.tx.lastCnpTx % 2 ^ 32)
    + atByte 76 c.id.qid + atByte 78 c.id.cntlid + atByte 80 c.id.hsqsize + atByte 82 c.id.hrqsize
    + atByte 128 c.sl.saltTx + atByte 132 c.sl.saltRx + atByte 136 (c.sl.txCtr % 2 ^ 40)
    + atByte 144 (c.sl.rxCtr + boolNat c.sl.rxSeen * 2 ^ 40 + boolNat c.sl.rxPhase * 2 ^ 63) + atByte 152 (boolNat c.sl.keySlot)
    + atByte 192 (c.st.rxPkts % 2 ^ 64) + atByte 200 (c.st.txPkts % 2 ^ 64) + atByte 208 (c.st.rxBytes % 2 ^ 64)
    + atByte 216 (c.st.txBytes % 2 ^ 64) + atByte 224 (c.st.retx % 2 ^ 32) + atByte 228 (c.st.dups % 2 ^ 32)
    + atByte 232 (c.st.cnpRx % 2 ^ 32) + atByte 236 (c.st.missDrops % 2 ^ 32)

/-- A key slot, its keys reading 0 (Table 5.6). -/
def SealHalf.entry (h : SealHalf) : Nat := h.epoch % 2 ^ 32 + boolNat h.ready * 2 ^ 32 + h.fails % 256 * 2 ^ 40
def KeySlot.entry (k : KeySlot) : Nat := atByte 32 k.rx.entry + atByte 96 k.tx.entry

/-- An authentication entry, with its keys or with zeros in their place (Table 5.7). -/
def AuthEnt.entry (secret : Bool) (a : AuthEnt) : Nat :=
  a.tenant + atByte 2 (boolNat a.valid + 2 * boolNat a.required + 4 * boolNat a.bidir) + atByte 3 a.hashMask + atByte 4 a.dhMask
    + atByte 5 a.keyLen + atByte 8 a.hostNqn + if secret then atByte 264 a.hostKey + atByte 328 a.ctrlKey else 0
def authOfBytes (x : Nat) : AuthEnt :=
  { tenant := bitsOf x 0 12, valid := bitAt x 16, required := bitAt x 17, bidir := bitAt x 18, hashMask := bitsOf x 24 3
    dhMask := bitsOf x 32 6, keyLen := byteAt x 5, hostNqn := bytesAt x 8 256, hostKey := bytesAt x 264 64, ctrlKey := bytesAt x 328 64 }

/-- An at-rest key entry (Table 5.8). -/
def RestKey.entry (secret : Bool) (k : RestKey) : Nat :=
  (if secret then k.k1 + atByte 32 k.k2 else 0) + atByte 64 k.volume + atByte 66 k.state + atByte 68 (k.units % 2 ^ 64)
def restReserved (x : Nat) : Bool := decide (bitsOf x 526 2 ≠ 0 ∨ bitsOf x 530 6 ≠ 0 ∨ byteAt x 67 ≠ 0 ∨ bytesAt x 76 52 ≠ 0)

/-- Entry of table 3 of PLCE, by pool (Table 12.8). -/
def State.poolEntry (s : State) (p : Nat) : Nat :=
  let v := s.pool p
  let o := s.openSegs p
  let pads := ((s.plce.segs.list.filter fun e => decide (e.1 / 2 ^ 24 = p)).map fun e => e.2.pad).sum
  v.segments + atByte 4 v.segg + atByte 8 (s.freeSegs p) + atByte 12 o.1 + atByte 16 o.2 + atByte 20 (s.plce.victims.get p 0)
    + atByte 24 (s.poolLive p) + atByte 32 pads + atByte 40 (s.poolResv p)

/-- Entry of table 1 of JRNL, by volume (Table 10.8). -/
def State.jrnlEntry (s : State) (v : Nat) : Nat :=
  let mine := s.recsWhere fun r => decide (r.volume = v)
  let dirty := mine.filter JRec.dirty
  sumLen dirty + atByte 8 (sumLen (mine.filter JRec.isPending)) + atByte 16 (match dirty.map JRec.seq with
    | [] => 0
    | x :: rest => rest.foldl min x) + atByte 24 (s.jrnl.lastPlaced.get v 0)

/-- A drive's identity while it is READY (R585). -/
def State.identEntry (s : State) (b : Nat) : Nat := if s.flag (pgDrvp b) F.BAY_STAT_READY then (s.bay b).ident else 0

/-- A live entry as it stands, secrets included. -/
def State.liveRaw (s : State) (p : Page) (t i : Nat) (secret : Bool) : Nat :=
  match p.blk, p.inst, t with
  | .xprt, _, 2 => (s.ctx i).entry
  | .xprt, _, 3 => s.connsOf i
  | .gard, 0, 1 => keyBytes (s.key i)
  | .gard, 0, 2 => s.gard.keyLog.get i 0
  | .gard, 1, 1 => if secret then s.gard.secrets.get i 0 else 0
  | .gard, 1, 2 => (s.gard.slots.get i {}).entry
  | .gard, 1, 3 => (s.gard.auth.get i {}).entry secret
  | .gard, 2, 1 => (s.restKey i).entry secret
  | .cmdq, _, 4 => match s.slot i with
    | some v => v.entry
    | none => 0
  | .cmdq, _, 5 => s.slotsOf i + atByte 4 (s.pendingOf i)
  | .regn, _, 1 => s.regionBytes i
  | .regn, _, 2 => match s.regn.subs.find i with
    | some e => e.entry
    | none => 0
  | .tmgr, _, 2 => let b := s.tmgr.buckets.get i {}; b.tc + atByte 8 b.tp
  | .tmgr, _, 8 => (s.tmgr.samples.get i {}).entry
  | .tmgr, _, 9 => s.tmgr.sampleRing.get i 0
  | .tmgr, _, 10 => match s.tmgr.gens.find (i / 4096) with
    | some g => meterRecord g (i % 4096)
    | none => 0
  | .vat, _, _ => ((s.vat.queues.get i []).map QUnit.left).sum
  | .cell, _, 2 => s.cell.used.get i 0 + atByte 4 (s.cell.peak.get i 0) + atByte 8 (s.cell.pushedOut.get i 0 % 2 ^ 32)
      + atByte 12 (s.cell.dropped.get i 0 % 2 ^ 32)
  | .cell, _, 3 => s.cell.log.get i 0
  | .cell, _, 4 => (s.cell.cells.get i {}).entry
  | .jrnl, _, 1 => s.jrnlEntry i
  | .jrnl, _, 2 => s.jrnl.header
  | .cmpr, _, 2 => s.cmpr.log.get i 0
  | .cmpr, _, 3 => min 65535 (s.laneErrs s.cmpr.ce i) + min 65535 (s.laneErrs s.cmpr.restarts i) * 2 ^ 16
  | .plce, _, 3 => s.poolEntry i
  | .plce, _, 4 => s.physUsed i + atByte 8 (s.volResv i) + atByte 16 (s.mappedUnits i) + atByte 24 (s.damagedUnits i)
  | .plce, _, 5 => s.tenantPhys i
  | .plce, _, n => s.segEntry (n - 6) i
  | .strp, 4, _ => s.bayRole i
  | .strp, q, 1 => s.memberEntry q i
  | .strp, q, 2 => s.oslBytes q
  | .strp, q, 3 => match (s.pool q).loss[i]? with
    | some e => e.entry
    | none => 0
  | .strp, q, 4 => (s.pool q).turnerLog.get i 0
  | .drvp, b, 1 => (s.bay b).log.get i 0
  | .drvp, b, 2 => s.identEntry b
  | .pair, _, 1 => s.pair.island.health
  | .pair, _, 2 => s.pair.island.partnerHealth
  | .mgmt, 1, 2 => let r := s.pol.rates.get i {}; r.rate + atByte 4 r.reason
  | .mgmt, 1, 3 => s.pol.mults.get i 16
  | .mgmt, 1, 5 => match s.pol.deferred[i]? with
    | some d => d.kind + atByte 2 d.channel + atByte 4 (d.time % 2 ^ 32)
    | none => 0
  | _, _, _ => 0

/-- A table read by a window (R11): the entry of the copy it names. -/
def State.tblRead (s : State) (p : Page) (d : TblDef) (sel : Bool) (i : Nat) : Nat :=
  if d.shadowed then s.fab.tab p sel d.table i else s.liveRaw p d.table i false

/-- What a read clears: the MAX fields of a leaf's samples (R341), the PEAK of an owner (R392). -/
def State.tblReadDone (p : Page) (t i : Nat) (s : State) : State :=
  match p.blk, t with
  | .tmgr, 8 => s.onTmgr fun m => { m with samples := m.samples.put i {} (m.samples.get i {}).cleared }
  | .cell, 2 => s.onCell fun c => { c with peak := c.peak.put i 0 0 }
  | _, _ => s

/-! ### Live writes -/

/-- An at-rest key write: the three transitions of R214. -/
def State.restWrite (i x : Nat) (s : State) : Option State :=
  let k := s.restKey i
  let set := fun (v : RestKey) => some (((s.onGard fun g => { g with rest := g.rest.put i {} v }).setF pgXts F.XTS_STAT_ACTIVE_KEYS
    (((s.gard.rest.put i {} v).count fun _ e => decide (e.state = 1)))))
  let st := bitsOf x 528 2
  if restReserved x ∨ i = 0 then none
  else if k.state = 0 ∧ st = 1 ∧ bytesAt x 0 32 ≠ bytesAt x 32 32 then
    set { k with k1 := bytesAt x 0 32, k2 := bytesAt x 32 32, volume := bitsOf x 512 14, state := 1 }
  else if k.state = 1 ∧ st = 2 then set { k with k1 := 0, k2 := 0, state := 2 }
  else if k.state = 2 ∧ st = 0 ∧ k.units = 0 then set { k with state := 0 }
  else none

/-- A tenant secret (R208, R209). -/
def State.secretWrite (i x : Nat) (s : State) : Option State :=
  if x = 0 ∧ polOcmMax (s.tab pgXprt 1 i) = 0x12 then none
  else some (s.onGard fun g => { g with secrets := g.secrets.put i 0 x })

/-- A live write that takes effect in the cycle of its completion; none where the block refuses it. -/
def State.livePut (p : Page) (t i x : Nat) (s : State) : Option State :=
  match p.blk, p.inst, t with
  | .gard, 1, 1 => s.secretWrite i (bytesAt x 0 32)
  | .gard, 1, 3 => some (s.onGard fun g => { g with auth := g.auth.put i {} (authOfBytes x) })
  | .gard, 2, 1 => s.restWrite i x
  | _, _, _ => none

def State.livePutDone (p : Page) (t i x : Nat) (rq : Requester) (s : State) : State :=
  match s.livePut p t i x with
  | some s1 => s1.onFab (Fab.winDone p rq 0)
  | none => s.onFab (Fab.winDone p rq 3)

/-- A whole live entry is written through a window: at once, or in paired mode once the partner holds it (R181, R277, R636); one that
the block refuses goes nowhere. -/
def State.liveWrite (p : Page) (t i x : Nat) (rq : Requester) (s : State) : State :=
  match p.blk, p.inst, t with
  | .gard, 0, 1 => s.keyChange i (.write i x rq)
  | .regn, _, 1 => s.regionChange i (.create i x rq)
  | _, _, _ =>
    if s.mirroring && (s.livePut p t i x).isSome then (s.onPair fun q => { q with tblWaits := q.tblWaits ++ [⟨p, t, i, x, rq⟩] }).mirror 0 (.tableWrite p.base t i)
    else (s.livePutDone p t i x rq).syncIf 0 (.tableEntry p.base t i)

/-- The partner's confirmation of the oldest table write. -/
def State.tblConfirm (s : State) : State :=
  match s.pair.tblWaits with
  | [] => s
  | w :: rest => (s.onPair fun q => { q with tblWaits := rest }).livePutDone w.page w.table w.index w.value w.window

/-! ### Windows (R85 to R88) -/

def State.swapBusy (s : State) : Bool := s.flag pgDev F.SWAP_STAT_BUSY
def State.onWin (b : Nat) (g : Win → Win) (s : State) : State := s.onFab fun f => { f with wins := f.wins.put b {} (g (f.win b)) }

/-- A shadow set has been edited: SHD_DIRTY, and the last commit cannot be reverted (R75, R80). -/
def State.shadowEdited (p : Page) (s : State) : State :=
  (s.onFab fun f => f.setPage p { f.page p with shdDirty := true }).setF pgDev F.SWAP_STAT_REVERT_OK 0

/-- A shadow write is dropped because a swap runs (R81). -/
def State.shadowDrop (s : State) : State := (s.setF pgDev F.SWAP_STAT_LOST_WRITE 1).count E.MGMT_SHD_WRITE_DROP 1
/-- The standby's own shadow sets come from the active (R639). -/
def State.isStandby (s : State) : Bool := decide (s.get pgPair F.PAIR_STAT_ROLE = 4)

/-- A write of `TBL_CMD` (R86). A core's write of a shadowed table is ignored and counted, whichever copy it names (R62). -/
def State.tblCmd (rq : Requester) (p : Page) (op : Nat) (sel : Bool) (table : Nat) (s : State) : State :=
  let b := winBase p rq
  let cmd := b + F.TBL_CMD_BUSY.off
  let shadowed := match findTbl p table with
    | some d => d.shadowed
    | none => false
  let writes := shadowed && decide (op = 2 ∨ op = 3)
  let edits := writes && sel
  if getBits (s.fab.reg cmd) 31 1 = 1 then s.count E.MGMT_TBL_BUSY 1
  else if writes && decide (rq = .core) then s.count E.MGMT_CORE_DENIED 1
  else if edits && s.isStandby then s.count E.MGMT_CTL_IGNORED 1
  else
    let r0 := s.fab.reg cmd
    let r1 := setBits (setBits r0 12 1 (boolNat sel)) 0 8 table
    let r2 := if op < 4 then setBits r1 8 3 op else r1
    let s1 := s.onFab (Fab.setReg cmd r2)
    if op = 0 ∨ 4 ≤ op then s1
    else if edits && s.swapBusy then (s1.onFab (Fab.winDone p rq 6)).shadowDrop
    else
      let a := s.fab.reg (b + F.TBL_ADDR_INDEX.off)
      let data := ((List.range 8).map fun m => (s.fab.reg (b + 0x10 + 4 * m)).toNat * 2 ^ (32 * m)).sum
      ((s1.onFab (Fab.setReg cmd (setBits r2 31 1 1))).onFab fun f => { f with winOrder := f.winOrder + 1 }).onWin b fun w => { w with
        run := some { op := op, sel := sel, table := table, index := getBits a 0 24, chunk := getBits a 24 5, data := data, order := s.fab.winOrder } }

def State.tblDone (p : Page) (rq : Requester) (status : Nat) (s : State) : State := s.onFab (Fab.winDone p rq status)

/-- The chunks held for another entry are given up (R87). -/
def State.dropHeld (b : Nat) (keep : Option (Nat × Bool × Nat)) (s : State) : State :=
  let w := s.fab.win b
  if w.heldEntry = none ∨ w.heldEntry = keep then s
  else (s.onWin b fun v => { v with heldEntry := none, heldChunks := {} }).count E.MGMT_CTL_IGNORED 1

/-- An entry with some of its chunks replaced. -/
def withChunks (old : Nat) (chunks : SMap Nat) : Nat := chunks.list.foldl (fun x e => withBytes x (32 * e.1) 32 e.2) old

/-- A whole entry takes effect. -/
def State.tblPut (p : Page) (rq : Requester) (d : TblDef) (i x : Nat) (s : State) : State :=
  if d.shadowed then ((s.onFab (Fab.setTab p true d.table i (bytesAt x 0 d.size))).shadowEdited p).tblDone p rq 0
  else s.liveWrite p d.table i (bytesAt x 0 d.size) rq

/-- The operation in a window finishes (R86, R87). -/
def State.tblFinish (p : Page) (rq : Requester) (o : TblOp) (s0 : State) : State :=
  let b := winBase p rq
  let me := (o.table, o.sel, o.index)
  let s := if o.op = 1 then s0 else s0.dropHeld b (if o.op = 3 then none else some me)
  match findTbl p o.table with
  | none => s.tblDone p rq 1
  | some d =>
    if d.entries ≤ o.index ∨ d.chunks ≤ o.chunk then s.tblDone p rq 2
    else if o.sel ∧ !d.shadowed then s.tblDone p rq 5
    else if o.op = 1 then
      let x := bytesAt (bytesAt (s.tblRead p d o.sel o.index) 0 d.size) (32 * o.chunk) 32
      ((s.onFab fun f => (List.range 8).foldl (fun g m => g.setReg (b + 0x10 + 4 * m) (BitVec.ofNat 32 (bytesAt x (4 * m) 4))) f).tblReadDone p
        o.table o.index).tblDone p rq 0
    else if d.shadowed ∧ !o.sel then s.tblDone p rq 4
    else if !d.shadowed ∧ !d.writable then s.tblDone p rq 3
    else
      if o.op = 3 then (s.onWin b fun v => { v with run := some o }).tblPut p rq d o.index 0
      else
        let held := ((s.fab.win b).heldChunks).set o.chunk o.data
        if o.chunk + 1 < d.chunks then (s.onWin b fun v => { v with heldEntry := some me, heldChunks := held }).tblDone p rq 0
        else
          let old := if d.shadowed then s.fab.tab p true d.table o.index else s.liveRaw p d.table o.index true
          (s.onWin b fun v => { v with heldEntry := none, heldChunks := {} }).tblPut p rq d o.index (withChunks old held)

/-- The operation waits for the partner (R181, R277, R636). -/
def State.tblAwaits (s : State) (p : Page) (rq : Requester) : Bool :=
  s.gard.keyChange.any (fun c => match c with
    | .write _ _ w => decide (p = pgKeys ∧ w = rq)
    | .retire _ => false)
  || s.regn.changes.any (fun c => match c with
    | .create _ _ w => decide (p = pgRegn ∧ w = rq)
    | _ => false)
  || s.pair.tblWaits.any fun w => decide (w.page = p ∧ w.window = rq)

/-- The other window's operation on the same table began before this one (R88). -/
def State.tblBehind (s : State) (p : Page) (rq : Requester) (o : TblOp) : Bool :=
  match (s.fab.win (winBase p (if rq = .core then .mgmt else .core))).run with
  | some x => decide (x.table = o.table ∧ x.order < o.order)
  | none => false

def State.tblComplete (rq : Requester) (p : Page) (s : State) : State :=
  match (s.fab.win (winBase p rq)).run with
  | none => s
  | some o => if s.tblAwaits p rq || s.tblBehind p rq o then s else s.tblFinish p rq o

def execTblReadChunk (rq : Requester) (page : Page) (sel : Bool) (table : Nat) (s : State) : Result :=
  .next (if Page.common page then s.tblCmd rq page 1 sel (table % 256) else s)
def execTblWriteChunk (rq : Requester) (page : Page) (sel : Bool) (table : Nat) (s : State) : Result :=
  .next (if Page.common page then s.tblCmd rq page 2 sel (table % 256) else s)
def execTblClearEntry (rq : Requester) (page : Page) (sel : Bool) (table : Nat) (s : State) : Result :=
  .next (if Page.common page then s.tblCmd rq page 3 sel (table % 256) else s)
def execTblOpComplete (rq : Requester) (page : Page) (s : State) : Result := .next (if Page.common page then s.tblComplete rq page else s)

end Sys2Proof.Machine
end

