-- ==== Sys2Proof/Machine/FwOps.lean ====
section
/-!
DEFINITION. Firmware images in the boot flash, the load at start-up, and live activation (R667 to R672).
-/
namespace Sys2Proof.Machine
open Sys2Proof

/-- A byte of the boot flash; an unlisted one reads 0xFF, as erased flash does. -/
def State.flashByte (s : State) (a : Nat) : Nat := s.pol.flash.get a 0xFF
def State.flashBytes (s : State) (a n : Nat) : Nat := ofBytes ((List.range n).map fun i => s.flashByte (a + i))
/-- Write bytes of the boot flash. -/
def flashPut : List Nat → Nat → SMap Nat → SMap Nat
  | [], _, m => m
  | b :: bs, a, m => flashPut bs (a + 1) (m.put a 0xFF (b % 256))
/-- Where a slot begins (R667). -/
def slotBase (k : Nat) : Nat := k * 0x2000000
def slotBytes : Nat := 0x2000000

/-- A field of a slot's header (Table 17.4). -/
def State.imageField (s : State) (k off n : Nat) : Nat := s.flashBytes (slotBase k + off) n
def State.imageVersion (s : State) (k : Nat) : Nat := s.imageField k 4 4

/-- The image in a slot is valid (R668). -/
def State.imageValid (s : State) (k : Nat) : Bool :=
  decide (s.imageField k 0 4 = 0x5746564B) && decide (s.imageField k 8 4 ≤ 33554176) && decide (s.imageField k 14 1 = 0)
    && decide (s.imageField k 15 9 = 0) && decide (s.imageField k 152 104 = 0)
    && decide (s.imageField k 12 2 ≤ getBits (s.fab.reg 0x0004) 0 16)
    && decide (sha512.hash (toBytes (s.imageField k 8 4) (s.imageField k 256 (s.imageField k 8 4))) = toBytes 64 (s.imageField k 24 64))
    && ed25519Ok Config.fusedKey (s.imageField k 88 64) (toBytes 88 (s.imageField k 0 88))

def State.setRunning (k : Nat) (s : State) : State :=
  (s.setF (pgMgmt 3) F.FW_STAT_RUNNING_SLOT k).setF (pgMgmt 3) F.FW_VER_VERSION (s.imageVersion k)

/-- The load at start-up (R669): the boot slot, or else the other slot. -/
def State.bootLoad (s : State) : State :=
  let k := s.get (pgMgmt 3) F.FW_STAT_BOOT_SLOT
  if s.imageValid k then s.setRunning k
  else if s.imageValid (1 - k) then (s.setRunning (1 - k)).occur S.MGMT_BOOT_FALLBACK
  else s.pageEv (pgMgmt 1) .startBound

/-! ### Live activation (R670 to R672) -/

def State.fwPhase (s : State) : Nat := s.get (pgMgmt 3) F.FW_STAT_PHASE
def State.setPhase (n : Nat) (s : State) : State :=
  (s.setF (pgMgmt 3) F.FW_STAT_PHASE n).setF (pgMgmt 3) F.FW_STAT_BUSY (boolNat (decide (n ≠ 0)))

/-- A write of `FW_CTL` (R670, R672). -/
def State.fwCtl (w : Nat) (s : State) : State :=
  if !bitAt w 31 then s
  else if s.flag (pgMgmt 3) F.FW_STAT_BUSY then s.count E.MGMT_CTL_IGNORED 1
  else (s.setPhase 1).onPol fun p => { p with actSlot := w % 2 }

/-- The activation ends with a result. -/
def State.fwEnd (result : Nat) (s : State) : State := ((s.setPhase 0).setF (pgMgmt 3) F.FW_STAT_RESULT result).holdEnd

/-- Phase 1 ends: the hold begins, or the image is invalid (Table 17.5). -/
def State.fwValidated (s : State) : State :=
  if s.fwPhase ≠ 1 then s
  else if s.imageValid s.pol.actSlot then ((s.setPhase 2).setF pgCmdq F.CMDQ_FW_HOLD 1).setF pgCmdq F.CMDQ_FW_HELD 0
  else s.fwEnd 2

/-- Phase 2 ends: the new image runs, or the old one resumes (Table 17.5, R671). -/
def State.fwStarted (ok : Bool) (s : State) : State :=
  let k := s.pol.actSlot
  if s.fwPhase ≠ 2 then s
  else if ok then
    ((((s.setRunning k).setF (pgMgmt 3) F.FW_STAT_BOOT_SLOT k).fwEnd 1).count E.MGMT_FW_ACTIVATE 1).record 5
      (s.imageVersion k + k * 2 ^ 32)
  else (s.fwEnd 3).occur S.MGMT_FW_ACTIVATE_FAIL

/-- A recognised POWER_FAIL abandons the activation (R672). -/
def State.fwAbandon (s : State) : State := if s.fwPhase = 0 then s else (s.setPhase 0).holdEnd

def execFwActivate (value : BitVec 32) (s : State) : Result := .next (s.fwCtl value.toNat)
def execFwValidateComplete (s : State) : Result := .next s.fwValidated
def execFwStartComplete (ok : Bool) (s : State) : Result := .next (s.fwStarted ok)

end Sys2Proof.Machine
end

