-- ==== Sys2Proof/Machine/PageBase.lean ====
section
/-!
DEFINITION. What a page does when it enters or leaves a state of Table 2.11: each block's own text on its STARTING and DRAINING. PAIR
stands in PairBase.
-/
namespace Sys2Proof.Machine
open Sys2Proof

/-! ### STARTING -/

/-- XPRT STARTING (R128): the context table is cleared; but for the first STARTING, every INCARNATION advances. -/
def State.xprtStart (s : State) : State :=
  if !s.xprt.started then s.onXprt fun x => { x with started := true }
  else
    let live := (s.xprt.ctx.filter fun _ c => !c.isFree).keys
    let s1 := live.foldl (fun t i => t.connLost i) s
    let base := nextIncarnation s1.xprt.baseInc
    let ctx := s1.xprt.ctx.mapVals fun _ c => ({ incarnation := nextIncarnation c.incarnation } : Ctx)
    let x : XprtSt := { ctx := ctx.filter fun _ c => decide (c ≠ { incarnation := base }), baseInc := base, started := true }
    (({ s1 with xprt := x }.onGard fun g => { g with slots := {}, prk := {} }).onPair fun p => { p with probing := {} }).syncXprt

/-- GARD instance 0 STARTING: the key table is cleared; changes that wait for the partner end refused. -/
def State.keysStart (s : State) : State :=
  let s1 := s.gard.keyChange.foldl (fun (t : State) c => match c with
    | .write _ _ rq => t.onFab (Fab.winDone pgKeys rq 3)
    | .retire _ => (t.setF pgKeys F.KEY_OP_STAT_BUSY 0).setF pgKeys F.KEY_OP_STAT_STATUS 1) s
  (s1.onGard fun g => { g with keys := {}, keyCache := [], keyWaits := [], keyChange := [] }).syncKeys.retireDue

/-- CMDQ STARTING: the slot table and staging are cleared. -/
def State.cmdqStart (s : State) : State :=
  ((s.onCmdq fun c => { c with slots := {}, held := [], queues := c.queues.mapVals fun _ q => { q with staging := [] } }).onTmgr fun m => { m with
    held := {}, adm := [], chosen := [] }).syncCmdq

/-- REGN STARTING without a restore keeps the subscriptions of connections that are still READY. -/
def State.regnStart (s : State) : State := s.onRegn fun g => { g with
  subs := g.subs.filter fun _ e => decide ((s.ctx e.conn).state = .ready ∧ (s.ctx e.conn).incarnation = e.incarnation) }

/-- TMGR STARTING: every enabled bucket is full, and a PARTIAL minute opens. -/
def State.tmgrStart (s : State) : State :=
  let on := (s.fab.tabIndices pgTmgr false 1).filter fun p => polEn (s.polEntry p)
  (on.foldl (fun (t : State) p => t.setBucket p (polFull (t.polEntry p))) s).openMinute false true

def State.cellStart (s : State) : State :=
  (s.onCell fun c => { c with cells := {}, units := {}, used := {}, nextBank := 0, waiters := [] }).syncCell

/-- JRNL STARTING: the journal is as the restore makes it; SEQ is kept. -/
def State.jrnlStart (s : State) : State :=
  (s.onJrnl fun j => { j with
    recs := {}, openChunk := none, openUsed := 0, dirtyWaited := [], indexWaited := [], restoring := false, restored := false }).syncJrnl

/-- CMPR STARTING: no lane runs a unit. -/
def State.cmprStart (s : State) : State := s.onCmpr fun c => { c with
  lanes := {}, reads := c.reads.mapVals fun _ r => { r with lane := none }
  writes := c.writes.mapVals fun _ w => { w with stage := match w.stage with
    | .lane _ => .ready
    | x => x } }

/-- The map cache's frames in service: each retired pseudo-channel has taken 294,912 (R477). -/
def State.syncFrames (s : State) : State :=
  let n := popCount 32 (s.get (pgMgmt 1) (F.POL_PC_RETIRED_RETIRED.idx 0)) + popCount 32 (s.get (pgMgmt 1) (F.POL_PC_RETIRED_RETIRED.idx 1))
  s.setF pgPlce F.PLCE_MAP_STAT_FRAMES (11534336 - 294912 * (n + s.pol.pcMoving.length))
/-- PLCE STARTING: the map cache, the directory and the segment tables are cleared. -/
def State.plceStart (s : State) : State :=
  (((List.range 4).foldl (fun t p => t.unloadPool p) s).onPlce fun x => { x with waits := [], serial := [], pressOn := [], discarding := none }).syncFrames

def State.poolStart (p : Nat) (s : State) : State := ((s.unloadPool p).setPool p {}).syncPool p

/-- DRVP STARTING holds PERST# (R554). -/
def State.drvpStart (b : Nat) (s : State) : State := (s.onBay b fun v => { v with perst := true }).emit (.drivePerst b true)

/-- A page enters STARTING. -/
def State.onStarting (p : Page) (s : State) : State :=
  match p.blk, p.inst with
  | .line, i => if i < 16 then s.startPorts i else s
  | .xprt, _ => s.xprtStart
  | .gard, 0 => s.keysStart
  | .cmdq, _ => s.cmdqStart
  | .regn, _ => s.regnStart
  | .tmgr, _ => s.tmgrStart
  | .vat, _ => ({ s with vat := { maxQ := s.vat.maxQ } } : State).syncVat
  | .cell, _ => s.cellStart
  | .jrnl, _ => s.jrnlStart
  | .cmpr, _ => s.cmprStart
  | .plce, _ => s.plceStart
  | .strp, i => if i < 4 then s.poolStart i else s
  | .drvp, b => s.drvpStart b
  | .mgmt, 2 => s.onFab fun f => (f.tabIndices (pgMgmt 2) false 1).foldl (fun g i => g.setTab (pgMgmt 2) false 1 i 0) f
  | _, _ => s

/-! ### Leaving ON -/

/-- A group page stops: its ports cease. A lane page stops: its port goes down (R119). -/
def State.laneStop (n : Nat) (s : State) : State := match s.portOfLane n with
  | some p => s.portDown p false
  | none => s

/-- DRVP stops (R574, R577): PS0 first under mode 1; requests fail; the pools lose the bay. -/
def State.drvpStop (b : Nat) (s : State) : State :=
  let s1 := if s.get (pgDrvp b) F.DRV_PS_MODE = 1 ∧ s.get (pgDrvp b) F.BAY_STAT_PS ≠ 0 then
    (s.emit (.drivePs b 0)).setF (pgDrvp b) F.BAY_STAT_PS 0 else s
  (s1.bayDrain b).bayLost b

/-- PLCE DRAINING: open stripes are closed, and dirty pages are written back. -/
def State.plceDrain (s : State) : State :=
  let s1 := (s.plce.open_.filter fun _ x => !x.units.isEmpty).keys.foldl (fun t k => t.closeStripe (k / 2) (k % 2)) s
  (s1.plce.pages.filter fun _ x => x.dirty.isSome).keys.foldl (fun t k => t.writeBack k) s1

def State.onDraining (p : Page) (s : State) : State :=
  match p.blk, p.inst with
  | .line, i => if i < 16 then s else s.laneStop (i - 16)
  | .xprt, _ => (s.xprt.ctx.filter fun _ c => decide (c.state = .ready)).keys.foldl (fun t i => t.closeConn i 8) s
  | .tmgr, _ => s.when s.tmgr.minute.isOpen (State.closeMinute s.minuteCovered false true)
  | .plce, _ => s.plceDrain
  | .strp, i => s.when (decide (i < 4 ∧ (s.pool i).rbState ≠ 0)) (State.relabel i false)
  | .drvp, b => s.drvpStop b
  | .bayp, b => s.when s.owned (State.baypLeave b)
  | _, _ => s

/-- A page stands in OFF, FAILED or RETIRED and did not before. -/
def State.onStopped (p : Page) (failed : Bool) (s0 : State) : State :=
  let s := s0.when failed fun t => match p.blk, p.inst with
    | .line, i => if i < 16 then t else t.laneStop (i - 16)
    | .drvp, b => t.drvpStop b
    | .bayp, b => t.when t.owned (State.baypLeave b)
    | _, _ => t
  match p.blk, p.inst with
  | .line, i => if i < 16 then s.stopPorts i else s
  | .drvp, b => ((s.bayDown b 0).onBay b fun v => { v with perst := true, resetLevel := 0 }).emit (.drivePerst b true)
  | _, _ => s

/-- SOFT_RESET beyond the registers (R71, Table 2.11): error counts restart; status fields that read a pin go on reading it. -/
def State.onReset (p : Page) (present : Nat) (s : State) : State :=
  match p.blk, p.inst with
  | .line, i => if 16 ≤ i then (s.onLine fun l => { l with retrains := l.retrains.erase (i - 16) }).syncLane (i - 16) else s.syncPorts i
  | .drvp, b => ((s.setF p F.BAY_STAT_PRESENT present).onBay b fun v => { v with
      toTimes := [], resetTimes := [], mediaTimes := [], toRow := 0 }).syncBay b
  | .bayp, b =>
    let on := (s.pwr b).sourcing
    (s.setF p F.BAY_PWR_STAT_CH (if on then 5 else boolNat (s.present b))).setF p F.BAY_PWR_STAT_PG (boolNat on)
  | .mgmt, 0 => s.onEp EpSt.cut
  | .vat, _ => s.onVat fun v => { v with maxQ := 0 }
  | .cell, _ => ((s.syncCell).onCell fun c => { c with minSeen := none }).setF p F.CELL_MINFREE_MIN 0
  | .xprt, _ => s.setF p F.MISSQ_STAT_MAX 0
  | _, _ => s

/-! ### Page events -/

def PgState.isLive (x : PgState) : Bool := decide (x = .starting ∨ x = .on ∨ x = .draining)

/-- A page event with what it does to the block. Only an ENABLE written while the page is OFF clears DMG (R603). -/
def State.pageMove (p : Page) (e : PgEv) (s : State) : State :=
  let a := s.fab.page p
  let present := s.get (pgDrvp p.inst) F.BAY_STAT_PRESENT
  let s1 := s.pageEv p e
  let b := s1.fab.page p
  if e = .softReset ∧ b.state = .off ∧ !a.state.isLive then s1.onReset p present
  else if a.state = b.state then s1
  else if b.state = .draining then s1.onDraining p
  else if b.state = .starting then (s1.when (decide (e = .enable ∧ p.blk = .bayp)) (State.baypEnable p.inst)).onStarting p
  else if b.state = .on then s1
  else if a.state.isLive then s1.onStopped p (decide (b.state = .failed ∧ a.state ≠ .draining))
  else s1

/-- A page that device firmware starts, if it is OFF (Table 20.2). -/
def State.fwEnable (s : State) (p : Page) : State := if (s.fab.page p).state = .off then s.pageMove p .enable else s

/-- Pages that firmware enables once MGMT instance 1 is ON (Table 20.2). -/
def firmwarePages : List Page :=
  [pgVat, pgCell, pgKeys, pgSeal, pgXts, pgXprt, pgCmdq, pgTmgr, pgCmpr, pgPlce, pgStrp]

/-! ### End of STARTING -/

/-- A pseudo-channel's bit in `POL_PC_RETIRED` (R659, R729). -/
def State.retirePc (n : Nat) (s : State) : State :=
  let x := F.POL_PC_RETIRED_RETIRED.idx (n / 32)
  (s.setF (pgMgmt 1) x (withBits (s.get (pgMgmt 1) x) (n % 32) 1 1)).syncFrames.occur S.MGMT_CHANNEL_RETIRED

/-- A self-test fails: its source, and FAILED also where the source stood already. -/
def State.selfTestFail (p : Page) (x : Src) (s : State) : State :=
  let s1 := s.occur x
  if (s1.fab.page p).state = .starting then s1.pageMove p .fatal else s1

/-- Firmware sets VDD_CORE through AVSBus, to a voltage of its own choice between 0.65 V and 0.80 V, and reads it (R722). -/
def State.avsSet (s : State) : State :=
  let (x, s1) := s.draw
  ((s1.onPol fun p => { p with vddCore := 650 + x % 151 }).emit (.avsWrite (650 + x % 151))).emit .avsRead

/-- MGMT instance 1: HBM training, the boot image, and the pages that firmware starts (R669, R729). -/
def State.coresStarted (bad : List Nat) (s : State) : State :=
  let ch := (bad.uniq).filter fun n => decide (n < 64)
  let s1 := ch.foldl (fun t n => t.retirePc n) s
  if 4 < ch.length then s1.pageMove (pgMgmt 1) .startBound
  else
    let s2 := s1.bootLoad
    if (s2.fab.page (pgMgmt 1)).state ≠ .starting then s2
    else (firmwarePages.foldl State.fwEnable (s2.pageMove (pgMgmt 1) .startDone)).avsSet

/-- CMPR's known-answer tests (R455). -/
def State.lanesStarted (bad : List Nat) (s : State) : State :=
  let s1 := ((bad.uniq).filter fun n => decide (n < 60) && !s.laneRetired n).foldl (fun t n => t.retireLane n) s
  let s2 := (s1.setF pgCmpr F.CMPR_STAT_CLANES_ON (s1.cmprLanesOn false)).setF pgCmpr F.CMPR_STAT_DLANES_ON (s1.cmprLanesOn true)
  if s2.cmprLanesOn false = 0 ∨ s2.cmprLanesOn true = 0 then s2.selfTestFail pgCmpr S.CMPR_NO_LANES
  else s2.pageMove pgCmpr .startDone

/-- JRNL enters ON: the save is armed, and imports that waited begin (R428, R728). -/
def State.jrnlStarted (s : State) : State :=
  (List.range 4).foldl (fun (t : State) p =>
    if (t.pool p).busy ∧ (t.pool p).state = 0 then (t.onPool p fun v => { v with state := 1, phase := 1 }).syncPool p else t)
    (s.pageMove pgJrnl .startDone).syncJrnl

/-- STARTING of a page is complete; `bad` lists what failed its test: lanes of CMPR, engines of GARD and STRP, pseudo-channels of MGMT
instance 1. -/
def State.startComplete (p : Page) (bad : List Nat) (s : State) : State :=
  if (s.fab.page p).state ≠ .starting then s.pageEv p .startDone
  else match p.blk, p.inst with
    | .gard, 1 => if bad.isEmpty then s.pageMove p .startDone else s.selfTestFail p S.GARD_ENGINE_SELFTEST1
    | .gard, 2 => if bad.isEmpty then s.pageMove p .startDone else s.selfTestFail p S.GARD_ENGINE_SELFTEST2
    | .strp, 4 => if bad.isEmpty then s.pageMove p .startDone else s.selfTestFail p S.STRP_ENGINE_SELFTEST
    | .cmpr, _ => s.lanesStarted bad
    | .regn, _ => if (s.fab.page pgJrnl).state = .starting ∧ !s.jrnl.restored then s else s.pageMove p .startDone
    | .jrnl, _ => if s.jrnl.restored then s.jrnlStarted else s
    | .drvp, _ => s
    | .mgmt, 1 => s.coresStarted bad
    | _, _ => s.pageMove p .startDone

/-! ### End of DRAINING -/

/-- What DRAINING waits for is done. -/
def State.drained (s : State) (p : Page) : Bool :=
  match p.blk, p.inst with
  | .xprt, _ => s.xprt.ctx.all fun _ c => c.isFree
  | .gard, 0 => s.gard.keys.all fun _ k => decide (k.inflight = 0)
  | .cmdq, _ => s.cmdq.slots.list.isEmpty
  | .regn, _ => s.regn.writes.isEmpty && s.regn.reads.isEmpty && s.regn.flushes.isEmpty && s.regn.subs.all fun _ e => e.queued.isEmpty
  | .tmgr, _ => s.tmgr.egr.isEmpty
  | .vat, _ => s.vat.queues.list.isEmpty
  | .cell, _ => s.cell.units.list.isEmpty
  | .jrnl, _ => s.jrnl.recs.list.isEmpty
  | .cmpr, _ => s.cmpr.lanes.list.isEmpty
  | .plce, _ => s.plce.pages.all (fun _ x => x.dirty.isNone && x.wb.isNone) && s.plce.writing.isEmpty &&
      s.plce.open_.all fun _ x => x.units.isEmpty
  | .strp, i => decide (4 ≤ i) || ((s.plce.writing.all fun x => decide (x.pool ≠ i)) && s.strp.rebuilt.all fun e => decide (e.pool ≠ i))
  | .drvp, b => (s.bay b).out.list.isEmpty
  | .bayp, b => !s.owned || ((s.pwr b).armed || decide (s.ch b = 0))
  | .mgmt, 0 => s.fab.ep.mbox.isNone && s.fab.ep.rings.all fun _ r => r.held.isEmpty
  | .pair, _ => s.pair.sent.isEmpty && s.pair.waiting.isEmpty
  | _, _ => true

end Sys2Proof.Machine
end

