-- ==== Sys2Proof/Machine/PairBase.lean ====
section
/-!
DEFINITION. The roles of the controller pair, ownership, the loss of the partner, handover, and the Britos link (R611 to R632, R638,
R648).
-/
namespace Sys2Proof.Machine
open Sys2Proof

def State.role (s : State) : Nat := s.get pgPair F.PAIR_STAT_ROLE
def State.setRole (n : Nat) (s : State) : State := s.setF pgPair F.PAIR_STAT_ROLE n
def State.partner (s : State) : Nat := s.get pgPair F.PAIR_STAT_PARTNER
def State.setPartner (n : Nat) (s : State) : State := s.setF pgPair F.PAIR_STAT_PARTNER n
def State.paired (s : State) : Bool := s.flag pgPair F.PAIR_CFG_MODE
def State.mirrorValid (s : State) : Bool := s.flag pgPair F.PAIR_STAT_MIRROR_VALID
def State.setMirrorValid (b : Bool) (s : State) : State := s.setF pgPair F.PAIR_STAT_MIRROR_VALID (boolNat b)

/-- PAIR_HB_OUT toggles (R620). -/
def State.hbOut (s : State) : Bool :=
  let i := s.pair.island
  i.running && !i.fenced && !i.inPor && !i.thermTrip && s.isOn pgPair && !s.pair.wdog
    && [pgXprt, pgCmdq, pgVat, pgCell, pgJrnl, pgPair].all fun p => decide ((s.fab.page p).state ≠ .failed)

/-! ### Roles (Table 16.1) -/

/-- To DISCOVER from JOINING or STANDBY: the mirror is no longer valid. -/
def State.toDiscover (s : State) : State := (s.setRole 2).setMirrorValid false
/-- To CLAIMING, with or without a fence. -/
def State.claim (fence : Bool) (s : State) : State :=
  ((s.setRole 5).onPair fun p => { p with backoff := false }).when fence (State.setFenceOut true)

/-- To JOINING: synchronisation starts, and what this controller held gives way to the partner's copy (Table 10.4, R615). -/
def State.toJoining (s : State) : State :=
  let s1 := ((s.setRole 3).setMirrorValid false).setF pgPair F.PAIR_SYNC_DONE_PCT 0
  let s2 := s1.onPair fun p => { p with
    waiting := [], sent := [], unacked := [], tblWaits := [], handover := false, recs := {}, nextOrder := 0, cmds := {}, ctxs := {}
    probing := {}, notified := [], sentCtx := {}, sentKeys := {}, ckptAt := {} }
  let s3 := (s2.onJrnl fun j => { j with recs := {}, openChunk := none, openUsed := 0 }).onXprt fun x => { x with
    ctx := {}, cache := [], cacheDirty := [], fetching := [], missq := [], reqs := [] }
  let s4 := (s3.onCmdq fun c => { c with slots := {}, queues := {}, ctrls := {}, held := [] }).onTmgr fun m => { m with
    held := {}, adm := [], egr := [], chosen := [] }
  let s5 := (s4.onGard fun g => { g with keys := {}, slots := {}, prk := {}, keyWaits := [], keyChange := [] }).onRegn fun g => { g with
    mem := {}, regions := {}, subs := {}, writes := [], reads := [], flushes := [], changes := [], retireHeld := none, zeroing := [], past := {}, dirty := {} }
  let s6 := (List.range 4).foldl (fun (t : State) p =>
    if t.flag (pgPool p) F.POOL_CFG_DEFINED then ((t.unloadPool p).setPool p { state := 1 }).syncPool p else t) s5
  let s7 := ((((s6.syncXprt).syncCmdq).syncKeys).syncRegions).syncJrnl
  (s7.fwEnable pgJrnl).fwEnable pgRegn

/-- Ownership ends: OWN_OUT is deasserted, and the bays go into the mode of R606 (R619, R638). -/
def State.yieldOwn (s : State) : State :=
  let s1 := s.setOwnOut false
  if s.owned then (s1.setF pgPair F.PAIR_STAT_OWN 0).baysYield else s1

/-- PAIR_OWN_IN is asserted while this controller holds ownership (R619, Table 16.1). In DISCOVER no mirror is valid (R614). -/
def State.contend (s : State) : State :=
  let s1 := s.occur S.PAIR_CLAIM_CONTENTION
  if !s.pair.island.slot then s1
  else if s.paired then ((s1.yieldOwn).toDiscover).onPair fun p => { p with stage := .none }
  else (s1.yieldOwn).setRole 1

/-- Ownership is granted (R618, Table 16.1, Table 20.2): the bays are adopted, and a takeover's stages begin where the mirror is valid. -/
def State.grant (s : State) : State :=
  let first := !s.pair.granted
  let s1 := (((s.setF pgPair F.PAIR_STAT_OWN 1).setRole (if s.paired then 6 else 1)).setPartner 0).onPair fun p => { p with
    granted := true, stage := if s.mirrorValid then .bays else .none }
  let s2 := s1.baysAdopt
  let s3 := if first then (s2.fwEnable pgJrnl).fwEnable pgRegn else s2
  s3.when s.mirrorValid fun t => t.onTmgr fun m => { m with minute := { m.minute with takeover := true } }

/-! ### The partner lost (R624) -/

def repeatOp (g : State → State) : Nat → State → State
  | 0, s => s
  | n + 1, s => repeatOp g n (g s)

/-- What waits for the partner goes on without it: region writes (R290), records (R404), changes of tables, retirements of regions ahead
of key-table writes (R280), and held replies. -/
def State.withoutPartner (s : State) : State :=
  let s1 := s.onPair fun p => { p with waiting := [], sent := [], unacked := [], handover := false, sentCtx := {}, sentKeys := {}, ckptAt := {} }
  let s2 := (s1.soloWrites).soloRecords
  let s3 := repeatOp State.regionConfirm s2.regn.changes.length s2
  let s4 := repeatOp State.keyConfirmed s3.gard.keyChange.length s3.retireAlone
  let s5 := repeatOp State.tblConfirm s4.pair.tblWaits.length s4
  ((s5.xprt.ctx.filter fun _ c => !c.rx.replies.isEmpty).list.foldl (fun t e => t.releaseReplies e.1 (e.2.rx.replies.length + 1)) s5).settleSeal

/-- The order of R624: the fence, PARTNER 0, then JRNL and REGN. -/
def State.partnerLost (s : State) : State :=
  ((((s.setFenceOut true).setPartner 0).occur S.PAIR_PARTNER_LOST).onPair fun p => { p with handover := false }).withoutPartner
/-- The active has a partner to lose. -/
def State.losePartner (s : State) : State := s.when (decide (s.role = 6 ∧ (s.partner = 1 ∨ s.partner = 2))) State.partnerLost

/-! ### The link (R626 to R632) -/

/-- `PAIR_STAT`'s view of the lanes; PAIR.LINK_DOWN as the last group goes. -/
def State.syncLink (s : State) : State :=
  let up := !s.groupsUp.isEmpty
  let was := s.flag pgPair F.PAIR_STAT_LINK_UP
  ((s.setF pgPair F.PAIR_STAT_LANES_UP s.pair.lanesUp.length).setF pgPair F.PAIR_STAT_LINK_UP (boolNat up)).when (was && !up)
    (State.occur S.PAIR_LINK_DOWN)
def State.pumpAll (s : State) : State := s.pump (s.pair.waiting.length + 1)

/-- A frame that the partner does not confirm: health and handover (Table 16.3). -/
def State.sendFrame (item : MirrorItem) (payload : Nat) (s : State) : State :=
  match s.groupsUp with
  | [] => s
  | g :: _ =>
    let q := s.pair.nextSeq.get g 0
    ((s.onPair fun p => { p with unacked := p.unacked ++ [(g, q)], nextSeq := p.nextSeq.put g 0 ((q + 1) % 2 ^ 32) }).emit
      (.mirrorFrame g q item)).count E.PAIR_TX_BYTES (32 + payload)

/-! ### Synchronisation, as the active sends it (R762) -/

/-- Work of a joining partner's copy, each piece keyed to its chunk, connection or pool: the journal's records with their commit notices,
the region space but for pages that hold zeros only (log entry 124), live tables, subscriptions with what they have queued, the
configuration, and the placement state. -/
def State.syncWork (s : State) : List (Nat × MirrorItem) :=
  let recs := s.jrnl.recs.vals.flatMap fun r =>
    (r.chunk, MirrorItem.journal r.handle) :: if r.state = .opened then [] else [(r.chunk, .commitNotice r.handle)]
  let table := fun (p : Page) (t : Nat) (keys : List Nat) => keys.map fun i => (0, MirrorItem.tableEntry p.base t i)
  let subs := s.regn.subs.list.flatMap fun e =>
    (e.2.conn, MirrorItem.subscription e.1) :: (e.2.sent ++ e.2.queued).map fun q => (e.2.conn, .notification e.1 q.1)
  let pages := ((s.plce.map.keys.map fun k => pageKey (mapVol k) (k % 2 ^ 38)) ++ s.plce.slots.keys).uniq
  recs ++ ((s.regn.mem.keys.map fun a => a / 4096).uniq.map fun k => (0, .regionPage k))
    ++ table pgKeys 1 s.gard.keys.keys ++ table pgSeal 1 s.gard.secrets.keys ++ table pgSeal 3 s.gard.auth.keys
    ++ table pgXts 1 s.gard.rest.keys ++ table pgRegn 1 s.regn.regions.keys ++ subs ++ [(0, .config (s.get pgDev F.EPOCH_EPOCH))]
    ++ (pages.flatMap fun k => [(s.volPool (pageVol k), .placement 0 k), (s.volPool (pageVol k), .placement 2 k)])
    ++ ((List.range 4).map fun p => (p, .placement 1 p)) ++ s.plce.segs.keys.map fun k => (k / 2 ^ 24, .placement 3 k)
/-- The partner has begun to join: everything it needs is queued for it, at priority 3. -/
def State.syncBegin (s : State) : State :=
  let s1 := (s.setPartner 1).setF pgPair F.PAIR_SYNC_DONE_PCT 0
  (s1.onPair fun p => { p with waiting := p.waiting ++ s1.syncWork.map fun w => ⟨w.1, 3, w.2⟩ }).pumpAll
/-- Nothing of the synchronisation waits or is unconfirmed. -/
def State.syncSent (s : State) : Bool :=
  !s.pair.waiting.any (fun w => decide (w.prio = 3)) && !s.pair.sent.any fun f => decide (f.prio = 3)

/-! ### Checkpoints and handover (R637, R638) -/

def ctxBytes (c : Ctx) : Nat := c.entry % 2 ^ 1536
/-- A connection's checkpoint goes out if its context or its key slots have changed. -/
def State.checkpointCtx (s : State) (i : Nat) : State :=
  let b := ctxBytes (s.ctx i)
  let k := (s.keySlot i false, s.keySlot i true)
  if s.pair.sentCtx.get i 0 = b ∧ s.pair.sentKeys.get i ({}, {}) = k then s
  else
    let gap := match s.pair.ckptAt.find i with
      | some t => (s.now - t) / 2000
      | none => 0
    let s1 := ((s.acquire i).onPair fun p => { p with
      sentCtx := p.sentCtx.set i b, sentKeys := p.sentKeys.put i ({}, {}) k, ckptAt := p.ckptAt.set i s.now }).setF pgPair
      F.PAIR_CKPT_AGE_MAX_US (max gap (s.get pgPair F.PAIR_CKPT_AGE_MAX_US))
    (s1.mirror i (.checkpoint i)).count E.PAIR_CKPT_TX 1
/-- One round (R637). -/
def State.checkpointRound (s : State) : State :=
  ((s.xprt.ctx.keys.foldl State.checkpointCtx s).when (!s.tmgr.accs.list.isEmpty) (State.mirror 0 .accumulators))

/-- Steps 3 and 4 of R638: once every stream is confirmed, the handover frame, OWN_OUT, and JOINING. -/
def State.handoverStep (s : State) : State :=
  if !s.pair.handover ∨ !s.pair.sent.isEmpty ∨ !s.pair.waiting.isEmpty then s
  else (((s.sendFrame .handover 0).yieldOwn).setPartner 0).toJoining
/-- Steps 1 and 2 of R638; it acts in ACTIVE with PARTNER 2 only. -/
def State.release638 (s : State) : State :=
  if s.role ≠ 6 ∨ s.partner ≠ 2 ∨ s.pair.handover then s
  else ((s.onPair fun p => { p with handover := true }).checkpointRound).handoverStep

/-! ### The health record (R648, Table 16.9) -/

def State.lastSeq (s : State) : Nat :=
  if s.role = 3 ∨ s.role = 4 then ((s.pair.recs.vals.filter MirRec.noticed).map fun r => r.head.seq).foldl max 0 else s.jrnl.seq
def State.failedBlocks (s : State) : Nat :=
  ((allBlks.filter fun b => (List.range b.instances).any fun i => decide ((s.fab.page ⟨b, i⟩).state = .failed)).map fun b => 2 ^ b.idx).sum
def State.healthRecord (s : State) : Nat :=
  let i := s.pair.island
  let b := 1 + atByte 1 s.role
    + atByte 2 (boolNat i.slot + 2 * boolNat s.owned + 4 * boolNat s.mirrorValid + 8 * s.get pgPair F.PAIR_STAT_UNFIT + 16 * boolNat i.fenced)
    + atByte 3 (s.get pgPair F.PAIR_STAT_VER) + atByte 4 (s.get pgDev F.EPOCH_EPOCH) + atByte 8 s.timeStamp + atByte 16 (s.pair.passes % 2 ^ 64)
    + atByte 24 s.pair.failMask + atByte 28 s.pair.lanesUp.length + atByte 32 (s.lastSeq % 2 ^ 64)
    + atByte 40 (s.get pgPair F.PAIR_CKPT_AGE_MAX_US) + atByte 44 s.failedBlocks + atByte 48 (s.pair.drivesOk % 2 ^ 24)
    + atByte 56 (s.get (pgMgmt 3) F.FW_VER_VERSION)
  b + atByte 60 (crc32c 60 b)
def State.writeHealth (s : State) : State := s.onIsland fun i => { i with health := s.healthRecord }

/-! ### The PAIR page -/

/-- Entry to INIT: UNFIT and the failed tests clear (R613). -/
def State.enterInit (s : State) : State := ((s.setRole 0).setF pgPair F.PAIR_STAT_UNFIT 0).onPair fun p => { p with failMask := 0 }

/-- The page is ON (Table 16.1): INIT is left by MODE; at its first ON, firmware starts the bay power pages (Table 20.2). -/
def State.pairOn (s : State) : State :=
  let s1 := if s.role = 0 then s.setRole (if s.paired then 2 else 1) else s
  if s.pair.everOn then s1
  else ((List.range 24).map pgBayp).foldl State.fwEnable (s1.onPair fun p => { p with everOn := true })
/-- DRAINING: a handover to a STANDBY, otherwise the mirror stops. -/
def State.pairDrain (s : State) : State :=
  if s.role = 6 ∧ s.partner = 2 then s.release638
  else if s.role = 6 ∧ s.partner = 1 then (s.setPartner 0).withoutPartner
  else s
/-- SOFT_RESET: `PAIR_STAT` is at its reset value but for what the island and the link show; ownership ends, and the role is INIT. -/
def State.pairReset (owned : Bool) (s : State) : State :=
  let s1 := (s.setOwnOut false).when owned State.baysYield
  let s2 := (s1.withoutPartner).onPair fun p => { p with backoff := false, stage := .none }
  ((s2.enterInit).syncPins).syncLink

/-- A fence or the thermal trip holds the datapath in reset (R621, R737). -/
def State.heldReset (s : State) : Bool := s.pair.island.fenced || s.pair.island.thermTrip
/-- A page event on any page, with what it does to the block. While the datapath is held in reset no page starts. -/
def State.pageAct (p : Page) (e : PgEv) (s : State) : State :=
  if e = .enable ∧ s.heldReset then s.count E.MGMT_CTL_IGNORED 1
  else
  let a := (s.fab.page p).state
  let s1 := if p = pgPair then s.pageEv p e else s.pageMove p e
  let b := (s1.fab.page p).state
  if p ≠ pgPair then s1
  else if e = .softReset ∧ b = .off ∧ !a.isLive then s1.pairReset s.owned
  else if a = b then s1
  else if b = .on then s1.pairOn
  else if b = .draining then s1.pairDrain
  else s1

end Sys2Proof.Machine
end

