-- ==== Sys2Proof/Machine/PageOps.lean ====
section
/-!
DEFINITION. The page enable commands: a write of `PG_CTL`, and the ends and bounds of STARTING and DRAINING (R67 to R72).
-/
namespace Sys2Proof.Machine
open Sys2Proof

/-- A write of `PG_CTL`: SOFT_RESET, RETIRE, DRAIN, ENABLE in this order (R69). -/
def State.pgCtl (p : Page) (w : Nat) (s : State) : State :=
  let act := fun (i : Nat) (e : PgEv) (t : State) => if bitAt w i then t.pageAct p e else t
  act 0 .enable (act 1 .drain (act 3 .retire (act 2 .softReset s)))

def State.pgCtlWrite (p : Page) (w : Nat) (s : State) : State := if Page.common p then s.pgCtl p w else s

/-- A write of `PG_CTL` with the bit of the command set; the other bits are as the value gives them. -/
def execPageEnable (page : Page) (value : BitVec 32) (s : State) : Result := .next (s.pgCtlWrite page (value.toNat ||| 1))
def execPageDrain (page : Page) (value : BitVec 32) (s : State) : Result := .next (s.pgCtlWrite page (value.toNat ||| 2))
def execPageSoftReset (page : Page) (value : BitVec 32) (s : State) : Result := .next (s.pgCtlWrite page (value.toNat ||| 4))
def execPageRetire (page : Page) (value : BitVec 32) (s : State) : Result := .next (s.pgCtlWrite page (value.toNat ||| 8))

/-- STARTING ends (Table 2.11). -/
def State.startEnd (p : Page) (bad : List Nat) (s : State) : State :=
  if p = pgPair then s.pageAct p .startDone else s.startComplete p bad

/-- The STARTING bound of a page runs: a drive port's from power-good on (R67, R554); JRNL's and REGN's not while the restore runs or, for
REGN, is still to come (R67, R727). -/
def State.startBounded (s : State) (p : Page) : Bool :=
  match p.blk with
  | .drvp => s.flag (pgBayp p.inst) F.BAY_PWR_STAT_PG
  | .jrnl => !s.jrnl.restoring
  | .regn => !(decide ((s.fab.page pgJrnl).state = .starting) && !s.jrnl.restored)
  | _ => true
/-- The STARTING bound passes. -/
def State.startLate (p : Page) (s : State) : State := if s.startBounded p then s.pageAct p .startBound else s

/-- DRAINING ends once what it waits for is done. -/
def State.drainEnd (p : Page) (s : State) : State :=
  if (s.fab.page p).state = .draining ∧ !s.drained p then s else s.pageAct p .drainDone

def execPageStartComplete (page : Page) (bad : List Nat) (s : State) : Result := .next (if Page.common page then s.startEnd page bad else s)
def execPageStartTimeout (page : Page) (s : State) : Result := .next (if Page.common page then s.startLate page else s)
def execPageDrainComplete (page : Page) (s : State) : Result := .next (if Page.common page then s.drainEnd page else s)
def execPageDrainTimeout (page : Page) (s : State) : Result := .next (if Page.common page then s.pageAct page .drainBound else s)

end Sys2Proof.Machine
end

