-- ==== Sys2Proof/Machine/SwapChk.lean ====
section
/-!
DEFINITION. The consistency checks of every page on the shadow set that a swap would activate (R14, R77, Table 2.13, and the rejection
codes of each block chapter). A check answers the code and the active-set offset of the first failure.
-/
namespace Sys2Proof.Machine
open Sys2Proof

/-- What a check finds: the rejection code and `REJECT_OFFSET`. -/
abbrev Verdict := Option (Nat × Nat)

/-- The first failure of a list of checks. -/
def firstFail (l : List Verdict) : Verdict := l.findSome? id
/-- A check that concerns the register at an offset; 0 for no single register. -/
def failIf (bad : Bool) (code off : Nat) : Verdict := if bad then some (code, off) else none

/-! ### Reserved encodings and ranges (R12, R14) -/

/-- The code of a field's value: none where it is allowed. -/
def Valid.code (v : Valid) (x : Nat) : Option Nat := match v with
  | .any => none
  | .enum l => if l.contains x then none else some 0x0001
  | .range lo hi => if lo ≤ x ∧ x ≤ hi then none else some 0x0002
  | .pairs => if (List.range 16).any (fun j => decide (bitsOf x (2 * j) 2 = 3)) then some 0x0001 else none

def Fab.fieldCheck (f : Fab) (p : Page) : Verdict :=
  (blockRegs p.kind).findSome? fun d =>
    if d.off < 0x1000 ∨ 0x8000 ≤ d.off then none
    else (List.range d.count).findSome? fun n => d.fields.findSome? fun x =>
      let off := d.off + n * d.stride
      (x.valid.code (getBits (f.reg (p.base + off + 0x8000)) x.lo x.w)).map fun c => (c, off)

/-- A 1 in a reserved bit of any entry of a shadowed table (R14). -/
def Fab.reservedCheck (f : Fab) (p : Page) : Verdict :=
  failIf ((tblDefs p.kind).any fun d => d.shadowed && (f.tabIndices p true d.table).any fun i =>
    let e := f.tab p true d.table i
    decide (d.masked e ≠ e) || (decide (p.blk = .cmpr) && decide (bitsOf e 0 2 = 3))) 0x0001 0

/-- The listed entries of a shadowed table in the shadow set: index and entry. -/
def Fab.shd (f : Fab) (p : Page) (t : Nat) : List (Nat × Nat) := (f.tabIndices p true t).map fun i => (i, f.tab p true t i)

/-- Some two elements of a list stand in a relation. -/
def somePair {α : Type} (r : α → α → Bool) : List α → Bool
  | [] => false
  | x :: xs => xs.any (r x) || somePair r xs

/-! ### LINE (R91, R98, R99, R123, Table 3.7) -/

def ip4Bad (a : Nat) : Bool := decide (a = 0 ∨ a / 2 ^ 28 = 14 ∨ a = 0xFFFFFFFF ∨ a / 2 ^ 24 = 127)
def ip6Bad (a : Nat) : Bool := decide (a = 0 ∨ a / 2 ^ 120 = 255 ∨ a = 1)
def tpClash (v6 : Bool) (a b : Nat) : Bool :=
  (if v6 then tpV6 a && tpV6 b && decide (tpIp6 a = tpIp6 b) else tpV4 a && tpV4 b && decide (tpIp4 a = tpIp4 b))
    && decide (tpVlanEn a = tpVlanEn b ∧ tpVlan a = tpVlan b) && decide (tpMask a &&& tpMask b ≠ 0)

/-- Table 3.4. -/
def Fab.tportCheck (f : Fab) : Verdict :=
  let es := (f.tports true).map Prod.snd
  firstFail [
    failIf (somePair (tpClash false) es) 0x0101 0,
    failIf (somePair (tpClash true) es) 0x0102 0,
    failIf (es.any fun e => (!tpV4 e && !tpV6 e) || decide (tpMask e = 0)) 0x0103 0,
    failIf (es.any fun e => (tpV4 e && ip4Bad (tpIp4 e)) || (tpV6 e && ip6Bad (tpIp6 e))) 0x0104 0,
    failIf ((f.shd (pgGrp 0) 1).any fun e => tpVlanEn e.2 && decide (tpVlan e.2 = 0 ∨ tpVlan e.2 = 4095)) 0x0105 0]

/-- The 800 GbE modes agree (R91): the partner reports a lead that it does not match. -/
def Fab.leadCheck (f : Fab) (g : Nat) : Bool :=
  let m := f.grpMode true g
  if g % 2 = 1 then decide (m ≠ 4) && decide ((f.grpMode true (g - 1) = 4) ↔ (m = 5)) else decide (m ≠ 5)

/-- The address of a port of the group is 0, multicast, or another port's (R99); the port's slot. -/
def Fab.macCheck (f : Fab) (g : Nat) : Verdict :=
  ((f.grpPorts true g).find? fun e =>
    let m := f.portMac true e.1
    decide (m = 0 ∨ m / 2 ^ 40 % 2 = 1) || (f.cfgPorts true).any fun q => decide (q.1 ≠ e.1 ∧ f.portMac true q.1 = m)).map fun e =>
      (0x0106, 0x1010 + 8 * (e.1 % 4))

/-- A port of the set runs on a lane of the group whose page is RETIRED (R123). -/
def Fab.retiredCheck (f : Fab) (g : Nat) : Bool :=
  (f.cfgPorts true).any fun e => e.2.any fun l => decide (l / 4 = g) && decide ((f.page (pgLane l)).state = .retired)

def Fab.lineCheck (f : Fab) (g : Nat) : Verdict :=
  if 16 ≤ g then none
  else firstFail [
    failIf (decide (f.cfg true (pgGrp g) F.PFC_THR_XOFF ≤ f.cfg true (pgGrp g) F.PFC_THR_XON)) 0x0003 0x1044,
    failIf (!f.leadCheck g) 0x0004 0x1000,
    failIf (f.retiredCheck g) 0x0007 0x1000,
    if g = 0 then f.tportCheck else none,
    f.macCheck g]

/-! ### XPRT (R165, R175, R209) -/

/-- The rate of the slowest port of the set, in Mbit/s. -/
def Fab.slowestPort (f : Fab) : Option Nat :=
  ((f.cfgPorts true).map fun e => e.2.length * modeRate (f.grpMode true (e.1 / 4))).min?

def State.xprtCheck (s : State) : Verdict :=
  let f := s.fab
  let es := f.shd pgXprt 1
  let pins := ((es.filter fun e => polPin e.2).map fun e => polConnMax e.2).sum
  firstFail [
    failIf (es.any fun e => decide (polOcmMax e.2 = 0x12) && decide (s.gard.secrets.get e.1 0 = 0)) 0x0004 0,
    failIf (es.any fun e => polRequireSeal e.2 && decide (polOcmMax e.2 < 0x12)) 0x0201 0,
    failIf (es.any fun e => decide (polOcmMax e.2 ≠ 0 ∧ polOcmMax e.2 ≠ 0x10 ∧ polOcmMax e.2 ≠ 0x11 ∧ polOcmMax e.2 ≠ 0x12)) 0x0202 0,
    failIf (decide (f.cfg true pgXprt F.XPRT_PIN_PIN_MAX < pins)) 0x0203 0,
    failIf (match f.slowestPort with
      | some r => decide (r < f.cfg true pgXprt F.XPRT_RC2_RC_MIN * 100)
      | none => false) 0x0204 0x1014]

/-! ### GARD (R215) -/

/-- The first code that applies to the first entry of the volume sealing table that fails. -/
def State.sealCheck (s : State) : Verdict :=
  (s.fab.shd pgXts 2).findSome? fun e =>
    let k := bitsOf e.2 16 16
    if !bitAt e.2 0 then none
    else if k = 0 then some (0x0302, 0)
    else if (s.restKey k).state ≠ 1 then some (0x0007, 0)
    else if (s.restKey k).volume ≠ e.1 then some (0x0301, 0)
    else none

/-! ### CMDQ (R271) -/

/-- The valid namespaces of the set: volume and entry. -/
def Fab.shdNs (f : Fab) : List (Nat × Nat) := (f.shd pgCmdq 2).filter fun e => nsValid e.2
/-- A name of 256 bytes up to its first NUL; none where it has none or is empty. -/
def nqnOf (x : Nat) : Option (List Nat) :=
  let b := toBytes 256 x
  let n := b.takeWhile fun c => decide (c ≠ 0)
  if n.isEmpty ∨ n.length = 256 then none else some n

def Fab.cmdqCheck (f : Fab) : Verdict :=
  let q := (f.shd pgCmdq 1).map Prod.snd
  let ns := f.shdNs.map Prod.snd
  let names := ((ns.map nsTenant ++ f.tabIndices pgCmdq true 3).uniq).map fun t => nqnOf (f.tab pgCmdq true 3 t)
  firstFail [
    failIf (somePair (fun a b => decide (nsTenant a = nsTenant b ∧ nsId a = nsId b)) ns) 0x0401 0,
    failIf (ns.any fun e => decide (nsId e = 0 ∨ 16384 < nsId e)) 0x0402 0,
    failIf (decide (262144 < f.sumSlotMin true)) 0x0403 0,
    failIf (q.any fun e => decide (bitsOf e 32 19 < bitsOf e 0 19 ∨ 262144 < bitsOf e 32 19)) 0x0404 0,
    failIf (ns.any fun e => decide (nsSize e = 0 ∨ nsSize e * nsLba e % 16384 ≠ 0)) 0x0405 0,
    failIf (names.any Option.isNone || somePair (fun a b => decide (a = b)) names) 0x0406 0]

/-! ### REGN (R317), TMGR (R342, R356) -/

def Fab.shdDefined (f : Fab) (p : Nat) : Bool := decide (f.cfg true (pgPool p) F.POOL_CFG_DEFINED = 1)

def Fab.regnCheck (f : Fab) : Verdict := firstFail [
  failIf (decide (f.cfg true pgRegn F.REGN_CFG_DESTAGE_EN = 1) && !f.shdDefined (f.cfg true pgRegn F.REGN_CFG_DESTAGE_POOL)) 0x0501 0x1000,
  failIf ((f.shd pgRegn 3).any fun e => decide (2097152 < bitsOf e.2 0 22)) 0x0502 0]

/-- A policer that code 0x0601 names: frame policers stand below 4,096. -/
def polBad (i e : Nat) : Bool :=
  let least := if i < 4096 then 9216 else 2097152
  polEn e && (decide (polPir e ≠ 0 ∧ polPir e < polCir e) || decide (polCbs e < least) || decide (polPir e ≠ 0 ∧ polPbs e < least))
def rateBad (cir pir : Nat) : Bool := decide (pir ≠ 0 ∧ pir < cir)
def capBad (x : Nat) : Bool := decide (x = 0 ∨ 50 < x)

def Fab.tmgrCheck (f : Fab) : Verdict :=
  let leaves := f.shd pgTmgr 4
  let live := (leaves.filter fun e => leafValid e.2).map Prod.snd
  let svcs := ((f.shd pgTmgr 5).filter fun e => svcValid e.2).map Prod.snd
  let svc := fun (n : Nat) (adm : Bool) => svcValid (f.tab pgTmgr true 5 n) && decide (svcAdm (f.tab pgTmgr true 5 n) = adm)
  firstFail [
    failIf ((f.shd pgTmgr 1).any fun e => polBad e.1 e.2) 0x0601 0,
    failIf ((f.tports true).any fun e =>
      let n := bitsOf (f.tab pgTmgr true 3 e.1) 0 14
      let l := f.tab pgTmgr true 4 n
      !leafValid l || isBgLeaf n || decide (leafTenant l ≠ tpTenant e.2)) 0x0602 0,
    failIf (live.any fun e => !svc (leafEgrSvc e) false || !svc (leafAdmSvc e) true) 0x0603 0,
    failIf (live.any (fun e => rateBad (leafEgrCir e) (leafEgrPir e) || rateBad (leafAdmCir e) (leafAdmPir e))
      || svcs.any fun e => rateBad (svcCir e) (svcPir e)) 0x0604 0,
    failIf (live.any (fun e => decide (leafEgrWeight e = 0 ∨ leafAdmWeight e = 0)) || svcs.any fun e => decide (svcWeight e = 0)) 0x0605 0,
    failIf (decide (1024 < (leaves.filter fun e => leafStream e.2).length)) 0x0606 0,
    failIf ((f.shd pgTmgr 6).any (fun e => capBad (bitsOf e.2 0 7)) || (f.shd pgTmgr 7).any fun e => capBad (bitsOf e.2 32 7)) 0x0607 0,
    failIf (leaves.any fun e => isBgLeaf e.1 && leafExpress e.2) 0x0608 0]

/-! ### CELL (R393), JRNL (R413), CMPR (R458) -/

def State.cellCheck (s : State) : Verdict :=
  let min := fun o => bitsOf (s.fab.tab pgCell true 1 o) 0 20
  firstFail [
    failIf (decide (s.liveBanks.length * 32768 < 2 * ((List.range 192).map min).sum)) 0x0801 0,
    failIf ((List.range 192).any fun o => decide (65536 < min o ∨ o % 4 = 2 ∧ min o < 64)) 0x0802 0]

/-- The drives of the save area under the set (R412). -/
def State.shdSaveBays (s : State) : List Nat := (List.range 24).filter fun b => (List.range 4).any fun p =>
  s.fab.shdDefined p &&
    (bitAt (s.fab.cfg true (pgPool p) F.POOL_SPARES_SPARE_MASK) b
      || (s.pool p).members.any (fun m => decide (m.bay = b ∧ (m.state = 1 ∨ m.state = 2)))
      || (decide ((s.pool p).state = 0) && bitAt (s.fab.cfg true (pgPool p) F.POOL_BAYS_MEMBER_MASK) b))

def State.jrnlCheck (s : State) : Verdict :=
  failIf ((List.range 4).any s.fab.shdDefined &&
    decide ((s.shdSaveBays.length - 1) * s.fab.cfg true pgJrnl F.JRNL_SAVE_CFG_SLICE_GIB < 21)) 0x0901 0x1008

def State.cmprCheck (s : State) : Verdict :=
  failIf (decide (s.cmprLanesOn true ≤ s.fab.cfg true pgCmpr F.CMPR_CFG_EXP_LANES)) 0x0A01 0x1000

/-! ### PLCE (R475, R485, R499) -/

/-- The pool of a volume under the set; the directory entries that a namespace needs (R475). -/
def Fab.shdPool (f : Fab) (v : Nat) : Nat := bitsOf (f.tab pgPlce true 1 v) 0 2
def dirEntries (e : Nat) : Nat := (nsSize e * nsLba e + 8388607) / 8388608
/-- Map pages held by volumes that the set pins (R485). -/
def State.shdPinned (s : State) : Nat :=
  (((s.plce.slots.keys ++ s.plce.pages.keys).uniq).filter fun k =>
    decide (pageVol k < 16384) && bitAt (s.fab.tab pgPlce true 1 (pageVol k)) 2).length

def State.plceCheck (s : State) : Verdict :=
  let f := s.fab
  let pinMax := f.cfg true pgPlce F.PLCE_PIN_PIN_MAX_PAGES
  firstFail [
    failIf (f.shdNs.any fun e => !f.shdDefined (f.shdPool e.1)) 0x0B01 0,
    failIf (((s.plce.map.keys.map mapVol).uniq).any fun v => decide (v < 16384) &&
      decide (f.shdPool v ≠ bitsOf (s.tab pgPlce 1 v) 0 2 ∧ (s.mappedUnits v ≠ 0 ∨ s.damagedUnits v ≠ 0))) 0x0B02 0,
    failIf (decide (134217728 < (f.shdNs.map fun e => dirEntries e.2).sum)) 0x0B03 0,
    failIf (decide (pinMax < s.shdPinned ∨ s.get pgPlce F.PLCE_MAP_STAT_FRAMES < 2 * pinMax)) 0x0B04 0x100C,
    failIf ((List.range 4).any fun p =>
      let e := f.tab pgPlce true 2 p
      !(decide (bitsOf e 32 16 < bitsOf e 0 16) && decide (bitsOf e 0 16 < bitsOf e 16 16) && decide (bitsOf e 32 16 ≤ bitsOf e 48 16))) 0x0B05 0]

/-! ### STRP (R502, R506, R523, R526) -/

/-- The bays that a pool's masks name. -/
def Fab.shdBays (f : Fab) (p : Nat) : Nat := f.cfg true (pgPool p) F.POOL_BAYS_MEMBER_MASK ||| f.cfg true (pgPool p) F.POOL_SPARES_SPARE_MASK
/-- Map region slots that the pool's valid volumes need: their map pages, and one directory page for each 1,024 of them (R475, R506). -/
def Fab.slotsNeeded (f : Fab) (p : Nat) : Nat :=
  let n := ((f.shdNs.filter fun e => decide (f.shdPool e.1 = p)).map fun e => dirEntries e.2).sum
  n + (n + 1023) / 1024

def State.poolCheck (s : State) (p : Nat) : Verdict :=
  let f := s.fab
  let g := pgPool p
  let prot := f.cfg true g F.POOL_CFG_PROT
  let d := f.cfg true g F.POOL_CFG_D
  let v := s.pool p
  let others := (List.range 4).filter fun q => decide (q ≠ p)
  let w := if v.state = 0 then popCount 24 (f.cfg true g F.POOL_BAYS_MEMBER_MASK) else v.w
  let gib := if v.state = 0 then f.cfg true g F.POOL_CFG_MAP_GIB else v.mapGib
  firstFail [
    failIf (f.shdDefined p && decide (v.state = 0) && !schemeOk prot d (popCount 24 (f.cfg true g F.POOL_BAYS_MEMBER_MASK))) 0x0C01 0x1000,
    failIf (others.any fun q => decide (f.shdBays p &&& f.shdBays q ≠ 0) ||
      (s.pool q).members.any fun m => decide (m.state ≠ 3) && bitAt (f.shdBays p) m.bay) 0x0C02 0x1004,
    failIf (decide (4 < popCount 24 (f.cfg true g F.POOL_SPARES_SPARE_MASK))) 0x0C03 0x1008,
    failIf (!f.shdDefined p && decide (v.state ≠ 0)) 0x0C04 0x1000,
    failIf (f.shdDefined p && decide (mapSlots gib w < f.slotsNeeded p)) 0x0C05 0x1000,
    failIf (f.shdDefined p && decide (f.cfg true g F.POOL_ID_LO_ID = 0 ∧ f.cfg true g F.POOL_ID_HI_ID = 0)) 0x0C06 0x1010]

/-! ### DRVP (R586), BAYP (R609) -/

def State.drvpCheck (s : State) (b : Nat) : Verdict :=
  let g := pgDrvp b
  let t := s.fab.cfg true g F.DRV_PS_PS_TARGET
  let lo := s.fab.cfg true g F.DRV_QOS_BG_MIN
  let hi := s.fab.cfg true g F.DRV_QOS_BG_MAX
  firstFail [
    failIf (s.flag g F.BAY_STAT_READY && decide (s.fab.cfg true g F.DRV_PS_MODE ≠ 0) &&
      (decide ((s.bay b).npss < t) || bitAt (s.bay b).opStates t)) 0x0D01 0x100C,
    failIf (decide (4032 < hi ∨ hi < lo)) 0x0D02 0x1010]

/-- In hundredths of a millivolt: 0.1 A times 0.1 milliohm. -/
def Fab.baypCheck (f : Fab) (b : Nat) : Verdict :=
  let mv := f.cfg true (pgBayp b) F.BAY_PWR_CFG_ILIM * f.cfg true (pgBayp b) F.BAY_PWR_CFG2_RSENSE
  failIf (decide (mv < 500 ∨ 6000 < mv)) 0x0E01 0x1000

/-! ### PAIR (R649) -/

/-- One window of a set; n counts the eight windows. -/
def Fab.winOf (f : Fab) (shadow : Bool) (n : Nat) : PeerWin :=
  { valid := decide (f.cfg shadow pgPair (F.PEER_WIN_CTL_VALID.idx n) = 1), kind := f.cfg shadow pgPair (F.PEER_WIN_CTL_KIND.idx n)
    rbase := f.cfg shadow pgPair (F.PEER_WIN_RBASE_REMOTE_BASE.idx n), lbase := f.cfg shadow pgPair (F.PEER_WIN_LBASE_LOCAL_BASE.idx n)
    size := f.cfg shadow pgPair (F.PEER_WIN_SIZE_SIZE.idx n) }
def Fab.winSet (f : Fab) (shadow : Bool) : List PeerWin := (List.range 8).map (f.winOf shadow)
/-- The size of an area in 64 KiB units: 12 GiB, 8 GiB, 2 GiB. -/
def areaUnits (kind : Nat) : Nat := if kind = 1 then 196608 else if kind = 2 then 131072 else 32768
def PeerWin.used (w : PeerWin) : Bool := w.valid && decide (w.kind ≠ 0)
def spanMeets (a b n m : Nat) : Bool := decide (a < b + m ∧ b < a + n)
def PeerWin.meets (a b : PeerWin) : Bool :=
  a.used && b.used && decide (a.kind = b.kind) && (spanMeets a.rbase b.rbase a.size b.size || spanMeets a.lbase b.lbase a.size b.size)
def PeerWin.outside (w : PeerWin) : Bool :=
  w.used && decide (areaUnits w.kind < w.rbase + w.size ∨ areaUnits w.kind < w.lbase + w.size)

/-- Windows that lie inside their areas and apart cover an area where their sizes fill it. -/
def State.pairCheck (s : State) : Verdict :=
  let ws := s.fab.winSet true
  let sum := fun k => ((ws.filter fun w => w.valid && decide (w.kind = k)).map PeerWin.size).sum
  let mode := s.fab.cfg true pgPair F.PAIR_CFG_MODE
  firstFail [
    ((List.range 8).find? fun n => (s.fab.winOf true n).outside).map fun n => (0x0F03, 0x1100 + 16 * n),
    ((List.range 8).find? fun n => (List.range n).any fun m => (s.fab.winOf true n).meets (s.fab.winOf true m)).map fun n =>
      (0x0F02, 0x1100 + 16 * n),
    failIf (decide (mode = 1) && [1, 2, 3].any fun k => decide (sum k < areaUnits k)) 0x0F01 0x1000,
    failIf (decide (mode = 0 ∧ s.role = 6 ∧ s.partner ≠ 0)) 0x0F04 0x1000]

/-! ### MGMT (R648, R666, R697, Tables 17.7 and 17.8) -/

/-- T_TRIP of the part, in °C (R666). -/
def State.tTrip (s : State) : Nat := if s.pol.gradeE then 115 else 105

def State.mgmtCheck (s : State) (i : Nat) : Verdict :=
  match i with
  | 1 => failIf ((s.fab.shd (pgMgmt 1) 1).any fun e => decide (bitsOf e.2 32 8 < 16)) 0x1002 0
  | 3 => firstFail [
      failIf (decide (s.fab.cfg true (pgMgmt 3) F.THERM_CAP_L2_MBS < s.fab.cfg true (pgMgmt 3) F.THERM_CAP_L3_MBS)) 0x0003 0x1004,
      failIf (decide (s.tTrip < s.fab.cfg true (pgMgmt 3) F.THERM_CFG_THROTTLE_C + 15)) 0x1001 0x1000]
  | _ => none

/-! ### Every page -/

/-- The block's own check of a page. -/
def State.blockCheck (s : State) (p : Page) : Verdict :=
  match p.blk with
  | .line => s.fab.lineCheck p.inst
  | .xprt => s.xprtCheck
  | .gard => if p.inst = 2 then s.sealCheck else none
  | .cmdq => s.fab.cmdqCheck
  | .regn => s.fab.regnCheck
  | .tmgr => s.fab.tmgrCheck
  | .cell => s.cellCheck
  | .jrnl => s.jrnlCheck
  | .cmpr => s.cmprCheck
  | .plce => s.plceCheck
  | .strp => if p.inst < 4 then s.poolCheck p.inst else none
  | .drvp => s.drvpCheck p.inst
  | .bayp => s.fab.baypCheck p.inst
  | .pair => s.pairCheck
  | .mgmt => s.mgmtCheck p.inst
  | .vat => none
  | .dev => none

/-- A page's consistency check on its shadow set, with the live state as it stands (R77). -/
def State.checkPage (s : State) (p : Page) : Verdict := firstFail [s.fab.fieldCheck p, s.fab.reservedCheck p, s.blockCheck p]

end Sys2Proof.Machine
end

