-- ==== Sys2Proof/Machine/SwapOps.lean ====
section
/-!
DEFINITION. The device-wide swap (R73 to R84): GO, REVERT and SYNC, the rejection, the commit with what it does in every block, and the
commit of a set that the active has mirrored (R639).
-/
namespace Sys2Proof.Machine
open Sys2Proof

def State.onSwap (g : SwapSt → SwapSt) (s : State) : State := s.onFab fun f => { f with swap := g f.swap }

/-! ### The exchange of the two copies (R74) -/

/-- The other copy of a register in the shadowed range, if the word lies in it. -/
def otherWord (a : Nat) : Option Nat :=
  if a < 0x1000000 then none
  else if 0x1000 ≤ a % 0x10000 ∧ a % 0x10000 < 0x8000 then some (a + 0x8000)
  else if 0x9000 ≤ a % 0x10000 then some (a - 0x8000)
  else none
/-- The other copy of a table entry, by key. -/
def otherEntry (k : Nat) : Nat := if k / 2 ^ 32 % 2 = 0 then k + 2 ^ 32 else k - 2 ^ 32

/-- A map with its keys renamed. -/
def SMap.rekey {α : Type} (g : Nat → Nat) (m : SMap α) : SMap α := m.list.foldr (fun e (t : SMap α) => t.set (g e.1) e.2) {}

def Fab.exchange (f : Fab) : Fab :=
  { f with regs := SMap.rekey (fun a => (otherWord a).getD a) f.regs, tabs := SMap.rekey otherEntry f.tabs }

/-- SHD_DIRTY is 0 on every page (R78, R83). -/
def Fab.cleanPages (f : Fab) : Fab :=
  { f with pages := f.pages.list.foldr (fun e (m : SMap PageSt) => m.put e.1 {} { e.2 with shdDirty := false }) {} }

def Fab.entryAt (f : Fab) (k : Nat) : Nat := f.tabs.get k (tabReset k)
/-- The pages, by BAR0 page number, whose two copies differ (R78). -/
def Fab.changedPages (f : Fab) : List Nat :=
  (f.regs.keys.filterMap (fun a => match otherWord a with
      | some b => if f.reg a ≠ f.reg b then some (a / 0x10000) else none
      | none => none)
    ++ f.tabs.keys.filterMap fun k => if f.entryAt k ≠ f.entryAt (otherEntry k) then some (k / 2 ^ 33) else none).uniq

/-- Every page's active copies replace its shadow copies (R83). -/
def Fab.copyToShadow (f : Fab) : Fab :=
  let regs := f.regs.filter fun a _ => decide (a < 0x1000000 ∨ a % 0x10000 < 0x9000)
  let tabs := f.tabs.filter fun k _ => decide (k / 2 ^ 32 % 2 = 0)
  { f with
    regs := regs.list.foldr (fun e (m : SMap Word) => match otherWord e.1 with
      | some b => m.set b e.2
      | none => m) regs
    tabs := tabs.list.foldr (fun e (m : SMap Nat) => m.set (otherEntry e.1) e.2) tabs }

/-! ### Rejection (R77, R79, R80, R82) -/

/-- What is left of a swap that ends. -/
def State.swapIdle (s : State) : State := (s.onSwap fun _ => {}).setF pgDev F.SWAP_STAT_BUSY 0

/-- A swap ends rejected: `RESULT`, `REJECT_*`, the source, the record. -/
def State.swapRejected (code : Nat) (blk : Blk) (inst offset : Nat) (s : State) : State :=
  let s1 := (((((s.swapIdle.setF pgDev F.SWAP_STAT_RESULT 2).setF pgDev F.SWAP_STAT_REJECT_CODE code).setF pgDev F.SWAP_STAT_REJECT_BLOCK
    blk.idx).setF pgDev F.SWAP_DETAIL_REJECT_INST inst).setF pgDev F.SWAP_DETAIL_REJECT_OFFSET offset)
  (s1.occur S.MGMT_SWAP_REJECT).record 2
    (s.get pgDev F.EPOCH_EPOCH + code * 2 ^ 32 + blk.idx * 2 ^ 48 + inst * 2 ^ 56 + offset * 2 ^ 64)

/-! ### What a commit does in the blocks; the set that was active stands in the shadow copies by then -/

/-- Indices of a shadowed table whose two copies differ. -/
def Fab.tabDiffs (f : Fab) (p : Page) (t : Nat) : List Nat :=
  ((f.tabIndices p false t ++ f.tabIndices p true t).uniq).filter fun i => decide (f.tab p false t i ≠ f.tab p true t i)
/-- A field differs between the two sets. -/
def Fab.fieldDiffs (f : Fab) (p : Page) (x : Fld) : Bool := decide (f.cfg false p x ≠ f.cfg true p x)

/-- A tenant port goes or is addressed anew (R161). -/
def tpMoved (old new : Nat) : Bool :=
  (tpValid old && !tpValid new) || decide (tpIp4 old ≠ tpIp4 new ∨ tpIp6 old ≠ tpIp6 new ∨ tpV4 old ≠ tpV4 new ∨ tpV6 old ≠ tpV6 new
    ∨ tpVlanEn old ≠ tpVlanEn new ∨ tpVlan old ≠ tpVlan new)
def State.commitTports (s : State) : State :=
  let moved := (s.fab.tabDiffs (pgGrp 0) 1).filter fun i => tpMoved (s.fab.tab (pgGrp 0) true 1 i) (s.fab.tab (pgGrp 0) false 1 i)
  (s.xprt.ctx.filter fun _ c => moved.contains c.id.tport).keys.foldl (fun t i =>
    if (t.ctx i).state = .ready then t.closeConn i 7
    else if (t.ctx i).state = .connecting then t.enterTimewait i else t) s

/-- Groups whose MODE or MEDIA changes restart (R124). -/
def State.commitGroups (s : State) : State :=
  let gs := (List.range 16).filter fun g => s.fab.fieldDiffs (pgGrp g) F.GRP_CFG_MODE || s.fab.fieldDiffs (pgGrp g) F.GRP_CFG_MEDIA
  if gs.isEmpty then s else s.restartPorts gs

/-- Policers (R328). -/
def State.commitPolicers (s : State) : State :=
  (s.fab.tabDiffs pgTmgr 1).foldl (fun t p =>
    let new := t.fab.tab pgTmgr false 1 p
    if !polEn new then t.setBucket p {}
    else if !polEn (t.fab.tab pgTmgr true 1 p) then t.setBucket p (polFull new)
    else t.setBucket p (polClip new (t.bucket p))) s

/-- Leaves that lose VALID keep their last entry while they hold work (R339). -/
def State.commitLeaves (s : State) : State :=
  (s.fab.tabDiffs pgTmgr 4).foldl (fun t l =>
    let old := t.fab.tab pgTmgr true 4 l
    if leafValid (t.fab.tab pgTmgr false 4 l) then t.onTmgr fun m => { m with ghosts := m.ghosts.erase l }
    else if leafValid old then (t.onTmgr fun m => { m with ghosts := m.ghosts.set l old }).settleGhost l
    else t) s

/-- Namespaces that go or change tenant or NSID: the event to each controller of the tenants (R265). -/
def State.commitNamespaces (s : State) : State :=
  let moved := (s.fab.tabDiffs pgCmdq 2).filter fun v =>
    let old := s.fab.tab pgCmdq true 2 v
    let new := s.fab.tab pgCmdq false 2 v
    nsValid old && (!nsValid new || decide (nsTenant old ≠ nsTenant new ∨ nsId old ≠ nsId new))
  let tell := fun (tenant nsid : Nat) (t : State) => (t.ctrlsOf tenant).foldl (fun u k =>
    (match u.ctrl k with
      | some c => u.setCtrl k { c with changedNs := insertSorted nsid c.changedNs }
      | none => u).raiseEvent ⟨2, 0, 4⟩ k) t
  moved.foldl (fun t v =>
    let old := t.fab.tab pgCmdq true 2 v
    let new := t.fab.tab pgCmdq false 2 v
    let t1 := tell (nsTenant old) (nsId old) t
    if nsValid new then tell (nsTenant new) (nsId new) t1 else t1) s

/-- Weight multipliers (R663). -/
def State.commitMults (s : State) : State :=
  (s.fab.tabDiffs (pgMgmt 1) 1).foldl (fun t l =>
    let e := t.fab.tab (pgMgmt 1) false 1 l
    let m := if bitsOf e 0 32 = 0 then 16 else min (t.mult l) (bitsOf e 32 8)
    (t.onPol fun p => { p with mults := p.mults.put l 16 m }).when (decide (m ≠ t.mult l)) (State.count E.MGMT_MULT_CHANGE 1)) s

/-- Spares that a pool names or no longer names (R520, R523). -/
def State.commitSpares (s : State) : State :=
  (List.range 4).foldl (fun t p =>
    let old := t.fab.cfg true (pgPool p) F.POOL_SPARES_SPARE_MASK
    let new := t.fab.cfg false (pgPool p) F.POOL_SPARES_SPARE_MASK
    let t1 := if (t.pool p).spares.all (bitAt new) then t else t.onPool p fun v => { v with spares := v.spares.filter (bitAt new) }
    (List.range 24).foldl (fun u b => if bitAt new b && !bitAt old b then u.addSpare p b else u) t1) s

/-- Volumes that become pinned have the map pages they hold loaded (R485). -/
def State.commitPins (s : State) : State :=
  let vs := (s.fab.tabDiffs pgPlce 1).filter fun v => bitAt (s.fab.tab pgPlce false 1 v) 2 && !bitAt (s.fab.tab pgPlce true 1 v) 2
  (s.plce.slots.keys.filter fun k => vs.contains (pageVol k) && !s.pageCached k).foldl (fun t k => (t.lookupPage k 0).2) s

/-- A bay that leaves mode 1 for mode 0 in a lower power state returns to PS0; APST follows mode 2 (R576). -/
def State.commitPower (s : State) : State :=
  (List.range 24).foldl (fun t0 b =>
    let g := pgDrvp b
    let two := fun (o : Bool) => decide (t0.fab.cfg o g F.DRV_PS_MODE = 2)
    let moved := t0.fab.fieldDiffs g F.DRV_PS_MODE || t0.fab.fieldDiffs g F.DRV_PS_PS_TARGET || t0.fab.fieldDiffs g F.DRV_PS_IDLE_MS
    let t := t0.when (t0.bayReady b && moved && (two true || two false)) (State.driveApst b)
    if t.fab.fieldDiffs g F.DRV_PS_MODE && decide (t.fab.cfg false g F.DRV_PS_MODE = 0) && t.bayReady b
        && decide (t.get g F.BAY_STAT_PS ≠ 0 ∧ (t.bay b).psPending = 0) then
      (t.onBay b fun v => { v with psPending := 2 }).emit (.drivePs b 0)
    else t) s

/-- The controller mode (Table 16.1); the window set of the epoch before is kept (R634). -/
def State.commitPair (oldEpoch : Nat) (s : State) : State :=
  let s1 := s.onPair fun p => { p with prevWins := s.fab.winSet true, prevEpoch := oldEpoch }
  if !s.fab.fieldDiffs pgPair F.PAIR_CFG_MODE then s1
  else if s.paired ∧ s.role = 1 then (s1.setRole 6).setPartner 0
  else if !s.paired ∧ s.role = 6 ∧ s.partner = 0 then s1.setRole 1
  else s1

/-- Registers that report what a configured value decides; frames that no pause holds under the new set leave (R107, R109). -/
def State.commitStatus (s : State) : State :=
  (List.range 80).foldl (fun t n => t.syncLane n) (((s.syncCmdq).syncCell).syncJrnl) |> fun t =>
    (List.range 4).foldl (fun u p => u.syncPool p) t.releaseHeld

/-! ### Commit (R74, R77, R78) -/

def nextEpoch (e : Nat) : Nat := if e = 0xFFFFFFFF then 1 else e + 1

/-- All pages exchange their sets; the new set stands under an epoch. -/
def State.commitSet (epoch : Nat) (s : State) : State :=
  let old := s.get pgDev F.EPOCH_EPOCH
  let changed := s.fab.changedPages
  let s1 := s.onFab fun f => f.exchange.cleanPages
  let s2 := s1.onFab fun f => changed.foldl (fun (g : Fab) n => match Page.ofAddr (n * 0x10000) with
    | some p => g.setPage p { g.page p with lastEpoch := BitVec.ofNat 32 epoch }
    | none => g) f
  let s3 := (((s2.swapIdle.setF pgDev F.EPOCH_EPOCH epoch).setF pgDev F.SWAP_STAT_RESULT 1).setF pgDev F.SWAP_STAT_REJECT_CODE 0).setF pgDev
    F.SWAP_STAT_REVERT_OK 1
  let s4 := ((((s3.commitPolicers).commitLeaves).commitTports).commitGroups).commitNamespaces
  let s5 := ((((s4.commitMults).commitPins).commitPower).commitSpares).commitPair old
  ((s5.commitStatus).record 1 epoch).mirrorIf 0 (.config epoch)

/-- A set that the active has committed (R639): register words by active offset, entries by page, table and index; what is not listed has
its reset value. No check runs on it. -/
def State.adoptSet (epoch : Nat) (words : List (Nat × Word)) (entries : List (Page × Nat × Nat × Nat)) (s : State) : State :=
  let bare := s.onFab fun f => { f with
    regs := f.regs.filter fun a _ => decide (a < 0x1000000 ∨ a % 0x10000 < 0x9000)
    tabs := f.tabs.filter fun k _ => decide (k / 2 ^ 32 % 2 = 0) }
  let put := bare.onFab fun f =>
    let g := words.foldl (fun (h : Fab) w => if 0x1000 ≤ w.1 % 0x10000 ∧ w.1 % 0x10000 < 0x8000 then h.setReg (w.1 + 0x8000) w.2 else h) f
    entries.foldl (fun (h : Fab) e => h.setTab e.1 true e.2.1 e.2.2.1 e.2.2.2) g
  put.commitSet epoch

/-! ### The commands -/

/-- A shadow-table operation runs in a window of the page (R81). -/
def Fab.shadowOp (f : Fab) (p : Page) : Bool := [winBase p .mgmt, winBase p .core].any fun b => match (f.win b).run with
  | some o => o.sel && decide (o.op = 2 ∨ o.op = 3)
  | none => false

/-- GO or REVERT starts: every page that is free to begins its check on the live state as it stands. -/
def State.swapStart (run : SwapRun) (s : State) : State :=
  let late := allPages.filter s.fab.shadowOp
  let fails := (allPages.filter fun p => !late.contains p).filterMap fun p => (s.checkPage p).map fun v => (⟨p, v.1, v.2⟩ : SwapFail)
  (s.onSwap fun _ => { run := run, fails := fails, late := late }).setF pgDev F.SWAP_STAT_BUSY 1

/-- REVERT (R80). -/
def State.swapRevert (s : State) : State :=
  if !s.flag pgDev F.SWAP_STAT_REVERT_OK ∨ s.fab.pages.any (fun _ g => g.shdDirty) then s.swapRejected 0x0005 .dev 0 0
  else s.swapStart .revert
/-- SYNC begins (R80, R83). -/
def State.swapSync (s : State) : State :=
  ((s.onSwap fun x => { x with run := .sync }).setF pgDev F.SWAP_STAT_BUSY 1).setF pgDev F.SWAP_STAT_REVERT_OK 0

/-- A write of `SWAP_CTL` by management software (R77, R80 to R83, R639). -/
def State.swapCtl (w : Nat) (s : State) : State :=
  if w % 8 = 0 then s
  else if s.isStandby ∨ s.swapBusy then s.count E.MGMT_CTL_IGNORED 1
  else match w % 8 with
    | 1 => s.swapStart .go
    | 2 => s.swapRevert
    | 4 => s.swapSync
    | _ => s.swapRejected 0x0006 .dev 0 0

def execSwapGo (s : State) : Result := .next (s.swapCtl 1)
def execSwapRevert (s : State) : Result := .next (s.swapCtl 2)
def execSwapSync (s : State) : Result := .next (s.swapCtl 4)
def execSwapCtlMulti (go revert sync : Bool) (s : State) : Result :=
  .next (s.swapCtl (boolNat go + 2 * boolNat revert + 4 * boolNat sync))

/-- The verdicts that a page's check may have come to, in a cycle from the start to now. -/
def State.swapRuns (s : State) : Bool := decide (s.fab.swap.run = .go ∨ s.fab.swap.run = .revert)
def State.failedAtStart (s : State) (p : Page) : Verdict :=
  (s.fab.swap.fails.find? fun x => decide (x.page = p)).map fun x => (x.code, x.offset)
def State.checkNow (s : State) (p : Page) : Option Verdict := if s.fab.shadowOp p then none else some (s.checkPage p)
def State.mayFail (s : State) (p : Page) : Verdict := match s.failedAtStart p with
  | some v => some v
  | none => (s.checkNow p).join
def State.mayPass (s : State) (p : Page) : Bool :=
  (!s.fab.swap.late.contains p && (s.failedAtStart p).isNone) || decide (s.checkNow p = some none)

/-- The page's check rejects the swap (R77). -/
def State.swapReject (p : Page) (s : State) : State :=
  if s.swapRuns ∧ p.valid ∧ p.blk ≠ .dev then match s.mayFail p with
    | some v => s.swapRejected v.1 p.blk p.inst v.2
    | none => s
  else s
/-- Every check has passed, and every page stands at its safe point. -/
def State.swapCommit (s : State) : State :=
  if s.swapRuns ∧ allPages.all s.mayPass then s.commitSet (nextEpoch (s.get pgDev F.EPOCH_EPOCH)) else s

def execSwapReject (page : Page) (s : State) : Result := .next (s.swapReject page)
def execSwapCommit (s : State) : Result := .next s.swapCommit
/-- A page does not reach its safe point (R79). DESIGN CHOICE (log entry 125): REJECT_BLOCK and REJECT_INST name that page, and
REJECT_OFFSET is 0. -/
def execSafePointTimeout (page : Page) (s : State) : Result :=
  .next (if s.swapRuns ∧ page.valid ∧ page.blk ≠ .dev ∧ allPages.all s.mayPass then s.swapRejected 0x0008 page.blk page.inst 0 else s)

/-- SYNC completes (R75, R83). -/
def State.syncDone (s : State) : State :=
  if s.fab.swap.run ≠ .sync then s
  else ((s.onFab fun f => f.copyToShadow.cleanPages).swapIdle).setF pgDev F.SWAP_STAT_REVERT_OK 0
def execSyncComplete (s : State) : Result := .next s.syncDone

/-- A recognised POWER_FAIL abandons a swap without a commit (R421). -/
def State.swapAbandon (s : State) : State := if s.swapRuns then s.swapIdle else s
/-- A POWER_FAIL is recognised (R417, R421, R672). -/
def State.powerFailed (s : State) : State := if s.jrnl.powerFail ∧ !s.saving then (s.fwAbandon.swapAbandon).beginSave else s
def execPowerFailRecognised (s : State) : Result := .next s.powerFailed

end Sys2Proof.Machine
end

