-- ==== Sys2Proof/Machine/MirrorOps.lean ====
section
/-!
DEFINITION. What the partner's frames do in a standby: address windows, the mirrored streams of Table 16.4, checkpoints and
synchronisation (R633 to R637, R762).
-/
namespace Sys2Proof.Machine
open Sys2Proof

/-! ### Windows (R633, R634) -/

/-- The window set of an epoch tag: the current one, or that of the epoch before. -/
def State.winsFor (s : State) (tag : Nat) : Option (List PeerWin) :=
  if tag % 256 = s.get pgDev F.EPOCH_EPOCH % 256 then some (s.fab.winSet false)
  else if !s.pair.prevWins.isEmpty ∧ tag % 256 = s.pair.prevEpoch % 256 then some s.pair.prevWins
  else none

/-- The area that a frame's stream addresses. -/
def peerKind : PeerData → Nat
  | .recHead _ => 1
  | .recData _ => 1
  | .region _ => 2
  | .table _ _ _ _ => 3

/-- The local byte offset of a frame, none where its window does not take it. -/
def PeerWin.place (w : PeerWin) (kind : Nat) (h : PeerHdr) : Option Nat :=
  if w.valid ∧ w.kind = kind ∧ w.rbase * 65536 ≤ h.addr ∧ h.addr + h.len ≤ (w.rbase + w.size) * 65536 then
    some (w.lbase * 65536 + (h.addr - w.rbase * 65536))
  else none

/-! ### Tables -/

/-- An entry of a live table as the active has it. -/
def State.mirrorTable (p : Page) (table i x : Nat) (s : State) : State :=
  match p.blk, p.inst, table with
  | .gard, 0, 1 => (s.setKey i { keyOfBytes x {} with gen := bitsOf x 144 8 }).syncKeys
  | .gard, 1, 1 => s.onGard fun g => { g with secrets := g.secrets.put i 0 (bytesAt x 0 32) }
  | .gard, 1, 3 => s.onGard fun g => { g with auth := g.auth.put i {} (authOfBytes x) }
  | .gard, 2, 1 =>
    let k : RestKey := { k1 := bytesAt x 0 32, k2 := bytesAt x 32 32, volume := bitsOf x 512 14, state := bitsOf x 528 2, units := bytesAt x 68 8 }
    let s1 := s.onGard fun g => { g with rest := g.rest.put i {} k }
    s1.setF pgXts F.XTS_STAT_ACTIVE_KEYS (s1.gard.rest.count fun _ e => decide (e.state = 1))
  | .regn, _, 1 =>
    let r := regionOfBytes x { writes := bitsOf x 160 64 }
    let old := s.region i
    let s1 := if r.state = 2 then s.onRegn fun g => { g with
        mem := memZero old.base old.size g.mem, subs := g.subs.filter fun k _ => decide (k / 8 ≠ i) } else s
    (s1.setRegion i r).syncRegions
  | _, _, _ => s

/-! ### The journal (Table 16.4) -/

/-- The record of the mirror that a byte offset of the journal lies in. -/
def State.mirRecAt (s : State) (at' : Nat) : Option (Nat × MirRec) :=
  (s.pair.recs.list.filter fun e => decide (e.1 ≤ at')).getLast?
def State.setMirRec (at' : Nat) (r : MirRec) (s : State) : State := s.onPair fun p => { p with recs := p.recs.set at' r }

/-- A record's header, at its offset. -/
def State.mirHead (at' : Nat) (h : RestRec) (s : State) : State :=
  match s.pair.recs.find at' with
  | some r => s.setMirRec at' { r with head := { h with data := r.head.data } }
  | none => (s.setMirRec at' { head := { h with data := ⟨0, 0⟩ }, order := s.pair.nextOrder }).onPair fun p => { p with
      nextOrder := p.nextOrder + 1 }
/-- Data of a record, at its offset: it follows the header of 256 bytes. -/
def State.mirData (at' : Nat) (d : Blob) (s : State) : State :=
  match s.mirRecAt (at' - 256) with
  | none => s
  | some e =>
    let k := at' - 256 - e.1
    let old := e.2.head.data
    s.setMirRec e.1 { e.2 with head := { e.2.head with data := ⟨max old.len (k + d.len), withBytes old.val k d.len d.val⟩ } }

/-- What a windowed frame carries reaches the local offset. -/
def State.placePeer (at' : Nat) (d : PeerData) (s : State) : State :=
  match d with
  | .recHead h => s.mirHead at' h
  | .recData b => s.mirData at' b
  | .region b => (s.onRegn fun g => { g with mem := memWrite (toBytes b.len b.val) at' g.mem }).markDirty at' b.len
  | .table p t i v => s.mirrorTable p t i v

/-- A windowed frame, and its confirmation (R633, R634). -/
def State.windowed (h : PeerHdr) (d : PeerData) (s : State) : State :=
  match s.winsFor h.winEpoch with
  | none => s.count E.PAIR_WIN_STALE 1
  | some ws => match (ws[h.window]?).bind fun w => w.place (peerKind d) h with
    | none => (s.count E.PAIR_WIN_MISS 1).occur S.PAIR_WIN_MISS
    | some at' => (s.placePeer at' d).emit (.peerConfirm h.group h.lseq)

/-! ### Records (Table 16.4) -/

/-- A subscription of Table 7.6 from its entry; queued records come as records of their own. -/
def subOfEntry (x : Nat) (old : SubEnt) : SubEnt :=
  { old with conn := bitsOf x 0 16, incarnation := bitsOf x 16 8, subTag := bitsOf x 32 16, ringLog2 := bitsOf x 48 8, rkey := bitsOf x 64 32
             va := bitsOf x 96 64, nseq := bitsOf x 160 64, dropped := bitsOf x 224 8, queued := old.queued.drop (old.queued.length - bitsOf x 56 8) }

def State.onMirCtx (i : Nat) (g : MirCtx → MirCtx) (s : State) : State := s.onPair fun p => { p with ctxs := p.ctxs.modify i {} g }
def State.onMirCmd (n : Nat) (g : MirCmd → MirCmd) (s : State) : State := match s.pair.cmds.find n with
  | some c => s.onPair fun p => { p with cmds := p.cmds.set n (g c) }
  | none => s

/-- The fields of Table 8.4, in its order. -/
def accOfList (l : List Nat) : MeterAcc :=
  { readBytes := l.getD 0 0, writeBytes := l.getD 1 0, readOps := l.getD 2 0, writeOps := l.getD 3 0, regionBytes := l.getD 4 0
    expressOps := l.getD 5 0, logicalMib := l.getD 6 0, physicalMib := l.getD 7 0, frameRed := l.getD 8 0, cmdRed := l.getD 9 0 }
def accMap (l : List (Nat × List Nat)) : SMap MeterAcc := l.foldl (fun (m : SMap MeterAcc) e => m.put e.1 {} (accOfList e.2)) {}

/-- Map entries of the placement stream: their pages are dirty here too, since the pool may be older. -/
def State.mirrorEntries (v wgen maxSeq : Nat) (es : List (Nat × Nat)) (s : State) : State :=
  (s.onPlce fun x => { x with
    map := es.foldl (fun m e => m.put (mapKey v e.1) entUnmapped (withBits e.2 4 1 0)) x.map
    pages := es.foldl (fun m e =>
      let k := pageKey v e.1
      let pg := m.get k {}
      m.set k { pg with dirty := pg.dirty <|> some s.now, changes := pg.changes + 1, wgen := wgen, maxSeq := maxSeq }) x.pages }).syncMap
/-- A page has been written back: its slot, and the trailer that its copies bear. -/
def State.mirrorDirectory (k slot wgen maxSeq : Nat) (dirty : Bool) (s : State) : State :=
  (s.onPlce fun x => match x.pages.find k with
    | some pg => { x with
        slots := x.slots.set k slot
        pages := x.pages.set k { pg with dirty := if dirty then pg.dirty else none, wgen := wgen } }
    | none => { x with slots := x.slots.set k slot, trail := x.trail.put k (0, 0) (wgen, maxSeq) }).syncMap

/-- A pool as the placement stream gives it: IMPORTING (Table 13.7). -/
def State.mirrorPool (p : Nat) (l : PoolLabel) (logGen : Nat) (losses : List (Nat × Nat × Nat × Nat × Nat × Bool)) (s : State) : State :=
  let spares := (bitsIn 24 (s.get (pgPool p) F.POOL_SPARES_SPARE_MASK)).filter fun b => s.bayReady b && decide (l.m ≤ (s.bay b).capacity) &&
    !l.members.any fun x => decide (x.1 = b ∧ x.2.1 ≠ 3)
  (s.onPool p fun v => { v with
    state := 1, prot := l.prot, d := l.d, w := l.w, m := l.m, mapGib := l.mapGib, sliceGib := l.sliceGib
    segments := min segCap (segmentsOf l.m l.mapGib l.sliceGib)
    members := l.members.map fun x => { bay := x.1, state := x.2.1, start := x.2.2, capacity := (s.bay x.1).capacity }
    spares := spares, labelGen := l.gen, logGen := logGen, cursor := l.cursor, oslPos := l.oslPos
    loss := losses.map fun e => ⟨e.1, e.2.1, e.2.2.1, e.2.2.2.1, e.2.2.2.2.1, e.2.2.2.2.2⟩ }).syncPool p

/-- A TYPE 4 record is applied (R636). -/
def State.applyRecord (r : PeerRec) (s : State) : State :=
  match r with
  | .table p t i v => s.mirrorTable p t i v
  | .subscription i e =>
    if e = 0 then s.dropSub i
    else match s.sub i with
      | some old => s.setSub i (subOfEntry e old)
      | none => (s.setSub i (subOfEntry e { serial := s.regn.nextId })).onRegn fun g => { g with nextId := g.nextId + 1 }
  | .notification i nseq imm rec conn psn => match s.sub i with
    | some e => (s.setSub i { e with nseq := nseq, dropped := 0, queued := e.queued ++ [(nseq, imm, rec)] }).onPair fun p => { p with
        notified := (conn, psn) :: p.notified }
    | none => s
  | .config epoch words entries => s.adoptSet epoch words entries
  | .horizon i epsn msn => s.onMirCtx i fun c => { c with horizon := some (epsn, msn) }
  | .command n sqe conn psn => s.onPair fun p => { p with cmds := p.cmds.set n { sqe := sqe, conn := conn, capsulePsn := psn } }
  | .commit n sct sc dnr d0 d1 => s.onMirCmd n fun c => { c with cpl := some ⟨sct, sc, dnr, d0, d1⟩ }
  | .response n psn => s.onMirCmd n fun c => { c with respPsn := some psn }
  | .lastPsn i psn => s.onMirCtx i fun c => { c with lastPsn := some psn }
  | .commitNotice at' seq => match s.pair.recs.find at' with
    | some m => s.setMirRec at' { m with noticed := true, head := { m.head with seq := seq } }
    | none => s
  | .releaseNotice at' => s.onPair fun p => { p with recs := p.recs.erase at' }
  | .mapEntries v wgen maxSeq es => s.mirrorEntries v wgen maxSeq es
  | .directory v page slot wgen maxSeq dirty => s.mirrorDirectory (v * 2 ^ 29 + page) slot wgen maxSeq dirty
  | .segment p n st stream w pad closeS => s.onSeg p n fun g => { g with
      state := st, stream := stream, written := w, pad := pad, closeS := closeS }
  | .poolState p l logGen losses => if p < 4 then s.mirrorPool p l logGen losses else s
  | .needSet p i segs => if p < 4 then s.onPool p fun v => { v with need := if segs.isEmpty then v.need.erase i else v.need.set i segs } else s
  | .meter k minute flags ms accs => (s.onTmgr fun m => { m with
      gens := m.gens.set (k % 64) { minute := minute, flags := flags, durationMs := ms, accs := accMap accs } }).setF pgTmgr F.METER_GEN_GEN
        ((k + 1) % 2 ^ 32)
  | .meterAck v => s.setF pgTmgr F.METER_ACK_ACK v

/-- A checkpoint (R637, R351). -/
def State.applyCkpt (c : PeerCkpt) (s : State) : State :=
  match c with
  | .ctx i b => s.onMirCtx i fun x => { x with bytes := some (b % 2 ^ 1536) }
  | .keys i k rk re rr rf tk te tr prk => (s.setKeySlot i k { rx := { key := rk, epoch := re, ready := rr, fails := rf }
                                                              tx := { key := tk, epoch := te, ready := tr } }).onGard fun g => { g with
      prk := g.prk.set i prk }
  | .accumulators minute sec half accs => (s.onTmgr fun m => { m with
      accs := accMap accs, minute := { isOpen := true, minute := minute, startSec := sec, startHalf := half } }).setF pgTmgr
        F.METER_OPEN_MINUTE minute

/-! ### Frames -/

/-- The mirror takes frames in JOINING and STANDBY. -/
def State.mirrorSide (s : State) : Bool := decide (s.role = 3 ∨ s.role = 4)
def State.rxBytes (n : Nat) (s : State) : State := s.count E.PAIR_RX_BYTES (32 + n)
def State.confirmPeer (h : PeerHdr) (s : State) : State := s.emit (.peerConfirm h.group h.lseq)

/-- A confirmed item ends the wait for it (Table 16.4, R760). -/
def State.itemConfirmed (item : MirrorItem) (s : State) : State :=
  match item with
  | .journal h => match (s.jrnl.recs.list.find? fun e => decide (e.2.handle = h)) with
    | some e => (s.setRec e.1 { e.2 with mirrored := true }).stepRec e.1
    | none => s
  | .regionWrite id => s.confirmWrite id
  | .tableWrite _ _ _ => s.tblConfirm
  | .keyChange _ => s.keyConfirmed
  | .regionChange _ => s.regionConfirm
  | .horizon i epsn _ =>
    let s1 := s.onRx i fun x => { x with horizonOk := some epsn }
    s1.releaseReplies i ((s1.ctx i).rx.replies.length + 1)
  | _ => s

/-- A TYPE 2 frame confirms the frames of one priority of a group up to one of them (Table 16.3, R760). -/
def State.confirmed (group lseq : Nat) (s : State) : State :=
  match s.pair.sent.find? fun f => decide (f.group = group ∧ f.lseq = lseq) with
  | none => s
  | some g =>
    let mine := fun (f : SentFrame) => decide (f.group = group ∧ f.prio = g.prio)
    let upTo := (s.pair.sent.filter mine).takeWhile (fun f => decide (f.lseq ≠ lseq)) ++ [g]
    let s1 := s.onPair fun p => { p with sent := p.sent.filter fun f => !upTo.contains f }
    let s2 := upTo.foldl (fun t f => t.itemConfirmed f.item) s1
    ((s2.settleSeal).handoverStep).pumpAll

/-- A link acknowledgement (R628): frames up to LACK are covered; go-back-N from the oldest that is not. -/
def State.linkAcked (group lack : Nat) (resend : Bool) (s : State) : State :=
  let covered := fun (e : Nat × Nat) => decide (e.1 = group ∧ (lack + 2 ^ 32 - e.2) % 2 ^ 32 < 2 ^ 31)
  let s1 := s.onPair fun p => { p with unacked := p.unacked.filter fun e => !covered e }
  let left := s1.pair.unacked.filter fun e => decide (e.1 = group)
  let s2 := if resend then left.foldl (fun t e => (t.count E.PAIR_LINK_RETX 1).emit (.linkRetx e.1 e.2)) s1 else s1
  s2.pumpAll

end Sys2Proof.Machine
end

