-- ==== Sys2Proof/Machine/PairExec.lean ====
section
/-!
DEFINITION. The commands of the controller pair: heartbeat, ownership, fences, the Britos link, the mirror, takeover, and the culture
check (chapter 16 of spec/).
-/
namespace Sys2Proof.Machine
open Sys2Proof

/-! ### Heartbeat and ownership (R611 to R620) -/

/-- No edge of PAIR_HB_IN for HB_TIMEOUT_MS (R614, R620, R624, Table 16.1). -/
def State.hbMissing (s : State) : State :=
  let s1 := (s.onIsland fun i => { i with hbIn := false }).syncPins
  if !s.paired ∨ !s.isLive pgPair then s1
  else match s.role with
    | 6 => s1.losePartner
    | 4 => if s.flag pgPair F.PAIR_CFG_AUTO_TAKEOVER ∧ !s.flag pgPair F.PAIR_STAT_UNFIT then (s1.claim true).occur S.PAIR_TAKEOVER else s1
    | 2 => s1.when (s.pair.island.ownIn && !s.mirrorValid) (State.occur S.PAIR_NO_VALID_MIRROR)
    | _ => s1
def execHeartbeatTimeout (s : State) : Result := .next s.hbMissing
/-- Firmware has not refreshed its watchdog for 10 ms; the hardware refreshes it while a hold is in force (R620). -/
def execHbWatchdogExpiry (s : State) : Result :=
  .next (if s.flag pgCmdq F.CMDQ_FW_HOLD then s else s.onPair fun p => { p with wdog := true })

/-- A claim is running: CLAIMING, or SINGLE without ownership (R617), also where MODE has been set since. -/
def State.claiming (s : State) : Bool := decide (s.role = 5) || (decide (s.role = 1 ∨ s.role = 6) && !s.owned)

/-- PAIR_OWN_IN changes (R619). -/
def State.ownInChange (on : Bool) (s : State) : State :=
  let s1 := (s.onIsland fun i => { i with ownIn := on }).syncPins
  if !on ∨ s.pair.island.ownIn then s1
  else if s.owned then s1.contend
  else if s.pair.island.slot ∧ s.claiming then (s1.setOwnOut false).onPair fun p => { p with backoff := true }
  else s1
def execOwnInChange (asserted : Bool) (s : State) : Result := .next (s.ownInChange asserted)

/-- OWN_IN has been deasserted for 2 ms of the claim (R617). -/
def execOwnClaimAssert (s : State) : Result :=
  .next (if s.claiming ∧ !s.pair.island.ownIn ∧ !s.pair.backoff ∧ !s.heldReset then s.setOwnOut true else s)
/-- R618. -/
def execOwnershipGrant (s : State) : Result :=
  .next (if s.claiming ∧ s.pair.island.ownOut ∧ !s.pair.island.ownIn ∧ !s.owned then s.grant else s)
/-- The 5 ms are over: DISCOVER, or the claim again in single-controller mode (R619, Table 16.1). -/
def execClaimBackoffEnd (s : State) : Result :=
  .next (if !s.pair.backoff then s
    else
      let s1 := s.onPair fun p => { p with backoff := false }
      if s.role = 5 then (s1.setRole 2).occur S.PAIR_CLAIM_CONTENTION else s1)
/-- OWN_IN deasserted for DISCOVER_MS (Table 16.1). -/
def execDiscoverTimeout (s : State) : Result :=
  .next (if s.role = 2 ∧ !s.pair.island.ownIn then s.claim false else s)

/-! ### Fences (R621 to R623) -/

/-- The fence is accepted (R621). -/
def State.acceptFence (s : State) : State :=
  let s1 := ((s.setOwnOut false).coreReset true).onIsland fun i => { i with fenced := true }
  ((s1.setRole 7).emit .lanesIdle).writeHealth

/-- PAIR_FENCE_IN is asserted (R621, R623). -/
def State.fenceIn (s : State) : State :=
  let i := s.pair.island
  if !i.running then s
  else
    let s1 := (s.onIsland fun x => { x with fenceIn := true }).syncPins
    if i.fenced ∨ i.fenceIn then s1
    else if !i.fenceOut then s1.acceptFence
    else if i.slot ∧ s.now - i.fenceOutAt ≤ 20000 then (s1.setFenceOut false).acceptFence
    else s1
def execFenceInAssert (s : State) : Result := .next s.fenceIn

/-- The pages of MGMT start by themselves once the core die leaves reset (Table 20.2). -/
def State.startUp (s : State) : State := ((List.range 4).map pgMgmt).foldl (fun (t : State) p => t.fwEnable p) s
/-- PAIR_FENCE_IN is deasserted: a FENCED controller goes to INIT and starts up (Table 16.1). -/
def State.fenceInEnd (s : State) : State :=
  let s1 := (s.onIsland fun x => { x with fenceIn := false }).syncPins
  if !s.pair.island.fenced then s1
  else
    let s2 := (s1.onIsland fun x => { x with fenced := false }).enterInit
    if s.pair.island.inPor ∨ s.pair.island.thermTrip then s2 else s2.startUp
def execFenceInDeassert (s : State) : Result := .next s.fenceInEnd

/-- A write of `PAIR_RT`: UNFENCE, FORCE_CLAIM, RELEASE (R614, R622, R638). -/
def State.pairRt (w : Nat) (s : State) : State :=
  let s1 := if bitAt w 0 then s.setFenceOut false else s
  let s2 := if bitAt w 1 ∧ s1.role = 2 then s1.claim true else s1
  if bitAt w 2 then s2.release638 else s2
def execUnfence (s : State) : Result := .next (s.pairRt 1)
def execForceClaim (s : State) : Result := .next (s.pairRt 2)
def execRelease (s : State) : Result := .next (s.pairRt 4)

/-! ### The Britos link (R624, R626 to R632) -/

/-- DISCOVER sees an ACTIVE partner over the link (Table 16.1). -/
def State.mayJoin (s : State) : State :=
  if s.role = 2 ∧ s.flag pgPair F.PAIR_STAT_LINK_UP ∧ s.pair.partnerRole = 6 then s.toJoining else s

/-- Link training has ended: the partner's version byte, and the lanes that came up (R627). KV24 stepping B0 has version 1.0. -/
def State.britosUp (ver : Nat) (lanes : List Nat) (s : State) : State :=
  if !s.paired ∨ s.heldReset ∨ !PgState.isLive (s.fab.page pgPair).state then s
  else if ver / 16 % 16 ≠ 1 then s.occur S.PAIR_VERSION_MISMATCH
  else
    let s1 := (s.setF pgPair F.PAIR_STAT_VER 0x10).onPair fun p => { p with
      lanesUp := (List.range 24).filter fun n => lanes.contains n && !p.lanesOut.contains n }
    ((s1.syncLink).mayJoin).pumpAll
def execBritosLinkUp (version : Nat) (lanes : List Nat) (s : State) : Result := .next (s.britosUp version lanes)

/-- The link has been down for LINK_LOSS_US (R624, Table 16.1). -/
def State.britosLost (s : State) : State :=
  let s1 := (s.onPair fun p => { p with lanesUp := [] }).syncLink
  if s.role = 3 ∨ s.role = 4 then s1.toDiscover else s1.losePartner
def execBritosLinkLoss (s : State) : Result := .next s.britosLost

/-- R632. -/
def State.britosLaneDown (n : Nat) (s : State) : State :=
  if !s.pair.lanesUp.contains n then s
  else ((s.onPair fun p => { p with
    lanesUp := p.lanesUp.filter fun m => decide (m ≠ n)
    retrains := p.retrains.set n (s.now :: p.retrains.get n []) }).occur S.PAIR_LINK_LANE_DOWN).syncLink
def execBritosLaneLockLoss (lane : Nat) (s : State) : Result := .next (s.britosLaneDown lane)
def State.britosLaneUp (n : Nat) (s : State) : State :=
  if 24 ≤ n ∨ s.pair.lanesOut.contains n ∨ !s.paired ∨ s.heldReset ∨ s.get pgPair F.PAIR_STAT_VER = 0 then s
  else (((s.onPair fun p => { p with lanesUp := insertSorted n p.lanesUp }).syncLink).mayJoin).pumpAll
def execBritosLaneUp (lane : Nat) (s : State) : Result := .next (s.britosLaneUp lane)

/-- R628. -/
def execBritosFrameCrcErr (s : State) : Result := .next (s.count E.PAIR_LINK_CRC_ERR 1)
def execLinkAckRx (group lack : Nat) (resend : Bool) (s : State) : Result := .next (s.linkAcked group lack resend)

/-! ### The mirror -/

def execMirrorWriteRx (hdr : PeerHdr) (data : PeerData) (s : State) : Result :=
  .next (if s.mirrorSide then (s.rxBytes hdr.len).windowed hdr data else s)
def execMirrorConfirmRx (group lseq : Nat) (s : State) : Result := .next (s.confirmed group lseq)
def execCheckpointRx (hdr : PeerHdr) (data : PeerCkpt) (s : State) : Result :=
  .next (if s.mirrorSide then (((s.rxBytes hdr.len).applyCkpt data).count E.PAIR_CKPT_RX 1).confirmPeer hdr else s)
def execRecordRx (hdr : PeerHdr) (record : PeerRec) (s : State) : Result :=
  .next (if s.mirrorSide then ((s.rxBytes hdr.len).applyRecord record).confirmPeer hdr else s)

/-- A synchronisation frame (R762). How DONE_PCT is computed the spec does not say: until the end it is a free value. -/
def State.syncFrame (h : PeerHdr) (d : PeerSync) (s : State) : State :=
  let r := ((s.rxBytes h.len).count E.PAIR_SYNC_BYTES h.len).draw
  let s1 := r.2.setF pgPair F.PAIR_SYNC_DONE_PCT (r.1 % 101)
  match d with
  | .windowed x => s1.windowed h x
  | .plain x => (s1.applyRecord x).confirmPeer h
def execSyncDataRx (hdr : PeerHdr) (data : PeerSync) (s : State) : Result :=
  .next (if s.mirrorSide then s.syncFrame hdr data else s)

/-- Synchronisation is complete (R625, Table 16.1): the active waits for confirmations from the next cycle on; what was open is alone. -/
def State.syncComplete (s : State) : State :=
  if s.role = 3 then
    ((((s.setRole 4).setMirrorValid true).setF pgPair F.PAIR_SYNC_DONE_PCT 100).invalidateHeaders)
  else if s.role = 6 ∧ s.partner = 1 ∧ s.syncSent ∧ !s.pair.island.fenceOut then
    let s1 := ((s.setPartner 2).setF pgPair F.PAIR_SYNC_DONE_PCT 100).onJrnl fun j => { j with
      recs := j.recs.mapVals fun _ r => if r.state = .opened then { r with mirrored := true, solo := true } else r }
    (s1.soloWrites).soloRecords
  else s
def execSyncCompletePair (s : State) : Result := .next s.syncComplete

/-- The partner's health record (R648), and what it shows (R622, R624, Table 16.1). -/
def State.healthRx (x : Nat) (s : State) : State :=
  let was := s.pair.partnerRole
  let now := byteAt x 1
  let unfit := bitAt (byteAt x 2) 3
  let s1 := (((s.rxBytes 64).onIsland fun i => { i with partnerHealth := x % 2 ^ 512, hbIn := true }).onPair fun p => { p with
    partnerRole := now }).syncPins
  if !s.paired then s1
  else match s.role with
    | 6 =>
      if (s.partner = 1 ∨ s.partner = 2) ∧ (unfit ∨ now ≠ 3 ∧ now ≠ 4) then
        (if s.pair.handover then s1 else s1.losePartner).when unfit (State.setPartner 3)
      else if s.partner = 0 ∨ s.partner = 3 then
        if unfit then s1.setPartner 3
        else if now = 3 ∧ !s.pair.island.fenceOut then s1.syncBegin
        else s1.setPartner 0
      else s1
    | 2 => s1.mayJoin
    | 3 => if was = 6 ∧ now ≠ 6 then s1.toDiscover else s1
    | 4 => if was = 6 ∧ now ≠ 6 then s1.toDiscover else s1
    | _ => s1
def execHealthRx (record : Nat) (s : State) : Result := .next (if s.isLive pgPair then s.healthRx record else s)

/-- A handover frame (Table 16.1). -/
def execHandoverRx (s : State) : Result := .next (if s.role = 4 then (s.rxBytes 0).claim false else s)

/-- CKPT_US has passed: a checkpoint round, also while the partner joins (R637, R762). -/
def execCheckpointRound (s : State) : Result := .next (if s.mirroring || s.syncing then s.checkpointRound else s)
def execHealthRecordWrite (s : State) : Result :=
  .next (if s.pair.island.running then (s.writeHealth).when (s.paired && s.isLive pgPair) (State.sendFrame .health 64) else s)

/-! ### Takeover (R641, Table 16.5) -/

def MirRec.complete (m : MirRec) : Bool := decide (m.head.type ≠ 1 ∨ m.head.len ≤ m.head.data.len)

/-- A record of the mirror at a takeover: it commits, with its SEQ or the next one, or it is partial and discarded. -/
def State.takeRec (s : State) (e : Nat × MirRec) : State :=
  let h := e.2.head
  if !e.2.complete then s.count E.JRNL_REC_DISCARD 1
  else
    let q := if e.2.noticed then h.seq else s.jrnl.seq + 1
    let r : JRec := { seq := q, type := h.type, poison := h.poison, sealed := h.sealed, solo := h.solo, volume := h.volume, len := h.len
                      offset := h.offset, tenant := h.tenant, keyIndex := h.keyIndex, slot := some h.slot, data := h.data
                      chunk := e.1 / 2 ^ 22, place := e.1 % 2 ^ 22, state := .committed, localOk := true, mirrored := true, committedAt := s.now }
    let s1 := s.onJrnl fun j => { j with recs := j.recs.set j.nextRec r, nextRec := j.nextRec + 1, seq := max j.seq q }
    s1.when (!e.2.noticed) fun t => (t.count E.JRNL_REC_COMMIT 1).when (decide (h.type = 1)) (State.count E.JRNL_REC_BYTES h.len)
/-- The journal stage. -/
def State.takeJournal (s : State) : State :=
  let known := s.pair.recs.list.filter fun e => e.2.noticed
  let rest := (s.pair.recs.list.filter fun e => !e.2.noticed).mergeSort fun a b => decide (a.2.order ≤ b.2.order)
  (((known ++ rest).foldl State.takeRec s).onPair fun p => { p with recs := {} }).syncJrnl
/-- The pools stage: imports complete under source 1. Both streams take fresh segments; the former ones close in the background (R543). -/
def State.takePools (s : State) : State :=
  ((List.range 4).filter fun p => decide ((s.pool p).state = 1)).foldl (fun t p =>
    let opens := (t.usedSegs p).filter fun n => decide ((t.seg p n).state = 1)
    let t1 := opens.foldl (fun u n => u.padSegment p {} n) (t.onPool p fun v => { v with oslSrc := 1 })
    ((t1.takeSeg p 0).takeSeg p 1).importEnd p) s
/-- The announcements: every group with a port up. -/
def State.takeAnnounce (s : State) : State :=
  ((List.range 16).filter fun g => !(s.upPorts g).isEmpty).foldl (fun t g => t.announce g) s
/-- Resumption is offered to every context; commands of contexts that are not mirrored are freed (R642, R645). -/
def State.takeConns (s : State) : State :=
  let s1 := s.pair.ctxs.keys.foldl (fun t i => t.offerResume i) s
  s1.onPair fun p => { p with cmds := ⟨p.cmds.list.filter fun e => (p.probing.find e.2.conn).isSome⟩ }

/-- A stage has ended: the next one begins with its action. -/
def State.stageEnd (s : State) : State :=
  let go := fun (x : TakeStage) (t : State) => t.onPair fun p => { p with stage := x }
  match s.pair.stage with
  | .none => s
  | .bays => (go .journal s).takeJournal
  | .journal => (go .pools s).takePools
  | .pools => (go .announce s).takeAnnounce
  | .announce => (go .connections s).takeConns
  | .connections => (go .none s).setMirrorValid false
def execTakeoverStageEnd (s : State) : Result := .next s.stageEnd

/-! ### The culture check (R613, R647) -/

/-- One pass: the bits of Table 16.8 that failed, and the members read under bit 6. -/
def State.culture (fails drives : Nat) (s : State) : State :=
  if s.role ≠ 4 then s
  else
    let bad := (List.range 9).filter (bitAt fails)
    let s1 := (s.onPair fun p => { p with
      passes := p.passes + 1, failMask := p.failMask ||| fails % 512, drivesOk := drives % 2 ^ 24 }).count E.PAIR_CULTURE_PASS 1
    let s2 := s1.count E.PAIR_CULTURE_FAIL bad.length
    if bad.any fun i => decide (i < 7) then (s2.setF pgPair F.PAIR_STAT_UNFIT 1).occur S.PAIR_CULTURE_FAIL else s2
def execCultureCheck (fails drives : Nat) (s : State) : Result := .next (s.culture fails drives)

end Sys2Proof.Machine
end

