-- ==== Sys2Proof/Machine/PolExec.lean ====
section
/-!
DEFINITION. The loops of device firmware: background pacing, retirement, adaptation, and the thermal throttle (R651 to R666).
-/
namespace Sys2Proof.Machine
open Sys2Proof

/-- The loops run: the cores are up, and no activation holds them (R653). -/
def State.loopsRun (s : State) : Bool := s.isOn (pgMgmt 1) && !s.flag pgCmdq F.CMDQ_FW_HOLD
/-- The AUTO bit of a loop: 0 Press, 1 Turner, 2 rebuild, 3 write-back, 4 retirement, 5 thermal, 6 adaptation (Table 17.7). -/
def State.auto (s : State) (n : Nat) : Bool := bitAt (s.get (pgMgmt 1) F.POL_CFG_AUTO) n
def State.throttle (s : State) : Nat := s.get (pgMgmt 3) F.THERM_STAT_LEVEL

/-! ### Background pacing (R652 to R656, R664) -/

/-- The Press rate from the FREE segments (R654). -/
def pressRate (cir pir f start reserve : Nat) : Nat :=
  if start ≤ f then cir
  else if f ≤ reserve then pir
  else cir + (pir - cir) * (start - f) / (start - reserve)

/-- The rate of engine k of pool p, and its reason. -/
def State.loopRate (s : State) (p k : Nat) : BgRate :=
  let e := s.tab pgTmgr 4 (bgLeaf p k)
  let cir := leafAdmCir e
  let pir := leafAdmPir e
  let v := s.pool p
  let f := s.freeSegs p
  let hot := decide (1 ≤ s.throttle)
  if !s.auto k then ⟨pir, 1⟩
  else match k with
    | 0 =>
      if !v.usable then ⟨0, 0⟩
      else if hot then (if f ≤ s.pressReserve p then ⟨cir, 4⟩ else ⟨0, 4⟩)
      else ⟨pressRate cir pir f (s.pressStart p) (s.pressReserve p), 2⟩
    | 1 => if v.state ≠ 2 then ⟨0, 0⟩ else if hot then ⟨0, 4⟩ else ⟨cir, 2⟩
    | 2 =>
      if !v.usable ∨ v.rbState = 0 then ⟨0, 0⟩
      else if v.margin ≤ 0 then ⟨pir, 3⟩
      else ⟨cir, if hot then 4 else 3⟩
    | _ => ⟨pir, 2⟩

/-- A leaf's live rate changes (R652). -/
def State.setRate (n : Nat) (r : BgRate) (s : State) : State :=
  if s.pol.rates.get n {} = r then s
  else (s.onPol fun x => { x with rates := x.rates.put n {} r }).count E.MGMT_POL_RATE_SET 1

/-- The throttle level changes (R665). -/
def State.setThrottle (n : Nat) (s : State) : State :=
  if s.throttle = n then s
  else ((s.setF (pgMgmt 3) F.THERM_STAT_LEVEL n).count E.MGMT_THROTTLE_STEP 1).when (decide (1 ≤ n)) (State.occur S.MGMT_THERM_THROTTLE)

/-- A leaf's multiplier changes. -/
def State.setMult (l m : Nat) (s : State) : State :=
  if s.mult l = m then s else (s.onPol fun x => { x with mults := x.mults.put l 16 m }).count E.MGMT_MULT_CHANGE 1

/-- One millisecond of the loops: rates, the fixed values of loops whose AUTO bit is 0, the watchdog, and VDD_CORE (R620, R651, R722). -/
def State.policyTick (s : State) : State :=
  if !s.isOn (pgMgmt 1) then s
  else
    let s1 := (s.onPair fun p => { p with wdog := false }).avsSet
    if !s.loopsRun then s1
    else
      let s2 := (List.range 16).foldl (fun (t : State) n => t.setRate n (s.loopRate (n / 4) (n % 4))) s1
      let s3 := if s.auto 6 then s2 else s2.pol.mults.keys.foldl (fun (t : State) l => t.setMult l 16) s2
      if s.auto 5 then s3 else (s3.setThrottle 0).onPol fun x => { x with coolTicks := 0 }
def execPolicyLoopTick (s : State) : Result := .next s.policyTick

/-! ### Retirement (R657 to R660, Table 17.2) -/

/-- A retirement that R658 refuses: once for each channel. Table 5 shows the first 32. -/
def State.defer (kind channel : Nat) (s : State) : State :=
  if s.pol.deferred.any fun d => decide (d.kind = kind ∧ d.channel = channel) then s
  else
    let s1 := s.onPol fun x => { x with deferred := x.deferred ++ [⟨kind, channel, s.ptp.sec % 2 ^ 32⟩] }
    ((s1.setF (pgMgmt 1) F.POL_DEFER_COUNT (min 32 s1.pol.deferred.length)).count E.MGMT_RETIRE_DEFER 1).occur S.MGMT_RETIRE_DEFERRED
/-- The channel is deferred already: its retirement waits for management software. -/
def State.isDeferred (s : State) (kind channel : Nat) : Bool := s.pol.deferred.any fun d => decide (d.kind = kind ∧ d.channel = channel)
def State.pcRetired (s : State) (n : Nat) : Bool := bitAt (s.get (pgMgmt 1) (F.POL_PC_RETIRED_RETIRED.idx (n / 32))) (n % 32)
/-- Channels that have gone leave the table. -/
def State.settleDeferred (s : State) : State :=
  let inService := fun (d : Deferred) => match d.kind with
    | 1 => s.isOn (pgDrvp d.channel)
    | 2 => !s.bankRetired d.channel
    | _ => !s.pcRetired d.channel
  let s1 := s.onPol fun x => { x with deferred := x.deferred.filter inService }
  s1.setF (pgMgmt 1) F.POL_DEFER_COUNT (min 32 s1.pol.deferred.length)

/-- Retiring a bay's drive would raise its pool's failed count above the redundancy. -/
def State.drivePinned (s : State) (b : Nat) : Bool := match s.placeOf b with
  | some (p, i) =>
    let v := s.pool p
    let w := { v with members := v.members.set i { v.member i with state := 3 } }
    decide (redundancy v.prot < w.failedCount)
  | none => false
def State.evalDrive (s0 : State) (b : Nat) : State :=
  let s := s0.syncErrs b
  if !s.isOn (pgDrvp b) ∨ !s.errsOver b ∨ s.isDeferred 1 b then s
  else if s.drivePinned b then s.defer 1 b
  else (s.driveRetire b).count E.MGMT_RETIRE 1

/-- A Britos lane is taken out of its group. -/
def State.evalBritos (s : State) (n : Nat) : State :=
  let w := s.get (pgMgmt 1) F.POL_BRITOS_WINDOW_S * 2000000000
  let k := ((s.pair.retrains.get n []).filter fun t => decide (s.now - t ≤ w)).length
  if k ≤ s.get (pgMgmt 1) F.POL_BRITOS_LIMIT ∨ s.pair.lanesOut.contains n then s
  else ((((s.onPair fun p => { p with
    lanesUp := p.lanesUp.filter fun m => decide (m ≠ n), lanesOut := insertSorted n p.lanesOut }).syncLink).occur
      S.MGMT_CHANNEL_RETIRED).count E.MGMT_RETIRE 1)

/-- Frames leave the map cache until it fits (R477, R659): the least recently used that may go, dirty ones after their write-back. -/
def State.shrinkMap : Nat → State → State
  | 0, s => s
  | fuel + 1, s =>
    if s.plce.pages.size ≤ s.get pgPlce F.PLCE_MAP_STAT_FRAMES then s
    else match s.plce.lru.reverse.find? s.frameFree with
      | some v => State.shrinkMap fuel ((s.onPlce fun x => { x with
          pages := x.pages.erase v, lru := x.lru.filter fun j => decide (j ≠ v)
          trail := x.trail.put v (0, 0) ((s.mapPage v).wgen, (s.mapPage v).maxSeq) }).syncMap)
      | none => s
/-- A pseudo-channel's lines begin to move, or it is refused (R659). -/
def State.evalPc (s : State) (n : Nat) : State :=
  let frames := s.get pgPlce F.PLCE_MAP_STAT_FRAMES
  let pinned := s.get pgPlce F.PLCE_MAP_PINNED_PINNED
  let w := s.get (pgMgmt 1) F.POL_PC_PC_WINDOW_S * 2000000000
  let es := (s.pol.pcErrs.get n []).filter fun e => decide (s.now - e.1 ≤ w)
  let ces := (es.filter fun e => !e.2).length
  let ues := (es.filter fun e => e.2).length
  if (ces ≤ s.get (pgMgmt 1) F.POL_PC_PC_CE_LIMIT ∧ ues < 2) ∨ s.pol.pcMoving.contains n ∨ s.pcRetired n ∨ s.isDeferred 3 n then s
  else if frames < 294912 + pinned + 1048576 then s.defer 3 n
  else
    let s1 := (s.onPol fun x => { x with pcMoving := insertSorted n x.pcMoving }).syncFrames
    let excess := s1.plce.pages.size - s1.get pgPlce F.PLCE_MAP_STAT_FRAMES
    let dirty := ((s1.plce.lru.reverse.filter fun k => (s1.mapPage k).dirty.isSome && !s1.volPinned (pageVol k)).take excess)
    (dirty.foldl (fun (t : State) k => t.writeBack k) s1).shrinkMap (excess + 1)

/-- A compression or decompression lane (R456). -/
def State.evalCmpr (s : State) (n : Nat) : State :=
  let lim := s.get pgCmpr F.CMPR_ERR_ERR_LIMIT
  if s.laneRetired n ∨ (s.laneErrs s.cmpr.ce n ≤ lim ∧ s.laneErrs s.cmpr.restarts n ≤ lim) then s
  else
    let s1 := s.cmprLaneCtl (2 ^ 31 + if n < 40 then n else 64 + (n - 40))
    s1.when (s1.laneRetired n) (State.count E.MGMT_RETIRE 1)

/-- The sum of every owner's MIN. -/
def State.sumMin (s : State) : Nat := ((List.range 192).map fun o => s.minOf o).sum
/-- A cell bank (R386). -/
def State.evalBank (s : State) (b : Nat) : State :=
  let w := s.get (pgMgmt 1) F.POL_BANK_BANK_WINDOW_S * 2000000000
  let es := (s.cell.bankErrs.get b []).filter fun e => decide (s.now - e.1 ≤ w)
  let ces := (es.filter fun e => !e.2).length
  let ues := (es.filter fun e => e.2).length
  let mine := 32768 - s.cell.cells.count fun i m => m.alloc && decide (i / 32768 = b)
  if s.bankRetired b ∨ (ces ≤ s.get (pgMgmt 1) F.POL_BANK_BANK_CE_LIMIT ∧ ues < 2) ∨ s.isDeferred 2 b then s
  else if s.freeCells - mine < s.sumMin then s.defer 2 b
  else
    let s1 := s.bankCtl (2 ^ 31 + b)
    s1.when (s1.bankRetired b) (State.count E.MGMT_RETIRE 1)

/-- One evaluation, in the order of Table 17.2 (R660). -/
def State.retirement (s0 : State) : State :=
  let s := s0.settleDeferred
  if !s.loopsRun ∨ !s.auto 4 then s
  else
    let s1 := (List.range 24).foldl State.evalDrive s
    let s2 := (List.range 24).foldl State.evalBritos s1
    let s3 := (List.range 64).foldl State.evalPc s2
    let s4 := (List.range 60).foldl State.evalCmpr s3
    (List.range 16).foldl State.evalBank s4
def execRetirementEval (s : State) : Result := .next s.retirement

/-- The lines of a pseudo-channel have moved: not before the frames that go are written back and gone (R659). -/
def State.pcMoved (pc : Nat) (s : State) : State :=
  if !s.pol.pcMoving.contains pc then s
  else
    let s1 := s.shrinkMap (s.plce.pages.size + 1)
    if s1.get pgPlce F.PLCE_MAP_STAT_FRAMES < s1.plce.pages.size then s1
    else ((s1.onPol fun x => { x with pcMoving := x.pcMoving.filter fun n => decide (n ≠ pc) }).retirePc pc).count E.MGMT_RETIRE 1
def execPcRetireComplete (pc : Nat) (s : State) : Result := .next (s.pcMoved pc)

/-! ### Adaptation (R661) -/

def adaptStep (m d target maxMult : Nat) : Nat :=
  if target < d then min maxMult (m + max 1 (m / 8))
  else if 2 * d < target then max 16 (m - max 1 (m / 16))
  else m
def State.adaptLeaf (s : State) (l : Nat) : State :=
  let e := s.tab (pgMgmt 1) 1 l
  let target := bitsOf e 0 32
  if target = 0 then s
  else
    let x := s.tmgr.samples.get l {}
    let s1 := s.onTmgr fun m => { m with samples := m.samples.put l {} x.cleared }
    s1.setMult l (adaptStep (s.mult l) (max x.egrDelayMax x.admDelayMax) target (bitsOf e 32 8))
def execAdaptTick (s : State) : Result :=
  .next (if s.loopsRun ∧ s.auto 6 then (s.fab.tabIndices (pgMgmt 1) false 1).foldl State.adaptLeaf s else s)

/-! ### The throttle (R664, R665) -/

/-- 100 ms have passed: the lowest and highest TJ read in them, and the last one. -/
def State.thermalTick (low high tj : Nat) (s : State) : State :=
  if !s.isOn (pgMgmt 3) then s
  else
    let s1 := s.setF (pgMgmt 3) F.THERM_STAT_TJ (min 255 tj)
    if !s.loopsRun ∨ !s.auto 5 then s1
    else
      let c := s.get (pgMgmt 3) F.THERM_CFG_THROTTLE_C
      let n := s.throttle
      let cool := decide (1 ≤ n ∧ high + s.get (pgMgmt 3) F.THERM_CFG_HYST_C < c + 5 * (n - 1))
      let k := if cool then s.pol.coolTicks + 1 else 0
      if n < 3 ∧ c + 5 * n ≤ low then (s1.setThrottle (n + 1)).onPol fun x => { x with coolTicks := 0 }
      else if 10 ≤ k then (s1.setThrottle (n - 1)).onPol fun x => { x with coolTicks := 0 }
      else s1.onPol fun x => { x with coolTicks := k }
def execThermalTick (low high tj : Nat) (s : State) : Result := .next (s.thermalTick low high tj)

end Sys2Proof.Machine
end

