-- ==== Sys2Proof/Machine/EpExec.lean ====
section
/-!
DEFINITION. The commands of the management endpoint: its link, its power states and resets, MSI-X, the mailbox and the event rings
(chapter 19 of spec/).
-/
namespace Sys2Proof.Machine
open Sys2Proof

/-! ### Link, power states, resets (R702, R709, R710) -/

def State.epLinkDown (s : State) : State := s.onEp fun p => { p with linkUp := false }
/-- The width at which the link trains when n lanes are good (R701). -/
def trainedWidth (n : Nat) : Nat := if 8 ≤ n then 8 else if 4 ≤ n then 4 else if 2 ≤ n then 2 else 1
/-- The link trains: at a rate from 2.5 to 64 GT/s (1 to 6), at a width that its good lanes allow, in FLIT mode at 64 GT/s or where the
upstream port also negotiates it (R701); after a loss, the loss is counted and told (R702). What the training reaches is the upstream port's
and the lanes': a free value (log entry 126). -/
def State.epLinkUp (s : State) : State :=
  if s.fab.ep.linkUp then s
  else
    let x := s.draw
    let r := 1 + x.1 % 6
    let s1 := x.2.onEp fun p => { p with
      linkUp := true, everUp := true, rate := r, width := trainedWidth (1 + x.1 / 8 % 8), flit := decide (r = 6) || bitAt x.1 6 }
    let s2 := if s.fab.ep.everUp then (s1.satAdd (pgMgmt 0) F.EP_STAT_DOWN_COUNT 1).count E.MGMT_EP_LINK_DOWN 1 else s1
    let s3 := if s.fab.ep.everUp then s2.record 6 (s2.get (pgMgmt 0) F.EP_STAT_DOWN_COUNT) else s2
    s3.epResume
/-- PERST#: with the link down its assertion enters D3cold, which its deassertion leaves; with the link up it resets the endpoint
(Table 19.4). -/
def State.epPerst (asserted : Bool) (s : State) : State :=
  let p := s.fab.ep
  if asserted then
    if p.linkUp then (s.epReset true).epLinkDown
    else (s.setF (pgMgmt 0) F.EP_STAT_DSTATE 3).onEp fun q => { q with dstate := .d3cold, wake := q.pmeEn && !q.pba.isEmpty }
  else if p.dstate = .d3cold then (s.epReset true).onEp fun q => { q with wake := false }
  else s
/-- A write of the power management registers: PowerState, PME_En, and a 1 to PME_Status. -/
def State.dstateWrite (d3hot pmeEn clearPme : Bool) (s : State) : State :=
  if s.fab.ep.dstate = .d3cold then s
  else
    let s1 := (s.setF (pgMgmt 0) F.EP_STAT_DSTATE (if d3hot then 3 else 0)).onEp fun p => { p with
      dstate := if d3hot then .d3hot else .d0, pmeEn := pmeEn, pmeStatus := p.pmeStatus && !clearPme }
    s1.epResume

def execEpLinkDown (s : State) : Result := .next s.epLinkDown
def execEpLinkUp (s : State) : Result := .next s.epLinkUp
def execEpPerst (asserted : Bool) (s : State) : Result := .next (s.epPerst asserted)
def execEpFlr (s : State) : Result := .next (s.epReset false)
def execEpDstateChange (d3hot pmeEn clearPme : Bool) (s : State) : Result := .next (s.dstateWrite d3hot pmeEn clearPme)

/-! ### MSI-X (R707, R708) -/

/-- A vector, or the function, is unmasked. -/
def State.msixUnmask (vector : Option Nat) (s : State) : State :=
  let s1 := match vector with
    | none => s.onEp fun p => { p with funcMask := false }
    | some v => if v < 2048 then s.onEp fun p => { p with msix := p.msix.put v {} { p.msix.get v {} with masked := false } } else s
  s1.onFab Fab.msixDrain
def State.msixAddress (v : Nat) (addr : BitVec 64) (data : BitVec 32) (s : State) : State :=
  if v < 2048 then
    (s.onEp fun p => { p with msix := p.msix.put v {} { p.msix.get v {} with addr := addr, data := data } }).onFab Fab.msixDrain
  else s
def State.busMaster (on : Bool) (s : State) : State := (s.onEp fun p => { p with bme := on }).epResume

def execMsixUnmask (vector : Option Nat) (s : State) : Result := .next (s.msixUnmask vector)
def execMsixAddressWrite (vector : Nat) (addr : BitVec 64) (data : BitVec 32) (s : State) : Result := .next (s.msixAddress vector addr data)
def execBusMasterEnable (on : Bool) (s : State) : Result := .next (s.busMaster on)

/-! ### Errors (R703 to R706, R570) -/

/-- A DMA read of the mailbox times out: a request is fetched again, and a command ends with STATUS 2. -/
def State.epTimeout (tag : Nat) (s : State) : State :=
  let p := s.fab.ep
  if !p.dmaOut.contains tag then s
  else
    let (x, s0) := s.draw
    let s1 := ((s0.onEp fun q => { q.endDma tag with tagQuar := insertSorted tag q.tagQuar }).count E.MGMT_EP_CTO 1).aerLog .completionTimeout
      x
    if p.mboxFetch = some tag then (s1.onEp fun q => { q with mboxFetch := none }).mboxKick
    else if (p.mbox.map MboxRun.tag) = some (some tag) then s1.mboxEnd 2 0
    else s1
/-- A completion for a quarantined tag, of a root port or of the endpoint. -/
def State.lateCompletion (bay : Option Nat) (tag : Nat) (s : State) : State :=
  match bay with
  | some b => if b < 24 ∧ (s.bay b).rootQuar.contains tag then s.drvPacket b 3 tag else s
  | none =>
    if s.fab.ep.tagQuar.contains tag then
      let (x, s1) := s.draw
      (s1.aerLog .unexpectedCompletion x).count E.MGMT_EP_LATE_CMPL 1
    else s
def State.quarEnd (bay : Option Nat) (tag : Nat) (s : State) : State :=
  match bay with
  | some b => if b < 24 then s.onBay b fun v => { v with rootQuar := v.rootQuar.filter fun t => decide (t ≠ tag) } else s
  | none => (s.onEp fun p => { p with tagQuar := p.tagQuar.filter fun t => decide (t ≠ tag) }).mboxKick
/-- An error that the link or a TLP brings; what the endpoint finds out by itself comes from its own rules (R704 to R706). -/
def State.tlpError (err : AerErr) (hdr : Nat) (s : State) : State :=
  match err with
  | .correctedInternal | .uncorrectableInternal | .headerLogOverflow | .completionTimeout | .advisoryNonFatal => s
  | e => s.aerLog e hdr

def execEpDmaTimeout (tag : Nat) (s : State) : Result := .next (s.epTimeout tag)
def execPcieUnexpectedCompletion (bay : Option Nat) (tag : Nat) (s : State) : Result := .next (s.lateCompletion bay tag)
def execPcieTagQuarantineEnd (bay : Option Nat) (tag : Nat) (s : State) : Result := .next (s.quarEnd bay tag)
def execEpTlpError (err : AerErr) (hdr : Nat) (s : State) : Result := .next (s.tlpError err hdr)

/-! ### The mailbox (R712 to R714) -/

/-- SIZE_LOG2 of the mailbox rings, and of an event ring, has this range (Table 19.8). -/
def mboxSizeOk (n : Nat) : Bool := decide (2 ≤ n ∧ n ≤ 8)
def ringSizeOk (n : Nat) : Bool := decide (4 ≤ n ∧ n ≤ 12)

/-- A write of `MBOX_CFG`; a SIZE_LOG2 out of range keeps the old one (R15). -/
def State.mboxCfg (w : Nat) (s : State) : State :=
  let n := bitsOf w 0 4
  let s1 := (s.setF (pgMgmt 0) F.MBOX_CFG_EN (bitsOf w 31 1)).setF (pgMgmt 0) F.MBOX_CFG_VECTOR (bitsOf w 16 11)
  (if mboxSizeOk n then s1.setF (pgMgmt 0) F.MBOX_CFG_SIZE_LOG2 n else s1).mboxKick
/-- A write of `MBOX_DB`: an index too far beyond HEAD is ignored (R714). -/
def State.mboxTail (w : Nat) (s : State) : State :=
  let tail := bitsOf w 0 8
  let head := s.get (pgMgmt 0) F.MBOX_STAT_HEAD
  let beyond := if head ≤ tail then tail - head else tail + s.mboxSize - head
  if s.mboxSize - 1 < beyond then s.occur S.MGMT_MBOX_PROTO
  else (s.setF (pgMgmt 0) F.MBOX_DB_TAIL tail).mboxKick
/-- A write of a ring base: ignored while EN = 1 or BUSY = 1 (R714). -/
def State.mboxRingBase (x : Fld) (v : Nat) (s : State) : State :=
  if s.flag (pgMgmt 0) F.MBOX_CFG_EN ∨ s.flag (pgMgmt 0) F.MBOX_STAT_BUSY then s.count E.MGMT_CTL_IGNORED 1 else s.setF (pgMgmt 0) x v

/-- The request at HEAD arrives; after an error completion it is fetched again. -/
def State.mboxFetched (req : MboxReq) (err : Bool) (s : State) : State :=
  match s.fab.ep.mboxFetch with
  | none => s
  | some t =>
    let s1 := s.onEp fun p => { p.endDma t with mboxFetch := none }
    if err ∨ !s.flag (pgMgmt 0) F.MBOX_CFG_EN then s1.mboxKick else s1.mboxArrive req

/-- The command in execution, if it has this opcode and still runs. -/
def State.mboxRuns (s : State) (op : Nat) : Option MboxRun := match s.fab.ep.mbox with
  | some m => if m.req.opcode = op ∧ !m.executed ∧ !m.held then some m else none
  | none => none

/-- The bytes of GET_INFO (R713). -/
def State.infoBytes (s : State) : Blob :=
  let ver := fun (k : Nat) => if s.imageValid k then s.imageVersion k else 0
  ⟨64, Config.serial.toNat + (s.fab.reg 0).toNat * 2 ^ 64 + (s.fab.reg 4).toNat * 2 ^ 96 + ver 0 * 2 ^ 128 + ver 1 * 2 ^ 160
    + s.get (pgMgmt 3) F.FW_STAT_RUNNING_SLOT * 2 ^ 192⟩
def State.getInfo (s : State) : State := match s.mboxRuns 1 with
  | some _ => s.mboxData s.infoBytes
  | none => s

/-- A range of a slot takes bytes. -/
def State.slotPut (m : MboxRun) (val : Nat) (s : State) : State :=
  s.onPol fun p => { p with flash := flashPut (toBytes m.req.dataLen val) (slotBase m.req.slotBay + m.req.offset) p.flash }
/-- SLOT_WRITE: after an error the range holds free bytes; so it does where the endpoint's reset took the data (R711). -/
def State.slotWrite (data : Blob) (dmaErr flashErr : Bool) (s : State) : State := match s.mboxRuns 2 with
  | none => s
  | some m =>
    let s1 := match m.tag with
      | some t => s.onEp (EpSt.endDma t)
      | none => s
    if m.orphan ∨ dmaErr ∨ flashErr then
      let (x, s2) := s1.draw
      (s2.slotPut m x).mboxEnd (if m.orphan ∨ dmaErr then 2 else 6) 0
    else (s1.slotPut m data.val).mboxEnd 0 0
def State.slotRead (s : State) : State := match s.mboxRuns 3 with
  | some m => s.mboxData ⟨m.req.dataLen, s.flashBytes (slotBase m.req.slotBay + m.req.offset) m.req.dataLen⟩
  | none => s
/-- SMBUS_XFER: refused without ownership (R584); the device may not acknowledge. -/
def State.smbusXfer (ack : Bool) (rdata : Nat) (s : State) : State := match s.mboxRuns 4 with
  | none => s
  | some m =>
    if !s.owned then s.mboxEnd 5 0
    else
      let s1 := s.emit (.smbus m.req.slotBay m.req.smbAddr ⟨m.req.wlen, m.req.wdata % 2 ^ (8 * m.req.wlen)⟩ m.req.rlen)
      if ack then s1.mboxData ⟨m.req.rlen, rdata % 2 ^ (8 * m.req.rlen)⟩ else s1.mboxEnd 4 0

def execMboxEnable (value : BitVec 32) (s : State) : Result :=
  .next (s.mboxCfg value.toNat)
def execMboxTailWrite (value : BitVec 32) (s : State) : Result := .next (s.mboxTail value.toNat)
def execMboxFetchComplete (req : MboxReq) (err : Bool) (s : State) : Result := .next (s.mboxFetched req err)
def execGetInfo (s : State) : Result := .next s.getInfo
def execSlotWrite (data : Blob) (dmaErr flashErr : Bool) (s : State) : Result := .next (s.slotWrite data dmaErr flashErr)
def execSlotRead (s : State) : Result := .next s.slotRead
def execSmbusXfer (ack : Bool) (rdata : Nat) (s : State) : Result := .next (s.smbusXfer ack rdata)
def execMboxComplete (s : State) : Result := .next s.mboxComplete

/-! ### The event rings (R715, R716) -/

/-- A write of `EVR_HEAD`: it frees space, which held records take (R716). -/
def State.evrHead (n w : Nat) (s : State) : State := (s.setF (pgMgmt 0) (F.EVR_HEAD_HEAD.idx n) (bitsOf w 0 12)).epService
/-- A write of `EVR_CFG`: setting EN clears SEQ, TAIL and LOST; bit 7 of TYPE_MASK is fixed at 1. -/
def State.evrCfg (n w : Nat) (s : State) : State :=
  let p := pgMgmt 0
  let z := bitsOf w 0 4
  let fresh := bitAt w 31 && !s.flag p (F.EVR_CFG_EN.idx n)
  let s1 := ((s.setF p (F.EVR_CFG_EN.idx n) (bitsOf w 31 1)).setF p (F.EVR_CFG_VECTOR.idx n) (bitsOf w 16 11)).setF p
    (F.EVR_CFG_TYPE_MASK.idx n) (withBits (bitsOf w 8 8) 7 1 1)
  let s2 := if ringSizeOk z then s1.setF p (F.EVR_CFG_SIZE_LOG2.idx n) z else s1
  let s3 := if fresh then ((s2.onFab (Fab.setRing n {})).setF p (F.EVR_STAT_TAIL.idx n) 0).setF p (F.EVR_STAT_LOST.idx n) 0 else s2
  s3.epService

def execEventRecordPost (type payload : Nat) (s : State) : Result :=
  .next (s.when (decide (1 ≤ type ∧ type ≤ 7)) (State.record type (payload % 2 ^ 128)))
def execEvrHeadWrite (ring : Nat) (value : BitVec 32) (s : State) : Result := .next (if ring < 4 then s.evrHead ring value.toNat else s)
def execEvrEnable (ring : Nat) (value : BitVec 32) (s : State) : Result := .next (if ring < 4 then s.evrCfg ring value.toNat else s)

end Sys2Proof.Machine
end

