-- ==== Sys2Proof/Machine/FabExec.lean ====
section
/-!
DEFINITION. The register fabric's commands: reads and writes of BAR0, BAR2 and BAR4, and the fault and counter registers (chapters 02 and
18 of spec/).
-/
namespace Sys2Proof.Machine
open Sys2Proof

/-! ### Where an access lands (R50 to R56, R65, R85) -/

/-- A read-only field whose value the page's state gives. -/
def roField (name : String) (lo w : Nat) : RegField := ⟨name, lo, w, .ro, [0], .any⟩
def woField (name : String) (lo w : Nat) : RegField := ⟨name, lo, w, .wo, [0], .any⟩
def rwField (name : String) (lo w : Nat) : RegField := ⟨name, lo, w, .rw, [0], .any⟩
/-- The common page registers (Table 2.10); the halves of a 64-bit register stand apart. -/
def regsCommon : List RegDef := [
  ⟨"PG_ID", 0x0000, 4, 1, true, [roField "BLOCK" 24 8, roField "INST" 16 8, roField "TYPE" 0 16]⟩,
  ⟨"PG_CTL", 0x0010, 4, 1, true, [woField "RETIRE" 3 1, woField "SOFT_RESET" 2 1, woField "DRAIN" 1 1, woField "ENABLE" 0 1]⟩,
  ⟨"PG_STAT", 0x0014, 4, 1, true, [roField "FAIL_CAUSE" 12 4, roField "RETIRE_CAUSE" 8 4, roField "TO_RETIRE" 4 1,
    roField "PEND_EN" 3 1, roField "STATE" 0 3]⟩,
  ⟨"SHD_STAT", 0x0020, 4, 1, true, [roField "SHD_DIRTY" 0 1]⟩,
  ⟨"SHD_STAT_HI", 0x0024, 4, 1, true, [roField "LAST_EPOCH" 0 32]⟩,
  ⟨"FLT_STICKY", 0x0100, 4, 8, true, [⟨"SRC", 0, 32, .w1c, [0], .any⟩]⟩,
  ⟨"FLT_MASK", 0x0120, 4, 8, true, [rwField "MASK" 0 32]⟩,
  ⟨"FLT_SEV", 0x0140, 4, 16, true, [⟨"SEV", 0, 32, .rw, [0], .pairs⟩]⟩,
  ⟨"FLT_FORCE", 0x0180, 4, 8, true, [woField "FORCE" 0 32]⟩,
  ⟨"CNT_SEL", 0x0200, 4, 8, true, [rwField "FREEZE" 14 1, rwField "USER" 13 1, rwField "EN" 12 1, rwField "EVENT" 0 12]⟩,
  ⟨"CNT_VAL", 0x0240, 8, 8, true, [rwField "VALUE" 0 32]⟩,
  ⟨"CNT_VAL_HI", 0x0244, 8, 8, true, [rwField "VALUE" 0 16]⟩]
/-- A table window (Table 2.15), from its base. -/
def regsWindow : List RegDef := [
  ⟨"TBL_ADDR", 0x00, 4, 1, true, [rwField "CHUNK" 24 5, rwField "INDEX" 0 24]⟩,
  ⟨"TBL_DATA", 0x10, 4, 8, true, [rwField "DATA" 0 32]⟩,
  ⟨"TBL_CMD", 0x40, 4, 1, true, [roField "BUSY" 31 1, roField "STATUS" 28 3, rwField "SET" 12 1, rwField "OP" 8 3, rwField "TABLE" 0 8]⟩]

/-- The parts of a page (Table 2.9). -/
inductive Area
  | plain | active | window | shadow
deriving DecidableEq, Repr

/-- The register of a list at an offset. -/
def regIn (l : List RegDef) (off : Nat) : Option (RegDef × Nat) := l.findSome? fun d => (d.at off).map fun n => (d, n)
/-- The register at a page offset (R65). -/
def regAt (p : Page) (off : Nat) : Option (Area × RegDef × Nat) :=
  if p.blk = .dev then (findReg .dev off).map fun x => (.plain, x)
  else if off < 0x400 then (regIn regsCommon off).map fun x => (.plain, x)
  else if off < 0x1000 then (findReg p.kind off).map fun x => (.plain, x)
  else if off < 0x8000 then (findReg p.kind off).map fun x => (.active, x)
  else if off < 0x9000 then (regIn regsWindow (off % 0x800)).map fun x => (.window, x)
  else (findReg p.kind (off - 0x8000)).map fun x => (.shadow, x)
/-- The base of a 64-bit register (R54). -/
def isWide (p : Page) (off : Nat) : Bool :=
  decide (p.blk ≠ .dev) && (decide (off = 0x20) || (decide (0x240 ≤ off ∧ off < 0x280) && decide (off % 8 = 0)))
/-- The access is none of those that R56 lists as undefined. -/
def accessOk (rq : Requester) (a bytes : Nat) : Bool := match Page.ofAddr a with
  | none => false
  | some p =>
    let off := a % 0x10000
    match regAt p off with
    | none => false
    | some (area, _, _) => (decide (bytes = 4) || decide (bytes = 8) && isWide p off) &&
      (decide (area ≠ .window) || decide (rq = if off < 0x8800 then .mgmt else .core))

/-! ### Reads -/

/-- A word of BAR0 as it reads now; WO and RSV fields read 0 (R17). -/
def State.regWord (s : State) (a : Nat) : Word :=
  let off := a % 0x10000
  match Page.ofAddr a with
  | none => 0
  | some p =>
    if p.blk = .dev then s.fab.reg a
    else if off = 0x00 then p.idWord
    else if off = 0x14 then (s.fab.page p).stat
    else if off = 0x20 then BitVec.ofNat 32 (boolNat (s.fab.page p).shdDirty)
    else if off = 0x24 then (s.fab.page p).lastEpoch
    else if 0x240 ≤ off ∧ off < 0x280 then
      BitVec.ofNat 32 ((s.fab.cnt p ((off - 0x240) / 8)).toNat / 2 ^ (if off % 8 < 4 then 0 else 32))
    else if p = pgMgmt 2 ∧ 0x400 ≤ off ∧ off < 0x480 then s.fab.fltSum ((off - 0x400) / 4)
    else if p = pgMgmt 2 ∧ off = 0x480 then
      BitVec.ofNat 32 ((List.range 3).map fun c => boolNat (s.fab.classPending c) * 2 ^ c).sum
    else if p = pgJrnl ∧ 0x400 ≤ off ∧ off < 0x41C then s.syncJrnl.fab.reg a
    else if p = pgGrp 0 ∧ off = F.PTP_TIME_NS_NS.off then BitVec.ofNat 32 (s.ptp.half / 2)
    else s.fab.reg a

/-- The page and the counter of a BAR2 slot (R52). -/
def bar2Slot (a : Nat) : Option (Page × Nat) :=
  match allBlks.find? fun b => decide (b.idx = a / 0x10000 + 1) with
  | none => none
  | some b =>
    let i := a % 0x10000 / 0x40
    if i < b.instances then some (⟨b, i⟩, a % 0x40 / 8) else none
/-- A BAR2 slot: the counter, while its USER is 1 (R52, R53, R696). -/
def State.bar2Word (s : State) (a : Nat) : Nat := match bar2Slot a with
  | none => 0
  | some (p, k) => if getBits (s.fab.reg (p.base + 0x200 + 4 * k)) 13 1 = 1 then (s.fab.cnt p k).toNat else 0

/-- BAR accesses need the link and D0 (Table 19.4). -/
def State.barOpen (s : State) (rq : Requester) : Bool := decide (rq = .core) || decide (s.fab.ep.dstate = .d0)
/-- An access in another state receives Unsupported Request. -/
def State.barAccess (rq : Requester) (g : State → State) (s : State) : State :=
  if s.barOpen rq then g s
  else
    let (x, s1) := s.draw
    s1.aerLog .unsupportedRequest x
/-- The upper half of a 64-bit read is kept for its requester (R55). -/
def State.latch (rq : Requester) (key : Nat) (v : Word) (s : State) : State := s.onFab fun f => match rq with
  | .mgmt => { f with latchM := f.latchM.set key v }
  | .core => { f with latchC := f.latchC.set key v }
/-- The upper half that the next read of it by a requester returns. -/
def State.latched (s : State) (rq : Requester) (key : Nat) : Option Word := match rq with
  | .mgmt => s.fab.latchM.find key
  | .core => s.fab.latchC.find key
/-- Where BAR2's latches stand beside those of BAR0. -/
def bar2Key (a : Nat) : Nat := 0x20000000 + a

/-- A 32-bit read of the lower half of a 64-bit register, or of a BAR2 slot (R55, R696). -/
def State.lowerRead (rq : Requester) (bar : Bar) (a : Nat) (s : State) : State :=
  match bar with
  | .bar0 => match Page.ofAddr a with
    | none => s
    | some p => if isWide p (a % 0x10000) then (s.latch rq a (s.regWord (a + 4))).emit (.readData rq a (s.regWord a).toNat) else s
  | .bar2 =>
    if rq = .mgmt ∧ a % 8 = 0 ∧ a < 0x100000 then
      let x := s.bar2Word a
      (s.latch rq (bar2Key a) (BitVec.ofNat 32 (x / 2 ^ 32))).emit (.readData rq a (x % 2 ^ 32))
    else s
  | .bar4 => s

/-- An undefined access (R56). -/
def State.undefAccess (a : Nat) (isWrite : Bool) (s : State) : State :=
  let s1 := (s.occur S.MGMT_REG_UNDEF).count E.MGMT_REG_UNDEF 1
  if s.get pgDev F.ACC_ERR_VALID = 0 then
    (s1.setF pgDev F.ACC_ERR_ADDR (a / 4)).setF pgDev F.ACC_ERR_VALID (if isWrite then 2 else 1)
  else s1
def State.undefRead (rq : Requester) (a : Nat) (s : State) : State := (s.undefAccess a false).emit (.readData rq a 0)

/-- The register has a WO field. -/
def RegDef.hasWo (d : RegDef) : Bool := d.fields.any fun f => decide (f.acc = .wo)
/-- A word of the register with its WO fields 0. -/
def RegDef.woClear (d : RegDef) (x : Word) : Word :=
  d.fields.foldl (fun y f => if f.acc = .wo then setBits y f.lo f.w 0 else y) x
/-- A read of a register with a WO field (R58). -/
def State.woRead (rq : Requester) (a : Nat) (s : State) : State :=
  match (Page.ofAddr a).bind fun p => regAt p (a % 0x10000) with
  | some (_, d, _) =>
    if d.hasWo then (s.emit (.readData rq a (d.woClear (s.regWord a)).toNat)).count E.MGMT_REG_WO_READ 1 else s
  | none => s

/-- A read of a register with RC fields: its value, and then these fields are clear (R17). -/
def State.rcRead (rq : Requester) (p : Page) (fields : List Fld) (s : State) : State :=
  let a := p.base + (fields.map Fld.off).sum / fields.length
  fields.foldl (fun t x => t.setF p x 0) (s.emit (.readData rq a (s.regWord a).toNat))

def execUndefinedAccess (rq : Requester) (addr bytes : Nat) (isWrite : Bool) (s : State) : Result :=
  .next (s.barAccess rq fun t => if accessOk rq addr bytes then t else if isWrite then t.undefAccess addr true else t.undefRead rq addr)
def execWoFieldRead (rq : Requester) (addr : Nat) (s : State) : Result := .next (s.barAccess rq (State.woRead rq addr))
def execReg64LowerRead (rq : Requester) (bar : Bar) (addr : Nat) (s : State) : Result := .next (s.barAccess rq (State.lowerRead rq bar addr))
def execAccErrRead (rq : Requester) (s : State) : Result :=
  .next (s.barAccess rq (State.rcRead rq pgDev [F.ACC_ERR_ADDR, F.ACC_ERR_VALID]))
def execMissqStatRead (rq : Requester) (s : State) : Result := .next (s.barAccess rq (State.rcRead rq pgXprt [F.MISSQ_STAT_MAX]))
def execCmdqMaxuseRead (rq : Requester) (s : State) : Result := .next (s.barAccess rq (State.rcRead rq pgCmdq [F.CMDQ_MAXUSE_MAX]))
def execVatMaxqRead (rq : Requester) (s : State) : Result :=
  .next (s.barAccess rq fun t => (t.rcRead rq pgVat [F.VAT_MAXQ_MAX]).onVat fun v => { v with maxQ := 0 })
def execCellMinfreeRead (rq : Requester) (s : State) : Result :=
  .next (s.barAccess rq fun t => (t.rcRead rq pgCell [F.CELL_MINFREE_MIN]).onCell fun c => { c with minSeen := none })
def execPairCkptAgeRead (rq : Requester) (s : State) : Result := .next (s.barAccess rq (State.rcRead rq pgPair [F.PAIR_CKPT_AGE_MAX_US]))

/-! ### Faults (R676 to R690) -/

/-- Sources of one page go from 0 to 1 in one cycle: each is captured, the page reacts, one message leaves for each vector. -/
def State.raise (p : Page) (l : List Src) (s : State) : State :=
  let new := l.filter fun x => x.implemented && !s.fab.sticky x
  let s1 := new.foldl (fun (t : State) x => (t.onFab fun f =>
    f.setReg (stickyAddr p x.loc) (setBits (f.reg (stickyAddr p x.loc)) (x.loc % 32) 1 1)).count E.MGMT_FLT_CAPTURE 1) s
  let s2 := if new.any fun x => decide (s.fab.severity x = 2 ∨ x.defaultClass = 2) then s1.pageAct p .fatal else s1
  s2.onFab fun f => f.faultMessages (new.filter f.isPending)

/-- An uncorrectable error in the frame of a map page (R484): clean, it is read again; dirty, the entries of its 64 bytes are DAMAGED. -/
def State.mapUe (k group : Nat) (s : State) : State :=
  if !s.pageCached k then s
  else
    let x := s.mapPage k
    if x.dirty.isNone ∧ x.wb.isNone then
      ((s.onPlce fun q => { q with pages := q.pages.erase k, lru := q.lru.filter fun j => decide (j ≠ k) }).lookupPage k 0).2.syncMap
    else
      let lun := pageNo k * 512 + 8 * (group % 64)
      ((List.range 8).foldl (fun (t : State) i => t.commitEntry (pageVol k) (lun + i) entDamaged 0) s).unitErr (pageVol k) lun 8 1
/-- An uncorrectable error in a command slot's entry (R247). -/
def State.slotUe (n : Nat) (s : State) : State := match s.slot n with
  | none => s
  | some x => if x.state = .committed ∨ x.state = .completed then s
    else (((s.dropPieces n).setSlot n { x with orphan := s.slotBusy n }).commitSlot n (cplErr 0 6)).releaseRecs
/-- An uncorrectable error in a connection's key slot (R206). -/
def State.keySlotUe (i : Nat) (s : State) : State := if (s.ctx i).state = .ready then s.enterError i 11 else s
/-- An error of a pseudo-channel, for its retirement count and its event (Tables 17.2, 18.7). -/
def State.hbmErr (k : Nat) (ue : Bool) (s : State) : State :=
  s.onPol fun p => { p with pcErrs := p.pcErrs.set k ((s.now, ue) :: p.pcErrs.get k []) }

/-- What a source's occurrence does in its block where no other command brings it about; `item` is the slot, connection, or map page × 64
and 64-byte group that it names. -/
def State.faultEffect (x : Src) (item : Nat) (s : State) : State :=
  match x.page.blk, x.page.inst, x.loc with
  | .gard, 1, 2 => s.keySlotUe item
  | .cmdq, 0, 1 => s.slotUe item
  | .plce, 0, 1 => s.mapUe (item / 64) (item % 64)
  | .mgmt, 0, 1 =>
    let (h, s1) := s.draw
    s1.aerLog .uncorrectableInternal h
  | .mgmt, 2, n =>
    if n < 64 then (s.hbmErr n false).count E.MGMT_HBM_CE 1
    else if n < 128 then (s.hbmErr (n - 64) true).count E.MGMT_HBM_UE 1
    else s.hbmErr (n - 128) true
  | _, _, _ => s

/-- An occurrence (R676, R677). -/
def State.faultOccur (p : Page) (loc item : Nat) (s : State) : State :=
  if Page.common p && (Src.mk p loc).implemented then (s.raise p [⟨p, loc⟩]).faultEffect ⟨p, loc⟩ item else s

/-- The local sources that the bits of one register name. -/
def srcsOf (p : Page) (n w : Nat) : List Src := ((List.range 32).filter (bitAt w)).map fun j => ⟨p, 32 * n + j⟩
/-- The bits of a register that stand for implemented positions. -/
def implBits (p : Page) (n : Nat) : Nat := ((List.range 32).map fun j => boolNat (Src.mk p (32 * n + j)).implemented * 2 ^ j).sum

/-- A force bit acts on this position (R686, R688, R689). -/
def State.mayForce (s : State) (x : Src) : Bool :=
  x.implemented && (x.privileged || s.flag (pgMgmt 2) F.FLT_TEST_STAT_FACTORY)
/-- A write of `FLT_FORCEn` (R687, R688). -/
def State.fltForce (p : Page) (n w : Nat) (s : State) : State :=
  let l := srcsOf p n w
  let s1 := if l.all s.mayForce then s else s.count E.MGMT_FORCE_DENIED 1
  s1.raise p (l.filter s.mayForce)
/-- A write of `FLT_STICKYn`; where an occurrence meets the clear, the bit stays 1 (R60). -/
def State.stickyClear (p : Page) (n w meets : Nat) (s : State) : State :=
  let a := p.base + 0x100 + 4 * n
  (s.raise p (srcsOf p n meets)).onFab fun f =>
    f.setReg a (f.reg a &&& ~~~(BitVec.ofNat 32 w &&& ~~~(BitVec.ofNat 32 meets)))
/-- A write of `FLT_MASKn`: what it lets through becomes pending (R682); an occurrence in the same cycle makes no second message (R685). -/
def State.maskWrite (p : Page) (n w meets : Nat) (s : State) : State :=
  let a := p.base + 0x120 + 4 * n
  let s1 := s.raise p (srcsOf p n (meets &&& (s.fab.reg a).toNat))
  let open_ := (srcsOf p n ((s.fab.reg a).toNat &&& (implBits p n - (w &&& implBits p n)))).filter s1.fab.sticky
  ((s1.onFab (Fab.setReg a (BitVec.ofNat 32 (w &&& implBits p n)))).onFab (Fab.faultMessages open_)).raise p
    (srcsOf p n (meets - (meets &&& (s.fab.reg a).toNat)))
/-- A write of `FLT_SEVn`: 0b11 leaves a field as it is (R66); no message leaves (R683). -/
def State.sevWrite (p : Page) (n w : Nat) (s : State) : State :=
  let a := p.base + 0x140 + 4 * n
  s.onFab (Fab.setReg a ((List.range 16).foldl (fun x j =>
    if (Src.mk p (16 * n + j)).implemented ∧ bitsOf w (2 * j) 2 ≠ 3 then setBits x (2 * j) 2 (bitsOf w (2 * j) 2) else x) (s.fab.reg a)))
/-- A write of `DEV.FACTORY_KEY` (R689). -/
def State.factoryKey (w : Nat) (s : State) : State :=
  let p := pgMgmt 2
  if !s.flag p F.FLT_TEST_STAT_STRAP ∨ s.flag p F.FLT_TEST_STAT_LOCKED then s
  else if w = Config.factoryKey.toNat then s.setF p F.FLT_TEST_STAT_FACTORY 1
  else
    let s1 := (s.onFab fun f => { f with factoryBad := f.factoryBad + 1 }).count E.MGMT_FACTORY_KEY_BAD 1
    if 3 ≤ s.fab.factoryBad + 1 then s1.setF p F.FLT_TEST_STAT_LOCKED 1 else s1
/-- A write of `CNT_GLOBAL` (R693). -/
def State.cntGlobal (clear freeze : Bool) (s : State) : State :=
  (s.setF (pgMgmt 2) F.CNT_GLOBAL_FREEZE_ALL (boolNat freeze)).onFab fun f => if clear then { f with cnts := {} } else f

def execFaultOccurrence (page : Page) (loc item : Nat) (s : State) : Result := .next (s.faultOccur page loc item)
def execFaultForce (page : Page) (n : Nat) (value : BitVec 32) (s : State) : Result :=
  .next (if Page.common page ∧ n < 8 then s.fltForce page n value.toNat else s)
def execFaultStickyClear (page : Page) (n : Nat) (value meets : BitVec 32) (s : State) : Result :=
  .next (if Page.common page ∧ n < 8 then s.stickyClear page n value.toNat meets.toNat else s)
def execFaultMaskWrite (page : Page) (n : Nat) (value meets : BitVec 32) (s : State) : Result :=
  .next (if Page.common page ∧ n < 8 then s.maskWrite page n value.toNat meets.toNat else s)
def execFaultSevWrite (page : Page) (n : Nat) (value : BitVec 32) (s : State) : Result :=
  .next (if Page.common page ∧ n < 16 then s.sevWrite page n value.toNat else s)
def execFactoryKeyWrite (value : BitVec 32) (s : State) : Result := .next (s.factoryKey value.toNat)
def execCounterClearAll (freeze : Bool) (s : State) : Result := .next (s.cntGlobal true freeze)
def execCounterFreezeAll (freeze : Bool) (s : State) : Result := .next (s.cntGlobal false freeze)

/-! ### Writes (R15, R17, R57, R59, R62, R81, R86, R691) -/

/-- The field takes the value (R12, R15). -/
def Valid.allows : Valid → Nat → Bool
  | .any, _ => true
  | .enum l, v => l.contains v
  | .range lo hi, v => decide (lo ≤ v ∧ v ≤ hi)
  | .pairs, v => (List.range 16).all fun j => decide (bitsOf v (2 * j) 2 ≠ 3)
/-- A field after a write of its register. -/
def RegField.write (f : RegField) (w cur : Nat) (x : Word) : Word :=
  let v := bitsOf w f.lo f.w
  match f.acc with
  | .rw => if f.valid.allows v then setBits x f.lo f.w v else x
  | .w1c => setBits x f.lo f.w (bitsOf cur f.lo f.w - (bitsOf cur f.lo f.w &&& v))
  | _ => x
/-- Some RO field would change (R57). -/
def RegDef.roDiffers (d : RegDef) (w cur : Nat) : Bool :=
  d.fields.any fun f => decide (f.acc = .ro ∧ bitsOf w f.lo f.w ≠ bitsOf cur f.lo f.w)
/-- RW and W1C fields take a write. -/
def State.plainWrite (d : RegDef) (a w : Nat) (s : State) : State :=
  s.onFab fun f => f.setReg a (d.fields.foldl (fun x r => r.write w (f.reg a).toNat x) (f.reg a))

/-- A write of a shadow offset (R62, R73, R81, R639). -/
def State.shadowWrite (rq : Requester) (p : Page) (d : RegDef) (a w : Nat) (s : State) : State :=
  if rq = .core then s.count E.MGMT_CORE_DENIED 1
  else if s.isStandby then s.count E.MGMT_CTL_IGNORED 1
  else if s.swapBusy then s.shadowDrop
  else (s.onFab fun f => f.setReg a (d.fields.foldl (fun x r => setBits x r.lo r.w (bitsOf w r.lo r.w)) (f.reg a))).shadowEdited p

/-- A write of a table window (R86). -/
def State.windowWrite (rq : Requester) (p : Page) (d : RegDef) (a w : Nat) (s : State) : State :=
  if getBits (s.fab.reg (winBase p rq + F.TBL_CMD_BUSY.off)) 31 1 = 1 then s.count E.MGMT_TBL_BUSY 1
  else if a = winBase p rq + F.TBL_CMD_BUSY.off then
    ((s.when (d.roDiffers w (s.regWord a).toNat) (State.count E.MGMT_REG_RO_WRITE 1)).when (decide (4 ≤ bitsOf w 8 3))
      (State.count E.MGMT_CTL_IGNORED 1)).tblCmd rq p (bitsOf w 8 3) (bitAt w 12) (bitsOf w 0 8)
  else s.plainWrite d a w

/-- A write of `CNT_SELk` (R691). -/
def State.cntSel (p : Page) (a w : Nat) (s : State) : State :=
  let ev := bitsOf w 0 12
  let ok := (evtRows p.kind).any fun r => decide (r.1 ≤ ev ∧ ev < r.1 + r.2)
  s.onFab fun f => f.setReg a (setBits (BitVec.ofNat 32 (bitsOf w 12 3 * 2 ^ 12)) 0 12 (if ok then ev else getBits (f.reg a) 0 12))
/-- A write of half a counter, or of a whole one (R61, R65). -/
def State.cntLoad (p : Page) (k v : Nat) (s : State) : State :=
  s.onFab fun f => { f with cnts := f.cnts.put (cntKey p k) 0 (BitVec.ofNat 48 v) }

/-- The registers at 0x0000 to 0x03FF of a block page. -/
def State.commonWrite (p : Page) (d : RegDef) (off w : Nat) (s : State) : State :=
  let n := (off % 0x20) / 4
  let k := (off - 0x240) / 8
  let c := (s.fab.cnt p k).toNat
  if off = 0x10 then s.pgCtl p w
  else if off < 0x100 then s
  else if off < 0x120 then s.stickyClear p n w 0
  else if off < 0x140 then s.maskWrite p n w 0
  else if off < 0x180 then s.sevWrite p ((off - 0x140) / 4) w
  else if off < 0x200 then s.fltForce p n w
  else if off < 0x240 then s.cntSel p (p.base + off) w
  else if off % 8 = 0 then s.cntLoad p k (withBits c 0 32 w)
  else s.plainWrite { d with fields := [] } (p.base + off) w |>.cntLoad p k (withBits c 32 16 w)

/-- A command field holds a reserved encoding: nothing starts, and the write is counted (R15). -/
def State.reservedOp (s : State) : State := s.count E.MGMT_CTL_IGNORED 1
def State.keyOpWrite (w : Nat) (s : State) : State :=
  if s.flag pgKeys F.KEY_OP_STAT_BUSY then s.count E.MGMT_CTL_IGNORED 1
  else if bitsOf w 29 2 ≠ 1 then s.reservedOp
  else if bitAt w 31 then s.keyRetire (bitsOf w 0 20) else s
def State.regionOpWrite (w : Nat) (s : State) : State :=
  if s.flag pgRegn F.REGN_OP_STAT_BUSY then s.count E.MGMT_CTL_IGNORED 1
  else if bitsOf w 29 2 ≠ 1 then s.reservedOp
  else if bitAt w 31 then s.regionRetireWrite (bitsOf w 0 16) else s
def State.poolOpWrite (p w : Nat) (s : State) : State :=
  let op := bitsOf w 28 3
  if (s.pool p).busy then s.count E.MGMT_CTL_IGNORED 1
  else if op = 0 ∨ 5 < op then s.reservedOp
  else if bitAt w 31 then s.poolOp p op (bitsOf w 0 5) else s
/-- A write of `BAY_RT` (R572). -/
def State.bayRt (b w : Nat) (s : State) : State :=
  let s1 := s.when (bitAt w 0 && s.isOn (pgDrvp b) && decide ((s.bay b).resetLevel = 0)) (State.driveReset b 1)
  s1.when (bitAt w 1 && s1.isOn (pgDrvp b) && decide ((s1.bay b).resetLevel < 2)) (State.driveReset b 2)

/-- The runtime controls of the blocks, at 0x0400 to 0x0FFF. -/
def State.blockWrite (p : Page) (d : RegDef) (off w : Nat) (s : State) : State :=
  match p.kind, off with
  | .grp0, 0x410 => (s.restorePorts p.inst (bitsOf w 1 4)).when (bitAt w 0) (State.announce p.inst)
  | .grp, 0x410 => (s.restorePorts p.inst (bitsOf w 1 4)).when (bitAt w 0) (State.announce p.inst)
  | .grp0, 0x420 => s.todWrite w
  | .xprt, 0x410 => s.xprtCloseWrite w
  | .gard0, 0x400 => s.keyOpWrite w
  | .regn, 0x410 => s.regionOpWrite w
  | .tmgr, 0x414 => s.meterAck w
  | .cell, 0x410 => s.bankCtl w
  | .cmpr, 0x410 => s.cmprLaneCtl w
  | .plce, 0x420 => s.volOp w
  | .pool, 0x420 => s.poolOpWrite p.inst w
  | .drvp, 0x410 => s.bayRt p.inst w
  | .pair, 0x410 => s.pairRt w
  | .mgmt3, 0x410 => s.fwCtl w
  | .mgmt2, 0x4A0 => s.cntGlobal (bitAt w 1) (bitAt w 0)
  | .mgmt0, 0x410 => s.mboxRingBase F.MBOX_RQ_LO_ADDR (bitsOf w 6 26)
  | .mgmt0, 0x414 => s.mboxRingBase F.MBOX_RQ_HI_ADDR w
  | .mgmt0, 0x418 => s.mboxRingBase F.MBOX_CQ_LO_ADDR (bitsOf w 6 26)
  | .mgmt0, 0x41C => s.mboxRingBase F.MBOX_CQ_HI_ADDR w
  | .mgmt0, 0x420 => s.mboxCfg w
  | .mgmt0, 0x424 => s.mboxTail w
  | .mgmt0, n =>
    if 0x440 ≤ n ∧ n < 0x480 then
      if n % 16 = 8 then s.evrCfg ((n - 0x440) / 16) w
      else if n % 16 = 12 then s.evrHead ((n - 0x440) / 16) w
      else s.plainWrite d (p.base + off) w
    else s.plainWrite d (p.base + off) w
  | _, _ => s.plainWrite d (p.base + off) w

/-- The DEV page (R63, R62, R689). -/
def State.devWrite (rq : Requester) (d : RegDef) (off w : Nat) (s : State) : State :=
  if off = 0x10 then if rq = .core then s.count E.MGMT_CORE_DENIED 1 else s.swapCtl w
  else if off = 0x100 then s.factoryKey w
  else s.plainWrite d off w

/-- A 32-bit write of a defined register. -/
def State.write32 (rq : Requester) (p : Page) (off w : Nat) (s : State) : State :=
  let a := p.base + off
  match regAt p off with
  | none => s
  | some (.shadow, d, _) => s.shadowWrite rq p d a w
  | some (.active, _, _) => s
  | some (.window, d, _) => s.windowWrite rq p d a w
  | some (.plain, d, _) =>
    let s1 := s.when (d.roDiffers w (s.regWord a).toNat) (State.count E.MGMT_REG_RO_WRITE 1)
    if p.blk = .dev then s1.devWrite rq d off w
    else if off < 0x400 then s1.commonWrite p d off w
    else s1.blockWrite p d off w
/-- A 64-bit write of `SHD_STAT`, which is read-only, or of a counter. -/
def State.write64 (p : Page) (off : Nat) (w : BitVec 64) (s : State) : State :=
  if off = 0x20 then
    s.when (decide (bitsOf w.toNat 0 1 ≠ (s.regWord (p.base + off)).toNat ∨ w.toNat / 2 ^ 32 ≠ (s.regWord (p.base + off + 4)).toNat))
      (State.count E.MGMT_REG_RO_WRITE 1)
  else s.cntLoad p ((off - 0x240) / 8) w.toNat

/-- A write of BAR4: the MSI-X table; the PBA is read-only (R700, R707). -/
def State.msixWrite (a : Nat) (wide : Bool) (w : BitVec 64) (s : State) : State :=
  let v := a / 16
  let e := s.fab.msixEntry v
  let lo := w.toNat % 2 ^ 32
  let hi := w.toNat / 2 ^ 32
  let word := fun (i x : Nat) (m : MsixEntry) => match i with
    | 0 => { m with addr := BitVec.ofNat 64 (withBits m.addr.toNat 0 32 (x - x % 4)) }
    | 1 => { m with addr := BitVec.ofNat 64 (withBits m.addr.toNat 32 32 x) }
    | 2 => { m with data := BitVec.ofNat 32 x }
    | _ => { m with masked := bitAt x 0 }
  if 2048 ≤ v ∨ a % (if wide then 8 else 4) ≠ 0 then s
  else
    let e1 := word (a % 16 / 4) lo e
    let e2 := if wide then word (a % 16 / 4 + 1) hi e1 else e1
    (s.onEp fun p => { p with msix := p.msix.put v {} e2 }).onFab Fab.msixDrain

/-- A write of BAR0 that the register fabric has accepted. -/
def State.fabWrite (rq : Requester) (a : Nat) (wide : Bool) (w : BitVec 64) (s : State) : State :=
  if !accessOk rq a (if wide then 8 else 4) then s.undefAccess a true
  else match Page.ofAddr a with
    | none => s
    | some p => if wide then s.write64 p (a % 0x10000) w else s.write32 rq p (a % 0x10000) (w.toNat % 2 ^ 32)

/-- A write of a BAR (R53, R704). -/
def State.barWrite (rq : Requester) (bar : Bar) (a : Nat) (wide : Bool) (w : BitVec 64) (poisoned : Bool) (s : State) : State :=
  match bar, rq with
  | .bar2, _ => s
  | .bar0, .core => s.fabWrite .core a wide w
  | .bar4, .core => s
  | b, .mgmt =>
    if poisoned then
      let (x, s1) := s.draw
      s1.aerLog .poisonedTlp x
    else if b = .bar4 then s.msixWrite a wide w else s.fabWrite .mgmt a wide w

/-- An event of amount `met` that counter k of a page selects occurs in the cycle in which `CNT_VALk` is written: the counter takes the
write, and no count; every other counter that selects the event counts it (R61). -/
def State.metEvent (rq : Requester) (bar : Bar) (a : Nat) (wide poisoned : Bool) (met : Nat) (s : State) : State :=
  match Page.ofAddr a with
  | none => s
  | some p =>
    let off := a % 0x10000
    let k := (off - 0x240) / 8
    if met = 0 ∨ bar ≠ .bar0 ∨ !Page.common p ∨ off < 0x240 ∨ 0x280 ≤ off then s
    else
      let t := s.count ⟨p, getBits (s.fab.reg (p.base + 0x200 + 4 * k)) 0 12⟩ met
      if poisoned ∨ !accessOk rq a (if wide then 8 else 4) then t
      else t.onFab fun f => { f with cnts := f.cnts.put (cntKey p k) 0 (s.fab.cnt p k) }

/-- A write. -/
def execRegWrite (rq : Requester) (bar : Bar) (addr : Nat) (wide : Bool) (value : BitVec 64) (way : WriteWay) (s : State) : Result :=
  .next (s.barAccess rq fun t => (t.metEvent rq bar addr wide way.poisoned way.met).barWrite rq bar addr wide value way.poisoned)

/-- The management endpoint's write and a core's write of one register meet: the core's is applied in the next cycle (R59). -/
def execCoreWriteRetry (addr : RegAt) (first second : BitVec 64) (s : State) : Result :=
  .next (((s.fabWrite .mgmt addr.addr addr.wide first).count E.MGMT_CORE_RETRY 1).fabWrite .core addr.addr addr.wide second)

end Sys2Proof.Machine
end

