-- ==== Sys2Proof/Machine/PwrExec.lean ====
section
/-!
DEFINITION. The always-on island's supply, power-on reset, and the thermal trip (R718 to R724, R737).
-/
namespace Sys2Proof.Machine
open Sys2Proof

/-- The island's reset is released (R718). -/
def State.vauxRise (s : State) : State := (s.onIsland fun i => { i with running := true }).syncPins
/-- The island is reset, and its outputs are unpowered (R718, R719). -/
def State.vauxFall (s : State) : State :=
  (((s.setOwnOut false).setFenceOut false).onIsland fun i => { i with running := false, fenceOutAt := 0, health := 0, partnerHealth := 0 }).syncPins

/-- POR_N goes low: everything but the island is reset, without a save (R723, R737). -/
def State.porAssert (s : State) : State :=
  let s1 := ((s.setOwnOut false).coreReset false).onIsland fun i => { i with inPor := true, tripped := false, thermTrip := false }
  s1.when s.pair.island.thermTrip (State.emit (.thermTrip false))

/-- The fuse of R666: THROTTLE_C of an E part. -/
def State.gradeReset (e : Bool) (s : State) : State :=
  let a := (pgMgmt 3).base + F.THERM_CFG_THROTTLE_C.off
  let put := fun (b : Nat) (f : Fab) => f.setReg b (setBits (f.reg b) F.THERM_CFG_THROTTLE_C.lo F.THERM_CFG_THROTTLE_C.w 100)
  if e then s.onFab fun f => put (a + 0x8000) (put a f) else s
/-- POR_N rises: the straps are latched, and the MGMT pages start unless a fence holds the core die in reset (R621, R724, R725). -/
def State.porRelease (slotHigh testMode gradeE : Bool) (s : State) : State :=
  if !s.pair.island.inPor then s
  else
    let s1 := (s.onIsland fun i => { i with inPor := false, slot := slotHigh }).setF (pgMgmt 2) F.FLT_TEST_STAT_STRAP (boolNat testMode)
    let s2 := ((s1.onPol fun p => { p with gradeE := gradeE }).gradeReset gradeE).syncPins
    if s.pair.island.fenced then s2 else s2.startUp

/-- A die reaches T_TRIP (R737): a save first, if one is armed. -/
def State.thermalTrip (s : State) : State :=
  let i := s.pair.island
  if !i.running ∨ i.inPor ∨ i.tripped then s
  else
    let phase := s.get pgJrnl F.JRNL_SAVE_STAT_PHASE
    let s1 := s.onIsland fun x => { x with tripped := true }
    if phase = 1 ∨ phase = 2 then s1
    else if s.armed ∧ phase = 0 then (s1.onJrnl fun j => { j with powerFail := true }).powerFailed
    else s1.tripNow

def execVauxRise (s : State) : Result := .next s.vauxRise
def execVauxFall (s : State) : Result := .next s.vauxFall
def execPorAssert (s : State) : Result := .next s.porAssert
def execPorRelease (slotHigh testMode gradeE : Bool) (s : State) : Result := .next (s.porRelease slotHigh testMode gradeE)
def execThermalTrip (s : State) : Result := .next s.thermalTrip

end Sys2Proof.Machine
end

