-- ==== Sys2Proof/Machine/ClockOps.lean ====
section
/-!
DEFINITION. One cycle of the register clock with no command waiting: the device's own clock and the PTP counter advance.
-/
namespace Sys2Proof.Machine
open Sys2Proof

/-- One CD16 cycle, 2.5 ns, in half nanoseconds. -/
def cycleHalf : Nat := 5

/-- The PTP counter advances (R111); the minute ends with a second that 60 divides (R344). -/
def State.ptpCycle (s : State) : State :=
  let h := s.ptp.half + cycleHalf
  if h < 2000000000 then s.onPtp fun p => { p with half := h }
  else
    let n := (s.ptp.sec + 1) % 2 ^ 48
    (s.onPtp fun p => { p with sec := n, half := h - 2000000000 }).when (decide (n % 60 = 0)) (State.minuteDue false)

/-- What shows an age follows the clock every millisecond: OLDEST_MS (Table 7.9) and the RETRAINS of lanes (R118). Records that only an
ended command's references held are FREE by then (Table 10.2). -/
def State.eachMs (s : State) : State :=
  let s1 := s.releaseRecs.when (!s.regn.dirty.list.isEmpty) State.syncDirty
  s1.line.retrains.keys.foldl (fun t n => t.syncLane n) s1

/-- A page that has read OFF for one cycle with PEND_EN set enters STARTING (Table 2.11). -/
def State.restartPages (s : State) : State :=
  let l := s.fab.pages.list.filter fun e => decide (e.2.state = .off) && e.2.pendEn
  (l.filterMap fun e => Page.ofAddr e.1).foldl (fun t p => t.pageAct p .restart) s

/-- A cycle passes. The counter stands while power-on reset, a fence or the thermal trip holds the core die in reset. -/
def State.tick (s : State) : State :=
  let s1 := { s with now := s.now + cycleHalf }
  if s.pair.island.inPor || s.heldReset then s1
  else (s1.restartPages).ptpCycle.when (decide (s1.nowMs ≠ s.nowMs)) State.eachMs

end Sys2Proof.Machine
end

