-- ==== Sys2Proof/Machine/Dispatch.lean ====
section
/-!
DEFINITION. One arm for each command: a direct call of its meaning.
-/
namespace Sys2Proof.Machine
open Sys2Proof

def exec (i : Instr) (s : State) : Host.Outcome State Fault Refusal :=
  match i with
  | .regWrite rq bar addr wide value way => Sys2Proof.Machine.execRegWrite rq bar addr wide value way s
  | .undefinedAccess rq addr bytes isWrite => Sys2Proof.Machine.execUndefinedAccess rq addr bytes isWrite s
  | .woFieldRead rq addr => Sys2Proof.Machine.execWoFieldRead rq addr s
  | .reg64LowerRead rq bar addr => Sys2Proof.Machine.execReg64LowerRead rq bar addr s
  | .coreWriteRetry addr first second => Sys2Proof.Machine.execCoreWriteRetry addr first second s
  | .accErrRead rq => Sys2Proof.Machine.execAccErrRead rq s
  | .missqStatRead rq => Sys2Proof.Machine.execMissqStatRead rq s
  | .cmdqMaxuseRead rq => Sys2Proof.Machine.execCmdqMaxuseRead rq s
  | .vatMaxqRead rq => Sys2Proof.Machine.execVatMaxqRead rq s
  | .cellMinfreeRead rq => Sys2Proof.Machine.execCellMinfreeRead rq s
  | .pairCkptAgeRead rq => Sys2Proof.Machine.execPairCkptAgeRead rq s
  | .swapGo => Sys2Proof.Machine.execSwapGo s
  | .swapRevert => Sys2Proof.Machine.execSwapRevert s
  | .swapSync => Sys2Proof.Machine.execSwapSync s
  | .swapCtlMulti go revert sync => Sys2Proof.Machine.execSwapCtlMulti go revert sync s
  | .swapReject page => Sys2Proof.Machine.execSwapReject page s
  | .swapCommit => Sys2Proof.Machine.execSwapCommit s
  | .safePointTimeout page => Sys2Proof.Machine.execSafePointTimeout page s
  | .syncComplete => Sys2Proof.Machine.execSyncComplete s
  | .pageEnable page value => Sys2Proof.Machine.execPageEnable page value s
  | .pageDrain page value => Sys2Proof.Machine.execPageDrain page value s
  | .pageSoftReset page value => Sys2Proof.Machine.execPageSoftReset page value s
  | .pageRetire page value => Sys2Proof.Machine.execPageRetire page value s
  | .pageStartComplete page bad => Sys2Proof.Machine.execPageStartComplete page bad s
  | .pageStartTimeout page => Sys2Proof.Machine.execPageStartTimeout page s
  | .pageDrainComplete page => Sys2Proof.Machine.execPageDrainComplete page s
  | .pageDrainTimeout page => Sys2Proof.Machine.execPageDrainTimeout page s
  | .tblReadChunk rq page sel table => Sys2Proof.Machine.execTblReadChunk rq page sel table s
  | .tblWriteChunk rq page sel table => Sys2Proof.Machine.execTblWriteChunk rq page sel table s
  | .tblClearEntry rq page sel table => Sys2Proof.Machine.execTblClearEntry rq page sel table s
  | .tblOpComplete rq page => Sys2Proof.Machine.execTblOpComplete rq page s
  | .faultOccurrence page loc item => Sys2Proof.Machine.execFaultOccurrence page loc item s
  | .faultForce page n value => Sys2Proof.Machine.execFaultForce page n value s
  | .faultStickyClear page n value meets => Sys2Proof.Machine.execFaultStickyClear page n value meets s
  | .faultMaskWrite page n value meets => Sys2Proof.Machine.execFaultMaskWrite page n value meets s
  | .faultSevWrite page n value => Sys2Proof.Machine.execFaultSevWrite page n value s
  | .factoryKeyWrite value => Sys2Proof.Machine.execFactoryKeyWrite value s
  | .counterClearAll freeze => Sys2Proof.Machine.execCounterClearAll freeze s
  | .counterFreezeAll freeze => Sys2Proof.Machine.execCounterFreezeAll freeze s
  | .rxFrame port frame unit => Sys2Proof.Machine.execRxFrame port frame unit s
  | .pfcXoffRefresh port prio => Sys2Proof.Machine.execPfcXoffRefresh port prio s
  | .groupAnnounce group => Sys2Proof.Machine.execGroupAnnounce group s
  | .portRestore group slots => Sys2Proof.Machine.execPortRestore group slots s
  | .laneLockLoss lane => Sys2Proof.Machine.execLaneLockLoss lane s
  | .laneSymThreshold lane fec => Sys2Proof.Machine.execLaneSymThreshold lane fec s
  | .portLinkUp port => Sys2Proof.Machine.execPortLinkUp port s
  | .portTrainTimeout port => Sys2Proof.Machine.execPortTrainTimeout port s
  | .portNarrow port => Sys2Proof.Machine.execPortNarrow port s
  | .narrowTimeout port => Sys2Proof.Machine.execNarrowTimeout port s
  | .ppsEdge => Sys2Proof.Machine.execPpsEdge s
  | .ptpTodWrite value => Sys2Proof.Machine.execPtpTodWrite value s
  | .ptpTimeRead rq => Sys2Proof.Machine.execPtpTimeRead rq s
  | .ptpUpdate offset slew => Sys2Proof.Machine.execPtpUpdate offset slew s
  | .ptpHoldoverTimeout => Sys2Proof.Machine.execPtpHoldoverTimeout s
  | .ptpFreeTimeout => Sys2Proof.Machine.execPtpFreeTimeout s
  | .rxRequestPacket rx pkt => Sys2Proof.Machine.execRxRequestPacket rx pkt s
  | .ackDelayExpiry ctx => Sys2Proof.Machine.execAckDelayExpiry ctx s
  | .rxAck rx pkt => Sys2Proof.Machine.execRxAck rx pkt s
  | .rxSeqNak rx pkt => Sys2Proof.Machine.execRxSeqNak rx pkt s
  | .rxRnrNak rx pkt => Sys2Proof.Machine.execRxRnrNak rx pkt s
  | .rxFatalNak rx pkt => Sys2Proof.Machine.execRxFatalNak rx pkt s
  | .rxReadResponse rx pkt => Sys2Proof.Machine.execRxReadResponse rx pkt s
  | .rxCnp rx pkt => Sys2Proof.Machine.execRxCnp rx pkt s
  | .rateIncrease ctx => Sys2Proof.Machine.execRateIncrease ctx s
  | .ackTimeout ctx => Sys2Proof.Machine.execAckTimeout ctx s
  | .rnrTimerExpiry ctx => Sys2Proof.Machine.execRnrTimerExpiry ctx s
  | .xprtSend ctx => Sys2Proof.Machine.execXprtSend ctx s
  | .rekeyLoad ctx rxHalf => Sys2Proof.Machine.execRekeyLoad ctx rxHalf s
  | .ctxFetchComplete ctx late ue => Sys2Proof.Machine.execCtxFetchComplete ctx late ue s
  | .cmReq req => Sys2Proof.Machine.execCmReq req s
  | .cmReqAnswer devPriv sport pick startPsn => Sys2Proof.Machine.execCmReqAnswer devPriv sport pick startPsn s
  | .cmRtu ctx => Sys2Proof.Machine.execCmRtu ctx s
  | .cmRej ctx => Sys2Proof.Machine.execCmRej ctx s
  | .cmDreq ctx => Sys2Proof.Machine.execCmDreq ctx s
  | .cmDrep ctx => Sys2Proof.Machine.execCmDrep ctx s
  | .cmUnsupported malformed => Sys2Proof.Machine.execCmUnsupported malformed s
  | .repRetryTimeout ctx => Sys2Proof.Machine.execRepRetryTimeout ctx s
  | .dreqRetryTimeout ctx => Sys2Proof.Machine.execDreqRetryTimeout ctx s
  | .flushComplete ctx => Sys2Proof.Machine.execFlushComplete ctx s
  | .timewaitExpiry ctx => Sys2Proof.Machine.execTimewaitExpiry ctx s
  | .xprtClose value => Sys2Proof.Machine.execXprtClose value s
  | .keyFetchComplete index ue => Sys2Proof.Machine.execKeyFetchComplete index ue s
  | .keyRetire index => Sys2Proof.Machine.execKeyRetire index s
  | .keyChangeConfirm => Sys2Proof.Machine.execKeyChangeConfirm s
  | .keyQuietExpiry index => Sys2Proof.Machine.execKeyQuietExpiry index s
  | .capsuleRx ctx => Sys2Proof.Machine.execCapsuleRx ctx s
  | .slotAssign => Sys2Proof.Machine.execSlotAssign s
  | .cmdAdmit slot => Sys2Proof.Machine.execCmdAdmit slot s
  | .cmdCommit slot => Sys2Proof.Machine.execCmdCommit slot s
  | .responseAcked slot => Sys2Proof.Machine.execResponseAcked slot s
  | .connect slot => Sys2Proof.Machine.execConnect slot s
  | .propertySet slot => Sys2Proof.Machine.execPropertySet slot s
  | .propertyGet slot => Sys2Proof.Machine.execPropertyGet slot s
  | .authenticationSend slot nonce => Sys2Proof.Machine.execAuthenticationSend slot nonce s
  | .authenticationReceive slot => Sys2Proof.Machine.execAuthenticationReceive slot s
  | .getLogPage slot => Sys2Proof.Machine.execGetLogPage slot s
  | .identify slot => Sys2Proof.Machine.execIdentify slot s
  | .abort slot => Sys2Proof.Machine.execAbort slot s
  | .setFeatures slot => Sys2Proof.Machine.execSetFeatures slot s
  | .getFeatures slot => Sys2Proof.Machine.execGetFeatures slot s
  | .asyncEventRequest slot => Sys2Proof.Machine.execAsyncEventRequest slot s
  | .keepAlive slot => Sys2Proof.Machine.execKeepAlive slot s
  | .flush slot => Sys2Proof.Machine.execFlush slot s
  | .write slot => Sys2Proof.Machine.execWrite slot s
  | .read slot => Sys2Proof.Machine.execRead slot s
  | .writeZeroes slot => Sys2Proof.Machine.execWriteZeroes slot s
  | .datasetManagement slot => Sys2Proof.Machine.execDatasetManagement slot s
  | .katoExpiry ctrl => Sys2Proof.Machine.execKatoExpiry ctrl s
  | .fwHoldEnd => Sys2Proof.Machine.execFwHoldEnd s
  | .fwHoldTimeout => Sys2Proof.Machine.execFwHoldTimeout s
  | .regionLocalPlaced id ue => Sys2Proof.Machine.execRegionLocalPlaced id ue s
  | .regionReadExecute id ue => Sys2Proof.Machine.execRegionReadExecute id ue s
  | .setPolicy ctx => Sys2Proof.Machine.execSetPolicy ctx s
  | .subscribe ctx => Sys2Proof.Machine.execSubscribe ctx s
  | .unsubscribe ctx => Sys2Proof.Machine.execUnsubscribe ctx s
  | .placeFlush ctx => Sys2Proof.Machine.execPlaceFlush ctx s
  | .controlMsgInvalid ctx => Sys2Proof.Machine.execControlMsgInvalid ctx s
  | .notifySend index => Sys2Proof.Machine.execNotifySend index s
  | .notifyAcked index => Sys2Proof.Machine.execNotifyAcked index s
  | .regionRetire index => Sys2Proof.Machine.execRegionRetire index s
  | .regionZeroComplete index => Sys2Proof.Machine.execRegionZeroComplete index s
  | .regionTableConfirm => Sys2Proof.Machine.execRegionTableConfirm s
  | .regnMirrorLate id => Sys2Proof.Machine.execRegnMirrorLate id s
  | .destageUnit unit => Sys2Proof.Machine.execDestageUnit unit s
  | .destageLag => Sys2Proof.Machine.execDestageLag s
  | .policerRefill => Sys2Proof.Machine.execPolicerRefill s
  | .rootSelect root => Sys2Proof.Machine.execRootSelect root s
  | .sampleTick => Sys2Proof.Machine.execSampleTick s
  | .meterSecondTick => Sys2Proof.Machine.execMeterSecondTick s
  | .meterMinuteClose => Sys2Proof.Machine.execMeterMinuteClose s
  | .meterAckWrite value => Sys2Proof.Machine.execMeterAckWrite value s
  | .vatCellTime => Sys2Proof.Machine.execVatCellTime s
  | .unitEnqueue input outs cls first => Sys2Proof.Machine.execUnitEnqueue input outs cls first s
  | .cellAllocRequest port cls cells kind network evictable => Sys2Proof.Machine.execCellAllocRequest port cls cells kind network evictable s
  | .cellAllocRetry => Sys2Proof.Machine.execCellAllocRetry s
  | .cellFree ptr owner port => Sys2Proof.Machine.execCellFree ptr owner port s
  | .cellSramError cell ue => Sys2Proof.Machine.execCellSramError cell ue s
  | .cellBankRetire value => Sys2Proof.Machine.execCellBankRetire value s
  | .jrnlRecordOpen slot => Sys2Proof.Machine.execJrnlRecordOpen slot s
  | .jrnlLocalPlaced rec ue => Sys2Proof.Machine.execJrnlLocalPlaced rec ue s
  | .jrnlMirrorLate rec => Sys2Proof.Machine.execJrnlMirrorLate rec s
  | .jrnlHandoff volume lun => Sys2Proof.Machine.execJrnlHandoff volume lun s
  | .powerFailAssert => Sys2Proof.Machine.execPowerFailAssert s
  | .powerFailGlitch => Sys2Proof.Machine.execPowerFailGlitch s
  | .powerFailRecognised => Sys2Proof.Machine.execPowerFailRecognised s
  | .saveQuiesceEnd => Sys2Proof.Machine.execSaveQuiesceEnd s
  | .saveWriteEnd => Sys2Proof.Machine.execSaveWriteEnd s
  | .saveMemberFail bay => Sys2Proof.Machine.execSaveMemberFail bay s
  | .saveCommitEnd => Sys2Proof.Machine.execSaveCommitEnd s
  | .jrnlRestoreBegin partner regionImage headers => Sys2Proof.Machine.execJrnlRestoreBegin partner regionImage headers s
  | .jrnlRestoreComplete recs regions pages crcs => Sys2Proof.Machine.execJrnlRestoreComplete recs regions pages crcs s
  | .sealedRecordOpen rec ue => Sys2Proof.Machine.execSealedRecordOpen rec ue s
  | .compressStart => Sys2Proof.Machine.execCompressStart s
  | .chainAbandonTimeout lane => Sys2Proof.Machine.execChainAbandonTimeout lane s
  | .compressComplete lane body poison => Sys2Proof.Machine.execCompressComplete lane body poison s
  | .decompressStart => Sys2Proof.Machine.execDecompressStart s
  | .decompressComplete lane => Sys2Proof.Machine.execDecompressComplete lane s
  | .laneParityError lane corrected => Sys2Proof.Machine.execLaneParityError lane corrected s
  | .laneSelftest fails => Sys2Proof.Machine.execLaneSelftest fails s
  | .cmprLaneRetire value => Sys2Proof.Machine.execCmprLaneRetire value s
  | .unitPack src => Sys2Proof.Machine.execUnitPack src s
  | .stripeFillTimeout pool stream => Sys2Proof.Machine.execStripeFillTimeout pool stream s
  | .stripWriteComplete => Sys2Proof.Machine.execStripWriteComplete s
  | .segmentWaitStall job => Sys2Proof.Machine.execSegmentWaitStall job s
  | .mapPageReadComplete page bad => Sys2Proof.Machine.execMapPageReadComplete page bad s
  | .mapWbTimer page => Sys2Proof.Machine.execMapWbTimer page s
  | .mapWbComplete page => Sys2Proof.Machine.execMapWbComplete page s
  | .segmentFree pool seg => Sys2Proof.Machine.execSegmentFree pool seg s
  | .pressSelect pool scan => Sys2Proof.Machine.execPressSelect pool scan s
  | .pressRelocateCommit => Sys2Proof.Machine.execPressRelocateCommit s
  | .volumeDiscard value => Sys2Proof.Machine.execVolumeDiscard value s
  | .volumeDiscardComplete => Sys2Proof.Machine.execVolumeDiscardComplete s
  | .poolCreate pool => Sys2Proof.Machine.execPoolCreate pool s
  | .poolImport pool => Sys2Proof.Machine.execPoolImport pool s
  | .poolExport pool => Sys2Proof.Machine.execPoolExport pool s
  | .poolFailMember pool bay => Sys2Proof.Machine.execPoolFailMember pool bay s
  | .poolClearLabel pool bay => Sys2Proof.Machine.execPoolClearLabel pool bay s
  | .importPhaseComplete pool found => Sys2Proof.Machine.execImportPhaseComplete pool found s
  | .rebuildStripe pool bad => Sys2Proof.Machine.execRebuildStripe pool bad s
  | .rebuildCheckpoint pool => Sys2Proof.Machine.execRebuildCheckpoint pool s
  | .lossHandle pool index => Sys2Proof.Machine.execLossHandle pool index s
  | .turnerRow pool mended failed => Sys2Proof.Machine.execTurnerRow pool mended failed s
  | .drivePresenceDebounce bay present => Sys2Proof.Machine.execDrivePresenceDebounce bay present s
  | .perstRelease bay => Sys2Proof.Machine.execPerstRelease bay s
  | .driveLinkUp bay gen width flit slow => Sys2Proof.Machine.execDriveLinkUp bay gen width flit slow s
  | .driveBringup bay info => Sys2Proof.Machine.execDriveBringup bay info s
  | .driveLinkDown bay => Sys2Proof.Machine.execDriveLinkDown bay s
  | .driveRequestIssue bay => Sys2Proof.Machine.execDriveRequestIssue bay s
  | .driveCompletion bay cid sct sc dnr => Sys2Proof.Machine.execDriveCompletion bay cid sct sc dnr s
  | .driveDmaWrite bay addr data => Sys2Proof.Machine.execDriveDmaWrite bay addr data s
  | .driveDmaRead bay addr bytes => Sys2Proof.Machine.execDriveDmaRead bay addr bytes s
  | .driveCmdTimeout bay tag => Sys2Proof.Machine.execDriveCmdTimeout bay tag s
  | .tagQuarantineEnd bay tag => Sys2Proof.Machine.execTagQuarantineEnd bay tag s
  | .driveCto bay tag => Sys2Proof.Machine.execDriveCto bay tag s
  | .bayReset1 bay => Sys2Proof.Machine.execBayReset1 bay s
  | .bayReset2 bay => Sys2Proof.Machine.execBayReset2 bay s
  | .driveResetComplete bay info => Sys2Proof.Machine.execDriveResetComplete bay info s
  | .reset1Timeout bay => Sys2Proof.Machine.execReset1Timeout bay s
  | .reset2Timeout bay => Sys2Proof.Machine.execReset2Timeout bay s
  | .driveIdleTimeout bay => Sys2Proof.Machine.execDriveIdleTimeout bay s
  | .drivePsComplete bay => Sys2Proof.Machine.execDrivePsComplete bay s
  | .driveAerMessage bay kind detail tag hdr => Sys2Proof.Machine.execDriveAerMessage bay kind detail tag hdr s
  | .bayStartGrant => Sys2Proof.Machine.execBayStartGrant s
  | .auxGood bay sample => Sys2Proof.Machine.execAuxGood bay sample s
  | .auxTimeout bay => Sys2Proof.Machine.execAuxTimeout bay s
  | .faultTimerExpiry bay ticks mj sample => Sys2Proof.Machine.execFaultTimerExpiry bay ticks mj sample s
  | .shortTrip bay ticks mj sample => Sys2Proof.Machine.execShortTrip bay ticks mj sample s
  | .powerGood bay ticks mj sample => Sys2Proof.Machine.execPowerGood bay ticks mj sample s
  | .droopFault bay sample => Sys2Proof.Machine.execDroopFault bay sample s
  | .auxDroopFault bay sample => Sys2Proof.Machine.execAuxDroopFault bay sample s
  | .pgStable bay => Sys2Proof.Machine.execPgStable bay s
  | .retryIntervalExpiry bay => Sys2Proof.Machine.execRetryIntervalExpiry bay s
  | .gate3OffDelay bay => Sys2Proof.Machine.execGate3OffDelay bay s
  | .damageDetectorArm bay => Sys2Proof.Machine.execDamageDetectorArm bay s
  | .damageTrip bay sample => Sys2Proof.Machine.execDamageTrip bay sample s
  | .heartbeatTimeout => Sys2Proof.Machine.execHeartbeatTimeout s
  | .ownInChange asserted => Sys2Proof.Machine.execOwnInChange asserted s
  | .ownClaimAssert => Sys2Proof.Machine.execOwnClaimAssert s
  | .ownershipGrant => Sys2Proof.Machine.execOwnershipGrant s
  | .claimBackoffEnd => Sys2Proof.Machine.execClaimBackoffEnd s
  | .discoverTimeout => Sys2Proof.Machine.execDiscoverTimeout s
  | .fenceInAssert => Sys2Proof.Machine.execFenceInAssert s
  | .fenceInDeassert => Sys2Proof.Machine.execFenceInDeassert s
  | .unfence => Sys2Proof.Machine.execUnfence s
  | .forceClaim => Sys2Proof.Machine.execForceClaim s
  | .release => Sys2Proof.Machine.execRelease s
  | .britosLinkUp version lanes => Sys2Proof.Machine.execBritosLinkUp version lanes s
  | .britosLinkLoss => Sys2Proof.Machine.execBritosLinkLoss s
  | .britosLaneLockLoss lane => Sys2Proof.Machine.execBritosLaneLockLoss lane s
  | .mirrorWriteRx hdr data => Sys2Proof.Machine.execMirrorWriteRx hdr data s
  | .mirrorConfirmRx group lseq => Sys2Proof.Machine.execMirrorConfirmRx group lseq s
  | .checkpointRx hdr data => Sys2Proof.Machine.execCheckpointRx hdr data s
  | .recordRx hdr record => Sys2Proof.Machine.execRecordRx hdr record s
  | .healthRx record => Sys2Proof.Machine.execHealthRx record s
  | .linkAckRx group lack resend => Sys2Proof.Machine.execLinkAckRx group lack resend s
  | .syncDataRx hdr data => Sys2Proof.Machine.execSyncDataRx hdr data s
  | .handoverRx => Sys2Proof.Machine.execHandoverRx s
  | .britosFrameCrcErr => Sys2Proof.Machine.execBritosFrameCrcErr s
  | .syncCompletePair => Sys2Proof.Machine.execSyncCompletePair s
  | .checkpointRound => Sys2Proof.Machine.execCheckpointRound s
  | .healthRecordWrite => Sys2Proof.Machine.execHealthRecordWrite s
  | .takeoverStageEnd => Sys2Proof.Machine.execTakeoverStageEnd s
  | .cultureCheck fails drives => Sys2Proof.Machine.execCultureCheck fails drives s
  | .policyLoopTick => Sys2Proof.Machine.execPolicyLoopTick s
  | .retirementEval => Sys2Proof.Machine.execRetirementEval s
  | .pcRetireComplete pc => Sys2Proof.Machine.execPcRetireComplete pc s
  | .adaptTick => Sys2Proof.Machine.execAdaptTick s
  | .thermalTick low high tj => Sys2Proof.Machine.execThermalTick low high tj s
  | .fwActivate value => Sys2Proof.Machine.execFwActivate value s
  | .fwValidateComplete => Sys2Proof.Machine.execFwValidateComplete s
  | .fwStartComplete ok => Sys2Proof.Machine.execFwStartComplete ok s
  | .epLinkDown => Sys2Proof.Machine.execEpLinkDown s
  | .epLinkUp => Sys2Proof.Machine.execEpLinkUp s
  | .epPerst asserted => Sys2Proof.Machine.execEpPerst asserted s
  | .epFlr => Sys2Proof.Machine.execEpFlr s
  | .epDstateChange d3hot pmeEn clearPme => Sys2Proof.Machine.execEpDstateChange d3hot pmeEn clearPme s
  | .msixUnmask vector => Sys2Proof.Machine.execMsixUnmask vector s
  | .epDmaTimeout tag => Sys2Proof.Machine.execEpDmaTimeout tag s
  | .mboxEnable value => Sys2Proof.Machine.execMboxEnable value s
  | .mboxTailWrite value => Sys2Proof.Machine.execMboxTailWrite value s
  | .mboxFetchComplete req err => Sys2Proof.Machine.execMboxFetchComplete req err s
  | .getInfo => Sys2Proof.Machine.execGetInfo s
  | .slotWrite data dmaErr flashErr => Sys2Proof.Machine.execSlotWrite data dmaErr flashErr s
  | .slotRead => Sys2Proof.Machine.execSlotRead s
  | .smbusXfer ack rdata => Sys2Proof.Machine.execSmbusXfer ack rdata s
  | .mboxComplete => Sys2Proof.Machine.execMboxComplete s
  | .eventRecordPost type payload => Sys2Proof.Machine.execEventRecordPost type payload s
  | .evrHeadWrite ring value => Sys2Proof.Machine.execEvrHeadWrite ring value s
  | .evrEnable ring value => Sys2Proof.Machine.execEvrEnable ring value s
  | .vauxRise => Sys2Proof.Machine.execVauxRise s
  | .vauxFall => Sys2Proof.Machine.execVauxFall s
  | .porAssert => Sys2Proof.Machine.execPorAssert s
  | .porRelease slotHigh testMode gradeE => Sys2Proof.Machine.execPorRelease slotHigh testMode gradeE s
  | .thermalTrip => Sys2Proof.Machine.execThermalTrip s
  | .pfcPauseExpiry port prio => Sys2Proof.Machine.execPfcPauseExpiry port prio s
  | .hbWatchdogExpiry => Sys2Proof.Machine.execHbWatchdogExpiry s
  | .britosLaneUp lane => Sys2Proof.Machine.execBritosLaneUp lane s
  | .damageCheckPass bay => Sys2Proof.Machine.execDamageCheckPass bay s
  | .nonOwnerSenseChange bay sample => Sys2Proof.Machine.execNonOwnerSenseChange bay sample s
  | .busMasterEnable on => Sys2Proof.Machine.execBusMasterEnable on s
  | .msixAddressWrite vector addr data => Sys2Proof.Machine.execMsixAddressWrite vector addr data s
  | .pcieUnexpectedCompletion bay tag => Sys2Proof.Machine.execPcieUnexpectedCompletion bay tag s
  | .pcieTagQuarantineEnd bay tag => Sys2Proof.Machine.execPcieTagQuarantineEnd bay tag s
  | .epTlpError err hdr => Sys2Proof.Machine.execEpTlpError err hdr s

end Sys2Proof.Machine
end

