-- ==== Sys2Proof/Safety.lean ====
section
/-!
DEFINITION. What counts as a safe state and a safe run, in the terms that statements use.
-/
namespace Sys2Proof.Safety
open Sys2Proof Sys2Proof.Machine

/-- The device goes on: its step answers a next state. -/
def Goes (s : State) : Prop := ∃ t, step s = .next t

/-- The region memory is in its canonical form: addresses rise strictly, and no byte listed is what an unlisted one reads as. -/
def MemOk (s : State) : Prop := memWf s.regn.mem = true
/-- The PTP counter holds a time: less than a second of half nanoseconds, and 48 bits of seconds (R111). -/
def TimeOk (s : State) : Prop := s.ptp.half < 2000000000 ∧ s.ptp.sec < 2 ^ 48
/-- What every step keeps. -/
def Inv (s : State) : Prop := MemOk s ∧ TimeOk s

/-- Nothing differs in what CMDQ, REGN, JRNL, CMPR, PLCE, STRP and DRVP hold, the region memory among it. -/
def StoreSame (s t : State) : Prop :=
  t.cmdq = s.cmdq ∧ t.regn = s.regn ∧ t.jrnl = s.jrnl ∧ t.cmpr = s.cmpr ∧ t.plce = s.plce ∧ t.strp = s.strp ∧ t.drvp = s.drvp
/-- Nothing differs in the device clock, the queue of commands, and what the controller pair, the bay power channels and firmware hold. -/
def CtlSame (s t : State) : Prop :=
  t.pair = s.pair ∧ t.bayp = s.bayp ∧ t.pol = s.pol ∧ t.now = s.now ∧ t.pending = s.pending
/-- Nothing differs in the connections, the keys, the Vat and the cell pool. -/
def NetSame (s t : State) : Prop := t.xprt = s.xprt ∧ t.gard = s.gard ∧ t.vat = s.vat ∧ t.cell = s.cell

/-- No connection's sealing counter is spent, and no mirrored command waits to begin again. -/
def Settled (s : State) : Prop := s.xprt.spent = [] ∧ s.cmdq.replay = []
/-- A RoCEv2 packet reaches its connection at once: XPRT serves, the ICRC holds, the packet names context `i`, which is on die with no
packet parked, READY, not sealed, and not probing; the packet met no congestion (R129, R130, R163). -/
def Reaches (s : State) (rx : RxMeta) (p : Packet) (i : Nat) : Prop :=
  s.isLive pgXprt = true ∧ p.icrcOk = true ∧ s.ctxFor rx p.qpn = some i ∧ s.cached i = true ∧
  (s.xprt.missq.any fun q => decide (q.ctx = i)) = false ∧ (s.ctx i).id.sealed = false ∧ rx.ce = false ∧ s.probing i = false ∧
  (s.ctx i).state = .ready ∧ Settled s
/-- A frame of `n` bytes of a priority leaves at once on a port: the port is up, the frame fits, and no pause holds it (R96, R105, R107). -/
def Leaves (s : State) (port n : Nat) (pcp : Option Nat) : Prop :=
  s.portUp port = true ∧ n ≤ s.get (pgGrp (port / 4)) F.GRP_CFG_MAX_FRAME ∧ s.paused port pcp = false
/-- A connection management message of connection `i` leaves at once. -/
def CmLeaves (s : State) (i : Nat) : Prop :=
  Leaves s (s.ctx i).id.egressPort (cmLen (tpTag (s.fab.tport (s.ctx i).id.tport)).isSome (s.ctx i).id.ipv6) (s.ctxPcp i)
/-- Connection `i` may seal `n` more packets under its key (R204). -/
def MaySeal (s : State) (i n : Nat) : Prop := (s.ctx i).id.sealed = true → (s.ctx i).sl.txCtr + n < 2 ^ 40

/-- Slot `n` holds an admin command of a kind, of controller `k` (R225, R226). -/
def OnCtrl (s : State) (n : Nat) (fits : Slot → Bool) (x : Slot) (k : Nat) (c : Ctrl) : Prop :=
  ∃ q, s.adminCmd n fits = some (x, q) ∧ q.ctrl = some k ∧ s.ctrl k = some c
/-- An event's counters gain an amount, where they count the event; no other counter of its page changes (R691, R692). -/
def Counted (e : Evt) (n : Nat) (s t : State) : Prop :=
  ∀ k : Nat, k < 8 → t.fab.cnt e.page k = s.fab.cnt e.page k + if s.fab.counts e k then BitVec.ofNat 48 n else 0
/-- Only counters differ. -/
def OnlyCounts (s t : State) : Prop := t = { s with fab := { s.fab with cnts := t.fab.cnts } }
/-- Only registers and counters differ. -/
def OnlyRegs (s t : State) : Prop := t = { s with fab := { s.fab with regs := t.fab.regs, cnts := t.fab.cnts } }
/-- No register of the active and shadow sets, and no table entry, differs (Table 2.9). -/
def SetsSame (s t : State) : Prop :=
  (∀ p : Page, p ∈ allPages → ∀ k : Nat, k < 0x1C00 → t.fab.reg (p.base + 0x1000 + 4 * k) = s.fab.reg (p.base + 0x1000 + 4 * k) ∧
    t.fab.reg (p.base + 0x9000 + 4 * k) = s.fab.reg (p.base + 0x9000 + 4 * k)) ∧ t.fab.tabs = s.fab.tabs
/-- A swap ends rejected, and nothing is copied or exchanged (R77, R82). -/
def Rejected (code : Nat) (blk : Blk) (inst offset : Nat) (s t : State) : Prop :=
  t.get pgDev F.SWAP_STAT_BUSY = 0 ∧ t.get pgDev F.SWAP_STAT_RESULT = 2 ∧ t.get pgDev F.SWAP_STAT_REJECT_CODE = code % 65536 ∧
  t.get pgDev F.SWAP_STAT_REJECT_BLOCK = blk.idx ∧ t.get pgDev F.SWAP_DETAIL_REJECT_INST = inst % 256 ∧
  t.get pgDev F.SWAP_DETAIL_REJECT_OFFSET = offset % 65536 ∧ t.get pgDev F.EPOCH_EPOCH = s.get pgDev F.EPOCH_EPOCH ∧
  t.get pgDev F.SWAP_STAT_REVERT_OK = s.get pgDev F.SWAP_STAT_REVERT_OK ∧ t.fab.sticky S.MGMT_SWAP_REJECT = true ∧
  t.fab.swap = {} ∧ SetsSame s t ∧ t = { s with fab := t.fab }
/-- A table window has ended its operation with a status (R86). -/
def WinEnds (t : State) (rq : Requester) (p : Page) (status : Nat) : Prop :=
  bitsOf (t.fab.reg (winBase p rq + 0x40)).toNat 28 4 = status ∧ (t.fab.win (winBase p rq)).run = none
/-- Every page but one stands as it did. -/
def OtherPages (p : Page) (s t : State) : Prop := ∀ q : Page, q ∈ allPages → q ≠ p → t.fab.page q = s.fab.page q

end Sys2Proof.Safety
end

