-- ==== Sys2Proof/Certificates/Slice0/Obligations.lean ====
section
/-!
DEFINITION. The statements. Each is a conjunction of clauses over every state; a clause names a command, the conditions on the state and the
operands under which it says something, the next state that exec answers, what holds there, and what is as it was.
-/
open Sys2Proof Sys2Proof.Machine

/-- A step runs the command at the front of the queue; with none waiting a clock cycle passes. -/
def Obligations.StepTakesFront : Prop :=
  (∀ (s : State) (c : Instr) (rest : List Instr), s.pending = c :: rest → step s = exec c { s with pending := rest }) ∧
  (∀ s : State, s.pending = [] →
    (s.pair.island.inPor = true ∨ s.heldReset = true → step s = .next { s with now := s.now + 5 }) ∧
    (s.pair.island.inPor = false → s.heldReset = false → (s.fab.pages.list.all fun e => !(decide (e.2.state = .off) && e.2.pendEn)) = true →
      (s.now + 5) / 2000000 = s.now / 2000000 →
      (s.ptp.half + 5 < 2000000000 → step s = .next { s with now := s.now + 5, ptp := { s.ptp with half := s.ptp.half + 5 } }) ∧
      (2000000000 ≤ s.ptp.half + 5 → (s.ptp.sec + 1) % 2 ^ 48 % 60 ≠ 0 → step s = .next { s with
        now := s.now + 5, ptp := { s.ptp with half := s.ptp.half + 5 - 2000000000, sec := (s.ptp.sec + 1) % 2 ^ 48 } })))

/-- The state after reset meets the invariant, and pages, faults, identity and swap status stand as the spec says. -/
def Obligations.ResetState : Prop :=
  Safety.Inv State.reset ∧ State.reset.pending = [] ∧ (∀ p : Page, p ∈ allPages → (State.reset.fab.page p).state = .off) ∧
  (∀ x : Src, x ∈ allSrcs → State.reset.fab.sticky x = false ∧ State.reset.fab.masked x = false ∧
    State.reset.fab.severity x = x.defaultClass) ∧
  State.reset.get pgDev ⟨0x0000, 16, 16, 4⟩ = 0x4B18 ∧ State.reset.get pgDev ⟨0x0000, 0, 16, 4⟩ = 0x2464 ∧
  State.reset.get pgDev ⟨0x0004, 0, 32, 4⟩ = 0x4230 ∧ State.reset.get pgDev F.EPOCH_EPOCH = 0 ∧
  State.reset.get pgDev F.SWAP_STAT_RESULT = 0 ∧ State.reset.get pgPair F.PAIR_STAT_ROLE = 0 ∧ State.reset.owned = false

/-- No command changes the queue of waiting commands. -/
def Obligations.CommandsLeaveQueue : Prop :=
  ∀ (c : Instr) (s t : State), Safety.Inv s → exec c s = .next t → t.pending = s.pending

/-- Every step keeps the region memory canonical and the PTP counter in range. -/
def Obligations.StepsKeepInv : Prop :=
  ∀ s t : State, Safety.Inv s → step s = .next t → Safety.Inv t

/-- A BAR2 slot returns its counter only while USER is 1; BAR2 writes are ignored. Formalises R53. -/
def Obligations.CounterWindow : Prop :=
  (∀ (s : State) (p : Page) (k : Nat), p ∈ allPages → k < 8 →
    s.bar2Word ((p.blk.idx - 1) * 0x10000 + p.inst * 0x40 + k * 8) =
      if getBits (s.fab.reg (p.base + 0x200 + 4 * k)) 13 1 = 1 then (s.fab.cnt p k).toNat else 0) ∧
  (∀ (s : State) (p : Page) (k : Nat), s.fab.ep.dstate = .d0 → p ∈ allPages → k < 8 →
    ∃ t, exec (.reg64LowerRead .mgmt .bar2 ((p.blk.idx - 1) * 0x10000 + p.inst * 0x40 + k * 8)) s = .next t ∧
      t.fab.out.head? = some (Emit.readData .mgmt ((p.blk.idx - 1) * 0x10000 + p.inst * 0x40 + k * 8)
        (s.bar2Word ((p.blk.idx - 1) * 0x10000 + p.inst * 0x40 + k * 8) % 2 ^ 32))) ∧
  (∀ (s : State) (rq : Requester) (a : Nat) (w : Bool) (v : BitVec 64), s.barOpen rq = true →
    ∃ t, exec (.regWrite rq .bar2 a w v {}) s = .next t ∧ t = s)

/-- A write of more than one of GO, REVERT and SYNC is rejected with code 0x0006. Formalises R82. -/
def Obligations.SeveralSwapBits : Prop :=
  ∀ (s : State) (g r y : Bool), 2 ≤ boolNat g + boolNat r + boolNat y → s.swapBusy = false → s.isStandby = false →
    ∃ t, exec (.swapCtlMulti g r y) s = .next t ∧ t.swapBusy = false ∧ t.get pgDev F.SWAP_STAT_RESULT = 2 ∧
      t.get pgDev F.SWAP_STAT_REJECT_BLOCK = 0 ∧ t.get pgDev F.SWAP_STAT_REJECT_CODE = 0x0006 ∧
      t.get pgDev F.SWAP_DETAIL_REJECT_INST = 0 ∧ t.get pgDev F.SWAP_DETAIL_REJECT_OFFSET = 0 ∧
      t.get pgDev F.EPOCH_EPOCH = s.get pgDev F.EPOCH_EPOCH ∧
      t.get pgDev F.SWAP_STAT_REVERT_OK = s.get pgDev F.SWAP_STAT_REVERT_OK ∧ Safety.SetsSame s t ∧
      (∀ n : Nat, n < 4 → s.isOn (pgMgmt 0) = true ∧ s.flag (pgMgmt 0) (F.EVR_CFG_EN.idx n) = true ∧
        bitAt (s.get (pgMgmt 0) (F.EVR_CFG_TYPE_MASK.idx n)) 2 = true ∧ s.fab.ringOpen n = true ∧ (s.fab.ring n).held = [] ∧
        s.get (pgMgmt 0) (F.EVR_STAT_LOST.idx n) = 0 ∧ s.fab.severity S.MGMT_SWAP_REJECT ≠ 2 →
        Emit.evRecord n (s.fab.ringTail n) (s.fab.ring n).seq (((s.fab.ring n).seq / s.fab.ringSize n + 1) % 2)
          ⟨2, s.timeStamp, s.get pgDev F.EPOCH_EPOCH + 6 * 2 ^ 32⟩ ∈ t.fab.out)

/-- Reads that clear, undefined accesses, reads of write-only fields, and the latched halves of 64-bit registers. Rests on R17, R55, R56,
R58, R637. -/
def Obligations.FabricReads : Prop :=
  (∀ (s : State) (rq : Requester), s.barOpen rq = true → ∃ t, exec (.accErrRead rq) s = .next t ∧
    t.fab.out = .readData rq 0x20 (s.fab.reg 0x20).toNat :: s.fab.out ∧ t.get pgDev F.ACC_ERR_ADDR = 0 ∧
    t.get pgDev F.ACC_ERR_VALID = 0 ∧ (∀ a : Nat, a ≠ 0x20 → t.fab.reg a = s.fab.reg a) ∧
    t = { s with fab := { s.fab with regs := t.fab.regs, out := t.fab.out } }) ∧
  (∀ (s : State) (rq : Requester), s.barOpen rq = true → ∃ t, exec (.missqStatRead rq) s = .next t ∧
    t.fab.out = .readData rq 0x02000408 (s.fab.reg 0x02000408).toNat :: s.fab.out ∧ t.get pgXprt F.MISSQ_STAT_MAX = 0 ∧
    t.get pgXprt F.MISSQ_STAT_OCC = s.get pgXprt F.MISSQ_STAT_OCC ∧ (∀ a : Nat, a ≠ 0x02000408 → t.fab.reg a = s.fab.reg a) ∧
    t = { s with fab := { s.fab with regs := t.fab.regs, out := t.fab.out } }) ∧
  (∀ (s : State) (rq : Requester), s.barOpen rq = true → ∃ t, exec (.cmdqMaxuseRead rq) s = .next t ∧
    t.fab.out = .readData rq 0x0400040C (s.fab.reg 0x0400040C).toNat :: s.fab.out ∧ t.get pgCmdq F.CMDQ_MAXUSE_MAX = 0 ∧
    (∀ a : Nat, a ≠ 0x0400040C → t.fab.reg a = s.fab.reg a) ∧
    t = { s with fab := { s.fab with regs := t.fab.regs, out := t.fab.out } }) ∧
  (∀ (s : State) (rq : Requester), s.barOpen rq = true → ∃ t, exec (.vatMaxqRead rq) s = .next t ∧
    t.fab.out = .readData rq 0x07000404 (s.fab.reg 0x07000404).toNat :: s.fab.out ∧ t.get pgVat F.VAT_MAXQ_MAX = 0 ∧
    t.vat = { s.vat with maxQ := 0 } ∧ (∀ a : Nat, a ≠ 0x07000404 → t.fab.reg a = s.fab.reg a) ∧
    t = { s with fab := { s.fab with regs := t.fab.regs, out := t.fab.out }, vat := t.vat }) ∧
  (∀ (s : State) (rq : Requester), s.barOpen rq = true → ∃ t, exec (.cellMinfreeRead rq) s = .next t ∧
    t.fab.out = .readData rq 0x08000408 (s.fab.reg 0x08000408).toNat :: s.fab.out ∧ t.get pgCell F.CELL_MINFREE_MIN = 0 ∧
    t.cell = { s.cell with minSeen := none } ∧ (∀ a : Nat, a ≠ 0x08000408 → t.fab.reg a = s.fab.reg a) ∧
    t = { s with fab := { s.fab with regs := t.fab.regs, out := t.fab.out }, cell := t.cell }) ∧
  (∀ (s : State) (rq : Requester), s.barOpen rq = true → ∃ t, exec (.pairCkptAgeRead rq) s = .next t ∧
    t.fab.out = .readData rq 0x0F000408 (s.fab.reg 0x0F000408).toNat :: s.fab.out ∧ t.get pgPair F.PAIR_CKPT_AGE_MAX_US = 0 ∧
    (∀ a : Nat, a ≠ 0x0F000408 → t.fab.reg a = s.fab.reg a) ∧
    t = { s with fab := { s.fab with regs := t.fab.regs, out := t.fab.out } }) ∧
  (∀ (s : State) (rq : Requester) (a n : Nat) (w : Bool), s.barOpen rq = true → accessOk rq a n = false →
    ∃ t, exec (.undefinedAccess rq a n w) s = .next t ∧ t.fab.sticky S.MGMT_REG_UNDEF = true ∧
      (s.get pgDev F.ACC_ERR_VALID = 0 → t.get pgDev F.ACC_ERR_ADDR = a / 4 % 2 ^ 27 ∧
        t.get pgDev F.ACC_ERR_VALID = if w then 2 else 1) ∧
      (s.get pgDev F.ACC_ERR_VALID ≠ 0 → t.fab.reg 0x20 = s.fab.reg 0x20) ∧
      (w = false → t.fab.out.head? = some (.readData rq a 0)) ∧ Safety.Counted E.MGMT_REG_UNDEF 1 s t ∧
      (∀ b : Nat, b ≠ 0x20 → b ≠ 0x10000100 → t.fab.reg b = s.fab.reg b) ∧ t.fab.tabs = s.fab.tabs ∧
      Safety.OtherPages (pgMgmt 0) s t ∧ t = { s with fab := t.fab }) ∧
  (∀ (s : State) (rq : Requester) (a : Nat) (x : Area × RegDef × Nat), s.barOpen rq = true →
    ((Page.ofAddr a).bind fun p => regAt p (a % 0x10000)) = some x → x.2.1.hasWo = true →
    ∃ t, exec (.woFieldRead rq a) s = .next t ∧ Safety.Counted E.MGMT_REG_WO_READ 1 s t ∧
      t.fab.out = .readData rq a (x.2.1.woClear (s.regWord a)).toNat :: s.fab.out ∧
      (∀ f, f ∈ x.2.1.fields → f.acc = .wo → getBits (x.2.1.woClear (s.regWord a)) f.lo f.w = 0) ∧
      t = { s with fab := { s.fab with cnts := t.fab.cnts, out := t.fab.out } }) ∧
  (∀ (s : State) (rq : Requester) (p : Page) (off : Nat), s.barOpen rq = true → p ∈ allPages → isWide p off = true → off < 0x10000 →
    ∃ t, exec (.reg64LowerRead rq .bar0 (p.base + off)) s = .next t ∧
      t.fab.out = .readData rq (p.base + off) (s.regWord (p.base + off)).toNat :: s.fab.out ∧
      t.latched rq (p.base + off) = some (s.regWord (p.base + off + 4)) ∧
      (∀ r : Requester, ∀ k : Nat, r ≠ rq ∨ k ≠ p.base + off → t.latched r k = s.latched r k) ∧
      t = { s with fab := { s.fab with out := t.fab.out, latchM := t.fab.latchM, latchC := t.fab.latchC } }) ∧
  (∀ (s : State) (p : Page) (k : Nat), s.fab.ep.dstate = .d0 → p ∈ allPages → k < 8 →
    ∃ t, exec (.reg64LowerRead .mgmt .bar2 ((p.blk.idx - 1) * 0x10000 + p.inst * 0x40 + k * 8)) s = .next t ∧
      (getBits (s.fab.reg (p.base + 0x200 + 4 * k)) 13 1 = 1 → t.fab.out =
        .readData .mgmt ((p.blk.idx - 1) * 0x10000 + p.inst * 0x40 + k * 8) ((s.fab.cnt p k).toNat % 2 ^ 32) :: s.fab.out ∧
        t.latched .mgmt (bar2Key ((p.blk.idx - 1) * 0x10000 + p.inst * 0x40 + k * 8)) =
          some (BitVec.ofNat 32 ((s.fab.cnt p k).toNat / 2 ^ 32))) ∧
      (getBits (s.fab.reg (p.base + 0x200 + 4 * k)) 13 1 = 0 → t.fab.out =
        .readData .mgmt ((p.blk.idx - 1) * 0x10000 + p.inst * 0x40 + k * 8) 0 :: s.fab.out) ∧
      t = { s with fab := { s.fab with out := t.fab.out, latchM := t.fab.latchM } })

/-- Register writes by access code, shadow and active offsets, requester, BAR and endpoint state. Rests on R17, R59. -/
def Obligations.RegisterWrites : Prop :=
  (∀ (s : State) (rq : Requester) (p : Page) (k : Nat) (v : BitVec 64), s.barOpen rq = true → p ∈ allPages → k < 8 →
    (∃ t, exec (.regWrite rq .bar0 (p.base + 0x240 + 8 * k) true v {}) s = .next t ∧ t.fab.cnt p k = v.setWidth 48 ∧
      (∀ q : Page, q ∈ allPages → ∀ j : Nat, j < 8 → q ≠ p ∨ j ≠ k → t.fab.cnt q j = s.fab.cnt q j) ∧ Safety.OnlyCounts s t) ∧
    (∀ met : Nat, ∃ t, exec (.regWrite rq .bar0 (p.base + 0x240 + 8 * k) true v ⟨false, met⟩) s = .next t ∧ t.fab.cnt p k = v.setWidth 48 ∧
      Safety.OnlyCounts s t)) ∧
  (∀ (s : State) (p : Page) (d : RegDef) (n off : Nat) (v : BitVec 64), s.fab.ep.dstate = .d0 → p ∈ allPages → off < 0x10000 →
    regAt p off = some (.shadow, d, n) → off % 4 = 0 →
    (s.isStandby = false → s.swapBusy = false → ∃ t, exec (.regWrite .mgmt .bar0 (p.base + off) false v {}) s = .next t ∧
      t.fab.reg (p.base + off) = d.fields.foldl (fun x r => setBits x r.lo r.w (bitsOf (v.toNat % 2 ^ 32) r.lo r.w)) (s.fab.reg (p.base + off)) ∧
      (t.fab.page p).shdDirty = true ∧ (t.fab.page p).state = (s.fab.page p).state ∧ t.get pgDev F.SWAP_STAT_REVERT_OK = 0 ∧
      (∀ a : Nat, a ≠ p.base + off → a ≠ 0x14 → t.fab.reg a = s.fab.reg a) ∧ Safety.OtherPages p s t ∧
      t = { s with fab := { s.fab with regs := t.fab.regs, pages := t.fab.pages } }) ∧
    (s.isStandby = false → s.swapBusy = true → ∃ t, exec (.regWrite .mgmt .bar0 (p.base + off) false v {}) s = .next t ∧
      t.get pgDev F.SWAP_STAT_LOST_WRITE = 1 ∧ Safety.Counted E.MGMT_SHD_WRITE_DROP 1 s t ∧
      (∀ a : Nat, a ≠ 0x14 → t.fab.reg a = s.fab.reg a) ∧ Safety.OnlyRegs s t) ∧
    (∃ t, exec (.regWrite .core .bar0 (p.base + off) false v {}) s = .next t ∧ Safety.Counted E.MGMT_CORE_DENIED 1 s t ∧
      Safety.OnlyCounts s t)) ∧
  (∀ (s : State) (rq : Requester) (p : Page) (d : RegDef) (n off : Nat) (v : BitVec 64), s.barOpen rq = true → p ∈ allPages →
    off < 0x10000 → regAt p off = some (.active, d, n) →
    ∃ t, exec (.regWrite rq .bar0 (p.base + off) false v {}) s = .next t ∧ t = s) ∧
  (∀ (s : State) (rq : Requester) (p : Page) (v : BitVec 64), s.barOpen rq = true → p ∈ allPages →
    ∃ t, exec (.regWrite rq .bar0 p.base false v {}) s = .next t ∧
      Safety.Counted E.MGMT_REG_RO_WRITE (if v.setWidth 32 = p.idWord then 0 else 1) s t ∧ Safety.OnlyCounts s t) ∧
  (∀ (s : State) (a : Nat) (w : Bool) (v : BitVec 64) (x : Bool), s.fab.ep.dstate = .d0 →
    ∃ t, exec (.regWrite .mgmt .bar2 a w v ⟨x, 0⟩) s = .next t ∧ t = s) ∧
  (∀ (s : State) (b : Bar) (a : Nat) (w : Bool) (v : BitVec 64) (x : Bool), s.fab.ep.dstate ≠ .d0 →
    ∃ t, exec (.regWrite .mgmt b a w v ⟨x, 0⟩) s = .next t ∧ .unsupportedRequest ∈ t.fab.ep.aer.uncStatus ∧ t.fab.regs = s.fab.regs ∧
      t.fab.cnts = s.fab.cnts ∧ t.fab.out = s.fab.out ∧ Safety.CtlSame s t ∧ Safety.NetSame s t ∧ Safety.StoreSame s t) ∧
  (∀ (s : State) (a : Nat) (w : Bool) (v : BitVec 64), s.fab.ep.dstate = .d0 →
    ∃ t, exec (.regWrite .mgmt .bar0 a w v ⟨true, 0⟩) s = .next t ∧ .poisonedTlp ∈ t.fab.ep.aer.uncStatus ∧ t.fab.regs = s.fab.regs ∧
      t.fab.cnts = s.fab.cnts ∧ t.fab.out = s.fab.out ∧ Safety.CtlSame s t ∧ Safety.NetSame s t ∧ Safety.StoreSame s t) ∧
  (∀ (s : State) (i : Nat) (v : BitVec 64), s.fab.ep.dstate = .d0 → i < 2048 → s.fab.ep.pba = [] →
    ∃ t, exec (.regWrite .mgmt .bar4 (16 * i) true v {}) s = .next t ∧
      t.fab.msixEntry i = { s.fab.msixEntry i with addr := v - v % 4 } ∧
      (∀ j : Nat, j ≠ i → t.fab.msixEntry j = s.fab.msixEntry j) ∧ t.fab.out = s.fab.out ∧ t.fab.regs = s.fab.regs ∧
      t = { s with fab := t.fab }) ∧
  (∀ (s : State) (n : Nat) (v : BitVec 64), s.fab.ep.dstate = .d0 → n < 4 →
    ∃ t, exec (.regWrite .mgmt .bar0 (0x10000440 + 16 * n) false v {}) s = .next t ∧
      t.get (pgMgmt 0) (F.EVR_LO_ADDR.idx n) = bitsOf v.toNat 5 27 ∧
      (∀ a : Nat, a ≠ 0x10000440 + 16 * n → t.fab.reg a = s.fab.reg a) ∧ t.fab.out = s.fab.out ∧ Safety.OnlyRegs s t) ∧
  (∀ (s : State) (n : Nat) (v w : BitVec 64), n < 4 → ∃ t, exec (.coreWriteRetry ⟨0x10000440 + 16 * n, false⟩ v w) s = .next t ∧
    t.get (pgMgmt 0) (F.EVR_LO_ADDR.idx n) = bitsOf w.toNat 5 27 ∧ Safety.Counted E.MGMT_CORE_RETRY 1 s t ∧
    (∀ a : Nat, a ≠ 0x10000440 + 16 * n → t.fab.reg a = s.fab.reg a) ∧ t.fab.out = s.fab.out ∧ Safety.OnlyRegs s t) ∧
  (∀ (s : State) (p : Page) (n : Nat) (v w : BitVec 64), p ∈ allPages → n < 8 →
    ∃ t, exec (.coreWriteRetry ⟨p.base + 0x100 + 4 * n, false⟩ v w) s = .next t ∧
      t.fab.reg (p.base + 0x100 + 4 * n) = s.fab.reg (p.base + 0x100 + 4 * n) &&& ~~~(v.setWidth 32 ||| w.setWidth 32) ∧
      Safety.Counted E.MGMT_CORE_RETRY 1 s t ∧
      (∀ a : Nat, a ≠ p.base + 0x100 + 4 * n → t.fab.reg a = s.fab.reg a) ∧ t.fab.out = s.fab.out ∧ Safety.OnlyRegs s t) ∧
  (∀ (s : State) (p : Page) (k : Nat) (v w : BitVec 64), p ∈ allPages → k < 8 →
    ∃ t, exec (.coreWriteRetry ⟨p.base + 0x240 + 8 * k, true⟩ v w) s = .next t ∧ t.fab.cnt p k = w.setWidth 48 ∧ Safety.OnlyCounts s t)

/-- GO, REVERT and SYNC, their refusals and rejections, the safe-point timeout, and the end of SYNC. Rests on R77, R79, R80, R82, R83. -/
def Obligations.SwapControl : Prop :=
  (∀ s : State, s.isStandby = false → s.swapBusy = false → ∃ t, exec .swapGo s = .next t ∧ t.swapBusy = true ∧ t.fab.swap.run = .go ∧
    (∀ p : Page, p ∈ allPages → s.fab.shadowOp p = false → t.failedAtStart p = s.checkPage p ∧
      (s.checkPage p = none → t.mayPass p = true)) ∧
    (∀ a : Nat, a ≠ 0x14 → t.fab.reg a = s.fab.reg a) ∧ t.get pgDev F.SWAP_STAT_REVERT_OK = s.get pgDev F.SWAP_STAT_REVERT_OK ∧
    t = { s with fab := { s.fab with regs := t.fab.regs, swap := t.fab.swap } }) ∧
  (∀ s : State, s.isStandby = false → s.swapBusy = false → s.flag pgDev F.SWAP_STAT_REVERT_OK = true →
    (s.fab.pages.any fun _ g => g.shdDirty) = false → ∃ t, exec .swapRevert s = .next t ∧ t.swapBusy = true ∧ t.fab.swap.run = .revert ∧
      (∀ a : Nat, a ≠ 0x14 → t.fab.reg a = s.fab.reg a) ∧
      t = { s with fab := { s.fab with regs := t.fab.regs, swap := t.fab.swap } }) ∧
  (∀ s : State, s.isStandby = false → s.swapBusy = false →
    s.flag pgDev F.SWAP_STAT_REVERT_OK = false ∨ (s.fab.pages.any fun _ g => g.shdDirty) = true →
    ∃ t, exec .swapRevert s = .next t ∧ Safety.Rejected 0x0005 .dev 0 0 s t) ∧
  (∀ s : State, s.isStandby = false → s.swapBusy = false → ∃ t, exec .swapSync s = .next t ∧ t.swapBusy = true ∧ t.fab.swap.run = .sync ∧
    t.get pgDev F.SWAP_STAT_REVERT_OK = 0 ∧ (∀ a : Nat, a ≠ 0x14 → t.fab.reg a = s.fab.reg a) ∧
    t = { s with fab := { s.fab with regs := t.fab.regs, swap := t.fab.swap } }) ∧
  (∀ (s : State) (g r y : Bool), s.isStandby = false → s.swapBusy = false → 2 ≤ boolNat g + boolNat r + boolNat y →
    ∃ t, exec (.swapCtlMulti g r y) s = .next t ∧ Safety.Rejected 0x0006 .dev 0 0 s t) ∧
  (∀ s : State, s.isStandby = true ∨ s.swapBusy = true →
    (∃ t, exec .swapGo s = .next t ∧ Safety.Counted E.MGMT_CTL_IGNORED 1 s t ∧ Safety.OnlyCounts s t) ∧
    (∃ t, exec .swapRevert s = .next t ∧ Safety.Counted E.MGMT_CTL_IGNORED 1 s t ∧ Safety.OnlyCounts s t) ∧
    (∃ t, exec .swapSync s = .next t ∧ Safety.Counted E.MGMT_CTL_IGNORED 1 s t ∧ Safety.OnlyCounts s t) ∧
    (∃ t, exec (.swapCtlMulti true true true) s = .next t ∧ Safety.Counted E.MGMT_CTL_IGNORED 1 s t ∧ Safety.OnlyCounts s t)) ∧
  (∀ (s : State) (p : Page) (v : Nat × Nat), s.swapRuns = true → p ∈ allPages → s.mayFail p = some v →
    ∃ t, exec (.swapReject p) s = .next t ∧ Safety.Rejected v.1 p.blk p.inst v.2 s t) ∧
  (∀ (s : State) (p : Page), s.mayFail p = none → exec (.swapReject p) s = .next s) ∧
  (∀ (s : State) (p : Page), s.swapRuns = true → p ∈ allPages → allPages.all s.mayPass = true →
    ∃ t, exec (.safePointTimeout p) s = .next t ∧ Safety.Rejected 0x0008 p.blk p.inst 0 s t) ∧
  (∀ s : State, s.fab.swap.run = .sync → ∃ t, exec .syncComplete s = .next t ∧ t.swapBusy = false ∧
    t.get pgDev F.SWAP_STAT_REVERT_OK = 0 ∧ t.get pgDev F.EPOCH_EPOCH = s.get pgDev F.EPOCH_EPOCH ∧
    (∀ p : Page, p ∈ allPages → (∀ k : Nat, k < 0x1C00 → t.fab.reg (p.base + 0x1000 + 4 * k) = s.fab.reg (p.base + 0x1000 + 4 * k) ∧
      t.fab.reg (p.base + 0x9000 + 4 * k) = s.fab.reg (p.base + 0x1000 + 4 * k)) ∧ (t.fab.page p).shdDirty = false ∧
      (t.fab.page p).state = (s.fab.page p).state ∧ ∀ m : Nat, m < 256 → ∀ i : Nat, i < 2 ^ 24 →
        t.fab.tab p false m i = s.fab.tab p false m i ∧ t.fab.tab p true m i = s.fab.tab p false m i) ∧ t.fab.out = s.fab.out ∧
    t.fab.cnts = s.fab.cnts ∧ t = { s with fab := t.fab }) ∧
  (∀ s : State, s.fab.swap.run ≠ .sync → exec .syncComplete s = .next s)

/-- A commit exchanges every page's two sets at once and steps EPOCH. Rests on R74. -/
def Obligations.ConfigurationCommit : Prop :=
  (∀ s : State, s.swapRuns = true → allPages.all s.mayPass = true → ∃ t, exec .swapCommit s = .next t ∧ t.swapBusy = false ∧
    t.get pgDev F.SWAP_STAT_RESULT = 1 ∧ t.get pgDev F.SWAP_STAT_REJECT_CODE = 0 ∧ t.get pgDev F.SWAP_STAT_REVERT_OK = 1 ∧
    t.get pgDev F.EPOCH_EPOCH = (if s.get pgDev F.EPOCH_EPOCH = 0xFFFFFFFF then 1 else s.get pgDev F.EPOCH_EPOCH + 1) ∧
    (∀ p : Page, p ∈ allPages → (∀ k : Nat, k < 0x1C00 → t.fab.reg (p.base + 0x1000 + 4 * k) = s.fab.reg (p.base + 0x9000 + 4 * k) ∧
      t.fab.reg (p.base + 0x9000 + 4 * k) = s.fab.reg (p.base + 0x1000 + 4 * k)) ∧ (t.fab.page p).shdDirty = false ∧
      ∀ d : TblDef, d ∈ tblDefs p.kind → d.shadowed = true → ∀ i : Nat, i < d.entries →
        t.fab.tab p false d.table i = s.fab.tab p true d.table i ∧ t.fab.tab p true d.table i = s.fab.tab p false d.table i) ∧
    (∀ p : Page, p ∈ allPages → (∃ k : Nat, k < 0x1C00 ∧ s.fab.reg (p.base + 0x1000 + 4 * k) ≠ s.fab.reg (p.base + 0x9000 + 4 * k)) →
      (t.fab.page p).lastEpoch = BitVec.ofNat 32 (t.get pgDev F.EPOCH_EPOCH)) ∧
    t.get pgDev F.ACC_ERR_ADDR = s.get pgDev F.ACC_ERR_ADDR ∧ t.get pgPair F.PAIR_STAT_OWN = s.get pgPair F.PAIR_STAT_OWN ∧
    t.regn.mem = s.regn.mem ∧ t.ptp = s.ptp ∧ t.pol.flash = s.pol.flash ∧ t.now = s.now ∧ t.pending = s.pending) ∧
  (∀ s : State, s.swapRuns = false ∨ allPages.all s.mayPass = false → exec .swapCommit s = .next s)

/-- PG_CTL writes move a page as Table 2.11 lists and are otherwise counted. Rests on R68, R71. -/
def Obligations.PageStates : Prop :=
  (∀ (s : State) (p : Page) (v : BitVec 32), p ∈ allPages → s.heldReset = false → v.toNat / 2 % 8 = 0 → (s.fab.page p).state = .off →
    (p.blk = .line → p.inst < 16 → s.fab.severity ⟨p, 0⟩ ≠ 2) →
    ∃ t, exec (.pageEnable p v) s = .next t ∧ (t.fab.page p).state = .starting ∧ (t.fab.page p).pendEn = false ∧
      (p.blk ∈ [.cmdq, .regn, .tmgr, .vat, .cell, .jrnl, .cmpr, .plce, .strp, .drvp, .bayp, .pair] ∨ p = pgSeal ∨ p = pgXts →
        Safety.OtherPages p s t)) ∧
  (∀ (s : State) (p : Page) (v : BitVec 32), p ∈ allPages → s.heldReset = false → v.toNat / 2 % 8 = 0 →
    (s.fab.page p).state = .draining → (s.fab.page p).toRetire = false → ∃ t, exec (.pageEnable p v) s = .next t ∧
      t.fab.page p = { s.fab.page p with pendEn := true } ∧ Safety.OtherPages p s t ∧
      t = { s with fab := { s.fab with pages := t.fab.pages } }) ∧
  (∀ (s : State) (p : Page) (v : BitVec 32), p ∈ allPages → v.toNat / 2 % 8 = 0 →
    (s.heldReset = true ∨ (s.fab.page p).state ∈ [.starting, .on, .failed, .retired] ∨
      (s.fab.page p).state = .draining ∧ (s.fab.page p).toRetire = true) →
    ∃ t, exec (.pageEnable p v) s = .next t ∧ Safety.Counted E.MGMT_CTL_IGNORED 1 s t ∧ Safety.OnlyCounts s t) ∧
  (∀ (s : State) (p : Page) (v : BitVec 32), p ∈ allPages → v.toNat % 16 / 4 = 0 → v.toNat % 2 = 0 → (s.fab.page p).state ∈ [.starting, .on] →
    (p = pgTmgr → s.fab.severity S.TMGR_METER_OVERRUN ≠ 2 ∧ s.fab.severity S.TMGR_METER_SAT ≠ 2) →
    (p.blk = .drvp → s.fab.severity (S.DRVP_WRITE_GATED.on p.inst) ≠ 2) →
    ∃ t, exec (.pageDrain p v) s = .next t ∧ (t.fab.page p).state = .draining) ∧
  (∀ (s : State) (p : Page), p ∈ allPages → s.heldReset = false → (s.fab.page p).state = .on →
    (p = pgTmgr → s.fab.severity S.TMGR_METER_OVERRUN ≠ 2 ∧ s.fab.severity S.TMGR_METER_SAT ≠ 2) → p.blk ≠ .pair → (s.fab.page p).toRetire = false →
    (p.blk = .drvp → s.fab.severity (S.DRVP_WRITE_GATED.on p.inst) ≠ 2) →
    ∃ t, exec (.pageDrain p 3) s = .next t ∧ (t.fab.page p).state = .draining ∧ (t.fab.page p).pendEn = true) ∧
  (∀ (s : State) (p : Page) (v : BitVec 32), p ∈ allPages → v.toNat % 16 / 4 = 0 → v.toNat % 2 = 0 → (s.fab.page p).state = .draining →
    (s.fab.page p).toRetire = false → (s.fab.page p).pendEn = true → ∃ t, exec (.pageDrain p v) s = .next t ∧
      t.fab.page p = { s.fab.page p with pendEn := false } ∧ Safety.OtherPages p s t ∧
      t = { s with fab := { s.fab with pages := t.fab.pages } }) ∧
  (∀ (s : State) (p : Page) (v : BitVec 32), p ∈ allPages → v.toNat % 16 / 4 = 0 → v.toNat % 2 = 0 →
    ((s.fab.page p).state ∈ [.off, .failed, .retired] ∨
      (s.fab.page p).state = .draining ∧ ((s.fab.page p).toRetire = true ∨ (s.fab.page p).pendEn = false)) →
    ∃ t, exec (.pageDrain p v) s = .next t ∧ Safety.Counted E.MGMT_CTL_IGNORED 1 s t ∧ Safety.OnlyCounts s t) ∧
  (∀ (s : State) (p : Page) (v : BitVec 32), p ∈ allPages → v.toNat % 4 = 0 → v.toNat / 8 % 2 = 0 →
    ((s.fab.page p).state ∈ [.off, .failed, .retired] → ∃ t, exec (.pageSoftReset p v) s = .next t ∧
      (t.fab.page p).state = .off ∧ (t.fab.page p).shdDirty = (s.fab.page p).shdDirty ∧
      ((s.fab.page p).state ≠ .off → (t.fab.page p).failCause = 0 ∧
        ((s.fab.page p).state = .retired → (t.fab.page p).retireCause = 0)) ∧
      (p = pgVat → t.vat = { s.vat with maxQ := 0 }) ∧ (p = pgXprt → t.get pgXprt F.MISSQ_STAT_MAX = 0) ∧
      (p.blk ∈ [.gard, .cmdq, .regn, .tmgr, .jrnl, .cmpr, .plce, .strp] →
        (∀ a : Nat, t.fab.reg a = if softResets p a then resetWord a else s.fab.reg a) ∧ Safety.OtherPages p s t ∧
        t = { s with fab := { s.fab with regs := t.fab.regs, pages := t.fab.pages } })) ∧
    ((s.fab.page p).state ∈ [.starting, .on, .draining] → ∃ t, exec (.pageSoftReset p v) s = .next t ∧
      Safety.Counted E.MGMT_CTL_IGNORED 1 s t ∧ Safety.OnlyCounts s t)) ∧
  (∀ (s : State) (p : Page), p ∈ allPages → s.heldReset = false → (s.fab.page p).state = .failed →
    (p.blk = .line → p.inst < 16 → s.fab.severity ⟨p, 0⟩ ≠ 2) → p.blk ≠ .pair →
    ∃ t, exec (.pageSoftReset p 5) s = .next t ∧ (t.fab.page p).state = .starting ∧ (t.fab.page p).failCause = 0) ∧
  (∀ (s : State) (p : Page) (v : BitVec 32), p ∈ allPages → v.toNat % 8 = 0 →
    ((s.fab.page p).state ∈ [.off, .failed] → ∃ t, exec (.pageRetire p v) s = .next t ∧
      (t.fab.page p).state = .retired ∧ (t.fab.page p).retireCause = 2 ∧ Safety.OtherPages p s t ∧
      t = { s with fab := { s.fab with pages := t.fab.pages } }) ∧
    ((s.fab.page p).state ∈ [.starting, .on, .draining, .retired] → ∃ t, exec (.pageRetire p v) s = .next t ∧
      Safety.Counted E.MGMT_CTL_IGNORED 1 s t ∧ Safety.OnlyCounts s t))

/-- The ends and bounds of STARTING and DRAINING move a page as Table 2.11 lists. Rests on R67, R68. -/
def Obligations.PageBounds : Prop :=
  (∀ (s : State) (p : Page), p ∈ allPages → (s.fab.page p).state = .starting →
    p.blk ∈ [.line, .xprt, .gard, .cmdq, .tmgr, .vat, .cell, .plce, .strp, .bayp] ∨ p ∈ [pgMgmt 0, pgMgmt 2, pgMgmt 3] →
    ∃ t, exec (.pageStartComplete p []) s = .next t ∧ t.fab.page p = { s.fab.page p with state := .on } ∧ Safety.OtherPages p s t ∧
      t = { s with fab := { s.fab with pages := t.fab.pages } }) ∧
  (∀ (s : State) (n : Nat), (s.fab.page pgSeal).state = .starting → ∃ t, exec (.pageStartComplete pgSeal [n]) s = .next t ∧
    t.fab.page pgSeal = { s.fab.page pgSeal with state := .failed, failCause := 2 } ∧ t.fab.sticky S.GARD_ENGINE_SELFTEST1 = true ∧
    Safety.OtherPages pgSeal s t ∧ t = { s with fab := t.fab }) ∧
  (∀ s : State, (s.fab.page pgJrnl).state = .starting → s.jrnl.restored = false →
    ∃ t, exec (.pageStartComplete pgJrnl []) s = .next t ∧ t = s) ∧
  (∀ (s : State) (p : Page) (l : List Nat), p ∈ allPages → p.blk ≠ .pair → (s.fab.page p).state ≠ .starting →
    ∃ t, exec (.pageStartComplete p l) s = .next t ∧ Safety.Counted E.MGMT_CTL_IGNORED 1 s t ∧ Safety.OnlyCounts s t) ∧
  (∀ (s : State) (p : Page), p ∈ allPages → (s.fab.page p).state = .starting →
    s.startBounded p = true → ∃ t, exec (.pageStartTimeout p) s = .next t ∧ t.fab.page p = { s.fab.page p with state := .failed, failCause := 1 } ∧
      (p.blk ∉ [.line, .drvp, .bayp] → Safety.OtherPages p s t ∧ t = { s with fab := { s.fab with pages := t.fab.pages } })) ∧
  (∀ (s : State) (p : Page), p ∈ allPages → s.startBounded p = false → exec (.pageStartTimeout p) s = .next s) ∧
  (∀ (s : State) (b : Nat), s.startBounded (pgDrvp b) = s.flag (pgBayp b) F.BAY_PWR_STAT_PG) ∧
  (∀ (s : State) (p : Page), p ∈ allPages → (s.fab.page p).state = .draining →
    (s.drained p = false → exec (.pageDrainComplete p) s = .next s) ∧
    (s.drained p = true → (s.fab.page p).toRetire = true → ∃ t, exec (.pageDrainComplete p) s = .next t ∧
      t.fab.page p = { s.fab.page p with state := .retired, retireCause := 1, toRetire := false } ∧
      (p.blk ∉ [.line, .drvp] → Safety.OtherPages p s t ∧ t = { s with fab := { s.fab with pages := t.fab.pages } })) ∧
    (s.drained p = true → (s.fab.page p).toRetire = false → ∃ t, exec (.pageDrainComplete p) s = .next t ∧
      t.fab.page p = { s.fab.page p with state := .off } ∧
      (p.blk ∉ [.line, .drvp] → Safety.OtherPages p s t ∧ t = { s with fab := { s.fab with pages := t.fab.pages } })) ∧
    (∃ t, exec (.pageDrainTimeout p) s = .next t ∧
      t.fab.page p = { s.fab.page p with state := .failed, failCause := 3, pendEn := false, toRetire := false } ∧
      (p.blk ∉ [.line, .drvp] → Safety.OtherPages p s t ∧ t = { s with fab := { s.fab with pages := t.fab.pages } }))) ∧
  (∀ (s : State) (p : Page), p ∈ allPages → (s.fab.page p).state ≠ .draining →
    (∃ t, exec (.pageDrainComplete p) s = .next t ∧ Safety.Counted E.MGMT_CTL_IGNORED 1 s t ∧ Safety.OnlyCounts s t) ∧
    (∃ t, exec (.pageDrainTimeout p) s = .next t ∧ Safety.Counted E.MGMT_CTL_IGNORED 1 s t ∧ Safety.OnlyCounts s t)) ∧
  (∀ (s : State) (p : Page), p ∈ allPages → s.pending = [] → s.pair.island.inPor = false → s.heldReset = false →
    s.ptp.half + 5 < 2000000000 → (s.now + 5) / 2000000 = s.now / 2000000 →
    (s.fab.pages.list.filter fun e => decide (e.2.state = .off) && e.2.pendEn) = [(p.base, s.fab.page p)] →
    (p.blk = .line → p.inst < 16 → s.fab.severity ⟨p, 0⟩ ≠ 2) →
    ∃ t, step s = .next t ∧ (t.fab.page p).state = .starting ∧ (t.fab.page p).pendEn = false)

/-- Table windows: what a TBL_CMD write takes, what an operation does, and each status. Rests on R86, R87. -/
def Obligations.TableWindows : Prop :=
  (∀ (s : State) (rq : Requester) (p : Page) (x : Bool) (m : Nat), p ∈ allPages → m < 256 →
    getBits (s.fab.reg (winBase p rq + 0x40)) 31 1 = 0 → ∃ t, exec (.tblReadChunk rq p x m) s = .next t ∧
      getBits (t.fab.reg (winBase p rq + 0x40)) 31 1 = 1 ∧ getBits (t.fab.reg (winBase p rq + 0x40)) 12 1 = boolNat x ∧
      getBits (t.fab.reg (winBase p rq + 0x40)) 0 8 = m ∧
      (∃ o, (t.fab.win (winBase p rq)).run = some o ∧ o.op = 1 ∧ o.sel = x ∧ o.table = m ∧
        o.index = getBits (s.fab.reg (winBase p rq)) 0 24 ∧ o.chunk = getBits (s.fab.reg (winBase p rq)) 24 5) ∧
      (∀ a : Nat, a ≠ winBase p rq + 0x40 → t.fab.reg a = s.fab.reg a) ∧ t.fab.tabs = s.fab.tabs ∧ t.fab.out = s.fab.out ∧
      t = { s with fab := t.fab }) ∧
  (∀ (s : State) (p : Page) (m : Nat), p ∈ allPages → m < 256 → getBits (s.fab.reg (winBase p .mgmt + 0x40)) 31 1 = 0 →
    s.isStandby = false → s.swapBusy = false →
    (∃ t, exec (.tblWriteChunk .mgmt p true m) s = .next t ∧ getBits (t.fab.reg (winBase p .mgmt + 0x40)) 31 1 = 1 ∧
      (∃ o, (t.fab.win (winBase p .mgmt)).run = some o ∧ o.op = 2 ∧ o.sel = true ∧ o.table = m ∧
        o.index = getBits (s.fab.reg (winBase p .mgmt)) 0 24 ∧ o.chunk = getBits (s.fab.reg (winBase p .mgmt)) 24 5 ∧
        ∀ j : Nat, j < 8 → bitsOf o.data (32 * j) 32 = (s.fab.reg (winBase p .mgmt + 0x10 + 4 * j)).toNat) ∧
      (∀ a : Nat, a ≠ winBase p .mgmt + 0x40 → t.fab.reg a = s.fab.reg a) ∧ t.fab.tabs = s.fab.tabs ∧ t = { s with fab := t.fab }) ∧
    (∃ t, exec (.tblClearEntry .mgmt p true m) s = .next t ∧ getBits (t.fab.reg (winBase p .mgmt + 0x40)) 31 1 = 1 ∧
      (∃ o, (t.fab.win (winBase p .mgmt)).run = some o ∧ o.op = 3 ∧ o.sel = true ∧ o.table = m ∧
        o.index = getBits (s.fab.reg (winBase p .mgmt)) 0 24) ∧
      (∀ a : Nat, a ≠ winBase p .mgmt + 0x40 → t.fab.reg a = s.fab.reg a) ∧ t.fab.tabs = s.fab.tabs ∧ t = { s with fab := t.fab })) ∧
  (∀ (s : State) (p : Page) (d : TblDef), p ∈ allPages → findTbl p d.table = some d → d.shadowed = true → d.table < 256 →
    (getBits (s.fab.reg (winBase p .core + 0x40)) 31 1 = 0 →
      ∀ x : Bool,
      (∃ t, exec (.tblWriteChunk .core p x d.table) s = .next t ∧ Safety.Counted E.MGMT_CORE_DENIED 1 s t ∧ Safety.OnlyCounts s t) ∧
      (∃ t, exec (.tblClearEntry .core p x d.table) s = .next t ∧ Safety.Counted E.MGMT_CORE_DENIED 1 s t ∧ Safety.OnlyCounts s t)) ∧
    (getBits (s.fab.reg (winBase p .mgmt + 0x40)) 31 1 = 0 → s.isStandby = false → s.swapBusy = true →
      ∃ t, exec (.tblWriteChunk .mgmt p true d.table) s = .next t ∧ Safety.WinEnds t .mgmt p 6 ∧
        t.get pgDev F.SWAP_STAT_LOST_WRITE = 1 ∧ Safety.Counted E.MGMT_SHD_WRITE_DROP 1 s t ∧ t.fab.tabs = s.fab.tabs ∧
        t = { s with fab := t.fab })) ∧
  (∀ (s : State) (rq : Requester) (p : Page) (x : Bool) (m : Nat), p ∈ allPages →
    getBits (s.fab.reg (winBase p rq + 0x40)) 31 1 = 1 →
    (∃ t, exec (.tblReadChunk rq p x m) s = .next t ∧ Safety.Counted E.MGMT_TBL_BUSY 1 s t ∧ Safety.OnlyCounts s t) ∧
    (∃ t, exec (.tblWriteChunk rq p x m) s = .next t ∧ Safety.Counted E.MGMT_TBL_BUSY 1 s t ∧ Safety.OnlyCounts s t) ∧
    (∃ t, exec (.tblClearEntry rq p x m) s = .next t ∧ Safety.Counted E.MGMT_TBL_BUSY 1 s t ∧ Safety.OnlyCounts s t)) ∧
  (∀ (s : State) (rq : Requester) (p : Page) (o : TblOp) (d : TblDef), p ∈ allPages → (s.fab.win (winBase p rq)).run = some o →
    s.tblAwaits p rq = false → s.tblBehind p rq o = false → o.op = 1 → findTbl p o.table = some d → o.index < d.entries →
    o.chunk < d.chunks → (o.sel = true → d.shadowed = true) → ∃ t, exec (.tblOpComplete rq p) s = .next t ∧ Safety.WinEnds t rq p 0 ∧
      (∀ j : Nat, j < 8 → (t.fab.reg (winBase p rq + 0x10 + 4 * j)).toNat =
        bytesAt (bytesAt (s.tblRead p d o.sel o.index) 0 d.size) (32 * o.chunk + 4 * j) 4) ∧ t.fab.tabs = s.fab.tabs ∧
      t.fab.out = s.fab.out ∧ t.fab.cnts = s.fab.cnts ∧ t.gard = s.gard ∧ t.regn = s.regn ∧ Safety.CtlSame s t) ∧
  (∀ (s : State) (p : Page) (o : TblOp) (d : TblDef), p ∈ allPages → (s.fab.win (winBase p .mgmt)).run = some o →
    s.tblAwaits p .mgmt = false → s.tblBehind p .mgmt o = false → o.op = 2 → o.sel = true → findTbl p o.table = some d →
    d.shadowed = true → d.chunks = 1 → o.index < d.entries → o.chunk = 0 → (s.fab.win (winBase p .mgmt)).heldEntry = none →
    (s.fab.win (winBase p .mgmt)).heldChunks = {} → ∃ t, exec (.tblOpComplete .mgmt p) s = .next t ∧ Safety.WinEnds t .mgmt p 0 ∧
      t.fab.tab p true o.table o.index = o.data % 2 ^ (8 * d.size) ∧
      t.fab.tab p false o.table o.index = s.fab.tab p false o.table o.index ∧ (t.fab.page p).shdDirty = true ∧
      t.get pgDev F.SWAP_STAT_REVERT_OK = 0 ∧ t.fab.out = s.fab.out ∧ t = { s with fab := t.fab }) ∧
  (∀ (s : State) (o : TblOp) (a b : Nat), (s.fab.win (winBase (pgGrp 0) .mgmt)).run = some o → s.tblAwaits (pgGrp 0) .mgmt = false →
    s.tblBehind (pgGrp 0) .mgmt o = false → o.op = 2 → o.sel = true → o.table = 1 → o.index < 4096 → a < 2 ^ 256 → b < 2 ^ 256 →
    (o.chunk = 0 → o.data = a → (s.fab.win (winBase (pgGrp 0) .mgmt)).heldEntry = none →
      (s.fab.win (winBase (pgGrp 0) .mgmt)).heldChunks = {} → ∃ t, exec (.tblOpComplete .mgmt (pgGrp 0)) s = .next t ∧
        Safety.WinEnds t .mgmt (pgGrp 0) 0 ∧ t.fab.tabs = s.fab.tabs ∧ t.fab.pages = s.fab.pages ∧
        (t.fab.win (winBase (pgGrp 0) .mgmt)).heldEntry = some (1, true, o.index) ∧
        (t.fab.win (winBase (pgGrp 0) .mgmt)).heldChunks.get 0 0 = a ∧ t = { s with fab := t.fab }) ∧
    (o.chunk = 1 → o.data = b → (s.fab.win (winBase (pgGrp 0) .mgmt)).heldEntry = some (1, true, o.index) →
      (s.fab.win (winBase (pgGrp 0) .mgmt)).heldChunks = ⟨[(0, a)]⟩ → ∃ t, exec (.tblOpComplete .mgmt (pgGrp 0)) s = .next t ∧
        Safety.WinEnds t .mgmt (pgGrp 0) 0 ∧ t.fab.tab (pgGrp 0) true 1 o.index = a + b * 2 ^ 256 ∧
        t.fab.tab (pgGrp 0) false 1 o.index = s.fab.tab (pgGrp 0) false 1 o.index ∧ (t.fab.page (pgGrp 0)).shdDirty = true ∧
        (t.fab.win (winBase (pgGrp 0) .mgmt)).heldEntry = none ∧ t = { s with fab := t.fab })) ∧
  (∀ (s : State) (p : Page) (o : TblOp) (d : TblDef), p ∈ allPages → (s.fab.win (winBase p .mgmt)).run = some o →
    s.tblAwaits p .mgmt = false → s.tblBehind p .mgmt o = false → o.op = 3 → o.sel = true → findTbl p o.table = some d →
    d.shadowed = true → o.index < d.entries → o.chunk < d.chunks → ∃ t, exec (.tblOpComplete .mgmt p) s = .next t ∧
      Safety.WinEnds t .mgmt p 0 ∧ t.fab.tab p true o.table o.index = 0 ∧
      t.fab.tab p false o.table o.index = s.fab.tab p false o.table o.index ∧ (t.fab.page p).shdDirty = true ∧ t = { s with fab := t.fab }) ∧
  (∀ (s : State) (rq : Requester) (p : Page) (o : TblOp), p ∈ allPages → (s.fab.win (winBase p rq)).run = some o →
    s.tblAwaits p rq = false → s.tblBehind p rq o = false →
    (findTbl p o.table = none → ∃ t, exec (.tblOpComplete rq p) s = .next t ∧ Safety.WinEnds t rq p 1 ∧ t.fab.tabs = s.fab.tabs ∧
      t = { s with fab := t.fab }) ∧
    (∀ d : TblDef, findTbl p o.table = some d →
      (d.entries ≤ o.index ∨ d.chunks ≤ o.chunk → ∃ t, exec (.tblOpComplete rq p) s = .next t ∧ Safety.WinEnds t rq p 2 ∧
        t.fab.tabs = s.fab.tabs ∧ t = { s with fab := t.fab }) ∧
      (o.index < d.entries → o.chunk < d.chunks → o.sel = true → d.shadowed = false →
        ∃ t, exec (.tblOpComplete rq p) s = .next t ∧ Safety.WinEnds t rq p 5 ∧ t.fab.tabs = s.fab.tabs ∧ t = { s with fab := t.fab }) ∧
      (o.index < d.entries → o.chunk < d.chunks → o.sel = false → o.op ≠ 1 → d.shadowed = true →
        ∃ t, exec (.tblOpComplete rq p) s = .next t ∧ Safety.WinEnds t rq p 4 ∧ t.fab.tabs = s.fab.tabs ∧ t = { s with fab := t.fab }) ∧
      (o.index < d.entries → o.chunk < d.chunks → o.sel = false → o.op ≠ 1 → d.shadowed = false → d.writable = false →
        ∃ t, exec (.tblOpComplete rq p) s = .next t ∧ Safety.WinEnds t rq p 3 ∧ t.fab.tabs = s.fab.tabs ∧ t = { s with fab := t.fab }))) ∧
  (∀ (s : State) (rq : Requester) (p : Page), p ∈ allPages → (s.fab.win (winBase p rq)).run = none →
    exec (.tblOpComplete rq p) s = .next s)

/-- Fault sources: sticky bits, page reaction, messages, forcing, masking, severities and the factory key. Rests on R676, R681, R682,
R683, R687, R689. -/
def Obligations.FaultCollector : Prop :=
  (∀ (s : State) (p : Page) (l i : Nat), (Src.mk p l).implemented = true → s.fab.sticky ⟨p, l⟩ = false →
    p.blk ∈ [.line, .xprt, .regn, .tmgr, .vat, .cell, .jrnl, .cmpr, .strp, .drvp, .bayp, .pair] →
    s.fab.severity ⟨p, l⟩ ≠ 2 → (Src.mk p l).defaultClass ≠ 2 → ∃ t, exec (.faultOccurrence p l i) s = .next t ∧
      t.fab.sticky ⟨p, l⟩ = true ∧ (∀ x : Src, x ∈ allSrcs → x ≠ ⟨p, l⟩ → t.fab.sticky x = s.fab.sticky x) ∧ t.fab.pages = s.fab.pages ∧
      (s.fab.masked ⟨p, l⟩ = true → t.fab.out = s.fab.out ∧ t.fab.ep = s.fab.ep) ∧
      (s.fab.masked ⟨p, l⟩ = false → s.fab.msixOpen (s.fab.vectorOf ⟨p, l⟩) = true →
        t.fab.out = .msix (s.fab.vectorOf ⟨p, l⟩) (s.fab.msixEntry (s.fab.vectorOf ⟨p, l⟩)).addr
          (s.fab.msixEntry (s.fab.vectorOf ⟨p, l⟩)).data :: s.fab.out ∧ t.fab.ep = s.fab.ep) ∧
      (s.fab.masked ⟨p, l⟩ = false → s.fab.msixOpen (s.fab.vectorOf ⟨p, l⟩) = false → s.fab.vectorOf ⟨p, l⟩ ∈ t.fab.ep.pba) ∧
      (∀ a : Nat, a ≠ stickyAddr p l → t.fab.reg a = s.fab.reg a) ∧ t.fab.tabs = s.fab.tabs ∧ t = { s with fab := t.fab }) ∧
  (∀ (s : State) (p : Page) (l i : Nat), (Src.mk p l).implemented = true → s.fab.sticky ⟨p, l⟩ = false →
    p.blk ∈ [.xprt, .regn, .tmgr, .vat, .cell, .jrnl, .cmpr, .strp, .pair] → s.fab.severity ⟨p, l⟩ = 2 ∨ (Src.mk p l).defaultClass = 2 →
    (s.fab.page p).state.isLive = true → ∃ t, exec (.faultOccurrence p l i) s = .next t ∧ t.fab.sticky ⟨p, l⟩ = true ∧
      (t.fab.page p).state = .failed ∧ (t.fab.page p).failCause = 2 ∧ (t.fab.page p).pendEn = ((s.fab.page p).pendEn && decide ((s.fab.page p).state ≠ .draining)) ∧
      Safety.OtherPages p s t ∧ t = { s with fab := t.fab }) ∧
  (∀ (s : State) (p : Page) (l i : Nat), s.fab.sticky ⟨p, l⟩ = true ∨ (Src.mk p l).implemented = false →
    p.blk ∈ [.line, .xprt, .regn, .tmgr, .vat, .cell, .jrnl, .cmpr, .strp, .drvp, .bayp, .pair] →
    ∃ t, exec (.faultOccurrence p l i) s = .next t ∧ t = s) ∧
  (∀ (s : State) (p : Page) (n j : Nat), p ∈ allPages → n < 8 → j < 32 → s.fab.sticky ⟨p, 32 * n + j⟩ = false →
    (s.mayForce ⟨p, 32 * n + j⟩ = true → s.fab.severity ⟨p, 32 * n + j⟩ ≠ 2 → (Src.mk p (32 * n + j)).defaultClass ≠ 2 →
      ∃ t, exec (.faultForce p n (1#32 <<< j)) s = .next t ∧ t.fab.sticky ⟨p, 32 * n + j⟩ = true ∧ t.fab.pages = s.fab.pages ∧
        (∀ a : Nat, a ≠ stickyAddr p (32 * n + j) → t.fab.reg a = s.fab.reg a) ∧ t = { s with fab := t.fab }) ∧
    (s.mayForce ⟨p, 32 * n + j⟩ = false → ∃ t, exec (.faultForce p n (1#32 <<< j)) s = .next t ∧
      Safety.Counted E.MGMT_FORCE_DENIED 1 s t ∧ Safety.OnlyCounts s t)) ∧
  (∀ s : State, s.fab.sticky ⟨pgMgmt 0, 1⟩ = false → (s.fab.page (pgMgmt 0)).state = .on →
    ∃ t, exec (.faultForce (pgMgmt 0) 0 2) s = .next t ∧ (t.fab.page (pgMgmt 0)).state = .failed ∧
      (t.fab.page (pgMgmt 0)).failCause = 2 ∧ t.fab.sticky ⟨pgMgmt 0, 1⟩ = true ∧ Safety.OtherPages (pgMgmt 0) s t) ∧
  (∀ (s : State) (p : Page) (n : Nat) (v : BitVec 32), p ∈ allPages → n < 8 →
    ∃ t, exec (.faultStickyClear p n v 0) s = .next t ∧
      t.fab.reg (p.base + 0x100 + 4 * n) = s.fab.reg (p.base + 0x100 + 4 * n) &&& ~~~v ∧
      (∀ a : Nat, a ≠ p.base + 0x100 + 4 * n → t.fab.reg a = s.fab.reg a) ∧
      t = { s with fab := { s.fab with regs := t.fab.regs } }) ∧
  (∀ (s : State) (p : Page) (n j : Nat), p ∈ allPages → n < 8 → j < 32 → s.fab.sticky ⟨p, 32 * n + j⟩ = true →
    ∃ t, exec (.faultStickyClear p n (1#32 <<< j) (1#32 <<< j)) s = .next t ∧ (∀ a : Nat, t.fab.reg a = s.fab.reg a) ∧
      t = { s with fab := { s.fab with regs := t.fab.regs } }) ∧
  (∀ (s : State) (p : Page) (n : Nat) (v : BitVec 32), p ∈ allPages → n < 8 → ∃ t, exec (.faultMaskWrite p n v 0) s = .next t ∧
    (∀ j : Nat, j < 32 → getBits (t.fab.reg (p.base + 0x120 + 4 * n)) j 1 =
      if (Src.mk p (32 * n + j)).implemented then bitsOf v.toNat j 1 else 0) ∧
    (∀ j : Nat, j < 32 → (Src.mk p (32 * n + j)).implemented = true ∧ s.fab.sticky ⟨p, 32 * n + j⟩ = true ∧
      s.fab.masked ⟨p, 32 * n + j⟩ = true ∧ bitsOf v.toNat j 1 = 0 ∧ s.fab.msixOpen (s.fab.vectorOf ⟨p, 32 * n + j⟩) = true →
      Emit.msix (s.fab.vectorOf ⟨p, 32 * n + j⟩) (s.fab.msixEntry (s.fab.vectorOf ⟨p, 32 * n + j⟩)).addr
        (s.fab.msixEntry (s.fab.vectorOf ⟨p, 32 * n + j⟩)).data ∈ t.fab.out) ∧
    ((∀ j : Nat, j < 32 → (Src.mk p (32 * n + j)).implemented = true ∧ s.fab.sticky ⟨p, 32 * n + j⟩ = true ∧
      s.fab.masked ⟨p, 32 * n + j⟩ = true → bitsOf v.toNat j 1 = 1) → t.fab.out = s.fab.out ∧ t.fab.cnts = s.fab.cnts ∧ t.fab.ep = s.fab.ep) ∧
    (∀ a : Nat, a ≠ p.base + 0x120 + 4 * n → t.fab.reg a = s.fab.reg a) ∧ t.fab.pages = s.fab.pages ∧ t = { s with fab := t.fab }) ∧
  (∀ (s : State) (p : Page) (n j : Nat) (v : BitVec 32), p ∈ allPages → n < 8 → j < 32 → v = s.fab.reg (p.base + 0x120 + 4 * n) &&& ~~~(1#32 <<< j) →
    (Src.mk p (32 * n + j)).implemented = true → s.fab.sticky ⟨p, 32 * n + j⟩ = false → s.fab.masked ⟨p, 32 * n + j⟩ = true →
    s.fab.severity ⟨p, 32 * n + j⟩ ≠ 2 → (Src.mk p (32 * n + j)).defaultClass ≠ 2 → s.fab.msixOpen (s.fab.vectorOf ⟨p, 32 * n + j⟩) = true →
    ∃ t, exec (.faultMaskWrite p n v (1#32 <<< j)) s = .next t ∧ t.fab.sticky ⟨p, 32 * n + j⟩ = true ∧
      t.fab.masked ⟨p, 32 * n + j⟩ = false ∧ t.fab.out = .msix (s.fab.vectorOf ⟨p, 32 * n + j⟩)
        (s.fab.msixEntry (s.fab.vectorOf ⟨p, 32 * n + j⟩)).addr (s.fab.msixEntry (s.fab.vectorOf ⟨p, 32 * n + j⟩)).data :: s.fab.out) ∧
  (∀ (s : State) (p : Page) (n : Nat) (v : BitVec 32), p ∈ allPages → n < 16 → ∃ t, exec (.faultSevWrite p n v) s = .next t ∧
    (∀ j : Nat, j < 16 → getBits (t.fab.reg (p.base + 0x140 + 4 * n)) (2 * j) 2 =
      if (Src.mk p (16 * n + j)).implemented = true ∧ bitsOf v.toNat (2 * j) 2 ≠ 3 then bitsOf v.toNat (2 * j) 2
      else getBits (s.fab.reg (p.base + 0x140 + 4 * n)) (2 * j) 2) ∧
    (∀ a : Nat, a ≠ p.base + 0x140 + 4 * n → t.fab.reg a = s.fab.reg a) ∧ t = { s with fab := { s.fab with regs := t.fab.regs } }) ∧
  (∀ (s : State) (v : BitVec 32),
    (s.flag (pgMgmt 2) F.FLT_TEST_STAT_STRAP = false ∨ s.flag (pgMgmt 2) F.FLT_TEST_STAT_LOCKED = true →
      exec (.factoryKeyWrite v) s = .next s) ∧
    (s.flag (pgMgmt 2) F.FLT_TEST_STAT_STRAP = true → s.flag (pgMgmt 2) F.FLT_TEST_STAT_LOCKED = false →
      ∃ t, exec (.factoryKeyWrite v) s = .next t ∧
        t.get (pgMgmt 2) F.FLT_TEST_STAT_FACTORY = (if v = Config.factoryKey then 1 else s.get (pgMgmt 2) F.FLT_TEST_STAT_FACTORY) ∧
        t.fab.factoryBad = (if v = Config.factoryKey then s.fab.factoryBad else s.fab.factoryBad + 1) ∧
        t.flag (pgMgmt 2) F.FLT_TEST_STAT_LOCKED = (decide (v ≠ Config.factoryKey) && decide (2 ≤ s.fab.factoryBad)) ∧
        Safety.Counted E.MGMT_FACTORY_KEY_BAD (if v = Config.factoryKey then 0 else 1) s t ∧
        (∀ a : Nat, a ≠ 0x10020490 → t.fab.reg a = s.fab.reg a) ∧ t.fab.out = s.fab.out ∧ t.fab.pages = s.fab.pages ∧
        t = { s with fab := t.fab }))

/-- CLEAR_ALL loads 0 into every counter; FREEZE_ALL holds every counter. Rests on R693. -/
def Obligations.CountersTogether : Prop :=
  (∀ (s : State) (z : Bool), ∃ t, exec (.counterClearAll z) s = .next t ∧ (∀ p : Page, ∀ k : Nat, t.fab.cnt p k = 0) ∧
    t.flag (pgMgmt 2) F.CNT_GLOBAL_FREEZE_ALL = z ∧ (∀ a : Nat, a ≠ 0x100204A0 → t.fab.reg a = s.fab.reg a) ∧ t.fab.out = s.fab.out ∧
    t.fab.pages = s.fab.pages ∧ Safety.OnlyRegs s t) ∧
  (∀ (s : State) (z : Bool), ∃ t, exec (.counterFreezeAll z) s = .next t ∧ t.flag (pgMgmt 2) F.CNT_GLOBAL_FREEZE_ALL = z ∧
    (∀ a : Nat, a ≠ 0x100204A0 → t.fab.reg a = s.fab.reg a) ∧ t = { s with fab := { s.fab with regs := t.fab.regs } } ∧
    (∀ e : Evt, ∀ n : Nat, z = true → ∀ p : Page, ∀ k : Nat, (t.count e n).fab.cnt p k = s.fab.cnt p k))

/-- PFC pauses and refreshes, announcements, and a received packet matched to a tenant port. Rests on R100, R106, R107, R108. -/
def Obligations.LineFlow : Prop :=
  (∀ (s : State) (port prio : Nat),
    (∃ t, exec (.pfcPauseExpiry port prio) s = .next t ∧
      t.line.pauses = s.line.pauses.filter (fun k => decide (k ≠ port * 8 + prio)) ∧ t.line.ports = s.line.ports) ∧
    (s.line.held = [] → ∃ t, exec (.pfcPauseExpiry port prio) s = .next t ∧
      t = { s with line := { s.line with pauses := s.line.pauses.filter fun k => decide (k ≠ port * 8 + prio) } }) ∧
    (∀ f : HeldFrame, s.line.held = [f] → f.port = port → f.pcp = some prio → s.portUp port = true →
      f.len ≤ s.get (pgGrp (port / 4)) F.GRP_CFG_MAX_FRAME → ∃ t, exec (.pfcPauseExpiry port prio) s = .next t ∧
        t.fab.out = f.out :: s.fab.out ∧ t.line.held = [] ∧ t.gard = s.gard ∧ t.cell = s.cell ∧ Safety.StoreSame s t ∧ Safety.CtlSame s t)) ∧
  (∀ (s : State) (port prio : Nat), s.pfcOn port prio = true → s.line.xoff.contains (port * 8 + prio) = true →
    s.get (pgGrp (port / 4)) F.PFC_THR_XON ≤ s.netCells port (some prio) → ∃ t, exec (.pfcXoffRefresh port prio) s = .next t ∧
      t.fab.out = .pfc port prio (s.get (pgGrp (port / 4)) F.PFC_CFG_QUANTA) :: s.fab.out ∧ t.line = s.line ∧
      Safety.NetSame s t ∧ Safety.StoreSame s t ∧ Safety.CtlSame s t) ∧
  (∀ (s : State) (g port n e : Nat) (v : PortSt), (port, v) ∈ s.upPorts g → s.portUp port = true → (n, e) ∈ s.fab.tports false →
    tpCovers e v.lanes = true → s.paused port ((tpTag e).map Prod.snd) = false →
    ∃ t, exec (.groupAnnounce g) s = .next t ∧
      (tpV4 e = true → lineLen (tpVlanEn e) 64 ≤ s.get (pgGrp (port / 4)) F.GRP_CFG_MAX_FRAME →
        .gratuitousArp port n ⟨broadcastMac, s.fab.portMac false port, tpTag e⟩ ∈ t.fab.out) ∧
      (tpV6 e = true → lineLen (tpVlanEn e) 90 ≤ s.get (pgGrp (port / 4)) F.GRP_CFG_MAX_FRAME →
        .unsolicitedNa port n ⟨0x333300000001, s.fab.portMac false port, tpTag e⟩ ∈ t.fab.out) ∧
      t.line.ports = s.line.ports ∧ t.line.pauses = s.line.pauses ∧ Safety.NetSame s t ∧ Safety.StoreSame s t ∧ Safety.CtlSame s t) ∧
  (∀ (s : State) (port tp dst dscp ecn : Nat) (f : Frame) (p : Packet), s.portUp port = true → s.isOn (pgGrp (port / 4)) = true →
    f.fcsOk = true → 64 ≤ f.len → f.len ≤ s.get (pgGrp (port / 4)) F.GRP_CFG_MAX_FRAME → s.macOk port f = true →
    s.get pgPair F.PAIR_STAT_ROLE ≠ 3 → s.get pgPair F.PAIR_STAT_ROLE ≠ 4 → s.pair.handover = false →
    f.body = .ipv4 true dst dscp ecn (.udp 4791 (.roce p)) → s.matchTport port (frameVlan f) false dst = some tp →
    p.opcode = 0x81 → ∃ t, exec (.rxFrame port f none) s = .next t ∧
      t.fab.out = .toXprt ⟨port, tp, f.src, decide (ecn = 3) || decide (s.get (pgGrp (port / 4)) F.ECN_CFG_MARK_THR ≤ s.netCells port none),
        .green, none⟩ p :: s.fab.out ∧ t.line = s.line ∧ Safety.NetSame s t ∧ Safety.StoreSame s t ∧ Safety.CtlSame s t)

/-- Ports and lanes: link up, training time, lock loss, retraining, narrowing and restoring. Rests on R117, R119, R121, R122. -/
def Obligations.LineLanes : Prop :=
  (∀ (s : State) (lane port : Nat) (fec : FecSecond) (v : PortSt), s.portOfLane lane = some port → s.port port = some v →
    s.isOn (pgLane lane) = true → s.get (pgLane lane) F.LANE_ERR_CFG_SYM_THR < fec.symbols →
    s.retrainCount lane < s.get (pgLane lane) F.LANE_CFG_RETRAIN_LIMIT →
    ∃ t, exec (.laneSymThreshold lane fec) s = .next t ∧ t.port port = some { v with up := false, training := true } ∧
      t.line.retrains.get lane [] = s.now :: s.line.retrains.get lane [] ∧
      Safety.NetSame s t ∧ Safety.StoreSame s t ∧ Safety.CtlSame s t) ∧
  (∀ (s : State) (port : Nat) (v : PortSt), s.port port = some v →
    (∃ l ∈ v.lanes, (s.fab.page (pgLane l)).state = .retired) →
    (s.flag (pgGrp (port / 4)) F.GRP_CFG_NARROW_EN = false → ∃ t, exec (.portNarrow port) s = .next t ∧
      t.port port = some { v with up := false, training := false } ∧ Safety.NetSame s t ∧ Safety.StoreSame s t ∧ Safety.CtlSame s t) ∧
    (∀ lanes : List Nat, s.flag (pgGrp (port / 4)) F.GRP_CFG_NARROW_EN = true → (narrowings v.lanes).find? s.lanesOn = some lanes →
      ∃ t, exec (.portNarrow port) s = .next t ∧
        t.port (lanes.headD 0) = some { lanes := lanes, training := true, narrowed := true, home := v.home } ∧
        t.gard = s.gard ∧ t.vat = s.vat ∧ t.cell = s.cell ∧ Safety.StoreSame s t ∧ Safety.CtlSame s t)) ∧
  (∀ (s : State) (g slot : Nat) (lanes : List Nat) (p : Nat) (v : PortSt), slot < 4 →
    (s.fab.grpPorts false g).find? (fun e => decide (e.1 = 4 * g + slot)) = some (4 * g + slot, lanes) →
    (p, v) ∈ s.line.ports.list → v.home = 4 * g + slot → v.narrowed = true → s.lanesOn lanes = true →
    ∃ t, exec (.portRestore g (2 ^ slot)) s = .next t ∧
      t.port (4 * g + slot) = some { lanes := lanes, training := true, home := 4 * g + slot } ∧
      t.gard = s.gard ∧ t.vat = s.vat ∧ t.cell = s.cell ∧ Safety.StoreSame s t ∧ Safety.CtlSame s t) ∧
  (∀ (s : State) (port : Nat) (v : PortSt), s.port port = some v → v.training = true → s.lanesOn v.lanes = true →
    s.isOn (pgGrp (port / 4)) = true → ∃ t, exec (.portLinkUp port) s = .next t ∧
      t.port port = some { v with up := true, training := false } ∧ Safety.StoreSame s t ∧ Safety.CtlSame s t) ∧
  (∀ (s : State) (port : Nat) (v : PortSt), s.port port = some v → v.training = true →
    ∃ t, exec (.portTrainTimeout port) s = .next t ∧ t.port port = some { v with up := false, training := true } ∧
      Safety.NetSame s t ∧ Safety.StoreSame s t ∧ Safety.CtlSame s t) ∧
  (∀ (s : State) (port : Nat) (v : PortSt), s.port port = some v → v.narrowed = true → v.up = false →
    ∃ t, exec (.narrowTimeout port) s = .next t ∧ t.port port = some { v with up := false, training := false } ∧
      Safety.NetSame s t ∧ Safety.StoreSame s t ∧ Safety.CtlSame s t) ∧
  (∀ (s : State) (lane port : Nat) (v : PortSt), s.portOfLane lane = some port → s.port port = some v → s.isOn (pgLane lane) = true →
    ∃ t, exec (.laneLockLoss lane) s = .next t ∧ (∃ w, t.port port = some w ∧ w.up = false ∧ w.lanes = v.lanes) ∧
      Safety.NetSame s t ∧ Safety.StoreSame s t ∧ Safety.CtlSame s t)

/-- The PTP counter: time of day writes, the PPS edge, reads, updates, and loss of the source. Rests on R112, R115, R116. -/
def Obligations.DeviceTime : Prop :=
  (∀ (s : State) (value : BitVec 32),
    (s.get (pgGrp 0) F.PTP_CFG_SRC = 0 → ∃ t, exec (.ptpTodWrite value) s = .next t ∧
      t.ptp = { s.ptp with sec := s.get (pgGrp 0) F.PTP_TOD_HI_SEC_HI * 2 ^ 32 + value.toNat, todPending := false } ∧
      t.line = s.line ∧ Safety.NetSame s t ∧ Safety.StoreSame s t) ∧
    (s.get (pgGrp 0) F.PTP_CFG_SRC ≠ 0 → ∃ t, exec (.ptpTodWrite value) s = .next t ∧ t.ptp = { s.ptp with todPending := true } ∧
      t.get (pgGrp 0) F.PTP_TOD_SEC = value.toNat)) ∧
  (∀ s : State, s.get (pgGrp 0) F.PTP_CFG_SRC = 1 → s.ptp.todPending = true → ∃ t, exec .ppsEdge s = .next t ∧
    t.ptp = { s.ptp with sec := s.get (pgGrp 0) F.PTP_TOD_HI_SEC_HI * 2 ^ 32 + s.get (pgGrp 0) F.PTP_TOD_SEC, half := 0, todPending := false } ∧
    t.get (pgGrp 0) F.PTP_STAT_SYNC = 0 ∧ t.line = s.line ∧ Safety.NetSame s t ∧ Safety.StoreSame s t) ∧
  (∀ (s : State) (rq : Requester), s.ptp.sec < 2 ^ 48 → ∃ t, exec (.ptpTimeRead rq) s = .next t ∧
    t.fab.out = .readData rq 0x1000428 (s.ptp.half / 2) :: s.fab.out ∧
    t.get (pgGrp 0) F.PTP_TIME_SEC_HI_SEC_HI * 2 ^ 32 + t.get (pgGrp 0) F.PTP_TIME_SEC_SEC = s.ptp.sec ∧ t.ptp = s.ptp) ∧
  (∀ (s : State) (offset : Nat), s.get (pgGrp 0) F.PTP_CFG_SRC = 2 → s.ptp.todPending = false → offset < 100000 →
    s.ptp.sec * 2000000000 + s.ptp.half + 2 * offset < 2 ^ 48 * 2000000000 → ∃ t, exec (.ptpUpdate offset offset) s = .next t ∧
      t.ptp.sec * 2000000000 + t.ptp.half = s.ptp.sec * 2000000000 + s.ptp.half + 2 * offset ∧ t.get (pgGrp 0) F.PTP_STAT_SYNC = 0) ∧
  (∀ s : State, s.get (pgGrp 0) F.PTP_STAT_SYNC = 0 → ∃ t, exec .ptpHoldoverTimeout s = .next t ∧
    t.get (pgGrp 0) F.PTP_STAT_SYNC = 1 ∧ t.ptp = s.ptp ∧ t.line = s.line ∧ Safety.NetSame s t ∧ Safety.StoreSame s t ∧ Safety.CtlSame s t) ∧
  (∀ s : State, s.get (pgGrp 0) F.PTP_STAT_SYNC = 1 → ∃ t, exec .ptpFreeTimeout s = .next t ∧
    t.get (pgGrp 0) F.PTP_STAT_SYNC = 2 ∧ t.fab.sticky S.LINE_PTP_LOSS = true ∧ t.tmgr.minute.freeRun = true ∧
    t.ptp = s.ptp ∧ t.line = s.line ∧ Safety.NetSame s t ∧ Safety.StoreSame s t ∧ Safety.CtlSame s t)

/-- What a received request, response, CNP or acknowledgement does to a READY connection. Rests on R142, R149, R150, R151, R152, R155,
R757. -/
def Obligations.PacketEffects : Prop :=
  (∀ (s : State) (rx : RxMeta) (p : Packet) (i : Nat), Safety.Reaches s rx p i → p.opcode = 0x04 → p.psn = (s.ctx i).rx.epsn →
    (s.ctx i).id.kind ≠ 2 → (s.ctx i).rx.openMsg = none → (s.ctx i).rx.dupMsg = none → rx.unit = none → p.ackReq = false →
    (s.ctx i).rx.unacked + 1 < s.get pgXprt F.XPRT_CFG_ACK_COAL → ∃ t, exec (.rxRequestPacket rx p) s = .next t ∧ (t.ctx i).rx.epsn = psnAdd p.psn 1 ∧
      (t.ctx i).rx.msn = psnAdd (s.ctx i).rx.msn 1 ∧ (t.ctx i).rx.msgs = (s.ctx i).rx.msgs ++ [⟨p.psn, rx.colour, p.payload⟩] ∧
      t.fab.out = s.fab.out ∧ t.gard = s.gard ∧ t.tmgr = s.tmgr ∧ t.cell = s.cell ∧ Safety.StoreSame s t ∧ Safety.CtlSame s t) ∧
  (∀ (s : State) (rx : RxMeta) (p : Packet) (i : Nat) (r : ReadOut), Safety.Reaches s rx p i → isReadResp p.opcode = true →
    (s.ctx i).tx.reads = [r] → r.nextPsn = r.psn → p.psn = r.psn → p.psn < 2 ^ 24 → 2 ≤ r.span → r.span < 2 ^ 23 →
    ∃ t, exec (.rxReadResponse rx p) s = .next t ∧
      (t.ctx i).tx.reads = [{ r with nextPsn := psnAdd p.psn 1, got := appendBlob r.got p.payload, resent := false }] ∧
      (t.ctx i).state = .ready ∧ t.gard = s.gard ∧ t.tmgr = s.tmgr ∧ Safety.StoreSame s t ∧ Safety.CtlSame s t) ∧
  (∀ (s : State) (rx : RxMeta) (p : Packet) (i : Nat), Safety.Reaches s rx p i → p.opcode = 0x81 → (s.ctx i).id.rcEn = true →
    (s.ctx i).tx.decSeen = false → ∃ t, exec (.rxCnp rx p) s = .next t ∧
      (t.ctx i).tx = { (s.ctx i).tx with
        rate := max (s.get pgXprt F.XPRT_RC2_RC_MIN * 100) ((s.ctx i).tx.rate - (s.ctx i).tx.rate * s.get pgXprt F.XPRT_RC_RC_DEC / 256)
        quiet := 0, lastDec := s.nowUs, decSeen := true } ∧
      (rx.unit = none → t.fab.out = s.fab.out ∧ t.cell = s.cell) ∧ t.gard = s.gard ∧ t.tmgr = s.tmgr ∧ Safety.StoreSame s t ∧ Safety.CtlSame s t) ∧
  (∀ (s : State) (rx : RxMeta) (p : Packet) (i : Nat), Safety.Reaches s rx p i → p.opcode = 0x11 → p.aeth = .ack →
    (s.ctx i).tx.reads = [] → ∃ t, exec (.rxAck rx p) s = .next t ∧
      (t.ctx i).tx.retained = (s.ctx i).tx.retained.filter (fun q => !(psnBefore q.psn (psnAdd p.psn 1) && decide (q.opcode ≠ 0x0C))) ∧
      (psnBefore (s.ctx i).tx.unaPsn (psnAdd p.psn 1) = true → (t.ctx i).tx.unaPsn = psnAdd p.psn 1 ∧
        (t.ctx i).tx.retryLeft = s.get pgXprt F.XPRT_CFG_RETRY_CNT) ∧
      (t.ctx i).state = .ready ∧ t.gard = s.gard ∧ t.tmgr = s.tmgr ∧ Safety.StoreSame s t ∧ Safety.CtlSame s t) ∧
  (∀ (s : State) (rx : RxMeta) (p : Packet) (i : Nat), Safety.Reaches s rx p i → p.opcode = 0x11 → p.aeth = .seqNak →
    (s.ctx i).tx.reads = [] → 0 < (s.ctx i).tx.retryLeft → 0 < s.get pgXprt F.XPRT_CFG_RETRY_CNT →
    ∃ t, exec (.rxSeqNak rx p) s = .next t ∧ (t.ctx i).state = .ready ∧
      (t.ctx i).tx.retained = (s.ctx i).tx.retained.filter (fun q => !(psnBefore q.psn p.psn && decide (q.opcode ≠ 0x0C))) ∧
      Safety.StoreSame s t ∧ Safety.CtlSame s t) ∧
  (∀ (s : State) (rx : RxMeta) (p : Packet) (i k : Nat), Safety.Reaches s rx p i → p.opcode = 0x11 → p.aeth = .rnr k →
    (s.ctx i).tx.reads = [] → (s.get pgXprt F.XPRT_CFG_RNR_RETRY = 7 ∨
      0 < s.get pgXprt F.XPRT_CFG_RNR_RETRY ∧ 0 < (s.ctx i).tx.rnrLeft) →
    ∃ t, exec (.rxRnrNak rx p) s = .next t ∧ (t.ctx i).state = .ready ∧ (t.ctx i).tx.rnrWait = true ∧
      t.gard = s.gard ∧ t.tmgr = s.tmgr ∧ Safety.StoreSame s t ∧ Safety.CtlSame s t) ∧
  (∀ (s : State) (rx : RxMeta) (p : Packet) (i : Nat), Safety.Reaches s rx p i → p.opcode = 0x11 →
    (p.aeth = .invalidNak ∨ p.aeth = .accessNak ∨ p.aeth = .opNak) →
    ∃ t, exec (.rxFatalNak rx p) s = .next t ∧ (t.ctx i).state = .error ∧ (t.ctx i).id.errCause = 3)

/-- Connection timers, rate increase, sending, key loads and context fetches. Rests on R145, R150, R151, R153, R155, R169, R205. -/
def Obligations.XprtTimers : Prop :=
  (∀ (s : State) (c : Nat) (j : CtxJob), Safety.Settled s → s.cached c = false → (j = .ackDelay ∨ j = .rateRise ∨ j = .ackTimer ∨
      j = .rnrTimer ∨ j = .send) → s.live c = true → (s.ctx c).rx.unacked ≠ 0 → (s.ctx c).tx.retained ≠ [] → (s.ctx c).tx.rnrWait = true →
    (s.ctx c).tx.work ≠ [] → ∃ t, exec (match j with
      | .ackDelay => .ackDelayExpiry c
      | .rateRise => .rateIncrease c
      | .ackTimer => .ackTimeout c
      | .rnrTimer => .rnrTimerExpiry c
      | _ => .xprtSend c) s = .next t ∧ c ∈ t.xprt.fetching ∧ (c, j) ∈ t.xprt.jobs ∧ t.xprt.ctx = s.xprt.ctx ∧ t.gard = s.gard ∧
      t.tmgr = s.tmgr ∧ t.cell = s.cell ∧ Safety.StoreSame s t ∧ Safety.CtlSame s t) ∧
  (∀ (s : State) (c : Nat), Safety.Settled s → s.live c = true → (s.ctx c).rx.unacked ≠ 0 → s.cached c = true → s.mirroring = false →
    (s.ctx c).rx.replies = [] → (s.ctx c).rx.inVat = [] → (s.gard.keyWaits.any fun w => decide (w.ctx = c)) = false →
    (s.ctx c).id.sealed = false → s.portUp (s.ctx c).id.egressPort = true → s.paused (s.ctx c).id.egressPort (s.ctxPcp c) = false →
    frameLen (tpVlanEn (s.fab.tport (s.ctx c).id.tport)) (s.ctx c).id.ipv6 false 4 0 ≤
      s.get (pgGrp ((s.ctx c).id.egressPort / 4)) F.GRP_CFG_MAX_FRAME →
    ∃ t, exec (.ackDelayExpiry c) s = .next t ∧ t.fab.out = .packet c (s.ctx c).id.egressPort (s.ctxHdr c (s.ctx c).id.egressPort)
        { opcode := 0x11, psn := psnSub (s.ctx c).rx.epsn 1, aeth := .ack, msn := (s.ctx c).rx.msn } none :: s.fab.out ∧
      (t.ctx c).rx = { (s.ctx c).rx with lastAckPsn := psnSub (s.ctx c).rx.epsn 1, unacked := 0 } ∧ (t.ctx c).tx = (s.ctx c).tx ∧
      t.gard = s.gard ∧ t.tmgr = s.tmgr ∧ t.cell = s.cell ∧ Safety.StoreSame s t ∧ Safety.CtlSame s t) ∧
  (∀ (s : State) (c : Nat), Safety.Settled s → s.live c = true → (s.ctx c).id.rcEn = true →
    s.cached c = true → (s.ctx c).tx.rate < s.portRate (s.ctx c).id.egressPort → ∃ t, exec (.rateIncrease c) s = .next t ∧
      (t.ctx c).tx = { (s.ctx c).tx with
        quiet := min 255 ((s.ctx c).tx.quiet + 1)
        rate := min (s.portRate (s.ctx c).id.egressPort) ((s.ctx c).tx.rate +
          if min 255 ((s.ctx c).tx.quiet + 1) < s.get pgXprt F.XPRT_RC_RC_FAST_AFTER then s.get pgXprt F.XPRT_RC2_RC_ADD
          else 8 * s.get pgXprt F.XPRT_RC2_RC_ADD) } ∧
      t.gard = s.gard ∧ t.tmgr = s.tmgr ∧ t.cell = s.cell ∧ Safety.StoreSame s t ∧ Safety.CtlSame s t) ∧
  (∀ (s : State) (c : Nat), Safety.Settled s → s.cached c = true → s.live c = true → s.probing c = false → (s.ctx c).tx.retained ≠ [] →
    (0 < (s.ctx c).tx.retryLeft → Safety.MaySeal s c (s.ctx c).tx.retained.length → ∃ t, exec (.ackTimeout c) s = .next t ∧ (t.ctx c).tx = { (s.ctx c).tx with
        retryLeft := (s.ctx c).tx.retryLeft - 1, reads := (s.ctx c).tx.reads.map fun r => { r with resent := false } } ∧
      (t.ctx c).state = .ready ∧ t.cell = s.cell ∧ Safety.StoreSame s t ∧ Safety.CtlSame s t) ∧
    ((s.ctx c).tx.retryLeft = 0 → ∃ t, exec (.ackTimeout c) s = .next t ∧ (t.ctx c).state = .error ∧ (t.ctx c).id.errCause = 1)) ∧
  (∀ (s : State) (c : Nat), Safety.Settled s → s.cached c = true → s.live c = true → (s.ctx c).tx.rnrWait = true →
    Safety.MaySeal s c (s.ctx c).tx.retained.length → ∃ t, exec (.rnrTimerExpiry c) s = .next t ∧
    (t.ctx c).tx = { (s.ctx c).tx with rnrWait := false } ∧ (t.ctx c).state = .ready ∧
    t.cell = s.cell ∧ Safety.StoreSame s t ∧ Safety.CtlSame s t) ∧
  (∀ (s : State) (c va rkey : Nat) (d : Blob) (cells : Option UnitKind), Safety.Settled s → s.cached c = true → s.live c = true →
    (s.ctx c).tx.work = [.write va rkey d cells] → s.mirroring = false → s.syncing = false →
    (s.ctx c).id.sealed = false → 0 < d.len → d.len ≤ (s.ctx c).mtu → ∃ t, exec (.xprtSend c) s = .next t ∧
      (t.ctx c).tx = { (s.ctx c).tx with
        work := [], nextPsn := psnAdd (s.ctx c).tx.nextPsn 1, retained := (s.ctx c).tx.retained ++
          [{ opcode := 0x0A, psn := psnAdd (s.ctx c).tx.nextPsn 0, ackReq := true, va := va, rkey := rkey, dmaLen := d.len
             payload := ⟨d.len, bytesAt d.val 0 d.len⟩ }] } ∧
      (t.ctx c).state = .ready ∧ Safety.StoreSame s t ∧ Safety.CtlSame s t) ∧
  (∀ (s : State) (c : Nat), (s.ctx c).id.sealed = true → (s.ctx c).state ≠ .free →
    (s.keySlot c (!(s.ctx c).sl.rxPhase)).rx.epoch + 1 = (s.keySlot c (s.ctx c).sl.rxPhase).rx.epoch → ∃ t,
      exec (.rekeyLoad c true) s = .next t ∧
      (t.keySlot c (!(s.ctx c).sl.rxPhase)).rx.epoch = (s.keySlot c (s.ctx c).sl.rxPhase).rx.epoch + 1 ∧
      (t.keySlot c (!(s.ctx c).sl.rxPhase)).rx.ready = true ∧
      (t.keySlot c (!(s.ctx c).sl.rxPhase)).tx = (s.keySlot c (!(s.ctx c).sl.rxPhase)).tx ∧
      t.keySlot c (s.ctx c).sl.rxPhase = s.keySlot c (s.ctx c).sl.rxPhase ∧ t.xprt = s.xprt ∧ t.fab = s.fab ∧
      t.tmgr = s.tmgr ∧ t.cell = s.cell ∧ Safety.StoreSame s t ∧ Safety.CtlSame s t) ∧
  (∀ (s : State) (c : Nat), Safety.Settled s → c ∈ s.xprt.fetching → (s.ctx c).state ≠ .free → s.xprt.cache.length < 8192 →
    (s.xprt.missq.any fun q => decide (q.ctx = c)) = false → (s.xprt.jobs.any fun e => decide (e.1 = c)) = false →
    ∃ t, exec (.ctxFetchComplete c false false) s = .next t ∧ t.cached c = true ∧ c ∉ t.xprt.fetching ∧ t.ctx c = s.ctx c ∧
      t.gard = s.gard ∧ t.tmgr = s.tmgr ∧ t.cell = s.cell ∧ Safety.StoreSame s t ∧ Safety.CtlSame s t)

/-- Connection set-up and tear-down by the CM messages and their timers. Rests on R133, R134, R159, R758. -/
def Obligations.Connections : Prop :=
  (∀ (s : State) (r : CmReq), s.isLive pgXprt = true → s.xprt.reqs.length < 4096 → ∃ t, exec (.cmReq r) s = .next t ∧
    t = { s with xprt := { s.xprt with reqs := s.xprt.reqs ++ [r] } }) ∧
  (∀ (s : State) (r : CmReq) (rest : List CmReq) (priv sport pick psn : Nat), s.isLive pgXprt = true → s.xprt.reqs = r :: rest →
    s.repeatOf r = none →
    (∀ st : Nat, s.rejectStatus r priv = some st → Safety.Leaves s r.port (cmLen (tpTag (s.fab.tport r.tport)).isSome r.ipv6)
        ((tpTag (s.fab.tport r.tport)).map Prod.snd) → ∃ t, exec (.cmReqAnswer priv sport pick psn) s = .next t ∧
      Emit.cmRej r.hostQpn st r.port (s.netHdr r.tport r.port r.ipv6 r.srcMac r.remoteIp sport) ∈ t.fab.out ∧ t.xprt = { s.xprt with reqs := rest } ∧ t.gard = s.gard ∧
      Safety.StoreSame s t ∧ Safety.CtlSame s t) ∧
    (s.rejectStatus r priv = none → pick < 65536 → (s.ctx pick).state = .free → ∃ t, exec (.cmReqAnswer priv sport pick psn) s = .next t ∧
      (t.ctx pick).state = .connecting ∧ (t.ctx pick).id.remoteQpn = r.hostQpn ∧ (t.ctx pick).rx.epsn = r.startPsn ∧
      (t.ctx pick).tx.nextPsn = psn % 2 ^ 24 ∧ t.jrnl = s.jrnl ∧ t.strp = s.strp ∧ t.drvp = s.drvp ∧ t.regn = s.regn ∧ Safety.CtlSame s t)) ∧
  (∀ (s : State) (c : Nat), s.isLive pgXprt = true → s.probing c = false → (s.ctx c).state = .connecting →
    (∃ t, exec (.cmRtu c) s = .next t ∧ t.ctx c = { s.ctx c with state := .ready } ∧ t.fab = s.fab ∧ t.gard = s.gard ∧ t.tmgr = s.tmgr ∧
      t.cell = s.cell ∧ Safety.StoreSame s t ∧ Safety.CtlSame s t) ∧
    (∃ t, exec (.cmRej c) s = .next t ∧ (t.ctx c).state = .timewait) ∧
    (Safety.Settled s → s.cached c = true → (s.ctx c).tx.sends < 4 → Safety.CmLeaves s c → ∃ t, exec (.repRetryTimeout c) s = .next t ∧
      (t.ctx c).tx.sends = (s.ctx c).tx.sends + 1 ∧ t.fab.out = .cmRep c (s.ctx c).id.egressPort (s.ctxHdr c (s.ctx c).id.egressPort)
        (repPriv (s.ctx c).id) :: s.fab.out ∧
      Safety.StoreSame s t ∧ Safety.CtlSame s t) ∧
    (Safety.Settled s → s.cached c = true → 4 ≤ (s.ctx c).tx.sends → ∃ t, exec (.repRetryTimeout c) s = .next t ∧ (t.ctx c).state = .timewait ∧ (t.ctx c).id.errCause = 10)) ∧
  (∀ (s : State) (c : Nat), s.isLive pgXprt = true → (s.ctx c).state = .ready → ∃ t, exec (.cmDreq c) s = .next t ∧
    (t.ctx c).state = .timewait ∧
    (Safety.CmLeaves s c → Emit.cmDrep c (s.ctx c).id.egressPort (s.ctxHdr c (s.ctx c).id.egressPort) ∈ t.fab.out)) ∧
  (∀ (s : State) (c : Nat), (s.ctx c).state = .closing →
    (s.isLive pgXprt = true → ∃ t, exec (.cmDrep c) s = .next t ∧ (t.ctx c).state = .timewait) ∧
    (s.isLive pgXprt = true → Safety.Settled s → s.cached c = true → (s.ctx c).tx.sends < 3 → Safety.CmLeaves s c →
      ∃ t, exec (.dreqRetryTimeout c) s = .next t ∧ (t.ctx c).tx.sends = (s.ctx c).tx.sends + 1 ∧ (t.ctx c).state = .closing ∧
      t.fab.out = .cmDreq c (s.ctx c).id.egressPort (s.ctxHdr c (s.ctx c).id.egressPort) :: s.fab.out ∧ Safety.StoreSame s t ∧ Safety.CtlSame s t) ∧
    (s.isLive pgXprt = true → Safety.Settled s → s.cached c = true → 3 ≤ (s.ctx c).tx.sends → ∃ t, exec (.dreqRetryTimeout c) s = .next t ∧ (t.ctx c).state = .timewait)) ∧
  (∀ s : State, s.isLive pgXprt = true →
    (∃ t, exec (.cmUnsupported true) s = .next t ∧ t.fab.sticky S.XPRT_CM_PROTO = true ∧ Safety.NetSame s t ∧ Safety.StoreSame s t) ∧
    (∃ t, exec (.cmUnsupported false) s = .next t ∧ t = s.count E.XPRT_CM_UNSUPPORTED 1 ∧
      t.fab.out = s.fab.out ∧ Safety.NetSame s t ∧ Safety.StoreSame s t)) ∧
  (∀ (s : State) (c : Nat), (s.ctx c).state = .error → ∃ t, exec (.flushComplete c) s = .next t ∧ (t.ctx c).state = .closing ∧
    (s.isLive pgXprt = true → Safety.CmLeaves s c → (t.ctx c).tx.sends = 1 ∧
      t.fab.out = .cmDreq c (s.ctx c).id.egressPort (s.ctxHdr c (s.ctx c).id.egressPort) :: s.fab.out) ∧
    Safety.StoreSame s t ∧ Safety.CtlSame s t) ∧
  (∀ (s : State) (c : Nat) (j : CtxJob), Safety.Settled s → s.cached c = false → s.isLive pgXprt = true → s.probing c = false →
    ((j = .repTimer ∧ (s.ctx c).state = .connecting) ∨ (j = .dreqTimer ∧ (s.ctx c).state = .closing) ∨
      (j = .timewait ∧ (s.ctx c).state = .timewait)) → ∃ t, exec (match j with
      | .repTimer => .repRetryTimeout c
      | .dreqTimer => .dreqRetryTimeout c
      | _ => .timewaitExpiry c) s = .next t ∧ c ∈ t.xprt.fetching ∧ (c, j) ∈ t.xprt.jobs ∧ t.xprt.ctx = s.xprt.ctx ∧ t.gard = s.gard ∧
      t.tmgr = s.tmgr ∧ t.cell = s.cell ∧ Safety.StoreSame s t ∧ Safety.CtlSame s t) ∧
  (∀ (s : State) (c : Nat), (s.ctx c).state = .timewait → s.cached c = true → Safety.Settled s → ∃ t, exec (.timewaitExpiry c) s = .next t ∧
    t.ctx c = { incarnation := if (s.ctx c).incarnation = 255 then 1 else (s.ctx c).incarnation + 1 } ∧ t.cached c = false ∧
    t.fab.out = s.fab.out ∧ Safety.StoreSame s t ∧ Safety.CtlSame s t) ∧
  (∀ (s : State) (c : Nat) (value : BitVec 32), c < 65536 → value.toNat = 2 ^ 31 + c → (s.ctx c).state = .ready → ∃ t,
    exec (.xprtClose value) s = .next t ∧ (t.ctx c).state = .closing ∧ (t.ctx c).id.errCause = 8 ∧
    (s.isLive pgXprt = true → Safety.CmLeaves s c →
      Emit.cmDreq c (s.ctx c).id.egressPort (s.ctxHdr c (s.ctx c).id.egressPort) ∈ t.fab.out))

/-- Region keys: an uncorrectable key, retirement, the partner's confirmation, and the quiet time. Rests on R181, R185. -/
def Obligations.RegionKeys : Prop :=
  (∀ (s : State) (x : Nat) (w : KeyWait), s.gard.keyWaits = [w] → w.index = x → ∃ t, exec (.keyFetchComplete x true) s = .next t ∧
    (t.key x).bad = true ∧ t.fab.sticky S.GARD_KEY_UE = true ∧ t.gard.keyWaits = [] ∧
    (∀ (p : Packet) (dup : Bool) (seen : Nat), w.what = .read p dup seen → Safety.Settled s → (s.ctx w.ctx).id.sealed = false →
      Safety.StoreSame s t)) ∧
  (∀ (s : State) (x : Nat), 0 < x → x < 2 ^ 20 → s.flag pgKeys F.KEY_OP_STAT_BUSY = false → s.mirroring = false →
    s.syncing = false → (s.key x).state = 1 →
    ∃ t, exec (.keyRetire x) s = .next t ∧
      t.key x = { s.key x with state := if (s.key x).inflight = 0 then 3 else 2, gen := ((s.key x).gen + 1) % 256 } ∧
      t.get pgKeys F.KEY_OP_STAT_STATUS = 0 ∧ t.get pgKeys F.KEY_OP_STAT_NEW_GEN = ((s.key x).gen + 1) % 256 ∧
      t.flag pgKeys F.KEY_OP_STAT_BUSY = false ∧ t.xprt = s.xprt ∧ t.fab.out = s.fab.out ∧ t.cell = s.cell ∧
      Safety.StoreSame s t ∧ Safety.CtlSame s t) ∧
  (∀ (s : State) (x : Nat) (rest : List KeyChange), s.gard.keyChange = .retire x :: rest → (s.key x).state = 1 →
    s.regn.retireHeld = none →
    ∃ t, exec .keyChangeConfirm s = .next t ∧ t.gard.keyChange = rest ∧
      t.key x = { s.key x with state := if (s.key x).inflight = 0 then 3 else 2, gen := ((s.key x).gen + 1) % 256 } ∧
      t.flag pgKeys F.KEY_OP_STAT_BUSY = false ∧ t.xprt = s.xprt ∧ t.fab.out = s.fab.out ∧ t.cell = s.cell ∧
      Safety.StoreSame s t ∧ Safety.CtlSame s t) ∧
  (∀ (s : State) (x : Nat), (s.key x).state = 3 → ∃ t, exec (.keyQuietExpiry x) s = .next t ∧
    t.key x = { s.key x with state := 0, bad := false } ∧ t.xprt = s.xprt ∧ t.fab.out = s.fab.out ∧ t.cell = s.cell ∧
    Safety.StoreSame s t ∧ Safety.CtlSame s t)

/-- A command slot from its capsule to the end of its response, keep-alive expiry, and the firmware hold. Rests on R242, R243, R244, R260,
R262, R335. -/
def Obligations.SlotLife : Prop :=
  (∀ (s : State) (i : Nat) (q : Queue) (m : InSend) (rest : List InSend), s.isLive pgCmdq = true → (s.ctx i).state = .ready →
    s.queue i = some q → (s.ctx i).rx.msgs = m :: rest →
    (s.queueLoad i < 32 → ∃ t, exec (.capsuleRx i) s = .next t ∧ ∃ q',  t.queue i = some q' ∧
      q'.staging.map Capsule.sqe = q.staging.map Capsule.sqe ++ [m.data.val % 2 ^ 512] ∧ (t.ctx i).rx.msgs = rest ∧ (t.ctx i).state = .ready) ∧
    (32 ≤ s.queueLoad i → ∃ t, exec (.capsuleRx i) s = .next t ∧ (t.ctx i).state = .closing ∧ (t.ctx i).id.errCause = 9)) ∧
  (∀ (s : State) (i k : Nat) (low : Bool) (q : Queue) (c : Capsule) (rest : List Capsule), s.isOn pgCmdq = true →
    s.nextQueue = some (i, low) → s.queue i = some q → q.staging = c :: rest → q.qid = 0 → q.ctrl = some k → (∀ v, s.ctrl k = some v → v.discovery = false) →
    q.authReq = false → s.flag pgCmdq F.CMDQ_FW_HOLD = false → opcValid false false 0 c.sqe = true → ∃ t, exec .slotAssign s = .next t ∧ ∃ x,
      t.slot s.freeSlotIndex = some x ∧ x.state = .started ∧ x.sqe = c.sqe ∧ x.conn = i ∧ x.tenant = q.tenant) ∧
  (∀ (s : State) (n : Nat) (x : Slot), s.isLive pgCmdq = true → s.slot n = some x → x.state = .fetched → n ∈ s.tmgr.chosen →
    sqeOpc x.sqe = 0x01 → x.wanted = 0 → x.fetched = false → ∃ t, exec (.cmdAdmit n) s = .next t ∧
      t.slot n = some { x with state := .started, wanted := x.bytes } ∧
      (t.ctx x.conn).tx.work = (s.ctx x.conn).tx.work ++
        [.read (sqeSglAddr x.sqe) (sqeSglKey x.sqe) x.bytes n] ∧ t.fab = s.fab) ∧
  (∀ (s : State) (n : Nat) (x : Slot) (c : Cpl), s.isLive pgCmdq = true → s.slot n = some x → x.state = .started → x.outcome = some c →
    x.discard = false → (x.qid = 0 ∨ sqeOpc x.sqe ≠ 0x02) → ∃ t, exec (.cmdCommit n) s = .next t ∧ ∃ y,  t.slot n = some y ∧
      y.state = .completed ∧ y.cpl = c ∧ y.outcome = none ∧ y.sqe = x.sqe) ∧
  (∀ (s : State) (n : Nat) (x : Slot), s.xprt.ackedSlots = [n] → s.slot n = some x → x.state = .completed →
    (s.slotBusy n = false → ∃ t, exec (.responseAcked n) s = .next t ∧ t.slot n = none ∧ t.xprt.ackedSlots = []) ∧
    (s.slotBusy n = true → ∃ t, exec (.responseAcked n) s = .next t ∧ t.slot n = some { x with orphan := true } ∧
      t.xprt.ackedSlots = [] ∧ t.fab = s.fab)) ∧
  (∀ (s : State) (k : Nat) (c : Ctrl), s.ctrl k = some c → c.kato ≠ 0 → s.flag pgCmdq F.CMDQ_FW_HOLD = false →
    ∃ t, exec (.katoExpiry k) s = .next t ∧ t.fab.sticky S.CMDQ_KATO_EXPIRED = true) ∧
  (∀ s : State, s.flag pgCmdq F.CMDQ_FW_HOLD = true → s.cmdq.held = [] → s.cmdq.ctrls = {} → s.fab.ep.mbox = none →
    (∃ t, exec .fwHoldEnd s = .next t ∧ t.flag pgCmdq F.CMDQ_FW_HOLD = false ∧ t.fab.out = s.fab.out ∧ t.xprt = s.xprt ∧
      Safety.CtlSame s t) ∧
    (∃ t, exec .fwHoldTimeout s = .next t ∧ t.flag pgCmdq F.CMDQ_FW_HOLD = false ∧ t.fab.sticky S.CMDQ_FW_HOLD_LONG = true ∧
      t.xprt = s.xprt ∧ Safety.CtlSame s t))

/-- Flush, Write, Read, Write Zeroes and Dataset Management as slots run them. Rests on R31, R245, R255, R397. -/
def Obligations.IoCommands : Prop :=
  (∀ (s : State) (n : Nat) (x : Slot), s.ioCmd n 0x00 = some x → s.flushReady x = true → ∃ t, exec (.flush n) s = .next t ∧
    t.slot n = some { x with outcome := some {} } ∧ t.fab = s.fab ∧ t.regn = s.regn ∧ t.jrnl = s.jrnl ∧ Safety.NetSame s t ∧ Safety.CtlSame s t) ∧
  (∀ (s : State) (n : Nat) (x : Slot), s.ioCmd n 0x01 = some x → x.wanted = 0 → x.fetched = false → ∃ t, exec (.write n) s = .next t ∧
    t.slot n = some { x with wanted := x.bytes } ∧ (t.ctx x.conn).tx.work = (s.ctx x.conn).tx.work ++
      [.read (sqeSglAddr x.sqe) (sqeSglKey x.sqe) x.bytes n] ∧
    t.fab = s.fab ∧ t.regn = s.regn ∧ t.jrnl = s.jrnl ∧ t.cell = s.cell ∧ Safety.CtlSame s t) ∧
  (∀ (s : State) (n : Nat) (x : Slot), s.ioCmd n 0x02 = some x → s.saving = false → x.begun = true →
    (s.cmpr.reads.any fun _ r => decide (r.for_ = .slot n)) = false →
    (∀ u ∈ unitsOf (sqeSlba x.sqe * x.lba) x.bytes, u ∈ x.looked) → ∃ t, exec (.read n) s = .next t ∧
      t.slot n = some { x with outcome := some {}, bytesDone := x.bytes } ∧ t.regn = s.regn ∧ t.jrnl = s.jrnl) ∧
  (∀ (s : State) (n : Nat) (x : Slot), s.ioCmd n 0x08 = some x → x.recsMade = false → s.isLive pgJrnl = true → s.saving = false →
    (s.findSpace 256).isSome = true → ∃ t, exec (.writeZeroes n) s = .next t ∧
      (∃ y, t.slot n = some y ∧ y.recsMade = true ∧ y.recsOpen = 1 ∧ y.state = .started) ∧ (∃ r, t.jrec s.jrnl.nextRec = some r ∧
        r.type = 2 ∧ r.state = .opened ∧ r.volume = x.volume ∧ r.offset = sqeSlba x.sqe * x.lba ∧ r.len = x.bytes / 512 ∧
        r.slot = some n) ∧ t.regn = s.regn ∧ t.xprt = s.xprt ∧ t.cell = s.cell) ∧
  (∀ (s : State) (n : Nat) (x : Slot), s.ioCmd n 0x09 = some x →
    (x.fetched = false → x.wanted = 0 → ∃ t, exec (.datasetManagement n) s = .next t ∧
      t.slot n = some { x with wanted := 16 * (sqeCdw x.sqe 10 % 256 + 1) } ∧ t.fab = s.fab ∧ t.regn = s.regn ∧ t.jrnl = s.jrnl ∧
      Safety.CtlSame s t) ∧
    (x.fetched = true → x.recsMade = false → (∃ r ∈ dsmRanges x, nsSize x.nsEnt < r.1 + r.2) → ∃ t,
      exec (.datasetManagement n) s = .next t ∧ t.slot n = some { x with outcome := some (cplErr 0 0x80) } ∧
      t.fab = s.fab ∧ t.regn = s.regn ∧ t.jrnl = s.jrnl ∧ Safety.NetSame s t ∧ Safety.CtlSame s t) ∧
    (x.fetched = true → x.recsMade = false → (∀ r ∈ dsmRanges x, r.1 + r.2 ≤ nsSize x.nsEnt) →
      (bitAt (sqeCdw x.sqe 11) 2 = false → ∃ t, exec (.datasetManagement n) s = .next t ∧ t.slot n = some { x with outcome := some {} } ∧
        t.fab = s.fab ∧ t.regn = s.regn ∧ t.jrnl = s.jrnl ∧ Safety.NetSame s t ∧ Safety.CtlSame s t) ∧
      (bitAt (sqeCdw x.sqe 11) 2 = true → s.isLive pgJrnl = true → s.saving = false → (∃ r ∈ dsmRanges x, r.2 ≠ 0) →
        (s.findSpace (256 * (((dsmRanges x).filter fun r => decide (r.2 ≠ 0)).flatMap fun r =>
          splitExtent (r.1 * x.lba) (r.2 * x.lba / 512)).length)).isSome = true → ∃ t, exec (.datasetManagement n) s = .next t ∧
        (∃ y, t.slot n = some y ∧ y.recsMade = true ∧ y.state = .started) ∧ t.regn = s.regn ∧ t.xprt = s.xprt ∧ t.cell = s.cell)))

/-- Connect, Property Set and Get, and the authentication exchange. Rests on R211, R227, R236, R257. -/
def Obligations.Fabrics : Prop :=
  (∀ (s : State) (n k : Nat) (x : Slot) (q : Queue) (c : ConnectCmd) (d : Blob), s.adminCmd n (isFabrics 0x01) = some (x, q) →
    hostData x 1024 = .ready d → connectCmd x.sqe d.val = c → q.ctrl = none → q.qid = 0 → c.qid = 0 → 1 ≤ c.sqSize → c.sqSize ≤ 31 →
    bitAt c.cattr 2 = false → cString c.subNqn = cString (s.subNqn q.tenant) → cString c.subNqn ≠ cString discoveryNqn →
    c.cntlid = 0xFFFF → s.freeCntlid q.tenant = some k → s.authFor q.tenant c.hostNqn = none → ∃ t, exec (.connect n) s = .next t ∧
      t.slot n = some { x with cntlid := k, outcome := some { dw0 := k } } ∧
      t.queue x.conn = some { q with ctrl := some (ctrlKey q.tenant k), size := c.sqSize + 1, authReq := false, authDone := false
                                     authPhase := 0, authEntry := 0 } ∧
      (∃ v, t.ctrl (ctrlKey q.tenant k) = some v ∧ v.hostNqn = c.hostNqn ∧ v.hostId = c.hostId ∧ v.kato = c.kato ∧ v.adminConn = x.conn ∧
        v.granted = s.get pgCmdq F.CMDQ_CFG_MAX_IOQ ∧ v.discovery = false) ∧ t.fab = s.fab ∧ t.regn = s.regn ∧ Safety.NetSame s t) ∧
  (∀ (s : State) (n k : Nat) (x : Slot) (c : Ctrl), Safety.OnCtrl s n (isFabrics 0x00) x k c → x.qid = 0 → bytesAt x.sqe 44 4 = 0x14 →
    byteAt x.sqe 40 % 8 = 0 → bitAt c.cc 0 = false → bitAt (bytesAt x.sqe 48 4) 0 = true → bitsOf (bytesAt x.sqe 48 4) 14 2 = 0 →
    ∃ t, exec (.propertySet n) s = .next t ∧ t.slot n = some { x with outcome := some {} } ∧
      t.ctrl k = some { c with cc := bytesAt x.sqe 48 4, shst := 0, rdy := true } ∧ t.fab = s.fab ∧ t.regn = s.regn ∧ Safety.NetSame s t) ∧
  (∀ (s : State) (n k : Nat) (x : Slot) (c : Ctrl), Safety.OnCtrl s n (isFabrics 0x04) x k c → x.qid = 0 →
    (bytesAt x.sqe 44 4 = 0x14 → byteAt x.sqe 40 % 8 = 0 → ∃ t, exec (.propertyGet n) s = .next t ∧
      t.slot n = some { x with outcome := some { dw0 := c.cc } } ∧ t.fab = s.fab ∧ t.regn = s.regn ∧ Safety.NetSame s t) ∧
    (bytesAt x.sqe 44 4 = 0x00 → byteAt x.sqe 40 % 8 = 1 → ∃ t, exec (.propertyGet n) s = .next t ∧
      t.slot n = some { x with outcome := some { dw0 := 0x0A01001F, dw1 := 0x20 } } ∧ t.fab = s.fab ∧ Safety.NetSame s t)) ∧
  (∀ (s : State) (n nonce : Nat) (x : Slot) (q : Queue) (d : Blob) (e : AuthEnt), s.adminCmd n (isFabrics 0x05) = some (x, q) →
    hostData x 1 = .ready d → q.authEntry ≠ 0 → s.gard.auth.get (q.authEntry - 1) {} = e → e.valid = true → q.authPhase = 2 →
    byteAt d.val 0 = 1 → byteAt d.val 1 = 4 → ∃ t, exec (.authenticationSend n nonce) s = .next t ∧
      t.slot n = some { x with outcome := some {} } ∧ t.queue x.conn = some { q with authPhase := 0, authDone := true } ∧
      t.fab = s.fab.count E.GARD_AUTH_OK 1 ∧ t.regn = s.regn ∧ Safety.NetSame s t) ∧
  (∀ (s : State) (n : Nat) (x : Slot) (q : Queue), s.adminCmd n (isFabrics 0x06) = some (x, q) → q.authOut.len ≠ 0 →
    sqeSglId x.sqe = 0x40 → ∃ t, exec (.authenticationReceive n) s = .next t ∧ t.slot n = some { x with
        outcome := some {}, data := ⟨min q.authOut.len (sqeSglLen x.sqe), bytesAt q.authOut.val 0 (min q.authOut.len (sqeSglLen x.sqe))⟩ } ∧
      t.queue x.conn = some { q with authOut := ⟨0, 0⟩ } ∧ t.fab = s.fab ∧ t.regn = s.regn ∧ Safety.NetSame s t)

/-- Set and Get Features, Asynchronous Event Request, Keep Alive, Get Log Page, Identify and Abort. Rests on R229, R235, R236, R253. -/
def Obligations.AdminCommands : Prop :=
  (∀ (s : State) (n k : Nat) (x : Slot) (c : Ctrl), Safety.OnCtrl s n (isAdmin 0x09) x k c → sqeCdw x.sqe 10 % 256 = 0x0F →
    ∃ t, exec (.setFeatures n) s = .next t ∧ t.slot n = some { x with outcome := some {} } ∧
      t.ctrl k = some { c with kato := sqeCdw x.sqe 11, katoStart := s.nowMs } ∧ t.fab = s.fab ∧ t.regn = s.regn ∧ Safety.NetSame s t) ∧
  (∀ (s : State) (n k : Nat) (x : Slot) (c : Ctrl), Safety.OnCtrl s n (isAdmin 0x0A) x k c → sqeCdw x.sqe 10 % 256 = 0x07 →
    ∃ t, exec (.getFeatures n) s = .next t ∧ t.slot n = some { x with outcome := some { dw0 := c.granted - 1 + (c.grantedCq - 1) * 2 ^ 16 } } ∧
      t.fab = s.fab ∧ t.regn = s.regn ∧ Safety.NetSame s t) ∧
  (∀ (s : State) (n k : Nat) (x : Slot) (c : Ctrl), Safety.OnCtrl s n (isAdmin 0x0C) x k c → n ∉ c.aers → c.events = [] →
    c.aers.length < s.get pgCmdq F.CMDQ_CFG_AERL + 1 → ∃ t, exec (.asyncEventRequest n) s = .next t ∧
      t.slot n = some { x with holdSeq := none } ∧
      t.ctrl k = some { c with aers := c.aers ++ [n] } ∧ t.fab = s.fab ∧ t.regn = s.regn ∧ Safety.NetSame s t) ∧
  (∀ (s : State) (n k : Nat) (x : Slot) (c : Ctrl), Safety.OnCtrl s n (isAdmin 0x18) x k c →
    ∃ t, exec (.keepAlive n) s = .next t ∧ t.slot n = some { x with outcome := some {} } ∧
      t.ctrl k = some { c with katoStart := s.nowMs } ∧ t.fab = s.fab ∧ t.regn = s.regn ∧ Safety.NetSame s t) ∧
  (∀ (s : State) (n k : Nat) (x : Slot) (c : Ctrl), Safety.OnCtrl s n (isAdmin 0x02) x k c → c.discovery = false →
    sqeCdw x.sqe 10 % 256 = 0x04 → bitAt (sqeCdw x.sqe 10) 15 = false → sqeSglId x.sqe = 0x40 → sqeCdw x.sqe 12 = 0 → sqeCdw x.sqe 13 = 0 →
    sqeCdw x.sqe 11 = 0 → bitsOf (sqeCdw x.sqe 10) 16 16 = 1023 → sqeSglLen x.sqe = 4096 → ∃ t, exec (.getLogPage n) s = .next t ∧ ∃ y,
      t.slot n = some y ∧ y.outcome = some {} ∧ y.data.len = 4096 ∧ (∃ c', t.ctrl k = some c' ∧ c'.changedNs = []) ∧
      t.fab = s.fab ∧ t.regn = s.regn ∧ Safety.NetSame s t) ∧
  (∀ (s : State) (n k : Nat) (x : Slot) (c : Ctrl), Safety.OnCtrl s n (isAdmin 0x06) x k c → c.discovery = false →
    sqeCdw x.sqe 10 % 256 = 0x02 → sqeNsid x.sqe < 0xFFFFFFFE → sqeSglId x.sqe = 0x40 → sqeSglLen x.sqe = 4096 →
    ∃ t, exec (.identify n) s = .next t ∧ ∃ y,  t.slot n = some y ∧ y.outcome = some {} ∧ y.data.len = 4096 ∧
      y.data.val = bytesAt (bytesAt (numberBlocks 32 (s.activeNsids c.tenant (sqeNsid x.sqe))) 0 4096) 0 4096 ∧
      t.fab = s.fab ∧ t.regn = s.regn ∧ Safety.NetSame s t) ∧
  (∀ (s : State) (n k : Nat) (x : Slot) (c : Ctrl), Safety.OnCtrl s n (isAdmin 0x08) x k c →
    s.abortsOut k x.order < s.get pgCmdq F.CMDQ_CFG_ACL + 1 → sqeCdw x.sqe 10 % 2 ^ 16 = 0 → ∃ t, exec (.abort n) s = .next t ∧
      t.slot n = some { x with outcome := some { dw0 := 1 } } ∧
      t.fab = (s.fab.count E.CMDQ_ABORT_RX 1).count E.CMDQ_ABORT_LOST 1 ∧ t.regn = s.regn ∧ Safety.NetSame s t)

/-- Region writes and reads, destaging, zeroing and retirement of regions. Rests on R277, R278, R281, R286, R291, R313, R315. -/
def Obligations.RegionAccess : Prop :=
  (∀ (s : State) (ue : Bool) (w : RegWrite), s.regn.writes = [w] → s.writeInVat w = false → w.checking = false → w.localAt = none →
    w.whole = true → w.missing = [] → w.mirrored = true → s.regn.flushes = [] →
    ∃ t, exec (.regionLocalPlaced w.id ue) s = .next t ∧ t.regn.writes = [] ∧
      (∀ k, k < w.data.len → (memRead t.regn.mem (w.addr + k)).toNat = byteAt w.data.val k) ∧
      (∀ a, a < w.addr ∨ w.addr + w.data.len ≤ a → memRead t.regn.mem a = memRead s.regn.mem a) ∧
      t.region w.region = (if w.dup then s.region w.region
        else { s.region w.region with writes := ((s.region w.region).writes + 1) % 2 ^ 64 }) ∧
      (∀ i, i ≠ w.region → t.region i = s.region i) ∧ (ue = true → t.fab.sticky S.REGN_HBM_UE = true) ∧
      (w.dup = true → ue = false → s.syncing = false → t.regn.subs = s.regn.subs ∧ t.fab.out = s.fab.out ∧ Safety.CtlSame s t) ∧
      t.xprt = s.xprt ∧ t.jrnl = s.jrnl) ∧
  (∀ (s : State) (r : RegRead), s.regn.reads = [r] → s.readMayGo r = true → s.xprt.spent = [] →
    (∃ t, exec (.regionReadExecute r.id false) s = .next t ∧ (t.ctx r.ctx).tx.work = (s.ctx r.ctx).tx.work ++
        [.readResp r.psn r.key r.seen ⟨r.len, memBytes s.regn.mem r.addr r.len⟩] ∧
      t.regn = { s.regn with reads := [] } ∧ t.gard = s.gard ∧ t.jrnl = s.jrnl ∧ t.fab.out = s.fab.out ∧ Safety.CtlSame s t) ∧
    (∃ t, exec (.regionReadExecute r.id true) s = .next t ∧ t.fab.sticky S.REGN_HBM_UE = true ∧ t.regn.reads = [] ∧
      t.regn.mem = s.regn.mem)) ∧
  (∀ (s : State) (w : RegWrite), w ∈ s.regn.writes → w.localAt.isSome = true → w.mirrored = false → w.solo = false →
    ∃ t, exec (.regnMirrorLate w.id) s = .next t ∧ t.fab.sticky S.REGN_MIRROR_LATE = true ∧ t.regn = s.regn ∧ Safety.NetSame s t ∧
      Safety.StoreSame s t ∧ Safety.CtlSame s t) ∧
  (∀ (s : State) (n : Nat), s.isLive pgRegn = true → s.flag pgRegn F.REGN_CFG_DESTAGE_EN = true → s.saving = false → s.owned = true →
    (s.regn.dirty.find n).isSome = true → s.activeUnit n = true → (s.pool (s.get pgRegn F.REGN_CFG_DESTAGE_POOL)).usable = false →
    ∃ t, exec (.destageUnit n) s = .next t ∧ t.fab.sticky S.REGN_DESTAGE_FAIL = true ∧ t.regn = s.regn ∧ Safety.NetSame s t ∧
      Safety.StoreSame s t ∧ Safety.CtlSame s t) ∧
  (∀ (s : State) (n : Nat), s.isLive pgRegn = true → s.flag pgRegn F.REGN_CFG_DESTAGE_EN = true → s.saving = false → s.owned = true →
    (s.regn.dirty.find n).isSome = true → s.activeUnit n = true → (s.pool (s.get pgRegn F.REGN_CFG_DESTAGE_POOL)).usable = true →
    (s.cmpr.writes.any fun _ w => decide (w.volume = imgVol ∧ w.lun = n)) = false →
    (16384 ≤ s.tmgr.bgGrant.get (bgLeaf (s.get pgRegn F.REGN_CFG_DESTAGE_POOL) 3) 0 → ∃ t, exec (.destageUnit n) s = .next t ∧
      t.regn.dirty.find n = none ∧ t.regn.mem = s.regn.mem ∧ (∃ k j, t.cmpr.writes.find k = some j ∧ j.volume = imgVol ∧ j.lun = n ∧
        j.data = memBytes s.regn.mem (n * 16384) 16384)) ∧
    (s.tmgr.bgGrant.get (bgLeaf (s.get pgRegn F.REGN_CFG_DESTAGE_POOL) 3) 0 < 16384 → ∃ t, exec (.destageUnit n) s = .next t ∧
      t.tmgr.bgWant.find (bgLeaf (s.get pgRegn F.REGN_CFG_DESTAGE_POOL) 3) = some 16384 ∧ t.fab = s.fab ∧ Safety.NetSame s t ∧
      Safety.StoreSame s t ∧ Safety.CtlSame s t)) ∧
  (∀ s : State, s.owned = true → s.get pgRegn F.REGN_CFG_DESTAGE_MS < s.oldestDirtyMs → ∃ t, exec .destageLag s = .next t ∧ t.fab.sticky S.REGN_DESTAGE_LAG = true ∧
    t.get pgRegn F.REGN_DESTAGE_AGE_OLDEST_MS = s.oldestDirtyMs ∧ t.regn = s.regn ∧ Safety.NetSame s t ∧ Safety.StoreSame s t ∧
    Safety.CtlSame s t) ∧
  (∀ (s : State) (i : Nat), i ∈ s.regn.zeroing → s.regn.changes = [] → s.mirroring = false → s.syncing = false → (s.region i).state = 2 →
    ∃ t, exec (.regionZeroComplete i) s = .next t ∧ t.region i = { writes := (s.region i).writes } ∧ i ∉ t.regn.zeroing ∧
      (∀ a, (s.region i).base ≤ a → a < (s.region i).base + (s.region i).size → memRead t.regn.mem a = 0) ∧
      (∀ a, a < (s.region i).base ∨ (s.region i).base + (s.region i).size ≤ a → memRead t.regn.mem a = memRead s.regn.mem a) ∧
      t.fab.out = s.fab.out ∧ Safety.NetSame s t ∧ Safety.CtlSame s t) ∧
  (∀ (s : State) (i : Nat), i < 65536 → s.flag pgRegn F.REGN_OP_STAT_BUSY = false → s.mirroring = false → s.syncing = false →
    (s.region i).state = 1 →
    (s.keysOf i ≠ 0 → ∃ t, exec (.regionRetire i) s = .next t ∧ t.get pgRegn F.REGN_OP_STAT_STATUS = 2 ∧
      t.get pgRegn F.REGN_OP_STAT_BUSY = 0 ∧ t.regn = s.regn ∧ Safety.NetSame s t ∧ Safety.CtlSame s t) ∧
    (s.keysOf i = 0 → s.subKeys i = [] → ∃ t, exec (.regionRetire i) s = .next t ∧ t.get pgRegn F.REGN_OP_STAT_STATUS = 0 ∧
      t.get pgRegn F.REGN_OP_STAT_BUSY = 0 ∧ (t.region i).state = 2 ∧ i ∈ t.regn.zeroing ∧ t.regn.mem = s.regn.mem ∧
      (∀ u ∈ s.ownUnits i, t.regn.dirty.find u = none ∧ meUnmapped (t.entry imgVol u) = true) ∧ t.xprt = s.xprt)) ∧
  (∀ (s : State) (i : Nat) (rest : List RegChange), s.regn.changes = .retire i :: rest → (s.region i).state = 1 → s.keysOf i = 0 →
    s.subKeys i = [] → ∃ t, exec .regionTableConfirm s = .next t ∧ t.regn.changes = rest ∧ (t.region i).state = 2 ∧
      i ∈ t.regn.zeroing ∧ t.get pgRegn F.REGN_OP_STAT_STATUS = 0 ∧ t.regn.mem = s.regn.mem ∧ t.xprt = s.xprt)

/-- The control messages of persistent regions and the notify records. Rests on R293, R295, R299, R302, R306, R308, R309. -/
def Obligations.RegionMessages : Prop :=
  (∀ (s : State) (i : Nat) (m : InSend), s.ctlMsg i 1 = some m → ∃ t, exec (.setPolicy i) s = .next t ∧
    (t.ctx i).id.errPolicy = decide (byteAt m.data.val 16 = 1) ∧ (t.ctx i).rx.msgs = (s.ctx i).rx.msgs.tail ∧
    (t.ctx i).tx.work = (s.ctx i).tx.work ++ [.send none none (ctlResponse 0x81 (s.ctx i).id.ocmVer (ctlTag m.data) 0 false 0)] ∧
    t.fab = s.fab ∧ t.gard = s.gard ∧ t.cell = s.cell ∧ Safety.StoreSame s t ∧ Safety.CtlSame s t) ∧
  (∀ (s : State) (i r : Nat) (m : InSend), s.ctlMsg i 2 = some m → netAt m.data.val 16 2 = r → s.mirroring = false →
    s.syncing = false →
    (s.subStatus i r = 0 → ∃ t, exec (.subscribe i) s = .next t ∧
      t.sub (r * 8 + s.subSlot r) = some { conn := i, incarnation := (s.ctx i).incarnation, subTag := netAt m.data.val 18 2
                                           ringLog2 := byteAt m.data.val 32, rkey := netAt m.data.val 20 4, va := netAt m.data.val 24 8
                                           serial := s.regn.nextId } ∧
      (t.ctx i).tx.work = (s.ctx i).tx.work ++ [.send none none (ctlResponse 0x82 (s.ctx i).id.ocmVer (ctlTag m.data) 0 false 0)] ∧
      t.regn.mem = s.regn.mem ∧ t.gard = s.gard ∧ t.cell = s.cell ∧ Safety.CtlSame s t) ∧
    (s.subStatus i r ≠ 0 → ∃ t, exec (.subscribe i) s = .next t ∧ t.regn = s.regn ∧
      (t.ctx i).tx.work = (s.ctx i).tx.work ++
        [.send none none (ctlResponse 0x82 (s.ctx i).id.ocmVer (ctlTag m.data) (s.subStatus i r) false 0)] ∧
      t.gard = s.gard ∧ t.cell = s.cell ∧ Safety.CtlSame s t)) ∧
  (∀ (s : State) (i r k : Nat) (m : InSend) (e : SubEnt), s.ctlMsg i 3 = some m → netAt m.data.val 16 2 = r → s.isOn pgRegn = true →
    (s.region r).state = 1 → (s.region r).tenant = (s.ctx i).id.tenant → s.subKeys r = [k] → s.sub k = some e → e.conn = i →
    e.ending = none → e.queued = [] → s.mirroring = false → s.syncing = false → ∃ t, exec (.unsubscribe i) s = .next t ∧ t.sub k = none ∧
      (t.ctx i).tx.work = (s.ctx i).tx.work ++ [.send none none (ctlResponse 0x83 (s.ctx i).id.ocmVer (ctlTag m.data) 0 false e.nseq)] ∧
      t.regn.mem = s.regn.mem ∧ t.fab = s.fab ∧ t.gard = s.gard ∧ t.cell = s.cell ∧ Safety.CtlSame s t) ∧
  (∀ (s : State) (i x : Nat) (m : InSend), s.ctlMsg i 4 = some m →
    s.keyCheck (netAt m.data.val 16 4) .flush 0 0 (s.ctx i).id.tenant (s.qpn i) = .pass x → s.keyHit x = true → s.isOn pgRegn = true →
    byteAt m.data.val 20 = 0 → s.regn.writes = [] → s.regn.flushes = [] → s.regn.past = {} → s.xprt.spent = [] →
    ∃ t, exec (.placeFlush i) s = .next t ∧
      (t.ctx i).tx.work = (s.ctx i).tx.work ++ [.send none (some x) (ctlResponse 0x84 (s.ctx i).id.ocmVer (ctlTag m.data) 0 false 0)] ∧
      (t.key x).inflight = (s.key x).inflight + 1 ∧
      t.regn = s.regn ∧ t.fab.out = s.fab.out ∧ t.cell = s.cell ∧ Safety.CtlSame s t) ∧
  (∀ (s : State) (i x : Nat) (m : InSend), s.ctlFront i = some m → ctlValid (s.ctx i).id.ocmVer m.data = false → ctlOp m.data = 4 →
    s.keyCheck (netAt m.data.val 16 4) .flush 0 0 (s.ctx i).id.tenant (s.qpn i) = .pass x → s.keyHit x = true → s.regn.writes = [] →
    s.regn.flushes = [] → s.xprt.spent = [] → ∃ t, exec (.controlMsgInvalid i) s = .next t ∧ t.fab.sticky S.REGN_CTL_PROTO = true ∧
      (t.ctx i).tx.work = (s.ctx i).tx.work ++ [.send none (some x) (ctlResponse 0x84 (s.ctx i).id.ocmVer (ctlTag m.data) 1 false 0)] ∧
      t.regn = s.regn ∧ t.cell = s.cell ∧ Safety.CtlSame s t) ∧
  (∀ (s : State) (i : Nat) (m : InSend), s.ctlFront i = some m → ctlValid (s.ctx i).id.ocmVer m.data = false → ctlOp m.data ≠ 4 →
    s.regn.flushes = [] → ∃ t, exec (.controlMsgInvalid i) s = .next t ∧ t.fab.sticky S.REGN_CTL_PROTO = true ∧ (t.ctx i).rx.msgs = (s.ctx i).rx.msgs.tail ∧
      (t.ctx i).tx.work = (s.ctx i).tx.work ++
        [.send none none (ctlResponse (0x80 + ctlOp m.data % 128) (s.ctx i).id.ocmVer (ctlTag m.data) 1 false 0)] ∧
      t.gard = s.gard ∧ t.cell = s.cell ∧ Safety.StoreSame s t ∧ Safety.CtlSame s t) ∧
  (∀ (s : State) (k : Nat) (e : SubEnt) (r : Nat × Nat × Nat) (rest : List (Nat × Nat × Nat)), s.isLive pgRegn = true → s.sub k = some e →
    e.queued = r :: rest → e.ending = none → ∃ t, exec (.notifySend k) s = .next t ∧
      t.sub k = some { e with queued := rest, sent := e.sent ++ [r] } ∧ (t.ctx e.conn).tx.work = (s.ctx e.conn).tx.work ++
        [.writeImm ((e.va + r.1 % 2 ^ e.ringLog2 * 32) % 2 ^ 64) e.rkey r.2.1 e.serial ⟨32, r.2.2⟩] ∧
      t.regn.mem = s.regn.mem ∧ t.fab.out = s.fab.out ∧ t.gard = s.gard ∧ t.cell = s.cell ∧ Safety.CtlSame s t) ∧
  (∀ (s : State) (k : Nat) (e : SubEnt), s.xprt.ackedSubs = [e.serial] → s.sub k = some e → s.mirroring = false →
    s.syncing = false → ∃ t,
    exec (.notifyAcked k) s = .next t ∧ t.sub k = some { e with sent := e.sent.tail } ∧ t.xprt.ackedSubs = [] ∧
    t.regn.mem = s.regn.mem ∧ t.fab = s.fab ∧ t.gard = s.gard ∧ t.cell = s.cell ∧ Safety.CtlSame s t)

/-- Policers, the root scheduler, samples, and the metering second and minute. Rests on R322, R331, R340, R346, R347, R350. -/
def Obligations.ShapingAndMeters : Prop :=
  (∀ s : State, s.isLive pgTmgr = true → s.tmgr.held.list = [] → ∃ t, exec .policerRefill s = .next t ∧
    (∀ p, p < 8192 → t.bucket p = if polEn (s.polEntry p) then
        ⟨min ((s.bucket p).tc + polCir (s.polEntry p)) (polCbs (s.polEntry p) * 8),
          if polPir (s.polEntry p) = 0 then 0 else min ((s.bucket p).tp + polPir (s.polEntry p)) (polPbs (s.polEntry p) * 8)⟩
      else s.bucket p) ∧
    (∀ l, l < 16384 → l ∈ s.liveLeaves → (t.leafShape false l).cir =
      min ((s.leafShape false l).cir + s.leafCir false l) (s.leafCir false l * s.get pgTmgr F.TMGR_CFG_SHAPE_BURST_US)) ∧
    t.tmgr.egr = s.tmgr.egr ∧ t.tmgr.adm = s.tmgr.adm ∧ t.tmgr.accs = s.tmgr.accs ∧ t.fab = s.fab ∧ Safety.NetSame s t ∧
    Safety.StoreSame s t ∧ Safety.CtlSame s t) ∧
  (∀ (s : State) (r : Nat) (e : EgrWork), r < 64 → s.isLive pgTmgr = true → s.tmgr.egr = [e] → e.port = r →
    Safety.Leaves s r (s.pktLen e.ctx e.pkt) (s.ctxPcp e.ctx) → s.egrHere e = true → (s.ctx e.ctx).id.rcEn = false →
    s.rootOpen r = true → e.pkt.key = none → isReadResp e.pkt.opcode = false → (s.cmdq.ctrls.any fun _ c => c.resetting) = false →
    leafExpress (s.leafEntry e.leaf) = false → s.leafBelowPir false e.leaf = true →
    s.svcBelowPir (leafEgrSvc (s.leafEntry e.leaf)) = true →
    ∃ t, exec (.rootSelect r) s = .next t ∧ t.tmgr.egr = [] ∧ t.tmgr.adm = s.tmgr.adm ∧
      Emit.packet e.ctx r (s.ctxHdr e.ctx r) e.pkt e.trailer ∈ t.fab.out ∧ (t.root r).level = (s.root r).level - e.bytes * 8 ∧
      (t.leafShape false e.leaf).pir = (s.leafShape false e.leaf).pir - e.bytes * 8 ∧ t.gard = s.gard ∧ t.cell = s.cell ∧
      Safety.StoreSame s t ∧ Safety.CtlSame s t) ∧
  (∀ (s : State) (p : Nat) (w : AdmWork), p < 4 → s.isOn pgTmgr = true → s.tmgr.adm = [w] → w.pool = p → w.isWrite = false →
    s.tmgr.bgWant.list = [] → s.rootOpen (64 + p) = true → leafExpress (s.leafEntry w.leaf) = false → s.leafBelowPir true w.leaf = true →
    s.svcBelowPir (leafAdmSvc (s.leafEntry w.leaf)) = true →
    ∃ t, exec (.rootSelect (64 + p)) s = .next t ∧ t.tmgr.adm = [] ∧ t.tmgr.chosen = s.tmgr.chosen ++ [w.slot] ∧
      (t.root (64 + p)).level = (s.root (64 + p)).level - w.cost ∧ t.tmgr.egr = s.tmgr.egr ∧ Safety.NetSame s t ∧
      Safety.StoreSame s t ∧ Safety.CtlSame s t) ∧
  (∀ (s : State) (p : Nat) (v w : AdmWork), p < 4 → s.isOn pgTmgr = true → s.tmgr.adm = [v, w] → v.pool = p → w.pool = p →
    v.isWrite = false → w.isWrite = false → v.slot ≠ w.slot → s.tmgr.bgWant.list = [] → s.rootOpen (64 + p) = true →
    leafExpress (s.leafEntry v.leaf) = false → leafExpress (s.leafEntry w.leaf) = true → s.belowCap (64 + p) = true →
    s.leafBelowPir true w.leaf = true → s.svcBelowPir (leafAdmSvc (s.leafEntry w.leaf)) = true →
    ∃ t, exec (.rootSelect (64 + p)) s = .next t ∧ t.tmgr.adm = [v] ∧
      t.tmgr.chosen = s.tmgr.chosen ++ [w.slot] ∧ t.tmgr.egr = s.tmgr.egr ∧ Safety.NetSame s t ∧ Safety.StoreSame s t ∧
      Safety.CtlSame s t) ∧
  (∀ s : State, s.isLive pgTmgr = true → s.flag pgTmgr F.SAMPLE_CTL_STREAM_EN = false → ∃ t, exec .sampleTick s = .next t ∧
    (∀ l, l < 16384 → leafValid (s.tab pgTmgr 4 l) = true →
      (t.tmgr.samples.get l {}).egrDepth = ((s.tmgr.egr.filter fun w => decide (w.leaf = l)).map EgrWork.cells).sum ∧
      (t.tmgr.samples.get l {}).admDepth = (s.tmgr.adm.filter fun w => decide (w.leaf = l)).length ∧
      (t.tmgr.samples.get l {}).egrDepthMax =
        max (s.tmgr.samples.get l {}).egrDepthMax ((s.tmgr.egr.filter fun w => decide (w.leaf = l)).map EgrWork.cells).sum) ∧
    t.tmgr.samplePeriod = s.tmgr.samplePeriod + 1 ∧ t.tmgr.egr = s.tmgr.egr ∧ t.tmgr.adm = s.tmgr.adm ∧ t.fab = s.fab ∧
    Safety.NetSame s t ∧ Safety.StoreSame s t ∧ Safety.CtlSame s t) ∧
  (∀ s : State, s.isLive pgTmgr = true → s.tmgr.minute.isOpen = true → ∃ t, exec .meterSecondTick s = .next t ∧
    (∀ n, n ∈ (s.fab.nsEntries false).map (fun e => nsTenant e.2) →
      (t.tmgr.accs.get n {}).logicalMib = (s.tmgr.accs.get n {}).logicalMib + mib (s.tenantProvisioned n) ∧
      (t.tmgr.accs.get n {}).physicalMib = (s.tmgr.accs.get n {}).physicalMib + mib (s.tenantPhys n) ∧
      (t.tmgr.accs.get n {}).readBytes = (s.tmgr.accs.get n {}).readBytes) ∧
    t.tmgr.minute = s.tmgr.minute ∧ t.tmgr.buckets = s.tmgr.buckets ∧ t.fab = s.fab ∧ Safety.NetSame s t ∧ Safety.StoreSame s t ∧
    Safety.CtlSame s t) ∧
  (∀ (s : State) (covered : Nat), s.tmgr.minute.due = some (covered, false) → s.mirroring = false → s.syncing = false → ∃ t,
    exec .meterMinuteClose s = .next t ∧ t.get pgTmgr F.METER_GEN_GEN = (s.get pgTmgr F.METER_GEN_GEN + 1) % 2 ^ 32 ∧
    (∃ g, t.tmgr.gens.find (s.get pgTmgr F.METER_GEN_GEN % 64) = some g ∧ g.minute = s.tmgr.minute.minute ∧
      g.durationMs = covered ∧ g.accs = s.tmgr.accs) ∧
    (64 ≤ s.get pgTmgr F.METER_GEN_GEN - s.get pgTmgr F.METER_ACK_ACK → t.fab.sticky S.TMGR_METER_OVERRUN = true) ∧
    (∀ n, (t.tmgr.accs.get n {}).logicalMib = (s.tmgr.accs.get n {}).logicalMib % 1024 ∧ (t.tmgr.accs.get n {}).readBytes = 0) ∧
    t.tmgr.minute.isOpen = true ∧ t.tmgr.minute.minute = s.ptp.sec / 60 ∧ t.tmgr.minute.due = none ∧
    t.tmgr.buckets = s.tmgr.buckets ∧ Safety.NetSame s t ∧ Safety.StoreSame s t ∧ Safety.CtlSame s t) ∧
  (∀ (s : State) (v : BitVec 32), s.mirroring = false → s.syncing = false →
    (v.toNat ≤ s.get pgTmgr F.METER_GEN_GEN → s.get pgTmgr F.METER_ACK_ACK ≤ v.toNat → ∃ t, exec (.meterAckWrite v) s = .next t ∧
      t.get pgTmgr F.METER_ACK_ACK = v.toNat ∧ t.tmgr = s.tmgr ∧ t.fab.out = s.fab.out ∧ Safety.NetSame s t ∧ Safety.StoreSame s t ∧
      Safety.CtlSame s t) ∧
    (s.get pgTmgr F.METER_GEN_GEN < v.toNat ∨ v.toNat < s.get pgTmgr F.METER_ACK_ACK → ∃ t, exec (.meterAckWrite v) s = .next t ∧
      t.get pgTmgr F.METER_ACK_ACK = s.get pgTmgr F.METER_ACK_ACK ∧ t.tmgr = s.tmgr ∧ t.fab.out = s.fab.out ∧ Safety.NetSame s t ∧
      Safety.StoreSame s t ∧ Safety.CtlSame s t))

/-- The virtual output queues and the cell pool: matching, copies, allocation, freeing, errors and banks. Rests on R364, R369, R374, R375,
R383, R385, R386. -/
def Obligations.CellPool : Prop :=
  (∀ (s : State) (u : Nat) (x : UnitSt) (i o c : Nat), i < 48 → o < 48 → c < 4 → s.isLive pgVat = true →
    s.vat.queues.list = [(voqKey i o c, [⟨u, 1, s.now, false⟩])] → s.vat.held = [] → s.cell.units.find u = some x →
    s.outLive o = true → s.xprt.spent = [] →
    ∃ t, exec .vatCellTime s = .next t ∧ t.vat.grant.get (o * 2 + ptrSet c) 0 = (i + 1) % 48 ∧
      t.vat.accept.get (i * 2 + ptrSet c) 0 = (o + 1) % 48 ∧
      ((∃ n, x.kind = .writeData n ∨ x.kind = .handOff n ∨ x.kind = .jrnlRead n ∨ x.kind = .result n) →
        t.voq (voqKey i o c) = [] ∧ t.cell = s.cell ∧ t.fab.out = s.fab.out ∧ t.xprt = s.xprt ∧ t.gard = s.gard ∧ Safety.StoreSame s t ∧
        Safety.CtlSame s t)) ∧
  (∀ (s : State) (i c first u : Nat) (outs : List Nat) (x : UnitSt), i < 48 → c < 4 → s.isOn pgVat = true → s.unitAt first = some u →
    s.cell.units.find u = some x → x.owner = 4 * i + c → outs ≠ [] → outs.length ≤ 4 → (∀ o, o ∈ outs → o < 48) → outs.uniq = outs →
    s.unitLeft u = true → ∃ t, exec (.unitEnqueue i outs c first) s = .next t ∧
      (∀ o, o ∈ outs → t.voq (voqKey i o c) = s.voq (voqKey i o c) ++ [⟨u, x.cells.length, s.now, false⟩]) ∧
      (∀ k, (∀ o, o ∈ outs → k ≠ voqKey i o c) → t.voq k = s.voq k) ∧
      (∀ k, k ∈ x.cells → (t.cell.meta k).refs = outs.length) ∧ (∀ k, k ∉ x.cells → t.cell.meta k = s.cell.meta k) ∧
      t.cell.units = s.cell.units ∧ t.fab.out = s.fab.out ∧ t.xprt = s.xprt ∧ t.gard = s.gard ∧ Safety.StoreSame s t ∧
      Safety.CtlSame s t) ∧
  (∀ (s : State) (p c n : Nat) (k : UnitKind) (net : Option (Nat × Nat)) (ev : Bool), p < 48 → c < 4 → n ≠ 0 → s.isOn pgCell = true →
    s.mayTake ⟨p, c, n, k, net, ev, []⟩ = true → (s.takeCells ⟨p, c, n, k, net, ev, []⟩).isSome = true →
    ∃ t, exec (.cellAllocRequest p c n k net ev) s = .next t ∧ t.usedOf (4 * p + c) = s.usedOf (4 * p + c) + n ∧
      (∃ x, t.cell.units.find s.cell.nextUnit = some x ∧ x.owner = 4 * p + c ∧ x.cells.length = n ∧ x.kind = k ∧ x.network = net ∧
        x.evictable = ev ∧ ∀ i, i ∈ x.cells → (t.cell.meta i).alloc = true ∧ (t.cell.meta i).owner = 4 * p + c ∧
          (t.cell.meta i).refs = 1 ∧ (t.cell.meta i).poison = false ∧ (t.cell.meta i).evictable = ev) ∧
      (∀ o, o ≠ 4 * p + c → t.usedOf o = s.usedOf o) ∧ t.cell.waiters = s.cell.waiters ∧ t.vat = s.vat ∧ t.xprt = s.xprt ∧
      t.gard = s.gard ∧ Safety.StoreSame s t ∧ Safety.CtlSame s t) ∧
  (∀ (s : State) (p c n : Nat) (k : UnitKind) (ev : Bool), p < 48 → c < 4 → n ≠ 0 → s.isOn pgCell = true →
    s.mayTake ⟨p, c, n, k, none, ev, []⟩ = false → ∃ t, exec (.cellAllocRequest p c n k none ev) s = .next t ∧
      t.cell = { s.cell with waiters := s.cell.waiters ++ [⟨p, c, n, k, none, ev, []⟩] } ∧ t.vat = s.vat ∧ t.xprt = s.xprt ∧
      t.gard = s.gard ∧ t.fab.out = s.fab.out ∧ Safety.StoreSame s t ∧ Safety.CtlSame s t) ∧
  (∀ (s : State) (r : AllocReq), s.cell.waiters = [r] → s.isOn pgCell = true → s.mayTake r = true → (s.takeCells r).isSome = true →
    ∃ t, exec .cellAllocRetry s = .next t ∧ t.cell.waiters = [] ∧ t.usedOf (4 * r.port + r.cls) = s.usedOf (4 * r.port + r.cls) + r.cells ∧
      (∃ x, t.cell.units.find s.cell.nextUnit = some x ∧ x.kind = r.kind ∧ x.cells.length = r.cells) ∧ (r.outs = [] → t.vat = s.vat) ∧
      t.xprt = s.xprt ∧ t.gard = s.gard ∧ Safety.StoreSame s t ∧ Safety.CtlSame s t) ∧
  (∀ (s : State) (c o p : Nat), s.isLive pgCell = true → c < 524288 → (s.cell.meta c).alloc = true → (s.cell.meta c).owner = o →
    (1 < (s.cell.meta c).refs → ∃ t, exec (.cellFree (c * 256) o p) s = .next t ∧
      t.cell.meta c = { s.cell.meta c with refs := (s.cell.meta c).refs - 1 } ∧ t.cell.used = s.cell.used ∧ t.cell.units = s.cell.units ∧
      t.fab = s.fab ∧ (∀ k, k ≠ c → t.cell.meta k = s.cell.meta k) ∧ t.vat = s.vat ∧ t.xprt = s.xprt ∧ t.gard = s.gard ∧
      Safety.StoreSame s t ∧ Safety.CtlSame s t) ∧
    ((s.cell.meta c).refs = 1 → ∃ t, exec (.cellFree (c * 256) o p) s = .next t ∧ (t.cell.meta c).alloc = false ∧
      (t.cell.meta c).refs = 0 ∧ (t.cell.meta c).owner = (if s.bankRetired (c / 32768) then 0xFF else o) ∧
      t.usedOf o = s.usedOf o - 1 ∧ (∀ k, k ≠ c → t.cell.meta k = s.cell.meta k) ∧ t.vat = s.vat ∧ t.xprt = s.xprt ∧ t.gard = s.gard ∧
      Safety.StoreSame s t ∧ Safety.CtlSame s t)) ∧
  (∀ (s : State) (ptr o p : Nat), s.isLive pgCell = true → (2 ^ 27 ≤ ptr ∨ ptr % 256 ≠ 0 ∨ (s.cell.meta (ptr / 256)).alloc = false ∨
      (s.cell.meta (ptr / 256)).refs = 0 ∨ (s.cell.meta (ptr / 256)).owner ≠ o) → ∃ t, exec (.cellFree ptr o p) s = .next t ∧ t.fab.sticky S.CELL_BAD_FREE = true ∧
      t.cell.cells = s.cell.cells ∧ t.cell.used = s.cell.used ∧ t.cell.units = s.cell.units ∧ t.vat = s.vat ∧ t.xprt = s.xprt ∧
      t.gard = s.gard ∧ t.get pgCell F.CELL_LOG_STAT_NEXT = (s.get pgCell F.CELL_LOG_STAT_NEXT + 1) % 64 ∧ Safety.StoreSame s t ∧
      Safety.CtlSame s t) ∧
  (∀ (s : State) (c : Nat), c < 524288 →
    (∃ t, exec (.cellSramError c false) s = .next t ∧ t.fab.sticky S.CELL_SRAM_CE = true ∧ t.cell.cells = s.cell.cells ∧
      t.cell.units = s.cell.units ∧ t.vat = s.vat ∧ t.xprt = s.xprt ∧ t.gard = s.gard ∧ Safety.StoreSame s t ∧ Safety.CtlSame s t) ∧
    (∃ t, exec (.cellSramError c true) s = .next t ∧ t.fab.sticky S.CELL_SRAM_UE = true) ∧
    ((s.cell.meta c).alloc = true → s.unitOf c = none → ∃ t, exec (.cellSramError c true) s = .next t ∧
      t.fab.sticky S.CELL_SRAM_UE = true ∧ t.cell.meta c = { s.cell.meta c with poison := true } ∧ t.cell.units = s.cell.units ∧
      t.vat = s.vat ∧ t.xprt = s.xprt ∧ t.gard = s.gard ∧ Safety.StoreSame s t ∧ Safety.CtlSame s t)) ∧
  (∀ (s : State) (v : BitVec 32), v.toNat ≥ 2 ^ 31 → s.bankRetired (v.toNat % 16) = false →
    (2 ≤ s.liveBanks.length → ∃ t, exec (.cellBankRetire v) s = .next t ∧ t.bankRetired (v.toNat % 16) = true ∧
      t.fab.sticky S.CELL_BANK_RETIRED = true ∧ t.cell.cells = s.cell.cells ∧ t.cell.units = s.cell.units ∧ t.cell.used = s.cell.used ∧
      t.vat = s.vat ∧ t.xprt = s.xprt ∧ t.gard = s.gard ∧ Safety.StoreSame s t ∧ Safety.CtlSame s t) ∧
    (s.liveBanks.length ≤ 1 → ∃ t, exec (.cellBankRetire v) s = .next t ∧ t.bankRetired (v.toNat % 16) = false ∧ t.cell = s.cell ∧
      t.fab.out = s.fab.out ∧ t.vat = s.vat ∧ t.xprt = s.xprt ∧ t.gard = s.gard ∧ Safety.StoreSame s t ∧ Safety.CtlSame s t))

/-- A journal record from its opening to its commit, hand-off and opening of sealed records. Rests on R398, R405, R407, R427. -/
def Obligations.JournalRecords : Prop :=
  (∀ (s : State) (n c a : Nat) (x : Slot), s.slot n = some x → x.state = .started → sqeOpc x.sqe = 0x01 → x.qid ≠ 0 → x.recsMade = false →
    s.isLive pgJrnl = true → s.saving = false → s.findSpace (recSpace 1 x.bytes) = some (c, a) → s.mirroring = false → s.syncing = false →
    s.someAt 40 (fun k => decide (k = .writeData n)) = true →
    ∃ t, exec (.jrnlRecordOpen n) s = .next t ∧ t.jrec s.jrnl.nextRec = some
      { type := 1, volume := x.volume, len := x.bytes, offset := sqeSlba x.sqe * x.lba,
        tenant := x.tenant, slot := some n, chunk := c, place := a } ∧
      t.slot n = some { x with recsMade := true, recsOpen := x.recsOpen + 1
                               jrnlRef := if x.jrnlRef = 0 then (c * 2 ^ 22 + a) % 2 ^ 32 else x.jrnlRef } ∧ (∀ m, m ≠ n → t.slot m = s.slot m) ∧
      (∀ k, k ≠ s.jrnl.nextRec → t.jrec k = s.jrec k) ∧ t.fab.out = s.fab.out ∧ t.regn = s.regn ∧ t.cmpr = s.cmpr ∧ t.plce = s.plce ∧
      Safety.NetSame s t ∧ Safety.CtlSame s t) ∧
  (∀ (s : State) (k n : Nat) (r : JRec) (x : Slot), s.jrec k = some r → r.type = 1 → r.state = .opened → r.localOk = false →
    r.discard = false → r.slot = some n → s.slot n = some x → x.state = .started → x.fetched = true → x.discard = false →
    s.mirroring = false → s.syncing = false → s.unitsWhere (fun y => decide (y = UnitKind.writeData n)) = [] →
    s.toOutput 40 (fun y => decide (y = .writeData n)) = false → (s.cmdq.ctrls.any fun _ v => v.resetting) = false →
    (∀ ue : Bool, 2 ≤ x.recsOpen → ∃ t, exec (.jrnlLocalPlaced k ue) s = .next t ∧ (∃ y, t.jrec k = some y ∧ y.state = .committed ∧
      y.seq = s.jrnl.seq + 1 ∧ y.data = x.data ∧ y.localOk = true ∧ y.poison = (r.poison || ue) ∧ y.committedAt = s.now) ∧
      t.jrnl.seq = s.jrnl.seq + 1 ∧ t.slot n = some { x with recsOpen := x.recsOpen - 1 } ∧ (∀ j, j ≠ k → t.jrec j = s.jrec j) ∧
      (if ue then t.fab.sticky S.JRNL_HBM_UE = true else t.fab.out = s.fab.out) ∧ t.regn = s.regn ∧ Safety.NetSame s t ∧
      Safety.CtlSame s t) ∧
    (x.recsOpen = 1 →
      ∃ t, exec (.jrnlLocalPlaced k false) s = .next t ∧ (∃ y, t.jrec k = some y ∧ y.state = .committed ∧
      y.seq = s.jrnl.seq + 1 ∧ y.data = x.data) ∧ (∃ y, t.slot n = some y ∧ y.state = .completed ∧ y.cpl = cplOk) ∧
      t.jrnl.seq = s.jrnl.seq + 1 ∧ Safety.CtlSame s t)) ∧
  (∀ (s : State) (k n : Nat) (r : JRec) (x : Slot), s.jrec k = some r → r.type = 1 → r.state = .opened → r.localOk = false →
    r.discard = false → r.slot = some n → s.slot n = some x → x.state = .started → x.fetched = true → x.discard = false →
    s.mirroring = true → r.mirrored = false → s.unitsWhere (fun y => decide (y = UnitKind.writeData n)) = [] →
    s.toOutput 40 (fun y => decide (y = .writeData n)) = false → (s.cmdq.ctrls.any fun _ v => v.resetting) = false →
    ∃ t, exec (.jrnlLocalPlaced k false) s = .next t ∧ t.jrec k = some { r with data := x.data, localOk := true } ∧
      t.jrnl.seq = s.jrnl.seq ∧ t.fab.out = s.fab.out ∧ t.cmdq = s.cmdq ∧ t.regn = s.regn ∧ Safety.NetSame s t ∧ Safety.CtlSame s t) ∧
  (∀ (s : State) (k : Nat) (r : JRec), s.jrec k = some r → r.state = .opened → r.localOk = true → r.mirrored = false →
    s.mirroring = true → ∃ t, exec (.jrnlMirrorLate k) s = .next t ∧ t.fab.sticky S.JRNL_MIRROR_LATE = true ∧ Safety.NetSame s t ∧
      Safety.StoreSame s t ∧ Safety.CtlSame s t) ∧
  (∀ (s : State) (v u k : Nat) (r : JRec), s.isLive pgJrnl = true → s.isOn pgPlce = true → s.saving = false →
    s.unitRecs v u = [(k, r)] → s.handTurn v u = true → s.jrec k = some r → r.sealed = false → r.state = .committed → r.poison = false →
    (∀ e, e ∈ s.jrnl.recs.list → e.2.type = 1) →
    s.cmpr.writes = {} → s.plce.waits = [] → s.pageCached (pageKey v u) = true → (s.pool (s.volPool v)).state ≠ 5 →
    (s.overlay v (u * 32) 32).1 = 2 ^ 32 - 1 → ∃ t, exec (.jrnlHandoff v u) s = .next t ∧
      (∃ w, t.cmpr.writes.find s.cmpr.nextJob = some w ∧ w.volume = v ∧ w.lun = u ∧ w.stage = .ready ∧ w.for_ = .journal [k] ∧
        w.data = (t.overlay v (u * 32) 32).2 ∧ w.cover = 2 ^ 32 - 1) ∧
      t.jrec k = some { r with handedUnits := u :: r.handedUnits, state := .handed } ∧ (∀ j, j ≠ k → t.jrec j = s.jrec j) ∧
      t.cmdq = s.cmdq ∧ t.regn = s.regn ∧ t.drvp = s.drvp ∧ t.xprt = s.xprt ∧ t.gard = s.gard ∧ Safety.CtlSame s t) ∧
  (∀ (s : State) (k : Nat) (r : JRec) (ue : Bool), s.jrec k = some r → r.sealed = true → (s.restKey r.keyIndex).state = 1 →
    (ue = true → s.fab.severity S.JRNL_HBM_UE ≠ 2) → ∃ t, exec (.sealedRecordOpen k ue) s = .next t ∧ t.jrec k = some { r with
        sealed := false, keyIndex := 0, poison := r.poison || ue, data := ⟨r.data.len,
        ((List.range (r.data.len / 512)).map fun i => xtsOpen (s.restKey r.keyIndex).k1 (s.restKey r.keyIndex).k2
          (2 ^ 63 + (r.imgBlock + i) + r.volume % 2 ^ 14 * 2 ^ 69) 512 (bytesAt r.data.val (512 * i) 512) * 2 ^ (4096 * i)).sum⟩ } ∧
      t.get pgJrnl F.JRNL_RESTORE_STAT_KEY_WAIT = (((t.recsWhere JRec.sealed).map JRec.volume).uniq).length % 2 ^ 15 ∧
      (∀ j, j ≠ k → t.jrec j = s.jrec j) ∧ (ue = true → t.fab.sticky S.JRNL_HBM_UE = true) ∧ (ue = false → t.fab.out = s.fab.out) ∧
      t.cmdq = s.cmdq ∧ t.regn = s.regn ∧ Safety.NetSame s t ∧ Safety.CtlSame s t)

/-- POWER_FAIL, the phases of the brine save, a failed member, and the restore. Rests on R417, R419, R426, R727. -/
def Obligations.BrineSave : Prop :=
  (∀ s : State, ∃ t, exec .powerFailAssert s = .next t ∧ t.jrnl = { s.jrnl with powerFail := true } ∧ t.fab = s.fab ∧
    t.cmdq = s.cmdq ∧ t.regn = s.regn ∧ t.drvp = s.drvp ∧ Safety.NetSame s t ∧ Safety.CtlSame s t) ∧
  (∀ s : State, s.jrnl.powerFail = true → s.saving = false → ∃ t, exec .powerFailGlitch s = .next t ∧
    t.jrnl = { s.jrnl with powerFail := false } ∧ t.saving = false ∧ t.fab.out = s.fab.out ∧ t.cmdq = s.cmdq ∧ t.regn = s.regn ∧
    Safety.NetSame s t ∧ Safety.CtlSame s t) ∧
  (∀ s : State, s.jrnl.powerFail = true → s.saving = false → s.fwPhase = 0 →
    (s.armed = true → ∃ t, exec .powerFailRecognised s = .next t ∧ t.get pgJrnl F.JRNL_SAVE_STAT_PHASE = 1 ∧
      t.jrnl.recs = s.jrnl.recs ∧ t.jrnl.saveStart = s.now ∧ t.fab.swap.run = .idle ∧
      (s.fab.swap.run ≠ .idle → t.get pgDev F.SWAP_STAT_BUSY = 0) ∧
      t.get pgDev F.EPOCH_EPOCH = s.get pgDev F.EPOCH_EPOCH ∧ (∀ b, b < 24 → s.get (pgDrvp b) F.DRV_PS_MODE = 1 →
        s.get (pgDrvp b) F.BAY_STAT_PS ≠ 0 → Emit.drivePs b 0 ∈ t.fab.out) ∧
      t.cmdq = s.cmdq ∧ t.regn = s.regn ∧ t.gard = s.gard ∧ t.cell = s.cell) ∧
    (s.armed = false → ∃ t, exec .powerFailRecognised s = .next t ∧ t.saving = false ∧ Safety.NetSame s t ∧ Safety.StoreSame s t ∧
      t.line = s.line)) ∧
  (∀ s : State, s.get pgJrnl F.JRNL_SAVE_STAT_PHASE = 1 → ∃ t, exec .saveQuiesceEnd s = .next t ∧
    t.get pgJrnl F.JRNL_SAVE_STAT_PHASE = 2 ∧ t.jrnl.recs = s.jrnl.recs.filter (fun _ r => decide (r.state ≠ .opened ∨ r.localOk = true)) ∧
    t.fab.out = s.fab.out ∧ t.cmdq = s.cmdq ∧ t.regn = s.regn ∧ Safety.NetSame s t ∧ Safety.CtlSame s t) ∧
  (∀ s : State, s.get pgJrnl F.JRNL_SAVE_STAT_PHASE = 2 → s.jrnl.saveEnded = false → ∃ t, exec .saveWriteEnd s = .next t ∧
    t.jrnl.saveEnded = true ∧ t.jrnl.saveGen = s.jrnl.saveGen + 1 ∧ (∀ b, b ∈ s.jrnl.saveMembers →
      Emit.saveHeader b (headBlock ({ s with jrnl := { s.jrnl with
        saveEnded := true, saveGen := s.jrnl.saveGen + 1 } } : State).saveHead) ∈ t.fab.out) ∧ t.jrnl.recs = s.jrnl.recs ∧
    t.get pgJrnl F.JRNL_SAVE_STAT_PHASE = 2 ∧ t.cmdq = s.cmdq ∧ t.regn = s.regn ∧ Safety.NetSame s t ∧ Safety.CtlSame s t) ∧
  (∀ (s : State) (b : Nat), s.get pgJrnl F.JRNL_SAVE_STAT_PHASE = 2 → b ∈ s.jrnl.saveMembers →
    (s.jrnl.saveLost = 0 → ∃ t, exec (.saveMemberFail b) s = .next t ∧ t.fab.sticky S.JRNL_SAVE_DEGRADED = true ∧ t.jrnl.saveLost = 1 ∧
      b ∉ t.jrnl.saveMembers ∧ t.get pgJrnl F.JRNL_SAVE_STAT_PHASE = 2 ∧ t.jrnl.recs = s.jrnl.recs ∧ t.regn = s.regn ∧
      Safety.NetSame s t ∧ Safety.CtlSame s t) ∧
    (s.jrnl.saveLost = 1 → s.pair.island.tripped = false → ∃ t, exec (.saveMemberFail b) s = .next t ∧
      t.fab.sticky S.JRNL_SAVE_FAIL = true ∧ t.get pgJrnl F.JRNL_SAVE_STAT_PHASE = 4 ∧ t.jrnl.recs = s.jrnl.recs ∧ t.regn = s.regn ∧
      Safety.NetSame s t ∧ Safety.CtlSame s t)) ∧
  (∀ s : State, s.get pgJrnl F.JRNL_SAVE_STAT_PHASE = 2 → s.jrnl.saveEnded = true → s.pair.island.tripped = false →
    ∃ t, exec .saveCommitEnd s = .next t ∧ t.get pgJrnl F.JRNL_SAVE_STAT_PHASE = 3 ∧ t.fab.out = s.fab.out ∧ Safety.NetSame s t ∧
      Safety.StoreSame s t ∧ Safety.CtlSame s t) ∧
  (∀ (s : State) (partner img : Bool) (hs : List (Nat × Nat)), (s.fab.page pgJrnl).state = .starting → s.jrnl.restoring = false →
    s.jrnl.restored = false → ∃ t, exec (.jrnlRestoreBegin partner img hs) s = .next t ∧ t.jrnl.restoring = true ∧
      t.jrnl.header = validImage hs ∧ t.jrnl.recs = s.jrnl.recs ∧
      t.get pgJrnl F.JRNL_RESTORE_STAT_JRNL_SRC = (if partner then 1 else if validImage hs ≠ 0 then 2 else 0) ∧
      t.get pgJrnl F.JRNL_RESTORE_STAT_REGN_SRC = (if partner then 1 else if validImage hs ≠ 0 then 2 else if img then 3 else 0) ∧
      t.fab.out = s.fab.out ∧ t.cmdq = s.cmdq ∧ t.regn = s.regn ∧ Safety.NetSame s t ∧ Safety.CtlSame s t) ∧
  (∀ (s : State) (x : ImageRec) (r : JRec) (c a : Nat), s.jrnl.restoring = true → s.get pgJrnl F.JRNL_RESTORE_STAT_JRNL_SRC = 2 →
    goodRec x = some r → s.findSpace (recSpace r.type r.len) = some (c, a) → ∃ t, exec (.jrnlRestoreComplete [x] [] [] []) s = .next t ∧
      t.jrnl.restoring = false ∧ t.jrnl.restored = true ∧ t.jrnl.seq = max s.jrnl.seq r.seq ∧
      t.jrec s.jrnl.nextRec = some { r with chunk := c, place := a, state := .committed, committedAt := s.now } ∧
      (∀ b, b < 24 → bitAt (hdMask s.jrnl.header) b = true → Emit.saveHeader b (headBlock (deadHead s.jrnl.header)) ∈ t.fab.out) ∧
      t.cmdq = s.cmdq ∧ Safety.NetSame s t ∧ Safety.CtlSame s t) ∧
  (∀ (s : State) (x : ImagePage) (crc : Nat), s.jrnl.restoring = true →
    (s.get pgJrnl F.JRNL_RESTORE_STAT_REGN_SRC = 0 → ∃ t, exec (.jrnlRestoreComplete [] [] [x] [crc]) s = .next t ∧ t.regn.mem = {} ∧
      t.regn.regions = {} ∧ t.jrnl.restored = true ∧ t.jrnl.recs = s.jrnl.recs ∧ t.cmdq = s.cmdq ∧ Safety.NetSame s t) ∧
    (s.get pgJrnl F.JRNL_RESTORE_STAT_REGN_SRC = 1 → ∃ t, exec (.jrnlRestoreComplete [] [] [x] [crc]) s = .next t ∧ t.regn = s.regn ∧
      t.jrnl.restored = true ∧ t.jrnl.recs = s.jrnl.recs ∧ t.cmdq = s.cmdq ∧ Safety.NetSame s t) ∧
    (∀ d : Nat, s.get pgJrnl F.JRNL_RESTORE_STAT_REGN_SRC = 2 → goodPage x crc = some d → ∃ t,
      exec (.jrnlRestoreComplete [] [] [x] [crc]) s = .next t ∧ (∀ k, k < 4096 → (memRead t.regn.mem (x.addr + k)).toNat = byteAt d k) ∧
      (∀ k, k < x.addr ∨ x.addr + 4096 ≤ k → memRead t.regn.mem k = 0) ∧ t.jrnl.restored = true ∧ t.jrnl.recs = s.jrnl.recs ∧
      t.cmdq = s.cmdq ∧ Safety.NetSame s t) ∧
    (s.get pgJrnl F.JRNL_RESTORE_STAT_REGN_SRC = 2 → goodPage x crc = none → ∃ t, exec (.jrnlRestoreComplete [] [] [x] [crc]) s = .next t ∧
      t.fab.sticky S.JRNL_RESTORE_LOSS = true ∧ t.get pgJrnl F.JRNL_RESTORE_STAT_LOSS = 1 ∧ t.regn.mem = {} ∧ t.jrnl.restored = true ∧
      t.cmdq = s.cmdq ∧ Safety.NetSame s t))

/-- Compression lanes: start, completion, failure, self-test and retirement. Rests on R442, R443, R445, R454, R455, R456. -/
def Obligations.CompressLanes : Prop :=
  (∀ (s : State) (j n : Nat) (w : WUnit), s.isOn pgCmpr = true → s.saving = false → s.cmpr.writes.list = [(j, w)] → w.stage = .ready →
    s.lowestCLane w.avoid = some n → s.inVat (fun k => decide (k = .handOff j)) = false → ∃ t, exec .compressStart s = .next t ∧
      t.wjob j = some { w with
        stage := .lane n, fmt := if w.volume = imgVol then s.get pgCmpr F.CMPR_CFG_DESTAGE_FMT else bitsOf (s.tab pgCmpr 1 w.volume) 0 2 } ∧ t.cmpr.lanes.find n = some j ∧
      (∀ m, m ≠ n → t.cmpr.lanes.find m = s.cmpr.lanes.find m) ∧ t.cmpr.reads = s.cmpr.reads ∧ t.jrnl = s.jrnl ∧ t.plce = s.plce ∧
      t.cmdq = s.cmdq ∧ t.regn = s.regn ∧ t.xprt = s.xprt ∧ t.gard = s.gard ∧ Safety.CtlSame s t) ∧
  (∀ (s : State) (n j k : Nat) (w : WUnit) (b : Blob), s.cmpr.lanes.find n = some j → s.wjob j = some w → w.stage = .lane n →
    (s.cell.waiters.any fun r => decide (r.kind = UnitKind.chain n)) = false → s.laneHeld n ≠ 0 → w.data ≠ 0 →
    k = (if w.volume = imgVol then 0 else s.sealIndex w.volume) →
    ((w.fmt = 1 ∨ w.fmt = 2) → 0 < b.len → b.len ≤ 15872 →
      (hdrLen (storedUnit w.fmt 0 (crc32c unitBytes w.data) b).val + 255) / 256 ≤ s.laneHeld n → ∃ t,
      exec (.compressComplete n b false) s = .next t ∧ (∃ y, t.wjob j = some y ∧ y.stage = .stored ∧ y.raw = false ∧ y.keyIndex = k ∧
        y.data = w.data ∧ y.stored = (if k = 0 then storedUnit w.fmt 0 (crc32c unitBytes w.data) b
          else s.sealUnit k w.volume w.lun (storedUnit w.fmt 0 (crc32c unitBytes w.data) b))) ∧
      t.cmpr.lanes.find n = none ∧ t.jrnl = s.jrnl ∧ t.plce = s.plce ∧ t.cmdq = s.cmdq ∧ t.regn = s.regn ∧
      t.xprt = s.xprt ∧ t.gard = s.gard ∧ Safety.CtlSame s t) ∧
    ((w.fmt = 1 ∨ w.fmt = 2) → 15872 < b.len → 66 ≤ s.laneHeld n → ∃ t, exec (.compressComplete n b false) s = .next t ∧
      (∃ y, t.wjob j = some y ∧ y.stage = .stored ∧ y.raw = true ∧ y.keyIndex = k ∧ y.data = w.data ∧
        y.stored = (if k = 0 then rawUnit 2 w.data else s.sealUnit k w.volume w.lun (rawUnit 2 w.data))) ∧
      t.cmpr.lanes.find n = none ∧ t.jrnl = s.jrnl ∧ t.plce = s.plce ∧ t.cmdq = s.cmdq ∧ t.regn = s.regn ∧ t.xprt = s.xprt ∧
      t.gard = s.gard ∧ Safety.CtlSame s t)) ∧
  (∀ (s : State) (n j : Nat) (w : WUnit) (b : Blob), s.cmpr.lanes.find n = some j → s.wjob j = some w →
    (s.cell.waiters.any fun r => decide (r.kind = UnitKind.chain n)) = false → s.laneHeld n ≠ 0 →
    (s.mirroring = false → s.syncing = false → mePhys (s.entry w.volume w.lun) = false → w.for_ = .destage → s.activeUnit w.lun = true →
      w.data = 0 → ∃ t, exec (.compressComplete n b false) s = .next t ∧ t.wjob j = none ∧ t.cmpr.lanes.find n = none ∧
        t.plce.map.get (mapKey w.volume w.lun) entUnmapped = entZero ∧ t.regn = s.regn ∧ t.cmdq = s.cmdq ∧ t.xprt = s.xprt ∧
        Safety.CtlSame s t) ∧
    (∃ t, exec (.compressComplete n b true) s = .next t ∧ t.wjob j = some { w with stage := .ready, chainWait := false } ∧
      t.cmpr.lanes.find n = none ∧ t.jrnl = s.jrnl ∧ t.plce = s.plce ∧ t.cmdq = s.cmdq ∧ t.regn = s.regn ∧ t.xprt = s.xprt ∧
      t.gard = s.gard ∧ Safety.CtlSame s t)) ∧
  (∀ (s : State) (n j : Nat) (w : WUnit), s.cmpr.lanes.find n = some j → s.wjob j = some w → w.stage = .lane n → w.chainWait = true →
    (s.cell.waiters.any fun r => decide (r.kind = UnitKind.chain n)) = true → ∃ t, exec (.chainAbandonTimeout n) s = .next t ∧
      t.wjob j = some { w with stage := .rawWait n, chainWait := false } ∧ t.fab.sticky S.CMPR_ABANDON = true ∧
      t.cmpr.lanes = s.cmpr.lanes ∧ t.jrnl = s.jrnl ∧ t.plce = s.plce ∧ t.cmdq = s.cmdq ∧ t.regn = s.regn ∧ t.xprt = s.xprt ∧
      t.gard = s.gard ∧ Safety.CtlSame s t) ∧
  (∀ (s : State) (n : Nat), n < 60 →
    (∃ t, exec (.laneParityError n true) s = .next t ∧ t.fab.sticky S.CMPR_LANE_CE = true ∧ t.cmpr.lanes = s.cmpr.lanes ∧
      t.cmpr.writes = s.cmpr.writes ∧ t.cmpr.reads = s.cmpr.reads ∧ t.jrnl = s.jrnl ∧ t.plce = s.plce ∧ t.cmdq = s.cmdq ∧
      t.regn = s.regn ∧ Safety.NetSame s t ∧ Safety.CtlSame s t) ∧
    (∀ (j : Nat) (r : RUnit), s.cmpr.lanes.find n = some j → 40 ≤ n → s.readJob j = some r → ∃ t,
      exec (.laneParityError n false) s = .next t ∧ t.fab.sticky S.CMPR_LANE_ERR = true ∧ t.cmpr.lanes.find n = none ∧
      t.readJob j = some { r with lane := none, result := none, avoid := some n } ∧ t.cmpr.writes = s.cmpr.writes ∧ t.jrnl = s.jrnl ∧ t.plce = s.plce ∧
      t.cmdq = s.cmdq ∧ t.regn = s.regn ∧ Safety.NetSame s t ∧ Safety.CtlSame s t) ∧
    (∀ (j : Nat) (w : WUnit), s.cmpr.lanes.find n = some j → n < 40 → s.wjob j = some w → ∃ t,
      exec (.laneParityError n false) s = .next t ∧ t.fab.sticky S.CMPR_LANE_ERR = true ∧ t.cmpr.lanes.find n = none ∧
      t.wjob j = some { w with stage := .ready, chainWait := false, avoid := some n } ∧ t.cmpr.reads = s.cmpr.reads ∧ t.jrnl = s.jrnl ∧
      t.plce = s.plce ∧ t.cmdq = s.cmdq ∧ t.regn = s.regn ∧ t.xprt = s.xprt ∧ t.gard = s.gard ∧ Safety.CtlSame s t)) ∧
  (∀ (s : State) (n : Nat), s.isOn pgCmpr = true → s.get pgCmpr F.CMPR_TEST_SELFTEST_MS ≠ 0 → n = s.cmpr.testLane → n < 60 →
    s.laneIdle n = true →
    (∃ t, exec (.laneSelftest true) s = .next t ∧ t.laneRetired n = true ∧ t.fab.sticky S.CMPR_SELFTEST = true ∧
      t.fab.sticky S.CMPR_LANE_RETIRED = true ∧ t.cmpr.lanes = s.cmpr.lanes ∧ t.cmpr.writes = s.cmpr.writes ∧
      t.cmpr.reads = s.cmpr.reads ∧ t.jrnl = s.jrnl ∧ t.plce = s.plce ∧ t.cmdq = s.cmdq ∧ t.regn = s.regn ∧ Safety.NetSame s t ∧
      Safety.CtlSame s t) ∧
    (∃ t, exec (.laneSelftest false) s = .next t ∧ t.laneRetired n = false ∧ t.cmpr = { s.cmpr with testLane := (n + 1) % 60 } ∧
      t.fab = s.fab ∧ t.jrnl = s.jrnl ∧ t.plce = s.plce ∧ t.cmdq = s.cmdq ∧ t.regn = s.regn ∧ Safety.NetSame s t ∧
      Safety.CtlSame s t)) ∧
  (∀ (s : State) (n : Nat) (v : BitVec 32), n < 60 → v.toNat = 2 ^ 31 + (if n < 40 then n else n + 24) → s.laneRetired n = false →
    (2 ≤ s.cmprLanesOn (isDLane n) → ∃ t, exec (.cmprLaneRetire v) s = .next t ∧ t.laneRetired n = true ∧
      t.fab.sticky S.CMPR_LANE_RETIRED = true ∧ t.get pgCmpr F.CMPR_STAT_CLANES_ON = t.cmprLanesOn false ∧
      t.get pgCmpr F.CMPR_STAT_DLANES_ON = t.cmprLanesOn true ∧
      Safety.NetSame s t ∧ Safety.StoreSame s t ∧ Safety.CtlSame s t) ∧
    (s.cmprLanesOn (isDLane n) ≤ 1 → ∃ t, exec (.cmprLaneRetire v) s = .next t ∧ t.laneRetired n = false ∧
      t.fab.out = s.fab.out ∧ Safety.NetSame s t ∧ Safety.StoreSame s t ∧ Safety.CtlSame s t))

/-- Decompression lanes: start, and completion with its checks. Rests on R443, R450. -/
def Obligations.DecompressLanes : Prop :=
  (∀ (s : State) (j n u : Nat) (r : RUnit), s.isOn pgCmpr = true → s.saving = false → s.cmpr.reads.list = [(j, r)] → r.complete = true →
    r.lane = none → r.result = none → r.lost = false → r.cls < 4 → r.for_ ≠ .press → s.inVat (cellsOfRead j) = false →
    s.lowestDLane r.cls r.avoid = some n → s.openUnit r.volume r.lun (r.bytes (s.pool r.pool)) (meGlen r.entry) = some u → ∃ t, exec .decompressStart s = .next t ∧
      t.readJob j = some { r with lane := some n, result := some u } ∧ t.cmpr.lanes.find n = some j ∧
      (∀ m, m ≠ n → t.cmpr.lanes.find m = s.cmpr.lanes.find m) ∧ t.cmpr.writes = s.cmpr.writes ∧ t.fab.out = s.fab.out ∧
      t.jrnl = s.jrnl ∧ t.plce = s.plce ∧ t.cmdq = s.cmdq ∧ t.regn = s.regn ∧ Safety.NetSame s t ∧ Safety.CtlSame s t) ∧
  (∀ (s : State) (j n u k : Nat) (r : RUnit) (x : Slot), s.isOn pgCmpr = true → s.saving = false → s.cmpr.reads.list = [(j, r)] →
    r.complete = true → r.lane = none → r.result = none → r.lost = false → r.cls < 4 → s.inVat (cellsOfRead j) = false →
    s.lowestDLane r.cls r.avoid = some n → hdrKey (r.bytes (s.pool r.pool)) = u → u ≠ 0 → (s.restKey u).state ≠ 1 → r.for_ = .slot k → s.slot k = some x →
    x.state = .started → x.outcome = none → ∃ t, exec .decompressStart s = .next t ∧ t.readJob j = none ∧
      t.slot k = some { x with outcome := some (cplErr 2 0x86) } ∧ t.cmpr.lanes = s.cmpr.lanes ∧ t.jrnl = s.jrnl ∧ t.plce = s.plce ∧
      t.regn = s.regn ∧ t.xprt = s.xprt ∧ t.gard = s.gard ∧ Safety.CtlSame s t) ∧
  (∀ (s : State) (n j u k x : Nat) (r : RUnit) (v : Slot), 40 ≤ n → s.cmpr.lanes.find n = some j → s.cmpr.reads.list = [(j, r)] →
    r.result = some u → r.partial_ = false → r.failed = none → checkUnit u (meGlen r.entry) = .inl x → r.for_ = .slot k →
    s.slot k = some v → v.state = .started → v.outcome = none → v.allLooked = true → ∃ t, exec (.decompressComplete n) s = .next t ∧ t.readJob j = none ∧
      t.cmpr.lanes.find n = none ∧ (∃ y, t.slot k = some y ∧ y.outcome = some cplOk ∧ y.bytesDone = v.bytes ∧
        (∃ z, (s.fillSlot k r.lun x).slot k = some z ∧ y.data = z.data ∧ y.cover = z.cover)) ∧
      (∀ m, m ≠ k → t.slot m = s.slot m) ∧ t.cmpr.writes = s.cmpr.writes ∧ t.jrnl = s.jrnl ∧ t.plce = s.plce ∧ t.regn = s.regn ∧
      t.xprt = s.xprt ∧ t.gard = s.gard ∧ Safety.CtlSame s t) ∧
  (∀ (s : State) (n j u k x : Nat) (r : RUnit) (w : WUnit), 40 ≤ n → s.cmpr.lanes.find n = some j → s.cmpr.reads.list = [(j, r)] →
    r.result = some u → r.partial_ = false → r.failed = none → checkUnit u (meGlen r.entry) = .inl x → r.for_ = .merge k →
    s.wjob k = some w → ∃ t, exec (.decompressComplete n) s = .next t ∧ t.readJob j = none ∧ t.cmpr.lanes.find n = none ∧
      (∃ y, t.wjob k = some y ∧ y.stage = .ready ∧ y.volume = w.volume ∧ y.lun = w.lun ∧
        y.data = w.data + (List.range 32).foldl (fun (a : Nat) i => if bitAt w.cover i then a else
          a + bytesAt x (512 * i) 512 * 2 ^ (4096 * i)) 0) ∧
      t.jrnl = s.jrnl ∧ t.plce = s.plce ∧ t.cmdq = s.cmdq ∧ t.regn = s.regn ∧ t.xprt = s.xprt ∧ t.gard = s.gard ∧
      Safety.CtlSame s t) ∧
  (∀ (s : State) (n j u : Nat) (e : Nat × Nat) (r : RUnit), 40 ≤ n → s.cmpr.lanes.find n = some j → s.readJob j = some r →
    r.result = some u → r.partial_ = false → r.failed = none → checkUnit u (meGlen r.entry) = .inr e → ∃ t,
      exec (.decompressComplete n) s = .next t ∧ t.fab.sticky S.CMPR_INTEGRITY = true ∧ t.cmpr.lanes.find n = none ∧
      t.plce.map = s.plce.map ∧ t.pending = s.pending)

/-- Packing units into stripes, stripes that fill or time out, placement, and segments. Rests on R463, R465, R468, R470, R510. -/
def Obligations.Placement : Prop :=
  (∀ (s : State) (j p : Nat) (w : WUnit) (x : Stripe), s.isLive pgPlce = true → s.saving = false → s.wjob j = some w → w.stage = .stored →
    p = s.volPool w.volume → (s.pool p).usable = true → s.inVat (cellsOfJob j) = false → s.plce.open_.find (2 * p) = some x → x.units ≠ [] →
    x.fits (s.pool p).d (w.stored.len / 512) = true →
    x.used + w.stored.len / 512 + 1 + summaryGran (x.units.length + 2) ≤ 128 * (s.pool p).d → ∃ t, exec (.unitPack (.job j)) s = .next t ∧
      t.wjob j = some { w with stage := .packed } ∧ t.plce.open_.find (2 * p) = some
        { x with used := x.used + w.stored.len / 512, units := x.units ++
          [{ volume := w.volume, lun := w.lun, goff := x.used, glen := w.stored.len / 512, raw := w.raw,
             isSealed := decide (w.keyIndex ≠ 0), job := some j, from_ := none, bytes := w.stored.val }] } ∧
      t.plce.map = s.plce.map ∧ t.fab = s.fab ∧ t.cmdq = s.cmdq ∧ t.regn = s.regn ∧ t.drvp = s.drvp ∧ t.strp = s.strp ∧
      Safety.NetSame s t ∧ Safety.CtlSame s t) ∧
  (∀ (s : State) (j p : Nat) (w : WUnit), s.isLive pgPlce = true → s.saving = false → s.wjob j = some w → w.stage = .stored →
    p = s.volPool w.volume → (s.pool p).usable = true → s.inVat (cellsOfJob j) = false → s.plce.open_.find (2 * p) = none →
    s.freeSegs p ≤ s.pressReserve p →
    (s.plce.waits.any fun y => decide (y.job = j)) = false → ∃ t, exec (.unitPack (.job j)) s = .next t ∧
      t.plce = { s.plce with waits := s.plce.waits ++ [⟨j, p⟩] } ∧ t.cmpr = s.cmpr ∧ t.fab.out = s.fab.out ∧ t.cmdq = s.cmdq ∧
      t.regn = s.regn ∧ t.drvp = s.drvp ∧ t.strp = s.strp ∧ Safety.NetSame s t ∧ Safety.CtlSame s t) ∧
  (∀ (s : State) (p st : Nat) (x : Stripe), st < 2 → s.saving = false → s.mirroring = false → s.syncing = false → s.plce.open_.find (2 * p + st) = some x → x.units ≠ [] →
    x.pool = p → x.t < 63 → ∃ t, exec (.stripeFillTimeout p st) s = .next t ∧
      t.plce.open_.find (2 * p + st) = some { pool := p, seg := x.seg, t := x.t + 1, stream := st } ∧
      t.plce.writing = s.plce.writing ++ [{ x with
        waiting := (List.range (s.pool p).w).filter (fun r => decide (((s.pool p).member ((s.pool p).posOf (stripeNo x.seg x.t) r)).state = 1 ∨
          ((s.pool p).member ((s.pool p).posOf (stripeNo x.seg x.t) r)).state = 2)),
        failed := (List.range (s.pool p).w).filter (fun r => !decide (((s.pool p).member ((s.pool p).posOf (stripeNo x.seg x.t) r)).state = 1 ∨
          ((s.pool p).member ((s.pool p).posOf (stripeNo x.seg x.t) r)).state = 2))
        bays := (List.range (s.pool p).w).map fun r => ((s.pool p).member ((s.pool p).posOf (stripeNo x.seg x.t) r)).bay }] ∧
      (∀ r, r < (s.pool p).w → ((s.pool p).member ((s.pool p).posOf (stripeNo x.seg x.t) r)).state = 1 →
        Emit.strip p (stripeNo x.seg x.t) r ⟨65536, (s.pool p).strip (x.data (s.pool p).d) r⟩ ∈ t.fab.out) ∧
      t.plce.map = s.plce.map ∧ t.cmpr = s.cmpr ∧ t.jrnl = s.jrnl ∧ t.cmdq = s.cmdq ∧ t.regn = s.regn ∧ t.strp = s.strp ∧
      t.xprt = s.xprt ∧ t.gard = s.gard ∧ Safety.CtlSame s t) ∧
  (∀ (s : State) (p g k r q : Nat) (x : Stripe), s.strp.done = [(.strip p g k r, true)] → s.plce.writing = [x] → x.pool = p → x.seg = g →
    x.t = k → x.waiting = [r, q] → r ≠ q → ∃ t, exec .stripWriteComplete s = .next t ∧ t.strp.done = [] ∧
      t.plce = { s.plce with writing := [{ x with waiting := [q] }] } ∧ t.fab.out = s.fab.out ∧ t.cmpr = s.cmpr ∧ t.jrnl = s.jrnl ∧
      t.cmdq = s.cmdq ∧ t.regn = s.regn ∧ t.drvp = s.drvp ∧ t.xprt = s.xprt ∧ t.gard = s.gard ∧ t.vat = s.vat ∧ Safety.CtlSame s t) ∧
  (∀ (s : State) (p g k r j : Nat) (x : Stripe) (u : PackU) (w : WUnit), s.strp.done = [(.strip p g k r, true)] → s.plce.writing = [x] →
    x.pool = p → x.seg = g → x.t = k → x.waiting = [r] → x.failed = [] → (s.pool p).tooMany [] = false → x.units = [u] → u.job = some j →
    s.wjob j = some w → w.for_ = .destage → s.activeUnit w.lun = true → s.mirroring = false → s.syncing = false →
    mePhys (s.entry w.volume w.lun) = false → ∃ t, exec .stripWriteComplete s = .next t ∧ t.plce.writing = [] ∧ t.wjob j = none ∧ t.plce.map.get (mapKey w.volume w.lun) entUnmapped =
      withBits (entPhys g (k * 128 * (s.pool p).d + u.goff) u.glen u.isSealed u.raw) 4 1 0 ∧
      (∀ m, m ≠ mapKey w.volume w.lun → t.plce.map.get m entUnmapped = s.plce.map.get m entUnmapped) ∧ t.cmdq = s.cmdq ∧ t.regn = s.regn ∧
      t.xprt = s.xprt ∧ Safety.CtlSame s t) ∧
  (∀ (s : State) (j : Nat) (w : WUnit), (s.plce.waits.any fun y => decide (y.job = j)) = true → s.wjob j = some w → w.volume = imgVol →
    w.for_ = .destage → s.activeUnit w.lun = true → s.mirroring = false → s.syncing = false → mePhys (s.entry w.volume w.lun) = false →
    ∃ t, exec (.segmentWaitStall j) s = .next t ∧ t.fab.sticky S.PLCE_PLACE_STALL = true ∧ t.wjob j = none ∧
      t.plce.map.get (mapKey w.volume w.lun) entUnmapped = entZero ∧ (t.plce.waits.any fun y => decide (y.job = j)) = false ∧
      t.cmdq = s.cmdq ∧ t.regn = s.regn ∧ t.xprt = s.xprt ∧ Safety.CtlSame s t) ∧
  (∀ (s : State) (p n : Nat), (s.seg p n).state = 4 → (s.seg p n).undurable = [] → (s.seg p n).reads = 0 → s.mirroring = false →
    s.syncing = false →
    ∃ t, exec (.segmentFree p n) s = .next t ∧ t.seg p n = {} ∧ t.plce.map = s.plce.map ∧ t.plce.open_ = s.plce.open_ ∧
      t.cmdq = s.cmdq ∧ t.regn = s.regn ∧ t.jrnl = s.jrnl ∧ t.cmpr = s.cmpr ∧ Safety.NetSame s t ∧
      Safety.CtlSame s t)

/-- Map pages in the cache, write-back, the Press, and volume discard. Rests on R478, R480, R481, R493, R495, R497. -/
def Obligations.MapAndPress : Prop :=
  (∀ (s : State) (k : Nat) (ok : Bool), k ∈ s.plce.fetching → s.strp.done = [(.mapRead k, ok)] →
    s.inVat (fun x => decide (x = .mapRead k)) = false →
    (ok = true → (s.plce.copies.get k []).length ≤ 1 → s.plce.pages.size < s.get pgPlce F.PLCE_MAP_STAT_FRAMES →
      ∃ t, exec (.mapPageReadComplete k false) s = .next t ∧ t.pageCached k = true ∧ k ∉ t.plce.fetching ∧ t.strp.done = [] ∧
        t.plce.map = s.plce.map ∧ t.cmdq = s.cmdq ∧ t.regn = s.regn ∧ t.jrnl = s.jrnl ∧ t.drvp = s.drvp ∧ t.xprt = s.xprt ∧
        t.gard = s.gard ∧ Safety.CtlSame s t) ∧
    (∀ c : Nat, s.mapCopyFor (s.volPool (pageVol k)) ((s.pageSlot k).getD 0) (s.plce.copies.get k []) = some c →
      ∃ t, exec (.mapPageReadComplete k true) s = .next t ∧ t.pageCached k = s.pageCached k ∧ k ∈ t.plce.fetching ∧ t.strp.done = [] ∧
        t.plce.copies.get k [] = c :: s.plce.copies.get k [] ∧ t.plce.map = s.plce.map ∧ t.cmdq = s.cmdq ∧ t.regn = s.regn ∧
        t.jrnl = s.jrnl ∧ t.xprt = s.xprt ∧ t.gard = s.gard ∧ Safety.CtlSame s t) ∧
    (s.mapCopyFor (s.volPool (pageVol k)) ((s.pageSlot k).getD 0) (s.plce.copies.get k []) = none → s.plce.copies.get k [] ≠ [] →
      s.plce.pages.size < s.get pgPlce F.PLCE_MAP_STAT_FRAMES → ∃ t, exec (.mapPageReadComplete k true) s = .next t ∧
        t.pageCached k = true ∧ t.fab.sticky S.PLCE_MAP_LOST = true ∧ t.fab.sticky S.PLCE_MAP_COPY_BAD = true ∧
        t.pending = s.pending)) ∧
  (∀ (s : State) (k c p q : Nat), (s.mapPage k).dirty = some c → (s.mapPage k).wb = none → s.isLive pgPlce = true → s.saving = false →
    p = s.volPool (pageVol k) → (s.pool p).usable = true → s.intents p < 262136 → 13824 ≤ s.tmgr.bgGrant.get (bgLeaf p 3) 0 →
    s.awaits (.placement 0 k) = false → s.mirroring = false → s.syncing = false → s.pageSlot k = some q → ∃ t, exec (.mapWbTimer k) s = .next t ∧
      t.mapPage k = { s.mapPage k with dirty := none, wb := some ((s.mapPage k).changes, (s.mapPage k).maxSeq),
                                       wgen := (s.mapPage k).wgen + 1 } ∧
      (∀ i, i < 3 → ((s.pool p).member ((s.pool p).mapPos q i)).state = 1 →
        Emit.mapPage p q i ⟨4608, t.pageImage k⟩ ∈ t.fab.out) ∧
      t.plce.map = s.plce.map ∧ t.cmdq = s.cmdq ∧ t.regn = s.regn ∧ t.jrnl = s.jrnl ∧ t.cmpr = s.cmpr ∧ t.strp.done = s.strp.done ∧
      t.xprt = s.xprt ∧ t.gard = s.gard ∧ Safety.CtlSame s t) ∧
  (∀ (s : State) (k n m : Nat), (s.mapPage k).wb = some (n, m) → s.mirroring = false → s.syncing = false →
    (s.strp.done = [(.mapCopy k 0 (s.mapPage k).wgen, true), (.mapCopy k 1 (s.mapPage k).wgen, true)] →
      ∃ t, exec (.mapWbComplete k) s = .next t ∧ t.mapPage k = { s.mapPage k with wb := none } ∧ t.strp.done = [] ∧
        (∀ i r, t.jrec i = some r → ∀ e, e ∈ r.undurable → e.1 = k → n < e.2) ∧ t.plce.map = s.plce.map ∧ t.cmdq = s.cmdq ∧
        t.regn = s.regn ∧ t.cmpr = s.cmpr ∧ t.drvp = s.drvp ∧ Safety.NetSame s t ∧ Safety.CtlSame s t) ∧
    (s.strp.done = [(.mapCopy k 0 (s.mapPage k).wgen, true)] → exec (.mapWbComplete k) s = .next s)) ∧
  (∀ (s : State) (p n : Nat) (scan : SummaryScan), p < 4 → s.mirroring = false → s.syncing = false → s.isOn pgPlce = true →
    s.saving = false → (s.pool p).usable = true → s.freeSegs p < s.pressStart p →
    bitAt (s.get pgPlce F.PLCE_PRESS_CTL_PAUSE) p = false → s.plce.victims.find p = none → s.selectVictim p = some n →
    ∃ t, exec (.pressSelect p scan) s = .next t ∧ t.plce.victims.find p = some n ∧ t.seg p n = { s.seg p n with state := 3 } ∧
      bitAt (t.get pgPlce F.PLCE_PRESS_STAT_RUNNING) p = true ∧ t.plce.map = s.plce.map ∧ t.cmdq = s.cmdq ∧
      t.regn = s.regn ∧ t.jrnl = s.jrnl ∧ t.cmpr = s.cmpr ∧ t.strp = s.strp ∧ t.xprt = s.xprt ∧ t.gard = s.gard ∧
      (scan.mended = [] → t.drvp = s.drvp ∧ t.fab.out = s.fab.out ∧ Safety.NetSame s t) ∧ Safety.CtlSame s t) ∧
  (∀ (s : State) (p g k : Nat) (u : PackU) (rest : List (Nat × Nat × Nat × PackU)), s.plce.relocs = (p, g, k, u) :: rest →
    s.mirroring = false → s.syncing = false →
    (mePhys (s.entry u.volume u.lun) = true → u.from_ = some (meSeg (s.entry u.volume u.lun), meGoff (s.entry u.volume u.lun)) →
      ∃ t, exec .pressRelocateCommit s = .next t ∧ t.plce.relocs = rest ∧ t.plce.map.get (mapKey u.volume u.lun) entUnmapped =
        withBits (entPhys g (k * 128 * (s.pool p).d + u.goff) u.glen u.isSealed u.raw) 4 1 0 ∧ t.cmdq = s.cmdq ∧ t.regn = s.regn ∧
        t.jrnl = s.jrnl ∧ t.cmpr = s.cmpr ∧ t.strp = s.strp ∧ t.drvp = s.drvp ∧ Safety.NetSame s t ∧ Safety.CtlSame s t) ∧
    (u.from_ ≠ some (meSeg (s.entry u.volume u.lun), meGoff (s.entry u.volume u.lun)) → ∃ t, exec .pressRelocateCommit s = .next t ∧
        t.plce = { s.plce with relocs := rest } ∧ t.fab.out = s.fab.out ∧ t.cmdq = s.cmdq ∧ t.regn = s.regn ∧ t.jrnl = s.jrnl ∧
        t.cmpr = s.cmpr ∧ t.strp = s.strp ∧ t.drvp = s.drvp ∧ Safety.NetSame s t ∧ Safety.CtlSame s t)) ∧
  (∀ (s : State) (v : BitVec 32), v.toNat ≥ 2 ^ 31 → s.flag pgPlce F.PLCE_VOL_OP_STAT_BUSY = false →
    (nsValid (s.ns (bitsOf v.toNat 0 14)) = false → ∃ t, exec (.volumeDiscard v) s = .next t ∧
      t.plce = { s.plce with discarding := some (bitsOf v.toNat 0 14) } ∧ t.get pgPlce F.PLCE_VOL_OP_STAT_BUSY = 1 ∧
      t.get pgPlce F.PLCE_VOL_OP_STAT_STATUS = 0 ∧ t.fab.out = s.fab.out ∧ t.cmdq = s.cmdq ∧ t.regn = s.regn ∧ Safety.NetSame s t ∧
      Safety.CtlSame s t) ∧
    (nsValid (s.ns (bitsOf v.toNat 0 14)) = true → ∃ t, exec (.volumeDiscard v) s = .next t ∧ t.get pgPlce F.PLCE_VOL_OP_STAT_BUSY = 0 ∧
      t.get pgPlce F.PLCE_VOL_OP_STAT_STATUS = 1 ∧ t.fab.out = s.fab.out ∧ Safety.NetSame s t ∧ Safety.StoreSame s t ∧
      Safety.CtlSame s t)) ∧
  (∀ (s : State) (v : Nat), s.plce.discarding = some v → s.mirroring = false → s.syncing = false → ∃ t, exec .volumeDiscardComplete s = .next t ∧ t.plce.discarding = none ∧
    t.get pgPlce F.PLCE_VOL_OP_STAT_BUSY = 0 ∧
    (∀ u, u < 2 ^ 38 → t.plce.map.get (mapKey v u) entUnmapped = entUnmapped) ∧
    (∀ k, mapVol k ≠ v → t.plce.map.get k entUnmapped = s.plce.map.get k entUnmapped) ∧ t.fab.out = s.fab.out ∧ t.cmdq = s.cmdq ∧
    t.regn = s.regn ∧ t.jrnl = s.jrnl ∧ t.cmpr = s.cmpr ∧ t.strp = s.strp ∧ t.drvp = s.drvp ∧ t.xprt = s.xprt ∧ t.vat = s.vat ∧
    t.cell = s.cell ∧ Safety.CtlSame s t)

/-- POOL_OP: create, import, export, fail a member, and clear a label. Rests on R520, R523, R524, R526, R527. -/
def Obligations.PoolOperations : Prop :=
  (∀ (s : State) (p : Nat) (bays : List Nat), p < 4 → (s.pool p).busy = false → (s.pool p).state = 0 →
    s.flag (pgPool p) F.POOL_CFG_DEFINED = true → s.isOn (pgPool p) = true → bays = bitsIn 24 (s.get (pgPool p) F.POOL_BAYS_MEMBER_MASK) →
    (s.owned = true → s.mirroring = false → s.syncing = false → (∀ b, b ∈ bays → s.labelled b = false ∧ s.bayReady b = true) → ∃ t, exec (.poolCreate p) s = .next t ∧ (t.pool p).state = 2 ∧
      (t.pool p).members = bays.map (fun b => { bay := b, state := 1, capacity := (s.bay b).capacity }) ∧
      (t.pool p).prot = s.get (pgPool p) F.POOL_CFG_PROT ∧ (t.pool p).d = s.get (pgPool p) F.POOL_CFG_D ∧
      (t.pool p).w = bays.length ∧ t.seg p 1 = { state := 1, stream := 0 } ∧ t.seg p 2 = { state := 1, stream := 1 } ∧
      t.get (pgPool p) F.POOL_OP_STAT_STATUS = 0 ∧ t.get (pgPool p) F.POOL_STAT_STATE = 2 ∧
      (∀ b, b ∈ bays → t.labelled b = true) ∧ t.plce.map = s.plce.map ∧ t.cmdq = s.cmdq ∧ t.regn = s.regn ∧ t.jrnl = s.jrnl ∧
      t.cmpr = s.cmpr ∧ t.drvp = s.drvp ∧ Safety.NetSame s t ∧ Safety.CtlSame s t) ∧
    (∀ b : Nat, b ∈ bays → s.labelled b = true → ∃ t, exec (.poolCreate p) s = .next t ∧ t.get (pgPool p) F.POOL_OP_STAT_STATUS = 3 ∧
      t.fab.out = s.fab.out ∧ Safety.NetSame s t ∧ Safety.StoreSame s t ∧ Safety.CtlSame s t)) ∧
  (∀ (s : State) (p : Nat), p < 4 → (s.pool p).busy = false → (s.pool p).state = 0 → s.flag (pgPool p) F.POOL_CFG_DEFINED = true →
    s.isOn (pgPool p) = true →
    ((s.fab.page pgJrnl).state ≠ .starting → ∃ t, exec (.poolImport p) s = .next t ∧
      t.pool p = { s.pool p with busy := true, state := 1, phase := 1 } ∧ t.get (pgPool p) F.POOL_OP_STAT_BUSY = 1 ∧
      t.get (pgPool p) F.POOL_STAT_IMPORT_PHASE = 1 ∧ t.fab.out = s.fab.out ∧ t.plce = s.plce ∧ t.cmdq = s.cmdq ∧ t.regn = s.regn ∧
      t.jrnl = s.jrnl ∧ t.cmpr = s.cmpr ∧ t.drvp = s.drvp ∧ Safety.NetSame s t ∧ Safety.CtlSame s t) ∧
    ((s.fab.page pgJrnl).state = .starting → ∃ t, exec (.poolImport p) s = .next t ∧ t.pool p = { s.pool p with busy := true } ∧
      t.get (pgPool p) F.POOL_OP_STAT_BUSY = 1 ∧ t.fab.out = s.fab.out ∧ t.plce = s.plce ∧ t.cmdq = s.cmdq ∧ t.regn = s.regn ∧
      t.jrnl = s.jrnl ∧ t.cmpr = s.cmpr ∧ t.drvp = s.drvp ∧ Safety.NetSame s t ∧ Safety.CtlSame s t)) ∧
  (∀ (s : State) (p : Nat), p < 4 → (s.pool p).busy = false → (s.pool p).state ≠ 1 →
    (s.mirroring = false → s.syncing = false → (s.fab.nsEntries false).any (fun e => decide (s.volPool e.1 = p)) = false → ∃ t, exec (.poolExport p) s = .next t ∧ t.pool p = {} ∧
      t.get (pgPool p) F.POOL_OP_STAT_STATUS = 0 ∧ t.get (pgPool p) F.POOL_STAT_STATE = 0 ∧
      (∀ k, s.volPool (mapVol k) = p → t.plce.map.get k entUnmapped = entUnmapped) ∧
      (∀ k, s.volPool (mapVol k) ≠ p → t.plce.map.get k entUnmapped = s.plce.map.get k entUnmapped) ∧
      (∀ q, q ≠ p → t.pool q = s.pool q) ∧ t.cmdq = s.cmdq ∧ t.regn = s.regn ∧ t.jrnl = s.jrnl ∧ t.cmpr = s.cmpr ∧ t.drvp = s.drvp ∧
      Safety.NetSame s t ∧ Safety.CtlSame s t) ∧
    ((s.fab.nsEntries false).any (fun e => decide (s.volPool e.1 = p)) = true → ∃ t, exec (.poolExport p) s = .next t ∧
      t.get (pgPool p) F.POOL_OP_STAT_STATUS = 1 ∧ t.fab.out = s.fab.out ∧ Safety.NetSame s t ∧ Safety.StoreSame s t ∧
      Safety.CtlSame s t)) ∧
  (∀ (s : State) (p b i : Nat), p < 4 → (s.pool p).busy = false → (s.pool p).usable = true →
    (s.placeOf b = some (p, i) → (s.pool p).spares = [] → s.mirroring = false → s.syncing = false → ∃ t, exec (.poolFailMember p b) s = .next t ∧
      ((t.pool p).member i).state = 3 ∧ ((t.pool p).member i).cause = 3 ∧ (∀ j, j ≠ i → (t.pool p).member j = (s.pool p).member j) ∧
      t.fab.sticky (S.STRP_MEMBER_FAILED.on p) = true ∧ t.fab.sticky (S.STRP_NO_SPARE.on p) = true ∧
      t.get (pgPool p) F.POOL_OP_STAT_STATUS = 0 ∧ t.plce = s.plce ∧ t.cmdq = s.cmdq ∧ t.regn = s.regn ∧ t.jrnl = s.jrnl ∧
      t.cmpr = s.cmpr ∧ t.drvp = s.drvp ∧ Safety.NetSame s t ∧ Safety.CtlSame s t) ∧
    (s.placeOf b = none → ∃ t, exec (.poolFailMember p b) s = .next t ∧ t.get (pgPool p) F.POOL_OP_STAT_STATUS = 5 ∧
      t.fab.out = s.fab.out ∧ Safety.NetSame s t ∧ Safety.StoreSame s t ∧ Safety.CtlSame s t)) ∧
  (∀ (s : State) (p b : Nat), p < 4 → (s.pool p).busy = false →
    (s.inPool b = false → s.bayReady b = true → s.owned = true → ∃ t, exec (.poolClearLabel p b) s = .next t ∧ t.labelled b = false ∧
      Emit.poolLabel b 0 ⟨4096, labelBytes clearedLabel 0⟩ ∈ t.fab.out ∧ Emit.poolLabel b 1 ⟨4096, labelBytes clearedLabel 0⟩ ∈ t.fab.out ∧ t.get (pgPool p) F.POOL_OP_STAT_STATUS = 0 ∧ t.strp.pools = s.strp.pools ∧ t.plce = s.plce ∧
      t.cmdq = s.cmdq ∧ t.regn = s.regn ∧ t.jrnl = s.jrnl ∧ t.cmpr = s.cmpr ∧ t.drvp = s.drvp ∧ Safety.NetSame s t ∧
      Safety.CtlSame s t) ∧
    (s.inPool b = false → s.bayReady b = true → s.owned = false → ∃ t, exec (.poolClearLabel p b) s = .next t ∧
      t.fab.sticky (S.DRVP_WRITE_GATED.on b) = true ∧ Safety.NetSame s t ∧ Safety.StoreSame s t ∧ Safety.CtlSame s t) ∧
    (s.inPool b = true → ∃ t, exec (.poolClearLabel p b) s = .next t ∧ t.get (pgPool p) F.POOL_OP_STAT_STATUS = 1 ∧
      t.fab.out = s.fab.out ∧ Safety.NetSame s t ∧ Safety.StoreSame s t ∧ Safety.CtlSame s t)) ∧
  (∀ (s : State) (p b : Nat) (c : Instr), p < 4 → (s.pool p).busy = true →
    c ∈ [.poolCreate p, .poolImport p, .poolExport p, .poolFailMember p b, .poolClearLabel p b] → ∃ t, exec c s = .next t ∧
    t.fab.out = s.fab.out ∧ t.get (pgPool p) F.POOL_OP_STAT_STATUS = s.get (pgPool p) F.POOL_OP_STAT_STATUS ∧ Safety.NetSame s t ∧ Safety.StoreSame s t ∧
    Safety.CtlSame s t)

/-- Import phases, rebuilding and its checkpoints, the loss list, and the Turner. Rests on R518, R527, R530, R534, R546. -/
def Obligations.ImportRebuildTurner : Prop :=
  (∀ (s : State) (p : Nat) (x : ImportIn), p < 4 → (s.pool p).busy = true →
    ((s.pool p).state = 0 → (s.fab.page pgJrnl).state ≠ .starting → ∃ t, exec (.importPhaseComplete p x) s = .next t ∧
      t.pool p = { s.pool p with state := 1, phase := 1 } ∧ t.fab.out = s.fab.out ∧ t.plce = s.plce ∧ Safety.NetSame s t ∧
      Safety.CtlSame s t) ∧
    (s.mirroring = false → s.syncing = false → (s.pool p).state = 1 → (s.pool p).phase = 1 → s.labelsOf p = [] → ∃ t, exec (.importPhaseComplete p x) s = .next t ∧
      t.pool p = {} ∧ t.get (pgPool p) F.POOL_OP_STAT_STATUS = 2 ∧ t.get (pgPool p) F.POOL_OP_STAT_BUSY = 0 ∧ Safety.NetSame s t ∧
      Safety.CtlSame s t) ∧
    (s.mirroring = false → s.syncing = false → (s.pool p).state = 1 → (s.pool p).phase = 2 → x.osl = none → ∃ t, exec (.importPhaseComplete p x) s = .next t ∧
      (t.pool p).phase = 3 ∧ (t.pool p).oslSrc = 3 ∧ t.fab.sticky (S.STRP_IMPORT_SCRUB.on p) = true ∧ t.plce.map = s.plce.map ∧
      Safety.NetSame s t ∧ Safety.CtlSame s t) ∧
    (s.mirroring = false → s.syncing = false → (s.pool p).state = 1 → (s.pool p).phase = 5 → (s.pool p).w = (s.pool p).members.length → (∀ i, i < (s.pool p).members.length → ((s.pool p).member i).state = 1) →
      ∃ t, exec (.importPhaseComplete p x) s = .next t ∧ (t.pool p).state = 2 ∧ (t.pool p).phase = 0 ∧ (t.pool p).busy = false ∧
      (t.pool p).members = (s.pool p).members ∧ t.get (pgPool p) F.POOL_OP_STAT_STATUS = 0 ∧ t.plce = s.plce ∧ Safety.NetSame s t ∧
      Safety.CtlSame s t)) ∧
  (∀ (s : State) (p i g : Nat) (bad : List (Nat × Nat)), p < 4 → s.saving = false → (s.pool p).usable = true → s.isOn (pgPool p) = true →
    (s.pool p).rbState = 1 → (s.pool p).rbWrote = false → (s.strp.rebuilt.any fun e => decide (e.pool = p)) = false →
    (s.pool p).nextMapCopy = none → g = (s.pool p).cursor / 64 + 1 → (s.pool p).need.list = [(i, [g])] → (s.pool p).cursor % 64 ≠ 0 →
    ((s.seg p g).state = 2 → (s.pool p).joined = [i] → (s.rebuildRead p).1 = none →
      exec (.rebuildStripe p bad) s = .next (s.rebuildRead p).2) ∧
    (∀ got : List Nat, (s.seg p g).state = 2 → (s.pool p).joined = [i] → (s.rebuildRead p).1 = some (got.map some) →
      (s.pool p).tooMany ((List.range (s.pool p).w).filter fun r =>
        !(s.pool p).intact (s.pool p).cursor ((s.pool p).posOf (s.pool p).cursor r)) = false →
      ∃ t, exec (.rebuildStripe p bad) s = .next t ∧ t.pool p = { s.pool p with rbWrote := true } ∧
        Emit.strip p (s.pool p).cursor ((s.pool p).roleOf (s.pool p).cursor i) ⟨65536, zeroRows []
          ((s.pool p).stripFrom ((s.pool p).rebuildSources.zip got) ((s.pool p).roleOf (s.pool p).cursor i) % 2 ^ 524288)⟩ ∈ t.fab.out ∧
        (t.strp.rebuilt.any fun e => decide (e.pool = p ∧ e.map = false ∧ e.what = (s.pool p).cursor ∧ e.pos = i)) = true ∧
        t.plce.map = s.plce.map ∧ t.cmdq = s.cmdq ∧ t.regn = s.regn ∧ t.jrnl = s.jrnl ∧ t.cmpr = s.cmpr ∧ t.xprt = s.xprt ∧
        t.gard = s.gard ∧ Safety.CtlSame s t) ∧
    ((s.seg p g).state = 1 → bitAt (s.seg p g).written ((s.pool p).cursor % 64) = false → (s.pool p).cursor % 64 ≠ 63 →
      ∃ t, exec (.rebuildStripe p bad) s = .next t ∧ t.pool p = { s.pool p with cursor := (s.pool p).cursor + 1 } ∧ t.plce = s.plce ∧
        t.fab.out = s.fab.out ∧ t.cmdq = s.cmdq ∧ t.regn = s.regn ∧ t.jrnl = s.jrnl ∧ t.cmpr = s.cmpr ∧ t.drvp = s.drvp ∧
        Safety.NetSame s t ∧ Safety.CtlSame s t)) ∧
  (∀ (s : State) (p : Nat) (bad : List (Nat × Nat)), p < 4 → s.saving = false → (s.pool p).usable = false → (s.pool p).rbState = 1 →
    ∃ t, exec (.rebuildStripe p bad) s = .next t ∧ t.pool p = { s.pool p with rbState := 2 } ∧ t.plce = s.plce ∧ t.drvp = s.drvp ∧
      Safety.NetSame s t ∧ Safety.CtlSame s t) ∧
  (∀ (s : State) (p : Nat), p < 4 → (s.pool p).rbState ≠ 0 → s.owned = true → ∃ t, exec (.rebuildCheckpoint p) s = .next t ∧
    t.strp.pools = s.strp.pools ∧ (∀ i, i < (s.pool p).members.length → ((s.pool p).member i).state = 1 →
      Emit.poolLabel ((s.pool p).member i).bay 0 ⟨4096, labelBytes
        { s.labelOf p (s.openSegs p).1 (s.openSegs p).2 with position := i } (s.pool p).loss.length⟩ ∈ t.fab.out) ∧ t.plce = s.plce ∧ t.cmdq = s.cmdq ∧ t.regn = s.regn ∧
    t.jrnl = s.jrnl ∧ t.cmpr = s.cmpr ∧ t.drvp = s.drvp ∧ Safety.NetSame s t ∧ Safety.CtlSame s t) ∧
  (∀ (s : State) (p i : Nat) (e : LossEnt), p < 4 → (s.pool p).loss[i]? = some e → e.done = false →
    4096 * (s.lossRows p e).length ≤ s.tmgr.bgGrant.get (bgLeaf p 2) 0 → ∃ t, exec (.lossHandle p i) s = .next t ∧
    (t.pool p).loss = (s.pool p).loss.set i { e with done := true } ∧ t.fab.sticky (S.STRP_DATA_LOSS.on p) = true ∧
    (∀ x, x ∈ s.poolEntries p → hitsLoss (s.pool p) e x.2 = true → t.plce.map.get x.1 entUnmapped = entDamaged) ∧
    t.pending = s.pending) ∧
  (∀ (s : State) (p r : Nat) (rows : List Nat) (mended failed : List (Nat × Nat)), p < 4 → s.saving = false → (s.pool p).state = 2 →
    s.flag (pgPool p) F.POOL_CFG_TURNER_EN = true → s.isOn (pgPool p) = true → s.stripeIs p (s.pool p).turnerCursor = true →
    (s.pool p).turnerRow < 15 → (s.turnerRead p (s.pool p).turnerCursor (s.pool p).turnerRow).1 = some (rows.map some) →
    rows.length = (s.pool p).w →
    (locateRow (s.pool p).prot (s.pool p).d rows = .consistent → ∃ t, exec (.turnerRow p mended failed) s = .next t ∧
      t.pool p = { s.pool p with turnerRun := true, turnerRow := (s.pool p).turnerRow + 1 } ∧ t.plce.map = s.plce.map ∧ t.cmdq = s.cmdq ∧
      t.regn = s.regn ∧ t.jrnl = s.jrnl ∧ t.cmpr = s.cmpr ∧ t.drvp = s.drvp ∧ t.xprt = s.xprt ∧ t.gard = s.gard ∧ Safety.CtlSame s t) ∧
    (locateRow (s.pool p).prot (s.pool p).d rows = .at r →
      ((s.pool p).member ((s.pool p).posOf (s.pool p).turnerCursor r)).state = 1 → ∃ t, exec (.turnerRow p mended failed) s = .next t ∧
      t.fab.sticky (S.STRP_SCRUB_CORRECTED.on p) = true ∧ (t.pool p).turnerRow = (s.pool p).turnerRow + 1 ∧
      (t.pool p).turnerNext = ((s.pool p).turnerNext + 1) % 64 ∧
      (∃ q, q ∈ (t.bay ((s.pool p).member ((s.pool p).posOf (s.pool p).turnerCursor r)).bay).waiting ∧
        q.use = .repair p (s.pool p).turnerCursor r (s.pool p).turnerRow ∧ q.isWrite = true ∧ q.bytes = 4096) ∧
      t.plce.map = s.plce.map ∧ t.cmdq = s.cmdq ∧ t.regn = s.regn ∧ t.jrnl = s.jrnl ∧ t.cmpr = s.cmpr ∧ t.xprt = s.xprt ∧
      t.gard = s.gard ∧ Safety.CtlSame s t))

/-- Drive requests: issue, completion, DMA, time-outs, and quarantined tags. Rests on R560, R563, R567, R568, R570. -/
def Obligations.DriveRequests : Prop :=
  (∀ (s : State) (b n : Nat) (r : DrvReq), b < 24 → s.bayReady b = true → (s.bay b).waiting = [r] → s.saving = false → s.psHolds b = false →
    s.mayTag b r = true → s.dataHere b r = true → r.cls < 4 → s.freeTag b (decide (r.cls = 3)) = some n →
    (r.isWrite = false ∨ s.owned = true → ∃ t, exec (.driveRequestIssue b) s = .next t ∧
      (t.bay b).out.find n = some (if (s.bay b).toMerge r then { r with isWrite := false } else r) ∧
      (t.bay b).waiting = [] ∧ Emit.driveIo b n (r.isWrite && !(s.bay b).toMerge r) (r.offset - ((s.bay b).wide r).1)
        ((s.bay b).wide r).2 (r.isWrite && !(s.bay b).toMerge r && (s.bay b).fua) ∈ t.fab.out ∧
      (∀ c, c ≠ b → t.bay c = s.bay c) ∧ t.cmdq = s.cmdq ∧ t.regn = s.regn ∧ t.jrnl = s.jrnl ∧ t.cmpr = s.cmpr ∧ t.plce = s.plce ∧
      t.strp = s.strp ∧ Safety.NetSame s t ∧ Safety.CtlSame s t) ∧
    (∀ p g k q : Nat, r.isWrite = true → s.owned = false → r.use = .strip p g k q → ∃ t, exec (.driveRequestIssue b) s = .next t ∧
      t.fab.sticky (S.DRVP_WRITE_GATED.on b) = true ∧ (t.bay b).waiting = [] ∧ (t.bay b).out = (s.bay b).out ∧
      t.strp = { s.strp with done := s.strp.done ++ [(.strip p g k q, false)] } ∧ (∀ c, c ≠ b → t.bay c = s.bay c) ∧ t.cmdq = s.cmdq ∧
      t.regn = s.regn ∧ t.jrnl = s.jrnl ∧ t.cmpr = s.cmpr ∧ t.plce = s.plce ∧ Safety.NetSame s t ∧ Safety.CtlSame s t)) ∧
  (∀ (s : State) (b n sc p g k q : Nat) (r : DrvReq), b < 24 → s.saving = false → (s.bay b).out.find n = some r → r.use = .strip p g k q →
    (r.isWrite = true → ∃ t, exec (.driveCompletion b n 0 0 false) s = .next t ∧ (t.bay b).out.find n = none ∧
      t.strp = { s.strp with done := s.strp.done ++ [(.strip p g k q, true)] } ∧ (∀ c, c ≠ b → t.bay c = s.bay c) ∧ t.cmdq = s.cmdq ∧
      t.regn = s.regn ∧ t.jrnl = s.jrnl ∧ t.cmpr = s.cmpr ∧ t.plce = s.plce ∧ t.xprt = s.xprt ∧ t.gard = s.gard ∧ Safety.CtlSame s t) ∧
    (sc ≠ 0 → r.retries < s.get (pgDrvp b) F.DRV_TO_RETRY_MAX → ∃ t, exec (.driveCompletion b n 0 sc false) s = .next t ∧
      (t.bay b).out.find n = none ∧
      (t.bay b).waiting = (s.bay b).waiting ++ [{ r with retries := r.retries + 1, waited := false, since := s.now }] ∧ t.strp = s.strp ∧
      (∀ c, c ≠ b → t.bay c = s.bay c) ∧ t.cmdq = s.cmdq ∧ t.regn = s.regn ∧ t.jrnl = s.jrnl ∧ t.cmpr = s.cmpr ∧ t.plce = s.plce ∧
      t.xprt = s.xprt ∧ t.gard = s.gard ∧ Safety.CtlSame s t) ∧
    (sc ≠ 0 → (s.get (pgDrvp b) F.DRV_TO_RETRY_MAX ≤ r.retries → ∃ t, exec (.driveCompletion b n 0 sc false) s = .next t ∧
      (t.bay b).out.find n = none ∧ t.strp = { s.strp with done := s.strp.done ++ [(.strip p g k q, false)] } ∧
      (∀ c, c ≠ b → t.bay c = s.bay c) ∧ t.cmdq = s.cmdq ∧ t.regn = s.regn ∧ t.jrnl = s.jrnl ∧ t.cmpr = s.cmpr ∧ t.plce = s.plce ∧
      t.xprt = s.xprt ∧ t.gard = s.gard ∧ Safety.CtlSame s t))) ∧
  (∀ (s : State) (b n sct sc : Nat) (d : Bool), b < 24 → (s.bay b).out.find n = none → n ∈ (s.bay b).quar →
    ∃ t, exec (.driveCompletion b n sct sc d) s = .next t ∧ (t.bay b).out = (s.bay b).out ∧ (t.bay b).quar = (s.bay b).quar ∧
      (t.bay b).logNext = ((s.bay b).logNext + 1) % 32 ∧ t.fab.out = s.fab.out ∧ (∀ c, c ≠ b → t.bay c = s.bay c) ∧ t.cmdq = s.cmdq ∧
      t.regn = s.regn ∧ t.jrnl = s.jrnl ∧ t.cmpr = s.cmpr ∧ t.plce = s.plce ∧ t.strp = s.strp ∧ Safety.NetSame s t ∧ Safety.CtlSame s t) ∧
  (∀ (s : State) (b n o : Nat) (d : Blob) (r : DrvReq), b < 24 → n < 4096 → o < 65536 → (s.bay b).out.find n = some r → r.isWrite = false →
    cellsFor r.bytes ≤ s.cellsOf (s.readKind b n r) →
    ∃ t, exec (.driveDmaWrite b (0x200000000 + n * 65536 + o) d) s = .next t ∧
      (t.bay b).filled.get n 0 = withBytes ((s.bay b).filled.get n 0) o d.len d.val ∧ (t.bay b).out = (s.bay b).out ∧ t.fab = s.fab ∧
      (∀ c, c ≠ b → t.bay c = s.bay c) ∧ t.cmdq = s.cmdq ∧ t.regn = s.regn ∧ t.jrnl = s.jrnl ∧ t.cmpr = s.cmpr ∧ t.plce = s.plce ∧
      t.strp = s.strp ∧ Safety.NetSame s t ∧ Safety.CtlSame s t) ∧
  (∀ (s : State) (b a n : Nat) (d : Blob), b < 24 → windowOf a = none → inQueueArea a = false →
    (∃ t, exec (.driveDmaWrite b a d) s = .next t ∧ t.fab.out = s.fab.out ∧ Safety.NetSame s t ∧ Safety.StoreSame s t ∧
      Safety.CtlSame s t) ∧
    (∃ t, exec (.driveDmaRead b a n) s = .next t ∧ Emit.driveUr b ∈ t.fab.out ∧ Safety.NetSame s t ∧ Safety.StoreSame s t ∧
      Safety.CtlSame s t)) ∧
  (∀ (s : State) (b n o c i g k : Nat) (r : DrvReq), b < 24 → n < 4096 → o < 65536 → (s.bay b).out.find n = some r → r.isWrite = true →
    r.use = .mapCopy k i g → ∃ t, exec (.driveDmaRead b (0x200000000 + n * 65536 + o) c) s = .next t ∧
      Emit.driveData b n ⟨c, bytesAt (withBytes (r.merged.getD 0) ((s.bay b).wide r).1 r.bytes
        (s.pageImage k % 2 ^ (8 * r.bytes))) o c⟩ ∈ t.fab.out ∧ Safety.NetSame s t ∧ Safety.StoreSame s t ∧ Safety.CtlSame s t) ∧
  (∀ (s : State) (b n p g k q : Nat) (r : DrvReq), b < 24 → (s.bay b).out.find n = some r → r.use = .strip p g k q →
    r.retries < s.get (pgDrvp b) F.DRV_TO_RETRY_MAX → (s.bay b).toRow + 1 < s.get (pgDrvp b) F.DRV_TO_RESET_AFTER →
    ∃ t, exec (.driveCmdTimeout b n) s = .next t ∧ (t.bay b).out.find n = none ∧ n ∈ (t.bay b).quar ∧
      (t.bay b).toRow = (s.bay b).toRow + 1 ∧
      (t.bay b).waiting = (s.bay b).waiting ++ [{ r with retries := r.retries + 1, waited := false, since := s.now }] ∧
      Emit.driveAbort b n ∈ t.fab.out ∧ (∀ c, c ≠ b → t.bay c = s.bay c) ∧ t.cmdq = s.cmdq ∧ t.regn = s.regn ∧ t.jrnl = s.jrnl ∧
      t.cmpr = s.cmpr ∧ t.plce = s.plce ∧ t.strp = s.strp ∧ t.xprt = s.xprt ∧ t.gard = s.gard ∧ Safety.CtlSame s t) ∧
  (∀ (s : State) (b n : Nat), b < 24 →
    (∃ t, exec (.tagQuarantineEnd b n) s = .next t ∧ (t.bay b).quar = (s.bay b).quar.filter (fun x => decide (x ≠ n)) ∧
      (t.bay b).out = (s.bay b).out ∧ t.fab.out = s.fab.out ∧ (∀ c, c ≠ b → t.bay c = s.bay c) ∧ t.cmdq = s.cmdq ∧ t.regn = s.regn ∧
      t.jrnl = s.jrnl ∧ t.cmpr = s.cmpr ∧ t.plce = s.plce ∧ t.strp = s.strp ∧ Safety.NetSame s t ∧ Safety.CtlSame s t) ∧
    (n ∉ (s.bay b).rootQuar → ∃ t, exec (.driveCto b n) s = .next t ∧ n ∈ (t.bay b).rootQuar ∧
      (t.bay b).logNext = ((s.bay b).logNext + 1) % 32 ∧ (t.bay b).out = (s.bay b).out ∧ t.fab = s.fab ∧
      (∀ c, c ≠ b → t.bay c = s.bay c) ∧ t.cmdq = s.cmdq ∧ t.regn = s.regn ∧ t.jrnl = s.jrnl ∧ t.cmpr = s.cmpr ∧ t.plce = s.plce ∧
      t.strp = s.strp ∧ Safety.NetSame s t ∧ Safety.CtlSame s t))

/-- Drive presence, PERST#, link, bring-up, and the two reset levels. Rests on R553, R554, R555, R572, R573, R582. -/
def Obligations.DriveLife : Prop :=
  (∀ (s : State) (b : Nat), b < 24 → s.flag (pgDrvp b) F.BAY_STAT_PRESENT = false → s.flag (pgDrvp b) F.DRV_CFG_AUTO_EN = false →
    ∃ t, exec (.drivePresenceDebounce b true) s = .next t ∧ t.flag (pgDrvp b) F.BAY_STAT_PRESENT = true ∧ t.fab.out = s.fab.out ∧
      Safety.NetSame s t ∧ Safety.StoreSame s t ∧ Safety.CtlSame s t) ∧
  (∀ (s : State) (b : Nat), b < 24 → s.flag (pgDrvp b) F.BAY_STAT_PRESENT = true → (s.bay b).waiting = [] → (s.bay b).held = [] →
    (s.bay b).out = {} → s.mirroring = false → s.syncing = false → ∃ t, exec (.drivePresenceDebounce b false) s = .next t ∧ t.flag (pgDrvp b) F.BAY_STAT_PRESENT = false ∧
      t.flag (pgDrvp b) F.BAY_STAT_READY = false ∧ t.flag (pgDrvp b) F.BAY_STAT_LINK_UP = false ∧
      (t.fab.page (pgDrvp b)).state = .off ∧ (t.bay b).perst = true ∧
      (∀ p i : Nat, s.placeOf b = some (p, i) → (s.pool p).state ≠ 0 → ((t.pool p).member i).state ≠ 1) ∧ t.cmdq = s.cmdq ∧ t.regn = s.regn ∧
      t.jrnl = s.jrnl ∧ t.cmpr = s.cmpr ∧ t.plce = s.plce ∧ Safety.NetSame s t ∧ t.pair = s.pair ∧ t.pol = s.pol ∧ t.pending = s.pending) ∧
  (∀ (s : State) (b : Nat), b < 24 → (s.bay b).perst = true → s.flag (pgBayp b) F.BAY_PWR_STAT_PG = true →
    (s.fab.page (pgDrvp b)).state = .starting → ∃ t, exec (.perstRelease b) s = .next t ∧ t.bay b = { s.bay b with perst := false } ∧
      Emit.drivePerst b false ∈ t.fab.out ∧ (∀ c, c ≠ b → t.bay c = s.bay c) ∧ t.strp = s.strp ∧ t.cmdq = s.cmdq ∧
      Safety.NetSame s t ∧ Safety.CtlSame s t) ∧
  (∀ (s : State) (b gen width : Nat) (flit : Bool), b < 24 → (s.bay b).perst = false → (s.bay b).resetLevel = 2 →
    (s.fab.page (pgDrvp b)).state ≠ .starting →
    (∃ t, exec (.driveLinkUp b gen width flit false) s = .next t ∧ t.flag (pgDrvp b) F.BAY_STAT_LINK_UP = true ∧
      t.get (pgDrvp b) F.BAY_STAT_GEN = min (min gen 2) (s.get (pgDrvp b) F.DRV_CFG_TARGET_GEN) ∧
      t.get (pgDrvp b) F.BAY_STAT_WIDTH = (if 4 ≤ width then 4 else if 2 ≤ width then 2 else 1) ∧
      t.flag (pgDrvp b) F.BAY_STAT_FLIT = (flit || decide (1 ≤ min (min gen 2) (s.get (pgDrvp b) F.DRV_CFG_TARGET_GEN))) ∧ t.fab.out = s.fab.out ∧ Safety.NetSame s t ∧ Safety.StoreSame s t ∧
      Safety.CtlSame s t) ∧
    (∃ t, exec (.driveLinkUp b gen width flit true) s = .next t ∧ t.fab.sticky (S.DRVP_LINK_SLOW.on b) = true ∧
      t.get (pgDrvp b) F.BAY_STAT_LINK_UP = s.get (pgDrvp b) F.BAY_STAT_LINK_UP ∧ Safety.NetSame s t ∧ Safety.StoreSame s t ∧
      Safety.CtlSame s t)) ∧
  (∀ (s : State) (b : Nat) (i : DriveInfo), b < 24 → s.flag (pgDrvp b) F.BAY_STAT_LINK_UP = true → s.get (pgDrvp b) F.BAY_STAT_NVME = 1 →
    (i.unfit ≠ 0 → ∃ t, exec (.driveBringup b i) s = .next t ∧ t.get (pgDrvp b) F.BAY_STAT_NVME = 4 ∧
      t.get (pgDrvp b) F.BAY_STAT_UNFIT_CODE = i.unfit % 16 ∧ t.fab.sticky (S.DRVP_DRIVE_UNFIT.on b) = true ∧ Safety.NetSame s t ∧
      Safety.StoreSame s t ∧ Safety.CtlSame s t) ∧
    (i.unfit = 0 → (∀ p : Nat, p < 4 → bitAt (s.get (pgPool p) F.POOL_SPARES_SPARE_MASK) b = false) → ∃ t, exec (.driveBringup b i) s = .next t ∧ t.get (pgDrvp b) F.BAY_STAT_NVME = 2 ∧
      t.flag (pgDrvp b) F.BAY_STAT_READY = true ∧ t.get (pgDrvp b) F.BAY_LIMIT_IOQ = min 64 i.queues ∧
      (t.bay b).capacity = i.capacity ∧ (t.bay b).ident = i.ident ∧ t.strp.labels.find b = i.label ∧ t.strp.pools = s.strp.pools ∧
      (∀ c, c ≠ b → t.bay c = s.bay c) ∧ t.cmdq = s.cmdq ∧ (s.get (pgDrvp b) F.DRV_PS_MODE ≠ 2 → t.fab.out = s.fab.out) ∧
      (s.get (pgDrvp b) F.DRV_PS_MODE = 2 → Emit.driveApst b (some (s.get (pgDrvp b) F.DRV_PS_PS_TARGET,
        s.get (pgDrvp b) F.DRV_PS_IDLE_MS)) ∈ t.fab.out) ∧ Safety.NetSame s t ∧ Safety.CtlSame s t)) ∧
  (∀ (s : State) (b : Nat), b < 24 → s.flag (pgDrvp b) F.BAY_STAT_LINK_UP = true → (s.bay b).out = {} →
    (s.flag (pgDrvp b) F.BAY_STAT_READY = true → ∃ t, exec (.driveLinkDown b) s = .next t ∧ (t.bay b).resetLevel = 2 ∧
      t.fab.sticky (S.DRVP_LINK_DOWN.on b) = true ∧ t.flag (pgDrvp b) F.BAY_STAT_READY = false ∧
      t.flag (pgDrvp b) F.BAY_STAT_LINK_UP = false ∧ Emit.drivePerst b true ∈ t.fab.out ∧ (t.bay b).waiting = (s.bay b).waiting ∧
      t.strp = s.strp ∧ t.plce = s.plce ∧ t.cmdq = s.cmdq ∧ Safety.NetSame s t ∧ Safety.CtlSame s t) ∧
    (s.flag (pgDrvp b) F.BAY_STAT_READY = false → ∃ t, exec (.driveLinkDown b) s = .next t ∧
      t.flag (pgDrvp b) F.BAY_STAT_LINK_UP = false ∧ t.fab.out = s.fab.out ∧ Safety.NetSame s t ∧ Safety.StoreSame s t ∧
      Safety.CtlSame s t)) ∧
  (∀ (s : State) (b : Nat), b < 24 → (s.bay b).out = {} →
    (s.isOn (pgDrvp b) = true → (s.bay b).resetLevel = 0 → ∃ t, exec (.bayReset1 b) s = .next t ∧ (t.bay b).resetLevel = 1 ∧
      t.flag (pgDrvp b) F.BAY_STAT_READY = false ∧ t.get (pgDrvp b) F.BAY_STAT_NVME = 3 ∧ Emit.driveDisable b ∈ t.fab.out ∧
      (t.bay b).waiting = (s.bay b).waiting ∧ (∀ c, c ≠ b → t.bay c = s.bay c) ∧ t.strp = s.strp ∧ t.plce = s.plce ∧ t.cmdq = s.cmdq ∧
      Safety.NetSame s t ∧ Safety.CtlSame s t) ∧
    (s.isOn (pgDrvp b) = true → (s.bay b).resetLevel < 2 → ∃ t, exec (.bayReset2 b) s = .next t ∧ (t.bay b).resetLevel = 2 ∧
      (t.bay b).perst = true ∧ t.flag (pgDrvp b) F.BAY_STAT_LINK_UP = false ∧ Emit.drivePerst b true ∈ t.fab.out ∧
      (∀ c, c ≠ b → t.bay c = s.bay c) ∧ t.strp = s.strp ∧ t.plce = s.plce ∧ t.cmdq = s.cmdq ∧ Safety.NetSame s t ∧ Safety.CtlSame s t) ∧
    ((s.bay b).resetLevel = 1 → ∃ t, exec (.reset1Timeout b) s = .next t ∧ (t.bay b).resetLevel = 2 ∧ Emit.drivePerst b true ∈ t.fab.out ∧
      (∀ c, c ≠ b → t.bay c = s.bay c) ∧ t.strp = s.strp ∧ t.plce = s.plce ∧ t.cmdq = s.cmdq ∧ Safety.NetSame s t ∧ Safety.CtlSame s t) ∧
    ((s.bay b).resetLevel = 2 → s.isOn (pgDrvp b) = true → (s.bay b).waiting = [] → (s.bay b).held = [] →
      s.fab.severity (S.DRVP_DRIVE_RETIRED.on b) ≠ 2 → ∃ t, exec (.reset2Timeout b) s = .next t ∧
      t.fab.sticky (S.DRVP_DRIVE_RETIRED.on b) = true ∧ (t.fab.page (pgDrvp b)).state = .draining ∧ t.pending = s.pending)) ∧
  (∀ (s : State) (b : Nat) (i : DriveInfo), b < 24 → (s.bay b).resetLevel ≠ 0 → s.flag (pgDrvp b) F.BAY_STAT_LINK_UP = true →
    s.get (pgDrvp b) F.BAY_STAT_NVME ≠ 4 → s.get (pgDrvp b) F.DRV_PS_MODE ≠ 2 → (s.bay b).held = [] → i.unfit = 0 →
    (∀ p : Nat, p < 4 → bitAt (s.get (pgPool p) F.POOL_SPARES_SPARE_MASK) b = false) → ∃ t, exec (.driveResetComplete b i) s = .next t ∧
      (t.bay b).resetLevel = 0 ∧ t.flag (pgDrvp b) F.BAY_STAT_READY = true ∧ t.get (pgDrvp b) F.BAY_STAT_NVME = 2 ∧
      t.strp.pools = s.strp.pools ∧ (∀ c, c ≠ b → t.bay c = s.bay c) ∧ t.cmdq = s.cmdq ∧ t.fab.out = s.fab.out ∧ Safety.NetSame s t ∧
      Safety.CtlSame s t)

/-- Drive power states and drive AER messages. Rests on R576, R579. -/
def Obligations.DrivePowerStates : Prop :=
  (∀ (s : State) (b : Nat), b < 24 → s.get (pgDrvp b) F.DRV_PS_MODE = 1 → s.bayReady b = true → (s.bay b).out = {} → (s.bay b).waiting = [] →
    (s.bay b).psPending = 0 → s.get (pgDrvp b) F.BAY_STAT_PS ≠ s.get (pgDrvp b) F.DRV_PS_PS_TARGET →
    ∃ t, exec (.driveIdleTimeout b) s = .next t ∧ t.bay b = { s.bay b with psPending := 1 } ∧
      Emit.drivePs b (s.get (pgDrvp b) F.DRV_PS_PS_TARGET) ∈ t.fab.out ∧ (∀ c, c ≠ b → t.bay c = s.bay c) ∧ t.strp = s.strp ∧
      t.cmdq = s.cmdq ∧ Safety.NetSame s t ∧ Safety.CtlSame s t) ∧
  (∀ (s : State) (b : Nat), b < 24 → (s.bay b).waiting = [] →
    ((s.bay b).psPending = 1 → ∃ t, exec (.drivePsComplete b) s = .next t ∧
      t.get (pgDrvp b) F.BAY_STAT_PS = s.get (pgDrvp b) F.DRV_PS_PS_TARGET ∧ t.bay b = { s.bay b with psPending := 0 } ∧
      t.fab.out = s.fab.out ∧ (∀ c, c ≠ b → t.bay c = s.bay c) ∧ t.strp = s.strp ∧ t.cmdq = s.cmdq ∧ Safety.NetSame s t ∧
      Safety.CtlSame s t) ∧
    ((s.bay b).psPending = 2 → ∃ t, exec (.drivePsComplete b) s = .next t ∧ t.get (pgDrvp b) F.BAY_STAT_PS = 0 ∧
      t.bay b = { s.bay b with psPending := 0 } ∧ t.fab.out = s.fab.out ∧ (∀ c, c ≠ b → t.bay c = s.bay c) ∧ t.strp = s.strp ∧
      t.cmdq = s.cmdq ∧ Safety.NetSame s t ∧ Safety.CtlSame s t)) ∧
  (∀ (s : State) (b d n h : Nat), b < 24 →
    (∃ t, exec (.driveAerMessage b 0 d n h) s = .next t ∧ t.fab.sticky (S.DRVP_AER_CE.on b) = true ∧
      (t.bay b).out = (s.bay b).out ∧ (t.bay b).resetLevel = (s.bay b).resetLevel ∧ (∀ c, c ≠ b → t.bay c = s.bay c) ∧ t.strp = s.strp ∧
      t.cmdq = s.cmdq ∧ Safety.NetSame s t ∧ Safety.CtlSame s t) ∧
    ((s.bay b).out.find n = none → ∃ t, exec (.driveAerMessage b 1 d n h) s = .next t ∧ t.fab.sticky (S.DRVP_AER_NF.on b) = true ∧
      (t.bay b).out = (s.bay b).out ∧ (t.bay b).resetLevel = (s.bay b).resetLevel ∧ (∀ c, c ≠ b → t.bay c = s.bay c) ∧ t.strp = s.strp ∧
      t.cmdq = s.cmdq ∧ Safety.NetSame s t ∧ Safety.CtlSame s t) ∧
    (s.isOn (pgDrvp b) = true → (s.bay b).resetLevel < 2 → (s.bay b).out = {} →
      s.fab.severity (S.DRVP_AER_FATAL.on b) ≠ 2 → ∃ t,
      exec (.driveAerMessage b 2 d n h) s = .next t ∧ t.fab.sticky (S.DRVP_AER_FATAL.on b) = true ∧ (t.bay b).resetLevel = 2 ∧
      (∀ c, c ≠ b → t.bay c = s.bay c) ∧ t.strp = s.strp ∧ t.cmdq = s.cmdq ∧ Safety.NetSame s t ∧ Safety.CtlSame s t))

/-- Bay power start: grant, auxiliary supply, power good and its stability. Rests on R591, R593, R595. -/
def Obligations.BayStart : Prop :=
  (∀ s : State, s.owned = true → s.granted.length ≤ 2 ∧ (∀ b : Nat, b ∈ s.granted → s.ch b = 2 ∧ s.flag (pgBayp b) F.BAY_PWR_STAT_DMG = false)) ∧
  (∀ s : State, s.owned = true → ∃ t, exec .bayStartGrant s = .next t ∧ (∀ b : Nat, b ∈ s.granted → t.ch b = 3 ∧ (t.pwr b).gate3 = true ∧
      (t.pwr b).ilim = s.get (pgBayp b) F.BAY_PWR_CFG_ILIM ∧ Emit.gate3 b true ∈ t.fab.out) ∧
    (∀ b : Nat, b < 24 → b ∉ s.granted → t.ch b = s.ch b ∧ t.pwr b = s.pwr b) ∧ t.pair = s.pair ∧ t.pol = s.pol ∧ t.pending = s.pending ∧
    Safety.NetSame s t ∧ Safety.StoreSame s t) ∧
  (∀ (s : State) (b : Nat) (x : PwrSample), s.runsBay b = true → s.ch b = 3 →
    (90 * x.vin3 ≤ 100 * x.vout3 → ∃ t, exec (.auxGood b x) s = .next t ∧ t.ch b = 4 ∧ (t.pwr b).gate12 = true ∧
      Emit.gate12 b true ∈ t.fab.out ∧ (∀ c, c ≠ b → t.pwr c = s.pwr c) ∧ t.pair = s.pair ∧ t.pol = s.pol ∧ t.pending = s.pending ∧
      Safety.NetSame s t ∧ Safety.StoreSame s t) ∧
    (100 * x.vout3 < 90 * x.vin3 → exec (.auxGood b x) s = .next s)) ∧
  (∀ (s : State) (b : Nat), s.runsBay b = true → s.ch b = 3 → s.flag (pgBayp b) F.BAY_PWR_STAT_PG = false →
    (s.get (pgBayp b) F.BAY_PWR_STAT_RETRY_CNT < (s.pwr b).retries → ∃ t, exec (.auxTimeout b) s = .next t ∧
      t.ch b = 6 ∧ t.get (pgBayp b) F.BAY_PWR_STAT_LAST_CAUSE = 3 ∧ (t.pwr b).gate12 = false ∧
      (t.pwr b).gate3Delay = (s.pwr b).gate3 ∧ (∀ c, c ≠ b → t.pwr c = s.pwr c) ∧ t.pair = s.pair ∧ t.pol = s.pol ∧
      t.pending = s.pending ∧ Safety.NetSame s t ∧ Safety.StoreSame s t) ∧
    ((s.pwr b).retries ≤ s.get (pgBayp b) F.BAY_PWR_STAT_RETRY_CNT → ∃ t, exec (.auxTimeout b) s = .next t ∧
      t.ch b = 7 ∧ t.get (pgBayp b) F.BAY_PWR_STAT_LAST_CAUSE = 3 ∧ t.fab.sticky (S.BAYP_LATCHED.on b) = true ∧
      (t.pwr b).gate12 = false ∧ (∀ c, c ≠ b → t.pwr c = s.pwr c) ∧ t.pair = s.pair ∧ t.pol = s.pol ∧ t.pending = s.pending ∧
      Safety.NetSame s t ∧ Safety.StoreSame s t)) ∧
  (∀ (s : State) (b n mj : Nat) (x : PwrSample), s.runsBay b = true → s.ch b = 4 → (s.pwr b).reEnable = false →
    (s.limiting b x = false → 90 * x.vin12 ≤ 100 * x.vout12 → 90 * x.vin3 ≤ 100 * x.vout3 → ∃ t, exec (.powerGood b n mj x) s = .next t ∧
      t.ch b = 5 ∧ t.flag (pgBayp b) F.BAY_PWR_STAT_PG = true ∧ t.pwr b = s.pwr b ∧ (∀ c, c ≠ b → t.pwr c = s.pwr c) ∧
      t.fab.out = s.fab.out ∧ t.pair = s.pair ∧ t.pol = s.pol ∧ t.pending = s.pending ∧ Safety.NetSame s t ∧ Safety.StoreSame s t) ∧
    (s.limiting b x = true → ∃ t, exec (.powerGood b n mj x) s = .next t ∧ t.ch b = 4 ∧
      t.flag (pgBayp b) F.BAY_PWR_STAT_PG = s.flag (pgBayp b) F.BAY_PWR_STAT_PG ∧ t.fab.out = s.fab.out ∧ Safety.CtlSame s t ∧
      Safety.NetSame s t ∧ Safety.StoreSame s t)) ∧
  (∀ (s : State) (b : Nat), s.runsBay b = true → s.ch b = 5 → ∃ t, exec (.pgStable b) s = .next t ∧
    t.get (pgBayp b) F.BAY_PWR_STAT_RETRY_CNT = 0 ∧ t.ch b = 5 ∧ t.fab.out = s.fab.out ∧ Safety.CtlSame s t ∧ Safety.NetSame s t ∧
    Safety.StoreSame s t)

/-- Bay power faults, retries, the damage detector, and the bay of the other controller. Rests on R591, R595, R599, R602, R606. -/
def Obligations.BayFaults : Prop :=
  (∀ (s : State) (b n mj : Nat) (x : PwrSample), s.powered b = true → s.ch b = 4 → s.flag (pgBayp b) F.BAY_PWR_STAT_PG = false →
    s.get (pgBayp b) F.BAY_PWR_STAT_RETRY_CNT < (s.pwr b).retries →
    (100 * s.bayFaultMs b ≤ n → ∃ t, exec (.faultTimerExpiry b n mj x) s = .next t ∧ t.ch b = 6 ∧
      t.get (pgBayp b) F.BAY_PWR_STAT_LAST_CAUSE = 1 ∧ t.fab.sticky (S.BAYP_INRUSH_FAULT.on b) = true ∧ (t.pwr b).gate12 = false ∧
      (∀ c, c ≠ b → t.pwr c = s.pwr c) ∧ t.pair = s.pair ∧ t.pol = s.pol ∧ t.pending = s.pending ∧ Safety.NetSame s t ∧
      Safety.StoreSame s t) ∧
    (n < 100 * s.bayFaultMs b → exec (.faultTimerExpiry b n mj x) s = .next s) ∧
    (∃ t, exec (.shortTrip b n mj x) s = .next t ∧ t.ch b = 6 ∧ t.get (pgBayp b) F.BAY_PWR_STAT_LAST_CAUSE = 2 ∧
      t.fab.sticky (S.BAYP_SHORT.on b) = true ∧ (t.pwr b).gate12 = false ∧ (∀ c, c ≠ b → t.pwr c = s.pwr c) ∧ t.pair = s.pair ∧
      t.pol = s.pol ∧ t.pending = s.pending ∧ Safety.NetSame s t ∧ Safety.StoreSame s t)) ∧
  (∀ (s : State) (b : Nat) (x : PwrSample), s.runsBay b = true → s.ch b = 5 → s.flag (pgBayp b) F.BAY_PWR_STAT_PG = true →
    s.get (pgBayp b) F.BAY_PWR_STAT_RETRY_CNT < s.get (pgBayp b) F.BAY_PWR_CFG_RETRIES →
    (100 * x.vout12 < 80 * x.vin12 → s.limiting b x = false → ∃ t, exec (.droopFault b x) s = .next t ∧ t.ch b = 6 ∧
      t.get (pgBayp b) F.BAY_PWR_STAT_LAST_CAUSE = 4 ∧ t.fab.sticky (S.BAYP_DROOP.on b) = true ∧ (t.pwr b).gate12 = false ∧
      t.flag (pgBayp b) F.BAY_PWR_STAT_PG = false ∧
      (s.isLive (pgDrvp b) = true → (t.fab.page (pgDrvp b)).state = .off ∧ (t.pwr b).reEnable = true) ∧ t.pending = s.pending) ∧
    (100 * x.vout3 < 80 * x.vin3 → ∃ t, exec (.auxDroopFault b x) s = .next t ∧ t.ch b = 6 ∧
      t.get (pgBayp b) F.BAY_PWR_STAT_LAST_CAUSE = 3 ∧ t.fab.sticky (S.BAYP_AUX_FAULT.on b) = true ∧ (t.pwr b).gate12 = false ∧
      t.flag (pgBayp b) F.BAY_PWR_STAT_PG = false ∧
      (s.isLive (pgDrvp b) = true → (t.fab.page (pgDrvp b)).state = .off ∧ (t.pwr b).reEnable = true) ∧ t.pending = s.pending)) ∧
  (∀ (s : State) (b : Nat), s.runsBay b = true →
    (s.ch b = 6 → ∃ t, exec (.retryIntervalExpiry b) s = .next t ∧ t.ch b = 2 ∧ t.pwr b = { s.pwr b with since := s.now } ∧
      t.get (pgBayp b) F.BAY_PWR_STAT_RETRY_CNT = min (s.get (pgBayp b) F.BAY_PWR_STAT_RETRY_CNT + 1) 7 ∧ t.fab.out = s.fab.out ∧
      (∀ c, c ≠ b → t.pwr c = s.pwr c) ∧ t.pair = s.pair ∧ t.pol = s.pol ∧ t.pending = s.pending ∧ Safety.NetSame s t ∧
      Safety.StoreSame s t) ∧
    ((s.pwr b).gate3Delay = true → ∃ t, exec (.gate3OffDelay b) s = .next t ∧ (t.pwr b).gate3 = false ∧ (t.pwr b).gate3Delay = false ∧
      Emit.gate3 b false ∈ t.fab.out ∧ (∀ c, c ≠ b → t.pwr c = s.pwr c) ∧ t.ch b = s.ch b ∧ t.pair = s.pair ∧ t.pol = s.pol ∧
      t.pending = s.pending ∧ Safety.NetSame s t ∧ Safety.StoreSame s t) ∧
    ((s.pwr b).gate12 = false → (s.pwr b).gate3 = false → ∃ t, exec (.damageDetectorArm b) s = .next t ∧
      t.pwr b = { s.pwr b with armed := true } ∧ t.fab = s.fab ∧ (∀ c, c ≠ b → t.pwr c = s.pwr c) ∧ t.pair = s.pair ∧ t.pol = s.pol ∧
      t.pending = s.pending ∧ Safety.NetSame s t ∧ Safety.StoreSame s t) ∧
    (s.ch b = 1 → s.isOn (pgBayp b) = true → s.flag (pgBayp b) F.BAY_PWR_STAT_DMG = false → (s.pwr b).armed = true → ∃ t,
      exec (.damageCheckPass b) s = .next t ∧ t.ch b = 2 ∧ t.pwr b = { s.pwr b with since := s.now } ∧ t.fab.out = s.fab.out ∧
      (∀ c, c ≠ b → t.pwr c = s.pwr c) ∧ t.pair = s.pair ∧ t.pol = s.pol ∧ t.pending = s.pending ∧ Safety.NetSame s t ∧
      Safety.StoreSame s t)) ∧
  (∀ (s : State) (b : Nat) (x : PwrSample), s.runsBay b = true → (s.pwr b).armed = true → 1000 < x.vout12 →
    s.flag (pgBayp b) F.BAY_PWR_STAT_DMG = false → ∃ t, exec (.damageTrip b x) s = .next t ∧
      t.flag (pgBayp b) F.BAY_PWR_STAT_DMG = true ∧ t.fab.sticky (S.BAYP_FET_DAMAGED.on b) = true ∧
      t.ch b = (if s.ch b = 2 then 1 else s.ch b) ∧ Safety.CtlSame s t ∧ Safety.NetSame s t ∧ Safety.StoreSame s t) ∧
  (∀ (s : State) (b : Nat) (x : PwrSample), b < 24 → s.owned = false →
    ((s.pwr b).sourcing = false → (s.pwr b).reEnable = false → 90 * x.vin12 ≤ 100 * x.vout12 → 90 * x.vin3 ≤ 100 * x.vout3 → x.vin12 ≠ 0 →
      ∃ t, exec (.nonOwnerSenseChange b x) s = .next t ∧ t.ch b = 5 ∧ t.flag (pgBayp b) F.BAY_PWR_STAT_PG = true ∧
      (t.pwr b).sourcing = true ∧ Emit.gateSource b true ∈ t.fab.out ∧ t.pair = s.pair ∧ t.pol = s.pol ∧ t.pending = s.pending ∧
      Safety.NetSame s t ∧ Safety.StoreSame s t) ∧
    ((s.pwr b).sourcing = true → 100 * x.vout12 < 90 * x.vin12 → ∃ t, exec (.nonOwnerSenseChange b x) s = .next t ∧
      t.flag (pgBayp b) F.BAY_PWR_STAT_PG = false ∧ t.ch b = boolNat (t.present b) ∧ (t.pwr b).sourcing = false ∧
      Emit.gateSource b false ∈ t.fab.out ∧ t.pending = s.pending))

/-- Heartbeat loss, claims, contention, grants, and the watchdog. Rests on R612, R614, R617, R618, R619, R620. -/
def Obligations.PairOwnership : Prop :=
  (∀ s : State, s.isLive pgPair = true → s.paired = true → s.role = 4 → s.flag pgPair F.PAIR_CFG_AUTO_TAKEOVER = true →
    s.flag pgPair F.PAIR_STAT_UNFIT = false → ∃ t, exec .heartbeatTimeout s = .next t ∧ t.role = 5 ∧ t.pair.island.fenceOut = true ∧
      t.fab.sticky S.PAIR_TAKEOVER = true ∧ t.flag pgPair F.PAIR_STAT_HB_OK = false ∧ t.owned = s.owned ∧
      t.pair = { s.pair with backoff := false, island := t.pair.island } ∧ t.pair.island.ownOut = s.pair.island.ownOut ∧ t.bayp = s.bayp ∧
      t.pol = s.pol ∧ t.pending = s.pending ∧ Safety.NetSame s t ∧ Safety.StoreSame s t) ∧
  (∀ s : State, s.role = 4 → (s.flag pgPair F.PAIR_CFG_AUTO_TAKEOVER = false ∨ s.flag pgPair F.PAIR_STAT_UNFIT = true) →
    ∃ t, exec .heartbeatTimeout s = .next t ∧ t.role = 4 ∧ t.pair = { s.pair with island := { s.pair.island with hbIn := false } } ∧
      t.fab.out = s.fab.out ∧ t.bayp = s.bayp ∧ t.pol = s.pol ∧ t.pending = s.pending ∧ Safety.NetSame s t ∧ Safety.StoreSame s t) ∧
  (∀ s : State, s.isLive pgPair = true → s.paired = true → s.role = 2 → s.pair.island.ownIn = true → s.mirrorValid = false →
    ∃ t, exec .heartbeatTimeout s = .next t ∧ t.fab.sticky S.PAIR_NO_VALID_MIRROR = true ∧ t.role = 2 ∧
      t.pair = { s.pair with island := { s.pair.island with hbIn := false } } ∧ t.bayp = s.bayp ∧ t.pol = s.pol ∧
      t.pending = s.pending ∧ Safety.NetSame s t ∧ Safety.StoreSame s t) ∧
  (∀ s : State, s.pair.island.ownIn = false → s.pair.island.slot = true →
    (s.owned = true → ∃ t, exec (.ownInChange true) s = .next t ∧ t.owned = false ∧ t.pair.island.ownOut = false ∧
      t.role = (if s.paired then 2 else 1) ∧ t.fab.sticky S.PAIR_CLAIM_CONTENTION = true ∧
      (∀ b : Nat, b < 24 → (t.pwr b).gate12 = false ∧ (t.pwr b).sourcing = decide (s.ch b = 5)) ∧ t.pol = s.pol ∧
      t.pending = s.pending ∧ Safety.NetSame s t ∧ Safety.StoreSame s t) ∧
    (s.owned = false → s.role = 5 → ∃ t, exec (.ownInChange true) s = .next t ∧ t.owned = false ∧ t.pair.island.ownOut = false ∧
      t.role = 5 ∧ t.pair = { s.pair with backoff := true, island := { s.pair.island with ownIn := true, ownOut := false } } ∧
      t.bayp = s.bayp ∧ t.pol = s.pol ∧ t.pending = s.pending ∧ Safety.NetSame s t ∧ Safety.StoreSame s t)) ∧
  (∀ s : State, s.pair.island.ownIn = false → s.pair.island.slot = false →
    ∃ t, exec (.ownInChange true) s = .next t ∧ t.owned = s.owned ∧ t.role = s.role ∧
      (s.owned = true → t.fab.sticky S.PAIR_CLAIM_CONTENTION = true) ∧
      t.pair = { s.pair with island := { s.pair.island with ownIn := true } } ∧ t.bayp = s.bayp ∧ t.pol = s.pol ∧
      t.pending = s.pending ∧ Safety.NetSame s t ∧ Safety.StoreSame s t) ∧
  (∀ s : State, ∃ t, exec (.ownInChange false) s = .next t ∧ t.flag pgPair F.PAIR_STAT_OWN_IN = false ∧ t.owned = s.owned ∧
    t.role = s.role ∧ t.pair = { s.pair with island := { s.pair.island with ownIn := false } } ∧ t.fab.out = s.fab.out ∧
    t.bayp = s.bayp ∧ t.pol = s.pol ∧ t.pending = s.pending ∧ Safety.NetSame s t ∧ Safety.StoreSame s t) ∧
  (∀ s : State, s.claiming = true → s.pair.backoff = false → s.heldReset = false → s.pair.island.ownIn = false →
    s.pair.island.ownOut = false → ∃ t, exec .ownClaimAssert s = .next t ∧
      t.pair = { s.pair with island := { s.pair.island with ownOut := true } } ∧ t.fab.out = .pinOwn true :: s.fab.out ∧
      t.owned = s.owned ∧ t.role = s.role ∧ t.bayp = s.bayp ∧ t.pol = s.pol ∧ t.pending = s.pending ∧ Safety.NetSame s t ∧
      Safety.StoreSame s t) ∧
  (∀ s : State, s.claiming = true → s.pair.island.ownOut = true → s.pair.island.ownIn = false → s.owned = false →
    ∃ t, exec .ownershipGrant s = .next t ∧ t.owned = true ∧ t.role = (if s.paired then 6 else 1) ∧ t.partner = 0 ∧
      t.pair.stage = (if s.mirrorValid then .bays else .none) ∧ t.pair.granted = true ∧
      (∀ b : Nat, b < 24 → (s.pwr b).sourcing = true → t.ch b = 5 ∧ (t.pwr b).gate12 = true ∧ (t.pwr b).gate3 = true) ∧
      t.pol = s.pol ∧ t.pending = s.pending ∧ t.xprt = s.xprt ∧ t.gard = s.gard ∧ t.cmdq = s.cmdq ∧ t.regn.mem = s.regn.mem) ∧
  (∀ s : State, s.pair.backoff = true → s.role = 5 → ∃ t, exec .claimBackoffEnd s = .next t ∧ t.role = 2 ∧
    t.fab.sticky S.PAIR_CLAIM_CONTENTION = true ∧ t.pair = { s.pair with backoff := false } ∧ t.bayp = s.bayp ∧ t.pol = s.pol ∧
    t.pending = s.pending ∧ Safety.NetSame s t ∧ Safety.StoreSame s t) ∧
  (∀ s : State, s.role = 2 →
    (s.pair.island.ownIn = false → ∃ t, exec .discoverTimeout s = .next t ∧ t.role = 5 ∧ t.pair = { s.pair with backoff := false } ∧
      t.fab.out = s.fab.out ∧ t.bayp = s.bayp ∧ t.pol = s.pol ∧ t.pending = s.pending ∧ Safety.NetSame s t ∧ Safety.StoreSame s t) ∧
    (∃ t, exec .forceClaim s = .next t ∧ t.role = 5 ∧ t.pair.island.fenceOut = true ∧
      t.pair = { s.pair with backoff := false, island := t.pair.island } ∧ t.pair.island.ownOut = s.pair.island.ownOut ∧
      t.bayp = s.bayp ∧ t.pol = s.pol ∧ t.pending = s.pending ∧ Safety.NetSame s t ∧ Safety.StoreSame s t)) ∧
  (∀ s : State, s.role ≠ 2 → exec .forceClaim s = .next s) ∧
  (∀ s : State,
    (s.flag pgCmdq F.CMDQ_FW_HOLD = false → ∃ t, exec .hbWatchdogExpiry s = .next t ∧ t.hbOut = false ∧ t = { s with pair := { s.pair with wdog := true } }) ∧
    (s.flag pgCmdq F.CMDQ_FW_HOLD = true → exec .hbWatchdogExpiry s = .next s))

/-- Fence in and out: acceptance, simultaneous fences, and their end. Rests on R612, R621, R622. -/
def Obligations.PairFence : Prop :=
  (∀ s : State, s.pair.island.running = true → s.pair.island.fenced = false → s.pair.island.fenceIn = false →
    (s.pair.island.fenceOut = false ∨ s.pair.island.slot = true ∧ s.now - s.pair.island.fenceOutAt ≤ 20000) →
    ∃ t, exec .fenceInAssert s = .next t ∧ t.role = 7 ∧ t.pair.island.fenced = true ∧ t.pair.island.ownOut = false ∧
      t.pair.island.fenceOut = false ∧ t.flag pgPair F.PAIR_STAT_FENCE_IN = true ∧ t.hbOut = false ∧ .lanesIdle ∈ t.fab.out ∧
      t.pair.island.health = t.healthRecord ∧ t.xprt = {} ∧ t.gard = {} ∧ t.tmgr = {} ∧ t.vat = {} ∧ t.cell = {} ∧ t.cmdq = {} ∧
      t.regn = {} ∧ t.jrnl = {} ∧ t.cmpr = {} ∧ t.plce = {} ∧ t.strp = {} ∧ t.drvp = {} ∧ t.line = {} ∧
      (∀ b : Nat, b < 24 → (t.pwr b).gate12 = false ∧ (t.pwr b).gate3 = false ∧ (t.pwr b).sourcing = decide (s.ch b = 5)) ∧
      t.pol.flash = s.pol.flash ∧ t.now = s.now ∧ t.pending = s.pending) ∧
  (∀ s : State, s.pair.island.running = true → s.pair.island.fenced = false → s.pair.island.fenceIn = false →
    s.pair.island.fenceOut = true → (s.pair.island.slot = false ∨ 20000 < s.now - s.pair.island.fenceOutAt) →
    ∃ t, exec .fenceInAssert s = .next t ∧ t.role = s.role ∧ t.owned = s.owned ∧ t.flag pgPair F.PAIR_STAT_FENCE_IN = true ∧
      t.pair = { s.pair with island := { s.pair.island with fenceIn := true } } ∧ t.fab.out = s.fab.out ∧ t.bayp = s.bayp ∧
      t.pol = s.pol ∧ t.pending = s.pending ∧ Safety.NetSame s t ∧ Safety.StoreSame s t) ∧
  (∀ s : State, s.pair.island.fenced = true → s.pair.island.inPor = false → s.pair.island.thermTrip = false →
    ∃ t, exec .fenceInDeassert s = .next t ∧ t.role = 0 ∧ t.pair.island.fenced = false ∧ t.pair.failMask = 0 ∧
      t.flag pgPair F.PAIR_STAT_FENCE_IN = false ∧ t.flag pgPair F.PAIR_STAT_UNFIT = false ∧
      (∀ i : Nat, i < 4 → (s.fab.page (pgMgmt i)).state = .off → (t.fab.page (pgMgmt i)).state = .starting) ∧
      t.bayp = s.bayp ∧ t.pending = s.pending ∧ Safety.NetSame s t ∧ Safety.StoreSame s t) ∧
  (∀ s : State, s.pair.island.fenced = false →
    ∃ t, exec .fenceInDeassert s = .next t ∧ t.role = s.role ∧ t.flag pgPair F.PAIR_STAT_FENCE_IN = false ∧
      t.pair = { s.pair with island := { s.pair.island with fenceIn := false } } ∧ t.fab.out = s.fab.out ∧ t.bayp = s.bayp ∧
      t.pol = s.pol ∧ t.pending = s.pending ∧ Safety.NetSame s t ∧ Safety.StoreSame s t) ∧
  (∀ s : State,
    (s.pair.island.fenceOut = true → ∃ t, exec .unfence s = .next t ∧ t.flag pgPair F.PAIR_STAT_FENCE_OUT = false ∧ t.role = s.role ∧
      t.partner = s.partner ∧ t.pair = { s.pair with island := { s.pair.island with fenceOut := false } } ∧
      t.fab.out = .pinFence false :: s.fab.out ∧ t.bayp = s.bayp ∧ t.pol = s.pol ∧ t.pending = s.pending ∧ Safety.NetSame s t ∧
      Safety.StoreSame s t) ∧
    (s.pair.island.fenceOut = false → exec .unfence s = .next s))

/-- The active loses its partner and goes on alone. Rests on R620, R624, R648. -/
def Obligations.PartnerLost : Prop :=
  (∀ s : State, s.isLive pgPair = true → s.role = 6 → (s.partner = 1 ∨ s.partner = 2) →
    (s.paired = true → ∃ t, exec .heartbeatTimeout s = .next t ∧ t.role = 6 ∧ t.partner = 0 ∧ t.pair.island.fenceOut = true ∧
      t.fab.sticky S.PAIR_PARTNER_LOST = true ∧ t.pair.sent = [] ∧ t.pair.waiting = [] ∧ t.pending = s.pending) ∧
    (∃ t, exec .britosLinkLoss s = .next t ∧ t.role = 6 ∧ t.partner = 0 ∧ t.pair.island.fenceOut = true ∧
      t.fab.sticky S.PAIR_PARTNER_LOST = true ∧ t.pair.sent = [] ∧ t.pair.waiting = [] ∧ t.pair.lanesUp = [] ∧
      t.pending = s.pending) ∧
    (∀ x : Nat, s.paired = true → s.pair.handover = false → (bitAt (byteAt x 2) 3 = true ∨ byteAt x 1 ≠ 3 ∧ byteAt x 1 ≠ 4) →
      ∃ t, exec (.healthRx x) s = .next t ∧ t.role = 6 ∧ t.partner = (if bitAt (byteAt x 2) 3 then 3 else 0) ∧
        t.pair.island.fenceOut = true ∧ t.fab.sticky S.PAIR_PARTNER_LOST = true ∧ t.pair.sent = [] ∧ t.pair.waiting = [] ∧
        t.pair.island.partnerHealth = x % 2 ^ 512 ∧ t.pending = s.pending))

/-- The Britos link: version, lanes, loss, frame errors and acknowledgements. Rests on R624, R627, R628, R632. -/
def Obligations.BritosLink : Prop :=
  (∀ (s : State) (ver : Nat) (lanes : List Nat), s.paired = true → s.heldReset = false → s.isLive pgPair = true →
    (ver / 16 % 16 = 1 → s.role ≠ 2 → ∃ t, exec (.britosLinkUp ver lanes) s = .next t ∧ t.get pgPair F.PAIR_STAT_VER = 0x10 ∧
      t.pair.lanesUp = ((List.range 24).filter fun n => lanes.contains n && !s.pair.lanesOut.contains n) ∧
      t.get pgPair F.PAIR_STAT_LANES_UP = t.pair.lanesUp.length ∧ t.flag pgPair F.PAIR_STAT_LINK_UP = !t.groupsUp.isEmpty ∧
      t.role = s.role ∧ s.pair.sent <+: t.pair.sent ∧ t.bayp = s.bayp ∧ t.pol = s.pol ∧ t.pending = s.pending ∧ Safety.NetSame s t ∧
      Safety.StoreSame s t) ∧
    (ver / 16 % 16 = 1 → s.role = 2 → s.pair.partnerRole = 6 →
      (∀ n : Nat, n < 6 → n ∈ lanes ∧ n ∉ s.pair.lanesOut) → ∃ t, exec (.britosLinkUp ver lanes) s = .next t ∧ t.role = 3 ∧
      t.flag pgPair F.PAIR_STAT_LINK_UP = true ∧ t.flag pgPair F.PAIR_STAT_MIRROR_VALID = false ∧
      t.get pgPair F.PAIR_SYNC_DONE_PCT = 0 ∧ t.pair.recs = {} ∧ t.jrnl.recs = {} ∧ t.pending = s.pending) ∧
    (ver / 16 % 16 ≠ 1 → ∃ t, exec (.britosLinkUp ver lanes) s = .next t ∧ t.fab.sticky S.PAIR_VERSION_MISMATCH = true ∧
      t.role = s.role ∧ t.flag pgPair F.PAIR_STAT_LINK_UP = s.flag pgPair F.PAIR_STAT_LINK_UP ∧ Safety.CtlSame s t ∧
      Safety.NetSame s t ∧ Safety.StoreSame s t)) ∧
  (∀ s : State, (s.role = 3 ∨ s.role = 4) → ∃ t, exec .britosLinkLoss s = .next t ∧ t.role = 2 ∧ t.mirrorValid = false ∧
    t.flag pgPair F.PAIR_STAT_LINK_UP = false ∧ t.get pgPair F.PAIR_STAT_LANES_UP = 0 ∧ t.pair = { s.pair with lanesUp := [] } ∧
    (s.flag pgPair F.PAIR_STAT_LINK_UP = true → t.fab.sticky S.PAIR_LINK_DOWN = true) ∧ t.bayp = s.bayp ∧ t.pol = s.pol ∧
    t.pending = s.pending ∧ Safety.NetSame s t ∧ Safety.StoreSame s t) ∧
  (∀ (s : State) (n : Nat), n ∈ s.pair.lanesUp → ∃ t, exec (.britosLaneLockLoss n) s = .next t ∧
    t.fab.sticky S.PAIR_LINK_LANE_DOWN = true ∧ t.pair.lanesUp = (s.pair.lanesUp.filter fun m => decide (m ≠ n)) ∧
    t.flag pgPair F.PAIR_STAT_LINK_UP = !t.groupsUp.isEmpty ∧ t.pair.retrains.get n [] = s.now :: s.pair.retrains.get n [] ∧
    (t.groupsUp = [] → s.flag pgPair F.PAIR_STAT_LINK_UP = true → t.fab.sticky S.PAIR_LINK_DOWN = true) ∧
    t.pair.sent = s.pair.sent ∧ t.role = s.role ∧ t.bayp = s.bayp ∧ t.pol = s.pol ∧ t.pending = s.pending ∧ Safety.NetSame s t ∧
    Safety.StoreSame s t) ∧
  (∀ (s : State) (n : Nat), n < 24 → n ∉ s.pair.lanesOut → s.paired = true → s.heldReset = false → s.get pgPair F.PAIR_STAT_VER ≠ 0 →
    s.role ≠ 2 → ∃ t, exec (.britosLaneUp n) s = .next t ∧ n ∈ t.pair.lanesUp ∧ (∀ m : Nat, m ∈ s.pair.lanesUp → m ∈ t.pair.lanesUp) ∧
    t.flag pgPair F.PAIR_STAT_LINK_UP = !t.groupsUp.isEmpty ∧ t.role = s.role ∧ s.pair.sent <+: t.pair.sent ∧ t.bayp = s.bayp ∧
    t.pol = s.pol ∧ t.pending = s.pending ∧ Safety.NetSame s t ∧ Safety.StoreSame s t) ∧
  (∀ s : State, ∃ t, exec .britosFrameCrcErr s = .next t ∧ (∀ k : Nat, k < 8 →
    t.fab.cnt pgPair k = s.fab.cnt pgPair k + (if s.fab.counts E.PAIR_LINK_CRC_ERR k then 1 else 0)) ∧
    t.fab.out = s.fab.out ∧ t.role = s.role ∧ Safety.CtlSame s t ∧ Safety.NetSame s t ∧ Safety.StoreSame s t) ∧
  (∀ (s : State) (g lack : Nat) (resend : Bool), ∃ t, exec (.linkAckRx g lack resend) s = .next t ∧
    (s.pair.unacked.filter fun e => !decide (e.1 = g ∧ (lack + 2 ^ 32 - e.2) % 2 ^ 32 < 2 ^ 31)) <+: t.pair.unacked ∧
    s.pair.sent <+: t.pair.sent ∧
    (resend = true → ∀ e : Nat × Nat, e ∈ s.pair.unacked → e.1 = g → 2 ^ 31 ≤ (lack + 2 ^ 32 - e.2) % 2 ^ 32 →
      .linkRetx e.1 e.2 ∈ t.fab.out) ∧ t.role = s.role ∧ t.bayp = s.bayp ∧ t.pol = s.pol ∧ t.pending = s.pending ∧
    Safety.NetSame s t ∧ Safety.StoreSame s t)

/-- Frames of the mirror: writes, confirmations, checkpoints, records and synchronisation data. Rests on R633, R636, R637, R760, R762. -/
def Obligations.MirrorFrames : Prop :=
  (∀ (s : State) (h : PeerHdr) (d : Blob) (ws : List PeerWin) (w : PeerWin), s.mirrorSide = true → s.winsFor h.winEpoch = some ws →
    ws[h.window]? = some w →
    (w.valid = true → w.kind = 2 → w.rbase * 65536 ≤ h.addr → h.addr + h.len ≤ (w.rbase + w.size) * 65536 →
      ∃ t, exec (.mirrorWriteRx h (.region d)) s = .next t ∧
        (∀ k : Nat, k < d.len →
          (memRead t.regn.mem (w.lbase * 65536 + (h.addr - w.rbase * 65536) + k)).toNat = byteAt d.val k) ∧
        (∀ a : Nat, a < w.lbase * 65536 + (h.addr - w.rbase * 65536) ∨ w.lbase * 65536 + (h.addr - w.rbase * 65536) + d.len ≤ a →
          memRead t.regn.mem a = memRead s.regn.mem a) ∧
        t.fab.out = .peerConfirm h.group h.lseq :: s.fab.out ∧ t.regn.regions = s.regn.regions ∧ t.cmdq = s.cmdq ∧ t.jrnl = s.jrnl ∧
        Safety.CtlSame s t ∧ Safety.NetSame s t) ∧
    ((w.valid = false ∨ w.kind ≠ 2 ∨ h.addr < w.rbase * 65536 ∨ (w.rbase + w.size) * 65536 < h.addr + h.len) →
      ∃ t, exec (.mirrorWriteRx h (.region d)) s = .next t ∧ t.fab.sticky S.PAIR_WIN_MISS = true ∧
        Safety.CtlSame s t ∧ Safety.NetSame s t ∧ Safety.StoreSame s t)) ∧
  (∀ (s : State) (h : PeerHdr) (d : PeerData), s.mirrorSide = true → s.winsFor h.winEpoch = none →
    ∃ t, exec (.mirrorWriteRx h d) s = .next t ∧ t.fab.out = s.fab.out ∧ Safety.CtlSame s t ∧ Safety.NetSame s t ∧
      Safety.StoreSame s t) ∧
  (∀ (s : State) (g q : Nat) (f : SentFrame), s.pair.sent = [f] → f.group = g → f.lseq = q → s.pair.waiting = [] →
    s.pair.handover = false → s.xprt.spent = [] → (∃ i : Nat, f.item = .checkpoint i) → ∃ t, exec (.mirrorConfirmRx g q) s = .next t ∧
      t.pair = { s.pair with sent := [] } ∧ t.fab.out = s.fab.out ∧ t.bayp = s.bayp ∧ t.pol = s.pol ∧ t.pending = s.pending ∧
      Safety.NetSame s t ∧ Safety.StoreSame s t) ∧
  (∀ (s : State) (g q k n : Nat) (f : SentFrame) (r : JRec) (x : Slot), s.pair.sent = [f] → f.group = g → f.lseq = q →
    s.pair.waiting = [] → s.pair.handover = false → s.jrnl.recs.list = [(k, r)] → f.item = .journal r.handle → r.type = 1 →
    r.state = .opened → r.localOk = true → r.discard = false → r.slot = some n → s.slot n = some x → x.state = .started →
    x.discard = false → 2 ≤ x.recsOpen → s.groupsUp = [] → s.xprt.spent = [] → ∃ t, exec (.mirrorConfirmRx g q) s = .next t ∧
      (∃ y, t.jrec k = some y ∧ y.state = .committed ∧ y.mirrored = true ∧ y.solo = r.solo ∧ y.seq = s.jrnl.seq + 1) ∧
      t.jrnl.seq = s.jrnl.seq + 1 ∧ t.pair.sent = [] ∧ t.bayp = s.bayp ∧ t.pol = s.pol ∧ t.pending = s.pending ∧
      t.regn = s.regn) ∧
  (∀ (s : State) (h : PeerHdr), s.mirrorSide = true →
    (∀ i b : Nat, ∃ t, exec (.checkpointRx h (.ctx i b)) s = .next t ∧
      t.pair = { s.pair with ctxs := t.pair.ctxs } ∧ (t.pair.ctxs.get i {}).bytes = some (b % 2 ^ 1536) ∧
      (t.pair.ctxs.get i {}).horizon = (s.pair.ctxs.get i {}).horizon ∧
      (∀ j : Nat, j ≠ i → t.pair.ctxs.get j {} = s.pair.ctxs.get j {}) ∧ t.fab.out = .peerConfirm h.group h.lseq :: s.fab.out ∧
      t.bayp = s.bayp ∧ t.pol = s.pol ∧ t.pending = s.pending ∧ Safety.NetSame s t ∧ Safety.StoreSame s t) ∧
    (∀ (i rk re rf tk te prk : Nat) (k rr tr : Bool), ∃ t, exec (.checkpointRx h (.keys i k rk re rr rf tk te tr prk)) s = .next t ∧
      t.keySlot i k = { rx := { key := rk, epoch := re, ready := rr, fails := rf }, tx := { key := tk, epoch := te, ready := tr } } ∧
      t.gard.prk.find i = some prk ∧
      (∀ (j : Nat) (l : Bool), (j ≠ i ∨ l ≠ k) → t.keySlot j l = s.keySlot j l) ∧ t.gard.keys = s.gard.keys ∧ t.xprt = s.xprt ∧
      Safety.CtlSame s t ∧ Safety.StoreSame s t) ∧
    (∀ m sec half : Nat, ∃ t, exec (.checkpointRx h (.accumulators m sec half [])) s = .next t ∧ t.tmgr.accs = {} ∧
      t.tmgr.minute.minute = m ∧ t.tmgr.minute.isOpen = true ∧ t.get pgTmgr F.METER_OPEN_MINUTE = m % 2 ^ 32 ∧
      Safety.CtlSame s t ∧ Safety.NetSame s t ∧ Safety.StoreSame s t)) ∧
  (∀ (s : State) (h : PeerHdr), s.mirrorSide = true →
    (∀ (a q : Nat) (m : MirRec), s.pair.recs.find a = some m → ∃ t, exec (.recordRx h (.commitNotice a q)) s = .next t ∧
      t.pair.recs.find a = some { m with noticed := true, head := { m.head with seq := q } } ∧
      (∀ b : Nat, b ≠ a → t.pair.recs.find b = s.pair.recs.find b) ∧ t.fab.out = .peerConfirm h.group h.lseq :: s.fab.out ∧
      t.bayp = s.bayp ∧ t.pol = s.pol ∧ t.pending = s.pending ∧ Safety.NetSame s t ∧ Safety.StoreSame s t) ∧
    (∀ a : Nat, ∃ t, exec (.recordRx h (.releaseNotice a)) s = .next t ∧ t.pair.recs.find a = none ∧
      (∀ b : Nat, b ≠ a → t.pair.recs.find b = s.pair.recs.find b) ∧ t.bayp = s.bayp ∧ t.pol = s.pol ∧ t.pending = s.pending ∧
      Safety.NetSame s t ∧ Safety.StoreSame s t) ∧
    (∀ i e m : Nat, ∃ t, exec (.recordRx h (.horizon i e m)) s = .next t ∧ (t.pair.ctxs.get i {}).horizon = some (e, m) ∧
      (t.pair.ctxs.get i {}).bytes = (s.pair.ctxs.get i {}).bytes ∧
      (∀ j : Nat, j ≠ i → t.pair.ctxs.get j {} = s.pair.ctxs.get j {}) ∧ t.bayp = s.bayp ∧ t.pol = s.pol ∧ t.pending = s.pending ∧
      Safety.NetSame s t ∧ Safety.StoreSame s t) ∧
    (∀ n q c p : Nat, ∃ t, exec (.recordRx h (.command n q c p)) s = .next t ∧
      t.pair.cmds.find n = some { sqe := q, conn := c, capsulePsn := p } ∧
      (∀ m : Nat, m ≠ n → t.pair.cmds.find m = s.pair.cmds.find m) ∧ t.bayp = s.bayp ∧ t.pol = s.pol ∧ t.pending = s.pending ∧
      Safety.NetSame s t ∧ Safety.StoreSame s t) ∧
    (∀ (a q : Nat) (m : MirRec), s.pair.recs.find a = some m → ∃ t, exec (.syncDataRx h (.plain (.commitNotice a q))) s = .next t ∧
      t.pair.recs.find a = some { m with noticed := true, head := { m.head with seq := q } } ∧
      t.get pgPair F.PAIR_SYNC_DONE_PCT ≤ 100 ∧ t.bayp = s.bayp ∧ t.pol = s.pol ∧ t.pending = s.pending ∧ Safety.NetSame s t ∧
      Safety.StoreSame s t)) ∧
  (∀ (s : State) (h : PeerHdr) (c : PeerCkpt) (r : PeerRec) (d : PeerData) (x : PeerSync), s.mirrorSide = false →
    exec (.checkpointRx h c) s = .next s ∧ exec (.recordRx h r) s = .next s ∧ exec (.mirrorWriteRx h d) s = .next s ∧
    exec (.syncDataRx h x) s = .next s)

/-- Health records, handover, checkpoints, and the end of synchronisation. Rests on R625, R637, R638, R648. -/
def Obligations.PartnerHealth : Prop :=
  (∀ (s : State) (x : Nat), s.isLive pgPair = true → s.paired = true → s.role = 6 → s.pair.island.fenceOut = false →
    (s.partner = 0 → bitAt (byteAt x 2) 3 = false → byteAt x 1 = 3 → ∃ t, exec (.healthRx x) s = .next t ∧ t.partner = 1 ∧
      t.get pgPair F.PAIR_SYNC_DONE_PCT = 0 ∧ t.pair.island.partnerHealth = x % 2 ^ 512 ∧ t.role = 6 ∧
      t.flag pgPair F.PAIR_STAT_HB_OK = true ∧ s.pair.sent <+: t.pair.sent ∧ t.bayp = s.bayp ∧ t.pol = s.pol ∧ t.pending = s.pending ∧
      Safety.NetSame s t ∧ Safety.StoreSame s t) ∧
    ((s.partner = 1 ∨ s.partner = 2) → bitAt (byteAt x 2) 3 = false → (byteAt x 1 = 3 ∨ byteAt x 1 = 4) →
      ∃ t, exec (.healthRx x) s = .next t ∧ t.partner = s.partner ∧ t.role = 6 ∧ t.pair.island.partnerHealth = x % 2 ^ 512 ∧
      t.pair.island.fenceOut = false ∧ t.pair.sent = s.pair.sent ∧ t.bayp = s.bayp ∧ t.pol = s.pol ∧ t.pending = s.pending ∧
      Safety.NetSame s t ∧ Safety.StoreSame s t)) ∧
  (∀ (s : State) (x : Nat), s.isLive pgPair = true → s.paired = true → s.role = 4 → s.pair.partnerRole = 6 →
    ∃ t, exec (.healthRx x) s = .next t ∧ t.role = (if byteAt x 1 = 6 then 4 else 2) ∧
      t.mirrorValid = (s.mirrorValid && decide (byteAt x 1 = 6)) ∧ t.pair.island.partnerHealth = x % 2 ^ 512 ∧
      t.pair.recs = s.pair.recs ∧ t.bayp = s.bayp ∧ t.pol = s.pol ∧ t.pending = s.pending ∧ Safety.NetSame s t ∧
      Safety.StoreSame s t) ∧
  (∀ s : State, s.pair.island.running = true → s.isLive pgPair = false → ∃ t, exec .healthRecordWrite s = .next t ∧
    t = { s with pair := { s.pair with island := { s.pair.island with health := s.healthRecord } } }) ∧
  (∀ (s : State) (g : Nat) (gs : List Nat), s.pair.island.running = true → s.paired = true → s.isLive pgPair = true →
    s.groupsUp = g :: gs → ∃ t, exec .healthRecordWrite s = .next t ∧ t.pair.island.health = s.healthRecord ∧
    t.fab.out = .mirrorFrame g (s.pair.nextSeq.get g 0) .health :: s.fab.out ∧
    t.pair.unacked = s.pair.unacked ++ [(g, s.pair.nextSeq.get g 0)] ∧ t.pair.sent = s.pair.sent ∧ t.role = s.role ∧ t.bayp = s.bayp ∧
    t.pol = s.pol ∧ t.pending = s.pending ∧ Safety.NetSame s t ∧ Safety.StoreSame s t) ∧
  (∀ s : State, s.role = 4 → ∃ t, exec .handoverRx s = .next t ∧ t.role = 5 ∧ t.pair = { s.pair with backoff := false } ∧
    t.fab.out = s.fab.out ∧ t.bayp = s.bayp ∧ t.pol = s.pol ∧ t.pending = s.pending ∧ Safety.NetSame s t ∧ Safety.StoreSame s t) ∧
  (∀ s : State, s.role ≠ 4 → exec .handoverRx s = .next s) ∧
  (∀ s : State, s.mirroring = true → ∃ t, exec .checkpointRound s = .next t ∧
    (∀ i : Nat, i ∈ s.xprt.ctx.keys → t.pair.sentCtx.get i 0 = ctxBytes (s.ctx i) ∧
      t.pair.sentKeys.get i ({}, {}) = (s.keySlot i false, s.keySlot i true)) ∧ s.pair.sent <+: t.pair.sent ∧
    t.role = 6 ∧ t.bayp = s.bayp ∧ t.pol = s.pol ∧ t.pending = s.pending ∧ t.xprt.ctx = s.xprt.ctx ∧ t.gard = s.gard ∧
    Safety.StoreSame s t) ∧
  (∀ s : State, s.role = 3 → ∃ t, exec .syncCompletePair s = .next t ∧ t.role = 4 ∧ t.mirrorValid = true ∧
    t.get pgPair F.PAIR_SYNC_DONE_PCT = 100 ∧ Safety.CtlSame s t ∧ Safety.NetSame s t ∧ Safety.StoreSame s t) ∧
  (∀ s : State, s.role = 6 → s.partner = 1 → s.syncSent = true → s.pair.island.fenceOut = false → ∃ t, exec .syncCompletePair s = .next t ∧
    t.partner = 2 ∧ t.role = 6 ∧ t.get pgPair F.PAIR_SYNC_DONE_PCT = 100 ∧ t.pair.island = s.pair.island ∧ t.pending = s.pending)

/-- The stages of a takeover, RELEASE, and the culture check. Rests on R638, R641, R647. -/
def Obligations.Takeover : Prop :=
  (∀ s : State, s.pair.stage = .bays → ∃ t, exec .takeoverStageEnd s = .next t ∧ t.pair.stage = .journal ∧ t.pair.recs = {} ∧
    (∀ e : Nat × MirRec, e ∈ s.pair.recs.list → e.2.complete = true →
      ∃ r, r ∈ t.jrnl.recs.vals ∧ r.state = .committed ∧ r.mirrored = true ∧ r.data = e.2.head.data ∧ r.chunk = e.1 / 2 ^ 22 ∧
        r.place = e.1 % 2 ^ 22 ∧ (e.2.noticed = true → r.seq = e.2.head.seq)) ∧ s.jrnl.seq ≤ t.jrnl.seq ∧
    t.fab.out = s.fab.out ∧ t.bayp = s.bayp ∧ t.pol = s.pol ∧ t.pending = s.pending ∧ t.regn = s.regn ∧ t.cmdq = s.cmdq ∧
    t.strp = s.strp ∧ Safety.NetSame s t) ∧
  (∀ s : State, s.pair.stage = .journal → (∀ p : Nat, p < 4 → (s.pool p).state ≠ 1) → ∃ t, exec .takeoverStageEnd s = .next t ∧
    t = { s with pair := { s.pair with stage := .pools } }) ∧
  (∀ s : State, s.pair.stage = .pools → ∃ t, exec .takeoverStageEnd s = .next t ∧ t.pair = { s.pair with stage := .announce } ∧
    (∀ e : Nat × PortSt, e ∈ s.line.ports.list → e.1 < 64 → e.2.up = true → ∀ f : Nat × Nat, f ∈ s.fab.tports false →
      tpCovers f.2 e.2.lanes = true → tpV4 f.2 = true → Safety.Leaves s e.1 (lineLen (tpVlanEn f.2) 64) ((tpTag f.2).map Prod.snd) →
      .gratuitousArp e.1 f.1 ⟨broadcastMac, s.fab.portMac false e.1, tpTag f.2⟩ ∈ t.fab.out) ∧
    t.bayp = s.bayp ∧ t.pol = s.pol ∧ t.pending = s.pending ∧ Safety.NetSame s t ∧ Safety.StoreSame s t) ∧
  (∀ s : State, s.pair.stage = .announce → s.pair.ctxs.list = [] → ∃ t, exec .takeoverStageEnd s = .next t ∧
    t.pair.stage = .connections ∧ (∀ e : Nat × MirCmd, e ∈ t.pair.cmds.list → (s.pair.probing.find e.2.conn).isSome = true) ∧
    t.fab = s.fab ∧ t.bayp = s.bayp ∧ t.pol = s.pol ∧ t.pending = s.pending ∧ Safety.NetSame s t ∧ Safety.StoreSame s t) ∧
  (∀ (s : State) (i b : Nat) (m : MirCtx), s.pair.stage = .announce → s.pair.ctxs.list = [(i, m)] → m.bytes = some b →
    (ctxOfBytes b).state = .ready → ∃ t, exec .takeoverStageEnd s = .next t ∧ t.pair.stage = .connections ∧
    t.pair.probing.find i = some (m.lastPsn.getD (psnSub (ctxOfBytes b).tx.nextPsn 1)) ∧ (t.ctx i).state = .connecting ∧
    (t.ctx i).incarnation = (ctxOfBytes b).incarnation ∧
    (t.ctx i).rx.epsn = (m.horizon.getD ((ctxOfBytes b).rx.epsn, (ctxOfBytes b).rx.msn)).1 ∧ t.bayp = s.bayp ∧ t.pol = s.pol ∧
    t.pending = s.pending ∧ Safety.StoreSame s t) ∧
  (∀ s : State, s.pair.stage = .connections → ∃ t, exec .takeoverStageEnd s = .next t ∧ t.pair = { s.pair with stage := .none } ∧
    t.mirrorValid = false ∧ t.role = s.role ∧ t.fab.out = s.fab.out ∧ t.bayp = s.bayp ∧ t.pol = s.pol ∧ t.pending = s.pending ∧
    Safety.NetSame s t ∧ Safety.StoreSame s t) ∧
  (∀ s : State, s.role = 6 → s.partner = 2 → s.pair.handover = false →
    (s.pair.sent ≠ [] → ∃ t, exec .release s = .next t ∧ t.pair.handover = true ∧ t.role = 6 ∧ t.owned = s.owned ∧
      s.pair.sent <+: t.pair.sent ∧ t.pair.island = s.pair.island ∧ t.bayp = s.bayp ∧ t.pol = s.pol ∧ t.pending = s.pending ∧
      t.gard = s.gard ∧ Safety.StoreSame s t) ∧
    (s.pair.sent = [] → s.pair.waiting = [] → s.xprt.ctx.list = [] → s.tmgr.accs.list = [] → s.owned = true →
      ∃ t, exec .release s = .next t ∧ t.role = 3 ∧ t.owned = false ∧ t.pair.island.ownOut = false ∧ t.partner = 0 ∧
      t.pair.handover = false ∧ (∀ b : Nat, b < 24 → (t.pwr b).gate12 = false ∧ (t.pwr b).sourcing = decide (s.ch b = 5)) ∧
      t.jrnl.recs = {} ∧ t.pending = s.pending)) ∧
  (∀ s : State, (s.role ≠ 6 ∨ s.partner ≠ 2) → exec .release s = .next s) ∧
  (∀ (s : State) (fails drives : Nat), s.role = 4 →
    ∃ t, exec (.cultureCheck fails drives) s = .next t ∧ t.role = 4 ∧
      t.pair = { s.pair with passes := s.pair.passes + 1, failMask := s.pair.failMask ||| fails % 512, drivesOk := drives % 2 ^ 24 } ∧
      t.flag pgPair F.PAIR_STAT_UNFIT = (s.flag pgPair F.PAIR_STAT_UNFIT || decide (fails % 128 ≠ 0)) ∧
      (fails % 128 ≠ 0 → t.fab.sticky S.PAIR_CULTURE_FAIL = true) ∧ (fails % 128 = 0 → t.fab.out = s.fab.out) ∧
      t.bayp = s.bayp ∧ t.pol = s.pol ∧ t.pending = s.pending ∧ Safety.NetSame s t ∧ Safety.StoreSame s t) ∧
  (∀ (s : State) (fails drives : Nat), s.role ≠ 4 → exec (.cultureCheck fails drives) s = .next s)

/-- The policy loops and the adaptation of leaf weights. Rests on R651, R661. -/
def Obligations.PolicyLoops : Prop :=
  (∀ s : State, s.loopsRun = true → ∃ t, exec .policyLoopTick s = .next t ∧
    (∀ n : Nat, n < 16 → t.pol.rates.get n {} = s.loopRate (n / 4) (n % 4)) ∧ t.pair = { s.pair with wdog := false } ∧
    (s.auto 6 = false → ∀ l : Nat, t.mult l = 16) ∧ (s.auto 6 = true → t.pol.mults = s.pol.mults) ∧
    t.throttle = (if s.auto 5 then s.throttle else 0) ∧ 650 ≤ t.pol.vddCore ∧ t.pol.vddCore ≤ 800 ∧
    t.fab.out = .avsRead :: .avsWrite t.pol.vddCore :: s.fab.out ∧ t.bayp = s.bayp ∧ t.tmgr = s.tmgr ∧
    t.pending = s.pending ∧ Safety.NetSame s t ∧ Safety.StoreSame s t) ∧
  (∀ (s : State) (p : Nat), s.loopsRun = true → p < 4 → s.auto 0 = true → (s.pool p).usable = true → s.throttle = 0 →
    ∃ t, exec .policyLoopTick s = .next t ∧ (t.pol.rates.get (4 * p) {}).reason = 2 ∧
    (s.pressStart p ≤ s.freeSegs p → (t.pol.rates.get (4 * p) {}).rate = leafAdmCir (s.tab pgTmgr 4 (bgLeaf p 0))) ∧
    (s.freeSegs p < s.pressStart p → s.freeSegs p ≤ s.pressReserve p →
      (t.pol.rates.get (4 * p) {}).rate = leafAdmPir (s.tab pgTmgr 4 (bgLeaf p 0))) ∧
    (s.freeSegs p < s.pressStart p → s.pressReserve p < s.freeSegs p → (t.pol.rates.get (4 * p) {}).rate =
      leafAdmCir (s.tab pgTmgr 4 (bgLeaf p 0)) + (leafAdmPir (s.tab pgTmgr 4 (bgLeaf p 0)) - leafAdmCir (s.tab pgTmgr 4 (bgLeaf p 0))) *
        (s.pressStart p - s.freeSegs p) / (s.pressStart p - s.pressReserve p))) ∧
  (∀ s : State, s.isOn (pgMgmt 1) = true → s.flag pgCmdq F.CMDQ_FW_HOLD = true →
    ∃ t, exec .policyLoopTick s = .next t ∧ t.pair = { s.pair with wdog := false } ∧ t.pol = { s.pol with vddCore := t.pol.vddCore } ∧
    650 ≤ t.pol.vddCore ∧ t.pol.vddCore ≤ 800 ∧ t.fab = { s.fab with out := .avsRead :: .avsWrite t.pol.vddCore :: s.fab.out } ∧
    t.bayp = s.bayp ∧ t.tmgr = s.tmgr ∧ t.pending = s.pending ∧ Safety.NetSame s t ∧ Safety.StoreSame s t) ∧
  (∀ s : State, s.loopsRun = true → s.auto 6 = true → ∃ t, exec .adaptTick s = .next t ∧
    (∀ l : Nat, l ∈ s.fab.tabIndices (pgMgmt 1) false 1 → bitsOf (s.tab (pgMgmt 1) 1 l) 0 32 ≠ 0 →
      t.mult l = adaptStep (s.mult l) (max (s.tmgr.samples.get l {}).egrDelayMax (s.tmgr.samples.get l {}).admDelayMax)
        (bitsOf (s.tab (pgMgmt 1) 1 l) 0 32) (bitsOf (s.tab (pgMgmt 1) 1 l) 32 8) ∧
      (t.tmgr.samples.get l {}).egrDelayMax = 0 ∧ (t.tmgr.samples.get l {}).admDelayMax = 0) ∧
    (∀ l : Nat, bitsOf (s.tab (pgMgmt 1) 1 l) 0 32 = 0 → t.mult l = s.mult l ∧ t.tmgr.samples.get l {} = s.tmgr.samples.get l {}) ∧
    t.pol.rates = s.pol.rates ∧ t.fab.out = s.fab.out ∧ t.pair = s.pair ∧ t.bayp = s.bayp ∧ t.pending = s.pending ∧
    Safety.NetSame s t ∧ Safety.StoreSame s t) ∧
  (∀ s : State, (s.loopsRun = false ∨ s.auto 6 = false) → exec .adaptTick s = .next s)

/-- Thermal throttling by temperature and its level. Rests on R664. -/
def Obligations.ThermalThrottle : Prop :=
  (∀ (s : State) (low high tj : Nat), s.isOn (pgMgmt 3) = true → s.loopsRun = true → s.auto 5 = true →
    (s.throttle < 3 → s.get (pgMgmt 3) F.THERM_CFG_THROTTLE_C + 5 * s.throttle ≤ low → ∃ t, exec (.thermalTick low high tj) s = .next t ∧
      t.throttle = s.throttle + 1 ∧ t.fab.sticky S.MGMT_THERM_THROTTLE = true ∧ t.get (pgMgmt 3) F.THERM_STAT_TJ = min 255 tj ∧
      t.pol = { s.pol with coolTicks := 0 } ∧ t.pair = s.pair ∧ t.bayp = s.bayp ∧ t.pending = s.pending ∧ Safety.NetSame s t ∧
      Safety.StoreSame s t) ∧
    ((s.throttle = 3 ∨ low < s.get (pgMgmt 3) F.THERM_CFG_THROTTLE_C + 5 * s.throttle) →
      (1 ≤ s.throttle → high + s.get (pgMgmt 3) F.THERM_CFG_HYST_C < s.get (pgMgmt 3) F.THERM_CFG_THROTTLE_C + 5 * (s.throttle - 1) →
        (9 ≤ s.pol.coolTicks → ∃ t, exec (.thermalTick low high tj) s = .next t ∧ t.throttle = s.throttle - 1 ∧
          t.pol = { s.pol with coolTicks := 0 } ∧ t.pair = s.pair ∧ t.bayp = s.bayp ∧ t.pending = s.pending ∧ Safety.NetSame s t ∧
          Safety.StoreSame s t) ∧
        (s.pol.coolTicks < 9 → ∃ t, exec (.thermalTick low high tj) s = .next t ∧ t.throttle = s.throttle ∧
          t.pol = { s.pol with coolTicks := s.pol.coolTicks + 1 } ∧ t.fab.out = s.fab.out ∧ t.pair = s.pair ∧ t.bayp = s.bayp ∧
          t.pending = s.pending ∧ Safety.NetSame s t ∧ Safety.StoreSame s t)) ∧
      ((s.throttle = 0 ∨ s.get (pgMgmt 3) F.THERM_CFG_THROTTLE_C + 5 * (s.throttle - 1) ≤ high + s.get (pgMgmt 3) F.THERM_CFG_HYST_C) →
        ∃ t, exec (.thermalTick low high tj) s = .next t ∧ t.throttle = s.throttle ∧ t.pol = { s.pol with coolTicks := 0 } ∧
          t.get (pgMgmt 3) F.THERM_STAT_TJ = min 255 tj ∧ t.fab.out = s.fab.out ∧ t.pair = s.pair ∧ t.bayp = s.bayp ∧
          t.pending = s.pending ∧ Safety.NetSame s t ∧ Safety.StoreSame s t))) ∧
  (∀ (s : State) (low high tj : Nat), s.isOn (pgMgmt 3) = false → exec (.thermalTick low high tj) s = .next s)

/-- Retirement of drives, links and pseudo-channels by their error counts. Rests on R657, R659. -/
def Obligations.Retirement : Prop :=
  (∀ (s : State) (b : Nat), s.loopsRun = true → s.auto 4 = true → s.pol.deferred = [] → s.pol.pcErrs = {} → s.pair.retrains = {} →
    s.cmpr.ce = {} → s.cmpr.restarts = {} → s.cell.bankErrs = {} → b < 24 → s.isOn (pgDrvp b) = true →
    (∀ c : Nat, c < 24 → c ≠ b → s.isOn (pgDrvp c) = false) → (s.syncErrs b).errsOver b = true →
    (s.drivePinned b = true → ∃ t, exec .retirementEval s = .next t ∧ t.isOn (pgDrvp b) = true ∧
      t.pol = { s.pol with deferred := [⟨1, b, s.ptp.sec % 2 ^ 32⟩] } ∧ t.get (pgMgmt 1) F.POL_DEFER_COUNT = 1 ∧
      t.fab.sticky S.MGMT_RETIRE_DEFERRED = true ∧ t.pair = s.pair ∧ t.bayp = s.bayp ∧ t.pending = s.pending ∧ Safety.NetSame s t ∧
      Safety.StoreSame s t) ∧
    (s.drivePinned b = false → ∃ t, exec .retirementEval s = .next t ∧ t.isOn (pgDrvp b) = false ∧
      t.fab.sticky (S.DRVP_DRIVE_RETIRED.on b) = true ∧ t.pol.deferred = [] ∧ t.bayp = s.bayp ∧ t.pending = s.pending)) ∧
  (∀ (s : State) (n : Nat), s.loopsRun = true → s.auto 4 = true → s.pol.deferred = [] → s.pol.pcErrs = {} → s.cmpr.ce = {} →
    s.cmpr.restarts = {} → s.cell.bankErrs = {} → (∀ c : Nat, c < 24 → s.isOn (pgDrvp c) = false) → n < 24 → n ∉ s.pair.lanesOut →
    (∀ m : Nat, m ≠ n → s.pair.retrains.get m [] = []) →
    s.get (pgMgmt 1) F.POL_BRITOS_LIMIT < ((s.pair.retrains.get n []).filter fun u =>
      decide (s.now - u ≤ s.get (pgMgmt 1) F.POL_BRITOS_WINDOW_S * 2000000000)).length →
    ∃ t, exec .retirementEval s = .next t ∧ n ∈ t.pair.lanesOut ∧ n ∉ t.pair.lanesUp ∧
      (∀ m : Nat, m ≠ n → (m ∈ t.pair.lanesUp ↔ m ∈ s.pair.lanesUp)) ∧ t.fab.sticky S.MGMT_CHANNEL_RETIRED = true ∧ t.pol = s.pol ∧
      t.bayp = s.bayp ∧ t.pending = s.pending ∧ Safety.NetSame s t ∧ Safety.StoreSame s t) ∧
  (∀ s : State, (s.loopsRun = false ∨ s.auto 4 = false) → ∃ t, exec .retirementEval s = .next t ∧
    (∀ d : Deferred, d ∈ t.pol.deferred → d ∈ s.pol.deferred) ∧ t.fab.pages = s.fab.pages ∧ t.fab.out = s.fab.out ∧
    t.pair = s.pair ∧ t.bayp = s.bayp ∧ t.pending = s.pending ∧ Safety.NetSame s t ∧ Safety.StoreSame s t) ∧
  (∀ (s : State) (n : Nat), n ∈ s.pol.pcMoving → n < 64 → s.plce.pages.size ≤ s.get pgPlce F.PLCE_MAP_STAT_FRAMES →
    ∃ t, exec (.pcRetireComplete n) s = .next t ∧ t.pcRetired n = true ∧
    (∀ m : Nat, m < 64 → m ≠ n → t.pcRetired m = s.pcRetired m) ∧ t.fab.sticky S.MGMT_CHANNEL_RETIRED = true ∧
    t.pol = { s.pol with pcMoving := s.pol.pcMoving.filter fun m => decide (m ≠ n) } ∧ t.pair = s.pair ∧ t.bayp = s.bayp ∧
    t.pending = s.pending ∧ Safety.NetSame s t ∧ Safety.StoreSame s t) ∧
  (∀ (s : State) (n : Nat), n ∉ s.pol.pcMoving → exec (.pcRetireComplete n) s = .next s)

/-- Live activation of a firmware image. Rests on R670, R671. -/
def Obligations.FirmwareActivation : Prop :=
  (∀ (s : State) (v : BitVec 32), bitAt v.toNat 31 = true →
    (s.flag (pgMgmt 3) F.FW_STAT_BUSY = false → ∃ t, exec (.fwActivate v) s = .next t ∧ t.fwPhase = 1 ∧
      t.flag (pgMgmt 3) F.FW_STAT_BUSY = true ∧ t.pol = { s.pol with actSlot := v.toNat % 2 } ∧
      t.get (pgMgmt 3) F.FW_STAT_RESULT = s.get (pgMgmt 3) F.FW_STAT_RESULT ∧ t.fab.out = s.fab.out ∧ t.pair = s.pair ∧
      t.bayp = s.bayp ∧ t.pending = s.pending ∧ Safety.NetSame s t ∧ Safety.StoreSame s t) ∧
    (s.flag (pgMgmt 3) F.FW_STAT_BUSY = true → ∃ t, exec (.fwActivate v) s = .next t ∧ t.fwPhase = s.fwPhase ∧
      (∀ k : Nat, k < 8 →
        t.fab.cnt E.MGMT_CTL_IGNORED.page k = s.fab.cnt E.MGMT_CTL_IGNORED.page k + (if s.fab.counts E.MGMT_CTL_IGNORED k then 1 else 0)) ∧
      t.fab.out = s.fab.out ∧ Safety.CtlSame s t ∧ Safety.NetSame s t ∧ Safety.StoreSame s t)) ∧
  (∀ s : State, s.fwPhase = 1 → s.flag pgCmdq F.CMDQ_FW_HOLD = false → ∃ t, exec .fwValidateComplete s = .next t ∧
    t.fwPhase = (if s.imageValid s.pol.actSlot then 2 else 0) ∧
    t.flag (pgMgmt 3) F.FW_STAT_BUSY = s.imageValid s.pol.actSlot ∧
    t.flag pgCmdq F.CMDQ_FW_HOLD = s.imageValid s.pol.actSlot ∧
    t.get (pgMgmt 3) F.FW_STAT_RESULT = (if s.imageValid s.pol.actSlot then s.get (pgMgmt 3) F.FW_STAT_RESULT else 2) ∧
    t.get (pgMgmt 3) F.FW_STAT_RUNNING_SLOT = s.get (pgMgmt 3) F.FW_STAT_RUNNING_SLOT ∧ t.fab.out = s.fab.out ∧ Safety.CtlSame s t ∧
    Safety.NetSame s t ∧ Safety.StoreSame s t) ∧
  (∀ s : State, s.fwPhase = 2 → s.pol.actSlot < 2 → s.cmdq.held = [] → s.cmdq.ctrls = {} → s.fab.ep.mbox = none →
    (∃ t, exec (.fwStartComplete true) s = .next t ∧ t.fwPhase = 0 ∧ t.flag (pgMgmt 3) F.FW_STAT_BUSY = false ∧
      t.flag pgCmdq F.CMDQ_FW_HOLD = false ∧ t.get (pgMgmt 3) F.FW_STAT_RESULT = 1 ∧
      t.get (pgMgmt 3) F.FW_STAT_RUNNING_SLOT = s.pol.actSlot ∧ t.get (pgMgmt 3) F.FW_STAT_BOOT_SLOT = s.pol.actSlot ∧
      t.get (pgMgmt 3) F.FW_VER_VERSION = s.imageVersion s.pol.actSlot % 2 ^ 32 ∧ Safety.CtlSame s t ∧ Safety.NetSame s t ∧
      Safety.StoreSame s t) ∧
    (∃ t, exec (.fwStartComplete false) s = .next t ∧ t.fwPhase = 0 ∧ t.flag (pgMgmt 3) F.FW_STAT_BUSY = false ∧
      t.flag pgCmdq F.CMDQ_FW_HOLD = false ∧ t.get (pgMgmt 3) F.FW_STAT_RESULT = 3 ∧
      t.fab.sticky S.MGMT_FW_ACTIVATE_FAIL = true ∧
      t.get (pgMgmt 3) F.FW_STAT_RUNNING_SLOT = s.get (pgMgmt 3) F.FW_STAT_RUNNING_SLOT ∧
      t.get (pgMgmt 3) F.FW_STAT_BOOT_SLOT = s.get (pgMgmt 3) F.FW_STAT_BOOT_SLOT ∧ Safety.CtlSame s t ∧ Safety.NetSame s t ∧
      Safety.StoreSame s t)) ∧
  (∀ s : State, (s.fwPhase ≠ 1 → exec .fwValidateComplete s = .next s) ∧
    (∀ ok : Bool, s.fwPhase ≠ 2 → exec (.fwStartComplete ok) s = .next s))

/-- Function-level reset, PERST#, link and power states of the management endpoint. Rests on R702, R710. -/
def Obligations.EndpointStates : Prop :=
  (∀ s : State, ∃ t, exec .epFlr s = .next t ∧ t.fab.ep.dstate = .d0 ∧ t.fab.ep.bme = false ∧ t.fab.ep.funcMask = false ∧
    t.fab.ep.msix = {} ∧ t.fab.ep.pba = [] ∧ t.fab.ep.dmaOut = [] ∧ t.fab.ep.linkUp = s.fab.ep.linkUp ∧ t.fab.ep.aer = s.fab.ep.aer ∧
    (∀ n : Nat, n ∈ s.fab.ep.dmaOut → n ∈ t.fab.ep.tagQuar) ∧
    (s.fab.ep.mbox = none → t.fab.ep.mbox = none) ∧
    (∀ m, s.fab.ep.mbox = some m → m.executed = false → t.fab.ep.mbox = some { m with orphan := true, tag := none }) ∧
    t.flag (pgMgmt 0) F.MBOX_CFG_EN = false ∧ t.get (pgMgmt 0) F.MBOX_CFG_VECTOR = 3 ∧ t.get (pgMgmt 0) F.MBOX_CFG_SIZE_LOG2 = 4 ∧
    t.get (pgMgmt 0) F.MBOX_DB_TAIL = 0 ∧ t.get (pgMgmt 0) F.MBOX_STAT_HEAD = 0 ∧ t.flag (pgMgmt 0) F.MBOX_STAT_BUSY = false ∧
    t.get (pgMgmt 0) F.EP_STAT_DSTATE = 0 ∧
    (∀ n : Nat, n < 4 → t.flag (pgMgmt 0) (F.EVR_CFG_EN.idx n) = false ∧ t.get (pgMgmt 0) (F.EVR_CFG_VECTOR.idx n) = 4 + n ∧
      t.get (pgMgmt 0) (F.EVR_CFG_TYPE_MASK.idx n) = 0x80 ∧ t.get (pgMgmt 0) (F.EVR_STAT_TAIL.idx n) = 0 ∧
      t.get (pgMgmt 0) (F.EVR_STAT_LOST.idx n) = 0) ∧
    t.get (pgMgmt 0) F.EP_STAT_DOWN_COUNT = s.get (pgMgmt 0) F.EP_STAT_DOWN_COUNT ∧
    t.get pgDev F.EPOCH_EPOCH = s.get pgDev F.EPOCH_EPOCH ∧ (∀ x : Src, x ∈ allSrcs → t.fab.sticky x = s.fab.sticky x) ∧
    t.fab.pages = s.fab.pages ∧ t.fab.tabs = s.fab.tabs ∧ t.fab.cnts = s.fab.cnts ∧ t.fab.swap = s.fab.swap ∧ t.fab.out = s.fab.out ∧
    t = { s with fab := t.fab }) ∧
  (∀ s : State,
    (s.fab.ep.linkUp = true → ∃ t, exec (.epPerst true) s = .next t ∧ t.fab.ep.linkUp = false ∧ t.fab.ep.dstate = .d0 ∧
      t.fab.ep.bme = false ∧ t.fab.ep.msix = {} ∧ t.fab.ep.pba = [] ∧ t.fab.ep.aer = {} ∧ t.flag (pgMgmt 0) F.MBOX_CFG_EN = false ∧
      t.get (pgMgmt 0) F.EP_STAT_DOWN_COUNT = s.get (pgMgmt 0) F.EP_STAT_DOWN_COUNT ∧
      t.get pgDev F.EPOCH_EPOCH = s.get pgDev F.EPOCH_EPOCH ∧ t.fab.pages = s.fab.pages ∧ t.fab.tabs = s.fab.tabs ∧
      t.fab.cnts = s.fab.cnts ∧ t.fab.out = s.fab.out ∧ t = { s with fab := t.fab }) ∧
    (s.fab.ep.linkUp = false → ∃ t, exec (.epPerst true) s = .next t ∧ t.get (pgMgmt 0) F.EP_STAT_DSTATE = 3 ∧
      t.fab.ep = { s.fab.ep with dstate := .d3cold, wake := s.fab.ep.pmeEn && !s.fab.ep.pba.isEmpty } ∧ t.fab.out = s.fab.out ∧
      t = { s with fab := t.fab }) ∧
    (s.fab.ep.dstate = .d3cold → ∃ t, exec (.epPerst false) s = .next t ∧ t.fab.ep.dstate = .d0 ∧ t.fab.ep.wake = false ∧
      t.fab.ep.aer = {} ∧ t.fab.ep.bme = false ∧ t.fab.cnts = s.fab.cnts ∧ t.fab.out = s.fab.out ∧ t = { s with fab := t.fab }) ∧
    (s.fab.ep.dstate ≠ .d3cold → exec (.epPerst false) s = .next s)) ∧
  (∀ s : State, ∃ t, exec .epLinkDown s = .next t ∧
    t = { s with fab := { s.fab with ep := { s.fab.ep with linkUp := false } } }) ∧
  (∀ s : State, s.fab.ep.linkUp = false → ∃ t, exec .epLinkUp s = .next t ∧
    t.fab.ep.linkUp = true ∧ 1 ≤ t.fab.ep.rate ∧ t.fab.ep.rate ≤ 6 ∧ (t.fab.ep.rate = 6 → t.fab.ep.flit = true) ∧
    (t.fab.ep.width = 8 ∨ t.fab.ep.width = 4 ∨ t.fab.ep.width = 2 ∨ t.fab.ep.width = 1) ∧
    t.get (pgMgmt 0) F.EP_STAT_DOWN_COUNT =
      (if s.fab.ep.everUp then min 65535 (s.get (pgMgmt 0) F.EP_STAT_DOWN_COUNT + 1) else s.get (pgMgmt 0) F.EP_STAT_DOWN_COUNT) ∧
    (s.fab.ep.dstate = .d0 → s.fab.ep.bme = true → s.fab.ep.funcMask = false → ∀ v : Nat, v ∈ s.fab.ep.pba →
      (s.fab.msixEntry v).masked = false → (s.fab.msixEntry v).addr ≠ 0 →
      .msix v (s.fab.msixEntry v).addr (s.fab.msixEntry v).data ∈ t.fab.out) ∧ t = { s with fab := t.fab, drawn := s.drawn + 1 }) ∧
  (∀ (s : State) (pmeEn clr : Bool), s.fab.ep.dstate ≠ .d3cold →
    (s.fab.ep.mboxHeldCpl = false → ∃ t, exec (.epDstateChange true pmeEn clr) s = .next t ∧
      t.get (pgMgmt 0) F.EP_STAT_DSTATE = 3 ∧
      t.fab.ep = { s.fab.ep with dstate := .d3hot, pmeEn := pmeEn, pmeStatus := s.fab.ep.pmeStatus && !clr } ∧
      t.fab.out = s.fab.out ∧ t.fab.cnts = s.fab.cnts ∧ t = { s with fab := t.fab }) ∧
    (∃ t, exec (.epDstateChange false pmeEn clr) s = .next t ∧ t.get (pgMgmt 0) F.EP_STAT_DSTATE = 0 ∧ t.fab.ep.dstate = .d0 ∧
      (s.fab.ep.linkUp = true → s.fab.ep.bme = true → s.fab.ep.funcMask = false → ∀ v : Nat, v ∈ s.fab.ep.pba →
        (s.fab.msixEntry v).masked = false → (s.fab.msixEntry v).addr ≠ 0 →
        .msix v (s.fab.msixEntry v).addr (s.fab.msixEntry v).data ∈ t.fab.out) ∧ t = { s with fab := t.fab })) ∧
  (∀ (s : State) (d pmeEn clr : Bool), s.fab.ep.dstate = .d3cold → exec (.epDstateChange d pmeEn clr) s = .next s)

/-- MSI-X: unmasking, address writes, and bus master enable release pending vectors. Rests on R707. -/
def Obligations.MsixVectors : Prop :=
  (∀ (s : State) (v : Nat), v < 2048 →
    (s.fab.ep.linkUp = true → s.fab.ep.dstate = .d0 → s.fab.ep.bme = true → s.fab.ep.funcMask = false → v ∈ s.fab.ep.pba →
      (s.fab.msixEntry v).addr ≠ 0 → ∃ t, exec (.msixUnmask (some v)) s = .next t ∧ (t.fab.msixEntry v).masked = false ∧
      .msix v (s.fab.msixEntry v).addr (s.fab.msixEntry v).data ∈ t.fab.out ∧ v ∉ t.fab.ep.pba ∧ t.fab.regs = s.fab.regs ∧
      t = { s with fab := t.fab }) ∧
    (s.fab.ep.pba = [] → ∃ t, exec (.msixUnmask (some v)) s = .next t ∧
      t.fab.msixEntry v = { s.fab.msixEntry v with masked := false } ∧ (∀ w : Nat, w ≠ v → t.fab.msixEntry w = s.fab.msixEntry w) ∧
      t.fab.out = s.fab.out ∧ t.fab.regs = s.fab.regs ∧ t = { s with fab := t.fab })) ∧
  (∀ s : State, ∃ t, exec (.msixUnmask none) s = .next t ∧ t.fab.ep.funcMask = false ∧ t.fab.ep.msix = s.fab.ep.msix ∧
    (s.fab.ep.linkUp = true → s.fab.ep.dstate = .d0 → s.fab.ep.bme = true → ∀ v : Nat, v ∈ s.fab.ep.pba →
      (s.fab.msixEntry v).masked = false → (s.fab.msixEntry v).addr ≠ 0 →
      .msix v (s.fab.msixEntry v).addr (s.fab.msixEntry v).data ∈ t.fab.out ∧ v ∉ t.fab.ep.pba) ∧ t = { s with fab := t.fab }) ∧
  (∀ (s : State) (v : Nat) (a : BitVec 64) (d : BitVec 32), v < 2048 →
    ∃ t, exec (.msixAddressWrite v a d) s = .next t ∧ t.fab.msixEntry v = { s.fab.msixEntry v with addr := a, data := d } ∧
      (∀ w : Nat, w ≠ v → t.fab.msixEntry w = s.fab.msixEntry w) ∧
      (s.fab.ep.linkUp = true → s.fab.ep.dstate = .d0 → s.fab.ep.bme = true → s.fab.ep.funcMask = false → v ∈ s.fab.ep.pba →
        (s.fab.msixEntry v).masked = false → a ≠ 0 → .msix v a d ∈ t.fab.out ∧ v ∉ t.fab.ep.pba) ∧ t.fab.regs = s.fab.regs ∧
      t = { s with fab := t.fab }) ∧
  (∀ s : State,
    (s.fab.ep.linkUp = true → s.fab.ep.dstate = .d0 → s.fab.ep.funcMask = false → ∃ t, exec (.busMasterEnable true) s = .next t ∧
      t.fab.ep.bme = true ∧ (∀ v : Nat, v ∈ s.fab.ep.pba → (s.fab.msixEntry v).masked = false → (s.fab.msixEntry v).addr ≠ 0 →
      .msix v (s.fab.msixEntry v).addr (s.fab.msixEntry v).data ∈ t.fab.out) ∧ t = { s with fab := t.fab }) ∧
    (s.fab.ep.mboxHeldCpl = false → ∃ t, exec (.busMasterEnable false) s = .next t ∧
      t = { s with fab := { s.fab with ep := { s.fab.ep with bme := false } } }))

/-- Endpoint errors: DMA time-outs, unexpected completions, quarantine ends, and AER logging. Rests on R570, R703, R706. -/
def Obligations.EndpointErrors : Prop :=
  (∀ (s : State) (n : Nat), n ∈ s.fab.ep.dmaOut →
    ∃ t, exec (.epDmaTimeout n) s = .next t ∧ n ∈ t.fab.ep.tagQuar ∧ .completionTimeout ∈ t.fab.ep.aer.uncStatus ∧
      (s.fab.ep.mboxFetch ≠ some n → t.fab.ep.dmaOut = s.fab.ep.dmaOut.filter fun x => decide (x ≠ n)) ∧
      (s.fab.ep.mboxFetch ≠ some n → ∀ m, s.fab.ep.mbox = some m → m.tag = some n →
        t.fab.ep.mbox = some { m with status := 2, bytes := 0, executed := true, tag := none }) ∧
      (s.fab.ep.mboxFetch = some n → s.isOn (pgMgmt 0) = false → t.fab.ep.mboxFetch = none) ∧
      (.completionTimeout ∉ s.fab.ep.aer.uncMask → s.fab.ep.aer.firstErr = none → t.fab.ep.aer.firstErr = some .completionTimeout) ∧
      Safety.CtlSame s t ∧ Safety.NetSame s t ∧ Safety.StoreSame s t) ∧
  (∀ (s : State) (n : Nat), n ∉ s.fab.ep.dmaOut → exec (.epDmaTimeout n) s = .next s) ∧
  (∀ (s : State) (n : Nat),
    (n ∈ s.fab.ep.tagQuar → ∃ t, exec (.pcieUnexpectedCompletion none n) s = .next t ∧
      .advisoryNonFatal ∈ t.fab.ep.aer.corStatus ∧ .unexpectedCompletion ∈ t.fab.ep.aer.uncStatus ∧
      t.fab.ep = { s.fab.ep with aer := t.fab.ep.aer } ∧ t.fab.ep.aer.firstErr = s.fab.ep.aer.firstErr ∧
      (∀ k : Nat, k < 8 → t.fab.cnt E.MGMT_EP_LATE_CMPL.page k =
        s.fab.cnt E.MGMT_EP_LATE_CMPL.page k + (if s.fab.counts E.MGMT_EP_LATE_CMPL k then 1 else 0)) ∧ t.fab.out = s.fab.out ∧
      Safety.CtlSame s t ∧ Safety.NetSame s t ∧ Safety.StoreSame s t) ∧
    (n ∉ s.fab.ep.tagQuar → exec (.pcieUnexpectedCompletion none n) s = .next s)) ∧
  (∀ (s : State) (b n : Nat), b < 24 →
    (n ∈ (s.bay b).rootQuar → ∃ t, exec (.pcieUnexpectedCompletion (some b) n) s = .next t ∧
      (t.bay b).logNext = ((s.bay b).logNext + 1) % 32 ∧ (t.bay b).out = (s.bay b).out ∧ (∀ c, c ≠ b → t.bay c = s.bay c) ∧
      t.fab = s.fab ∧ t.cmdq = s.cmdq ∧ t.strp = s.strp ∧ Safety.CtlSame s t ∧ Safety.NetSame s t) ∧
    (n ∉ (s.bay b).rootQuar → exec (.pcieUnexpectedCompletion (some b) n) s = .next s) ∧
    (∃ t, exec (.pcieTagQuarantineEnd (some b) n) s = .next t ∧ n ∉ (t.bay b).rootQuar ∧
      (∀ m : Nat, m ≠ n → (m ∈ (t.bay b).rootQuar ↔ m ∈ (s.bay b).rootQuar)) ∧ (∀ c, c ≠ b → t.bay c = s.bay c) ∧ t.fab = s.fab ∧
      Safety.CtlSame s t ∧ Safety.NetSame s t)) ∧
  (∀ (s : State) (n : Nat), s.flag (pgMgmt 0) F.MBOX_CFG_EN = false → ∃ t, exec (.pcieTagQuarantineEnd none n) s = .next t ∧
    t = { s with fab := { s.fab with ep := { s.fab.ep with tagQuar := s.fab.ep.tagQuar.filter fun x => decide (x ≠ n) } } }) ∧
  (∀ (s : State) (e : AerErr) (h : Nat),
    (e = .receiverError ∨ e = .badTlp ∨ e = .badDllp ∨ e = .replayRollover ∨ e = .replayTimeout →
      ∃ t, exec (.epTlpError e h) s = .next t ∧ e ∈ t.fab.ep.aer.corStatus ∧ t.fab.ep.aer.uncStatus = s.fab.ep.aer.uncStatus ∧
        t.fab.out = s.fab.out ∧ t = { s with fab := t.fab }) ∧
    (e = .dlProtocol ∨ e = .poisonedTlp ∨ e = .receiverOverflow ∨ e = .malformedTlp ∨ e = .unsupportedRequest →
      e ∉ s.fab.ep.aer.uncMask → ∃ t, exec (.epTlpError e h) s = .next t ∧ e ∈ t.fab.ep.aer.uncStatus ∧
        (s.fab.ep.aer.firstErr = none → t.fab.ep.aer.firstErr = some e ∧ t.fab.ep.aer.headerLog = h) ∧
        (s.fab.ep.aer.firstErr ≠ none → t.fab.ep.aer.headerLog = s.fab.ep.aer.headerLog ∧
          .headerLogOverflow ∈ t.fab.ep.aer.corStatus) ∧ t.fab.out = s.fab.out ∧ t = { s with fab := t.fab }))

/-- The mailbox: enabling, doorbells, fetches, execution and completions. Rests on R712, R713, R714. -/
def Obligations.Mailbox : Prop :=
  (∀ (s : State) (v : BitVec 32), ∃ t, exec (.mboxEnable v) s = .next t ∧
    t.flag (pgMgmt 0) F.MBOX_CFG_EN = bitAt v.toNat 31 ∧ t.get (pgMgmt 0) F.MBOX_CFG_VECTOR = bitsOf v.toNat 16 11 ∧
    t.get (pgMgmt 0) F.MBOX_CFG_SIZE_LOG2 = (if 2 ≤ v.toNat % 16 ∧ v.toNat % 16 ≤ 8 then v.toNat % 16 else
      s.get (pgMgmt 0) F.MBOX_CFG_SIZE_LOG2) ∧
    (bitAt v.toNat 31 = false → t.fab.ep = s.fab.ep ∧ t.fab.out = s.fab.out) ∧
    (bitAt v.toNat 31 = true → s.isOn (pgMgmt 0) = true → s.fab.canPost = true → s.fab.ep.mbox = none → s.fab.ep.mboxFetch = none →
      64 ≤ s.fab.ep.mrrs →
      t.get (pgMgmt 0) F.MBOX_STAT_HEAD ≠ t.get (pgMgmt 0) F.MBOX_DB_TAIL % t.mboxSize →
      t.fab.out = .mgmtRead (s.mboxBase + 64 * s.get (pgMgmt 0) F.MBOX_STAT_HEAD) 64 s.fab.ep.freeTag :: s.fab.out ∧
      t.fab.ep.mboxFetch = some s.fab.ep.freeTag) ∧ t = { s with fab := t.fab }) ∧
  (∀ (s : State) (v : BitVec 32),
    (s.get (pgMgmt 0) F.MBOX_STAT_HEAD ≤ v.toNat % 256 → s.mboxSize ≤ v.toNat % 256 - s.get (pgMgmt 0) F.MBOX_STAT_HEAD →
      ∃ t, exec (.mboxTailWrite v) s = .next t ∧ t.fab.sticky S.MGMT_MBOX_PROTO = true ∧
      t.get (pgMgmt 0) F.MBOX_DB_TAIL = s.get (pgMgmt 0) F.MBOX_DB_TAIL ∧ t.fab.ep.mboxFetch = s.fab.ep.mboxFetch ∧
      t = { s with fab := t.fab }) ∧
    (s.get (pgMgmt 0) F.MBOX_STAT_HEAD ≤ v.toNat % 256 → v.toNat % 256 - s.get (pgMgmt 0) F.MBOX_STAT_HEAD < s.mboxSize →
      ∃ t, exec (.mboxTailWrite v) s = .next t ∧ t.get (pgMgmt 0) F.MBOX_DB_TAIL = v.toNat % 256 ∧
      (s.flag (pgMgmt 0) F.MBOX_CFG_EN = true → s.isOn (pgMgmt 0) = true → s.fab.canPost = true → s.fab.ep.mbox = none →
        s.fab.ep.mboxFetch = none → 64 ≤ s.fab.ep.mrrs → s.get (pgMgmt 0) F.MBOX_STAT_HEAD ≠ v.toNat % 256 % s.mboxSize →
        t.fab.out = .mgmtRead (s.mboxBase + 64 * s.get (pgMgmt 0) F.MBOX_STAT_HEAD) 64 s.fab.ep.freeTag :: s.fab.out) ∧
      t = { s with fab := t.fab })) ∧
  (∀ (s : State) (n : Nat) (r : MboxReq), s.fab.ep.mboxFetch = some n → s.flag (pgMgmt 0) F.MBOX_CFG_EN = true →
    (mboxValid r = true → s.flag pgCmdq F.CMDQ_FW_HOLD = false → r.opcode ≠ 2 →
      ∃ t, exec (.mboxFetchComplete r false) s = .next t ∧ t.fab.ep.mbox = some { req := r } ∧ t.fab.ep.mboxFetch = none ∧
      n ∉ t.fab.ep.dmaOut ∧ t.flag (pgMgmt 0) F.MBOX_STAT_BUSY = true ∧ t.fab.out = s.fab.out ∧ t = { s with fab := t.fab }) ∧
    (mboxValid r = true → s.flag pgCmdq F.CMDQ_FW_HOLD = false → r.opcode = 2 →
      r.slotBay = s.get (pgMgmt 3) F.FW_STAT_RUNNING_SLOT → ∃ t, exec (.mboxFetchComplete r false) s = .next t ∧
      t.fab.ep.mbox = some { req := r, status := 3, executed := true } ∧ t.fab.out = s.fab.out ∧ t = { s with fab := t.fab }) ∧
    (mboxValid r = true → s.flag pgCmdq F.CMDQ_FW_HOLD = true → ∃ t, exec (.mboxFetchComplete r false) s = .next t ∧
      t.fab.ep.mbox = some { req := r, held := true } ∧
      t.get pgCmdq F.CMDQ_FW_HELD = min 65535 (s.get pgCmdq F.CMDQ_FW_HELD + 1) ∧ t.fab.out = s.fab.out ∧ t = { s with fab := t.fab }) ∧
    (mboxValid r = false → ∃ t, exec (.mboxFetchComplete r false) s = .next t ∧
      t.fab.ep.mbox = some { req := r, status := 1, executed := true } ∧ t.fab.sticky S.MGMT_MBOX_PROTO = true ∧
      t = { s with fab := t.fab })) ∧
  (∀ (s : State) (m : MboxRun), s.fab.ep.mbox = some m → m.executed = false → m.held = false →
    (m.req.opcode = 1 → m.orphan = false → s.fab.canPost = true → ∃ t, exec .getInfo s = .next t ∧
      t.fab.ep.mbox = some { m with status := 0, bytes := 64, executed := true, tag := none } ∧
      t.fab.out = .mgmtWrite m.req.dataAddr s.infoBytes :: s.fab.out ∧ s.infoBytes.len = 64 ∧
      bitsOf s.infoBytes.val 0 64 = Config.serial.toNat ∧ bitsOf s.infoBytes.val 64 32 = (s.fab.reg 0).toNat ∧
      bitsOf s.infoBytes.val 96 32 = (s.fab.reg 4).toNat ∧
      bitsOf s.infoBytes.val 128 32 = (if s.imageValid 0 then s.imageVersion 0 else 0) ∧
      bitsOf s.infoBytes.val 160 32 = (if s.imageValid 1 then s.imageVersion 1 else 0) ∧
      byteAt s.infoBytes.val 24 = s.get (pgMgmt 3) F.FW_STAT_RUNNING_SLOT ∧ s.infoBytes.val < 2 ^ 200 ∧ t = { s with fab := t.fab }) ∧
    (∀ d : Blob, m.req.opcode = 2 → m.orphan = false → ∃ t, exec (.slotWrite d false false) s = .next t ∧
      t.fab.ep.mbox = some { m with status := 0, bytes := 0, executed := true, tag := none } ∧
      (∀ k : Nat, k < m.req.dataLen → t.flashByte (slotBase m.req.slotBay + m.req.offset + k) = byteAt d.val k) ∧
      (∀ a : Nat, a < slotBase m.req.slotBay + m.req.offset ∨ slotBase m.req.slotBay + m.req.offset + m.req.dataLen ≤ a →
        t.flashByte a = s.flashByte a) ∧ t.fab.out = s.fab.out ∧ t.pair = s.pair ∧ t.bayp = s.bayp ∧ t.pending = s.pending ∧
      Safety.NetSame s t ∧ Safety.StoreSame s t) ∧
    (∀ (d : Blob) (e f : Bool), m.req.opcode = 2 → m.orphan = false → (e = true ∨ f = true) → ∃ t, exec (.slotWrite d e f) s = .next t ∧
      t.fab.ep.mbox = some { m with status := if e then 2 else 6, bytes := 0, executed := true, tag := none } ∧
      (∀ a : Nat, a < slotBase m.req.slotBay + m.req.offset ∨ slotBase m.req.slotBay + m.req.offset + m.req.dataLen ≤ a →
        t.flashByte a = s.flashByte a) ∧ t.fab.out = s.fab.out ∧ t.pair = s.pair ∧ t.bayp = s.bayp ∧ t.pending = s.pending ∧
      Safety.NetSame s t ∧ Safety.StoreSame s t) ∧
    (m.req.opcode = 3 → m.orphan = false → m.req.dataLen ≠ 0 → s.fab.canPost = true → ∃ t, exec .slotRead s = .next t ∧
      t.fab.ep.mbox = some { m with status := 0, bytes := m.req.dataLen, executed := true, tag := none } ∧
      t.fab.out = .mgmtWrite m.req.dataAddr ⟨m.req.dataLen,
        s.flashBytes (slotBase m.req.slotBay + m.req.offset) m.req.dataLen⟩ :: s.fab.out ∧ t = { s with fab := t.fab }) ∧
    (∀ (ack : Bool) (x : Nat), m.req.opcode = 4 →
      (s.owned = false → ∃ t, exec (.smbusXfer ack x) s = .next t ∧
        t.fab.ep.mbox = some { m with status := 5, bytes := 0, executed := true, tag := none } ∧ t.fab.out = s.fab.out ∧
        t = { s with fab := t.fab }) ∧
      (s.owned = true → ack = false → ∃ t, exec (.smbusXfer ack x) s = .next t ∧
        t.fab.ep.mbox = some { m with status := 4, bytes := 0, executed := true, tag := none } ∧
        t.fab.out = .smbus m.req.slotBay m.req.smbAddr ⟨m.req.wlen, m.req.wdata % 2 ^ (8 * m.req.wlen)⟩ m.req.rlen :: s.fab.out ∧
        t = { s with fab := t.fab }) ∧
      (s.owned = true → ack = true → m.orphan = false → m.req.rlen ≠ 0 → s.fab.canPost = true →
        ∃ t, exec (.smbusXfer ack x) s = .next t ∧
        t.fab.ep.mbox = some { m with status := 0, bytes := m.req.rlen, executed := true, tag := none } ∧
        .mgmtWrite m.req.dataAddr ⟨m.req.rlen, x % 2 ^ (8 * m.req.rlen)⟩ ∈ t.fab.out ∧ t = { s with fab := t.fab }))) ∧
  (∀ (s : State) (m : MboxRun), s.fab.ep.mbox = some m → m.executed = true →
    (m.orphan = false → s.fab.canPost = true → ∃ t, exec .mboxComplete s = .next t ∧
      .mboxCompletion (s.fab.ep.cqSeq % s.mboxSize) m.req.rqId m.status ((s.fab.ep.cqSeq / s.mboxSize + 1) % 2) m.bytes ∈ t.fab.out ∧
      t.get (pgMgmt 0) F.MBOX_STAT_HEAD = (s.get (pgMgmt 0) F.MBOX_STAT_HEAD + 1) % s.mboxSize % 256 ∧
      t.flag (pgMgmt 0) F.MBOX_STAT_BUSY = false ∧ t.fab.ep.mbox = none ∧ t.fab.ep.cqSeq = s.fab.ep.cqSeq + 1 ∧
      t = { s with fab := t.fab }) ∧
    (m.orphan = false → s.fab.canPost = false → ∃ t, exec .mboxComplete s = .next t ∧
      t = { s with fab := { s.fab with ep := { s.fab.ep with mboxHeldCpl := true } } }) ∧
    (m.orphan = true → s.flag (pgMgmt 0) F.MBOX_CFG_EN = false → ∃ t, exec .mboxComplete s = .next t ∧
      t = { s with fab := { s.fab with ep := { s.fab.ep with mbox := none } } }))

/-- Event rings: writing, holding, loss, and configuration. Rests on R715, R716. -/
def Obligations.EventRings : Prop :=
  (∀ (s : State) (n ty x : Nat), n < 4 → 1 ≤ ty → ty ≤ 7 → s.isOn (pgMgmt 0) = true → s.flag (pgMgmt 0) (F.EVR_CFG_EN.idx n) = true →
    bitAt (s.get (pgMgmt 0) (F.EVR_CFG_TYPE_MASK.idx n)) ty = true →
    (∀ m : Nat, m < 4 → m ≠ n → s.flag (pgMgmt 0) (F.EVR_CFG_EN.idx m) = false) →
    (s.fab.canPost = true → s.fab.ringFull n = false → (s.fab.ring n).held = [] → s.get (pgMgmt 0) (F.EVR_STAT_LOST.idx n) = 0 →
      ∃ t, exec (.eventRecordPost ty x) s = .next t ∧
      .evRecord n (s.fab.ringTail n) (s.fab.ring n).seq (((s.fab.ring n).seq / s.fab.ringSize n + 1) % 2)
        ⟨ty, s.timeStamp, x % 2 ^ 128⟩ ∈ t.fab.out ∧
      t.fab.ringTail n = (s.fab.ringTail n + 1) % s.fab.ringSize n % 4096 ∧
      (t.fab.ring n).seq = ((s.fab.ring n).seq + 1) % 2 ^ 32 ∧ (t.fab.ring n).held = [] ∧ t = { s with fab := t.fab }) ∧
    ((s.fab.canPost = false ∨ s.fab.ringFull n = true) → (s.fab.ring n).held.length < 64 →
      ∃ t, exec (.eventRecordPost ty x) s = .next t ∧
      t.fab.ring n = { s.fab.ring n with held := (s.fab.ring n).held ++ [⟨ty, s.timeStamp, x % 2 ^ 128⟩] } ∧ t.fab.regs = s.fab.regs ∧
      t.fab.out = s.fab.out ∧ t = { s with fab := t.fab }) ∧
    ((s.fab.canPost = false ∨ s.fab.ringFull n = true) → 64 ≤ (s.fab.ring n).held.length →
      ∃ t, exec (.eventRecordPost ty x) s = .next t ∧ t.fab.ring n = s.fab.ring n ∧
      t.get (pgMgmt 0) (F.EVR_STAT_LOST.idx n) = min 65535 (s.get (pgMgmt 0) (F.EVR_STAT_LOST.idx n) + 1) ∧
      (s.get (pgMgmt 0) (F.EVR_STAT_LOST.idx n) = 0 → t.fab.sticky S.MGMT_EVRING_OVF = true) ∧ t = { s with fab := t.fab })) ∧
  (∀ (s : State) (ty x : Nat), (∀ n : Nat, n < 4 → s.flag (pgMgmt 0) (F.EVR_CFG_EN.idx n) = false) →
    exec (.eventRecordPost ty x) s = .next s) ∧
  (∀ (s : State) (n : Nat) (v : BitVec 32), n < 4 → s.isLive (pgMgmt 0) = true → s.fab.canPost = true → s.fab.ep.pba = [] →
    (s.fab.ring n).held = [] → s.get (pgMgmt 0) (F.EVR_STAT_LOST.idx n) ≠ 0 →
    (∀ m : Nat, m < 4 → m ≠ n → s.get (pgMgmt 0) (F.EVR_STAT_LOST.idx m) = 0 ∧ (s.fab.ring m).held = []) →
    (s.fab.ringTail n + 1) % s.fab.ringSize n ≠ v.toNat % 4096 % s.fab.ringSize n →
    ∃ t, exec (.evrHeadWrite n v) s = .next t ∧ t.fab.ringHead n = v.toNat % 4096 ∧
      .evRecord n (s.fab.ringTail n) (s.fab.ring n).seq (((s.fab.ring n).seq / s.fab.ringSize n + 1) % 2)
        ⟨7, s.timeStamp, s.get (pgMgmt 0) (F.EVR_STAT_LOST.idx n)⟩ ∈ t.fab.out ∧
      t.get (pgMgmt 0) (F.EVR_STAT_LOST.idx n) = 0 ∧ t.fab.ringTail n = (s.fab.ringTail n + 1) % s.fab.ringSize n % 4096 ∧
      t = { s with fab := t.fab }) ∧
  (∀ (s : State) (n : Nat) (v : BitVec 32), n < 4 → s.fab.canPost = false → ∃ t, exec (.evrHeadWrite n v) s = .next t ∧
    t.fab.ringHead n = v.toNat % 4096 ∧ t.fab.ep = s.fab.ep ∧ t.fab.out = s.fab.out ∧ t = { s with fab := t.fab }) ∧
  (∀ (s : State) (n : Nat) (v : BitVec 32), n < 4 → s.fab.canPost = false →
    ∃ t, exec (.evrEnable n v) s = .next t ∧ t.flag (pgMgmt 0) (F.EVR_CFG_EN.idx n) = bitAt v.toNat 31 ∧
      t.get (pgMgmt 0) (F.EVR_CFG_VECTOR.idx n) = bitsOf v.toNat 16 11 ∧
      t.get (pgMgmt 0) (F.EVR_CFG_TYPE_MASK.idx n) = bitsOf v.toNat 8 7 + 128 ∧
      t.get (pgMgmt 0) (F.EVR_CFG_SIZE_LOG2.idx n) = (if 4 ≤ v.toNat % 16 ∧ v.toNat % 16 ≤ 12 then v.toNat % 16 else
        s.get (pgMgmt 0) (F.EVR_CFG_SIZE_LOG2.idx n)) ∧
      (bitAt v.toNat 31 = true → s.flag (pgMgmt 0) (F.EVR_CFG_EN.idx n) = false → t.fab.ring n = {} ∧ t.fab.ringTail n = 0 ∧
        t.get (pgMgmt 0) (F.EVR_STAT_LOST.idx n) = 0) ∧
      ((bitAt v.toNat 31 = false ∨ s.flag (pgMgmt 0) (F.EVR_CFG_EN.idx n) = true) → t.fab.ring n = s.fab.ring n ∧
        t.fab.ringTail n = s.fab.ringTail n) ∧
      (∀ m : Nat, m < 4 → m ≠ n → t.fab.ring m = s.fab.ring m ∧ t.fab.ringTail m = s.fab.ringTail m ∧
        t.get (pgMgmt 0) (F.EVR_CFG_TYPE_MASK.idx m) = s.get (pgMgmt 0) (F.EVR_CFG_TYPE_MASK.idx m)) ∧ t.fab.out = s.fab.out ∧
      t = { s with fab := t.fab })

/-- The island's supply, POR_N, start-up, and the thermal trip. Rests on R718, R723, R724, R737. -/
def Obligations.PowerAndReset : Prop :=
  (∀ s : State, ∃ t, exec .vauxRise s = .next t ∧ t.pair = { s.pair with island := { s.pair.island with running := true } } ∧
    t.flag pgPair F.PAIR_STAT_OWN_IN = s.pair.island.ownIn ∧ t.flag pgPair F.PAIR_STAT_HB_OK = s.pair.island.hbIn ∧
    (∀ a : Nat, a ≠ 0x0F000400 → t.fab.reg a = s.fab.reg a) ∧ t.fab.out = s.fab.out ∧
    t = { s with fab := { s.fab with regs := t.fab.regs }, pair := t.pair }) ∧
  (∀ s : State, ∃ t, exec .vauxFall s = .next t ∧ t.pair.island.running = false ∧ t.pair.island.ownOut = false ∧
    t.pair.island.fenceOut = false ∧ t.pair.island.health = 0 ∧ t.pair.island.partnerHealth = 0 ∧
    t.pair.island.ownIn = s.pair.island.ownIn ∧ t.pair.island.fenced = s.pair.island.fenced ∧ t.pair.sent = s.pair.sent ∧
    (s.pair.island.ownOut = true → Emit.pinOwn false ∈ t.fab.out) ∧ (s.pair.island.fenceOut = true → Emit.pinFence false ∈ t.fab.out) ∧
    (s.pair.island.ownOut = false → s.pair.island.fenceOut = false → t.fab.out = s.fab.out) ∧
    (∀ a : Nat, a ≠ 0x0F000400 → t.fab.reg a = s.fab.reg a) ∧ t.fab.pages = s.fab.pages ∧ t.fab.tabs = s.fab.tabs ∧
    t = { s with fab := t.fab, pair := t.pair }) ∧
  (∀ s : State, (∀ b : Nat, b < 24 → s.get (pgBayp b) F.BAY_PWR_STAT_CH ≠ 5) → ∃ t, exec .porAssert s = .next t ∧
    (∀ a : Nat, a ≠ 0x0F000400 → t.fab.reg a = resetWord a) ∧ (∀ p : Page, p ∈ allPages → t.fab.page p = {}) ∧ t.fab.tabs = {} ∧
    t.fab.cnts = {} ∧ t.pair.island.inPor = true ∧ t.pair.island.thermTrip = false ∧ t.pair.island.ownOut = false ∧
    t.pair.island.running = s.pair.island.running ∧ t.pair.island.health = s.pair.island.health ∧
    t.pair.island.fenced = s.pair.island.fenced ∧ t.pol.flash = s.pol.flash ∧ t.pol.gradeE = s.pol.gradeE ∧ t.now = s.now ∧
    t.pending = s.pending ∧ t.cmdq = {} ∧ t.regn = {} ∧ t.jrnl = {} ∧ t.plce = {} ∧ t.strp = {} ∧ t.drvp = {} ∧ t.xprt = {} ∧
    t.gard = {} ∧ t.bayp = {} ∧
    (s.pair.island.thermTrip = true → Emit.thermTrip false ∈ t.fab.out)) ∧
  (∀ (s : State) (b : Nat), b < 24 → s.get (pgBayp b) F.BAY_PWR_STAT_CH = 5 → ∃ t, exec .porAssert s = .next t ∧
    t.get (pgBayp b) F.BAY_PWR_STAT_CH = 5 ∧ t.get (pgBayp b) F.BAY_PWR_STAT_PG = 1 ∧ (t.pwr b).sourcing = true ∧
    Emit.gateSource b true ∈ t.fab.out ∧ (t.fab.page (pgBayp b)).state = .off) ∧
  (∀ (s : State) (h m e : Bool), s.pair.island.inPor = true → s.pair.island.fenced = false →
    (∀ i : Nat, i < 4 → (s.fab.page (pgMgmt i)).state = .off) → ∃ t, exec (.porRelease h m e) s = .next t ∧
      t.pair.island = { s.pair.island with inPor := false, slot := h } ∧ t.flag pgPair F.PAIR_STAT_SLOT = h ∧
      t.flag (pgMgmt 2) F.FLT_TEST_STAT_STRAP = m ∧ t.pol.gradeE = e ∧
      (∀ i : Nat, i < 4 → t.fab.page (pgMgmt i) = { s.fab.page (pgMgmt i) with state := .starting }) ∧
      (∀ p : Page, p ∈ allPages → p.blk ≠ .mgmt → t.fab.page p = s.fab.page p) ∧
      t.get (pgMgmt 3) F.THERM_CFG_THROTTLE_C = (if e then 100 else s.get (pgMgmt 3) F.THERM_CFG_THROTTLE_C) ∧
      t.fab.cfg true (pgMgmt 3) F.THERM_CFG_THROTTLE_C = (if e then 100 else s.fab.cfg true (pgMgmt 3) F.THERM_CFG_THROTTLE_C) ∧
      t.fab.out = s.fab.out ∧ Safety.NetSame s t ∧ Safety.StoreSame s t ∧ t.now = s.now ∧ t.pending = s.pending) ∧
  (∀ (s : State) (h m e : Bool), s.pair.island.inPor = true → s.pair.island.fenced = true →
    ∃ t, exec (.porRelease h m e) s = .next t ∧ t.pair.island = { s.pair.island with inPor := false, slot := h } ∧
      t.fab.pages = s.fab.pages ∧ Safety.NetSame s t ∧ Safety.StoreSame s t) ∧
  (∀ (s : State) (h m e : Bool), s.pair.island.inPor = false → exec (.porRelease h m e) s = .next s) ∧
  (∀ s : State, s.pair.island.running = true → s.pair.island.inPor = false → s.pair.island.tripped = false →
    (s.get pgJrnl F.JRNL_SAVE_STAT_PHASE = 0 → s.armed = false → ∃ t, exec .thermalTrip s = .next t ∧
      t.pair.island.thermTrip = true ∧ t.pair.island.tripped = true ∧ t.pair.island.ownOut = false ∧
      t.fab.out.head? = some (.thermTrip true) ∧ (∀ p : Page, p ∈ allPages → (t.fab.page p).state = .off) ∧ Safety.SetsSame s t ∧
      t.fab.cnts = s.fab.cnts ∧ t.get pgDev F.EPOCH_EPOCH = s.get pgDev F.EPOCH_EPOCH ∧ t.xprt = {} ∧ t.cmdq = {} ∧ t.jrnl = {} ∧
      t.pol.flash = s.pol.flash ∧ t.now = s.now ∧ t.pending = s.pending) ∧
    (s.get pgJrnl F.JRNL_SAVE_STAT_PHASE = 1 ∨ s.get pgJrnl F.JRNL_SAVE_STAT_PHASE = 2 → ∃ t, exec .thermalTrip s = .next t ∧
      t = { s with pair := { s.pair with island := { s.pair.island with tripped := true } } }) ∧
    (s.get pgJrnl F.JRNL_SAVE_STAT_PHASE = 0 → s.armed = true → s.fwPhase = 0 → ∃ t, exec .thermalTrip s = .next t ∧
      t.pair.island = { s.pair.island with tripped := true } ∧ t.get pgJrnl F.JRNL_SAVE_STAT_PHASE = 1 ∧ t.jrnl.powerFail = true ∧
      t.jrnl.saveStart = s.now ∧ t.jrnl.recs = s.jrnl.recs ∧ t.regn = s.regn ∧ t.now = s.now ∧ t.pending = s.pending)) ∧
  (∀ s : State, s.pair.island.running = false ∨ s.pair.island.inPor = true ∨ s.pair.island.tripped = true →
    exec .thermalTrip s = .next s)
end

