-- ==== Sys2Proof/Laws/Bits.lean ====
section
/-!
SUPPORT. Reading and replacing a field of a number and of a register word.
-/
namespace Sys2Proof.Machine
open Sys2Proof

/-- A number split at a field. -/
theorem bits_split (x lo w : Nat) : x = x / 2 ^ (lo + w) * 2 ^ (lo + w) + bitsOf x lo w * 2 ^ lo + x % 2 ^ lo := by
  unfold bitsOf
  have h1 := Nat.div_add_mod x (2 ^ lo)
  have h2 := Nat.div_add_mod (x / 2 ^ lo) (2 ^ w)
  have h3 : x / 2 ^ (lo + w) = x / 2 ^ lo / 2 ^ w := by rw [Nat.div_div_eq_div_mul, Nat.pow_add]
  rw [h3, Nat.pow_add]
  generalize x / 2 ^ lo / 2 ^ w = c at *
  generalize x / 2 ^ lo % 2 ^ w = b at *
  rw [← h2] at h1
  generalize x % 2 ^ lo = a at *
  rw [← h1]
  grind
/-- A number with a field replaced, split at it. -/
theorem withBits_split (x lo w v : Nat) : withBits x lo w v = x / 2 ^ (lo + w) * 2 ^ (lo + w) + v % 2 ^ w * 2 ^ lo + x % 2 ^ lo := by
  have h := bits_split x lo w
  unfold withBits
  generalize bitsOf x lo w * 2 ^ lo = b at *
  generalize x / 2 ^ (lo + w) * 2 ^ (lo + w) = c at *
  omega
theorem withBits_low (x lo w v : Nat) : withBits x lo w v % 2 ^ lo = x % 2 ^ lo := by
  rw [withBits_split, Nat.pow_add]
  have e : x / (2 ^ lo * 2 ^ w) * (2 ^ lo * 2 ^ w) + v % 2 ^ w * 2 ^ lo + x % 2 ^ lo
      = x % 2 ^ lo + 2 ^ lo * (x / (2 ^ lo * 2 ^ w) * 2 ^ w + v % 2 ^ w) := by grind
  rw [e, Nat.add_mul_mod_self_left, Nat.mod_mod]
theorem withBits_mid (x lo w v : Nat) : withBits x lo w v / 2 ^ lo = x / 2 ^ (lo + w) * 2 ^ w + v % 2 ^ w := by
  rw [withBits_split, Nat.pow_add]
  have e : x / (2 ^ lo * 2 ^ w) * (2 ^ lo * 2 ^ w) + v % 2 ^ w * 2 ^ lo + x % 2 ^ lo
      = x % 2 ^ lo + 2 ^ lo * (x / (2 ^ lo * 2 ^ w) * 2 ^ w + v % 2 ^ w) := by grind
  rw [e, Nat.add_mul_div_left _ _ (Nat.two_pow_pos lo), Nat.div_eq_of_lt (Nat.mod_lt _ (Nat.two_pow_pos lo)), Nat.zero_add]
theorem withBits_high (x lo w v : Nat) : withBits x lo w v / 2 ^ (lo + w) = x / 2 ^ (lo + w) := by
  rw [Nat.pow_add, ← Nat.div_div_eq_div_mul, withBits_mid, ← Nat.pow_add]
  rw [Nat.mul_comm, Nat.mul_add_div (Nat.two_pow_pos w), Nat.div_eq_of_lt (Nat.mod_lt _ (Nat.two_pow_pos w)), Nat.add_zero]
/-- The replaced field reads as the new value. -/
theorem bitsOf_withBits (x lo w v : Nat) : bitsOf (withBits x lo w v) lo w = v % 2 ^ w := by
  rw [bitsOf, withBits_mid, Nat.add_comm, Nat.add_mul_mod_self_right, Nat.mod_mod]
/-- A field above is as it was. -/
theorem bitsOf_withBits_above (x lo w v lo' w' : Nat) (h : lo + w ≤ lo') : bitsOf (withBits x lo w v) lo' w' = bitsOf x lo' w' := by
  obtain ⟨d, rfl⟩ := Nat.exists_eq_add_of_le h
  unfold bitsOf
  rw [Nat.pow_add 2 (lo + w) d, ← Nat.div_div_eq_div_mul, ← Nat.div_div_eq_div_mul, withBits_high]
/-- A field below depends on the low bits alone. -/
theorem bitsOf_low (x lo lo' w' : Nat) (h : lo' + w' ≤ lo) : bitsOf x lo' w' = bitsOf (x % 2 ^ lo) lo' w' := by
  obtain ⟨d, rfl⟩ := Nat.exists_eq_add_of_le h
  unfold bitsOf
  rw [Nat.add_assoc, Nat.pow_add 2 lo' (w' + d), Nat.mod_mul_right_div_self, Nat.pow_add, Nat.mod_mul_right_mod]
/-- A field below is as it was. -/
theorem bitsOf_withBits_below (x lo w v lo' w' : Nat) (h : lo' + w' ≤ lo) : bitsOf (withBits x lo w v) lo' w' = bitsOf x lo' w' := by
  rw [bitsOf_low _ lo lo' w' h, withBits_low, ← bitsOf_low _ lo lo' w' h]
theorem withBits_lt (x lo w v n : Nat) (hx : x < 2 ^ n) (h : lo + w ≤ n) : withBits x lo w v < 2 ^ n := by
  obtain ⟨d, rfl⟩ := Nat.exists_eq_add_of_le h
  rw [Nat.pow_add] at hx ⊢
  rw [Nat.mul_comm] at hx ⊢
  exact (Nat.div_lt_iff_lt_mul (Nat.two_pow_pos _)).1 (by rw [withBits_high]; exact (Nat.div_lt_iff_lt_mul (Nat.two_pow_pos _)).2 hx)

theorem setBits_toNat (x : Word) (lo w v : Nat) (h : lo + w ≤ 32) : (setBits x lo w v).toNat = withBits x.toNat lo w v := by
  unfold setBits
  rw [BitVec.toNat_ofNat]
  exact Nat.mod_eq_of_lt (withBits_lt _ _ _ _ _ x.isLt h)
/-- The field that was set reads as the value's low bits. -/
theorem getBits_setBits (x : Word) (lo w v : Nat) (h : lo + w ≤ 32) : getBits (setBits x lo w v) lo w = v % 2 ^ w := by
  unfold getBits
  rw [setBits_toNat _ _ _ _ h, bitsOf_withBits]
/-- Another field of the word is as it was. -/
theorem getBits_setBits_off (x : Word) (lo w v lo' w' : Nat) (h : lo + w ≤ 32) (d : lo + w ≤ lo' ∨ lo' + w' ≤ lo) :
    getBits (setBits x lo w v) lo' w' = getBits x lo' w' := by
  unfold getBits
  rw [setBits_toNat _ _ _ _ h]
  cases d with
  | inl d => exact bitsOf_withBits_above _ _ _ _ _ _ d
  | inr d => exact bitsOf_withBits_below _ _ _ _ _ _ d

end Sys2Proof.Machine
end

