-- ==== Sys2Proof/Laws/Maps.lean ====
section
/-!
SUPPORT. The laws of sparse maps: a read after a write, and the canonical form, which every operation keeps.
-/
namespace Sys2Proof.Machine
open Sys2Proof

theorem listFind_insert {α : Type} (k j : Nat) (v : α) (m : List (Nat × α)) :
    listFind j (listInsert k v m) = if j = k then some v else listFind j m := by
  induction m with
  | nil => simp [listInsert, listFind]
  | cons e m ih =>
    obtain ⟨k', v'⟩ := e
    by_cases h1 : k < k'
    · simp [listInsert, h1, listFind]
    · by_cases h2 : k = k'
      · subst h2
        simp only [listInsert, h1, if_false, if_true, listFind]
        by_cases h3 : j = k <;> simp [h3]
      · simp only [listInsert, h1, h2, if_false, listFind, ih]
        by_cases h3 : j = k'
        · have : j ≠ k := by omega
          simp [h3]; omega
        · simp [h3]

theorem listFind_erase {α : Type} (k j : Nat) (m : List (Nat × α)) :
    listFind j (listErase k m) = if j = k then none else listFind j m := by
  induction m with
  | nil => simp [listErase, listFind]
  | cons e m ih =>
    obtain ⟨k', v'⟩ := e
    unfold listErase at ih ⊢
    by_cases h : k' = k
    · subst h
      by_cases hj : j = k' <;> simp_all [listFind]
    · rw [List.filter_cons_of_pos (by simpa using h)]
      simp only [listFind, ih]
      by_cases hj : j = k' <;> simp [hj, h]

/-- Every key is above a bound. -/
def keysAbove {α : Type} (b : Nat) (m : List (Nat × α)) : Prop := ∀ e ∈ m, b < e.1

theorem keysRise_cons {α : Type} (k : Nat) (v : α) (m : List (Nat × α)) :
    keysRise ((k, v) :: m) = true ↔ keysAbove k m ∧ keysRise m = true := by
  induction m generalizing k v with
  | nil => simp [keysRise, keysAbove]
  | cons e m ih =>
    obtain ⟨k', v'⟩ := e
    simp only [keysRise, Bool.and_eq_true, decide_eq_true_eq]
    constructor
    · rintro ⟨h1, h2⟩
      refine ⟨?_, h2⟩
      intro e he
      rcases List.mem_cons.1 he with h | h
      · subst h; exact h1
      · exact Nat.lt_trans h1 (((ih k' v').1 h2).1 e h)
    · rintro ⟨h1, h2⟩
      exact ⟨h1 (k', v') (List.mem_cons_self ..), h2⟩

theorem mem_listInsert {α : Type} (k : Nat) (v : α) (m : List (Nat × α)) (e : Nat × α) (h : e ∈ listInsert k v m) :
    e = (k, v) ∨ e ∈ m := by
  induction m with
  | nil => simp [listInsert] at h; exact .inl h
  | cons x m ih =>
    obtain ⟨k', v'⟩ := x
    simp only [listInsert] at h
    split at h
    · rcases List.mem_cons.1 h with h | h
      · exact .inl h
      · exact .inr h
    · split at h
      · rcases List.mem_cons.1 h with h | h
        · exact .inl h
        · exact .inr (List.mem_cons_of_mem _ h)
      · rcases List.mem_cons.1 h with h | h
        · exact .inr (by subst h; exact List.mem_cons_self ..)
        · rcases ih h with h | h
          · exact .inl h
          · exact .inr (List.mem_cons_of_mem _ h)

theorem keysRise_insert {α : Type} (k : Nat) (v : α) (m : List (Nat × α)) (h : keysRise m = true) :
    keysRise (listInsert k v m) = true := by
  induction m with
  | nil => rfl
  | cons e m ih =>
    obtain ⟨k', v'⟩ := e
    simp only [listInsert]
    split
    · rename_i hk
      refine (keysRise_cons ..).2 ⟨?_, h⟩
      intro e he
      rcases List.mem_cons.1 he with h' | h'
      · subst h'; exact hk
      · exact Nat.lt_trans hk (((keysRise_cons ..).1 h).1 e h')
    · split
      · rename_i _ hk
        subst hk
        exact (keysRise_cons ..).2 ((keysRise_cons ..).1 h)
      · obtain ⟨ha, hr⟩ := (keysRise_cons ..).1 h
        refine (keysRise_cons ..).2 ⟨?_, ih hr⟩
        intro e he
        rcases mem_listInsert _ _ _ _ he with h' | h'
        · subst h'; simp only; omega
        · exact ha e h'

theorem keysRise_filter {α : Type} (p : Nat × α → Bool) (m : List (Nat × α)) (h : keysRise m = true) :
    keysRise (m.filter p) = true := by
  induction m with
  | nil => rfl
  | cons e m ih =>
    obtain ⟨k, v⟩ := e
    obtain ⟨ha, hr⟩ := (keysRise_cons ..).1 h
    by_cases hp : p (k, v)
    · rw [List.filter_cons_of_pos hp]
      exact (keysRise_cons ..).2 ⟨fun e he => ha e (List.mem_filter.1 he).1, ih hr⟩
    · rw [List.filter_cons_of_neg hp]
      exact ih hr

end Sys2Proof.Machine

namespace Sys2Proof.SMap
open Sys2Proof.Machine

@[simp] theorem find_empty {α : Type} (k : Nat) : ({} : SMap α).find k = none := rfl
@[simp] theorem get_empty {α : Type} (k : Nat) (d : α) : ({} : SMap α).get k d = d := rfl
theorem find_set {α : Type} (m : SMap α) (k j : Nat) (v : α) : (m.set k v).find j = if j = k then some v else m.find j :=
  listFind_insert k j v m.list
theorem find_erase {α : Type} (m : SMap α) (k j : Nat) : (m.erase k).find j = if j = k then none else m.find j :=
  listFind_erase k j m.list
@[simp] theorem find_set_same {α : Type} (m : SMap α) (k : Nat) (v : α) : (m.set k v).find k = some v := by simp [find_set]
@[simp] theorem find_erase_same {α : Type} (m : SMap α) (k : Nat) : (m.erase k).find k = none := by simp [find_erase]
@[simp] theorem get_set_same {α : Type} (m : SMap α) (k : Nat) (v d : α) : (m.set k v).get k d = v := by simp [get]
theorem find_put {α : Type} [DecidableEq α] (m : SMap α) (k j : Nat) (d v : α) :
    (m.put k d v).find j = if j = k then (if v = d then none else some v) else m.find j := by
  unfold put
  split <;> simp [find_set, find_erase]
theorem get_put {α : Type} [DecidableEq α] (m : SMap α) (k j : Nat) (d v : α) :
    (m.put k d v).get j d = if j = k then v else m.get j d := by
  unfold get
  rw [find_put]
  by_cases h : j = k
  · by_cases hv : v = d <;> simp [h, hv]
  · simp [h]
/-- A read after a write to the same key gives the value written. -/
@[simp] theorem get_put_same {α : Type} [DecidableEq α] (m : SMap α) (k : Nat) (d v : α) : (m.put k d v).get k d = v := by
  simp [get_put]
/-- A write leaves every other key alone. -/
theorem get_put_ne {α : Type} [DecidableEq α] (m : SMap α) (k j : Nat) (d d' v : α) (h : j ≠ k) : (m.put k d v).get j d' = m.get j d' := by
  unfold get
  rw [find_put]
  simp [h]

/-- A write keeps the canonical form. -/
theorem put_wf {α : Type} [DecidableEq α] (m : SMap α) (k : Nat) (d : Nat → α) (v : α) (h : m.wf d = true) :
    (m.put k (d k) v).wf d = true := by
  unfold wf at h ⊢
  simp only [Bool.and_eq_true, List.all_eq_true, decide_eq_true_eq] at h ⊢
  unfold put
  split
  · exact ⟨keysRise_filter _ _ h.1, fun e he => h.2 e (List.mem_filter.1 he).1⟩
  · rename_i hv
    refine ⟨keysRise_insert _ _ _ h.1, fun e he => ?_⟩
    rcases mem_listInsert _ _ _ _ he with h' | h'
    · subst h'; exact hv
    · exact h.2 e h'
/-- So does giving up entries. -/
theorem filter_wf {α : Type} [DecidableEq α] (m : SMap α) (p : Nat → α → Bool) (d : Nat → α) (h : m.wf d = true) :
    (m.filter p).wf d = true := by
  unfold wf at h ⊢
  simp only [Bool.and_eq_true, List.all_eq_true, decide_eq_true_eq] at h ⊢
  exact ⟨keysRise_filter _ _ h.1, fun e he => h.2 e (List.mem_filter.1 he).1⟩
@[simp] theorem empty_wf {α : Type} [DecidableEq α] (d : Nat → α) : ({} : SMap α).wf d = true := rfl

end Sys2Proof.SMap
end

