-- ==== Sys2Proof/Laws/State.lean ====
section
/-!
SUPPORT. What each update of the state leaves in each of its fields.
-/
namespace Sys2Proof.Machine
open Sys2Proof
variable (s : State)

@[simp] theorem State.onFab_fab (k : Fab → Fab) : (s.onFab k).fab = k s.fab := (rfl)
@[simp] theorem State.onFab_line (k : Fab → Fab) : (s.onFab k).line = s.line := (rfl)
@[simp] theorem State.onFab_ptp (k : Fab → Fab) : (s.onFab k).ptp = s.ptp := (rfl)
@[simp] theorem State.onFab_xprt (k : Fab → Fab) : (s.onFab k).xprt = s.xprt := (rfl)
@[simp] theorem State.onFab_gard (k : Fab → Fab) : (s.onFab k).gard = s.gard := (rfl)
@[simp] theorem State.onFab_tmgr (k : Fab → Fab) : (s.onFab k).tmgr = s.tmgr := (rfl)
@[simp] theorem State.onFab_vat (k : Fab → Fab) : (s.onFab k).vat = s.vat := (rfl)
@[simp] theorem State.onFab_cell (k : Fab → Fab) : (s.onFab k).cell = s.cell := (rfl)
@[simp] theorem State.onFab_cmdq (k : Fab → Fab) : (s.onFab k).cmdq = s.cmdq := (rfl)
@[simp] theorem State.onFab_regn (k : Fab → Fab) : (s.onFab k).regn = s.regn := (rfl)
@[simp] theorem State.onFab_jrnl (k : Fab → Fab) : (s.onFab k).jrnl = s.jrnl := (rfl)
@[simp] theorem State.onFab_cmpr (k : Fab → Fab) : (s.onFab k).cmpr = s.cmpr := (rfl)
@[simp] theorem State.onFab_plce (k : Fab → Fab) : (s.onFab k).plce = s.plce := (rfl)
@[simp] theorem State.onFab_strp (k : Fab → Fab) : (s.onFab k).strp = s.strp := (rfl)
@[simp] theorem State.onFab_drvp (k : Fab → Fab) : (s.onFab k).drvp = s.drvp := (rfl)
@[simp] theorem State.onFab_pair (k : Fab → Fab) : (s.onFab k).pair = s.pair := (rfl)
@[simp] theorem State.onFab_bayp (k : Fab → Fab) : (s.onFab k).bayp = s.bayp := (rfl)
@[simp] theorem State.onFab_pol (k : Fab → Fab) : (s.onFab k).pol = s.pol := (rfl)
@[simp] theorem State.onFab_tap (k : Fab → Fab) : (s.onFab k).tap = s.tap := (rfl)
@[simp] theorem State.onFab_now (k : Fab → Fab) : (s.onFab k).now = s.now := (rfl)
@[simp] theorem State.onFab_drawn (k : Fab → Fab) : (s.onFab k).drawn = s.drawn := (rfl)
@[simp] theorem State.onFab_pending (k : Fab → Fab) : (s.onFab k).pending = s.pending := (rfl)
@[simp] theorem State.onLine_fab (k : LineSt → LineSt) : (s.onLine k).fab = s.fab := (rfl)
@[simp] theorem State.onLine_line (k : LineSt → LineSt) : (s.onLine k).line = k s.line := (rfl)
@[simp] theorem State.onLine_ptp (k : LineSt → LineSt) : (s.onLine k).ptp = s.ptp := (rfl)
@[simp] theorem State.onLine_xprt (k : LineSt → LineSt) : (s.onLine k).xprt = s.xprt := (rfl)
@[simp] theorem State.onLine_gard (k : LineSt → LineSt) : (s.onLine k).gard = s.gard := (rfl)
@[simp] theorem State.onLine_tmgr (k : LineSt → LineSt) : (s.onLine k).tmgr = s.tmgr := (rfl)
@[simp] theorem State.onLine_vat (k : LineSt → LineSt) : (s.onLine k).vat = s.vat := (rfl)
@[simp] theorem State.onLine_cell (k : LineSt → LineSt) : (s.onLine k).cell = s.cell := (rfl)
@[simp] theorem State.onLine_cmdq (k : LineSt → LineSt) : (s.onLine k).cmdq = s.cmdq := (rfl)
@[simp] theorem State.onLine_regn (k : LineSt → LineSt) : (s.onLine k).regn = s.regn := (rfl)
@[simp] theorem State.onLine_jrnl (k : LineSt → LineSt) : (s.onLine k).jrnl = s.jrnl := (rfl)
@[simp] theorem State.onLine_cmpr (k : LineSt → LineSt) : (s.onLine k).cmpr = s.cmpr := (rfl)
@[simp] theorem State.onLine_plce (k : LineSt → LineSt) : (s.onLine k).plce = s.plce := (rfl)
@[simp] theorem State.onLine_strp (k : LineSt → LineSt) : (s.onLine k).strp = s.strp := (rfl)
@[simp] theorem State.onLine_drvp (k : LineSt → LineSt) : (s.onLine k).drvp = s.drvp := (rfl)
@[simp] theorem State.onLine_pair (k : LineSt → LineSt) : (s.onLine k).pair = s.pair := (rfl)
@[simp] theorem State.onLine_bayp (k : LineSt → LineSt) : (s.onLine k).bayp = s.bayp := (rfl)
@[simp] theorem State.onLine_pol (k : LineSt → LineSt) : (s.onLine k).pol = s.pol := (rfl)
@[simp] theorem State.onLine_tap (k : LineSt → LineSt) : (s.onLine k).tap = s.tap := (rfl)
@[simp] theorem State.onLine_now (k : LineSt → LineSt) : (s.onLine k).now = s.now := (rfl)
@[simp] theorem State.onLine_drawn (k : LineSt → LineSt) : (s.onLine k).drawn = s.drawn := (rfl)
@[simp] theorem State.onLine_pending (k : LineSt → LineSt) : (s.onLine k).pending = s.pending := (rfl)
@[simp] theorem State.onPtp_fab (k : PtpSt → PtpSt) : (s.onPtp k).fab = s.fab := (rfl)
@[simp] theorem State.onPtp_line (k : PtpSt → PtpSt) : (s.onPtp k).line = s.line := (rfl)
@[simp] theorem State.onPtp_ptp (k : PtpSt → PtpSt) : (s.onPtp k).ptp = k s.ptp := (rfl)
@[simp] theorem State.onPtp_xprt (k : PtpSt → PtpSt) : (s.onPtp k).xprt = s.xprt := (rfl)
@[simp] theorem State.onPtp_gard (k : PtpSt → PtpSt) : (s.onPtp k).gard = s.gard := (rfl)
@[simp] theorem State.onPtp_tmgr (k : PtpSt → PtpSt) : (s.onPtp k).tmgr = s.tmgr := (rfl)
@[simp] theorem State.onPtp_vat (k : PtpSt → PtpSt) : (s.onPtp k).vat = s.vat := (rfl)
@[simp] theorem State.onPtp_cell (k : PtpSt → PtpSt) : (s.onPtp k).cell = s.cell := (rfl)
@[simp] theorem State.onPtp_cmdq (k : PtpSt → PtpSt) : (s.onPtp k).cmdq = s.cmdq := (rfl)
@[simp] theorem State.onPtp_regn (k : PtpSt → PtpSt) : (s.onPtp k).regn = s.regn := (rfl)
@[simp] theorem State.onPtp_jrnl (k : PtpSt → PtpSt) : (s.onPtp k).jrnl = s.jrnl := (rfl)
@[simp] theorem State.onPtp_cmpr (k : PtpSt → PtpSt) : (s.onPtp k).cmpr = s.cmpr := (rfl)
@[simp] theorem State.onPtp_plce (k : PtpSt → PtpSt) : (s.onPtp k).plce = s.plce := (rfl)
@[simp] theorem State.onPtp_strp (k : PtpSt → PtpSt) : (s.onPtp k).strp = s.strp := (rfl)
@[simp] theorem State.onPtp_drvp (k : PtpSt → PtpSt) : (s.onPtp k).drvp = s.drvp := (rfl)
@[simp] theorem State.onPtp_pair (k : PtpSt → PtpSt) : (s.onPtp k).pair = s.pair := (rfl)
@[simp] theorem State.onPtp_bayp (k : PtpSt → PtpSt) : (s.onPtp k).bayp = s.bayp := (rfl)
@[simp] theorem State.onPtp_pol (k : PtpSt → PtpSt) : (s.onPtp k).pol = s.pol := (rfl)
@[simp] theorem State.onPtp_tap (k : PtpSt → PtpSt) : (s.onPtp k).tap = s.tap := (rfl)
@[simp] theorem State.onPtp_now (k : PtpSt → PtpSt) : (s.onPtp k).now = s.now := (rfl)
@[simp] theorem State.onPtp_drawn (k : PtpSt → PtpSt) : (s.onPtp k).drawn = s.drawn := (rfl)
@[simp] theorem State.onPtp_pending (k : PtpSt → PtpSt) : (s.onPtp k).pending = s.pending := (rfl)
@[simp] theorem State.onXprt_fab (k : XprtSt → XprtSt) : (s.onXprt k).fab = s.fab := (rfl)
@[simp] theorem State.onXprt_line (k : XprtSt → XprtSt) : (s.onXprt k).line = s.line := (rfl)
@[simp] theorem State.onXprt_ptp (k : XprtSt → XprtSt) : (s.onXprt k).ptp = s.ptp := (rfl)
@[simp] theorem State.onXprt_xprt (k : XprtSt → XprtSt) : (s.onXprt k).xprt = k s.xprt := (rfl)
@[simp] theorem State.onXprt_gard (k : XprtSt → XprtSt) : (s.onXprt k).gard = s.gard := (rfl)
@[simp] theorem State.onXprt_tmgr (k : XprtSt → XprtSt) : (s.onXprt k).tmgr = s.tmgr := (rfl)
@[simp] theorem State.onXprt_vat (k : XprtSt → XprtSt) : (s.onXprt k).vat = s.vat := (rfl)
@[simp] theorem State.onXprt_cell (k : XprtSt → XprtSt) : (s.onXprt k).cell = s.cell := (rfl)
@[simp] theorem State.onXprt_cmdq (k : XprtSt → XprtSt) : (s.onXprt k).cmdq = s.cmdq := (rfl)
@[simp] theorem State.onXprt_regn (k : XprtSt → XprtSt) : (s.onXprt k).regn = s.regn := (rfl)
@[simp] theorem State.onXprt_jrnl (k : XprtSt → XprtSt) : (s.onXprt k).jrnl = s.jrnl := (rfl)
@[simp] theorem State.onXprt_cmpr (k : XprtSt → XprtSt) : (s.onXprt k).cmpr = s.cmpr := (rfl)
@[simp] theorem State.onXprt_plce (k : XprtSt → XprtSt) : (s.onXprt k).plce = s.plce := (rfl)
@[simp] theorem State.onXprt_strp (k : XprtSt → XprtSt) : (s.onXprt k).strp = s.strp := (rfl)
@[simp] theorem State.onXprt_drvp (k : XprtSt → XprtSt) : (s.onXprt k).drvp = s.drvp := (rfl)
@[simp] theorem State.onXprt_pair (k : XprtSt → XprtSt) : (s.onXprt k).pair = s.pair := (rfl)
@[simp] theorem State.onXprt_bayp (k : XprtSt → XprtSt) : (s.onXprt k).bayp = s.bayp := (rfl)
@[simp] theorem State.onXprt_pol (k : XprtSt → XprtSt) : (s.onXprt k).pol = s.pol := (rfl)
@[simp] theorem State.onXprt_tap (k : XprtSt → XprtSt) : (s.onXprt k).tap = s.tap := (rfl)
@[simp] theorem State.onXprt_now (k : XprtSt → XprtSt) : (s.onXprt k).now = s.now := (rfl)
@[simp] theorem State.onXprt_drawn (k : XprtSt → XprtSt) : (s.onXprt k).drawn = s.drawn := (rfl)
@[simp] theorem State.onXprt_pending (k : XprtSt → XprtSt) : (s.onXprt k).pending = s.pending := (rfl)
@[simp] theorem State.onGard_fab (k : GardSt → GardSt) : (s.onGard k).fab = s.fab := (rfl)
@[simp] theorem State.onGard_line (k : GardSt → GardSt) : (s.onGard k).line = s.line := (rfl)
@[simp] theorem State.onGard_ptp (k : GardSt → GardSt) : (s.onGard k).ptp = s.ptp := (rfl)
@[simp] theorem State.onGard_xprt (k : GardSt → GardSt) : (s.onGard k).xprt = s.xprt := (rfl)
@[simp] theorem State.onGard_gard (k : GardSt → GardSt) : (s.onGard k).gard = k s.gard := (rfl)
@[simp] theorem State.onGard_tmgr (k : GardSt → GardSt) : (s.onGard k).tmgr = s.tmgr := (rfl)
@[simp] theorem State.onGard_vat (k : GardSt → GardSt) : (s.onGard k).vat = s.vat := (rfl)
@[simp] theorem State.onGard_cell (k : GardSt → GardSt) : (s.onGard k).cell = s.cell := (rfl)
@[simp] theorem State.onGard_cmdq (k : GardSt → GardSt) : (s.onGard k).cmdq = s.cmdq := (rfl)
@[simp] theorem State.onGard_regn (k : GardSt → GardSt) : (s.onGard k).regn = s.regn := (rfl)
@[simp] theorem State.onGard_jrnl (k : GardSt → GardSt) : (s.onGard k).jrnl = s.jrnl := (rfl)
@[simp] theorem State.onGard_cmpr (k : GardSt → GardSt) : (s.onGard k).cmpr = s.cmpr := (rfl)
@[simp] theorem State.onGard_plce (k : GardSt → GardSt) : (s.onGard k).plce = s.plce := (rfl)
@[simp] theorem State.onGard_strp (k : GardSt → GardSt) : (s.onGard k).strp = s.strp := (rfl)
@[simp] theorem State.onGard_drvp (k : GardSt → GardSt) : (s.onGard k).drvp = s.drvp := (rfl)
@[simp] theorem State.onGard_pair (k : GardSt → GardSt) : (s.onGard k).pair = s.pair := (rfl)
@[simp] theorem State.onGard_bayp (k : GardSt → GardSt) : (s.onGard k).bayp = s.bayp := (rfl)
@[simp] theorem State.onGard_pol (k : GardSt → GardSt) : (s.onGard k).pol = s.pol := (rfl)
@[simp] theorem State.onGard_tap (k : GardSt → GardSt) : (s.onGard k).tap = s.tap := (rfl)
@[simp] theorem State.onGard_now (k : GardSt → GardSt) : (s.onGard k).now = s.now := (rfl)
@[simp] theorem State.onGard_drawn (k : GardSt → GardSt) : (s.onGard k).drawn = s.drawn := (rfl)
@[simp] theorem State.onGard_pending (k : GardSt → GardSt) : (s.onGard k).pending = s.pending := (rfl)
@[simp] theorem State.onTmgr_fab (k : TmgrSt → TmgrSt) : (s.onTmgr k).fab = s.fab := (rfl)
@[simp] theorem State.onTmgr_line (k : TmgrSt → TmgrSt) : (s.onTmgr k).line = s.line := (rfl)
@[simp] theorem State.onTmgr_ptp (k : TmgrSt → TmgrSt) : (s.onTmgr k).ptp = s.ptp := (rfl)
@[simp] theorem State.onTmgr_xprt (k : TmgrSt → TmgrSt) : (s.onTmgr k).xprt = s.xprt := (rfl)
@[simp] theorem State.onTmgr_gard (k : TmgrSt → TmgrSt) : (s.onTmgr k).gard = s.gard := (rfl)
@[simp] theorem State.onTmgr_tmgr (k : TmgrSt → TmgrSt) : (s.onTmgr k).tmgr = k s.tmgr := (rfl)
@[simp] theorem State.onTmgr_vat (k : TmgrSt → TmgrSt) : (s.onTmgr k).vat = s.vat := (rfl)
@[simp] theorem State.onTmgr_cell (k : TmgrSt → TmgrSt) : (s.onTmgr k).cell = s.cell := (rfl)
@[simp] theorem State.onTmgr_cmdq (k : TmgrSt → TmgrSt) : (s.onTmgr k).cmdq = s.cmdq := (rfl)
@[simp] theorem State.onTmgr_regn (k : TmgrSt → TmgrSt) : (s.onTmgr k).regn = s.regn := (rfl)
@[simp] theorem State.onTmgr_jrnl (k : TmgrSt → TmgrSt) : (s.onTmgr k).jrnl = s.jrnl := (rfl)
@[simp] theorem State.onTmgr_cmpr (k : TmgrSt → TmgrSt) : (s.onTmgr k).cmpr = s.cmpr := (rfl)
@[simp] theorem State.onTmgr_plce (k : TmgrSt → TmgrSt) : (s.onTmgr k).plce = s.plce := (rfl)
@[simp] theorem State.onTmgr_strp (k : TmgrSt → TmgrSt) : (s.onTmgr k).strp = s.strp := (rfl)
@[simp] theorem State.onTmgr_drvp (k : TmgrSt → TmgrSt) : (s.onTmgr k).drvp = s.drvp := (rfl)
@[simp] theorem State.onTmgr_pair (k : TmgrSt → TmgrSt) : (s.onTmgr k).pair = s.pair := (rfl)
@[simp] theorem State.onTmgr_bayp (k : TmgrSt → TmgrSt) : (s.onTmgr k).bayp = s.bayp := (rfl)
@[simp] theorem State.onTmgr_pol (k : TmgrSt → TmgrSt) : (s.onTmgr k).pol = s.pol := (rfl)
@[simp] theorem State.onTmgr_tap (k : TmgrSt → TmgrSt) : (s.onTmgr k).tap = s.tap := (rfl)
@[simp] theorem State.onTmgr_now (k : TmgrSt → TmgrSt) : (s.onTmgr k).now = s.now := (rfl)
@[simp] theorem State.onTmgr_drawn (k : TmgrSt → TmgrSt) : (s.onTmgr k).drawn = s.drawn := (rfl)
@[simp] theorem State.onTmgr_pending (k : TmgrSt → TmgrSt) : (s.onTmgr k).pending = s.pending := (rfl)
@[simp] theorem State.onVat_fab (k : VatSt → VatSt) : (s.onVat k).fab = s.fab := (rfl)
@[simp] theorem State.onVat_line (k : VatSt → VatSt) : (s.onVat k).line = s.line := (rfl)
@[simp] theorem State.onVat_ptp (k : VatSt → VatSt) : (s.onVat k).ptp = s.ptp := (rfl)
@[simp] theorem State.onVat_xprt (k : VatSt → VatSt) : (s.onVat k).xprt = s.xprt := (rfl)
@[simp] theorem State.onVat_gard (k : VatSt → VatSt) : (s.onVat k).gard = s.gard := (rfl)
@[simp] theorem State.onVat_tmgr (k : VatSt → VatSt) : (s.onVat k).tmgr = s.tmgr := (rfl)
@[simp] theorem State.onVat_vat (k : VatSt → VatSt) : (s.onVat k).vat = k s.vat := (rfl)
@[simp] theorem State.onVat_cell (k : VatSt → VatSt) : (s.onVat k).cell = s.cell := (rfl)
@[simp] theorem State.onVat_cmdq (k : VatSt → VatSt) : (s.onVat k).cmdq = s.cmdq := (rfl)
@[simp] theorem State.onVat_regn (k : VatSt → VatSt) : (s.onVat k).regn = s.regn := (rfl)
@[simp] theorem State.onVat_jrnl (k : VatSt → VatSt) : (s.onVat k).jrnl = s.jrnl := (rfl)
@[simp] theorem State.onVat_cmpr (k : VatSt → VatSt) : (s.onVat k).cmpr = s.cmpr := (rfl)
@[simp] theorem State.onVat_plce (k : VatSt → VatSt) : (s.onVat k).plce = s.plce := (rfl)
@[simp] theorem State.onVat_strp (k : VatSt → VatSt) : (s.onVat k).strp = s.strp := (rfl)
@[simp] theorem State.onVat_drvp (k : VatSt → VatSt) : (s.onVat k).drvp = s.drvp := (rfl)
@[simp] theorem State.onVat_pair (k : VatSt → VatSt) : (s.onVat k).pair = s.pair := (rfl)
@[simp] theorem State.onVat_bayp (k : VatSt → VatSt) : (s.onVat k).bayp = s.bayp := (rfl)
@[simp] theorem State.onVat_pol (k : VatSt → VatSt) : (s.onVat k).pol = s.pol := (rfl)
@[simp] theorem State.onVat_tap (k : VatSt → VatSt) : (s.onVat k).tap = s.tap := (rfl)
@[simp] theorem State.onVat_now (k : VatSt → VatSt) : (s.onVat k).now = s.now := (rfl)
@[simp] theorem State.onVat_drawn (k : VatSt → VatSt) : (s.onVat k).drawn = s.drawn := (rfl)
@[simp] theorem State.onVat_pending (k : VatSt → VatSt) : (s.onVat k).pending = s.pending := (rfl)
@[simp] theorem State.onCell_fab (k : CellSt → CellSt) : (s.onCell k).fab = s.fab := (rfl)
@[simp] theorem State.onCell_line (k : CellSt → CellSt) : (s.onCell k).line = s.line := (rfl)
@[simp] theorem State.onCell_ptp (k : CellSt → CellSt) : (s.onCell k).ptp = s.ptp := (rfl)
@[simp] theorem State.onCell_xprt (k : CellSt → CellSt) : (s.onCell k).xprt = s.xprt := (rfl)
@[simp] theorem State.onCell_gard (k : CellSt → CellSt) : (s.onCell k).gard = s.gard := (rfl)
@[simp] theorem State.onCell_tmgr (k : CellSt → CellSt) : (s.onCell k).tmgr = s.tmgr := (rfl)
@[simp] theorem State.onCell_vat (k : CellSt → CellSt) : (s.onCell k).vat = s.vat := (rfl)
@[simp] theorem State.onCell_cell (k : CellSt → CellSt) : (s.onCell k).cell = k s.cell := (rfl)
@[simp] theorem State.onCell_cmdq (k : CellSt → CellSt) : (s.onCell k).cmdq = s.cmdq := (rfl)
@[simp] theorem State.onCell_regn (k : CellSt → CellSt) : (s.onCell k).regn = s.regn := (rfl)
@[simp] theorem State.onCell_jrnl (k : CellSt → CellSt) : (s.onCell k).jrnl = s.jrnl := (rfl)
@[simp] theorem State.onCell_cmpr (k : CellSt → CellSt) : (s.onCell k).cmpr = s.cmpr := (rfl)
@[simp] theorem State.onCell_plce (k : CellSt → CellSt) : (s.onCell k).plce = s.plce := (rfl)
@[simp] theorem State.onCell_strp (k : CellSt → CellSt) : (s.onCell k).strp = s.strp := (rfl)
@[simp] theorem State.onCell_drvp (k : CellSt → CellSt) : (s.onCell k).drvp = s.drvp := (rfl)
@[simp] theorem State.onCell_pair (k : CellSt → CellSt) : (s.onCell k).pair = s.pair := (rfl)
@[simp] theorem State.onCell_bayp (k : CellSt → CellSt) : (s.onCell k).bayp = s.bayp := (rfl)
@[simp] theorem State.onCell_pol (k : CellSt → CellSt) : (s.onCell k).pol = s.pol := (rfl)
@[simp] theorem State.onCell_tap (k : CellSt → CellSt) : (s.onCell k).tap = s.tap := (rfl)
@[simp] theorem State.onCell_now (k : CellSt → CellSt) : (s.onCell k).now = s.now := (rfl)
@[simp] theorem State.onCell_drawn (k : CellSt → CellSt) : (s.onCell k).drawn = s.drawn := (rfl)
@[simp] theorem State.onCell_pending (k : CellSt → CellSt) : (s.onCell k).pending = s.pending := (rfl)
@[simp] theorem State.onCmdq_fab (k : CmdqSt → CmdqSt) : (s.onCmdq k).fab = s.fab := (rfl)
@[simp] theorem State.onCmdq_line (k : CmdqSt → CmdqSt) : (s.onCmdq k).line = s.line := (rfl)
@[simp] theorem State.onCmdq_ptp (k : CmdqSt → CmdqSt) : (s.onCmdq k).ptp = s.ptp := (rfl)
@[simp] theorem State.onCmdq_xprt (k : CmdqSt → CmdqSt) : (s.onCmdq k).xprt = s.xprt := (rfl)
@[simp] theorem State.onCmdq_gard (k : CmdqSt → CmdqSt) : (s.onCmdq k).gard = s.gard := (rfl)
@[simp] theorem State.onCmdq_tmgr (k : CmdqSt → CmdqSt) : (s.onCmdq k).tmgr = s.tmgr := (rfl)
@[simp] theorem State.onCmdq_vat (k : CmdqSt → CmdqSt) : (s.onCmdq k).vat = s.vat := (rfl)
@[simp] theorem State.onCmdq_cell (k : CmdqSt → CmdqSt) : (s.onCmdq k).cell = s.cell := (rfl)
@[simp] theorem State.onCmdq_cmdq (k : CmdqSt → CmdqSt) : (s.onCmdq k).cmdq = k s.cmdq := (rfl)
@[simp] theorem State.onCmdq_regn (k : CmdqSt → CmdqSt) : (s.onCmdq k).regn = s.regn := (rfl)
@[simp] theorem State.onCmdq_jrnl (k : CmdqSt → CmdqSt) : (s.onCmdq k).jrnl = s.jrnl := (rfl)
@[simp] theorem State.onCmdq_cmpr (k : CmdqSt → CmdqSt) : (s.onCmdq k).cmpr = s.cmpr := (rfl)
@[simp] theorem State.onCmdq_plce (k : CmdqSt → CmdqSt) : (s.onCmdq k).plce = s.plce := (rfl)
@[simp] theorem State.onCmdq_strp (k : CmdqSt → CmdqSt) : (s.onCmdq k).strp = s.strp := (rfl)
@[simp] theorem State.onCmdq_drvp (k : CmdqSt → CmdqSt) : (s.onCmdq k).drvp = s.drvp := (rfl)
@[simp] theorem State.onCmdq_pair (k : CmdqSt → CmdqSt) : (s.onCmdq k).pair = s.pair := (rfl)
@[simp] theorem State.onCmdq_bayp (k : CmdqSt → CmdqSt) : (s.onCmdq k).bayp = s.bayp := (rfl)
@[simp] theorem State.onCmdq_pol (k : CmdqSt → CmdqSt) : (s.onCmdq k).pol = s.pol := (rfl)
@[simp] theorem State.onCmdq_tap (k : CmdqSt → CmdqSt) : (s.onCmdq k).tap = s.tap := (rfl)
@[simp] theorem State.onCmdq_now (k : CmdqSt → CmdqSt) : (s.onCmdq k).now = s.now := (rfl)
@[simp] theorem State.onCmdq_drawn (k : CmdqSt → CmdqSt) : (s.onCmdq k).drawn = s.drawn := (rfl)
@[simp] theorem State.onCmdq_pending (k : CmdqSt → CmdqSt) : (s.onCmdq k).pending = s.pending := (rfl)
@[simp] theorem State.onRegn_fab (k : RegnSt → RegnSt) : (s.onRegn k).fab = s.fab := (rfl)
@[simp] theorem State.onRegn_line (k : RegnSt → RegnSt) : (s.onRegn k).line = s.line := (rfl)
@[simp] theorem State.onRegn_ptp (k : RegnSt → RegnSt) : (s.onRegn k).ptp = s.ptp := (rfl)
@[simp] theorem State.onRegn_xprt (k : RegnSt → RegnSt) : (s.onRegn k).xprt = s.xprt := (rfl)
@[simp] theorem State.onRegn_gard (k : RegnSt → RegnSt) : (s.onRegn k).gard = s.gard := (rfl)
@[simp] theorem State.onRegn_tmgr (k : RegnSt → RegnSt) : (s.onRegn k).tmgr = s.tmgr := (rfl)
@[simp] theorem State.onRegn_vat (k : RegnSt → RegnSt) : (s.onRegn k).vat = s.vat := (rfl)
@[simp] theorem State.onRegn_cell (k : RegnSt → RegnSt) : (s.onRegn k).cell = s.cell := (rfl)
@[simp] theorem State.onRegn_cmdq (k : RegnSt → RegnSt) : (s.onRegn k).cmdq = s.cmdq := (rfl)
@[simp] theorem State.onRegn_regn (k : RegnSt → RegnSt) : (s.onRegn k).regn = k s.regn := (rfl)
@[simp] theorem State.onRegn_jrnl (k : RegnSt → RegnSt) : (s.onRegn k).jrnl = s.jrnl := (rfl)
@[simp] theorem State.onRegn_cmpr (k : RegnSt → RegnSt) : (s.onRegn k).cmpr = s.cmpr := (rfl)
@[simp] theorem State.onRegn_plce (k : RegnSt → RegnSt) : (s.onRegn k).plce = s.plce := (rfl)
@[simp] theorem State.onRegn_strp (k : RegnSt → RegnSt) : (s.onRegn k).strp = s.strp := (rfl)
@[simp] theorem State.onRegn_drvp (k : RegnSt → RegnSt) : (s.onRegn k).drvp = s.drvp := (rfl)
@[simp] theorem State.onRegn_pair (k : RegnSt → RegnSt) : (s.onRegn k).pair = s.pair := (rfl)
@[simp] theorem State.onRegn_bayp (k : RegnSt → RegnSt) : (s.onRegn k).bayp = s.bayp := (rfl)
@[simp] theorem State.onRegn_pol (k : RegnSt → RegnSt) : (s.onRegn k).pol = s.pol := (rfl)
@[simp] theorem State.onRegn_tap (k : RegnSt → RegnSt) : (s.onRegn k).tap = s.tap := (rfl)
@[simp] theorem State.onRegn_now (k : RegnSt → RegnSt) : (s.onRegn k).now = s.now := (rfl)
@[simp] theorem State.onRegn_drawn (k : RegnSt → RegnSt) : (s.onRegn k).drawn = s.drawn := (rfl)
@[simp] theorem State.onRegn_pending (k : RegnSt → RegnSt) : (s.onRegn k).pending = s.pending := (rfl)
@[simp] theorem State.onJrnl_fab (k : JrnlSt → JrnlSt) : (s.onJrnl k).fab = s.fab := (rfl)
@[simp] theorem State.onJrnl_line (k : JrnlSt → JrnlSt) : (s.onJrnl k).line = s.line := (rfl)
@[simp] theorem State.onJrnl_ptp (k : JrnlSt → JrnlSt) : (s.onJrnl k).ptp = s.ptp := (rfl)
@[simp] theorem State.onJrnl_xprt (k : JrnlSt → JrnlSt) : (s.onJrnl k).xprt = s.xprt := (rfl)
@[simp] theorem State.onJrnl_gard (k : JrnlSt → JrnlSt) : (s.onJrnl k).gard = s.gard := (rfl)
@[simp] theorem State.onJrnl_tmgr (k : JrnlSt → JrnlSt) : (s.onJrnl k).tmgr = s.tmgr := (rfl)
@[simp] theorem State.onJrnl_vat (k : JrnlSt → JrnlSt) : (s.onJrnl k).vat = s.vat := (rfl)
@[simp] theorem State.onJrnl_cell (k : JrnlSt → JrnlSt) : (s.onJrnl k).cell = s.cell := (rfl)
@[simp] theorem State.onJrnl_cmdq (k : JrnlSt → JrnlSt) : (s.onJrnl k).cmdq = s.cmdq := (rfl)
@[simp] theorem State.onJrnl_regn (k : JrnlSt → JrnlSt) : (s.onJrnl k).regn = s.regn := (rfl)
@[simp] theorem State.onJrnl_jrnl (k : JrnlSt → JrnlSt) : (s.onJrnl k).jrnl = k s.jrnl := (rfl)
@[simp] theorem State.onJrnl_cmpr (k : JrnlSt → JrnlSt) : (s.onJrnl k).cmpr = s.cmpr := (rfl)
@[simp] theorem State.onJrnl_plce (k : JrnlSt → JrnlSt) : (s.onJrnl k).plce = s.plce := (rfl)
@[simp] theorem State.onJrnl_strp (k : JrnlSt → JrnlSt) : (s.onJrnl k).strp = s.strp := (rfl)
@[simp] theorem State.onJrnl_drvp (k : JrnlSt → JrnlSt) : (s.onJrnl k).drvp = s.drvp := (rfl)
@[simp] theorem State.onJrnl_pair (k : JrnlSt → JrnlSt) : (s.onJrnl k).pair = s.pair := (rfl)
@[simp] theorem State.onJrnl_bayp (k : JrnlSt → JrnlSt) : (s.onJrnl k).bayp = s.bayp := (rfl)
@[simp] theorem State.onJrnl_pol (k : JrnlSt → JrnlSt) : (s.onJrnl k).pol = s.pol := (rfl)
@[simp] theorem State.onJrnl_tap (k : JrnlSt → JrnlSt) : (s.onJrnl k).tap = s.tap := (rfl)
@[simp] theorem State.onJrnl_now (k : JrnlSt → JrnlSt) : (s.onJrnl k).now = s.now := (rfl)
@[simp] theorem State.onJrnl_drawn (k : JrnlSt → JrnlSt) : (s.onJrnl k).drawn = s.drawn := (rfl)
@[simp] theorem State.onJrnl_pending (k : JrnlSt → JrnlSt) : (s.onJrnl k).pending = s.pending := (rfl)
@[simp] theorem State.onCmpr_fab (k : CmprSt → CmprSt) : (s.onCmpr k).fab = s.fab := (rfl)
@[simp] theorem State.onCmpr_line (k : CmprSt → CmprSt) : (s.onCmpr k).line = s.line := (rfl)
@[simp] theorem State.onCmpr_ptp (k : CmprSt → CmprSt) : (s.onCmpr k).ptp = s.ptp := (rfl)
@[simp] theorem State.onCmpr_xprt (k : CmprSt → CmprSt) : (s.onCmpr k).xprt = s.xprt := (rfl)
@[simp] theorem State.onCmpr_gard (k : CmprSt → CmprSt) : (s.onCmpr k).gard = s.gard := (rfl)
@[simp] theorem State.onCmpr_tmgr (k : CmprSt → CmprSt) : (s.onCmpr k).tmgr = s.tmgr := (rfl)
@[simp] theorem State.onCmpr_vat (k : CmprSt → CmprSt) : (s.onCmpr k).vat = s.vat := (rfl)
@[simp] theorem State.onCmpr_cell (k : CmprSt → CmprSt) : (s.onCmpr k).cell = s.cell := (rfl)
@[simp] theorem State.onCmpr_cmdq (k : CmprSt → CmprSt) : (s.onCmpr k).cmdq = s.cmdq := (rfl)
@[simp] theorem State.onCmpr_regn (k : CmprSt → CmprSt) : (s.onCmpr k).regn = s.regn := (rfl)
@[simp] theorem State.onCmpr_jrnl (k : CmprSt → CmprSt) : (s.onCmpr k).jrnl = s.jrnl := (rfl)
@[simp] theorem State.onCmpr_cmpr (k : CmprSt → CmprSt) : (s.onCmpr k).cmpr = k s.cmpr := (rfl)
@[simp] theorem State.onCmpr_plce (k : CmprSt → CmprSt) : (s.onCmpr k).plce = s.plce := (rfl)
@[simp] theorem State.onCmpr_strp (k : CmprSt → CmprSt) : (s.onCmpr k).strp = s.strp := (rfl)
@[simp] theorem State.onCmpr_drvp (k : CmprSt → CmprSt) : (s.onCmpr k).drvp = s.drvp := (rfl)
@[simp] theorem State.onCmpr_pair (k : CmprSt → CmprSt) : (s.onCmpr k).pair = s.pair := (rfl)
@[simp] theorem State.onCmpr_bayp (k : CmprSt → CmprSt) : (s.onCmpr k).bayp = s.bayp := (rfl)
@[simp] theorem State.onCmpr_pol (k : CmprSt → CmprSt) : (s.onCmpr k).pol = s.pol := (rfl)
@[simp] theorem State.onCmpr_tap (k : CmprSt → CmprSt) : (s.onCmpr k).tap = s.tap := (rfl)
@[simp] theorem State.onCmpr_now (k : CmprSt → CmprSt) : (s.onCmpr k).now = s.now := (rfl)
@[simp] theorem State.onCmpr_drawn (k : CmprSt → CmprSt) : (s.onCmpr k).drawn = s.drawn := (rfl)
@[simp] theorem State.onCmpr_pending (k : CmprSt → CmprSt) : (s.onCmpr k).pending = s.pending := (rfl)
@[simp] theorem State.onPlce_fab (k : PlceSt → PlceSt) : (s.onPlce k).fab = s.fab := (rfl)
@[simp] theorem State.onPlce_line (k : PlceSt → PlceSt) : (s.onPlce k).line = s.line := (rfl)
@[simp] theorem State.onPlce_ptp (k : PlceSt → PlceSt) : (s.onPlce k).ptp = s.ptp := (rfl)
@[simp] theorem State.onPlce_xprt (k : PlceSt → PlceSt) : (s.onPlce k).xprt = s.xprt := (rfl)
@[simp] theorem State.onPlce_gard (k : PlceSt → PlceSt) : (s.onPlce k).gard = s.gard := (rfl)
@[simp] theorem State.onPlce_tmgr (k : PlceSt → PlceSt) : (s.onPlce k).tmgr = s.tmgr := (rfl)
@[simp] theorem State.onPlce_vat (k : PlceSt → PlceSt) : (s.onPlce k).vat = s.vat := (rfl)
@[simp] theorem State.onPlce_cell (k : PlceSt → PlceSt) : (s.onPlce k).cell = s.cell := (rfl)
@[simp] theorem State.onPlce_cmdq (k : PlceSt → PlceSt) : (s.onPlce k).cmdq = s.cmdq := (rfl)
@[simp] theorem State.onPlce_regn (k : PlceSt → PlceSt) : (s.onPlce k).regn = s.regn := (rfl)
@[simp] theorem State.onPlce_jrnl (k : PlceSt → PlceSt) : (s.onPlce k).jrnl = s.jrnl := (rfl)
@[simp] theorem State.onPlce_cmpr (k : PlceSt → PlceSt) : (s.onPlce k).cmpr = s.cmpr := (rfl)
@[simp] theorem State.onPlce_plce (k : PlceSt → PlceSt) : (s.onPlce k).plce = k s.plce := (rfl)
@[simp] theorem State.onPlce_strp (k : PlceSt → PlceSt) : (s.onPlce k).strp = s.strp := (rfl)
@[simp] theorem State.onPlce_drvp (k : PlceSt → PlceSt) : (s.onPlce k).drvp = s.drvp := (rfl)
@[simp] theorem State.onPlce_pair (k : PlceSt → PlceSt) : (s.onPlce k).pair = s.pair := (rfl)
@[simp] theorem State.onPlce_bayp (k : PlceSt → PlceSt) : (s.onPlce k).bayp = s.bayp := (rfl)
@[simp] theorem State.onPlce_pol (k : PlceSt → PlceSt) : (s.onPlce k).pol = s.pol := (rfl)
@[simp] theorem State.onPlce_tap (k : PlceSt → PlceSt) : (s.onPlce k).tap = s.tap := (rfl)
@[simp] theorem State.onPlce_now (k : PlceSt → PlceSt) : (s.onPlce k).now = s.now := (rfl)
@[simp] theorem State.onPlce_drawn (k : PlceSt → PlceSt) : (s.onPlce k).drawn = s.drawn := (rfl)
@[simp] theorem State.onPlce_pending (k : PlceSt → PlceSt) : (s.onPlce k).pending = s.pending := (rfl)
@[simp] theorem State.onStrp_fab (k : StrpSt → StrpSt) : (s.onStrp k).fab = s.fab := (rfl)
@[simp] theorem State.onStrp_line (k : StrpSt → StrpSt) : (s.onStrp k).line = s.line := (rfl)
@[simp] theorem State.onStrp_ptp (k : StrpSt → StrpSt) : (s.onStrp k).ptp = s.ptp := (rfl)
@[simp] theorem State.onStrp_xprt (k : StrpSt → StrpSt) : (s.onStrp k).xprt = s.xprt := (rfl)
@[simp] theorem State.onStrp_gard (k : StrpSt → StrpSt) : (s.onStrp k).gard = s.gard := (rfl)
@[simp] theorem State.onStrp_tmgr (k : StrpSt → StrpSt) : (s.onStrp k).tmgr = s.tmgr := (rfl)
@[simp] theorem State.onStrp_vat (k : StrpSt → StrpSt) : (s.onStrp k).vat = s.vat := (rfl)
@[simp] theorem State.onStrp_cell (k : StrpSt → StrpSt) : (s.onStrp k).cell = s.cell := (rfl)
@[simp] theorem State.onStrp_cmdq (k : StrpSt → StrpSt) : (s.onStrp k).cmdq = s.cmdq := (rfl)
@[simp] theorem State.onStrp_regn (k : StrpSt → StrpSt) : (s.onStrp k).regn = s.regn := (rfl)
@[simp] theorem State.onStrp_jrnl (k : StrpSt → StrpSt) : (s.onStrp k).jrnl = s.jrnl := (rfl)
@[simp] theorem State.onStrp_cmpr (k : StrpSt → StrpSt) : (s.onStrp k).cmpr = s.cmpr := (rfl)
@[simp] theorem State.onStrp_plce (k : StrpSt → StrpSt) : (s.onStrp k).plce = s.plce := (rfl)
@[simp] theorem State.onStrp_strp (k : StrpSt → StrpSt) : (s.onStrp k).strp = k s.strp := (rfl)
@[simp] theorem State.onStrp_drvp (k : StrpSt → StrpSt) : (s.onStrp k).drvp = s.drvp := (rfl)
@[simp] theorem State.onStrp_pair (k : StrpSt → StrpSt) : (s.onStrp k).pair = s.pair := (rfl)
@[simp] theorem State.onStrp_bayp (k : StrpSt → StrpSt) : (s.onStrp k).bayp = s.bayp := (rfl)
@[simp] theorem State.onStrp_pol (k : StrpSt → StrpSt) : (s.onStrp k).pol = s.pol := (rfl)
@[simp] theorem State.onStrp_tap (k : StrpSt → StrpSt) : (s.onStrp k).tap = s.tap := (rfl)
@[simp] theorem State.onStrp_now (k : StrpSt → StrpSt) : (s.onStrp k).now = s.now := (rfl)
@[simp] theorem State.onStrp_drawn (k : StrpSt → StrpSt) : (s.onStrp k).drawn = s.drawn := (rfl)
@[simp] theorem State.onStrp_pending (k : StrpSt → StrpSt) : (s.onStrp k).pending = s.pending := (rfl)
@[simp] theorem State.onDrvp_fab (k : DrvpSt → DrvpSt) : (s.onDrvp k).fab = s.fab := (rfl)
@[simp] theorem State.onDrvp_line (k : DrvpSt → DrvpSt) : (s.onDrvp k).line = s.line := (rfl)
@[simp] theorem State.onDrvp_ptp (k : DrvpSt → DrvpSt) : (s.onDrvp k).ptp = s.ptp := (rfl)
@[simp] theorem State.onDrvp_xprt (k : DrvpSt → DrvpSt) : (s.onDrvp k).xprt = s.xprt := (rfl)
@[simp] theorem State.onDrvp_gard (k : DrvpSt → DrvpSt) : (s.onDrvp k).gard = s.gard := (rfl)
@[simp] theorem State.onDrvp_tmgr (k : DrvpSt → DrvpSt) : (s.onDrvp k).tmgr = s.tmgr := (rfl)
@[simp] theorem State.onDrvp_vat (k : DrvpSt → DrvpSt) : (s.onDrvp k).vat = s.vat := (rfl)
@[simp] theorem State.onDrvp_cell (k : DrvpSt → DrvpSt) : (s.onDrvp k).cell = s.cell := (rfl)
@[simp] theorem State.onDrvp_cmdq (k : DrvpSt → DrvpSt) : (s.onDrvp k).cmdq = s.cmdq := (rfl)
@[simp] theorem State.onDrvp_regn (k : DrvpSt → DrvpSt) : (s.onDrvp k).regn = s.regn := (rfl)
@[simp] theorem State.onDrvp_jrnl (k : DrvpSt → DrvpSt) : (s.onDrvp k).jrnl = s.jrnl := (rfl)
@[simp] theorem State.onDrvp_cmpr (k : DrvpSt → DrvpSt) : (s.onDrvp k).cmpr = s.cmpr := (rfl)
@[simp] theorem State.onDrvp_plce (k : DrvpSt → DrvpSt) : (s.onDrvp k).plce = s.plce := (rfl)
@[simp] theorem State.onDrvp_strp (k : DrvpSt → DrvpSt) : (s.onDrvp k).strp = s.strp := (rfl)
@[simp] theorem State.onDrvp_drvp (k : DrvpSt → DrvpSt) : (s.onDrvp k).drvp = k s.drvp := (rfl)
@[simp] theorem State.onDrvp_pair (k : DrvpSt → DrvpSt) : (s.onDrvp k).pair = s.pair := (rfl)
@[simp] theorem State.onDrvp_bayp (k : DrvpSt → DrvpSt) : (s.onDrvp k).bayp = s.bayp := (rfl)
@[simp] theorem State.onDrvp_pol (k : DrvpSt → DrvpSt) : (s.onDrvp k).pol = s.pol := (rfl)
@[simp] theorem State.onDrvp_tap (k : DrvpSt → DrvpSt) : (s.onDrvp k).tap = s.tap := (rfl)
@[simp] theorem State.onDrvp_now (k : DrvpSt → DrvpSt) : (s.onDrvp k).now = s.now := (rfl)
@[simp] theorem State.onDrvp_drawn (k : DrvpSt → DrvpSt) : (s.onDrvp k).drawn = s.drawn := (rfl)
@[simp] theorem State.onDrvp_pending (k : DrvpSt → DrvpSt) : (s.onDrvp k).pending = s.pending := (rfl)
@[simp] theorem State.onPair_fab (k : PairSt → PairSt) : (s.onPair k).fab = s.fab := (rfl)
@[simp] theorem State.onPair_line (k : PairSt → PairSt) : (s.onPair k).line = s.line := (rfl)
@[simp] theorem State.onPair_ptp (k : PairSt → PairSt) : (s.onPair k).ptp = s.ptp := (rfl)
@[simp] theorem State.onPair_xprt (k : PairSt → PairSt) : (s.onPair k).xprt = s.xprt := (rfl)
@[simp] theorem State.onPair_gard (k : PairSt → PairSt) : (s.onPair k).gard = s.gard := (rfl)
@[simp] theorem State.onPair_tmgr (k : PairSt → PairSt) : (s.onPair k).tmgr = s.tmgr := (rfl)
@[simp] theorem State.onPair_vat (k : PairSt → PairSt) : (s.onPair k).vat = s.vat := (rfl)
@[simp] theorem State.onPair_cell (k : PairSt → PairSt) : (s.onPair k).cell = s.cell := (rfl)
@[simp] theorem State.onPair_cmdq (k : PairSt → PairSt) : (s.onPair k).cmdq = s.cmdq := (rfl)
@[simp] theorem State.onPair_regn (k : PairSt → PairSt) : (s.onPair k).regn = s.regn := (rfl)
@[simp] theorem State.onPair_jrnl (k : PairSt → PairSt) : (s.onPair k).jrnl = s.jrnl := (rfl)
@[simp] theorem State.onPair_cmpr (k : PairSt → PairSt) : (s.onPair k).cmpr = s.cmpr := (rfl)
@[simp] theorem State.onPair_plce (k : PairSt → PairSt) : (s.onPair k).plce = s.plce := (rfl)
@[simp] theorem State.onPair_strp (k : PairSt → PairSt) : (s.onPair k).strp = s.strp := (rfl)
@[simp] theorem State.onPair_drvp (k : PairSt → PairSt) : (s.onPair k).drvp = s.drvp := (rfl)
@[simp] theorem State.onPair_pair (k : PairSt → PairSt) : (s.onPair k).pair = k s.pair := (rfl)
@[simp] theorem State.onPair_bayp (k : PairSt → PairSt) : (s.onPair k).bayp = s.bayp := (rfl)
@[simp] theorem State.onPair_pol (k : PairSt → PairSt) : (s.onPair k).pol = s.pol := (rfl)
@[simp] theorem State.onPair_tap (k : PairSt → PairSt) : (s.onPair k).tap = s.tap := (rfl)
@[simp] theorem State.onPair_now (k : PairSt → PairSt) : (s.onPair k).now = s.now := (rfl)
@[simp] theorem State.onPair_drawn (k : PairSt → PairSt) : (s.onPair k).drawn = s.drawn := (rfl)
@[simp] theorem State.onPair_pending (k : PairSt → PairSt) : (s.onPair k).pending = s.pending := (rfl)
@[simp] theorem State.onPol_fab (k : PolSt → PolSt) : (s.onPol k).fab = s.fab := (rfl)
@[simp] theorem State.onPol_line (k : PolSt → PolSt) : (s.onPol k).line = s.line := (rfl)
@[simp] theorem State.onPol_ptp (k : PolSt → PolSt) : (s.onPol k).ptp = s.ptp := (rfl)
@[simp] theorem State.onPol_xprt (k : PolSt → PolSt) : (s.onPol k).xprt = s.xprt := (rfl)
@[simp] theorem State.onPol_gard (k : PolSt → PolSt) : (s.onPol k).gard = s.gard := (rfl)
@[simp] theorem State.onPol_tmgr (k : PolSt → PolSt) : (s.onPol k).tmgr = s.tmgr := (rfl)
@[simp] theorem State.onPol_vat (k : PolSt → PolSt) : (s.onPol k).vat = s.vat := (rfl)
@[simp] theorem State.onPol_cell (k : PolSt → PolSt) : (s.onPol k).cell = s.cell := (rfl)
@[simp] theorem State.onPol_cmdq (k : PolSt → PolSt) : (s.onPol k).cmdq = s.cmdq := (rfl)
@[simp] theorem State.onPol_regn (k : PolSt → PolSt) : (s.onPol k).regn = s.regn := (rfl)
@[simp] theorem State.onPol_jrnl (k : PolSt → PolSt) : (s.onPol k).jrnl = s.jrnl := (rfl)
@[simp] theorem State.onPol_cmpr (k : PolSt → PolSt) : (s.onPol k).cmpr = s.cmpr := (rfl)
@[simp] theorem State.onPol_plce (k : PolSt → PolSt) : (s.onPol k).plce = s.plce := (rfl)
@[simp] theorem State.onPol_strp (k : PolSt → PolSt) : (s.onPol k).strp = s.strp := (rfl)
@[simp] theorem State.onPol_drvp (k : PolSt → PolSt) : (s.onPol k).drvp = s.drvp := (rfl)
@[simp] theorem State.onPol_pair (k : PolSt → PolSt) : (s.onPol k).pair = s.pair := (rfl)
@[simp] theorem State.onPol_bayp (k : PolSt → PolSt) : (s.onPol k).bayp = s.bayp := (rfl)
@[simp] theorem State.onPol_pol (k : PolSt → PolSt) : (s.onPol k).pol = k s.pol := (rfl)
@[simp] theorem State.onPol_tap (k : PolSt → PolSt) : (s.onPol k).tap = s.tap := (rfl)
@[simp] theorem State.onPol_now (k : PolSt → PolSt) : (s.onPol k).now = s.now := (rfl)
@[simp] theorem State.onPol_drawn (k : PolSt → PolSt) : (s.onPol k).drawn = s.drawn := (rfl)
@[simp] theorem State.onPol_pending (k : PolSt → PolSt) : (s.onPol k).pending = s.pending := (rfl)
variable (p : Page) (x : Fld) (n m i : Nat) (e : Evt) (y : Src) (z : Emit) (w : PgEv)
@[simp] theorem State.setF_fab : (s.setF p x n).fab = Fab.setF p x n s.fab := State.onFab_fab _ (Fab.setF p x n)
@[simp] theorem State.setF_line : (s.setF p x n).line = s.line := State.onFab_line _ (Fab.setF p x n)
@[simp] theorem State.setF_ptp : (s.setF p x n).ptp = s.ptp := State.onFab_ptp _ (Fab.setF p x n)
@[simp] theorem State.setF_xprt : (s.setF p x n).xprt = s.xprt := State.onFab_xprt _ (Fab.setF p x n)
@[simp] theorem State.setF_gard : (s.setF p x n).gard = s.gard := State.onFab_gard _ (Fab.setF p x n)
@[simp] theorem State.setF_tmgr : (s.setF p x n).tmgr = s.tmgr := State.onFab_tmgr _ (Fab.setF p x n)
@[simp] theorem State.setF_vat : (s.setF p x n).vat = s.vat := State.onFab_vat _ (Fab.setF p x n)
@[simp] theorem State.setF_cell : (s.setF p x n).cell = s.cell := State.onFab_cell _ (Fab.setF p x n)
@[simp] theorem State.setF_cmdq : (s.setF p x n).cmdq = s.cmdq := State.onFab_cmdq _ (Fab.setF p x n)
@[simp] theorem State.setF_regn : (s.setF p x n).regn = s.regn := State.onFab_regn _ (Fab.setF p x n)
@[simp] theorem State.setF_jrnl : (s.setF p x n).jrnl = s.jrnl := State.onFab_jrnl _ (Fab.setF p x n)
@[simp] theorem State.setF_cmpr : (s.setF p x n).cmpr = s.cmpr := State.onFab_cmpr _ (Fab.setF p x n)
@[simp] theorem State.setF_plce : (s.setF p x n).plce = s.plce := State.onFab_plce _ (Fab.setF p x n)
@[simp] theorem State.setF_strp : (s.setF p x n).strp = s.strp := State.onFab_strp _ (Fab.setF p x n)
@[simp] theorem State.setF_drvp : (s.setF p x n).drvp = s.drvp := State.onFab_drvp _ (Fab.setF p x n)
@[simp] theorem State.setF_pair : (s.setF p x n).pair = s.pair := State.onFab_pair _ (Fab.setF p x n)
@[simp] theorem State.setF_bayp : (s.setF p x n).bayp = s.bayp := State.onFab_bayp _ (Fab.setF p x n)
@[simp] theorem State.setF_pol : (s.setF p x n).pol = s.pol := State.onFab_pol _ (Fab.setF p x n)
@[simp] theorem State.setF_tap : (s.setF p x n).tap = s.tap := State.onFab_tap _ (Fab.setF p x n)
@[simp] theorem State.setF_now : (s.setF p x n).now = s.now := State.onFab_now _ (Fab.setF p x n)
@[simp] theorem State.setF_drawn : (s.setF p x n).drawn = s.drawn := State.onFab_drawn _ (Fab.setF p x n)
@[simp] theorem State.setF_pending : (s.setF p x n).pending = s.pending := State.onFab_pending _ (Fab.setF p x n)
@[simp] theorem State.satAdd_fab : (s.satAdd p x n).fab = Fab.satAdd p x n s.fab := State.onFab_fab _ (Fab.satAdd p x n)
@[simp] theorem State.satAdd_line : (s.satAdd p x n).line = s.line := State.onFab_line _ (Fab.satAdd p x n)
@[simp] theorem State.satAdd_ptp : (s.satAdd p x n).ptp = s.ptp := State.onFab_ptp _ (Fab.satAdd p x n)
@[simp] theorem State.satAdd_xprt : (s.satAdd p x n).xprt = s.xprt := State.onFab_xprt _ (Fab.satAdd p x n)
@[simp] theorem State.satAdd_gard : (s.satAdd p x n).gard = s.gard := State.onFab_gard _ (Fab.satAdd p x n)
@[simp] theorem State.satAdd_tmgr : (s.satAdd p x n).tmgr = s.tmgr := State.onFab_tmgr _ (Fab.satAdd p x n)
@[simp] theorem State.satAdd_vat : (s.satAdd p x n).vat = s.vat := State.onFab_vat _ (Fab.satAdd p x n)
@[simp] theorem State.satAdd_cell : (s.satAdd p x n).cell = s.cell := State.onFab_cell _ (Fab.satAdd p x n)
@[simp] theorem State.satAdd_cmdq : (s.satAdd p x n).cmdq = s.cmdq := State.onFab_cmdq _ (Fab.satAdd p x n)
@[simp] theorem State.satAdd_regn : (s.satAdd p x n).regn = s.regn := State.onFab_regn _ (Fab.satAdd p x n)
@[simp] theorem State.satAdd_jrnl : (s.satAdd p x n).jrnl = s.jrnl := State.onFab_jrnl _ (Fab.satAdd p x n)
@[simp] theorem State.satAdd_cmpr : (s.satAdd p x n).cmpr = s.cmpr := State.onFab_cmpr _ (Fab.satAdd p x n)
@[simp] theorem State.satAdd_plce : (s.satAdd p x n).plce = s.plce := State.onFab_plce _ (Fab.satAdd p x n)
@[simp] theorem State.satAdd_strp : (s.satAdd p x n).strp = s.strp := State.onFab_strp _ (Fab.satAdd p x n)
@[simp] theorem State.satAdd_drvp : (s.satAdd p x n).drvp = s.drvp := State.onFab_drvp _ (Fab.satAdd p x n)
@[simp] theorem State.satAdd_pair : (s.satAdd p x n).pair = s.pair := State.onFab_pair _ (Fab.satAdd p x n)
@[simp] theorem State.satAdd_bayp : (s.satAdd p x n).bayp = s.bayp := State.onFab_bayp _ (Fab.satAdd p x n)
@[simp] theorem State.satAdd_pol : (s.satAdd p x n).pol = s.pol := State.onFab_pol _ (Fab.satAdd p x n)
@[simp] theorem State.satAdd_tap : (s.satAdd p x n).tap = s.tap := State.onFab_tap _ (Fab.satAdd p x n)
@[simp] theorem State.satAdd_now : (s.satAdd p x n).now = s.now := State.onFab_now _ (Fab.satAdd p x n)
@[simp] theorem State.satAdd_drawn : (s.satAdd p x n).drawn = s.drawn := State.onFab_drawn _ (Fab.satAdd p x n)
@[simp] theorem State.satAdd_pending : (s.satAdd p x n).pending = s.pending := State.onFab_pending _ (Fab.satAdd p x n)
@[simp] theorem State.setTab_fab : (s.setTab p n m i).fab = Fab.setTab p false n m i s.fab := State.onFab_fab _ (Fab.setTab p false n m i)
@[simp] theorem State.setTab_line : (s.setTab p n m i).line = s.line := State.onFab_line _ (Fab.setTab p false n m i)
@[simp] theorem State.setTab_ptp : (s.setTab p n m i).ptp = s.ptp := State.onFab_ptp _ (Fab.setTab p false n m i)
@[simp] theorem State.setTab_xprt : (s.setTab p n m i).xprt = s.xprt := State.onFab_xprt _ (Fab.setTab p false n m i)
@[simp] theorem State.setTab_gard : (s.setTab p n m i).gard = s.gard := State.onFab_gard _ (Fab.setTab p false n m i)
@[simp] theorem State.setTab_tmgr : (s.setTab p n m i).tmgr = s.tmgr := State.onFab_tmgr _ (Fab.setTab p false n m i)
@[simp] theorem State.setTab_vat : (s.setTab p n m i).vat = s.vat := State.onFab_vat _ (Fab.setTab p false n m i)
@[simp] theorem State.setTab_cell : (s.setTab p n m i).cell = s.cell := State.onFab_cell _ (Fab.setTab p false n m i)
@[simp] theorem State.setTab_cmdq : (s.setTab p n m i).cmdq = s.cmdq := State.onFab_cmdq _ (Fab.setTab p false n m i)
@[simp] theorem State.setTab_regn : (s.setTab p n m i).regn = s.regn := State.onFab_regn _ (Fab.setTab p false n m i)
@[simp] theorem State.setTab_jrnl : (s.setTab p n m i).jrnl = s.jrnl := State.onFab_jrnl _ (Fab.setTab p false n m i)
@[simp] theorem State.setTab_cmpr : (s.setTab p n m i).cmpr = s.cmpr := State.onFab_cmpr _ (Fab.setTab p false n m i)
@[simp] theorem State.setTab_plce : (s.setTab p n m i).plce = s.plce := State.onFab_plce _ (Fab.setTab p false n m i)
@[simp] theorem State.setTab_strp : (s.setTab p n m i).strp = s.strp := State.onFab_strp _ (Fab.setTab p false n m i)
@[simp] theorem State.setTab_drvp : (s.setTab p n m i).drvp = s.drvp := State.onFab_drvp _ (Fab.setTab p false n m i)
@[simp] theorem State.setTab_pair : (s.setTab p n m i).pair = s.pair := State.onFab_pair _ (Fab.setTab p false n m i)
@[simp] theorem State.setTab_bayp : (s.setTab p n m i).bayp = s.bayp := State.onFab_bayp _ (Fab.setTab p false n m i)
@[simp] theorem State.setTab_pol : (s.setTab p n m i).pol = s.pol := State.onFab_pol _ (Fab.setTab p false n m i)
@[simp] theorem State.setTab_tap : (s.setTab p n m i).tap = s.tap := State.onFab_tap _ (Fab.setTab p false n m i)
@[simp] theorem State.setTab_now : (s.setTab p n m i).now = s.now := State.onFab_now _ (Fab.setTab p false n m i)
@[simp] theorem State.setTab_drawn : (s.setTab p n m i).drawn = s.drawn := State.onFab_drawn _ (Fab.setTab p false n m i)
@[simp] theorem State.setTab_pending : (s.setTab p n m i).pending = s.pending := State.onFab_pending _ (Fab.setTab p false n m i)
@[simp] theorem State.count_fab : (s.count e n).fab = Fab.count e n s.fab := State.onFab_fab _ (Fab.count e n)
@[simp] theorem State.count_line : (s.count e n).line = s.line := State.onFab_line _ (Fab.count e n)
@[simp] theorem State.count_ptp : (s.count e n).ptp = s.ptp := State.onFab_ptp _ (Fab.count e n)
@[simp] theorem State.count_xprt : (s.count e n).xprt = s.xprt := State.onFab_xprt _ (Fab.count e n)
@[simp] theorem State.count_gard : (s.count e n).gard = s.gard := State.onFab_gard _ (Fab.count e n)
@[simp] theorem State.count_tmgr : (s.count e n).tmgr = s.tmgr := State.onFab_tmgr _ (Fab.count e n)
@[simp] theorem State.count_vat : (s.count e n).vat = s.vat := State.onFab_vat _ (Fab.count e n)
@[simp] theorem State.count_cell : (s.count e n).cell = s.cell := State.onFab_cell _ (Fab.count e n)
@[simp] theorem State.count_cmdq : (s.count e n).cmdq = s.cmdq := State.onFab_cmdq _ (Fab.count e n)
@[simp] theorem State.count_regn : (s.count e n).regn = s.regn := State.onFab_regn _ (Fab.count e n)
@[simp] theorem State.count_jrnl : (s.count e n).jrnl = s.jrnl := State.onFab_jrnl _ (Fab.count e n)
@[simp] theorem State.count_cmpr : (s.count e n).cmpr = s.cmpr := State.onFab_cmpr _ (Fab.count e n)
@[simp] theorem State.count_plce : (s.count e n).plce = s.plce := State.onFab_plce _ (Fab.count e n)
@[simp] theorem State.count_strp : (s.count e n).strp = s.strp := State.onFab_strp _ (Fab.count e n)
@[simp] theorem State.count_drvp : (s.count e n).drvp = s.drvp := State.onFab_drvp _ (Fab.count e n)
@[simp] theorem State.count_pair : (s.count e n).pair = s.pair := State.onFab_pair _ (Fab.count e n)
@[simp] theorem State.count_bayp : (s.count e n).bayp = s.bayp := State.onFab_bayp _ (Fab.count e n)
@[simp] theorem State.count_pol : (s.count e n).pol = s.pol := State.onFab_pol _ (Fab.count e n)
@[simp] theorem State.count_tap : (s.count e n).tap = s.tap := State.onFab_tap _ (Fab.count e n)
@[simp] theorem State.count_now : (s.count e n).now = s.now := State.onFab_now _ (Fab.count e n)
@[simp] theorem State.count_drawn : (s.count e n).drawn = s.drawn := State.onFab_drawn _ (Fab.count e n)
@[simp] theorem State.count_pending : (s.count e n).pending = s.pending := State.onFab_pending _ (Fab.count e n)
@[simp] theorem State.emit_fab : (s.emit z).fab = Fab.emit z s.fab := State.onFab_fab _ (Fab.emit z)
@[simp] theorem State.emit_line : (s.emit z).line = s.line := State.onFab_line _ (Fab.emit z)
@[simp] theorem State.emit_ptp : (s.emit z).ptp = s.ptp := State.onFab_ptp _ (Fab.emit z)
@[simp] theorem State.emit_xprt : (s.emit z).xprt = s.xprt := State.onFab_xprt _ (Fab.emit z)
@[simp] theorem State.emit_gard : (s.emit z).gard = s.gard := State.onFab_gard _ (Fab.emit z)
@[simp] theorem State.emit_tmgr : (s.emit z).tmgr = s.tmgr := State.onFab_tmgr _ (Fab.emit z)
@[simp] theorem State.emit_vat : (s.emit z).vat = s.vat := State.onFab_vat _ (Fab.emit z)
@[simp] theorem State.emit_cell : (s.emit z).cell = s.cell := State.onFab_cell _ (Fab.emit z)
@[simp] theorem State.emit_cmdq : (s.emit z).cmdq = s.cmdq := State.onFab_cmdq _ (Fab.emit z)
@[simp] theorem State.emit_regn : (s.emit z).regn = s.regn := State.onFab_regn _ (Fab.emit z)
@[simp] theorem State.emit_jrnl : (s.emit z).jrnl = s.jrnl := State.onFab_jrnl _ (Fab.emit z)
@[simp] theorem State.emit_cmpr : (s.emit z).cmpr = s.cmpr := State.onFab_cmpr _ (Fab.emit z)
@[simp] theorem State.emit_plce : (s.emit z).plce = s.plce := State.onFab_plce _ (Fab.emit z)
@[simp] theorem State.emit_strp : (s.emit z).strp = s.strp := State.onFab_strp _ (Fab.emit z)
@[simp] theorem State.emit_drvp : (s.emit z).drvp = s.drvp := State.onFab_drvp _ (Fab.emit z)
@[simp] theorem State.emit_pair : (s.emit z).pair = s.pair := State.onFab_pair _ (Fab.emit z)
@[simp] theorem State.emit_bayp : (s.emit z).bayp = s.bayp := State.onFab_bayp _ (Fab.emit z)
@[simp] theorem State.emit_pol : (s.emit z).pol = s.pol := State.onFab_pol _ (Fab.emit z)
@[simp] theorem State.emit_tap : (s.emit z).tap = s.tap := State.onFab_tap _ (Fab.emit z)
@[simp] theorem State.emit_now : (s.emit z).now = s.now := State.onFab_now _ (Fab.emit z)
@[simp] theorem State.emit_drawn : (s.emit z).drawn = s.drawn := State.onFab_drawn _ (Fab.emit z)
@[simp] theorem State.emit_pending : (s.emit z).pending = s.pending := State.onFab_pending _ (Fab.emit z)
@[simp] theorem State.occur_fab : (s.occur y).fab = Fab.occur y s.fab := State.onFab_fab _ (Fab.occur y)
@[simp] theorem State.occur_line : (s.occur y).line = s.line := State.onFab_line _ (Fab.occur y)
@[simp] theorem State.occur_ptp : (s.occur y).ptp = s.ptp := State.onFab_ptp _ (Fab.occur y)
@[simp] theorem State.occur_xprt : (s.occur y).xprt = s.xprt := State.onFab_xprt _ (Fab.occur y)
@[simp] theorem State.occur_gard : (s.occur y).gard = s.gard := State.onFab_gard _ (Fab.occur y)
@[simp] theorem State.occur_tmgr : (s.occur y).tmgr = s.tmgr := State.onFab_tmgr _ (Fab.occur y)
@[simp] theorem State.occur_vat : (s.occur y).vat = s.vat := State.onFab_vat _ (Fab.occur y)
@[simp] theorem State.occur_cell : (s.occur y).cell = s.cell := State.onFab_cell _ (Fab.occur y)
@[simp] theorem State.occur_cmdq : (s.occur y).cmdq = s.cmdq := State.onFab_cmdq _ (Fab.occur y)
@[simp] theorem State.occur_regn : (s.occur y).regn = s.regn := State.onFab_regn _ (Fab.occur y)
@[simp] theorem State.occur_jrnl : (s.occur y).jrnl = s.jrnl := State.onFab_jrnl _ (Fab.occur y)
@[simp] theorem State.occur_cmpr : (s.occur y).cmpr = s.cmpr := State.onFab_cmpr _ (Fab.occur y)
@[simp] theorem State.occur_plce : (s.occur y).plce = s.plce := State.onFab_plce _ (Fab.occur y)
@[simp] theorem State.occur_strp : (s.occur y).strp = s.strp := State.onFab_strp _ (Fab.occur y)
@[simp] theorem State.occur_drvp : (s.occur y).drvp = s.drvp := State.onFab_drvp _ (Fab.occur y)
@[simp] theorem State.occur_pair : (s.occur y).pair = s.pair := State.onFab_pair _ (Fab.occur y)
@[simp] theorem State.occur_bayp : (s.occur y).bayp = s.bayp := State.onFab_bayp _ (Fab.occur y)
@[simp] theorem State.occur_pol : (s.occur y).pol = s.pol := State.onFab_pol _ (Fab.occur y)
@[simp] theorem State.occur_tap : (s.occur y).tap = s.tap := State.onFab_tap _ (Fab.occur y)
@[simp] theorem State.occur_now : (s.occur y).now = s.now := State.onFab_now _ (Fab.occur y)
@[simp] theorem State.occur_drawn : (s.occur y).drawn = s.drawn := State.onFab_drawn _ (Fab.occur y)
@[simp] theorem State.occur_pending : (s.occur y).pending = s.pending := State.onFab_pending _ (Fab.occur y)
@[simp] theorem State.pageEv_fab : (s.pageEv p w).fab = Fab.pageEv p w s.fab := State.onFab_fab _ (Fab.pageEv p w)
@[simp] theorem State.pageEv_line : (s.pageEv p w).line = s.line := State.onFab_line _ (Fab.pageEv p w)
@[simp] theorem State.pageEv_ptp : (s.pageEv p w).ptp = s.ptp := State.onFab_ptp _ (Fab.pageEv p w)
@[simp] theorem State.pageEv_xprt : (s.pageEv p w).xprt = s.xprt := State.onFab_xprt _ (Fab.pageEv p w)
@[simp] theorem State.pageEv_gard : (s.pageEv p w).gard = s.gard := State.onFab_gard _ (Fab.pageEv p w)
@[simp] theorem State.pageEv_tmgr : (s.pageEv p w).tmgr = s.tmgr := State.onFab_tmgr _ (Fab.pageEv p w)
@[simp] theorem State.pageEv_vat : (s.pageEv p w).vat = s.vat := State.onFab_vat _ (Fab.pageEv p w)
@[simp] theorem State.pageEv_cell : (s.pageEv p w).cell = s.cell := State.onFab_cell _ (Fab.pageEv p w)
@[simp] theorem State.pageEv_cmdq : (s.pageEv p w).cmdq = s.cmdq := State.onFab_cmdq _ (Fab.pageEv p w)
@[simp] theorem State.pageEv_regn : (s.pageEv p w).regn = s.regn := State.onFab_regn _ (Fab.pageEv p w)
@[simp] theorem State.pageEv_jrnl : (s.pageEv p w).jrnl = s.jrnl := State.onFab_jrnl _ (Fab.pageEv p w)
@[simp] theorem State.pageEv_cmpr : (s.pageEv p w).cmpr = s.cmpr := State.onFab_cmpr _ (Fab.pageEv p w)
@[simp] theorem State.pageEv_plce : (s.pageEv p w).plce = s.plce := State.onFab_plce _ (Fab.pageEv p w)
@[simp] theorem State.pageEv_strp : (s.pageEv p w).strp = s.strp := State.onFab_strp _ (Fab.pageEv p w)
@[simp] theorem State.pageEv_drvp : (s.pageEv p w).drvp = s.drvp := State.onFab_drvp _ (Fab.pageEv p w)
@[simp] theorem State.pageEv_pair : (s.pageEv p w).pair = s.pair := State.onFab_pair _ (Fab.pageEv p w)
@[simp] theorem State.pageEv_bayp : (s.pageEv p w).bayp = s.bayp := State.onFab_bayp _ (Fab.pageEv p w)
@[simp] theorem State.pageEv_pol : (s.pageEv p w).pol = s.pol := State.onFab_pol _ (Fab.pageEv p w)
@[simp] theorem State.pageEv_tap : (s.pageEv p w).tap = s.tap := State.onFab_tap _ (Fab.pageEv p w)
@[simp] theorem State.pageEv_now : (s.pageEv p w).now = s.now := State.onFab_now _ (Fab.pageEv p w)
@[simp] theorem State.pageEv_drawn : (s.pageEv p w).drawn = s.drawn := State.onFab_drawn _ (Fab.pageEv p w)
@[simp] theorem State.pageEv_pending : (s.pageEv p w).pending = s.pending := State.onFab_pending _ (Fab.pageEv p w)
@[simp] theorem State.onIsland_fab (k : IslandSt → IslandSt) : (s.onIsland k).fab = s.fab := (rfl)
@[simp] theorem State.onIsland_line (k : IslandSt → IslandSt) : (s.onIsland k).line = s.line := (rfl)
@[simp] theorem State.onIsland_ptp (k : IslandSt → IslandSt) : (s.onIsland k).ptp = s.ptp := (rfl)
@[simp] theorem State.onIsland_xprt (k : IslandSt → IslandSt) : (s.onIsland k).xprt = s.xprt := (rfl)
@[simp] theorem State.onIsland_gard (k : IslandSt → IslandSt) : (s.onIsland k).gard = s.gard := (rfl)
@[simp] theorem State.onIsland_tmgr (k : IslandSt → IslandSt) : (s.onIsland k).tmgr = s.tmgr := (rfl)
@[simp] theorem State.onIsland_vat (k : IslandSt → IslandSt) : (s.onIsland k).vat = s.vat := (rfl)
@[simp] theorem State.onIsland_cell (k : IslandSt → IslandSt) : (s.onIsland k).cell = s.cell := (rfl)
@[simp] theorem State.onIsland_cmdq (k : IslandSt → IslandSt) : (s.onIsland k).cmdq = s.cmdq := (rfl)
@[simp] theorem State.onIsland_regn (k : IslandSt → IslandSt) : (s.onIsland k).regn = s.regn := (rfl)
@[simp] theorem State.onIsland_jrnl (k : IslandSt → IslandSt) : (s.onIsland k).jrnl = s.jrnl := (rfl)
@[simp] theorem State.onIsland_cmpr (k : IslandSt → IslandSt) : (s.onIsland k).cmpr = s.cmpr := (rfl)
@[simp] theorem State.onIsland_plce (k : IslandSt → IslandSt) : (s.onIsland k).plce = s.plce := (rfl)
@[simp] theorem State.onIsland_strp (k : IslandSt → IslandSt) : (s.onIsland k).strp = s.strp := (rfl)
@[simp] theorem State.onIsland_drvp (k : IslandSt → IslandSt) : (s.onIsland k).drvp = s.drvp := (rfl)
@[simp] theorem State.onIsland_pair (k : IslandSt → IslandSt) : (s.onIsland k).pair = { s.pair with island := k s.pair.island } := (rfl)
@[simp] theorem State.onIsland_bayp (k : IslandSt → IslandSt) : (s.onIsland k).bayp = s.bayp := (rfl)
@[simp] theorem State.onIsland_pol (k : IslandSt → IslandSt) : (s.onIsland k).pol = s.pol := (rfl)
@[simp] theorem State.onIsland_tap (k : IslandSt → IslandSt) : (s.onIsland k).tap = s.tap := (rfl)
@[simp] theorem State.onIsland_now (k : IslandSt → IslandSt) : (s.onIsland k).now = s.now := (rfl)
@[simp] theorem State.onIsland_drawn (k : IslandSt → IslandSt) : (s.onIsland k).drawn = s.drawn := (rfl)
@[simp] theorem State.onIsland_pending (k : IslandSt → IslandSt) : (s.onIsland k).pending = s.pending := (rfl)
@[simp] theorem State.onPwr_fab (k : BayPwr → BayPwr) : (s.onPwr n k).fab = s.fab := (rfl)
@[simp] theorem State.onPwr_line (k : BayPwr → BayPwr) : (s.onPwr n k).line = s.line := (rfl)
@[simp] theorem State.onPwr_ptp (k : BayPwr → BayPwr) : (s.onPwr n k).ptp = s.ptp := (rfl)
@[simp] theorem State.onPwr_xprt (k : BayPwr → BayPwr) : (s.onPwr n k).xprt = s.xprt := (rfl)
@[simp] theorem State.onPwr_gard (k : BayPwr → BayPwr) : (s.onPwr n k).gard = s.gard := (rfl)
@[simp] theorem State.onPwr_tmgr (k : BayPwr → BayPwr) : (s.onPwr n k).tmgr = s.tmgr := (rfl)
@[simp] theorem State.onPwr_vat (k : BayPwr → BayPwr) : (s.onPwr n k).vat = s.vat := (rfl)
@[simp] theorem State.onPwr_cell (k : BayPwr → BayPwr) : (s.onPwr n k).cell = s.cell := (rfl)
@[simp] theorem State.onPwr_cmdq (k : BayPwr → BayPwr) : (s.onPwr n k).cmdq = s.cmdq := (rfl)
@[simp] theorem State.onPwr_regn (k : BayPwr → BayPwr) : (s.onPwr n k).regn = s.regn := (rfl)
@[simp] theorem State.onPwr_jrnl (k : BayPwr → BayPwr) : (s.onPwr n k).jrnl = s.jrnl := (rfl)
@[simp] theorem State.onPwr_cmpr (k : BayPwr → BayPwr) : (s.onPwr n k).cmpr = s.cmpr := (rfl)
@[simp] theorem State.onPwr_plce (k : BayPwr → BayPwr) : (s.onPwr n k).plce = s.plce := (rfl)
@[simp] theorem State.onPwr_strp (k : BayPwr → BayPwr) : (s.onPwr n k).strp = s.strp := (rfl)
@[simp] theorem State.onPwr_drvp (k : BayPwr → BayPwr) : (s.onPwr n k).drvp = s.drvp := (rfl)
@[simp] theorem State.onPwr_pair (k : BayPwr → BayPwr) : (s.onPwr n k).pair = s.pair := (rfl)
@[simp] theorem State.onPwr_bayp (k : BayPwr → BayPwr) : (s.onPwr n k).bayp = s.bayp.put n {} (k (s.pwr n)) := (rfl)
@[simp] theorem State.onPwr_pol (k : BayPwr → BayPwr) : (s.onPwr n k).pol = s.pol := (rfl)
@[simp] theorem State.onPwr_tap (k : BayPwr → BayPwr) : (s.onPwr n k).tap = s.tap := (rfl)
@[simp] theorem State.onPwr_now (k : BayPwr → BayPwr) : (s.onPwr n k).now = s.now := (rfl)
@[simp] theorem State.onPwr_drawn (k : BayPwr → BayPwr) : (s.onPwr n k).drawn = s.drawn := (rfl)
@[simp] theorem State.onPwr_pending (k : BayPwr → BayPwr) : (s.onPwr n k).pending = s.pending := (rfl)
@[simp] theorem State.onEp_fab (k : EpSt → EpSt) : (s.onEp k).fab = { s.fab with ep := k s.fab.ep } := State.onFab_fab _ _
@[simp] theorem State.onEp_line (k : EpSt → EpSt) : (s.onEp k).line = s.line := State.onFab_line _ _
@[simp] theorem State.onEp_ptp (k : EpSt → EpSt) : (s.onEp k).ptp = s.ptp := State.onFab_ptp _ _
@[simp] theorem State.onEp_xprt (k : EpSt → EpSt) : (s.onEp k).xprt = s.xprt := State.onFab_xprt _ _
@[simp] theorem State.onEp_gard (k : EpSt → EpSt) : (s.onEp k).gard = s.gard := State.onFab_gard _ _
@[simp] theorem State.onEp_tmgr (k : EpSt → EpSt) : (s.onEp k).tmgr = s.tmgr := State.onFab_tmgr _ _
@[simp] theorem State.onEp_vat (k : EpSt → EpSt) : (s.onEp k).vat = s.vat := State.onFab_vat _ _
@[simp] theorem State.onEp_cell (k : EpSt → EpSt) : (s.onEp k).cell = s.cell := State.onFab_cell _ _
@[simp] theorem State.onEp_cmdq (k : EpSt → EpSt) : (s.onEp k).cmdq = s.cmdq := State.onFab_cmdq _ _
@[simp] theorem State.onEp_regn (k : EpSt → EpSt) : (s.onEp k).regn = s.regn := State.onFab_regn _ _
@[simp] theorem State.onEp_jrnl (k : EpSt → EpSt) : (s.onEp k).jrnl = s.jrnl := State.onFab_jrnl _ _
@[simp] theorem State.onEp_cmpr (k : EpSt → EpSt) : (s.onEp k).cmpr = s.cmpr := State.onFab_cmpr _ _
@[simp] theorem State.onEp_plce (k : EpSt → EpSt) : (s.onEp k).plce = s.plce := State.onFab_plce _ _
@[simp] theorem State.onEp_strp (k : EpSt → EpSt) : (s.onEp k).strp = s.strp := State.onFab_strp _ _
@[simp] theorem State.onEp_drvp (k : EpSt → EpSt) : (s.onEp k).drvp = s.drvp := State.onFab_drvp _ _
@[simp] theorem State.onEp_pair (k : EpSt → EpSt) : (s.onEp k).pair = s.pair := State.onFab_pair _ _
@[simp] theorem State.onEp_bayp (k : EpSt → EpSt) : (s.onEp k).bayp = s.bayp := State.onFab_bayp _ _
@[simp] theorem State.onEp_pol (k : EpSt → EpSt) : (s.onEp k).pol = s.pol := State.onFab_pol _ _
@[simp] theorem State.onEp_tap (k : EpSt → EpSt) : (s.onEp k).tap = s.tap := State.onFab_tap _ _
@[simp] theorem State.onEp_now (k : EpSt → EpSt) : (s.onEp k).now = s.now := State.onFab_now _ _
@[simp] theorem State.onEp_drawn (k : EpSt → EpSt) : (s.onEp k).drawn = s.drawn := State.onFab_drawn _ _
@[simp] theorem State.onEp_pending (k : EpSt → EpSt) : (s.onEp k).pending = s.pending := State.onFab_pending _ _
@[simp] theorem State.onSwap_fab (k : SwapSt → SwapSt) : (s.onSwap k).fab = { s.fab with swap := k s.fab.swap } := State.onFab_fab _ _
@[simp] theorem State.onSwap_line (k : SwapSt → SwapSt) : (s.onSwap k).line = s.line := State.onFab_line _ _
@[simp] theorem State.onSwap_ptp (k : SwapSt → SwapSt) : (s.onSwap k).ptp = s.ptp := State.onFab_ptp _ _
@[simp] theorem State.onSwap_xprt (k : SwapSt → SwapSt) : (s.onSwap k).xprt = s.xprt := State.onFab_xprt _ _
@[simp] theorem State.onSwap_gard (k : SwapSt → SwapSt) : (s.onSwap k).gard = s.gard := State.onFab_gard _ _
@[simp] theorem State.onSwap_tmgr (k : SwapSt → SwapSt) : (s.onSwap k).tmgr = s.tmgr := State.onFab_tmgr _ _
@[simp] theorem State.onSwap_vat (k : SwapSt → SwapSt) : (s.onSwap k).vat = s.vat := State.onFab_vat _ _
@[simp] theorem State.onSwap_cell (k : SwapSt → SwapSt) : (s.onSwap k).cell = s.cell := State.onFab_cell _ _
@[simp] theorem State.onSwap_cmdq (k : SwapSt → SwapSt) : (s.onSwap k).cmdq = s.cmdq := State.onFab_cmdq _ _
@[simp] theorem State.onSwap_regn (k : SwapSt → SwapSt) : (s.onSwap k).regn = s.regn := State.onFab_regn _ _
@[simp] theorem State.onSwap_jrnl (k : SwapSt → SwapSt) : (s.onSwap k).jrnl = s.jrnl := State.onFab_jrnl _ _
@[simp] theorem State.onSwap_cmpr (k : SwapSt → SwapSt) : (s.onSwap k).cmpr = s.cmpr := State.onFab_cmpr _ _
@[simp] theorem State.onSwap_plce (k : SwapSt → SwapSt) : (s.onSwap k).plce = s.plce := State.onFab_plce _ _
@[simp] theorem State.onSwap_strp (k : SwapSt → SwapSt) : (s.onSwap k).strp = s.strp := State.onFab_strp _ _
@[simp] theorem State.onSwap_drvp (k : SwapSt → SwapSt) : (s.onSwap k).drvp = s.drvp := State.onFab_drvp _ _
@[simp] theorem State.onSwap_pair (k : SwapSt → SwapSt) : (s.onSwap k).pair = s.pair := State.onFab_pair _ _
@[simp] theorem State.onSwap_bayp (k : SwapSt → SwapSt) : (s.onSwap k).bayp = s.bayp := State.onFab_bayp _ _
@[simp] theorem State.onSwap_pol (k : SwapSt → SwapSt) : (s.onSwap k).pol = s.pol := State.onFab_pol _ _
@[simp] theorem State.onSwap_tap (k : SwapSt → SwapSt) : (s.onSwap k).tap = s.tap := State.onFab_tap _ _
@[simp] theorem State.onSwap_now (k : SwapSt → SwapSt) : (s.onSwap k).now = s.now := State.onFab_now _ _
@[simp] theorem State.onSwap_drawn (k : SwapSt → SwapSt) : (s.onSwap k).drawn = s.drawn := State.onFab_drawn _ _
@[simp] theorem State.onSwap_pending (k : SwapSt → SwapSt) : (s.onSwap k).pending = s.pending := State.onFab_pending _ _
@[simp] theorem State.draw_fab : s.draw.2.fab = s.fab := (rfl)
@[simp] theorem State.draw_line : s.draw.2.line = s.line := (rfl)
@[simp] theorem State.draw_ptp : s.draw.2.ptp = s.ptp := (rfl)
@[simp] theorem State.draw_xprt : s.draw.2.xprt = s.xprt := (rfl)
@[simp] theorem State.draw_gard : s.draw.2.gard = s.gard := (rfl)
@[simp] theorem State.draw_tmgr : s.draw.2.tmgr = s.tmgr := (rfl)
@[simp] theorem State.draw_vat : s.draw.2.vat = s.vat := (rfl)
@[simp] theorem State.draw_cell : s.draw.2.cell = s.cell := (rfl)
@[simp] theorem State.draw_cmdq : s.draw.2.cmdq = s.cmdq := (rfl)
@[simp] theorem State.draw_regn : s.draw.2.regn = s.regn := (rfl)
@[simp] theorem State.draw_jrnl : s.draw.2.jrnl = s.jrnl := (rfl)
@[simp] theorem State.draw_cmpr : s.draw.2.cmpr = s.cmpr := (rfl)
@[simp] theorem State.draw_plce : s.draw.2.plce = s.plce := (rfl)
@[simp] theorem State.draw_strp : s.draw.2.strp = s.strp := (rfl)
@[simp] theorem State.draw_drvp : s.draw.2.drvp = s.drvp := (rfl)
@[simp] theorem State.draw_pair : s.draw.2.pair = s.pair := (rfl)
@[simp] theorem State.draw_bayp : s.draw.2.bayp = s.bayp := (rfl)
@[simp] theorem State.draw_pol : s.draw.2.pol = s.pol := (rfl)
@[simp] theorem State.draw_tap : s.draw.2.tap = s.tap := (rfl)
@[simp] theorem State.draw_now : s.draw.2.now = s.now := (rfl)
@[simp] theorem State.draw_drawn : s.draw.2.drawn = s.drawn + 1 := (rfl)
@[simp] theorem State.draw_pending : s.draw.2.pending = s.pending := (rfl)

/-! ### Conditions and repetitions -/

theorem State.when_pos {s : State} {c : Bool} {g : State → State} (h : c = true) : s.when c g = g s := by
  subst h
  rfl
theorem State.when_neg {s : State} {c : Bool} {g : State → State} (h : c = false) : s.when c g = s := by
  subst h
  rfl
/-- A meaning under a condition that holds. -/
theorem goes_when {s : State} {c : Bool} {g : State → State} (h : c = true) : (Host.Outcome.next (s.when c g) : Result) = .next (g s) :=
  congrArg _ (State.when_pos h)

@[simp] theorem State.when_fab (c : Bool) (g : State → State) (h : (g s).fab = s.fab) : (s.when c g).fab = s.fab := by
  unfold State.when
  split <;> simp [h]
@[simp] theorem State.foldl_fab {α : Type} (g : State → α → State) (l : List α) (h : ∀ t x, (g t x).fab = t.fab) : (l.foldl g s).fab = s.fab := by
  induction l generalizing s with
  | nil => rfl
  | cons x l ih => exact (ih _).trans (h s x)
@[simp] theorem State.record_fab (a b : Nat) : (s.record a b).fab = Fab.postRecord ⟨a, s.timeStamp, b⟩ s.fab := by rw [State.record, State.onFab_fab]
@[simp] theorem State.when_line (c : Bool) (g : State → State) (h : (g s).line = s.line) : (s.when c g).line = s.line := by
  unfold State.when
  split <;> simp [h]
@[simp] theorem State.foldl_line {α : Type} (g : State → α → State) (l : List α) (h : ∀ t x, (g t x).line = t.line) : (l.foldl g s).line = s.line := by
  induction l generalizing s with
  | nil => rfl
  | cons x l ih => exact (ih _).trans (h s x)
@[simp] theorem State.record_line (a b : Nat) : (s.record a b).line = s.line := by rw [State.record, State.onFab_line]
@[simp] theorem State.when_ptp (c : Bool) (g : State → State) (h : (g s).ptp = s.ptp) : (s.when c g).ptp = s.ptp := by
  unfold State.when
  split <;> simp [h]
@[simp] theorem State.foldl_ptp {α : Type} (g : State → α → State) (l : List α) (h : ∀ t x, (g t x).ptp = t.ptp) : (l.foldl g s).ptp = s.ptp := by
  induction l generalizing s with
  | nil => rfl
  | cons x l ih => exact (ih _).trans (h s x)
@[simp] theorem State.record_ptp (a b : Nat) : (s.record a b).ptp = s.ptp := by rw [State.record, State.onFab_ptp]
@[simp] theorem State.when_xprt (c : Bool) (g : State → State) (h : (g s).xprt = s.xprt) : (s.when c g).xprt = s.xprt := by
  unfold State.when
  split <;> simp [h]
@[simp] theorem State.foldl_xprt {α : Type} (g : State → α → State) (l : List α) (h : ∀ t x, (g t x).xprt = t.xprt) : (l.foldl g s).xprt = s.xprt := by
  induction l generalizing s with
  | nil => rfl
  | cons x l ih => exact (ih _).trans (h s x)
@[simp] theorem State.record_xprt (a b : Nat) : (s.record a b).xprt = s.xprt := by rw [State.record, State.onFab_xprt]
@[simp] theorem State.when_gard (c : Bool) (g : State → State) (h : (g s).gard = s.gard) : (s.when c g).gard = s.gard := by
  unfold State.when
  split <;> simp [h]
@[simp] theorem State.foldl_gard {α : Type} (g : State → α → State) (l : List α) (h : ∀ t x, (g t x).gard = t.gard) : (l.foldl g s).gard = s.gard := by
  induction l generalizing s with
  | nil => rfl
  | cons x l ih => exact (ih _).trans (h s x)
@[simp] theorem State.record_gard (a b : Nat) : (s.record a b).gard = s.gard := by rw [State.record, State.onFab_gard]
@[simp] theorem State.when_tmgr (c : Bool) (g : State → State) (h : (g s).tmgr = s.tmgr) : (s.when c g).tmgr = s.tmgr := by
  unfold State.when
  split <;> simp [h]
@[simp] theorem State.foldl_tmgr {α : Type} (g : State → α → State) (l : List α) (h : ∀ t x, (g t x).tmgr = t.tmgr) : (l.foldl g s).tmgr = s.tmgr := by
  induction l generalizing s with
  | nil => rfl
  | cons x l ih => exact (ih _).trans (h s x)
@[simp] theorem State.record_tmgr (a b : Nat) : (s.record a b).tmgr = s.tmgr := by rw [State.record, State.onFab_tmgr]
@[simp] theorem State.when_vat (c : Bool) (g : State → State) (h : (g s).vat = s.vat) : (s.when c g).vat = s.vat := by
  unfold State.when
  split <;> simp [h]
@[simp] theorem State.foldl_vat {α : Type} (g : State → α → State) (l : List α) (h : ∀ t x, (g t x).vat = t.vat) : (l.foldl g s).vat = s.vat := by
  induction l generalizing s with
  | nil => rfl
  | cons x l ih => exact (ih _).trans (h s x)
@[simp] theorem State.record_vat (a b : Nat) : (s.record a b).vat = s.vat := by rw [State.record, State.onFab_vat]
@[simp] theorem State.when_cell (c : Bool) (g : State → State) (h : (g s).cell = s.cell) : (s.when c g).cell = s.cell := by
  unfold State.when
  split <;> simp [h]
@[simp] theorem State.foldl_cell {α : Type} (g : State → α → State) (l : List α) (h : ∀ t x, (g t x).cell = t.cell) : (l.foldl g s).cell = s.cell := by
  induction l generalizing s with
  | nil => rfl
  | cons x l ih => exact (ih _).trans (h s x)
@[simp] theorem State.record_cell (a b : Nat) : (s.record a b).cell = s.cell := by rw [State.record, State.onFab_cell]
@[simp] theorem State.when_cmdq (c : Bool) (g : State → State) (h : (g s).cmdq = s.cmdq) : (s.when c g).cmdq = s.cmdq := by
  unfold State.when
  split <;> simp [h]
@[simp] theorem State.foldl_cmdq {α : Type} (g : State → α → State) (l : List α) (h : ∀ t x, (g t x).cmdq = t.cmdq) : (l.foldl g s).cmdq = s.cmdq := by
  induction l generalizing s with
  | nil => rfl
  | cons x l ih => exact (ih _).trans (h s x)
@[simp] theorem State.record_cmdq (a b : Nat) : (s.record a b).cmdq = s.cmdq := by rw [State.record, State.onFab_cmdq]
@[simp] theorem State.when_regn (c : Bool) (g : State → State) (h : (g s).regn = s.regn) : (s.when c g).regn = s.regn := by
  unfold State.when
  split <;> simp [h]
@[simp] theorem State.foldl_regn {α : Type} (g : State → α → State) (l : List α) (h : ∀ t x, (g t x).regn = t.regn) : (l.foldl g s).regn = s.regn := by
  induction l generalizing s with
  | nil => rfl
  | cons x l ih => exact (ih _).trans (h s x)
@[simp] theorem State.record_regn (a b : Nat) : (s.record a b).regn = s.regn := by rw [State.record, State.onFab_regn]
@[simp] theorem State.when_jrnl (c : Bool) (g : State → State) (h : (g s).jrnl = s.jrnl) : (s.when c g).jrnl = s.jrnl := by
  unfold State.when
  split <;> simp [h]
@[simp] theorem State.foldl_jrnl {α : Type} (g : State → α → State) (l : List α) (h : ∀ t x, (g t x).jrnl = t.jrnl) : (l.foldl g s).jrnl = s.jrnl := by
  induction l generalizing s with
  | nil => rfl
  | cons x l ih => exact (ih _).trans (h s x)
@[simp] theorem State.record_jrnl (a b : Nat) : (s.record a b).jrnl = s.jrnl := by rw [State.record, State.onFab_jrnl]
@[simp] theorem State.when_cmpr (c : Bool) (g : State → State) (h : (g s).cmpr = s.cmpr) : (s.when c g).cmpr = s.cmpr := by
  unfold State.when
  split <;> simp [h]
@[simp] theorem State.foldl_cmpr {α : Type} (g : State → α → State) (l : List α) (h : ∀ t x, (g t x).cmpr = t.cmpr) : (l.foldl g s).cmpr = s.cmpr := by
  induction l generalizing s with
  | nil => rfl
  | cons x l ih => exact (ih _).trans (h s x)
@[simp] theorem State.record_cmpr (a b : Nat) : (s.record a b).cmpr = s.cmpr := by rw [State.record, State.onFab_cmpr]
@[simp] theorem State.when_plce (c : Bool) (g : State → State) (h : (g s).plce = s.plce) : (s.when c g).plce = s.plce := by
  unfold State.when
  split <;> simp [h]
@[simp] theorem State.foldl_plce {α : Type} (g : State → α → State) (l : List α) (h : ∀ t x, (g t x).plce = t.plce) : (l.foldl g s).plce = s.plce := by
  induction l generalizing s with
  | nil => rfl
  | cons x l ih => exact (ih _).trans (h s x)
@[simp] theorem State.record_plce (a b : Nat) : (s.record a b).plce = s.plce := by rw [State.record, State.onFab_plce]
@[simp] theorem State.when_strp (c : Bool) (g : State → State) (h : (g s).strp = s.strp) : (s.when c g).strp = s.strp := by
  unfold State.when
  split <;> simp [h]
@[simp] theorem State.foldl_strp {α : Type} (g : State → α → State) (l : List α) (h : ∀ t x, (g t x).strp = t.strp) : (l.foldl g s).strp = s.strp := by
  induction l generalizing s with
  | nil => rfl
  | cons x l ih => exact (ih _).trans (h s x)
@[simp] theorem State.record_strp (a b : Nat) : (s.record a b).strp = s.strp := by rw [State.record, State.onFab_strp]
@[simp] theorem State.when_drvp (c : Bool) (g : State → State) (h : (g s).drvp = s.drvp) : (s.when c g).drvp = s.drvp := by
  unfold State.when
  split <;> simp [h]
@[simp] theorem State.foldl_drvp {α : Type} (g : State → α → State) (l : List α) (h : ∀ t x, (g t x).drvp = t.drvp) : (l.foldl g s).drvp = s.drvp := by
  induction l generalizing s with
  | nil => rfl
  | cons x l ih => exact (ih _).trans (h s x)
@[simp] theorem State.record_drvp (a b : Nat) : (s.record a b).drvp = s.drvp := by rw [State.record, State.onFab_drvp]
@[simp] theorem State.when_pair (c : Bool) (g : State → State) (h : (g s).pair = s.pair) : (s.when c g).pair = s.pair := by
  unfold State.when
  split <;> simp [h]
@[simp] theorem State.foldl_pair {α : Type} (g : State → α → State) (l : List α) (h : ∀ t x, (g t x).pair = t.pair) : (l.foldl g s).pair = s.pair := by
  induction l generalizing s with
  | nil => rfl
  | cons x l ih => exact (ih _).trans (h s x)
@[simp] theorem State.record_pair (a b : Nat) : (s.record a b).pair = s.pair := by rw [State.record, State.onFab_pair]
@[simp] theorem State.when_bayp (c : Bool) (g : State → State) (h : (g s).bayp = s.bayp) : (s.when c g).bayp = s.bayp := by
  unfold State.when
  split <;> simp [h]
@[simp] theorem State.foldl_bayp {α : Type} (g : State → α → State) (l : List α) (h : ∀ t x, (g t x).bayp = t.bayp) : (l.foldl g s).bayp = s.bayp := by
  induction l generalizing s with
  | nil => rfl
  | cons x l ih => exact (ih _).trans (h s x)
@[simp] theorem State.record_bayp (a b : Nat) : (s.record a b).bayp = s.bayp := by rw [State.record, State.onFab_bayp]
@[simp] theorem State.when_pol (c : Bool) (g : State → State) (h : (g s).pol = s.pol) : (s.when c g).pol = s.pol := by
  unfold State.when
  split <;> simp [h]
@[simp] theorem State.foldl_pol {α : Type} (g : State → α → State) (l : List α) (h : ∀ t x, (g t x).pol = t.pol) : (l.foldl g s).pol = s.pol := by
  induction l generalizing s with
  | nil => rfl
  | cons x l ih => exact (ih _).trans (h s x)
@[simp] theorem State.record_pol (a b : Nat) : (s.record a b).pol = s.pol := by rw [State.record, State.onFab_pol]
@[simp] theorem State.when_tap (c : Bool) (g : State → State) (h : (g s).tap = s.tap) : (s.when c g).tap = s.tap := by
  unfold State.when
  split <;> simp [h]
@[simp] theorem State.foldl_tap {α : Type} (g : State → α → State) (l : List α) (h : ∀ t x, (g t x).tap = t.tap) : (l.foldl g s).tap = s.tap := by
  induction l generalizing s with
  | nil => rfl
  | cons x l ih => exact (ih _).trans (h s x)
@[simp] theorem State.record_tap (a b : Nat) : (s.record a b).tap = s.tap := by rw [State.record, State.onFab_tap]
@[simp] theorem State.when_now (c : Bool) (g : State → State) (h : (g s).now = s.now) : (s.when c g).now = s.now := by
  unfold State.when
  split <;> simp [h]
@[simp] theorem State.foldl_now {α : Type} (g : State → α → State) (l : List α) (h : ∀ t x, (g t x).now = t.now) : (l.foldl g s).now = s.now := by
  induction l generalizing s with
  | nil => rfl
  | cons x l ih => exact (ih _).trans (h s x)
@[simp] theorem State.record_now (a b : Nat) : (s.record a b).now = s.now := by rw [State.record, State.onFab_now]
@[simp] theorem State.when_drawn (c : Bool) (g : State → State) (h : (g s).drawn = s.drawn) : (s.when c g).drawn = s.drawn := by
  unfold State.when
  split <;> simp [h]
@[simp] theorem State.foldl_drawn {α : Type} (g : State → α → State) (l : List α) (h : ∀ t x, (g t x).drawn = t.drawn) : (l.foldl g s).drawn = s.drawn := by
  induction l generalizing s with
  | nil => rfl
  | cons x l ih => exact (ih _).trans (h s x)
@[simp] theorem State.record_drawn (a b : Nat) : (s.record a b).drawn = s.drawn := by rw [State.record, State.onFab_drawn]
@[simp] theorem State.when_pending (c : Bool) (g : State → State) (h : (g s).pending = s.pending) : (s.when c g).pending = s.pending := by
  unfold State.when
  split <;> simp [h]
@[simp] theorem State.foldl_pending {α : Type} (g : State → α → State) (l : List α) (h : ∀ t x, (g t x).pending = t.pending) : (l.foldl g s).pending = s.pending := by
  induction l generalizing s with
  | nil => rfl
  | cons x l ih => exact (ih _).trans (h s x)
@[simp] theorem State.record_pending (a b : Nat) : (s.record a b).pending = s.pending := by rw [State.record, State.onFab_pending]

end Sys2Proof.Machine
end

