-- ==== Sys2Proof/Laws/Fab.lean ====
section
/-!
SUPPORT. What each operation of the register fabric leaves in the registers, counters, tables, pages and output log.
-/
namespace Sys2Proof.Machine
open Sys2Proof
variable (f : Fab)

/-! ### Registers -/

theorem Fab.reg_setReg_same (a : Nat) (v : Word) : (f.setReg a v).reg a = v := SMap.get_put_same f.regs a (resetWord a) v
theorem Fab.reg_setReg_ne (a b : Nat) (v : Word) (h : b ≠ a) : (f.setReg a v).reg b = f.reg b :=
  SMap.get_put_ne f.regs a b (resetWord a) (resetWord b) v h
/-- A field that was set reads as the value's low bits. -/
theorem Fab.get_setF_same (p : Page) (x : Fld) (v : Nat) (h : x.lo + x.w ≤ 32) : (f.setF p x v).get p x = v % 2 ^ x.w := by
  unfold Fab.get Fab.setF
  rw [Fab.reg_setReg_same, getBits_setBits _ _ _ _ h]
/-- A field of another register, or of other bits of the same one, is as it was. -/
theorem Fab.get_setF_ne (p r : Page) (x y : Fld) (v : Nat)
    (h : r.base + y.off ≠ p.base + x.off ∨ (x.lo + x.w ≤ 32 ∧ (x.lo + x.w ≤ y.lo ∨ y.lo + y.w ≤ x.lo))) :
    (f.setF p x v).get r y = f.get r y := by
  unfold Fab.get Fab.setF
  by_cases e : r.base + y.off = p.base + x.off
  · rw [e, Fab.reg_setReg_same]
    cases h with
    | inl h => exact absurd e h
    | inr h => exact getBits_setBits_off _ _ _ _ _ _ h.1 h.2
  · rw [Fab.reg_setReg_ne _ _ _ _ e]
theorem Fab.reg_setF_ne (p : Page) (x : Fld) (v a : Nat) (h : a ≠ p.base + x.off) : (f.setF p x v).reg a = f.reg a :=
  Fab.reg_setReg_ne _ _ _ _ h

/-- What leaves the registers alone leaves every reading of them alone. -/
theorem Fab.reg_of {f g : Fab} (h : g.regs = f.regs) (a : Nat) : g.reg a = f.reg a := by
  unfold Fab.reg
  rw [h]
theorem Fab.get_of {f g : Fab} (h : g.regs = f.regs) (p : Page) (x : Fld) : g.get p x = f.get p x := by
  unfold Fab.get
  rw [Fab.reg_of h]

/-- The fabric with other registers. -/
def Fab.withRegs (r : SMap Word) (f : Fab) : Fab := { f with regs := r }
theorem Fab.setReg_eq (a : Nat) (v : Word) : f.setReg a v = f.withRegs (f.regs.put a (resetWord a) v) := by
  unfold Fab.setReg Fab.withRegs
  rfl
theorem Fab.withRegs_out (r : SMap Word) : (f.withRegs r).out = f.out := (rfl)
@[simp] theorem Fab.setReg_out (a : Nat) (v : Word) : (f.setReg a v).out = f.out := by rw [Fab.setReg_eq, Fab.withRegs_out]
@[simp] theorem Fab.setF_out (p : Page) (x : Fld) (v : Nat) : (f.setF p x v).out = f.out := by rw [Fab.setF, Fab.setReg_out]
@[simp] theorem Fab.satAdd_out (p : Page) (x : Fld) (v : Nat) : (f.satAdd p x v).out = f.out := by rw [Fab.satAdd, Fab.setF_out]
theorem Fab.withRegs_cnts (r : SMap Word) : (f.withRegs r).cnts = f.cnts := (rfl)
@[simp] theorem Fab.setReg_cnts (a : Nat) (v : Word) : (f.setReg a v).cnts = f.cnts := by rw [Fab.setReg_eq, Fab.withRegs_cnts]
@[simp] theorem Fab.setF_cnts (p : Page) (x : Fld) (v : Nat) : (f.setF p x v).cnts = f.cnts := by rw [Fab.setF, Fab.setReg_cnts]
@[simp] theorem Fab.satAdd_cnts (p : Page) (x : Fld) (v : Nat) : (f.satAdd p x v).cnts = f.cnts := by rw [Fab.satAdd, Fab.setF_cnts]
theorem Fab.withRegs_pages (r : SMap Word) : (f.withRegs r).pages = f.pages := (rfl)
@[simp] theorem Fab.setReg_pages (a : Nat) (v : Word) : (f.setReg a v).pages = f.pages := by rw [Fab.setReg_eq, Fab.withRegs_pages]
@[simp] theorem Fab.setF_pages (p : Page) (x : Fld) (v : Nat) : (f.setF p x v).pages = f.pages := by rw [Fab.setF, Fab.setReg_pages]
@[simp] theorem Fab.satAdd_pages (p : Page) (x : Fld) (v : Nat) : (f.satAdd p x v).pages = f.pages := by rw [Fab.satAdd, Fab.setF_pages]
theorem Fab.withRegs_tabs (r : SMap Word) : (f.withRegs r).tabs = f.tabs := (rfl)
@[simp] theorem Fab.setReg_tabs (a : Nat) (v : Word) : (f.setReg a v).tabs = f.tabs := by rw [Fab.setReg_eq, Fab.withRegs_tabs]
@[simp] theorem Fab.setF_tabs (p : Page) (x : Fld) (v : Nat) : (f.setF p x v).tabs = f.tabs := by rw [Fab.setF, Fab.setReg_tabs]
@[simp] theorem Fab.satAdd_tabs (p : Page) (x : Fld) (v : Nat) : (f.satAdd p x v).tabs = f.tabs := by rw [Fab.satAdd, Fab.setF_tabs]
theorem Fab.withRegs_wins (r : SMap Word) : (f.withRegs r).wins = f.wins := (rfl)
@[simp] theorem Fab.setReg_wins (a : Nat) (v : Word) : (f.setReg a v).wins = f.wins := by rw [Fab.setReg_eq, Fab.withRegs_wins]
@[simp] theorem Fab.setF_wins (p : Page) (x : Fld) (v : Nat) : (f.setF p x v).wins = f.wins := by rw [Fab.setF, Fab.setReg_wins]
@[simp] theorem Fab.satAdd_wins (p : Page) (x : Fld) (v : Nat) : (f.satAdd p x v).wins = f.wins := by rw [Fab.satAdd, Fab.setF_wins]
theorem Fab.withRegs_ep (r : SMap Word) : (f.withRegs r).ep = f.ep := (rfl)
@[simp] theorem Fab.setReg_ep (a : Nat) (v : Word) : (f.setReg a v).ep = f.ep := by rw [Fab.setReg_eq, Fab.withRegs_ep]
@[simp] theorem Fab.setF_ep (p : Page) (x : Fld) (v : Nat) : (f.setF p x v).ep = f.ep := by rw [Fab.setF, Fab.setReg_ep]
@[simp] theorem Fab.satAdd_ep (p : Page) (x : Fld) (v : Nat) : (f.satAdd p x v).ep = f.ep := by rw [Fab.satAdd, Fab.setF_ep]
theorem Fab.withRegs_swap (r : SMap Word) : (f.withRegs r).swap = f.swap := (rfl)
@[simp] theorem Fab.setReg_swap (a : Nat) (v : Word) : (f.setReg a v).swap = f.swap := by rw [Fab.setReg_eq, Fab.withRegs_swap]
@[simp] theorem Fab.setF_swap (p : Page) (x : Fld) (v : Nat) : (f.setF p x v).swap = f.swap := by rw [Fab.setF, Fab.setReg_swap]
@[simp] theorem Fab.satAdd_swap (p : Page) (x : Fld) (v : Nat) : (f.satAdd p x v).swap = f.swap := by rw [Fab.satAdd, Fab.setF_swap]
@[simp] theorem Fab.count_regs (e : Evt) (n : Nat) : (f.count e n).regs = f.regs := (rfl)
@[simp] theorem Fab.count_out (e : Evt) (n : Nat) : (f.count e n).out = f.out := (rfl)
@[simp] theorem Fab.count_pages (e : Evt) (n : Nat) : (f.count e n).pages = f.pages := (rfl)
@[simp] theorem Fab.count_tabs (e : Evt) (n : Nat) : (f.count e n).tabs = f.tabs := (rfl)
@[simp] theorem Fab.count_wins (e : Evt) (n : Nat) : (f.count e n).wins = f.wins := (rfl)
@[simp] theorem Fab.count_ep (e : Evt) (n : Nat) : (f.count e n).ep = f.ep := (rfl)
@[simp] theorem Fab.emit_regs (e : Emit) : (f.emit e).regs = f.regs := (rfl)
@[simp] theorem Fab.emit_out (e : Emit) : (f.emit e).out = e :: f.out := (rfl)
@[simp] theorem Fab.emit_cnts (e : Emit) : (f.emit e).cnts = f.cnts := (rfl)
@[simp] theorem Fab.emit_pages (e : Emit) : (f.emit e).pages = f.pages := (rfl)
@[simp] theorem Fab.emit_tabs (e : Emit) : (f.emit e).tabs = f.tabs := (rfl)
@[simp] theorem Fab.emit_wins (e : Emit) : (f.emit e).wins = f.wins := (rfl)
@[simp] theorem Fab.emit_ep (e : Emit) : (f.emit e).ep = f.ep := (rfl)
@[simp] theorem Fab.setPage_regs (p : Page) (st : PageSt) : (f.setPage p st).regs = f.regs := (rfl)
@[simp] theorem Fab.setPage_out (p : Page) (st : PageSt) : (f.setPage p st).out = f.out := (rfl)
@[simp] theorem Fab.setPage_cnts (p : Page) (st : PageSt) : (f.setPage p st).cnts = f.cnts := (rfl)
@[simp] theorem Fab.setPage_tabs (p : Page) (st : PageSt) : (f.setPage p st).tabs = f.tabs := (rfl)
@[simp] theorem Fab.setPage_ep (p : Page) (st : PageSt) : (f.setPage p st).ep = f.ep := (rfl)
@[simp] theorem Fab.setTab_regs (p : Page) (b : Bool) (t i v : Nat) : (f.setTab p b t i v).regs = f.regs := (rfl)
@[simp] theorem Fab.setTab_out (p : Page) (b : Bool) (t i v : Nat) : (f.setTab p b t i v).out = f.out := (rfl)
@[simp] theorem Fab.setTab_pages (p : Page) (b : Bool) (t i v : Nat) : (f.setTab p b t i v).pages = f.pages := (rfl)

@[simp] theorem Fab.get_count (e : Evt) (n : Nat) (p : Page) (x : Fld) : (f.count e n).get p x = f.get p x := Fab.get_of rfl p x
@[simp] theorem Fab.get_emit (e : Emit) (p : Page) (x : Fld) : (f.emit e).get p x = f.get p x := Fab.get_of rfl p x
@[simp] theorem Fab.get_setPage (r : Page) (st : PageSt) (p : Page) (x : Fld) : (f.setPage r st).get p x = f.get p x := Fab.get_of rfl p x

/-! ### Counters (R691, R692) -/

theorem cntKey_inj {p : Page} {i j : Nat} (h : cntKey p i = cntKey p j) : i = j := by
  unfold cntKey at h
  omega
/-- Counting over some of a page's counters: those that count gain, and no other key changes. -/
theorem cntFold (e : Evt) (n : Nat) (l : List Nat) (hl : l.Nodup) (c : SMap (BitVec 48)) (key : Nat) :
    (l.foldl (fun c k => if f.counts e k then c.put (cntKey e.page k) 0 (c.get (cntKey e.page k) 0 + BitVec.ofNat 48 n) else c) c).get
      key 0 = if l.any (fun k => decide (key = cntKey e.page k) && f.counts e k) then c.get key 0 + BitVec.ofNat 48 n else c.get key 0 := by
  induction l generalizing c with
  | nil => simp
  | cons k l ih =>
    rw [List.foldl_cons, ih (List.nodup_cons.1 hl).2]
    by_cases hk : key = cntKey e.page k
    · have no : (l.any fun j => decide (key = cntKey e.page j) && f.counts e j) = false := by
        rw [List.any_eq_false]
        intro j hj
        have : key ≠ cntKey e.page j := by
          intro e2
          have := cntKey_inj (hk.symm.trans e2)
          subst this
          exact (List.nodup_cons.1 hl).1 hj
        simp [this]
      rw [no]
      by_cases hc : f.counts e k
      · simp [hk, hc, SMap.get_put_same]
      · simp [hc, no]
    · by_cases hc : f.counts e k
      · simp [hk, hc, SMap.get_put_ne _ _ _ _ _ _ hk]
      · simp [hk, hc]
/-- A counter of the event's page gains the amount where it counts the event. -/
theorem Fab.cnt_count (e : Evt) (n k : Nat) (hk : k < 8) :
    (f.count e n).cnt e.page k = if f.counts e k then f.cnt e.page k + BitVec.ofNat 48 n else f.cnt e.page k := by
  unfold Fab.cnt
  show (List.foldl _ f.cnts (List.range 8)).get _ 0 = _
  rw [cntFold f e n _ List.nodup_range]
  by_cases hc : f.counts e k
  · have : (List.range 8).any (fun j => decide (cntKey e.page k = cntKey e.page j) && f.counts e j) = true := by
      rw [List.any_eq_true]
      exact ⟨k, List.mem_range.2 hk, by simp [hc]⟩
    rw [this]
    simp [hc]
  · have : (List.range 8).any (fun j => decide (cntKey e.page k = cntKey e.page j) && f.counts e j) = false := by
      rw [List.any_eq_false]
      intro j _ h
      rw [Bool.and_eq_true, decide_eq_true_eq] at h
      rw [cntKey_inj h.1] at hc
      exact hc h.2
    rw [this]
    simp [hc]
/-- A counter of any page and place that is no counter of the event's page is as it was. -/
theorem Fab.cnt_count_off (e : Evt) (n : Nat) (p : Page) (k : Nat) (h : ∀ j, j < 8 → cntKey p k ≠ cntKey e.page j) :
    (f.count e n).cnt p k = f.cnt p k := by
  unfold Fab.cnt
  show (List.foldl _ f.cnts (List.range 8)).get _ 0 = _
  rw [cntFold f e n _ List.nodup_range]
  have : (List.range 8).any (fun j => decide (cntKey p k = cntKey e.page j) && f.counts e j) = false := by
    rw [List.any_eq_false]
    intro j hj
    simp [h j (List.mem_range.1 hj)]
  rw [this]
  simp
/-- Whether a counter counts an event depends on registers alone. -/
theorem Fab.counts_of {f g : Fab} (h : g.regs = f.regs) (e : Evt) (k : Nat) : g.counts e k = f.counts e k := by
  unfold Fab.counts Fab.flag Fab.get
  rw [Fab.reg_of h, Fab.reg_of h]

/-! ### The collector -/

theorem Fab.msixRequest_regs (v : Nat) : (f.msixRequest v).regs = f.regs := by
  unfold Fab.msixRequest
  split <;> rfl
theorem Fab.msixRequest_pages (v : Nat) : (f.msixRequest v).pages = f.pages := by
  unfold Fab.msixRequest
  split <;> rfl
theorem Fab.msixRequest_tabs (v : Nat) : (f.msixRequest v).tabs = f.tabs := by
  unfold Fab.msixRequest
  split <;> rfl
theorem Fab.msixRequest_cnts (v : Nat) : (f.msixRequest v).cnts = f.cnts := by
  unfold Fab.msixRequest
  split <;> rfl
theorem Fab.messages_regs (l : List Nat) : (l.foldl (fun g v => (g.msixRequest v).count E.MGMT_FLT_MSG 1) f).regs = f.regs := by
  induction l generalizing f with
  | nil => rfl
  | cons v l ih => exact (ih _).trans (Fab.msixRequest_regs f v)
theorem Fab.messages_pages (l : List Nat) : (l.foldl (fun g v => (g.msixRequest v).count E.MGMT_FLT_MSG 1) f).pages = f.pages := by
  induction l generalizing f with
  | nil => rfl
  | cons v l ih => exact (ih _).trans (Fab.msixRequest_pages f v)
theorem Fab.messages_tabs (l : List Nat) : (l.foldl (fun g v => (g.msixRequest v).count E.MGMT_FLT_MSG 1) f).tabs = f.tabs := by
  induction l generalizing f with
  | nil => rfl
  | cons v l ih => exact (ih _).trans (Fab.msixRequest_tabs f v)
theorem Fab.fatal_regs (p : Page) : (f.pageEv p .fatal).regs = f.regs := by
  unfold Fab.pageEv
  split
  · rfl
  · rfl
theorem Fab.fatal_tabs (p : Page) : (f.pageEv p .fatal).tabs = f.tabs := by
  unfold Fab.pageEv
  split
  · rfl
  · rfl
/-- The rest of what a sticky bit's rise does, after the bit itself. -/
theorem Fab.stickyRest (x : Src) (c : Bool) :
    ((if (if c then f.pageEv x.page .fatal else f).isPending x then (if c then f.pageEv x.page .fatal else f).faultMessages [x]
      else (if c then f.pageEv x.page .fatal else f)).regs = f.regs) ∧
    ((if (if c then f.pageEv x.page .fatal else f).isPending x then (if c then f.pageEv x.page .fatal else f).faultMessages [x]
      else (if c then f.pageEv x.page .fatal else f)).tabs = f.tabs) := by
  have h : ∀ g : Fab, g.regs = f.regs ∧ g.tabs = f.tabs →
      (if g.isPending x then g.faultMessages [x] else g).regs = f.regs ∧ (if g.isPending x then g.faultMessages [x] else g).tabs = f.tabs := by
    intro g hg
    unfold Fab.faultMessages
    split
    · rw [Fab.messages_regs, Fab.messages_tabs]
      exact hg
    · exact hg
  apply h
  cases c with
  | true => exact ⟨Fab.fatal_regs f _, Fab.fatal_tabs f _⟩
  | false => exact ⟨rfl, rfl⟩
/-- The bit's rise itself. -/
def Fab.stickyUp (x : Src) (f : Fab) : Fab :=
  (f.setReg (stickyAddr x.page x.loc) (setBits (f.reg (stickyAddr x.page x.loc)) (x.loc % 32) 1 1)).count E.MGMT_FLT_CAPTURE 1
theorem Fab.stickySet_all (x : Src) : (f.stickySet x).regs = (f.stickyUp x).regs ∧ (f.stickySet x).tabs = (f.stickyUp x).tabs := by
  exact Fab.stickyRest (f.stickyUp x) x (decide (f.severity x = 2) || decide (x.defaultClass = 2))
/-- The collector changes no register but the source's sticky register. -/
theorem Fab.stickySet_reg (x : Src) (a : Nat) (h : a ≠ stickyAddr x.page x.loc) : (f.stickySet x).reg a = f.reg a := by
  rw [Fab.reg_of (Fab.stickySet_all f x).1, Fab.stickyUp, Fab.reg_of (Fab.count_regs _ _ _), Fab.reg_setReg_ne _ _ _ _ h]
theorem Fab.occur_reg (x : Src) (a : Nat) (h : a ≠ stickyAddr x.page x.loc) : (f.occur x).reg a = f.reg a := by
  unfold Fab.occur
  split
  · exact Fab.stickySet_reg f x a h
  · rfl
theorem Fab.occur_get (s : Src) (p : Page) (x : Fld) (h : p.base + x.off ≠ stickyAddr s.page s.loc) : (f.occur s).get p x = f.get p x := by
  unfold Fab.get
  rw [Fab.occur_reg f s _ h]
theorem Fab.occur_tabs (x : Src) : (f.occur x).tabs = f.tabs := by
  unfold Fab.occur
  split
  · rw [(Fab.stickySet_all f x).2]
    unfold Fab.stickyUp
    rw [Fab.count_tabs, Fab.setReg_tabs]
  · rfl
/-- An occurrence of an implemented source leaves its sticky bit at 1 (R676). -/
theorem Fab.occur_sticky (x : Src) (h : x.implemented = true) : (f.occur x).sticky x = true := by
  unfold Fab.occur
  by_cases hs : f.sticky x
  · simp [h, hs]
  · rw [if_pos (by simp [h, hs])]
    have hw : (f.stickyUp x).sticky x = true := by
      have e : (f.stickyUp x).reg (stickyAddr x.page x.loc) = setBits (f.reg (stickyAddr x.page x.loc)) (x.loc % 32) 1 1 :=
        by rw [Fab.stickyUp, Fab.reg_of (Fab.count_regs _ _ _), Fab.reg_setReg_same]
      unfold Fab.sticky
      rw [e, getBits_setBits _ _ _ _ (by omega)]
      rfl
    rw [← hw]
    unfold Fab.sticky
    rw [Fab.reg_of (Fab.stickySet_all f x).1]

/-! ### On the whole state -/

theorem State.get_setF_same (s : State) (p : Page) (x : Fld) (v : Nat) (h : x.lo + x.w ≤ 32) : (s.setF p x v).get p x = v % 2 ^ x.w := by
  rw [State.get, State.setF_fab, Fab.get_setF_same _ _ _ _ h]
theorem State.get_setF_ne (s : State) (p r : Page) (x y : Fld) (v : Nat)
    (h : r.base + y.off ≠ p.base + x.off ∨ (x.lo + x.w ≤ 32 ∧ (x.lo + x.w ≤ y.lo ∨ y.lo + y.w ≤ x.lo))) :
    (s.setF p x v).get r y = s.get r y := by
  rw [State.get, State.setF_fab, Fab.get_setF_ne _ _ _ _ _ _ h, State.get]
@[simp] theorem State.get_count (s : State) (e : Evt) (n : Nat) (p : Page) (x : Fld) : (s.count e n).get p x = s.get p x := by
  rw [State.get, State.count_fab, Fab.get_count, State.get]
@[simp] theorem State.get_emit (s : State) (e : Emit) (p : Page) (x : Fld) : (s.emit e).get p x = s.get p x := by
  rw [State.get, State.emit_fab, Fab.get_emit, State.get]
theorem State.get_occur (s : State) (y : Src) (p : Page) (x : Fld) (h : p.base + x.off ≠ stickyAddr y.page y.loc) :
    (s.occur y).get p x = s.get p x := by
  rw [State.get, State.occur_fab, Fab.occur_get _ _ _ _ h, State.get]
/-- A field is read from the register fabric alone. -/
theorem State.get_of_fab {s t : State} (h : t.fab = s.fab) (p : Page) (x : Fld) : t.get p x = s.get p x := by
  rw [State.get, State.get, h]
theorem State.get_of_regs {s t : State} (h : t.fab.regs = s.fab.regs) (p : Page) (x : Fld) : t.get p x = s.get p x := Fab.get_of h p x
theorem State.flag_of_fab {s t : State} (h : t.fab = s.fab) (p : Page) (x : Fld) : t.flag p x = s.flag p x := by
  rw [State.flag, State.flag, h]
theorem State.isOn_of_fab {s t : State} (h : t.fab = s.fab) (p : Page) : t.isOn p = s.isOn p := by
  rw [State.isOn, State.isOn, h]
@[simp] theorem State.flag_count (s : State) (e : Evt) (n : Nat) (p : Page) (x : Fld) : (s.count e n).flag p x = s.flag p x := by
  rw [State.flag, State.count_fab, Fab.flag, Fab.get_count, State.flag, Fab.flag]
@[simp] theorem State.flag_emit (s : State) (e : Emit) (p : Page) (x : Fld) : (s.emit e).flag p x = s.flag p x := by
  rw [State.flag, State.emit_fab, Fab.flag, Fab.get_emit, State.flag, Fab.flag]
@[simp] theorem State.isOn_count (s : State) (e : Evt) (n : Nat) (p : Page) : (s.count e n).isOn p = s.isOn p := by
  rw [State.isOn, State.count_fab, Fab.isOn, Fab.page, Fab.count_pages, State.isOn, Fab.isOn, Fab.page]
@[simp] theorem State.isOn_emit (s : State) (e : Emit) (p : Page) : (s.emit e).isOn p = s.isOn p := by
  rw [State.isOn, State.emit_fab, Fab.isOn, Fab.page, Fab.emit_pages, State.isOn, Fab.isOn, Fab.page]
@[simp] theorem State.isOn_setF (s : State) (r : Page) (x : Fld) (v : Nat) (p : Page) : (s.setF r x v).isOn p = s.isOn p := by
  rw [State.isOn, State.setF_fab, Fab.isOn, Fab.page, Fab.setF_pages, State.isOn, Fab.isOn, Fab.page]
@[simp] theorem State.when_out (s : State) (c : Bool) (g : State → State) (h : (g s).fab.out = s.fab.out) : (s.when c g).fab.out = s.fab.out := by
  unfold State.when
  split
  · exact h
  · rfl
@[simp] theorem State.when_regs (s : State) (c : Bool) (g : State → State) (h : (g s).fab.regs = s.fab.regs) : (s.when c g).fab.regs = s.fab.regs := by
  unfold State.when
  split
  · exact h
  · rfl
@[simp] theorem State.get_onLine (s : State) (k : LineSt → LineSt) (p : Page) (x : Fld) : (s.onLine k).get p x = s.get p x :=
  State.get_of_fab (State.onLine_fab s k) p x
@[simp] theorem State.flag_onLine (s : State) (k : LineSt → LineSt) (p : Page) (x : Fld) : (s.onLine k).flag p x = s.flag p x :=
  State.flag_of_fab (State.onLine_fab s k) p x
@[simp] theorem State.isOn_onLine (s : State) (k : LineSt → LineSt) (p : Page) : (s.onLine k).isOn p = s.isOn p :=
  State.isOn_of_fab (State.onLine_fab s k) p
@[simp] theorem State.get_onPtp (s : State) (k : PtpSt → PtpSt) (p : Page) (x : Fld) : (s.onPtp k).get p x = s.get p x :=
  State.get_of_fab (State.onPtp_fab s k) p x
@[simp] theorem State.flag_onPtp (s : State) (k : PtpSt → PtpSt) (p : Page) (x : Fld) : (s.onPtp k).flag p x = s.flag p x :=
  State.flag_of_fab (State.onPtp_fab s k) p x
@[simp] theorem State.isOn_onPtp (s : State) (k : PtpSt → PtpSt) (p : Page) : (s.onPtp k).isOn p = s.isOn p :=
  State.isOn_of_fab (State.onPtp_fab s k) p
@[simp] theorem State.get_onXprt (s : State) (k : XprtSt → XprtSt) (p : Page) (x : Fld) : (s.onXprt k).get p x = s.get p x :=
  State.get_of_fab (State.onXprt_fab s k) p x
@[simp] theorem State.flag_onXprt (s : State) (k : XprtSt → XprtSt) (p : Page) (x : Fld) : (s.onXprt k).flag p x = s.flag p x :=
  State.flag_of_fab (State.onXprt_fab s k) p x
@[simp] theorem State.isOn_onXprt (s : State) (k : XprtSt → XprtSt) (p : Page) : (s.onXprt k).isOn p = s.isOn p :=
  State.isOn_of_fab (State.onXprt_fab s k) p
@[simp] theorem State.get_onGard (s : State) (k : GardSt → GardSt) (p : Page) (x : Fld) : (s.onGard k).get p x = s.get p x :=
  State.get_of_fab (State.onGard_fab s k) p x
@[simp] theorem State.flag_onGard (s : State) (k : GardSt → GardSt) (p : Page) (x : Fld) : (s.onGard k).flag p x = s.flag p x :=
  State.flag_of_fab (State.onGard_fab s k) p x
@[simp] theorem State.isOn_onGard (s : State) (k : GardSt → GardSt) (p : Page) : (s.onGard k).isOn p = s.isOn p :=
  State.isOn_of_fab (State.onGard_fab s k) p
@[simp] theorem State.get_onTmgr (s : State) (k : TmgrSt → TmgrSt) (p : Page) (x : Fld) : (s.onTmgr k).get p x = s.get p x :=
  State.get_of_fab (State.onTmgr_fab s k) p x
@[simp] theorem State.flag_onTmgr (s : State) (k : TmgrSt → TmgrSt) (p : Page) (x : Fld) : (s.onTmgr k).flag p x = s.flag p x :=
  State.flag_of_fab (State.onTmgr_fab s k) p x
@[simp] theorem State.isOn_onTmgr (s : State) (k : TmgrSt → TmgrSt) (p : Page) : (s.onTmgr k).isOn p = s.isOn p :=
  State.isOn_of_fab (State.onTmgr_fab s k) p
@[simp] theorem State.get_onVat (s : State) (k : VatSt → VatSt) (p : Page) (x : Fld) : (s.onVat k).get p x = s.get p x :=
  State.get_of_fab (State.onVat_fab s k) p x
@[simp] theorem State.flag_onVat (s : State) (k : VatSt → VatSt) (p : Page) (x : Fld) : (s.onVat k).flag p x = s.flag p x :=
  State.flag_of_fab (State.onVat_fab s k) p x
@[simp] theorem State.isOn_onVat (s : State) (k : VatSt → VatSt) (p : Page) : (s.onVat k).isOn p = s.isOn p :=
  State.isOn_of_fab (State.onVat_fab s k) p
@[simp] theorem State.get_onCell (s : State) (k : CellSt → CellSt) (p : Page) (x : Fld) : (s.onCell k).get p x = s.get p x :=
  State.get_of_fab (State.onCell_fab s k) p x
@[simp] theorem State.flag_onCell (s : State) (k : CellSt → CellSt) (p : Page) (x : Fld) : (s.onCell k).flag p x = s.flag p x :=
  State.flag_of_fab (State.onCell_fab s k) p x
@[simp] theorem State.isOn_onCell (s : State) (k : CellSt → CellSt) (p : Page) : (s.onCell k).isOn p = s.isOn p :=
  State.isOn_of_fab (State.onCell_fab s k) p
@[simp] theorem State.get_onCmdq (s : State) (k : CmdqSt → CmdqSt) (p : Page) (x : Fld) : (s.onCmdq k).get p x = s.get p x :=
  State.get_of_fab (State.onCmdq_fab s k) p x
@[simp] theorem State.flag_onCmdq (s : State) (k : CmdqSt → CmdqSt) (p : Page) (x : Fld) : (s.onCmdq k).flag p x = s.flag p x :=
  State.flag_of_fab (State.onCmdq_fab s k) p x
@[simp] theorem State.isOn_onCmdq (s : State) (k : CmdqSt → CmdqSt) (p : Page) : (s.onCmdq k).isOn p = s.isOn p :=
  State.isOn_of_fab (State.onCmdq_fab s k) p
@[simp] theorem State.get_onRegn (s : State) (k : RegnSt → RegnSt) (p : Page) (x : Fld) : (s.onRegn k).get p x = s.get p x :=
  State.get_of_fab (State.onRegn_fab s k) p x
@[simp] theorem State.flag_onRegn (s : State) (k : RegnSt → RegnSt) (p : Page) (x : Fld) : (s.onRegn k).flag p x = s.flag p x :=
  State.flag_of_fab (State.onRegn_fab s k) p x
@[simp] theorem State.isOn_onRegn (s : State) (k : RegnSt → RegnSt) (p : Page) : (s.onRegn k).isOn p = s.isOn p :=
  State.isOn_of_fab (State.onRegn_fab s k) p
@[simp] theorem State.get_onJrnl (s : State) (k : JrnlSt → JrnlSt) (p : Page) (x : Fld) : (s.onJrnl k).get p x = s.get p x :=
  State.get_of_fab (State.onJrnl_fab s k) p x
@[simp] theorem State.flag_onJrnl (s : State) (k : JrnlSt → JrnlSt) (p : Page) (x : Fld) : (s.onJrnl k).flag p x = s.flag p x :=
  State.flag_of_fab (State.onJrnl_fab s k) p x
@[simp] theorem State.isOn_onJrnl (s : State) (k : JrnlSt → JrnlSt) (p : Page) : (s.onJrnl k).isOn p = s.isOn p :=
  State.isOn_of_fab (State.onJrnl_fab s k) p
@[simp] theorem State.get_onCmpr (s : State) (k : CmprSt → CmprSt) (p : Page) (x : Fld) : (s.onCmpr k).get p x = s.get p x :=
  State.get_of_fab (State.onCmpr_fab s k) p x
@[simp] theorem State.flag_onCmpr (s : State) (k : CmprSt → CmprSt) (p : Page) (x : Fld) : (s.onCmpr k).flag p x = s.flag p x :=
  State.flag_of_fab (State.onCmpr_fab s k) p x
@[simp] theorem State.isOn_onCmpr (s : State) (k : CmprSt → CmprSt) (p : Page) : (s.onCmpr k).isOn p = s.isOn p :=
  State.isOn_of_fab (State.onCmpr_fab s k) p
@[simp] theorem State.get_onPlce (s : State) (k : PlceSt → PlceSt) (p : Page) (x : Fld) : (s.onPlce k).get p x = s.get p x :=
  State.get_of_fab (State.onPlce_fab s k) p x
@[simp] theorem State.flag_onPlce (s : State) (k : PlceSt → PlceSt) (p : Page) (x : Fld) : (s.onPlce k).flag p x = s.flag p x :=
  State.flag_of_fab (State.onPlce_fab s k) p x
@[simp] theorem State.isOn_onPlce (s : State) (k : PlceSt → PlceSt) (p : Page) : (s.onPlce k).isOn p = s.isOn p :=
  State.isOn_of_fab (State.onPlce_fab s k) p
@[simp] theorem State.get_onStrp (s : State) (k : StrpSt → StrpSt) (p : Page) (x : Fld) : (s.onStrp k).get p x = s.get p x :=
  State.get_of_fab (State.onStrp_fab s k) p x
@[simp] theorem State.flag_onStrp (s : State) (k : StrpSt → StrpSt) (p : Page) (x : Fld) : (s.onStrp k).flag p x = s.flag p x :=
  State.flag_of_fab (State.onStrp_fab s k) p x
@[simp] theorem State.isOn_onStrp (s : State) (k : StrpSt → StrpSt) (p : Page) : (s.onStrp k).isOn p = s.isOn p :=
  State.isOn_of_fab (State.onStrp_fab s k) p
@[simp] theorem State.get_onDrvp (s : State) (k : DrvpSt → DrvpSt) (p : Page) (x : Fld) : (s.onDrvp k).get p x = s.get p x :=
  State.get_of_fab (State.onDrvp_fab s k) p x
@[simp] theorem State.flag_onDrvp (s : State) (k : DrvpSt → DrvpSt) (p : Page) (x : Fld) : (s.onDrvp k).flag p x = s.flag p x :=
  State.flag_of_fab (State.onDrvp_fab s k) p x
@[simp] theorem State.isOn_onDrvp (s : State) (k : DrvpSt → DrvpSt) (p : Page) : (s.onDrvp k).isOn p = s.isOn p :=
  State.isOn_of_fab (State.onDrvp_fab s k) p
@[simp] theorem State.get_onPair (s : State) (k : PairSt → PairSt) (p : Page) (x : Fld) : (s.onPair k).get p x = s.get p x :=
  State.get_of_fab (State.onPair_fab s k) p x
@[simp] theorem State.flag_onPair (s : State) (k : PairSt → PairSt) (p : Page) (x : Fld) : (s.onPair k).flag p x = s.flag p x :=
  State.flag_of_fab (State.onPair_fab s k) p x
@[simp] theorem State.isOn_onPair (s : State) (k : PairSt → PairSt) (p : Page) : (s.onPair k).isOn p = s.isOn p :=
  State.isOn_of_fab (State.onPair_fab s k) p
@[simp] theorem State.get_onPol (s : State) (k : PolSt → PolSt) (p : Page) (x : Fld) : (s.onPol k).get p x = s.get p x :=
  State.get_of_fab (State.onPol_fab s k) p x
@[simp] theorem State.flag_onPol (s : State) (k : PolSt → PolSt) (p : Page) (x : Fld) : (s.onPol k).flag p x = s.flag p x :=
  State.flag_of_fab (State.onPol_fab s k) p x
@[simp] theorem State.isOn_onPol (s : State) (k : PolSt → PolSt) (p : Page) : (s.onPol k).isOn p = s.isOn p :=
  State.isOn_of_fab (State.onPol_fab s k) p
@[simp] theorem State.get_onIsland (s : State) (k : IslandSt → IslandSt) (p : Page) (x : Fld) : (s.onIsland k).get p x = s.get p x :=
  State.get_of_fab (State.onIsland_fab s k) p x
@[simp] theorem State.flag_onIsland (s : State) (k : IslandSt → IslandSt) (p : Page) (x : Fld) : (s.onIsland k).flag p x = s.flag p x :=
  State.flag_of_fab (State.onIsland_fab s k) p x
@[simp] theorem State.isOn_onIsland (s : State) (k : IslandSt → IslandSt) (p : Page) : (s.onIsland k).isOn p = s.isOn p :=
  State.isOn_of_fab (State.onIsland_fab s k) p
@[simp] theorem State.get_onPwr (s : State) (b : Nat) (k : BayPwr → BayPwr) (p : Page) (x : Fld) : (s.onPwr b k).get p x = s.get p x :=
  State.get_of_fab (State.onPwr_fab s b k) p x
@[simp] theorem State.flag_onPwr (s : State) (b : Nat) (k : BayPwr → BayPwr) (p : Page) (x : Fld) : (s.onPwr b k).flag p x = s.flag p x :=
  State.flag_of_fab (State.onPwr_fab s b k) p x
@[simp] theorem State.isOn_onPwr (s : State) (b : Nat) (k : BayPwr → BayPwr) (p : Page) : (s.onPwr b k).isOn p = s.isOn p :=
  State.isOn_of_fab (State.onPwr_fab s b k) p
/-- A field holds less than its width says. -/
theorem Fab.get_lt (f : Fab) (p : Page) (x : Fld) : f.get p x < 2 ^ x.w := Nat.mod_lt _ (Nat.two_pow_pos _)
theorem State.get_lt (s : State) (p : Page) (x : Fld) : s.get p x < 2 ^ x.w := Fab.get_lt _ _ _

end Sys2Proof.Machine
end

