-- ==== Sys2Proof/Laws/Frame.lean ====
section
/-!
SUPPORT. What operations on the whole state leave in a part of it that they do not act on.
-/
namespace Sys2Proof.Machine
open Sys2Proof

@[simp] theorem setPort_xprt (p : Nat) (v : PortSt) (s : State) : (State.setPort p v s).xprt = s.xprt := by
  unfold State.setPort
  repeat' first | (simp; done) | split | dsimp only
@[simp] theorem setPort_gard (p : Nat) (v : PortSt) (s : State) : (State.setPort p v s).gard = s.gard := by
  unfold State.setPort
  repeat' first | (simp; done) | split | dsimp only
@[simp] theorem setPort_vat (p : Nat) (v : PortSt) (s : State) : (State.setPort p v s).vat = s.vat := by
  unfold State.setPort
  repeat' first | (simp; done) | split | dsimp only
@[simp] theorem setPort_cell (p : Nat) (v : PortSt) (s : State) : (State.setPort p v s).cell = s.cell := by
  unfold State.setPort
  repeat' first | (simp; done) | split | dsimp only
@[simp] theorem setPort_cmdq (p : Nat) (v : PortSt) (s : State) : (State.setPort p v s).cmdq = s.cmdq := by
  unfold State.setPort
  repeat' first | (simp; done) | split | dsimp only
@[simp] theorem setPort_regn (p : Nat) (v : PortSt) (s : State) : (State.setPort p v s).regn = s.regn := by
  unfold State.setPort
  repeat' first | (simp; done) | split | dsimp only
@[simp] theorem setPort_jrnl (p : Nat) (v : PortSt) (s : State) : (State.setPort p v s).jrnl = s.jrnl := by
  unfold State.setPort
  repeat' first | (simp; done) | split | dsimp only
@[simp] theorem setPort_cmpr (p : Nat) (v : PortSt) (s : State) : (State.setPort p v s).cmpr = s.cmpr := by
  unfold State.setPort
  repeat' first | (simp; done) | split | dsimp only
@[simp] theorem setPort_plce (p : Nat) (v : PortSt) (s : State) : (State.setPort p v s).plce = s.plce := by
  unfold State.setPort
  repeat' first | (simp; done) | split | dsimp only
@[simp] theorem setPort_strp (p : Nat) (v : PortSt) (s : State) : (State.setPort p v s).strp = s.strp := by
  unfold State.setPort
  repeat' first | (simp; done) | split | dsimp only
@[simp] theorem setPort_drvp (p : Nat) (v : PortSt) (s : State) : (State.setPort p v s).drvp = s.drvp := by
  unfold State.setPort
  repeat' first | (simp; done) | split | dsimp only
@[simp] theorem setPort_pair (p : Nat) (v : PortSt) (s : State) : (State.setPort p v s).pair = s.pair := by
  unfold State.setPort
  repeat' first | (simp; done) | split | dsimp only
@[simp] theorem setPort_bayp (p : Nat) (v : PortSt) (s : State) : (State.setPort p v s).bayp = s.bayp := by
  unfold State.setPort
  repeat' first | (simp; done) | split | dsimp only
@[simp] theorem setPort_pol (p : Nat) (v : PortSt) (s : State) : (State.setPort p v s).pol = s.pol := by
  unfold State.setPort
  repeat' first | (simp; done) | split | dsimp only
@[simp] theorem setPort_now (p : Nat) (v : PortSt) (s : State) : (State.setPort p v s).now = s.now := by
  unfold State.setPort
  repeat' first | (simp; done) | split | dsimp only
@[simp] theorem setPort_pending (p : Nat) (v : PortSt) (s : State) : (State.setPort p v s).pending = s.pending := by
  unfold State.setPort
  repeat' first | (simp; done) | split | dsimp only
@[simp] theorem beginPort_xprt (p : Nat) (v : PortSt) (s : State) : (State.beginPort p v s).xprt = s.xprt := by
  unfold State.beginPort
  repeat' first | (simp; done) | split | dsimp only
@[simp] theorem beginPort_gard (p : Nat) (v : PortSt) (s : State) : (State.beginPort p v s).gard = s.gard := by
  unfold State.beginPort
  repeat' first | (simp; done) | split | dsimp only
@[simp] theorem beginPort_vat (p : Nat) (v : PortSt) (s : State) : (State.beginPort p v s).vat = s.vat := by
  unfold State.beginPort
  repeat' first | (simp; done) | split | dsimp only
@[simp] theorem beginPort_cell (p : Nat) (v : PortSt) (s : State) : (State.beginPort p v s).cell = s.cell := by
  unfold State.beginPort
  repeat' first | (simp; done) | split | dsimp only
@[simp] theorem beginPort_cmdq (p : Nat) (v : PortSt) (s : State) : (State.beginPort p v s).cmdq = s.cmdq := by
  unfold State.beginPort
  repeat' first | (simp; done) | split | dsimp only
@[simp] theorem beginPort_regn (p : Nat) (v : PortSt) (s : State) : (State.beginPort p v s).regn = s.regn := by
  unfold State.beginPort
  repeat' first | (simp; done) | split | dsimp only
@[simp] theorem beginPort_jrnl (p : Nat) (v : PortSt) (s : State) : (State.beginPort p v s).jrnl = s.jrnl := by
  unfold State.beginPort
  repeat' first | (simp; done) | split | dsimp only
@[simp] theorem beginPort_cmpr (p : Nat) (v : PortSt) (s : State) : (State.beginPort p v s).cmpr = s.cmpr := by
  unfold State.beginPort
  repeat' first | (simp; done) | split | dsimp only
@[simp] theorem beginPort_plce (p : Nat) (v : PortSt) (s : State) : (State.beginPort p v s).plce = s.plce := by
  unfold State.beginPort
  repeat' first | (simp; done) | split | dsimp only
@[simp] theorem beginPort_strp (p : Nat) (v : PortSt) (s : State) : (State.beginPort p v s).strp = s.strp := by
  unfold State.beginPort
  repeat' first | (simp; done) | split | dsimp only
@[simp] theorem beginPort_drvp (p : Nat) (v : PortSt) (s : State) : (State.beginPort p v s).drvp = s.drvp := by
  unfold State.beginPort
  repeat' first | (simp; done) | split | dsimp only
@[simp] theorem beginPort_pair (p : Nat) (v : PortSt) (s : State) : (State.beginPort p v s).pair = s.pair := by
  unfold State.beginPort
  repeat' first | (simp; done) | split | dsimp only
@[simp] theorem beginPort_bayp (p : Nat) (v : PortSt) (s : State) : (State.beginPort p v s).bayp = s.bayp := by
  unfold State.beginPort
  repeat' first | (simp; done) | split | dsimp only
@[simp] theorem beginPort_pol (p : Nat) (v : PortSt) (s : State) : (State.beginPort p v s).pol = s.pol := by
  unfold State.beginPort
  repeat' first | (simp; done) | split | dsimp only
@[simp] theorem beginPort_now (p : Nat) (v : PortSt) (s : State) : (State.beginPort p v s).now = s.now := by
  unfold State.beginPort
  repeat' first | (simp; done) | split | dsimp only
@[simp] theorem beginPort_pending (p : Nat) (v : PortSt) (s : State) : (State.beginPort p v s).pending = s.pending := by
  unfold State.beginPort
  repeat' first | (simp; done) | split | dsimp only
@[simp] theorem syncGrp_line (g : Nat) (s : State) : (State.syncGrp g s).line = s.line := by
  unfold State.syncGrp
  repeat' first | (simp; done) | split | dsimp only
@[simp] theorem syncGrp_xprt (g : Nat) (s : State) : (State.syncGrp g s).xprt = s.xprt := by
  unfold State.syncGrp
  repeat' first | (simp; done) | split | dsimp only
@[simp] theorem syncGrp_gard (g : Nat) (s : State) : (State.syncGrp g s).gard = s.gard := by
  unfold State.syncGrp
  repeat' first | (simp; done) | split | dsimp only
@[simp] theorem syncGrp_vat (g : Nat) (s : State) : (State.syncGrp g s).vat = s.vat := by
  unfold State.syncGrp
  repeat' first | (simp; done) | split | dsimp only
@[simp] theorem syncGrp_cell (g : Nat) (s : State) : (State.syncGrp g s).cell = s.cell := by
  unfold State.syncGrp
  repeat' first | (simp; done) | split | dsimp only
@[simp] theorem syncGrp_cmdq (g : Nat) (s : State) : (State.syncGrp g s).cmdq = s.cmdq := by
  unfold State.syncGrp
  repeat' first | (simp; done) | split | dsimp only
@[simp] theorem syncGrp_regn (g : Nat) (s : State) : (State.syncGrp g s).regn = s.regn := by
  unfold State.syncGrp
  repeat' first | (simp; done) | split | dsimp only
@[simp] theorem syncGrp_jrnl (g : Nat) (s : State) : (State.syncGrp g s).jrnl = s.jrnl := by
  unfold State.syncGrp
  repeat' first | (simp; done) | split | dsimp only
@[simp] theorem syncGrp_cmpr (g : Nat) (s : State) : (State.syncGrp g s).cmpr = s.cmpr := by
  unfold State.syncGrp
  repeat' first | (simp; done) | split | dsimp only
@[simp] theorem syncGrp_plce (g : Nat) (s : State) : (State.syncGrp g s).plce = s.plce := by
  unfold State.syncGrp
  repeat' first | (simp; done) | split | dsimp only
@[simp] theorem syncGrp_strp (g : Nat) (s : State) : (State.syncGrp g s).strp = s.strp := by
  unfold State.syncGrp
  repeat' first | (simp; done) | split | dsimp only
@[simp] theorem syncGrp_drvp (g : Nat) (s : State) : (State.syncGrp g s).drvp = s.drvp := by
  unfold State.syncGrp
  repeat' first | (simp; done) | split | dsimp only
@[simp] theorem syncGrp_pair (g : Nat) (s : State) : (State.syncGrp g s).pair = s.pair := by
  unfold State.syncGrp
  repeat' first | (simp; done) | split | dsimp only
@[simp] theorem syncGrp_bayp (g : Nat) (s : State) : (State.syncGrp g s).bayp = s.bayp := by
  unfold State.syncGrp
  repeat' first | (simp; done) | split | dsimp only
@[simp] theorem syncGrp_pol (g : Nat) (s : State) : (State.syncGrp g s).pol = s.pol := by
  unfold State.syncGrp
  repeat' first | (simp; done) | split | dsimp only
@[simp] theorem syncGrp_now (g : Nat) (s : State) : (State.syncGrp g s).now = s.now := by
  unfold State.syncGrp
  repeat' first | (simp; done) | split | dsimp only
@[simp] theorem syncGrp_pending (g : Nat) (s : State) : (State.syncGrp g s).pending = s.pending := by
  unfold State.syncGrp
  repeat' first | (simp; done) | split | dsimp only
@[simp] theorem syncLane_line (lane : Nat) (s : State) : (State.syncLane lane s).line = s.line := by
  unfold State.syncLane
  repeat' first | (simp; done) | split | dsimp only
@[simp] theorem syncLane_xprt (lane : Nat) (s : State) : (State.syncLane lane s).xprt = s.xprt := by
  unfold State.syncLane
  repeat' first | (simp; done) | split | dsimp only
@[simp] theorem syncLane_gard (lane : Nat) (s : State) : (State.syncLane lane s).gard = s.gard := by
  unfold State.syncLane
  repeat' first | (simp; done) | split | dsimp only
@[simp] theorem syncLane_vat (lane : Nat) (s : State) : (State.syncLane lane s).vat = s.vat := by
  unfold State.syncLane
  repeat' first | (simp; done) | split | dsimp only
@[simp] theorem syncLane_cell (lane : Nat) (s : State) : (State.syncLane lane s).cell = s.cell := by
  unfold State.syncLane
  repeat' first | (simp; done) | split | dsimp only
@[simp] theorem syncLane_cmdq (lane : Nat) (s : State) : (State.syncLane lane s).cmdq = s.cmdq := by
  unfold State.syncLane
  repeat' first | (simp; done) | split | dsimp only
@[simp] theorem syncLane_regn (lane : Nat) (s : State) : (State.syncLane lane s).regn = s.regn := by
  unfold State.syncLane
  repeat' first | (simp; done) | split | dsimp only
@[simp] theorem syncLane_jrnl (lane : Nat) (s : State) : (State.syncLane lane s).jrnl = s.jrnl := by
  unfold State.syncLane
  repeat' first | (simp; done) | split | dsimp only
@[simp] theorem syncLane_cmpr (lane : Nat) (s : State) : (State.syncLane lane s).cmpr = s.cmpr := by
  unfold State.syncLane
  repeat' first | (simp; done) | split | dsimp only
@[simp] theorem syncLane_plce (lane : Nat) (s : State) : (State.syncLane lane s).plce = s.plce := by
  unfold State.syncLane
  repeat' first | (simp; done) | split | dsimp only
@[simp] theorem syncLane_strp (lane : Nat) (s : State) : (State.syncLane lane s).strp = s.strp := by
  unfold State.syncLane
  repeat' first | (simp; done) | split | dsimp only
@[simp] theorem syncLane_drvp (lane : Nat) (s : State) : (State.syncLane lane s).drvp = s.drvp := by
  unfold State.syncLane
  repeat' first | (simp; done) | split | dsimp only
@[simp] theorem syncLane_pair (lane : Nat) (s : State) : (State.syncLane lane s).pair = s.pair := by
  unfold State.syncLane
  repeat' first | (simp; done) | split | dsimp only
@[simp] theorem syncLane_bayp (lane : Nat) (s : State) : (State.syncLane lane s).bayp = s.bayp := by
  unfold State.syncLane
  repeat' first | (simp; done) | split | dsimp only
@[simp] theorem syncLane_pol (lane : Nat) (s : State) : (State.syncLane lane s).pol = s.pol := by
  unfold State.syncLane
  repeat' first | (simp; done) | split | dsimp only
@[simp] theorem syncLane_now (lane : Nat) (s : State) : (State.syncLane lane s).now = s.now := by
  unfold State.syncLane
  repeat' first | (simp; done) | split | dsimp only
@[simp] theorem syncLane_pending (lane : Nat) (s : State) : (State.syncLane lane s).pending = s.pending := by
  unfold State.syncLane
  repeat' first | (simp; done) | split | dsimp only
@[simp] theorem syncPorts_line (g : Nat) (s : State) : (State.syncPorts g s).line = s.line := by
  unfold State.syncPorts
  repeat' first | (simp; done) | split | dsimp only
@[simp] theorem syncPorts_xprt (g : Nat) (s : State) : (State.syncPorts g s).xprt = s.xprt := by
  unfold State.syncPorts
  repeat' first | (simp; done) | split | dsimp only
@[simp] theorem syncPorts_gard (g : Nat) (s : State) : (State.syncPorts g s).gard = s.gard := by
  unfold State.syncPorts
  repeat' first | (simp; done) | split | dsimp only
@[simp] theorem syncPorts_vat (g : Nat) (s : State) : (State.syncPorts g s).vat = s.vat := by
  unfold State.syncPorts
  repeat' first | (simp; done) | split | dsimp only
@[simp] theorem syncPorts_cell (g : Nat) (s : State) : (State.syncPorts g s).cell = s.cell := by
  unfold State.syncPorts
  repeat' first | (simp; done) | split | dsimp only
@[simp] theorem syncPorts_cmdq (g : Nat) (s : State) : (State.syncPorts g s).cmdq = s.cmdq := by
  unfold State.syncPorts
  repeat' first | (simp; done) | split | dsimp only
@[simp] theorem syncPorts_regn (g : Nat) (s : State) : (State.syncPorts g s).regn = s.regn := by
  unfold State.syncPorts
  repeat' first | (simp; done) | split | dsimp only
@[simp] theorem syncPorts_jrnl (g : Nat) (s : State) : (State.syncPorts g s).jrnl = s.jrnl := by
  unfold State.syncPorts
  repeat' first | (simp; done) | split | dsimp only
@[simp] theorem syncPorts_cmpr (g : Nat) (s : State) : (State.syncPorts g s).cmpr = s.cmpr := by
  unfold State.syncPorts
  repeat' first | (simp; done) | split | dsimp only
@[simp] theorem syncPorts_plce (g : Nat) (s : State) : (State.syncPorts g s).plce = s.plce := by
  unfold State.syncPorts
  repeat' first | (simp; done) | split | dsimp only
@[simp] theorem syncPorts_strp (g : Nat) (s : State) : (State.syncPorts g s).strp = s.strp := by
  unfold State.syncPorts
  repeat' first | (simp; done) | split | dsimp only
@[simp] theorem syncPorts_drvp (g : Nat) (s : State) : (State.syncPorts g s).drvp = s.drvp := by
  unfold State.syncPorts
  repeat' first | (simp; done) | split | dsimp only
@[simp] theorem syncPorts_pair (g : Nat) (s : State) : (State.syncPorts g s).pair = s.pair := by
  unfold State.syncPorts
  repeat' first | (simp; done) | split | dsimp only
@[simp] theorem syncPorts_bayp (g : Nat) (s : State) : (State.syncPorts g s).bayp = s.bayp := by
  unfold State.syncPorts
  repeat' first | (simp; done) | split | dsimp only
@[simp] theorem syncPorts_pol (g : Nat) (s : State) : (State.syncPorts g s).pol = s.pol := by
  unfold State.syncPorts
  repeat' first | (simp; done) | split | dsimp only
@[simp] theorem syncPorts_now (g : Nat) (s : State) : (State.syncPorts g s).now = s.now := by
  unfold State.syncPorts
  repeat' first | (simp; done) | split | dsimp only
@[simp] theorem syncPorts_pending (g : Nat) (s : State) : (State.syncPorts g s).pending = s.pending := by
  unfold State.syncPorts
  repeat' first | (simp; done) | split | dsimp only
@[simp] theorem txFrame_line (g len : Nat) (s : State) : (State.txFrame g len s).line = s.line := by
  unfold State.txFrame
  repeat' first | (simp; done) | split | dsimp only
@[simp] theorem txFrame_ptp (g len : Nat) (s : State) : (State.txFrame g len s).ptp = s.ptp := by
  unfold State.txFrame
  repeat' first | (simp; done) | split | dsimp only
@[simp] theorem txFrame_xprt (g len : Nat) (s : State) : (State.txFrame g len s).xprt = s.xprt := by
  unfold State.txFrame
  repeat' first | (simp; done) | split | dsimp only
@[simp] theorem txFrame_gard (g len : Nat) (s : State) : (State.txFrame g len s).gard = s.gard := by
  unfold State.txFrame
  repeat' first | (simp; done) | split | dsimp only
@[simp] theorem txFrame_tmgr (g len : Nat) (s : State) : (State.txFrame g len s).tmgr = s.tmgr := by
  unfold State.txFrame
  repeat' first | (simp; done) | split | dsimp only
@[simp] theorem txFrame_vat (g len : Nat) (s : State) : (State.txFrame g len s).vat = s.vat := by
  unfold State.txFrame
  repeat' first | (simp; done) | split | dsimp only
@[simp] theorem txFrame_cell (g len : Nat) (s : State) : (State.txFrame g len s).cell = s.cell := by
  unfold State.txFrame
  repeat' first | (simp; done) | split | dsimp only
@[simp] theorem txFrame_cmdq (g len : Nat) (s : State) : (State.txFrame g len s).cmdq = s.cmdq := by
  unfold State.txFrame
  repeat' first | (simp; done) | split | dsimp only
@[simp] theorem txFrame_regn (g len : Nat) (s : State) : (State.txFrame g len s).regn = s.regn := by
  unfold State.txFrame
  repeat' first | (simp; done) | split | dsimp only
@[simp] theorem txFrame_jrnl (g len : Nat) (s : State) : (State.txFrame g len s).jrnl = s.jrnl := by
  unfold State.txFrame
  repeat' first | (simp; done) | split | dsimp only
@[simp] theorem txFrame_cmpr (g len : Nat) (s : State) : (State.txFrame g len s).cmpr = s.cmpr := by
  unfold State.txFrame
  repeat' first | (simp; done) | split | dsimp only
@[simp] theorem txFrame_plce (g len : Nat) (s : State) : (State.txFrame g len s).plce = s.plce := by
  unfold State.txFrame
  repeat' first | (simp; done) | split | dsimp only
@[simp] theorem txFrame_strp (g len : Nat) (s : State) : (State.txFrame g len s).strp = s.strp := by
  unfold State.txFrame
  repeat' first | (simp; done) | split | dsimp only
@[simp] theorem txFrame_drvp (g len : Nat) (s : State) : (State.txFrame g len s).drvp = s.drvp := by
  unfold State.txFrame
  repeat' first | (simp; done) | split | dsimp only
@[simp] theorem txFrame_pair (g len : Nat) (s : State) : (State.txFrame g len s).pair = s.pair := by
  unfold State.txFrame
  repeat' first | (simp; done) | split | dsimp only
@[simp] theorem txFrame_bayp (g len : Nat) (s : State) : (State.txFrame g len s).bayp = s.bayp := by
  unfold State.txFrame
  repeat' first | (simp; done) | split | dsimp only
@[simp] theorem txFrame_pol (g len : Nat) (s : State) : (State.txFrame g len s).pol = s.pol := by
  unfold State.txFrame
  repeat' first | (simp; done) | split | dsimp only
@[simp] theorem txFrame_tap (g len : Nat) (s : State) : (State.txFrame g len s).tap = s.tap := by
  unfold State.txFrame
  repeat' first | (simp; done) | split | dsimp only
@[simp] theorem txFrame_now (g len : Nat) (s : State) : (State.txFrame g len s).now = s.now := by
  unfold State.txFrame
  repeat' first | (simp; done) | split | dsimp only
@[simp] theorem txFrame_drawn (g len : Nat) (s : State) : (State.txFrame g len s).drawn = s.drawn := by
  unfold State.txFrame
  repeat' first | (simp; done) | split | dsimp only
@[simp] theorem txFrame_pending (g len : Nat) (s : State) : (State.txFrame g len s).pending = s.pending := by
  unfold State.txFrame
  repeat' first | (simp; done) | split | dsimp only
@[simp] theorem addMeter_fab (tenant : Nat) (g : MeterAcc → MeterAcc) (s : State) : (State.addMeter tenant g s).fab = s.fab := by
  unfold State.addMeter
  repeat' first | (simp; done) | split | dsimp only
@[simp] theorem addMeter_line (tenant : Nat) (g : MeterAcc → MeterAcc) (s : State) : (State.addMeter tenant g s).line = s.line := by
  unfold State.addMeter
  repeat' first | (simp; done) | split | dsimp only
@[simp] theorem addMeter_ptp (tenant : Nat) (g : MeterAcc → MeterAcc) (s : State) : (State.addMeter tenant g s).ptp = s.ptp := by
  unfold State.addMeter
  repeat' first | (simp; done) | split | dsimp only
@[simp] theorem addMeter_xprt (tenant : Nat) (g : MeterAcc → MeterAcc) (s : State) : (State.addMeter tenant g s).xprt = s.xprt := by
  unfold State.addMeter
  repeat' first | (simp; done) | split | dsimp only
@[simp] theorem addMeter_gard (tenant : Nat) (g : MeterAcc → MeterAcc) (s : State) : (State.addMeter tenant g s).gard = s.gard := by
  unfold State.addMeter
  repeat' first | (simp; done) | split | dsimp only
@[simp] theorem addMeter_vat (tenant : Nat) (g : MeterAcc → MeterAcc) (s : State) : (State.addMeter tenant g s).vat = s.vat := by
  unfold State.addMeter
  repeat' first | (simp; done) | split | dsimp only
@[simp] theorem addMeter_cell (tenant : Nat) (g : MeterAcc → MeterAcc) (s : State) : (State.addMeter tenant g s).cell = s.cell := by
  unfold State.addMeter
  repeat' first | (simp; done) | split | dsimp only
@[simp] theorem addMeter_cmdq (tenant : Nat) (g : MeterAcc → MeterAcc) (s : State) : (State.addMeter tenant g s).cmdq = s.cmdq := by
  unfold State.addMeter
  repeat' first | (simp; done) | split | dsimp only
@[simp] theorem addMeter_regn (tenant : Nat) (g : MeterAcc → MeterAcc) (s : State) : (State.addMeter tenant g s).regn = s.regn := by
  unfold State.addMeter
  repeat' first | (simp; done) | split | dsimp only
@[simp] theorem addMeter_jrnl (tenant : Nat) (g : MeterAcc → MeterAcc) (s : State) : (State.addMeter tenant g s).jrnl = s.jrnl := by
  unfold State.addMeter
  repeat' first | (simp; done) | split | dsimp only
@[simp] theorem addMeter_cmpr (tenant : Nat) (g : MeterAcc → MeterAcc) (s : State) : (State.addMeter tenant g s).cmpr = s.cmpr := by
  unfold State.addMeter
  repeat' first | (simp; done) | split | dsimp only
@[simp] theorem addMeter_plce (tenant : Nat) (g : MeterAcc → MeterAcc) (s : State) : (State.addMeter tenant g s).plce = s.plce := by
  unfold State.addMeter
  repeat' first | (simp; done) | split | dsimp only
@[simp] theorem addMeter_strp (tenant : Nat) (g : MeterAcc → MeterAcc) (s : State) : (State.addMeter tenant g s).strp = s.strp := by
  unfold State.addMeter
  repeat' first | (simp; done) | split | dsimp only
@[simp] theorem addMeter_drvp (tenant : Nat) (g : MeterAcc → MeterAcc) (s : State) : (State.addMeter tenant g s).drvp = s.drvp := by
  unfold State.addMeter
  repeat' first | (simp; done) | split | dsimp only
@[simp] theorem addMeter_pair (tenant : Nat) (g : MeterAcc → MeterAcc) (s : State) : (State.addMeter tenant g s).pair = s.pair := by
  unfold State.addMeter
  repeat' first | (simp; done) | split | dsimp only
@[simp] theorem addMeter_bayp (tenant : Nat) (g : MeterAcc → MeterAcc) (s : State) : (State.addMeter tenant g s).bayp = s.bayp := by
  unfold State.addMeter
  repeat' first | (simp; done) | split | dsimp only
@[simp] theorem addMeter_pol (tenant : Nat) (g : MeterAcc → MeterAcc) (s : State) : (State.addMeter tenant g s).pol = s.pol := by
  unfold State.addMeter
  repeat' first | (simp; done) | split | dsimp only
@[simp] theorem addMeter_tap (tenant : Nat) (g : MeterAcc → MeterAcc) (s : State) : (State.addMeter tenant g s).tap = s.tap := by
  unfold State.addMeter
  repeat' first | (simp; done) | split | dsimp only
@[simp] theorem addMeter_now (tenant : Nat) (g : MeterAcc → MeterAcc) (s : State) : (State.addMeter tenant g s).now = s.now := by
  unfold State.addMeter
  repeat' first | (simp; done) | split | dsimp only
@[simp] theorem addMeter_drawn (tenant : Nat) (g : MeterAcc → MeterAcc) (s : State) : (State.addMeter tenant g s).drawn = s.drawn := by
  unfold State.addMeter
  repeat' first | (simp; done) | split | dsimp only
@[simp] theorem addMeter_pending (tenant : Nat) (g : MeterAcc → MeterAcc) (s : State) : (State.addMeter tenant g s).pending = s.pending := by
  unfold State.addMeter
  repeat' first | (simp; done) | split | dsimp only
@[simp] theorem minuteDue_fab (step : Bool) (s : State) : (State.minuteDue step s).fab = s.fab := by
  unfold State.minuteDue
  repeat' first | (simp; done) | split | dsimp only
@[simp] theorem minuteDue_line (step : Bool) (s : State) : (State.minuteDue step s).line = s.line := by
  unfold State.minuteDue
  repeat' first | (simp; done) | split | dsimp only
@[simp] theorem minuteDue_ptp (step : Bool) (s : State) : (State.minuteDue step s).ptp = s.ptp := by
  unfold State.minuteDue
  repeat' first | (simp; done) | split | dsimp only
@[simp] theorem syncCell_ptp (s : State) : (State.syncCell s).ptp = s.ptp := by
  unfold State.syncCell
  repeat' first | (simp; done) | split | dsimp only
@[simp] theorem syncCell_xprt (s : State) : (State.syncCell s).xprt = s.xprt := by
  unfold State.syncCell
  repeat' first | (simp; done) | split | dsimp only
@[simp] theorem syncCell_gard (s : State) : (State.syncCell s).gard = s.gard := by
  unfold State.syncCell
  repeat' first | (simp; done) | split | dsimp only
@[simp] theorem syncCell_tmgr (s : State) : (State.syncCell s).tmgr = s.tmgr := by
  unfold State.syncCell
  repeat' first | (simp; done) | split | dsimp only
@[simp] theorem syncCell_cmdq (s : State) : (State.syncCell s).cmdq = s.cmdq := by
  unfold State.syncCell
  repeat' first | (simp; done) | split | dsimp only
@[simp] theorem syncCell_regn (s : State) : (State.syncCell s).regn = s.regn := by
  unfold State.syncCell
  repeat' first | (simp; done) | split | dsimp only
@[simp] theorem syncCell_jrnl (s : State) : (State.syncCell s).jrnl = s.jrnl := by
  unfold State.syncCell
  repeat' first | (simp; done) | split | dsimp only
@[simp] theorem syncCell_cmpr (s : State) : (State.syncCell s).cmpr = s.cmpr := by
  unfold State.syncCell
  repeat' first | (simp; done) | split | dsimp only
@[simp] theorem syncCell_plce (s : State) : (State.syncCell s).plce = s.plce := by
  unfold State.syncCell
  repeat' first | (simp; done) | split | dsimp only
@[simp] theorem syncCell_strp (s : State) : (State.syncCell s).strp = s.strp := by
  unfold State.syncCell
  repeat' first | (simp; done) | split | dsimp only
@[simp] theorem syncCell_drvp (s : State) : (State.syncCell s).drvp = s.drvp := by
  unfold State.syncCell
  repeat' first | (simp; done) | split | dsimp only
@[simp] theorem syncCell_pair (s : State) : (State.syncCell s).pair = s.pair := by
  unfold State.syncCell
  repeat' first | (simp; done) | split | dsimp only
@[simp] theorem syncCell_bayp (s : State) : (State.syncCell s).bayp = s.bayp := by
  unfold State.syncCell
  repeat' first | (simp; done) | split | dsimp only
@[simp] theorem syncCell_pol (s : State) : (State.syncCell s).pol = s.pol := by
  unfold State.syncCell
  repeat' first | (simp; done) | split | dsimp only
@[simp] theorem syncCell_tap (s : State) : (State.syncCell s).tap = s.tap := by
  unfold State.syncCell
  repeat' first | (simp; done) | split | dsimp only
@[simp] theorem syncCell_now (s : State) : (State.syncCell s).now = s.now := by
  unfold State.syncCell
  repeat' first | (simp; done) | split | dsimp only
@[simp] theorem syncCell_drawn (s : State) : (State.syncCell s).drawn = s.drawn := by
  unfold State.syncCell
  repeat' first | (simp; done) | split | dsimp only
@[simp] theorem syncCell_pending (s : State) : (State.syncCell s).pending = s.pending := by
  unfold State.syncCell
  repeat' first | (simp; done) | split | dsimp only
@[simp] theorem sendPfc_ptp (port prio quanta : Nat) (s : State) : (State.sendPfc port prio quanta s).ptp = s.ptp := by
  unfold State.sendPfc
  repeat' first | (simp; done) | split | dsimp only
@[simp] theorem sendPfc_xprt (port prio quanta : Nat) (s : State) : (State.sendPfc port prio quanta s).xprt = s.xprt := by
  unfold State.sendPfc
  repeat' first | (simp; done) | split | dsimp only
@[simp] theorem sendPfc_gard (port prio quanta : Nat) (s : State) : (State.sendPfc port prio quanta s).gard = s.gard := by
  unfold State.sendPfc
  repeat' first | (simp; done) | split | dsimp only
@[simp] theorem sendPfc_tmgr (port prio quanta : Nat) (s : State) : (State.sendPfc port prio quanta s).tmgr = s.tmgr := by
  unfold State.sendPfc
  repeat' first | (simp; done) | split | dsimp only
@[simp] theorem sendPfc_cmdq (port prio quanta : Nat) (s : State) : (State.sendPfc port prio quanta s).cmdq = s.cmdq := by
  unfold State.sendPfc
  repeat' first | (simp; done) | split | dsimp only
@[simp] theorem sendPfc_regn (port prio quanta : Nat) (s : State) : (State.sendPfc port prio quanta s).regn = s.regn := by
  unfold State.sendPfc
  repeat' first | (simp; done) | split | dsimp only
@[simp] theorem sendPfc_jrnl (port prio quanta : Nat) (s : State) : (State.sendPfc port prio quanta s).jrnl = s.jrnl := by
  unfold State.sendPfc
  repeat' first | (simp; done) | split | dsimp only
@[simp] theorem sendPfc_cmpr (port prio quanta : Nat) (s : State) : (State.sendPfc port prio quanta s).cmpr = s.cmpr := by
  unfold State.sendPfc
  repeat' first | (simp; done) | split | dsimp only
@[simp] theorem sendPfc_plce (port prio quanta : Nat) (s : State) : (State.sendPfc port prio quanta s).plce = s.plce := by
  unfold State.sendPfc
  repeat' first | (simp; done) | split | dsimp only
@[simp] theorem sendPfc_strp (port prio quanta : Nat) (s : State) : (State.sendPfc port prio quanta s).strp = s.strp := by
  unfold State.sendPfc
  repeat' first | (simp; done) | split | dsimp only
@[simp] theorem sendPfc_drvp (port prio quanta : Nat) (s : State) : (State.sendPfc port prio quanta s).drvp = s.drvp := by
  unfold State.sendPfc
  repeat' first | (simp; done) | split | dsimp only
@[simp] theorem sendPfc_pair (port prio quanta : Nat) (s : State) : (State.sendPfc port prio quanta s).pair = s.pair := by
  unfold State.sendPfc
  repeat' first | (simp; done) | split | dsimp only
@[simp] theorem sendPfc_bayp (port prio quanta : Nat) (s : State) : (State.sendPfc port prio quanta s).bayp = s.bayp := by
  unfold State.sendPfc
  repeat' first | (simp; done) | split | dsimp only
@[simp] theorem sendPfc_pol (port prio quanta : Nat) (s : State) : (State.sendPfc port prio quanta s).pol = s.pol := by
  unfold State.sendPfc
  repeat' first | (simp; done) | split | dsimp only
@[simp] theorem sendPfc_tap (port prio quanta : Nat) (s : State) : (State.sendPfc port prio quanta s).tap = s.tap := by
  unfold State.sendPfc
  repeat' first | (simp; done) | split | dsimp only
@[simp] theorem sendPfc_now (port prio quanta : Nat) (s : State) : (State.sendPfc port prio quanta s).now = s.now := by
  unfold State.sendPfc
  repeat' first | (simp; done) | split | dsimp only
@[simp] theorem sendPfc_drawn (port prio quanta : Nat) (s : State) : (State.sendPfc port prio quanta s).drawn = s.drawn := by
  unfold State.sendPfc
  repeat' first | (simp; done) | split | dsimp only
@[simp] theorem sendPfc_pending (port prio quanta : Nat) (s : State) : (State.sendPfc port prio quanta s).pending = s.pending := by
  unfold State.sendPfc
  repeat' first | (simp; done) | split | dsimp only
@[simp] theorem pfcLevel_ptp (port prio : Nat) (s : State) : (State.pfcLevel port prio s).ptp = s.ptp := by
  unfold State.pfcLevel
  repeat' first | (simp; done) | split | dsimp only
@[simp] theorem pfcLevel_xprt (port prio : Nat) (s : State) : (State.pfcLevel port prio s).xprt = s.xprt := by
  unfold State.pfcLevel
  repeat' first | (simp; done) | split | dsimp only
@[simp] theorem pfcLevel_gard (port prio : Nat) (s : State) : (State.pfcLevel port prio s).gard = s.gard := by
  unfold State.pfcLevel
  repeat' first | (simp; done) | split | dsimp only
@[simp] theorem pfcLevel_tmgr (port prio : Nat) (s : State) : (State.pfcLevel port prio s).tmgr = s.tmgr := by
  unfold State.pfcLevel
  repeat' first | (simp; done) | split | dsimp only
@[simp] theorem pfcLevel_cmdq (port prio : Nat) (s : State) : (State.pfcLevel port prio s).cmdq = s.cmdq := by
  unfold State.pfcLevel
  repeat' first | (simp; done) | split | dsimp only
@[simp] theorem pfcLevel_regn (port prio : Nat) (s : State) : (State.pfcLevel port prio s).regn = s.regn := by
  unfold State.pfcLevel
  repeat' first | (simp; done) | split | dsimp only
@[simp] theorem pfcLevel_jrnl (port prio : Nat) (s : State) : (State.pfcLevel port prio s).jrnl = s.jrnl := by
  unfold State.pfcLevel
  repeat' first | (simp; done) | split | dsimp only
@[simp] theorem pfcLevel_cmpr (port prio : Nat) (s : State) : (State.pfcLevel port prio s).cmpr = s.cmpr := by
  unfold State.pfcLevel
  repeat' first | (simp; done) | split | dsimp only
@[simp] theorem pfcLevel_plce (port prio : Nat) (s : State) : (State.pfcLevel port prio s).plce = s.plce := by
  unfold State.pfcLevel
  repeat' first | (simp; done) | split | dsimp only
@[simp] theorem pfcLevel_strp (port prio : Nat) (s : State) : (State.pfcLevel port prio s).strp = s.strp := by
  unfold State.pfcLevel
  repeat' first | (simp; done) | split | dsimp only
@[simp] theorem pfcLevel_drvp (port prio : Nat) (s : State) : (State.pfcLevel port prio s).drvp = s.drvp := by
  unfold State.pfcLevel
  repeat' first | (simp; done) | split | dsimp only
@[simp] theorem pfcLevel_pair (port prio : Nat) (s : State) : (State.pfcLevel port prio s).pair = s.pair := by
  unfold State.pfcLevel
  repeat' first | (simp; done) | split | dsimp only
@[simp] theorem pfcLevel_bayp (port prio : Nat) (s : State) : (State.pfcLevel port prio s).bayp = s.bayp := by
  unfold State.pfcLevel
  repeat' first | (simp; done) | split | dsimp only
@[simp] theorem pfcLevel_pol (port prio : Nat) (s : State) : (State.pfcLevel port prio s).pol = s.pol := by
  unfold State.pfcLevel
  repeat' first | (simp; done) | split | dsimp only
@[simp] theorem pfcLevel_tap (port prio : Nat) (s : State) : (State.pfcLevel port prio s).tap = s.tap := by
  unfold State.pfcLevel
  repeat' first | (simp; done) | split | dsimp only
@[simp] theorem pfcLevel_now (port prio : Nat) (s : State) : (State.pfcLevel port prio s).now = s.now := by
  unfold State.pfcLevel
  repeat' first | (simp; done) | split | dsimp only
@[simp] theorem pfcLevel_drawn (port prio : Nat) (s : State) : (State.pfcLevel port prio s).drawn = s.drawn := by
  unfold State.pfcLevel
  repeat' first | (simp; done) | split | dsimp only
@[simp] theorem pfcLevel_pending (port prio : Nat) (s : State) : (State.pfcLevel port prio s).pending = s.pending := by
  unfold State.pfcLevel
  repeat' first | (simp; done) | split | dsimp only
@[simp] theorem pfcUnit_ptp (u : UnitSt) (s : State) : (State.pfcUnit u s).ptp = s.ptp := by
  unfold State.pfcUnit
  repeat' first | (simp; done) | split | dsimp only
@[simp] theorem pfcUnit_xprt (u : UnitSt) (s : State) : (State.pfcUnit u s).xprt = s.xprt := by
  unfold State.pfcUnit
  repeat' first | (simp; done) | split | dsimp only
@[simp] theorem pfcUnit_gard (u : UnitSt) (s : State) : (State.pfcUnit u s).gard = s.gard := by
  unfold State.pfcUnit
  repeat' first | (simp; done) | split | dsimp only
@[simp] theorem pfcUnit_tmgr (u : UnitSt) (s : State) : (State.pfcUnit u s).tmgr = s.tmgr := by
  unfold State.pfcUnit
  repeat' first | (simp; done) | split | dsimp only
@[simp] theorem pfcUnit_cmdq (u : UnitSt) (s : State) : (State.pfcUnit u s).cmdq = s.cmdq := by
  unfold State.pfcUnit
  repeat' first | (simp; done) | split | dsimp only
@[simp] theorem pfcUnit_regn (u : UnitSt) (s : State) : (State.pfcUnit u s).regn = s.regn := by
  unfold State.pfcUnit
  repeat' first | (simp; done) | split | dsimp only
@[simp] theorem pfcUnit_jrnl (u : UnitSt) (s : State) : (State.pfcUnit u s).jrnl = s.jrnl := by
  unfold State.pfcUnit
  repeat' first | (simp; done) | split | dsimp only
@[simp] theorem pfcUnit_cmpr (u : UnitSt) (s : State) : (State.pfcUnit u s).cmpr = s.cmpr := by
  unfold State.pfcUnit
  repeat' first | (simp; done) | split | dsimp only
@[simp] theorem pfcUnit_plce (u : UnitSt) (s : State) : (State.pfcUnit u s).plce = s.plce := by
  unfold State.pfcUnit
  repeat' first | (simp; done) | split | dsimp only
@[simp] theorem pfcUnit_strp (u : UnitSt) (s : State) : (State.pfcUnit u s).strp = s.strp := by
  unfold State.pfcUnit
  repeat' first | (simp; done) | split | dsimp only
@[simp] theorem pfcUnit_drvp (u : UnitSt) (s : State) : (State.pfcUnit u s).drvp = s.drvp := by
  unfold State.pfcUnit
  repeat' first | (simp; done) | split | dsimp only
@[simp] theorem pfcUnit_pair (u : UnitSt) (s : State) : (State.pfcUnit u s).pair = s.pair := by
  unfold State.pfcUnit
  repeat' first | (simp; done) | split | dsimp only
@[simp] theorem pfcUnit_bayp (u : UnitSt) (s : State) : (State.pfcUnit u s).bayp = s.bayp := by
  unfold State.pfcUnit
  repeat' first | (simp; done) | split | dsimp only
@[simp] theorem pfcUnit_pol (u : UnitSt) (s : State) : (State.pfcUnit u s).pol = s.pol := by
  unfold State.pfcUnit
  repeat' first | (simp; done) | split | dsimp only
@[simp] theorem pfcUnit_tap (u : UnitSt) (s : State) : (State.pfcUnit u s).tap = s.tap := by
  unfold State.pfcUnit
  repeat' first | (simp; done) | split | dsimp only
@[simp] theorem pfcUnit_now (u : UnitSt) (s : State) : (State.pfcUnit u s).now = s.now := by
  unfold State.pfcUnit
  repeat' first | (simp; done) | split | dsimp only
@[simp] theorem pfcUnit_drawn (u : UnitSt) (s : State) : (State.pfcUnit u s).drawn = s.drawn := by
  unfold State.pfcUnit
  repeat' first | (simp; done) | split | dsimp only
@[simp] theorem pfcUnit_pending (u : UnitSt) (s : State) : (State.pfcUnit u s).pending = s.pending := by
  unfold State.pfcUnit
  repeat' first | (simp; done) | split | dsimp only
@[simp] theorem dropUnit_ptp (id : Nat) (s : State) : (State.dropUnit id s).ptp = s.ptp := by
  unfold State.dropUnit
  repeat' first | (simp; done) | split | dsimp only
@[simp] theorem dropUnit_xprt (id : Nat) (s : State) : (State.dropUnit id s).xprt = s.xprt := by
  unfold State.dropUnit
  repeat' first | (simp; done) | split | dsimp only
@[simp] theorem dropUnit_gard (id : Nat) (s : State) : (State.dropUnit id s).gard = s.gard := by
  unfold State.dropUnit
  repeat' first | (simp; done) | split | dsimp only
@[simp] theorem dropUnit_tmgr (id : Nat) (s : State) : (State.dropUnit id s).tmgr = s.tmgr := by
  unfold State.dropUnit
  repeat' first | (simp; done) | split | dsimp only
@[simp] theorem dropUnit_cmdq (id : Nat) (s : State) : (State.dropUnit id s).cmdq = s.cmdq := by
  unfold State.dropUnit
  repeat' first | (simp; done) | split | dsimp only
@[simp] theorem dropUnit_regn (id : Nat) (s : State) : (State.dropUnit id s).regn = s.regn := by
  unfold State.dropUnit
  repeat' first | (simp; done) | split | dsimp only
@[simp] theorem dropUnit_jrnl (id : Nat) (s : State) : (State.dropUnit id s).jrnl = s.jrnl := by
  unfold State.dropUnit
  repeat' first | (simp; done) | split | dsimp only
@[simp] theorem dropUnit_cmpr (id : Nat) (s : State) : (State.dropUnit id s).cmpr = s.cmpr := by
  unfold State.dropUnit
  repeat' first | (simp; done) | split | dsimp only
@[simp] theorem dropUnit_plce (id : Nat) (s : State) : (State.dropUnit id s).plce = s.plce := by
  unfold State.dropUnit
  repeat' first | (simp; done) | split | dsimp only
@[simp] theorem dropUnit_strp (id : Nat) (s : State) : (State.dropUnit id s).strp = s.strp := by
  unfold State.dropUnit
  repeat' first | (simp; done) | split | dsimp only
@[simp] theorem dropUnit_drvp (id : Nat) (s : State) : (State.dropUnit id s).drvp = s.drvp := by
  unfold State.dropUnit
  repeat' first | (simp; done) | split | dsimp only
@[simp] theorem dropUnit_pair (id : Nat) (s : State) : (State.dropUnit id s).pair = s.pair := by
  unfold State.dropUnit
  repeat' first | (simp; done) | split | dsimp only
@[simp] theorem dropUnit_bayp (id : Nat) (s : State) : (State.dropUnit id s).bayp = s.bayp := by
  unfold State.dropUnit
  repeat' first | (simp; done) | split | dsimp only
@[simp] theorem dropUnit_pol (id : Nat) (s : State) : (State.dropUnit id s).pol = s.pol := by
  unfold State.dropUnit
  repeat' first | (simp; done) | split | dsimp only
@[simp] theorem dropUnit_tap (id : Nat) (s : State) : (State.dropUnit id s).tap = s.tap := by
  unfold State.dropUnit
  repeat' first | (simp; done) | split | dsimp only
@[simp] theorem dropUnit_now (id : Nat) (s : State) : (State.dropUnit id s).now = s.now := by
  unfold State.dropUnit
  repeat' first | (simp; done) | split | dsimp only
@[simp] theorem dropUnit_drawn (id : Nat) (s : State) : (State.dropUnit id s).drawn = s.drawn := by
  unfold State.dropUnit
  repeat' first | (simp; done) | split | dsimp only
@[simp] theorem dropUnit_pending (id : Nat) (s : State) : (State.dropUnit id s).pending = s.pending := by
  unfold State.dropUnit
  repeat' first | (simp; done) | split | dsimp only
@[simp] theorem dropKind_gard (p : UnitKind → Bool) (s : State) : (State.dropKind p s).gard = s.gard := by
  unfold State.dropKind
  repeat' first | (simp; done) | split | dsimp only
@[simp] theorem dropKind_tmgr (p : UnitKind → Bool) (s : State) : (State.dropKind p s).tmgr = s.tmgr := by
  unfold State.dropKind
  repeat' first | (simp; done) | split | dsimp only
@[simp] theorem dropKind_cmdq (p : UnitKind → Bool) (s : State) : (State.dropKind p s).cmdq = s.cmdq := by
  unfold State.dropKind
  repeat' first | (simp; done) | split | dsimp only
@[simp] theorem dropKind_regn (p : UnitKind → Bool) (s : State) : (State.dropKind p s).regn = s.regn := by
  unfold State.dropKind
  repeat' first | (simp; done) | split | dsimp only
@[simp] theorem dropKind_jrnl (p : UnitKind → Bool) (s : State) : (State.dropKind p s).jrnl = s.jrnl := by
  unfold State.dropKind
  repeat' first | (simp; done) | split | dsimp only
@[simp] theorem dropKind_cmpr (p : UnitKind → Bool) (s : State) : (State.dropKind p s).cmpr = s.cmpr := by
  unfold State.dropKind
  repeat' first | (simp; done) | split | dsimp only
@[simp] theorem dropKind_plce (p : UnitKind → Bool) (s : State) : (State.dropKind p s).plce = s.plce := by
  unfold State.dropKind
  repeat' first | (simp; done) | split | dsimp only
@[simp] theorem dropKind_strp (p : UnitKind → Bool) (s : State) : (State.dropKind p s).strp = s.strp := by
  unfold State.dropKind
  repeat' first | (simp; done) | split | dsimp only
@[simp] theorem dropKind_drvp (p : UnitKind → Bool) (s : State) : (State.dropKind p s).drvp = s.drvp := by
  unfold State.dropKind
  repeat' first | (simp; done) | split | dsimp only
@[simp] theorem dropKind_pair (p : UnitKind → Bool) (s : State) : (State.dropKind p s).pair = s.pair := by
  unfold State.dropKind
  repeat' first | (simp; done) | split | dsimp only
@[simp] theorem dropKind_bayp (p : UnitKind → Bool) (s : State) : (State.dropKind p s).bayp = s.bayp := by
  unfold State.dropKind
  repeat' first | (simp; done) | split | dsimp only
@[simp] theorem dropKind_pol (p : UnitKind → Bool) (s : State) : (State.dropKind p s).pol = s.pol := by
  unfold State.dropKind
  repeat' first | (simp; done) | split | dsimp only
@[simp] theorem dropKind_now (p : UnitKind → Bool) (s : State) : (State.dropKind p s).now = s.now := by
  unfold State.dropKind
  repeat' first | (simp; done) | split | dsimp only
@[simp] theorem dropKind_pending (p : UnitKind → Bool) (s : State) : (State.dropKind p s).pending = s.pending := by
  unfold State.dropKind
  repeat' first | (simp; done) | split | dsimp only
@[simp] theorem linkBytes_cmdq (item : MirrorItem) (s : State) : (State.linkBytes item s).2.cmdq = s.cmdq := by
  unfold State.linkBytes
  repeat' first | (simp; done) | split | dsimp only
@[simp] theorem pump_cmdq : ∀ (n : Nat) (s : State), (State.pump n s).cmdq = s.cmdq
  | 0, _ => rfl
  | n + 1, s => by
    unfold State.pump
    split
    · rfl
    · dsimp only
      rw [pump_cmdq n]
      simp
@[simp] theorem mirror_cmdq (key : Nat) (item : MirrorItem) (s : State) : (State.mirror key item s).cmdq = s.cmdq := by
  unfold State.mirror
  repeat' first | (simp; done) | split | dsimp only
@[simp] theorem mirrorIf_cmdq (key : Nat) (item : MirrorItem) (s : State) : (State.mirrorIf key item s).cmdq = s.cmdq := by
  unfold State.mirrorIf
  repeat' first | (simp; done) | split | dsimp only
@[simp] theorem setCtx_fab (i : Nat) (c : Ctx) (s : State) : (State.setCtx i c s).fab = s.fab := by
  unfold State.setCtx
  repeat' first | (simp; done) | split | dsimp only
@[simp] theorem setCtx_line (i : Nat) (c : Ctx) (s : State) : (State.setCtx i c s).line = s.line := by
  unfold State.setCtx
  repeat' first | (simp; done) | split | dsimp only
@[simp] theorem setCtx_ptp (i : Nat) (c : Ctx) (s : State) : (State.setCtx i c s).ptp = s.ptp := by
  unfold State.setCtx
  repeat' first | (simp; done) | split | dsimp only
@[simp] theorem setCtx_gard (i : Nat) (c : Ctx) (s : State) : (State.setCtx i c s).gard = s.gard := by
  unfold State.setCtx
  repeat' first | (simp; done) | split | dsimp only
@[simp] theorem setCtx_tmgr (i : Nat) (c : Ctx) (s : State) : (State.setCtx i c s).tmgr = s.tmgr := by
  unfold State.setCtx
  repeat' first | (simp; done) | split | dsimp only
@[simp] theorem setCtx_vat (i : Nat) (c : Ctx) (s : State) : (State.setCtx i c s).vat = s.vat := by
  unfold State.setCtx
  repeat' first | (simp; done) | split | dsimp only
@[simp] theorem setCtx_cell (i : Nat) (c : Ctx) (s : State) : (State.setCtx i c s).cell = s.cell := by
  unfold State.setCtx
  repeat' first | (simp; done) | split | dsimp only
@[simp] theorem setCtx_cmdq (i : Nat) (c : Ctx) (s : State) : (State.setCtx i c s).cmdq = s.cmdq := by
  unfold State.setCtx
  repeat' first | (simp; done) | split | dsimp only
@[simp] theorem setCtx_regn (i : Nat) (c : Ctx) (s : State) : (State.setCtx i c s).regn = s.regn := by
  unfold State.setCtx
  repeat' first | (simp; done) | split | dsimp only
@[simp] theorem setCtx_jrnl (i : Nat) (c : Ctx) (s : State) : (State.setCtx i c s).jrnl = s.jrnl := by
  unfold State.setCtx
  repeat' first | (simp; done) | split | dsimp only
@[simp] theorem setCtx_cmpr (i : Nat) (c : Ctx) (s : State) : (State.setCtx i c s).cmpr = s.cmpr := by
  unfold State.setCtx
  repeat' first | (simp; done) | split | dsimp only
@[simp] theorem setCtx_plce (i : Nat) (c : Ctx) (s : State) : (State.setCtx i c s).plce = s.plce := by
  unfold State.setCtx
  repeat' first | (simp; done) | split | dsimp only
@[simp] theorem setCtx_strp (i : Nat) (c : Ctx) (s : State) : (State.setCtx i c s).strp = s.strp := by
  unfold State.setCtx
  repeat' first | (simp; done) | split | dsimp only
@[simp] theorem setCtx_drvp (i : Nat) (c : Ctx) (s : State) : (State.setCtx i c s).drvp = s.drvp := by
  unfold State.setCtx
  repeat' first | (simp; done) | split | dsimp only
@[simp] theorem setCtx_pair (i : Nat) (c : Ctx) (s : State) : (State.setCtx i c s).pair = s.pair := by
  unfold State.setCtx
  repeat' first | (simp; done) | split | dsimp only
@[simp] theorem setCtx_bayp (i : Nat) (c : Ctx) (s : State) : (State.setCtx i c s).bayp = s.bayp := by
  unfold State.setCtx
  repeat' first | (simp; done) | split | dsimp only
@[simp] theorem setCtx_pol (i : Nat) (c : Ctx) (s : State) : (State.setCtx i c s).pol = s.pol := by
  unfold State.setCtx
  repeat' first | (simp; done) | split | dsimp only
@[simp] theorem setCtx_tap (i : Nat) (c : Ctx) (s : State) : (State.setCtx i c s).tap = s.tap := by
  unfold State.setCtx
  repeat' first | (simp; done) | split | dsimp only
@[simp] theorem setCtx_now (i : Nat) (c : Ctx) (s : State) : (State.setCtx i c s).now = s.now := by
  unfold State.setCtx
  repeat' first | (simp; done) | split | dsimp only
@[simp] theorem setCtx_drawn (i : Nat) (c : Ctx) (s : State) : (State.setCtx i c s).drawn = s.drawn := by
  unfold State.setCtx
  repeat' first | (simp; done) | split | dsimp only
@[simp] theorem setCtx_pending (i : Nat) (c : Ctx) (s : State) : (State.setCtx i c s).pending = s.pending := by
  unfold State.setCtx
  repeat' first | (simp; done) | split | dsimp only
@[simp] theorem onCtx_fab (i : Nat) (g : Ctx → Ctx) (s : State) : (State.onCtx i g s).fab = s.fab := by
  unfold State.onCtx
  repeat' first | (simp; done) | split | dsimp only
@[simp] theorem onCtx_line (i : Nat) (g : Ctx → Ctx) (s : State) : (State.onCtx i g s).line = s.line := by
  unfold State.onCtx
  repeat' first | (simp; done) | split | dsimp only
@[simp] theorem onCtx_ptp (i : Nat) (g : Ctx → Ctx) (s : State) : (State.onCtx i g s).ptp = s.ptp := by
  unfold State.onCtx
  repeat' first | (simp; done) | split | dsimp only
@[simp] theorem onCtx_gard (i : Nat) (g : Ctx → Ctx) (s : State) : (State.onCtx i g s).gard = s.gard := by
  unfold State.onCtx
  repeat' first | (simp; done) | split | dsimp only
@[simp] theorem onCtx_tmgr (i : Nat) (g : Ctx → Ctx) (s : State) : (State.onCtx i g s).tmgr = s.tmgr := by
  unfold State.onCtx
  repeat' first | (simp; done) | split | dsimp only
@[simp] theorem onCtx_vat (i : Nat) (g : Ctx → Ctx) (s : State) : (State.onCtx i g s).vat = s.vat := by
  unfold State.onCtx
  repeat' first | (simp; done) | split | dsimp only
@[simp] theorem onCtx_cell (i : Nat) (g : Ctx → Ctx) (s : State) : (State.onCtx i g s).cell = s.cell := by
  unfold State.onCtx
  repeat' first | (simp; done) | split | dsimp only
@[simp] theorem onCtx_cmdq (i : Nat) (g : Ctx → Ctx) (s : State) : (State.onCtx i g s).cmdq = s.cmdq := by
  unfold State.onCtx
  repeat' first | (simp; done) | split | dsimp only
@[simp] theorem onCtx_regn (i : Nat) (g : Ctx → Ctx) (s : State) : (State.onCtx i g s).regn = s.regn := by
  unfold State.onCtx
  repeat' first | (simp; done) | split | dsimp only
@[simp] theorem onCtx_jrnl (i : Nat) (g : Ctx → Ctx) (s : State) : (State.onCtx i g s).jrnl = s.jrnl := by
  unfold State.onCtx
  repeat' first | (simp; done) | split | dsimp only
@[simp] theorem onCtx_cmpr (i : Nat) (g : Ctx → Ctx) (s : State) : (State.onCtx i g s).cmpr = s.cmpr := by
  unfold State.onCtx
  repeat' first | (simp; done) | split | dsimp only
@[simp] theorem onCtx_plce (i : Nat) (g : Ctx → Ctx) (s : State) : (State.onCtx i g s).plce = s.plce := by
  unfold State.onCtx
  repeat' first | (simp; done) | split | dsimp only
@[simp] theorem onCtx_strp (i : Nat) (g : Ctx → Ctx) (s : State) : (State.onCtx i g s).strp = s.strp := by
  unfold State.onCtx
  repeat' first | (simp; done) | split | dsimp only
@[simp] theorem onCtx_drvp (i : Nat) (g : Ctx → Ctx) (s : State) : (State.onCtx i g s).drvp = s.drvp := by
  unfold State.onCtx
  repeat' first | (simp; done) | split | dsimp only
@[simp] theorem onCtx_pair (i : Nat) (g : Ctx → Ctx) (s : State) : (State.onCtx i g s).pair = s.pair := by
  unfold State.onCtx
  repeat' first | (simp; done) | split | dsimp only
@[simp] theorem onCtx_bayp (i : Nat) (g : Ctx → Ctx) (s : State) : (State.onCtx i g s).bayp = s.bayp := by
  unfold State.onCtx
  repeat' first | (simp; done) | split | dsimp only
@[simp] theorem onCtx_pol (i : Nat) (g : Ctx → Ctx) (s : State) : (State.onCtx i g s).pol = s.pol := by
  unfold State.onCtx
  repeat' first | (simp; done) | split | dsimp only
@[simp] theorem onCtx_tap (i : Nat) (g : Ctx → Ctx) (s : State) : (State.onCtx i g s).tap = s.tap := by
  unfold State.onCtx
  repeat' first | (simp; done) | split | dsimp only
@[simp] theorem onCtx_now (i : Nat) (g : Ctx → Ctx) (s : State) : (State.onCtx i g s).now = s.now := by
  unfold State.onCtx
  repeat' first | (simp; done) | split | dsimp only
@[simp] theorem onCtx_drawn (i : Nat) (g : Ctx → Ctx) (s : State) : (State.onCtx i g s).drawn = s.drawn := by
  unfold State.onCtx
  repeat' first | (simp; done) | split | dsimp only
@[simp] theorem onCtx_pending (i : Nat) (g : Ctx → Ctx) (s : State) : (State.onCtx i g s).pending = s.pending := by
  unfold State.onCtx
  repeat' first | (simp; done) | split | dsimp only
@[simp] theorem onRx_fab (i : Nat) (g : CtxRx → CtxRx) (s : State) : (State.onRx i g s).fab = s.fab := by
  unfold State.onRx
  repeat' first | (simp; done) | split | dsimp only
@[simp] theorem onRx_line (i : Nat) (g : CtxRx → CtxRx) (s : State) : (State.onRx i g s).line = s.line := by
  unfold State.onRx
  repeat' first | (simp; done) | split | dsimp only
@[simp] theorem onRx_ptp (i : Nat) (g : CtxRx → CtxRx) (s : State) : (State.onRx i g s).ptp = s.ptp := by
  unfold State.onRx
  repeat' first | (simp; done) | split | dsimp only
@[simp] theorem onRx_gard (i : Nat) (g : CtxRx → CtxRx) (s : State) : (State.onRx i g s).gard = s.gard := by
  unfold State.onRx
  repeat' first | (simp; done) | split | dsimp only
@[simp] theorem onRx_tmgr (i : Nat) (g : CtxRx → CtxRx) (s : State) : (State.onRx i g s).tmgr = s.tmgr := by
  unfold State.onRx
  repeat' first | (simp; done) | split | dsimp only
@[simp] theorem onRx_vat (i : Nat) (g : CtxRx → CtxRx) (s : State) : (State.onRx i g s).vat = s.vat := by
  unfold State.onRx
  repeat' first | (simp; done) | split | dsimp only
@[simp] theorem onRx_cell (i : Nat) (g : CtxRx → CtxRx) (s : State) : (State.onRx i g s).cell = s.cell := by
  unfold State.onRx
  repeat' first | (simp; done) | split | dsimp only
@[simp] theorem onRx_cmdq (i : Nat) (g : CtxRx → CtxRx) (s : State) : (State.onRx i g s).cmdq = s.cmdq := by
  unfold State.onRx
  repeat' first | (simp; done) | split | dsimp only
@[simp] theorem onRx_regn (i : Nat) (g : CtxRx → CtxRx) (s : State) : (State.onRx i g s).regn = s.regn := by
  unfold State.onRx
  repeat' first | (simp; done) | split | dsimp only
@[simp] theorem onRx_jrnl (i : Nat) (g : CtxRx → CtxRx) (s : State) : (State.onRx i g s).jrnl = s.jrnl := by
  unfold State.onRx
  repeat' first | (simp; done) | split | dsimp only
@[simp] theorem onRx_cmpr (i : Nat) (g : CtxRx → CtxRx) (s : State) : (State.onRx i g s).cmpr = s.cmpr := by
  unfold State.onRx
  repeat' first | (simp; done) | split | dsimp only
@[simp] theorem onRx_plce (i : Nat) (g : CtxRx → CtxRx) (s : State) : (State.onRx i g s).plce = s.plce := by
  unfold State.onRx
  repeat' first | (simp; done) | split | dsimp only
@[simp] theorem onRx_strp (i : Nat) (g : CtxRx → CtxRx) (s : State) : (State.onRx i g s).strp = s.strp := by
  unfold State.onRx
  repeat' first | (simp; done) | split | dsimp only
@[simp] theorem onRx_drvp (i : Nat) (g : CtxRx → CtxRx) (s : State) : (State.onRx i g s).drvp = s.drvp := by
  unfold State.onRx
  repeat' first | (simp; done) | split | dsimp only
@[simp] theorem onRx_pair (i : Nat) (g : CtxRx → CtxRx) (s : State) : (State.onRx i g s).pair = s.pair := by
  unfold State.onRx
  repeat' first | (simp; done) | split | dsimp only
@[simp] theorem onRx_bayp (i : Nat) (g : CtxRx → CtxRx) (s : State) : (State.onRx i g s).bayp = s.bayp := by
  unfold State.onRx
  repeat' first | (simp; done) | split | dsimp only
@[simp] theorem onRx_pol (i : Nat) (g : CtxRx → CtxRx) (s : State) : (State.onRx i g s).pol = s.pol := by
  unfold State.onRx
  repeat' first | (simp; done) | split | dsimp only
@[simp] theorem onRx_tap (i : Nat) (g : CtxRx → CtxRx) (s : State) : (State.onRx i g s).tap = s.tap := by
  unfold State.onRx
  repeat' first | (simp; done) | split | dsimp only
@[simp] theorem onRx_now (i : Nat) (g : CtxRx → CtxRx) (s : State) : (State.onRx i g s).now = s.now := by
  unfold State.onRx
  repeat' first | (simp; done) | split | dsimp only
@[simp] theorem onRx_drawn (i : Nat) (g : CtxRx → CtxRx) (s : State) : (State.onRx i g s).drawn = s.drawn := by
  unfold State.onRx
  repeat' first | (simp; done) | split | dsimp only
@[simp] theorem onRx_pending (i : Nat) (g : CtxRx → CtxRx) (s : State) : (State.onRx i g s).pending = s.pending := by
  unfold State.onRx
  repeat' first | (simp; done) | split | dsimp only
@[simp] theorem onTx_fab (i : Nat) (g : CtxTx → CtxTx) (s : State) : (State.onTx i g s).fab = s.fab := by
  unfold State.onTx
  repeat' first | (simp; done) | split | dsimp only
@[simp] theorem onTx_line (i : Nat) (g : CtxTx → CtxTx) (s : State) : (State.onTx i g s).line = s.line := by
  unfold State.onTx
  repeat' first | (simp; done) | split | dsimp only
@[simp] theorem onTx_ptp (i : Nat) (g : CtxTx → CtxTx) (s : State) : (State.onTx i g s).ptp = s.ptp := by
  unfold State.onTx
  repeat' first | (simp; done) | split | dsimp only
@[simp] theorem onTx_gard (i : Nat) (g : CtxTx → CtxTx) (s : State) : (State.onTx i g s).gard = s.gard := by
  unfold State.onTx
  repeat' first | (simp; done) | split | dsimp only
@[simp] theorem onTx_tmgr (i : Nat) (g : CtxTx → CtxTx) (s : State) : (State.onTx i g s).tmgr = s.tmgr := by
  unfold State.onTx
  repeat' first | (simp; done) | split | dsimp only
@[simp] theorem onTx_vat (i : Nat) (g : CtxTx → CtxTx) (s : State) : (State.onTx i g s).vat = s.vat := by
  unfold State.onTx
  repeat' first | (simp; done) | split | dsimp only
@[simp] theorem onTx_cell (i : Nat) (g : CtxTx → CtxTx) (s : State) : (State.onTx i g s).cell = s.cell := by
  unfold State.onTx
  repeat' first | (simp; done) | split | dsimp only
@[simp] theorem onTx_cmdq (i : Nat) (g : CtxTx → CtxTx) (s : State) : (State.onTx i g s).cmdq = s.cmdq := by
  unfold State.onTx
  repeat' first | (simp; done) | split | dsimp only
@[simp] theorem onTx_regn (i : Nat) (g : CtxTx → CtxTx) (s : State) : (State.onTx i g s).regn = s.regn := by
  unfold State.onTx
  repeat' first | (simp; done) | split | dsimp only
@[simp] theorem onTx_jrnl (i : Nat) (g : CtxTx → CtxTx) (s : State) : (State.onTx i g s).jrnl = s.jrnl := by
  unfold State.onTx
  repeat' first | (simp; done) | split | dsimp only
@[simp] theorem onTx_cmpr (i : Nat) (g : CtxTx → CtxTx) (s : State) : (State.onTx i g s).cmpr = s.cmpr := by
  unfold State.onTx
  repeat' first | (simp; done) | split | dsimp only
@[simp] theorem onTx_plce (i : Nat) (g : CtxTx → CtxTx) (s : State) : (State.onTx i g s).plce = s.plce := by
  unfold State.onTx
  repeat' first | (simp; done) | split | dsimp only
@[simp] theorem onTx_strp (i : Nat) (g : CtxTx → CtxTx) (s : State) : (State.onTx i g s).strp = s.strp := by
  unfold State.onTx
  repeat' first | (simp; done) | split | dsimp only
@[simp] theorem onTx_drvp (i : Nat) (g : CtxTx → CtxTx) (s : State) : (State.onTx i g s).drvp = s.drvp := by
  unfold State.onTx
  repeat' first | (simp; done) | split | dsimp only
@[simp] theorem onTx_pair (i : Nat) (g : CtxTx → CtxTx) (s : State) : (State.onTx i g s).pair = s.pair := by
  unfold State.onTx
  repeat' first | (simp; done) | split | dsimp only
@[simp] theorem onTx_bayp (i : Nat) (g : CtxTx → CtxTx) (s : State) : (State.onTx i g s).bayp = s.bayp := by
  unfold State.onTx
  repeat' first | (simp; done) | split | dsimp only
@[simp] theorem onTx_pol (i : Nat) (g : CtxTx → CtxTx) (s : State) : (State.onTx i g s).pol = s.pol := by
  unfold State.onTx
  repeat' first | (simp; done) | split | dsimp only
@[simp] theorem onTx_tap (i : Nat) (g : CtxTx → CtxTx) (s : State) : (State.onTx i g s).tap = s.tap := by
  unfold State.onTx
  repeat' first | (simp; done) | split | dsimp only
@[simp] theorem onTx_now (i : Nat) (g : CtxTx → CtxTx) (s : State) : (State.onTx i g s).now = s.now := by
  unfold State.onTx
  repeat' first | (simp; done) | split | dsimp only
@[simp] theorem onTx_drawn (i : Nat) (g : CtxTx → CtxTx) (s : State) : (State.onTx i g s).drawn = s.drawn := by
  unfold State.onTx
  repeat' first | (simp; done) | split | dsimp only
@[simp] theorem onTx_pending (i : Nat) (g : CtxTx → CtxTx) (s : State) : (State.onTx i g s).pending = s.pending := by
  unfold State.onTx
  repeat' first | (simp; done) | split | dsimp only
@[simp] theorem onCtxId_fab (i : Nat) (g : CtxId → CtxId) (s : State) : (State.onCtxId i g s).fab = s.fab := by
  unfold State.onCtxId
  repeat' first | (simp; done) | split | dsimp only
@[simp] theorem onCtxId_line (i : Nat) (g : CtxId → CtxId) (s : State) : (State.onCtxId i g s).line = s.line := by
  unfold State.onCtxId
  repeat' first | (simp; done) | split | dsimp only
@[simp] theorem onCtxId_ptp (i : Nat) (g : CtxId → CtxId) (s : State) : (State.onCtxId i g s).ptp = s.ptp := by
  unfold State.onCtxId
  repeat' first | (simp; done) | split | dsimp only
@[simp] theorem onCtxId_gard (i : Nat) (g : CtxId → CtxId) (s : State) : (State.onCtxId i g s).gard = s.gard := by
  unfold State.onCtxId
  repeat' first | (simp; done) | split | dsimp only
@[simp] theorem onCtxId_tmgr (i : Nat) (g : CtxId → CtxId) (s : State) : (State.onCtxId i g s).tmgr = s.tmgr := by
  unfold State.onCtxId
  repeat' first | (simp; done) | split | dsimp only
@[simp] theorem onCtxId_vat (i : Nat) (g : CtxId → CtxId) (s : State) : (State.onCtxId i g s).vat = s.vat := by
  unfold State.onCtxId
  repeat' first | (simp; done) | split | dsimp only
@[simp] theorem onCtxId_cell (i : Nat) (g : CtxId → CtxId) (s : State) : (State.onCtxId i g s).cell = s.cell := by
  unfold State.onCtxId
  repeat' first | (simp; done) | split | dsimp only
@[simp] theorem onCtxId_cmdq (i : Nat) (g : CtxId → CtxId) (s : State) : (State.onCtxId i g s).cmdq = s.cmdq := by
  unfold State.onCtxId
  repeat' first | (simp; done) | split | dsimp only
@[simp] theorem onCtxId_regn (i : Nat) (g : CtxId → CtxId) (s : State) : (State.onCtxId i g s).regn = s.regn := by
  unfold State.onCtxId
  repeat' first | (simp; done) | split | dsimp only
@[simp] theorem onCtxId_jrnl (i : Nat) (g : CtxId → CtxId) (s : State) : (State.onCtxId i g s).jrnl = s.jrnl := by
  unfold State.onCtxId
  repeat' first | (simp; done) | split | dsimp only
@[simp] theorem onCtxId_cmpr (i : Nat) (g : CtxId → CtxId) (s : State) : (State.onCtxId i g s).cmpr = s.cmpr := by
  unfold State.onCtxId
  repeat' first | (simp; done) | split | dsimp only
@[simp] theorem onCtxId_plce (i : Nat) (g : CtxId → CtxId) (s : State) : (State.onCtxId i g s).plce = s.plce := by
  unfold State.onCtxId
  repeat' first | (simp; done) | split | dsimp only
@[simp] theorem onCtxId_strp (i : Nat) (g : CtxId → CtxId) (s : State) : (State.onCtxId i g s).strp = s.strp := by
  unfold State.onCtxId
  repeat' first | (simp; done) | split | dsimp only
@[simp] theorem onCtxId_drvp (i : Nat) (g : CtxId → CtxId) (s : State) : (State.onCtxId i g s).drvp = s.drvp := by
  unfold State.onCtxId
  repeat' first | (simp; done) | split | dsimp only
@[simp] theorem onCtxId_pair (i : Nat) (g : CtxId → CtxId) (s : State) : (State.onCtxId i g s).pair = s.pair := by
  unfold State.onCtxId
  repeat' first | (simp; done) | split | dsimp only
@[simp] theorem onCtxId_bayp (i : Nat) (g : CtxId → CtxId) (s : State) : (State.onCtxId i g s).bayp = s.bayp := by
  unfold State.onCtxId
  repeat' first | (simp; done) | split | dsimp only
@[simp] theorem onCtxId_pol (i : Nat) (g : CtxId → CtxId) (s : State) : (State.onCtxId i g s).pol = s.pol := by
  unfold State.onCtxId
  repeat' first | (simp; done) | split | dsimp only
@[simp] theorem onCtxId_now (i : Nat) (g : CtxId → CtxId) (s : State) : (State.onCtxId i g s).now = s.now := by
  unfold State.onCtxId
  repeat' first | (simp; done) | split | dsimp only
@[simp] theorem onCtxId_pending (i : Nat) (g : CtxId → CtxId) (s : State) : (State.onCtxId i g s).pending = s.pending := by
  unfold State.onCtxId
  repeat' first | (simp; done) | split | dsimp only
@[simp] theorem onCtxStat_fab (i : Nat) (g : CtxStat → CtxStat) (s : State) : (State.onCtxStat i g s).fab = s.fab := by
  unfold State.onCtxStat
  repeat' first | (simp; done) | split | dsimp only
@[simp] theorem onCtxStat_line (i : Nat) (g : CtxStat → CtxStat) (s : State) : (State.onCtxStat i g s).line = s.line := by
  unfold State.onCtxStat
  repeat' first | (simp; done) | split | dsimp only
@[simp] theorem onCtxStat_ptp (i : Nat) (g : CtxStat → CtxStat) (s : State) : (State.onCtxStat i g s).ptp = s.ptp := by
  unfold State.onCtxStat
  repeat' first | (simp; done) | split | dsimp only
@[simp] theorem onCtxStat_gard (i : Nat) (g : CtxStat → CtxStat) (s : State) : (State.onCtxStat i g s).gard = s.gard := by
  unfold State.onCtxStat
  repeat' first | (simp; done) | split | dsimp only
@[simp] theorem onCtxStat_tmgr (i : Nat) (g : CtxStat → CtxStat) (s : State) : (State.onCtxStat i g s).tmgr = s.tmgr := by
  unfold State.onCtxStat
  repeat' first | (simp; done) | split | dsimp only
@[simp] theorem onCtxStat_vat (i : Nat) (g : CtxStat → CtxStat) (s : State) : (State.onCtxStat i g s).vat = s.vat := by
  unfold State.onCtxStat
  repeat' first | (simp; done) | split | dsimp only
@[simp] theorem onCtxStat_cell (i : Nat) (g : CtxStat → CtxStat) (s : State) : (State.onCtxStat i g s).cell = s.cell := by
  unfold State.onCtxStat
  repeat' first | (simp; done) | split | dsimp only
@[simp] theorem onCtxStat_cmdq (i : Nat) (g : CtxStat → CtxStat) (s : State) : (State.onCtxStat i g s).cmdq = s.cmdq := by
  unfold State.onCtxStat
  repeat' first | (simp; done) | split | dsimp only
@[simp] theorem onCtxStat_regn (i : Nat) (g : CtxStat → CtxStat) (s : State) : (State.onCtxStat i g s).regn = s.regn := by
  unfold State.onCtxStat
  repeat' first | (simp; done) | split | dsimp only
@[simp] theorem onCtxStat_jrnl (i : Nat) (g : CtxStat → CtxStat) (s : State) : (State.onCtxStat i g s).jrnl = s.jrnl := by
  unfold State.onCtxStat
  repeat' first | (simp; done) | split | dsimp only
@[simp] theorem onCtxStat_cmpr (i : Nat) (g : CtxStat → CtxStat) (s : State) : (State.onCtxStat i g s).cmpr = s.cmpr := by
  unfold State.onCtxStat
  repeat' first | (simp; done) | split | dsimp only
@[simp] theorem onCtxStat_plce (i : Nat) (g : CtxStat → CtxStat) (s : State) : (State.onCtxStat i g s).plce = s.plce := by
  unfold State.onCtxStat
  repeat' first | (simp; done) | split | dsimp only
@[simp] theorem onCtxStat_strp (i : Nat) (g : CtxStat → CtxStat) (s : State) : (State.onCtxStat i g s).strp = s.strp := by
  unfold State.onCtxStat
  repeat' first | (simp; done) | split | dsimp only
@[simp] theorem onCtxStat_drvp (i : Nat) (g : CtxStat → CtxStat) (s : State) : (State.onCtxStat i g s).drvp = s.drvp := by
  unfold State.onCtxStat
  repeat' first | (simp; done) | split | dsimp only
@[simp] theorem onCtxStat_pair (i : Nat) (g : CtxStat → CtxStat) (s : State) : (State.onCtxStat i g s).pair = s.pair := by
  unfold State.onCtxStat
  repeat' first | (simp; done) | split | dsimp only
@[simp] theorem onCtxStat_bayp (i : Nat) (g : CtxStat → CtxStat) (s : State) : (State.onCtxStat i g s).bayp = s.bayp := by
  unfold State.onCtxStat
  repeat' first | (simp; done) | split | dsimp only
@[simp] theorem onCtxStat_pol (i : Nat) (g : CtxStat → CtxStat) (s : State) : (State.onCtxStat i g s).pol = s.pol := by
  unfold State.onCtxStat
  repeat' first | (simp; done) | split | dsimp only
@[simp] theorem onCtxStat_tap (i : Nat) (g : CtxStat → CtxStat) (s : State) : (State.onCtxStat i g s).tap = s.tap := by
  unfold State.onCtxStat
  repeat' first | (simp; done) | split | dsimp only
@[simp] theorem onCtxStat_now (i : Nat) (g : CtxStat → CtxStat) (s : State) : (State.onCtxStat i g s).now = s.now := by
  unfold State.onCtxStat
  repeat' first | (simp; done) | split | dsimp only
@[simp] theorem onCtxStat_drawn (i : Nat) (g : CtxStat → CtxStat) (s : State) : (State.onCtxStat i g s).drawn = s.drawn := by
  unfold State.onCtxStat
  repeat' first | (simp; done) | split | dsimp only
@[simp] theorem onCtxStat_pending (i : Nat) (g : CtxStat → CtxStat) (s : State) : (State.onCtxStat i g s).pending = s.pending := by
  unfold State.onCtxStat
  repeat' first | (simp; done) | split | dsimp only
@[simp] theorem onSeal_fab (i : Nat) (g : CtxSeal → CtxSeal) (s : State) : (State.onSeal i g s).fab = s.fab := by
  unfold State.onSeal
  repeat' first | (simp; done) | split | dsimp only
@[simp] theorem onSeal_line (i : Nat) (g : CtxSeal → CtxSeal) (s : State) : (State.onSeal i g s).line = s.line := by
  unfold State.onSeal
  repeat' first | (simp; done) | split | dsimp only
@[simp] theorem onSeal_ptp (i : Nat) (g : CtxSeal → CtxSeal) (s : State) : (State.onSeal i g s).ptp = s.ptp := by
  unfold State.onSeal
  repeat' first | (simp; done) | split | dsimp only
@[simp] theorem onSeal_gard (i : Nat) (g : CtxSeal → CtxSeal) (s : State) : (State.onSeal i g s).gard = s.gard := by
  unfold State.onSeal
  repeat' first | (simp; done) | split | dsimp only
@[simp] theorem onSeal_tmgr (i : Nat) (g : CtxSeal → CtxSeal) (s : State) : (State.onSeal i g s).tmgr = s.tmgr := by
  unfold State.onSeal
  repeat' first | (simp; done) | split | dsimp only
@[simp] theorem onSeal_vat (i : Nat) (g : CtxSeal → CtxSeal) (s : State) : (State.onSeal i g s).vat = s.vat := by
  unfold State.onSeal
  repeat' first | (simp; done) | split | dsimp only
@[simp] theorem onSeal_cell (i : Nat) (g : CtxSeal → CtxSeal) (s : State) : (State.onSeal i g s).cell = s.cell := by
  unfold State.onSeal
  repeat' first | (simp; done) | split | dsimp only
@[simp] theorem onSeal_cmdq (i : Nat) (g : CtxSeal → CtxSeal) (s : State) : (State.onSeal i g s).cmdq = s.cmdq := by
  unfold State.onSeal
  repeat' first | (simp; done) | split | dsimp only
@[simp] theorem onSeal_regn (i : Nat) (g : CtxSeal → CtxSeal) (s : State) : (State.onSeal i g s).regn = s.regn := by
  unfold State.onSeal
  repeat' first | (simp; done) | split | dsimp only
@[simp] theorem onSeal_jrnl (i : Nat) (g : CtxSeal → CtxSeal) (s : State) : (State.onSeal i g s).jrnl = s.jrnl := by
  unfold State.onSeal
  repeat' first | (simp; done) | split | dsimp only
@[simp] theorem onSeal_cmpr (i : Nat) (g : CtxSeal → CtxSeal) (s : State) : (State.onSeal i g s).cmpr = s.cmpr := by
  unfold State.onSeal
  repeat' first | (simp; done) | split | dsimp only
@[simp] theorem onSeal_plce (i : Nat) (g : CtxSeal → CtxSeal) (s : State) : (State.onSeal i g s).plce = s.plce := by
  unfold State.onSeal
  repeat' first | (simp; done) | split | dsimp only
@[simp] theorem onSeal_strp (i : Nat) (g : CtxSeal → CtxSeal) (s : State) : (State.onSeal i g s).strp = s.strp := by
  unfold State.onSeal
  repeat' first | (simp; done) | split | dsimp only
@[simp] theorem onSeal_drvp (i : Nat) (g : CtxSeal → CtxSeal) (s : State) : (State.onSeal i g s).drvp = s.drvp := by
  unfold State.onSeal
  repeat' first | (simp; done) | split | dsimp only
@[simp] theorem onSeal_pair (i : Nat) (g : CtxSeal → CtxSeal) (s : State) : (State.onSeal i g s).pair = s.pair := by
  unfold State.onSeal
  repeat' first | (simp; done) | split | dsimp only
@[simp] theorem onSeal_bayp (i : Nat) (g : CtxSeal → CtxSeal) (s : State) : (State.onSeal i g s).bayp = s.bayp := by
  unfold State.onSeal
  repeat' first | (simp; done) | split | dsimp only
@[simp] theorem onSeal_pol (i : Nat) (g : CtxSeal → CtxSeal) (s : State) : (State.onSeal i g s).pol = s.pol := by
  unfold State.onSeal
  repeat' first | (simp; done) | split | dsimp only
@[simp] theorem onSeal_tap (i : Nat) (g : CtxSeal → CtxSeal) (s : State) : (State.onSeal i g s).tap = s.tap := by
  unfold State.onSeal
  repeat' first | (simp; done) | split | dsimp only
@[simp] theorem onSeal_now (i : Nat) (g : CtxSeal → CtxSeal) (s : State) : (State.onSeal i g s).now = s.now := by
  unfold State.onSeal
  repeat' first | (simp; done) | split | dsimp only
@[simp] theorem onSeal_drawn (i : Nat) (g : CtxSeal → CtxSeal) (s : State) : (State.onSeal i g s).drawn = s.drawn := by
  unfold State.onSeal
  repeat' first | (simp; done) | split | dsimp only
@[simp] theorem onSeal_pending (i : Nat) (g : CtxSeal → CtxSeal) (s : State) : (State.onSeal i g s).pending = s.pending := by
  unfold State.onSeal
  repeat' first | (simp; done) | split | dsimp only
@[simp] theorem syncXprt_line (s : State) : (State.syncXprt s).line = s.line := by
  unfold State.syncXprt
  repeat' first | (simp; done) | split | dsimp only
@[simp] theorem syncXprt_ptp (s : State) : (State.syncXprt s).ptp = s.ptp := by
  unfold State.syncXprt
  repeat' first | (simp; done) | split | dsimp only
@[simp] theorem syncXprt_xprt (s : State) : (State.syncXprt s).xprt = s.xprt := by
  unfold State.syncXprt
  repeat' first | (simp; done) | split | dsimp only
@[simp] theorem syncXprt_gard (s : State) : (State.syncXprt s).gard = s.gard := by
  unfold State.syncXprt
  repeat' first | (simp; done) | split | dsimp only
@[simp] theorem syncXprt_tmgr (s : State) : (State.syncXprt s).tmgr = s.tmgr := by
  unfold State.syncXprt
  repeat' first | (simp; done) | split | dsimp only
@[simp] theorem syncXprt_vat (s : State) : (State.syncXprt s).vat = s.vat := by
  unfold State.syncXprt
  repeat' first | (simp; done) | split | dsimp only
@[simp] theorem syncXprt_cell (s : State) : (State.syncXprt s).cell = s.cell := by
  unfold State.syncXprt
  repeat' first | (simp; done) | split | dsimp only
@[simp] theorem syncXprt_cmdq (s : State) : (State.syncXprt s).cmdq = s.cmdq := by
  unfold State.syncXprt
  repeat' first | (simp; done) | split | dsimp only
@[simp] theorem syncXprt_regn (s : State) : (State.syncXprt s).regn = s.regn := by
  unfold State.syncXprt
  repeat' first | (simp; done) | split | dsimp only
@[simp] theorem syncXprt_jrnl (s : State) : (State.syncXprt s).jrnl = s.jrnl := by
  unfold State.syncXprt
  repeat' first | (simp; done) | split | dsimp only
@[simp] theorem syncXprt_cmpr (s : State) : (State.syncXprt s).cmpr = s.cmpr := by
  unfold State.syncXprt
  repeat' first | (simp; done) | split | dsimp only
@[simp] theorem syncXprt_plce (s : State) : (State.syncXprt s).plce = s.plce := by
  unfold State.syncXprt
  repeat' first | (simp; done) | split | dsimp only
@[simp] theorem syncXprt_strp (s : State) : (State.syncXprt s).strp = s.strp := by
  unfold State.syncXprt
  repeat' first | (simp; done) | split | dsimp only
@[simp] theorem syncXprt_drvp (s : State) : (State.syncXprt s).drvp = s.drvp := by
  unfold State.syncXprt
  repeat' first | (simp; done) | split | dsimp only
@[simp] theorem syncXprt_pair (s : State) : (State.syncXprt s).pair = s.pair := by
  unfold State.syncXprt
  repeat' first | (simp; done) | split | dsimp only
@[simp] theorem syncXprt_bayp (s : State) : (State.syncXprt s).bayp = s.bayp := by
  unfold State.syncXprt
  repeat' first | (simp; done) | split | dsimp only
@[simp] theorem syncXprt_pol (s : State) : (State.syncXprt s).pol = s.pol := by
  unfold State.syncXprt
  repeat' first | (simp; done) | split | dsimp only
@[simp] theorem syncXprt_tap (s : State) : (State.syncXprt s).tap = s.tap := by
  unfold State.syncXprt
  repeat' first | (simp; done) | split | dsimp only
@[simp] theorem syncXprt_now (s : State) : (State.syncXprt s).now = s.now := by
  unfold State.syncXprt
  repeat' first | (simp; done) | split | dsimp only
@[simp] theorem syncXprt_drawn (s : State) : (State.syncXprt s).drawn = s.drawn := by
  unfold State.syncXprt
  repeat' first | (simp; done) | split | dsimp only
@[simp] theorem syncXprt_pending (s : State) : (State.syncXprt s).pending = s.pending := by
  unfold State.syncXprt
  repeat' first | (simp; done) | split | dsimp only
@[simp] theorem touch_fab (i : Nat) (s : State) : (State.touch i s).fab = s.fab := by
  unfold State.touch
  repeat' first | (simp; done) | split | dsimp only
@[simp] theorem touch_line (i : Nat) (s : State) : (State.touch i s).line = s.line := by
  unfold State.touch
  repeat' first | (simp; done) | split | dsimp only
@[simp] theorem touch_ptp (i : Nat) (s : State) : (State.touch i s).ptp = s.ptp := by
  unfold State.touch
  repeat' first | (simp; done) | split | dsimp only
@[simp] theorem touch_gard (i : Nat) (s : State) : (State.touch i s).gard = s.gard := by
  unfold State.touch
  repeat' first | (simp; done) | split | dsimp only
@[simp] theorem touch_tmgr (i : Nat) (s : State) : (State.touch i s).tmgr = s.tmgr := by
  unfold State.touch
  repeat' first | (simp; done) | split | dsimp only
@[simp] theorem touch_vat (i : Nat) (s : State) : (State.touch i s).vat = s.vat := by
  unfold State.touch
  repeat' first | (simp; done) | split | dsimp only
@[simp] theorem touch_cell (i : Nat) (s : State) : (State.touch i s).cell = s.cell := by
  unfold State.touch
  repeat' first | (simp; done) | split | dsimp only
@[simp] theorem touch_cmdq (i : Nat) (s : State) : (State.touch i s).cmdq = s.cmdq := by
  unfold State.touch
  repeat' first | (simp; done) | split | dsimp only
@[simp] theorem touch_regn (i : Nat) (s : State) : (State.touch i s).regn = s.regn := by
  unfold State.touch
  repeat' first | (simp; done) | split | dsimp only
@[simp] theorem touch_jrnl (i : Nat) (s : State) : (State.touch i s).jrnl = s.jrnl := by
  unfold State.touch
  repeat' first | (simp; done) | split | dsimp only
@[simp] theorem touch_cmpr (i : Nat) (s : State) : (State.touch i s).cmpr = s.cmpr := by
  unfold State.touch
  repeat' first | (simp; done) | split | dsimp only
@[simp] theorem touch_plce (i : Nat) (s : State) : (State.touch i s).plce = s.plce := by
  unfold State.touch
  repeat' first | (simp; done) | split | dsimp only
@[simp] theorem touch_strp (i : Nat) (s : State) : (State.touch i s).strp = s.strp := by
  unfold State.touch
  repeat' first | (simp; done) | split | dsimp only
@[simp] theorem touch_drvp (i : Nat) (s : State) : (State.touch i s).drvp = s.drvp := by
  unfold State.touch
  repeat' first | (simp; done) | split | dsimp only
@[simp] theorem touch_pair (i : Nat) (s : State) : (State.touch i s).pair = s.pair := by
  unfold State.touch
  repeat' first | (simp; done) | split | dsimp only
@[simp] theorem touch_bayp (i : Nat) (s : State) : (State.touch i s).bayp = s.bayp := by
  unfold State.touch
  repeat' first | (simp; done) | split | dsimp only
@[simp] theorem touch_pol (i : Nat) (s : State) : (State.touch i s).pol = s.pol := by
  unfold State.touch
  repeat' first | (simp; done) | split | dsimp only
@[simp] theorem touch_tap (i : Nat) (s : State) : (State.touch i s).tap = s.tap := by
  unfold State.touch
  repeat' first | (simp; done) | split | dsimp only
@[simp] theorem touch_now (i : Nat) (s : State) : (State.touch i s).now = s.now := by
  unfold State.touch
  repeat' first | (simp; done) | split | dsimp only
@[simp] theorem touch_drawn (i : Nat) (s : State) : (State.touch i s).drawn = s.drawn := by
  unfold State.touch
  repeat' first | (simp; done) | split | dsimp only
@[simp] theorem touch_pending (i : Nat) (s : State) : (State.touch i s).pending = s.pending := by
  unfold State.touch
  repeat' first | (simp; done) | split | dsimp only
@[simp] theorem evictCtx_line (v : Nat) (s : State) : (State.evictCtx v s).line = s.line := by
  unfold State.evictCtx
  repeat' first | (simp; done) | split | dsimp only
@[simp] theorem evictCtx_ptp (v : Nat) (s : State) : (State.evictCtx v s).ptp = s.ptp := by
  unfold State.evictCtx
  repeat' first | (simp; done) | split | dsimp only
@[simp] theorem evictCtx_gard (v : Nat) (s : State) : (State.evictCtx v s).gard = s.gard := by
  unfold State.evictCtx
  repeat' first | (simp; done) | split | dsimp only
@[simp] theorem evictCtx_tmgr (v : Nat) (s : State) : (State.evictCtx v s).tmgr = s.tmgr := by
  unfold State.evictCtx
  repeat' first | (simp; done) | split | dsimp only
@[simp] theorem evictCtx_vat (v : Nat) (s : State) : (State.evictCtx v s).vat = s.vat := by
  unfold State.evictCtx
  repeat' first | (simp; done) | split | dsimp only
@[simp] theorem evictCtx_cell (v : Nat) (s : State) : (State.evictCtx v s).cell = s.cell := by
  unfold State.evictCtx
  repeat' first | (simp; done) | split | dsimp only
@[simp] theorem evictCtx_cmdq (v : Nat) (s : State) : (State.evictCtx v s).cmdq = s.cmdq := by
  unfold State.evictCtx
  repeat' first | (simp; done) | split | dsimp only
@[simp] theorem evictCtx_regn (v : Nat) (s : State) : (State.evictCtx v s).regn = s.regn := by
  unfold State.evictCtx
  repeat' first | (simp; done) | split | dsimp only
@[simp] theorem evictCtx_jrnl (v : Nat) (s : State) : (State.evictCtx v s).jrnl = s.jrnl := by
  unfold State.evictCtx
  repeat' first | (simp; done) | split | dsimp only
@[simp] theorem evictCtx_cmpr (v : Nat) (s : State) : (State.evictCtx v s).cmpr = s.cmpr := by
  unfold State.evictCtx
  repeat' first | (simp; done) | split | dsimp only
@[simp] theorem evictCtx_plce (v : Nat) (s : State) : (State.evictCtx v s).plce = s.plce := by
  unfold State.evictCtx
  repeat' first | (simp; done) | split | dsimp only
@[simp] theorem evictCtx_strp (v : Nat) (s : State) : (State.evictCtx v s).strp = s.strp := by
  unfold State.evictCtx
  repeat' first | (simp; done) | split | dsimp only
@[simp] theorem evictCtx_drvp (v : Nat) (s : State) : (State.evictCtx v s).drvp = s.drvp := by
  unfold State.evictCtx
  repeat' first | (simp; done) | split | dsimp only
@[simp] theorem evictCtx_pair (v : Nat) (s : State) : (State.evictCtx v s).pair = s.pair := by
  unfold State.evictCtx
  repeat' first | (simp; done) | split | dsimp only
@[simp] theorem evictCtx_bayp (v : Nat) (s : State) : (State.evictCtx v s).bayp = s.bayp := by
  unfold State.evictCtx
  repeat' first | (simp; done) | split | dsimp only
@[simp] theorem evictCtx_pol (v : Nat) (s : State) : (State.evictCtx v s).pol = s.pol := by
  unfold State.evictCtx
  repeat' first | (simp; done) | split | dsimp only
@[simp] theorem evictCtx_now (v : Nat) (s : State) : (State.evictCtx v s).now = s.now := by
  unfold State.evictCtx
  repeat' first | (simp; done) | split | dsimp only
@[simp] theorem evictCtx_pending (v : Nat) (s : State) : (State.evictCtx v s).pending = s.pending := by
  unfold State.evictCtx
  repeat' first | (simp; done) | split | dsimp only
@[simp] theorem cacheRoom_line (s : State) : (State.cacheRoom s).2.line = s.line := by
  unfold State.cacheRoom
  repeat' first | (simp; done) | split | dsimp only
@[simp] theorem cacheRoom_ptp (s : State) : (State.cacheRoom s).2.ptp = s.ptp := by
  unfold State.cacheRoom
  repeat' first | (simp; done) | split | dsimp only
@[simp] theorem cacheRoom_gard (s : State) : (State.cacheRoom s).2.gard = s.gard := by
  unfold State.cacheRoom
  repeat' first | (simp; done) | split | dsimp only
@[simp] theorem cacheRoom_tmgr (s : State) : (State.cacheRoom s).2.tmgr = s.tmgr := by
  unfold State.cacheRoom
  repeat' first | (simp; done) | split | dsimp only
@[simp] theorem cacheRoom_vat (s : State) : (State.cacheRoom s).2.vat = s.vat := by
  unfold State.cacheRoom
  repeat' first | (simp; done) | split | dsimp only
@[simp] theorem cacheRoom_cell (s : State) : (State.cacheRoom s).2.cell = s.cell := by
  unfold State.cacheRoom
  repeat' first | (simp; done) | split | dsimp only
@[simp] theorem cacheRoom_cmdq (s : State) : (State.cacheRoom s).2.cmdq = s.cmdq := by
  unfold State.cacheRoom
  repeat' first | (simp; done) | split | dsimp only
@[simp] theorem cacheRoom_regn (s : State) : (State.cacheRoom s).2.regn = s.regn := by
  unfold State.cacheRoom
  repeat' first | (simp; done) | split | dsimp only
@[simp] theorem cacheRoom_jrnl (s : State) : (State.cacheRoom s).2.jrnl = s.jrnl := by
  unfold State.cacheRoom
  repeat' first | (simp; done) | split | dsimp only
@[simp] theorem cacheRoom_cmpr (s : State) : (State.cacheRoom s).2.cmpr = s.cmpr := by
  unfold State.cacheRoom
  repeat' first | (simp; done) | split | dsimp only
@[simp] theorem cacheRoom_plce (s : State) : (State.cacheRoom s).2.plce = s.plce := by
  unfold State.cacheRoom
  repeat' first | (simp; done) | split | dsimp only
@[simp] theorem cacheRoom_strp (s : State) : (State.cacheRoom s).2.strp = s.strp := by
  unfold State.cacheRoom
  repeat' first | (simp; done) | split | dsimp only
@[simp] theorem cacheRoom_drvp (s : State) : (State.cacheRoom s).2.drvp = s.drvp := by
  unfold State.cacheRoom
  repeat' first | (simp; done) | split | dsimp only
@[simp] theorem cacheRoom_pair (s : State) : (State.cacheRoom s).2.pair = s.pair := by
  unfold State.cacheRoom
  repeat' first | (simp; done) | split | dsimp only
@[simp] theorem cacheRoom_bayp (s : State) : (State.cacheRoom s).2.bayp = s.bayp := by
  unfold State.cacheRoom
  repeat' first | (simp; done) | split | dsimp only
@[simp] theorem cacheRoom_pol (s : State) : (State.cacheRoom s).2.pol = s.pol := by
  unfold State.cacheRoom
  repeat' first | (simp; done) | split | dsimp only
@[simp] theorem cacheRoom_now (s : State) : (State.cacheRoom s).2.now = s.now := by
  unfold State.cacheRoom
  repeat' first | (simp; done) | split | dsimp only
@[simp] theorem cacheRoom_pending (s : State) : (State.cacheRoom s).2.pending = s.pending := by
  unfold State.cacheRoom
  repeat' first | (simp; done) | split | dsimp only
@[simp] theorem startFetch_line (i : Nat) (s : State) : (State.startFetch i s).line = s.line := by
  unfold State.startFetch
  repeat' first | (simp; done) | split | dsimp only
@[simp] theorem startFetch_ptp (i : Nat) (s : State) : (State.startFetch i s).ptp = s.ptp := by
  unfold State.startFetch
  repeat' first | (simp; done) | split | dsimp only
@[simp] theorem startFetch_gard (i : Nat) (s : State) : (State.startFetch i s).gard = s.gard := by
  unfold State.startFetch
  repeat' first | (simp; done) | split | dsimp only
@[simp] theorem startFetch_tmgr (i : Nat) (s : State) : (State.startFetch i s).tmgr = s.tmgr := by
  unfold State.startFetch
  repeat' first | (simp; done) | split | dsimp only
@[simp] theorem startFetch_vat (i : Nat) (s : State) : (State.startFetch i s).vat = s.vat := by
  unfold State.startFetch
  repeat' first | (simp; done) | split | dsimp only
@[simp] theorem startFetch_cell (i : Nat) (s : State) : (State.startFetch i s).cell = s.cell := by
  unfold State.startFetch
  repeat' first | (simp; done) | split | dsimp only
@[simp] theorem startFetch_cmdq (i : Nat) (s : State) : (State.startFetch i s).cmdq = s.cmdq := by
  unfold State.startFetch
  repeat' first | (simp; done) | split | dsimp only
@[simp] theorem startFetch_regn (i : Nat) (s : State) : (State.startFetch i s).regn = s.regn := by
  unfold State.startFetch
  repeat' first | (simp; done) | split | dsimp only
@[simp] theorem startFetch_jrnl (i : Nat) (s : State) : (State.startFetch i s).jrnl = s.jrnl := by
  unfold State.startFetch
  repeat' first | (simp; done) | split | dsimp only
@[simp] theorem startFetch_cmpr (i : Nat) (s : State) : (State.startFetch i s).cmpr = s.cmpr := by
  unfold State.startFetch
  repeat' first | (simp; done) | split | dsimp only
@[simp] theorem startFetch_plce (i : Nat) (s : State) : (State.startFetch i s).plce = s.plce := by
  unfold State.startFetch
  repeat' first | (simp; done) | split | dsimp only
@[simp] theorem startFetch_strp (i : Nat) (s : State) : (State.startFetch i s).strp = s.strp := by
  unfold State.startFetch
  repeat' first | (simp; done) | split | dsimp only
@[simp] theorem startFetch_drvp (i : Nat) (s : State) : (State.startFetch i s).drvp = s.drvp := by
  unfold State.startFetch
  repeat' first | (simp; done) | split | dsimp only
@[simp] theorem startFetch_pair (i : Nat) (s : State) : (State.startFetch i s).pair = s.pair := by
  unfold State.startFetch
  repeat' first | (simp; done) | split | dsimp only
@[simp] theorem startFetch_bayp (i : Nat) (s : State) : (State.startFetch i s).bayp = s.bayp := by
  unfold State.startFetch
  repeat' first | (simp; done) | split | dsimp only
@[simp] theorem startFetch_pol (i : Nat) (s : State) : (State.startFetch i s).pol = s.pol := by
  unfold State.startFetch
  repeat' first | (simp; done) | split | dsimp only
@[simp] theorem startFetch_now (i : Nat) (s : State) : (State.startFetch i s).now = s.now := by
  unfold State.startFetch
  repeat' first | (simp; done) | split | dsimp only
@[simp] theorem startFetch_pending (i : Nat) (s : State) : (State.startFetch i s).pending = s.pending := by
  unfold State.startFetch
  repeat' first | (simp; done) | split | dsimp only
@[simp] theorem acquire_line (i : Nat) (s : State) : (State.acquire i s).line = s.line := by
  unfold State.acquire
  repeat' first | (simp; done) | split | dsimp only
@[simp] theorem acquire_ptp (i : Nat) (s : State) : (State.acquire i s).ptp = s.ptp := by
  unfold State.acquire
  repeat' first | (simp; done) | split | dsimp only
@[simp] theorem acquire_gard (i : Nat) (s : State) : (State.acquire i s).gard = s.gard := by
  unfold State.acquire
  repeat' first | (simp; done) | split | dsimp only
@[simp] theorem acquire_tmgr (i : Nat) (s : State) : (State.acquire i s).tmgr = s.tmgr := by
  unfold State.acquire
  repeat' first | (simp; done) | split | dsimp only
@[simp] theorem acquire_vat (i : Nat) (s : State) : (State.acquire i s).vat = s.vat := by
  unfold State.acquire
  repeat' first | (simp; done) | split | dsimp only
@[simp] theorem acquire_cell (i : Nat) (s : State) : (State.acquire i s).cell = s.cell := by
  unfold State.acquire
  repeat' first | (simp; done) | split | dsimp only
@[simp] theorem acquire_cmdq (i : Nat) (s : State) : (State.acquire i s).cmdq = s.cmdq := by
  unfold State.acquire
  repeat' first | (simp; done) | split | dsimp only
@[simp] theorem acquire_regn (i : Nat) (s : State) : (State.acquire i s).regn = s.regn := by
  unfold State.acquire
  repeat' first | (simp; done) | split | dsimp only
@[simp] theorem acquire_jrnl (i : Nat) (s : State) : (State.acquire i s).jrnl = s.jrnl := by
  unfold State.acquire
  repeat' first | (simp; done) | split | dsimp only
@[simp] theorem acquire_cmpr (i : Nat) (s : State) : (State.acquire i s).cmpr = s.cmpr := by
  unfold State.acquire
  repeat' first | (simp; done) | split | dsimp only
@[simp] theorem acquire_plce (i : Nat) (s : State) : (State.acquire i s).plce = s.plce := by
  unfold State.acquire
  repeat' first | (simp; done) | split | dsimp only
@[simp] theorem acquire_strp (i : Nat) (s : State) : (State.acquire i s).strp = s.strp := by
  unfold State.acquire
  repeat' first | (simp; done) | split | dsimp only
@[simp] theorem acquire_drvp (i : Nat) (s : State) : (State.acquire i s).drvp = s.drvp := by
  unfold State.acquire
  repeat' first | (simp; done) | split | dsimp only
@[simp] theorem acquire_pair (i : Nat) (s : State) : (State.acquire i s).pair = s.pair := by
  unfold State.acquire
  repeat' first | (simp; done) | split | dsimp only
@[simp] theorem acquire_bayp (i : Nat) (s : State) : (State.acquire i s).bayp = s.bayp := by
  unfold State.acquire
  repeat' first | (simp; done) | split | dsimp only
@[simp] theorem acquire_pol (i : Nat) (s : State) : (State.acquire i s).pol = s.pol := by
  unfold State.acquire
  repeat' first | (simp; done) | split | dsimp only
@[simp] theorem acquire_now (i : Nat) (s : State) : (State.acquire i s).now = s.now := by
  unfold State.acquire
  repeat' first | (simp; done) | split | dsimp only
@[simp] theorem acquire_pending (i : Nat) (s : State) : (State.acquire i s).pending = s.pending := by
  unfold State.acquire
  repeat' first | (simp; done) | split | dsimp only
@[simp] theorem rekeyTx_line (i : Nat) (s : State) : (State.rekeyTx i s).line = s.line := by
  unfold State.rekeyTx
  repeat' first | (simp; done) | split | dsimp only
@[simp] theorem rekeyTx_ptp (i : Nat) (s : State) : (State.rekeyTx i s).ptp = s.ptp := by
  unfold State.rekeyTx
  repeat' first | (simp; done) | split | dsimp only
@[simp] theorem rekeyTx_gard (i : Nat) (s : State) : (State.rekeyTx i s).gard = s.gard := by
  unfold State.rekeyTx
  repeat' first | (simp; done) | split | dsimp only
@[simp] theorem rekeyTx_tmgr (i : Nat) (s : State) : (State.rekeyTx i s).tmgr = s.tmgr := by
  unfold State.rekeyTx
  repeat' first | (simp; done) | split | dsimp only
@[simp] theorem rekeyTx_vat (i : Nat) (s : State) : (State.rekeyTx i s).vat = s.vat := by
  unfold State.rekeyTx
  repeat' first | (simp; done) | split | dsimp only
@[simp] theorem rekeyTx_cell (i : Nat) (s : State) : (State.rekeyTx i s).cell = s.cell := by
  unfold State.rekeyTx
  repeat' first | (simp; done) | split | dsimp only
@[simp] theorem rekeyTx_cmdq (i : Nat) (s : State) : (State.rekeyTx i s).cmdq = s.cmdq := by
  unfold State.rekeyTx
  repeat' first | (simp; done) | split | dsimp only
@[simp] theorem rekeyTx_regn (i : Nat) (s : State) : (State.rekeyTx i s).regn = s.regn := by
  unfold State.rekeyTx
  repeat' first | (simp; done) | split | dsimp only
@[simp] theorem rekeyTx_jrnl (i : Nat) (s : State) : (State.rekeyTx i s).jrnl = s.jrnl := by
  unfold State.rekeyTx
  repeat' first | (simp; done) | split | dsimp only
@[simp] theorem rekeyTx_cmpr (i : Nat) (s : State) : (State.rekeyTx i s).cmpr = s.cmpr := by
  unfold State.rekeyTx
  repeat' first | (simp; done) | split | dsimp only
@[simp] theorem rekeyTx_plce (i : Nat) (s : State) : (State.rekeyTx i s).plce = s.plce := by
  unfold State.rekeyTx
  repeat' first | (simp; done) | split | dsimp only
@[simp] theorem rekeyTx_strp (i : Nat) (s : State) : (State.rekeyTx i s).strp = s.strp := by
  unfold State.rekeyTx
  repeat' first | (simp; done) | split | dsimp only
@[simp] theorem rekeyTx_drvp (i : Nat) (s : State) : (State.rekeyTx i s).drvp = s.drvp := by
  unfold State.rekeyTx
  repeat' first | (simp; done) | split | dsimp only
@[simp] theorem rekeyTx_pair (i : Nat) (s : State) : (State.rekeyTx i s).pair = s.pair := by
  unfold State.rekeyTx
  repeat' first | (simp; done) | split | dsimp only
@[simp] theorem rekeyTx_bayp (i : Nat) (s : State) : (State.rekeyTx i s).bayp = s.bayp := by
  unfold State.rekeyTx
  repeat' first | (simp; done) | split | dsimp only
@[simp] theorem rekeyTx_pol (i : Nat) (s : State) : (State.rekeyTx i s).pol = s.pol := by
  unfold State.rekeyTx
  repeat' first | (simp; done) | split | dsimp only
@[simp] theorem rekeyTx_tap (i : Nat) (s : State) : (State.rekeyTx i s).tap = s.tap := by
  unfold State.rekeyTx
  repeat' first | (simp; done) | split | dsimp only
@[simp] theorem rekeyTx_now (i : Nat) (s : State) : (State.rekeyTx i s).now = s.now := by
  unfold State.rekeyTx
  repeat' first | (simp; done) | split | dsimp only
@[simp] theorem rekeyTx_drawn (i : Nat) (s : State) : (State.rekeyTx i s).drawn = s.drawn := by
  unfold State.rekeyTx
  repeat' first | (simp; done) | split | dsimp only
@[simp] theorem rekeyTx_pending (i : Nat) (s : State) : (State.rekeyTx i s).pending = s.pending := by
  unfold State.rekeyTx
  repeat' first | (simp; done) | split | dsimp only
@[simp] theorem sealPkt_line (i : Nat) (p : OutPkt) (s : State) : (State.sealPkt i p s).2.line = s.line := by
  unfold State.sealPkt
  repeat' first | (simp; done) | split | dsimp only
@[simp] theorem sealPkt_ptp (i : Nat) (p : OutPkt) (s : State) : (State.sealPkt i p s).2.ptp = s.ptp := by
  unfold State.sealPkt
  repeat' first | (simp; done) | split | dsimp only
@[simp] theorem sealPkt_gard (i : Nat) (p : OutPkt) (s : State) : (State.sealPkt i p s).2.gard = s.gard := by
  unfold State.sealPkt
  repeat' first | (simp; done) | split | dsimp only
@[simp] theorem sealPkt_tmgr (i : Nat) (p : OutPkt) (s : State) : (State.sealPkt i p s).2.tmgr = s.tmgr := by
  unfold State.sealPkt
  repeat' first | (simp; done) | split | dsimp only
@[simp] theorem sealPkt_vat (i : Nat) (p : OutPkt) (s : State) : (State.sealPkt i p s).2.vat = s.vat := by
  unfold State.sealPkt
  repeat' first | (simp; done) | split | dsimp only
@[simp] theorem sealPkt_cell (i : Nat) (p : OutPkt) (s : State) : (State.sealPkt i p s).2.cell = s.cell := by
  unfold State.sealPkt
  repeat' first | (simp; done) | split | dsimp only
@[simp] theorem sealPkt_cmdq (i : Nat) (p : OutPkt) (s : State) : (State.sealPkt i p s).2.cmdq = s.cmdq := by
  unfold State.sealPkt
  repeat' first | (simp; done) | split | dsimp only
@[simp] theorem sealPkt_regn (i : Nat) (p : OutPkt) (s : State) : (State.sealPkt i p s).2.regn = s.regn := by
  unfold State.sealPkt
  repeat' first | (simp; done) | split | dsimp only
@[simp] theorem sealPkt_jrnl (i : Nat) (p : OutPkt) (s : State) : (State.sealPkt i p s).2.jrnl = s.jrnl := by
  unfold State.sealPkt
  repeat' first | (simp; done) | split | dsimp only
@[simp] theorem sealPkt_cmpr (i : Nat) (p : OutPkt) (s : State) : (State.sealPkt i p s).2.cmpr = s.cmpr := by
  unfold State.sealPkt
  repeat' first | (simp; done) | split | dsimp only
@[simp] theorem sealPkt_plce (i : Nat) (p : OutPkt) (s : State) : (State.sealPkt i p s).2.plce = s.plce := by
  unfold State.sealPkt
  repeat' first | (simp; done) | split | dsimp only
@[simp] theorem sealPkt_strp (i : Nat) (p : OutPkt) (s : State) : (State.sealPkt i p s).2.strp = s.strp := by
  unfold State.sealPkt
  repeat' first | (simp; done) | split | dsimp only
@[simp] theorem sealPkt_drvp (i : Nat) (p : OutPkt) (s : State) : (State.sealPkt i p s).2.drvp = s.drvp := by
  unfold State.sealPkt
  repeat' first | (simp; done) | split | dsimp only
@[simp] theorem sealPkt_pair (i : Nat) (p : OutPkt) (s : State) : (State.sealPkt i p s).2.pair = s.pair := by
  unfold State.sealPkt
  repeat' first | (simp; done) | split | dsimp only
@[simp] theorem sealPkt_bayp (i : Nat) (p : OutPkt) (s : State) : (State.sealPkt i p s).2.bayp = s.bayp := by
  unfold State.sealPkt
  repeat' first | (simp; done) | split | dsimp only
@[simp] theorem sealPkt_pol (i : Nat) (p : OutPkt) (s : State) : (State.sealPkt i p s).2.pol = s.pol := by
  unfold State.sealPkt
  repeat' first | (simp; done) | split | dsimp only
@[simp] theorem sealPkt_tap (i : Nat) (p : OutPkt) (s : State) : (State.sealPkt i p s).2.tap = s.tap := by
  unfold State.sealPkt
  repeat' first | (simp; done) | split | dsimp only
@[simp] theorem sealPkt_now (i : Nat) (p : OutPkt) (s : State) : (State.sealPkt i p s).2.now = s.now := by
  unfold State.sealPkt
  repeat' first | (simp; done) | split | dsimp only
@[simp] theorem sealPkt_drawn (i : Nat) (p : OutPkt) (s : State) : (State.sealPkt i p s).2.drawn = s.drawn := by
  unfold State.sealPkt
  repeat' first | (simp; done) | split | dsimp only
@[simp] theorem sealPkt_pending (i : Nat) (p : OutPkt) (s : State) : (State.sealPkt i p s).2.pending = s.pending := by
  unfold State.sealPkt
  repeat' first | (simp; done) | split | dsimp only
@[simp] theorem frameOut_gard (f : HeldFrame) (s : State) : (State.frameOut f s).gard = s.gard := by
  unfold State.frameOut
  repeat' first | (simp; done) | split | dsimp only
@[simp] theorem frameOut_tmgr (f : HeldFrame) (s : State) : (State.frameOut f s).tmgr = s.tmgr := by
  unfold State.frameOut
  repeat' first | (simp; done) | split | dsimp only
@[simp] theorem frameOut_vat (f : HeldFrame) (s : State) : (State.frameOut f s).vat = s.vat := by
  unfold State.frameOut
  repeat' first | (simp; done) | split | dsimp only
@[simp] theorem frameOut_cell (f : HeldFrame) (s : State) : (State.frameOut f s).cell = s.cell := by
  unfold State.frameOut
  repeat' first | (simp; done) | split | dsimp only
@[simp] theorem frameOut_cmdq (f : HeldFrame) (s : State) : (State.frameOut f s).cmdq = s.cmdq := by
  unfold State.frameOut
  repeat' first | (simp; done) | split | dsimp only
@[simp] theorem frameOut_regn (f : HeldFrame) (s : State) : (State.frameOut f s).regn = s.regn := by
  unfold State.frameOut
  repeat' first | (simp; done) | split | dsimp only
@[simp] theorem frameOut_jrnl (f : HeldFrame) (s : State) : (State.frameOut f s).jrnl = s.jrnl := by
  unfold State.frameOut
  repeat' first | (simp; done) | split | dsimp only
@[simp] theorem frameOut_cmpr (f : HeldFrame) (s : State) : (State.frameOut f s).cmpr = s.cmpr := by
  unfold State.frameOut
  repeat' first | (simp; done) | split | dsimp only
@[simp] theorem frameOut_plce (f : HeldFrame) (s : State) : (State.frameOut f s).plce = s.plce := by
  unfold State.frameOut
  repeat' first | (simp; done) | split | dsimp only
@[simp] theorem frameOut_strp (f : HeldFrame) (s : State) : (State.frameOut f s).strp = s.strp := by
  unfold State.frameOut
  repeat' first | (simp; done) | split | dsimp only
@[simp] theorem frameOut_drvp (f : HeldFrame) (s : State) : (State.frameOut f s).drvp = s.drvp := by
  unfold State.frameOut
  repeat' first | (simp; done) | split | dsimp only
@[simp] theorem frameOut_pair (f : HeldFrame) (s : State) : (State.frameOut f s).pair = s.pair := by
  unfold State.frameOut
  repeat' first | (simp; done) | split | dsimp only
@[simp] theorem frameOut_bayp (f : HeldFrame) (s : State) : (State.frameOut f s).bayp = s.bayp := by
  unfold State.frameOut
  repeat' first | (simp; done) | split | dsimp only
@[simp] theorem frameOut_pol (f : HeldFrame) (s : State) : (State.frameOut f s).pol = s.pol := by
  unfold State.frameOut
  repeat' first | (simp; done) | split | dsimp only
@[simp] theorem frameOut_tap (f : HeldFrame) (s : State) : (State.frameOut f s).tap = s.tap := by
  unfold State.frameOut
  repeat' first | (simp; done) | split | dsimp only
@[simp] theorem frameOut_now (f : HeldFrame) (s : State) : (State.frameOut f s).now = s.now := by
  unfold State.frameOut
  repeat' first | (simp; done) | split | dsimp only
@[simp] theorem frameOut_drawn (f : HeldFrame) (s : State) : (State.frameOut f s).drawn = s.drawn := by
  unfold State.frameOut
  repeat' first | (simp; done) | split | dsimp only
@[simp] theorem frameOut_pending (f : HeldFrame) (s : State) : (State.frameOut f s).pending = s.pending := by
  unfold State.frameOut
  repeat' first | (simp; done) | split | dsimp only
@[simp] theorem lineSend_gard (f : HeldFrame) (s : State) : (State.lineSend f s).gard = s.gard := by
  unfold State.lineSend
  repeat' first | (simp; done) | split | dsimp only
@[simp] theorem lineSend_tmgr (f : HeldFrame) (s : State) : (State.lineSend f s).tmgr = s.tmgr := by
  unfold State.lineSend
  repeat' first | (simp; done) | split | dsimp only
@[simp] theorem lineSend_vat (f : HeldFrame) (s : State) : (State.lineSend f s).vat = s.vat := by
  unfold State.lineSend
  repeat' first | (simp; done) | split | dsimp only
@[simp] theorem lineSend_cell (f : HeldFrame) (s : State) : (State.lineSend f s).cell = s.cell := by
  unfold State.lineSend
  repeat' first | (simp; done) | split | dsimp only
@[simp] theorem lineSend_cmdq (f : HeldFrame) (s : State) : (State.lineSend f s).cmdq = s.cmdq := by
  unfold State.lineSend
  repeat' first | (simp; done) | split | dsimp only
@[simp] theorem lineSend_regn (f : HeldFrame) (s : State) : (State.lineSend f s).regn = s.regn := by
  unfold State.lineSend
  repeat' first | (simp; done) | split | dsimp only
@[simp] theorem lineSend_jrnl (f : HeldFrame) (s : State) : (State.lineSend f s).jrnl = s.jrnl := by
  unfold State.lineSend
  repeat' first | (simp; done) | split | dsimp only
@[simp] theorem lineSend_cmpr (f : HeldFrame) (s : State) : (State.lineSend f s).cmpr = s.cmpr := by
  unfold State.lineSend
  repeat' first | (simp; done) | split | dsimp only
@[simp] theorem lineSend_plce (f : HeldFrame) (s : State) : (State.lineSend f s).plce = s.plce := by
  unfold State.lineSend
  repeat' first | (simp; done) | split | dsimp only
@[simp] theorem lineSend_strp (f : HeldFrame) (s : State) : (State.lineSend f s).strp = s.strp := by
  unfold State.lineSend
  repeat' first | (simp; done) | split | dsimp only
@[simp] theorem lineSend_drvp (f : HeldFrame) (s : State) : (State.lineSend f s).drvp = s.drvp := by
  unfold State.lineSend
  repeat' first | (simp; done) | split | dsimp only
@[simp] theorem lineSend_pair (f : HeldFrame) (s : State) : (State.lineSend f s).pair = s.pair := by
  unfold State.lineSend
  repeat' first | (simp; done) | split | dsimp only
@[simp] theorem lineSend_bayp (f : HeldFrame) (s : State) : (State.lineSend f s).bayp = s.bayp := by
  unfold State.lineSend
  repeat' first | (simp; done) | split | dsimp only
@[simp] theorem lineSend_pol (f : HeldFrame) (s : State) : (State.lineSend f s).pol = s.pol := by
  unfold State.lineSend
  repeat' first | (simp; done) | split | dsimp only
@[simp] theorem lineSend_tap (f : HeldFrame) (s : State) : (State.lineSend f s).tap = s.tap := by
  unfold State.lineSend
  repeat' first | (simp; done) | split | dsimp only
@[simp] theorem lineSend_now (f : HeldFrame) (s : State) : (State.lineSend f s).now = s.now := by
  unfold State.lineSend
  repeat' first | (simp; done) | split | dsimp only
@[simp] theorem lineSend_drawn (f : HeldFrame) (s : State) : (State.lineSend f s).drawn = s.drawn := by
  unfold State.lineSend
  repeat' first | (simp; done) | split | dsimp only
@[simp] theorem lineSend_pending (f : HeldFrame) (s : State) : (State.lineSend f s).pending = s.pending := by
  unfold State.lineSend
  repeat' first | (simp; done) | split | dsimp only
@[simp] theorem transmit_gard (i port : Nat) (p : OutPkt) (t : Option SealTrailer) (s : State) : (State.transmit i port p t s).gard = s.gard := by
  unfold State.transmit
  repeat' first | (simp; done) | split | dsimp only
@[simp] theorem transmit_tmgr (i port : Nat) (p : OutPkt) (t : Option SealTrailer) (s : State) : (State.transmit i port p t s).tmgr = s.tmgr := by
  unfold State.transmit
  repeat' first | (simp; done) | split | dsimp only
@[simp] theorem transmit_vat (i port : Nat) (p : OutPkt) (t : Option SealTrailer) (s : State) : (State.transmit i port p t s).vat = s.vat := by
  unfold State.transmit
  repeat' first | (simp; done) | split | dsimp only
@[simp] theorem transmit_cell (i port : Nat) (p : OutPkt) (t : Option SealTrailer) (s : State) : (State.transmit i port p t s).cell = s.cell := by
  unfold State.transmit
  repeat' first | (simp; done) | split | dsimp only
@[simp] theorem transmit_cmdq (i port : Nat) (p : OutPkt) (t : Option SealTrailer) (s : State) : (State.transmit i port p t s).cmdq = s.cmdq := by
  unfold State.transmit
  repeat' first | (simp; done) | split | dsimp only
@[simp] theorem transmit_regn (i port : Nat) (p : OutPkt) (t : Option SealTrailer) (s : State) : (State.transmit i port p t s).regn = s.regn := by
  unfold State.transmit
  repeat' first | (simp; done) | split | dsimp only
@[simp] theorem transmit_jrnl (i port : Nat) (p : OutPkt) (t : Option SealTrailer) (s : State) : (State.transmit i port p t s).jrnl = s.jrnl := by
  unfold State.transmit
  repeat' first | (simp; done) | split | dsimp only
@[simp] theorem transmit_cmpr (i port : Nat) (p : OutPkt) (t : Option SealTrailer) (s : State) : (State.transmit i port p t s).cmpr = s.cmpr := by
  unfold State.transmit
  repeat' first | (simp; done) | split | dsimp only
@[simp] theorem transmit_plce (i port : Nat) (p : OutPkt) (t : Option SealTrailer) (s : State) : (State.transmit i port p t s).plce = s.plce := by
  unfold State.transmit
  repeat' first | (simp; done) | split | dsimp only
@[simp] theorem transmit_strp (i port : Nat) (p : OutPkt) (t : Option SealTrailer) (s : State) : (State.transmit i port p t s).strp = s.strp := by
  unfold State.transmit
  repeat' first | (simp; done) | split | dsimp only
@[simp] theorem transmit_drvp (i port : Nat) (p : OutPkt) (t : Option SealTrailer) (s : State) : (State.transmit i port p t s).drvp = s.drvp := by
  unfold State.transmit
  repeat' first | (simp; done) | split | dsimp only
@[simp] theorem transmit_pair (i port : Nat) (p : OutPkt) (t : Option SealTrailer) (s : State) : (State.transmit i port p t s).pair = s.pair := by
  unfold State.transmit
  repeat' first | (simp; done) | split | dsimp only
@[simp] theorem transmit_bayp (i port : Nat) (p : OutPkt) (t : Option SealTrailer) (s : State) : (State.transmit i port p t s).bayp = s.bayp := by
  unfold State.transmit
  repeat' first | (simp; done) | split | dsimp only
@[simp] theorem transmit_pol (i port : Nat) (p : OutPkt) (t : Option SealTrailer) (s : State) : (State.transmit i port p t s).pol = s.pol := by
  unfold State.transmit
  repeat' first | (simp; done) | split | dsimp only
@[simp] theorem transmit_tap (i port : Nat) (p : OutPkt) (t : Option SealTrailer) (s : State) : (State.transmit i port p t s).tap = s.tap := by
  unfold State.transmit
  repeat' first | (simp; done) | split | dsimp only
@[simp] theorem transmit_now (i port : Nat) (p : OutPkt) (t : Option SealTrailer) (s : State) : (State.transmit i port p t s).now = s.now := by
  unfold State.transmit
  repeat' first | (simp; done) | split | dsimp only
@[simp] theorem transmit_drawn (i port : Nat) (p : OutPkt) (t : Option SealTrailer) (s : State) : (State.transmit i port p t s).drawn = s.drawn := by
  unfold State.transmit
  repeat' first | (simp; done) | split | dsimp only
@[simp] theorem transmit_pending (i port : Nat) (p : OutPkt) (t : Option SealTrailer) (s : State) : (State.transmit i port p t s).pending = s.pending := by
  unfold State.transmit
  repeat' first | (simp; done) | split | dsimp only
@[simp] theorem sendNow_gard (i : Nat) (p : OutPkt) (s : State) : (State.sendNow i p s).gard = s.gard := by
  unfold State.sendNow
  repeat' first | (simp; done) | split | dsimp only
@[simp] theorem sendNow_tmgr (i : Nat) (p : OutPkt) (s : State) : (State.sendNow i p s).tmgr = s.tmgr := by
  unfold State.sendNow
  repeat' first | (simp; done) | split | dsimp only
@[simp] theorem sendNow_vat (i : Nat) (p : OutPkt) (s : State) : (State.sendNow i p s).vat = s.vat := by
  unfold State.sendNow
  repeat' first | (simp; done) | split | dsimp only
@[simp] theorem sendNow_cell (i : Nat) (p : OutPkt) (s : State) : (State.sendNow i p s).cell = s.cell := by
  unfold State.sendNow
  repeat' first | (simp; done) | split | dsimp only
@[simp] theorem sendNow_cmdq (i : Nat) (p : OutPkt) (s : State) : (State.sendNow i p s).cmdq = s.cmdq := by
  unfold State.sendNow
  repeat' first | (simp; done) | split | dsimp only
@[simp] theorem sendNow_regn (i : Nat) (p : OutPkt) (s : State) : (State.sendNow i p s).regn = s.regn := by
  unfold State.sendNow
  repeat' first | (simp; done) | split | dsimp only
@[simp] theorem sendNow_jrnl (i : Nat) (p : OutPkt) (s : State) : (State.sendNow i p s).jrnl = s.jrnl := by
  unfold State.sendNow
  repeat' first | (simp; done) | split | dsimp only
@[simp] theorem sendNow_cmpr (i : Nat) (p : OutPkt) (s : State) : (State.sendNow i p s).cmpr = s.cmpr := by
  unfold State.sendNow
  repeat' first | (simp; done) | split | dsimp only
@[simp] theorem sendNow_plce (i : Nat) (p : OutPkt) (s : State) : (State.sendNow i p s).plce = s.plce := by
  unfold State.sendNow
  repeat' first | (simp; done) | split | dsimp only
@[simp] theorem sendNow_strp (i : Nat) (p : OutPkt) (s : State) : (State.sendNow i p s).strp = s.strp := by
  unfold State.sendNow
  repeat' first | (simp; done) | split | dsimp only
@[simp] theorem sendNow_drvp (i : Nat) (p : OutPkt) (s : State) : (State.sendNow i p s).drvp = s.drvp := by
  unfold State.sendNow
  repeat' first | (simp; done) | split | dsimp only
@[simp] theorem sendNow_pair (i : Nat) (p : OutPkt) (s : State) : (State.sendNow i p s).pair = s.pair := by
  unfold State.sendNow
  repeat' first | (simp; done) | split | dsimp only
@[simp] theorem sendNow_bayp (i : Nat) (p : OutPkt) (s : State) : (State.sendNow i p s).bayp = s.bayp := by
  unfold State.sendNow
  repeat' first | (simp; done) | split | dsimp only
@[simp] theorem sendNow_pol (i : Nat) (p : OutPkt) (s : State) : (State.sendNow i p s).pol = s.pol := by
  unfold State.sendNow
  repeat' first | (simp; done) | split | dsimp only
@[simp] theorem sendNow_tap (i : Nat) (p : OutPkt) (s : State) : (State.sendNow i p s).tap = s.tap := by
  unfold State.sendNow
  repeat' first | (simp; done) | split | dsimp only
@[simp] theorem sendNow_now (i : Nat) (p : OutPkt) (s : State) : (State.sendNow i p s).now = s.now := by
  unfold State.sendNow
  repeat' first | (simp; done) | split | dsimp only
@[simp] theorem sendNow_drawn (i : Nat) (p : OutPkt) (s : State) : (State.sendNow i p s).drawn = s.drawn := by
  unfold State.sendNow
  repeat' first | (simp; done) | split | dsimp only
@[simp] theorem sendNow_pending (i : Nat) (p : OutPkt) (s : State) : (State.sendNow i p s).pending = s.pending := by
  unfold State.sendNow
  repeat' first | (simp; done) | split | dsimp only
@[simp] theorem sendReply_gard (i : Nat) (r : Reply) (s : State) : (State.sendReply i r s).gard = s.gard := by
  unfold State.sendReply
  repeat' first | (simp; done) | split | dsimp only
@[simp] theorem sendReply_tmgr (i : Nat) (r : Reply) (s : State) : (State.sendReply i r s).tmgr = s.tmgr := by
  unfold State.sendReply
  repeat' first | (simp; done) | split | dsimp only
@[simp] theorem sendReply_vat (i : Nat) (r : Reply) (s : State) : (State.sendReply i r s).vat = s.vat := by
  unfold State.sendReply
  repeat' first | (simp; done) | split | dsimp only
@[simp] theorem sendReply_cell (i : Nat) (r : Reply) (s : State) : (State.sendReply i r s).cell = s.cell := by
  unfold State.sendReply
  repeat' first | (simp; done) | split | dsimp only
@[simp] theorem sendReply_cmdq (i : Nat) (r : Reply) (s : State) : (State.sendReply i r s).cmdq = s.cmdq := by
  unfold State.sendReply
  repeat' first | (simp; done) | split | dsimp only
@[simp] theorem sendReply_regn (i : Nat) (r : Reply) (s : State) : (State.sendReply i r s).regn = s.regn := by
  unfold State.sendReply
  repeat' first | (simp; done) | split | dsimp only
@[simp] theorem sendReply_jrnl (i : Nat) (r : Reply) (s : State) : (State.sendReply i r s).jrnl = s.jrnl := by
  unfold State.sendReply
  repeat' first | (simp; done) | split | dsimp only
@[simp] theorem sendReply_cmpr (i : Nat) (r : Reply) (s : State) : (State.sendReply i r s).cmpr = s.cmpr := by
  unfold State.sendReply
  repeat' first | (simp; done) | split | dsimp only
@[simp] theorem sendReply_plce (i : Nat) (r : Reply) (s : State) : (State.sendReply i r s).plce = s.plce := by
  unfold State.sendReply
  repeat' first | (simp; done) | split | dsimp only
@[simp] theorem sendReply_strp (i : Nat) (r : Reply) (s : State) : (State.sendReply i r s).strp = s.strp := by
  unfold State.sendReply
  repeat' first | (simp; done) | split | dsimp only
@[simp] theorem sendReply_drvp (i : Nat) (r : Reply) (s : State) : (State.sendReply i r s).drvp = s.drvp := by
  unfold State.sendReply
  repeat' first | (simp; done) | split | dsimp only
@[simp] theorem sendReply_pair (i : Nat) (r : Reply) (s : State) : (State.sendReply i r s).pair = s.pair := by
  unfold State.sendReply
  repeat' first | (simp; done) | split | dsimp only
@[simp] theorem sendReply_bayp (i : Nat) (r : Reply) (s : State) : (State.sendReply i r s).bayp = s.bayp := by
  unfold State.sendReply
  repeat' first | (simp; done) | split | dsimp only
@[simp] theorem sendReply_pol (i : Nat) (r : Reply) (s : State) : (State.sendReply i r s).pol = s.pol := by
  unfold State.sendReply
  repeat' first | (simp; done) | split | dsimp only
@[simp] theorem sendReply_tap (i : Nat) (r : Reply) (s : State) : (State.sendReply i r s).tap = s.tap := by
  unfold State.sendReply
  repeat' first | (simp; done) | split | dsimp only
@[simp] theorem sendReply_now (i : Nat) (r : Reply) (s : State) : (State.sendReply i r s).now = s.now := by
  unfold State.sendReply
  repeat' first | (simp; done) | split | dsimp only
@[simp] theorem sendReply_drawn (i : Nat) (r : Reply) (s : State) : (State.sendReply i r s).drawn = s.drawn := by
  unfold State.sendReply
  repeat' first | (simp; done) | split | dsimp only
@[simp] theorem sendReply_pending (i : Nat) (r : Reply) (s : State) : (State.sendReply i r s).pending = s.pending := by
  unfold State.sendReply
  repeat' first | (simp; done) | split | dsimp only
@[simp] theorem learnPath_line (i : Nat) (rx : RxMeta) (len : Nat) (s : State) : (State.learnPath i rx len s).line = s.line := by
  unfold State.learnPath
  repeat' first | (simp; done) | split | dsimp only
@[simp] theorem learnPath_ptp (i : Nat) (rx : RxMeta) (len : Nat) (s : State) : (State.learnPath i rx len s).ptp = s.ptp := by
  unfold State.learnPath
  repeat' first | (simp; done) | split | dsimp only
@[simp] theorem learnPath_gard (i : Nat) (rx : RxMeta) (len : Nat) (s : State) : (State.learnPath i rx len s).gard = s.gard := by
  unfold State.learnPath
  repeat' first | (simp; done) | split | dsimp only
@[simp] theorem learnPath_tmgr (i : Nat) (rx : RxMeta) (len : Nat) (s : State) : (State.learnPath i rx len s).tmgr = s.tmgr := by
  unfold State.learnPath
  repeat' first | (simp; done) | split | dsimp only
@[simp] theorem learnPath_vat (i : Nat) (rx : RxMeta) (len : Nat) (s : State) : (State.learnPath i rx len s).vat = s.vat := by
  unfold State.learnPath
  repeat' first | (simp; done) | split | dsimp only
@[simp] theorem learnPath_cell (i : Nat) (rx : RxMeta) (len : Nat) (s : State) : (State.learnPath i rx len s).cell = s.cell := by
  unfold State.learnPath
  repeat' first | (simp; done) | split | dsimp only
@[simp] theorem learnPath_cmdq (i : Nat) (rx : RxMeta) (len : Nat) (s : State) : (State.learnPath i rx len s).cmdq = s.cmdq := by
  unfold State.learnPath
  repeat' first | (simp; done) | split | dsimp only
@[simp] theorem learnPath_regn (i : Nat) (rx : RxMeta) (len : Nat) (s : State) : (State.learnPath i rx len s).regn = s.regn := by
  unfold State.learnPath
  repeat' first | (simp; done) | split | dsimp only
@[simp] theorem learnPath_jrnl (i : Nat) (rx : RxMeta) (len : Nat) (s : State) : (State.learnPath i rx len s).jrnl = s.jrnl := by
  unfold State.learnPath
  repeat' first | (simp; done) | split | dsimp only
@[simp] theorem learnPath_cmpr (i : Nat) (rx : RxMeta) (len : Nat) (s : State) : (State.learnPath i rx len s).cmpr = s.cmpr := by
  unfold State.learnPath
  repeat' first | (simp; done) | split | dsimp only
@[simp] theorem learnPath_plce (i : Nat) (rx : RxMeta) (len : Nat) (s : State) : (State.learnPath i rx len s).plce = s.plce := by
  unfold State.learnPath
  repeat' first | (simp; done) | split | dsimp only
@[simp] theorem learnPath_strp (i : Nat) (rx : RxMeta) (len : Nat) (s : State) : (State.learnPath i rx len s).strp = s.strp := by
  unfold State.learnPath
  repeat' first | (simp; done) | split | dsimp only
@[simp] theorem learnPath_drvp (i : Nat) (rx : RxMeta) (len : Nat) (s : State) : (State.learnPath i rx len s).drvp = s.drvp := by
  unfold State.learnPath
  repeat' first | (simp; done) | split | dsimp only
@[simp] theorem learnPath_pair (i : Nat) (rx : RxMeta) (len : Nat) (s : State) : (State.learnPath i rx len s).pair = s.pair := by
  unfold State.learnPath
  repeat' first | (simp; done) | split | dsimp only
@[simp] theorem learnPath_bayp (i : Nat) (rx : RxMeta) (len : Nat) (s : State) : (State.learnPath i rx len s).bayp = s.bayp := by
  unfold State.learnPath
  repeat' first | (simp; done) | split | dsimp only
@[simp] theorem learnPath_pol (i : Nat) (rx : RxMeta) (len : Nat) (s : State) : (State.learnPath i rx len s).pol = s.pol := by
  unfold State.learnPath
  repeat' first | (simp; done) | split | dsimp only
@[simp] theorem learnPath_now (i : Nat) (rx : RxMeta) (len : Nat) (s : State) : (State.learnPath i rx len s).now = s.now := by
  unfold State.learnPath
  repeat' first | (simp; done) | split | dsimp only
@[simp] theorem learnPath_pending (i : Nat) (rx : RxMeta) (len : Nat) (s : State) : (State.learnPath i rx len s).pending = s.pending := by
  unfold State.learnPath
  repeat' first | (simp; done) | split | dsimp only
@[simp] theorem setKey_cell (i : Nat) (k : KeyEnt) (s : State) : (State.setKey i k s).cell = s.cell := by
  unfold State.setKey
  repeat' first | (simp; done) | split | dsimp only
@[simp] theorem setKey_cmdq (i : Nat) (k : KeyEnt) (s : State) : (State.setKey i k s).cmdq = s.cmdq := by
  unfold State.setKey
  repeat' first | (simp; done) | split | dsimp only
@[simp] theorem setKey_regn (i : Nat) (k : KeyEnt) (s : State) : (State.setKey i k s).regn = s.regn := by
  unfold State.setKey
  repeat' first | (simp; done) | split | dsimp only
@[simp] theorem setKey_jrnl (i : Nat) (k : KeyEnt) (s : State) : (State.setKey i k s).jrnl = s.jrnl := by
  unfold State.setKey
  repeat' first | (simp; done) | split | dsimp only
@[simp] theorem setKey_cmpr (i : Nat) (k : KeyEnt) (s : State) : (State.setKey i k s).cmpr = s.cmpr := by
  unfold State.setKey
  repeat' first | (simp; done) | split | dsimp only
@[simp] theorem setKey_plce (i : Nat) (k : KeyEnt) (s : State) : (State.setKey i k s).plce = s.plce := by
  unfold State.setKey
  repeat' first | (simp; done) | split | dsimp only
@[simp] theorem setKey_strp (i : Nat) (k : KeyEnt) (s : State) : (State.setKey i k s).strp = s.strp := by
  unfold State.setKey
  repeat' first | (simp; done) | split | dsimp only
@[simp] theorem setKey_drvp (i : Nat) (k : KeyEnt) (s : State) : (State.setKey i k s).drvp = s.drvp := by
  unfold State.setKey
  repeat' first | (simp; done) | split | dsimp only
@[simp] theorem setKey_pair (i : Nat) (k : KeyEnt) (s : State) : (State.setKey i k s).pair = s.pair := by
  unfold State.setKey
  repeat' first | (simp; done) | split | dsimp only
@[simp] theorem setKey_bayp (i : Nat) (k : KeyEnt) (s : State) : (State.setKey i k s).bayp = s.bayp := by
  unfold State.setKey
  repeat' first | (simp; done) | split | dsimp only
@[simp] theorem setKey_pol (i : Nat) (k : KeyEnt) (s : State) : (State.setKey i k s).pol = s.pol := by
  unfold State.setKey
  repeat' first | (simp; done) | split | dsimp only
@[simp] theorem setKey_now (i : Nat) (k : KeyEnt) (s : State) : (State.setKey i k s).now = s.now := by
  unfold State.setKey
  repeat' first | (simp; done) | split | dsimp only
@[simp] theorem setKey_pending (i : Nat) (k : KeyEnt) (s : State) : (State.setKey i k s).pending = s.pending := by
  unfold State.setKey
  repeat' first | (simp; done) | split | dsimp only
@[simp] theorem syncKeys_line (s : State) : (State.syncKeys s).line = s.line := by
  unfold State.syncKeys
  repeat' first | (simp; done) | split | dsimp only
@[simp] theorem syncKeys_ptp (s : State) : (State.syncKeys s).ptp = s.ptp := by
  unfold State.syncKeys
  repeat' first | (simp; done) | split | dsimp only
@[simp] theorem syncKeys_xprt (s : State) : (State.syncKeys s).xprt = s.xprt := by
  unfold State.syncKeys
  repeat' first | (simp; done) | split | dsimp only
@[simp] theorem syncKeys_gard (s : State) : (State.syncKeys s).gard = s.gard := by
  unfold State.syncKeys
  repeat' first | (simp; done) | split | dsimp only
@[simp] theorem syncKeys_tmgr (s : State) : (State.syncKeys s).tmgr = s.tmgr := by
  unfold State.syncKeys
  repeat' first | (simp; done) | split | dsimp only
@[simp] theorem syncKeys_vat (s : State) : (State.syncKeys s).vat = s.vat := by
  unfold State.syncKeys
  repeat' first | (simp; done) | split | dsimp only
@[simp] theorem syncKeys_cell (s : State) : (State.syncKeys s).cell = s.cell := by
  unfold State.syncKeys
  repeat' first | (simp; done) | split | dsimp only
@[simp] theorem syncKeys_cmdq (s : State) : (State.syncKeys s).cmdq = s.cmdq := by
  unfold State.syncKeys
  repeat' first | (simp; done) | split | dsimp only
@[simp] theorem syncKeys_regn (s : State) : (State.syncKeys s).regn = s.regn := by
  unfold State.syncKeys
  repeat' first | (simp; done) | split | dsimp only
@[simp] theorem syncKeys_jrnl (s : State) : (State.syncKeys s).jrnl = s.jrnl := by
  unfold State.syncKeys
  repeat' first | (simp; done) | split | dsimp only
@[simp] theorem syncKeys_cmpr (s : State) : (State.syncKeys s).cmpr = s.cmpr := by
  unfold State.syncKeys
  repeat' first | (simp; done) | split | dsimp only
@[simp] theorem syncKeys_plce (s : State) : (State.syncKeys s).plce = s.plce := by
  unfold State.syncKeys
  repeat' first | (simp; done) | split | dsimp only
@[simp] theorem syncKeys_strp (s : State) : (State.syncKeys s).strp = s.strp := by
  unfold State.syncKeys
  repeat' first | (simp; done) | split | dsimp only
@[simp] theorem syncKeys_drvp (s : State) : (State.syncKeys s).drvp = s.drvp := by
  unfold State.syncKeys
  repeat' first | (simp; done) | split | dsimp only
@[simp] theorem syncKeys_pair (s : State) : (State.syncKeys s).pair = s.pair := by
  unfold State.syncKeys
  repeat' first | (simp; done) | split | dsimp only
@[simp] theorem syncKeys_bayp (s : State) : (State.syncKeys s).bayp = s.bayp := by
  unfold State.syncKeys
  repeat' first | (simp; done) | split | dsimp only
@[simp] theorem syncKeys_pol (s : State) : (State.syncKeys s).pol = s.pol := by
  unfold State.syncKeys
  repeat' first | (simp; done) | split | dsimp only
@[simp] theorem syncKeys_tap (s : State) : (State.syncKeys s).tap = s.tap := by
  unfold State.syncKeys
  repeat' first | (simp; done) | split | dsimp only
@[simp] theorem syncKeys_now (s : State) : (State.syncKeys s).now = s.now := by
  unfold State.syncKeys
  repeat' first | (simp; done) | split | dsimp only
@[simp] theorem syncKeys_drawn (s : State) : (State.syncKeys s).drawn = s.drawn := by
  unfold State.syncKeys
  repeat' first | (simp; done) | split | dsimp only
@[simp] theorem syncKeys_pending (s : State) : (State.syncKeys s).pending = s.pending := by
  unfold State.syncKeys
  repeat' first | (simp; done) | split | dsimp only
@[simp] theorem keyEnd_cell (idx : Nat) (s : State) : (State.keyEnd idx s).cell = s.cell := by
  unfold State.keyEnd
  repeat' first | (simp; done) | split | dsimp only
@[simp] theorem keyEnd_cmdq (idx : Nat) (s : State) : (State.keyEnd idx s).cmdq = s.cmdq := by
  unfold State.keyEnd
  repeat' first | (simp; done) | split | dsimp only
@[simp] theorem keyEnd_regn (idx : Nat) (s : State) : (State.keyEnd idx s).regn = s.regn := by
  unfold State.keyEnd
  repeat' first | (simp; done) | split | dsimp only
@[simp] theorem keyEnd_jrnl (idx : Nat) (s : State) : (State.keyEnd idx s).jrnl = s.jrnl := by
  unfold State.keyEnd
  repeat' first | (simp; done) | split | dsimp only
@[simp] theorem keyEnd_cmpr (idx : Nat) (s : State) : (State.keyEnd idx s).cmpr = s.cmpr := by
  unfold State.keyEnd
  repeat' first | (simp; done) | split | dsimp only
@[simp] theorem keyEnd_plce (idx : Nat) (s : State) : (State.keyEnd idx s).plce = s.plce := by
  unfold State.keyEnd
  repeat' first | (simp; done) | split | dsimp only
@[simp] theorem keyEnd_strp (idx : Nat) (s : State) : (State.keyEnd idx s).strp = s.strp := by
  unfold State.keyEnd
  repeat' first | (simp; done) | split | dsimp only
@[simp] theorem keyEnd_drvp (idx : Nat) (s : State) : (State.keyEnd idx s).drvp = s.drvp := by
  unfold State.keyEnd
  repeat' first | (simp; done) | split | dsimp only
@[simp] theorem keyEnd_pair (idx : Nat) (s : State) : (State.keyEnd idx s).pair = s.pair := by
  unfold State.keyEnd
  repeat' first | (simp; done) | split | dsimp only
@[simp] theorem keyEnd_bayp (idx : Nat) (s : State) : (State.keyEnd idx s).bayp = s.bayp := by
  unfold State.keyEnd
  repeat' first | (simp; done) | split | dsimp only
@[simp] theorem keyEnd_pol (idx : Nat) (s : State) : (State.keyEnd idx s).pol = s.pol := by
  unfold State.keyEnd
  repeat' first | (simp; done) | split | dsimp only
@[simp] theorem keyEnd_now (idx : Nat) (s : State) : (State.keyEnd idx s).now = s.now := by
  unfold State.keyEnd
  repeat' first | (simp; done) | split | dsimp only
@[simp] theorem keyEnd_pending (idx : Nat) (s : State) : (State.keyEnd idx s).pending = s.pending := by
  unfold State.keyEnd
  repeat' first | (simp; done) | split | dsimp only
@[simp] theorem submit_fab (i : Nat) (w : TxWork) (s : State) : (State.submit i w s).fab = s.fab := by
  unfold State.submit
  repeat' first | (simp; done) | split | dsimp only
@[simp] theorem submit_line (i : Nat) (w : TxWork) (s : State) : (State.submit i w s).line = s.line := by
  unfold State.submit
  repeat' first | (simp; done) | split | dsimp only
@[simp] theorem submit_ptp (i : Nat) (w : TxWork) (s : State) : (State.submit i w s).ptp = s.ptp := by
  unfold State.submit
  repeat' first | (simp; done) | split | dsimp only
@[simp] theorem submit_gard (i : Nat) (w : TxWork) (s : State) : (State.submit i w s).gard = s.gard := by
  unfold State.submit
  repeat' first | (simp; done) | split | dsimp only
@[simp] theorem submit_tmgr (i : Nat) (w : TxWork) (s : State) : (State.submit i w s).tmgr = s.tmgr := by
  unfold State.submit
  repeat' first | (simp; done) | split | dsimp only
@[simp] theorem submit_vat (i : Nat) (w : TxWork) (s : State) : (State.submit i w s).vat = s.vat := by
  unfold State.submit
  repeat' first | (simp; done) | split | dsimp only
@[simp] theorem submit_cell (i : Nat) (w : TxWork) (s : State) : (State.submit i w s).cell = s.cell := by
  unfold State.submit
  repeat' first | (simp; done) | split | dsimp only
@[simp] theorem submit_cmdq (i : Nat) (w : TxWork) (s : State) : (State.submit i w s).cmdq = s.cmdq := by
  unfold State.submit
  repeat' first | (simp; done) | split | dsimp only
@[simp] theorem submit_regn (i : Nat) (w : TxWork) (s : State) : (State.submit i w s).regn = s.regn := by
  unfold State.submit
  repeat' first | (simp; done) | split | dsimp only
@[simp] theorem submit_jrnl (i : Nat) (w : TxWork) (s : State) : (State.submit i w s).jrnl = s.jrnl := by
  unfold State.submit
  repeat' first | (simp; done) | split | dsimp only
@[simp] theorem submit_cmpr (i : Nat) (w : TxWork) (s : State) : (State.submit i w s).cmpr = s.cmpr := by
  unfold State.submit
  repeat' first | (simp; done) | split | dsimp only
@[simp] theorem submit_plce (i : Nat) (w : TxWork) (s : State) : (State.submit i w s).plce = s.plce := by
  unfold State.submit
  repeat' first | (simp; done) | split | dsimp only
@[simp] theorem submit_strp (i : Nat) (w : TxWork) (s : State) : (State.submit i w s).strp = s.strp := by
  unfold State.submit
  repeat' first | (simp; done) | split | dsimp only
@[simp] theorem submit_drvp (i : Nat) (w : TxWork) (s : State) : (State.submit i w s).drvp = s.drvp := by
  unfold State.submit
  repeat' first | (simp; done) | split | dsimp only
@[simp] theorem submit_pair (i : Nat) (w : TxWork) (s : State) : (State.submit i w s).pair = s.pair := by
  unfold State.submit
  repeat' first | (simp; done) | split | dsimp only
@[simp] theorem submit_bayp (i : Nat) (w : TxWork) (s : State) : (State.submit i w s).bayp = s.bayp := by
  unfold State.submit
  repeat' first | (simp; done) | split | dsimp only
@[simp] theorem submit_pol (i : Nat) (w : TxWork) (s : State) : (State.submit i w s).pol = s.pol := by
  unfold State.submit
  repeat' first | (simp; done) | split | dsimp only
@[simp] theorem submit_tap (i : Nat) (w : TxWork) (s : State) : (State.submit i w s).tap = s.tap := by
  unfold State.submit
  repeat' first | (simp; done) | split | dsimp only
@[simp] theorem submit_now (i : Nat) (w : TxWork) (s : State) : (State.submit i w s).now = s.now := by
  unfold State.submit
  repeat' first | (simp; done) | split | dsimp only
@[simp] theorem submit_drawn (i : Nat) (w : TxWork) (s : State) : (State.submit i w s).drawn = s.drawn := by
  unfold State.submit
  repeat' first | (simp; done) | split | dsimp only
@[simp] theorem submit_pending (i : Nat) (w : TxWork) (s : State) : (State.submit i w s).pending = s.pending := by
  unfold State.submit
  repeat' first | (simp; done) | split | dsimp only
@[simp] theorem syncCmdq_line (s : State) : (State.syncCmdq s).line = s.line := by
  unfold State.syncCmdq
  repeat' first | (simp; done) | split | dsimp only
@[simp] theorem syncCmdq_ptp (s : State) : (State.syncCmdq s).ptp = s.ptp := by
  unfold State.syncCmdq
  repeat' first | (simp; done) | split | dsimp only
@[simp] theorem syncCmdq_xprt (s : State) : (State.syncCmdq s).xprt = s.xprt := by
  unfold State.syncCmdq
  repeat' first | (simp; done) | split | dsimp only
@[simp] theorem syncCmdq_gard (s : State) : (State.syncCmdq s).gard = s.gard := by
  unfold State.syncCmdq
  repeat' first | (simp; done) | split | dsimp only
@[simp] theorem syncCmdq_tmgr (s : State) : (State.syncCmdq s).tmgr = s.tmgr := by
  unfold State.syncCmdq
  repeat' first | (simp; done) | split | dsimp only
@[simp] theorem syncCmdq_vat (s : State) : (State.syncCmdq s).vat = s.vat := by
  unfold State.syncCmdq
  repeat' first | (simp; done) | split | dsimp only
@[simp] theorem syncCmdq_cell (s : State) : (State.syncCmdq s).cell = s.cell := by
  unfold State.syncCmdq
  repeat' first | (simp; done) | split | dsimp only
@[simp] theorem syncCmdq_cmdq (s : State) : (State.syncCmdq s).cmdq = s.cmdq := by
  unfold State.syncCmdq
  repeat' first | (simp; done) | split | dsimp only
@[simp] theorem syncCmdq_regn (s : State) : (State.syncCmdq s).regn = s.regn := by
  unfold State.syncCmdq
  repeat' first | (simp; done) | split | dsimp only
@[simp] theorem syncCmdq_jrnl (s : State) : (State.syncCmdq s).jrnl = s.jrnl := by
  unfold State.syncCmdq
  repeat' first | (simp; done) | split | dsimp only
@[simp] theorem syncCmdq_cmpr (s : State) : (State.syncCmdq s).cmpr = s.cmpr := by
  unfold State.syncCmdq
  repeat' first | (simp; done) | split | dsimp only
@[simp] theorem syncCmdq_plce (s : State) : (State.syncCmdq s).plce = s.plce := by
  unfold State.syncCmdq
  repeat' first | (simp; done) | split | dsimp only
@[simp] theorem syncCmdq_strp (s : State) : (State.syncCmdq s).strp = s.strp := by
  unfold State.syncCmdq
  repeat' first | (simp; done) | split | dsimp only
@[simp] theorem syncCmdq_drvp (s : State) : (State.syncCmdq s).drvp = s.drvp := by
  unfold State.syncCmdq
  repeat' first | (simp; done) | split | dsimp only
@[simp] theorem syncCmdq_pair (s : State) : (State.syncCmdq s).pair = s.pair := by
  unfold State.syncCmdq
  repeat' first | (simp; done) | split | dsimp only
@[simp] theorem syncCmdq_bayp (s : State) : (State.syncCmdq s).bayp = s.bayp := by
  unfold State.syncCmdq
  repeat' first | (simp; done) | split | dsimp only
@[simp] theorem syncCmdq_pol (s : State) : (State.syncCmdq s).pol = s.pol := by
  unfold State.syncCmdq
  repeat' first | (simp; done) | split | dsimp only
@[simp] theorem syncCmdq_tap (s : State) : (State.syncCmdq s).tap = s.tap := by
  unfold State.syncCmdq
  repeat' first | (simp; done) | split | dsimp only
@[simp] theorem syncCmdq_now (s : State) : (State.syncCmdq s).now = s.now := by
  unfold State.syncCmdq
  repeat' first | (simp; done) | split | dsimp only
@[simp] theorem syncCmdq_drawn (s : State) : (State.syncCmdq s).drawn = s.drawn := by
  unfold State.syncCmdq
  repeat' first | (simp; done) | split | dsimp only
@[simp] theorem syncCmdq_pending (s : State) : (State.syncCmdq s).pending = s.pending := by
  unfold State.syncCmdq
  repeat' first | (simp; done) | split | dsimp only
@[simp] theorem smartCmd_fab (v : Slot) (s : State) : (State.smartCmd v s).fab = s.fab := by
  unfold State.smartCmd
  repeat' first | (simp; done) | split | dsimp only
@[simp] theorem smartCmd_line (v : Slot) (s : State) : (State.smartCmd v s).line = s.line := by
  unfold State.smartCmd
  repeat' first | (simp; done) | split | dsimp only
@[simp] theorem smartCmd_ptp (v : Slot) (s : State) : (State.smartCmd v s).ptp = s.ptp := by
  unfold State.smartCmd
  repeat' first | (simp; done) | split | dsimp only
@[simp] theorem smartCmd_xprt (v : Slot) (s : State) : (State.smartCmd v s).xprt = s.xprt := by
  unfold State.smartCmd
  repeat' first | (simp; done) | split | dsimp only
@[simp] theorem smartCmd_gard (v : Slot) (s : State) : (State.smartCmd v s).gard = s.gard := by
  unfold State.smartCmd
  repeat' first | (simp; done) | split | dsimp only
@[simp] theorem smartCmd_vat (v : Slot) (s : State) : (State.smartCmd v s).vat = s.vat := by
  unfold State.smartCmd
  repeat' first | (simp; done) | split | dsimp only
@[simp] theorem smartCmd_cell (v : Slot) (s : State) : (State.smartCmd v s).cell = s.cell := by
  unfold State.smartCmd
  repeat' first | (simp; done) | split | dsimp only
@[simp] theorem smartCmd_regn (v : Slot) (s : State) : (State.smartCmd v s).regn = s.regn := by
  unfold State.smartCmd
  repeat' first | (simp; done) | split | dsimp only
@[simp] theorem smartCmd_jrnl (v : Slot) (s : State) : (State.smartCmd v s).jrnl = s.jrnl := by
  unfold State.smartCmd
  repeat' first | (simp; done) | split | dsimp only
@[simp] theorem smartCmd_cmpr (v : Slot) (s : State) : (State.smartCmd v s).cmpr = s.cmpr := by
  unfold State.smartCmd
  repeat' first | (simp; done) | split | dsimp only
@[simp] theorem smartCmd_plce (v : Slot) (s : State) : (State.smartCmd v s).plce = s.plce := by
  unfold State.smartCmd
  repeat' first | (simp; done) | split | dsimp only
@[simp] theorem smartCmd_strp (v : Slot) (s : State) : (State.smartCmd v s).strp = s.strp := by
  unfold State.smartCmd
  repeat' first | (simp; done) | split | dsimp only
@[simp] theorem smartCmd_drvp (v : Slot) (s : State) : (State.smartCmd v s).drvp = s.drvp := by
  unfold State.smartCmd
  repeat' first | (simp; done) | split | dsimp only
@[simp] theorem smartCmd_pair (v : Slot) (s : State) : (State.smartCmd v s).pair = s.pair := by
  unfold State.smartCmd
  repeat' first | (simp; done) | split | dsimp only
@[simp] theorem smartCmd_bayp (v : Slot) (s : State) : (State.smartCmd v s).bayp = s.bayp := by
  unfold State.smartCmd
  repeat' first | (simp; done) | split | dsimp only
@[simp] theorem smartCmd_pol (v : Slot) (s : State) : (State.smartCmd v s).pol = s.pol := by
  unfold State.smartCmd
  repeat' first | (simp; done) | split | dsimp only
@[simp] theorem smartCmd_tap (v : Slot) (s : State) : (State.smartCmd v s).tap = s.tap := by
  unfold State.smartCmd
  repeat' first | (simp; done) | split | dsimp only
@[simp] theorem smartCmd_now (v : Slot) (s : State) : (State.smartCmd v s).now = s.now := by
  unfold State.smartCmd
  repeat' first | (simp; done) | split | dsimp only
@[simp] theorem smartCmd_drawn (v : Slot) (s : State) : (State.smartCmd v s).drawn = s.drawn := by
  unfold State.smartCmd
  repeat' first | (simp; done) | split | dsimp only
@[simp] theorem smartCmd_pending (v : Slot) (s : State) : (State.smartCmd v s).pending = s.pending := by
  unfold State.smartCmd
  repeat' first | (simp; done) | split | dsimp only
@[simp] theorem meterCmd_fab (v : Slot) (s0 : State) : (State.meterCmd v s0).fab = s0.fab := by
  unfold State.meterCmd
  repeat' first | (simp; done) | split | dsimp only
@[simp] theorem meterCmd_line (v : Slot) (s0 : State) : (State.meterCmd v s0).line = s0.line := by
  unfold State.meterCmd
  repeat' first | (simp; done) | split | dsimp only
@[simp] theorem meterCmd_ptp (v : Slot) (s0 : State) : (State.meterCmd v s0).ptp = s0.ptp := by
  unfold State.meterCmd
  repeat' first | (simp; done) | split | dsimp only
@[simp] theorem meterCmd_xprt (v : Slot) (s0 : State) : (State.meterCmd v s0).xprt = s0.xprt := by
  unfold State.meterCmd
  repeat' first | (simp; done) | split | dsimp only
@[simp] theorem meterCmd_gard (v : Slot) (s0 : State) : (State.meterCmd v s0).gard = s0.gard := by
  unfold State.meterCmd
  repeat' first | (simp; done) | split | dsimp only
@[simp] theorem meterCmd_vat (v : Slot) (s0 : State) : (State.meterCmd v s0).vat = s0.vat := by
  unfold State.meterCmd
  repeat' first | (simp; done) | split | dsimp only
@[simp] theorem meterCmd_cell (v : Slot) (s0 : State) : (State.meterCmd v s0).cell = s0.cell := by
  unfold State.meterCmd
  repeat' first | (simp; done) | split | dsimp only
@[simp] theorem meterCmd_regn (v : Slot) (s0 : State) : (State.meterCmd v s0).regn = s0.regn := by
  unfold State.meterCmd
  repeat' first | (simp; done) | split | dsimp only
@[simp] theorem meterCmd_jrnl (v : Slot) (s0 : State) : (State.meterCmd v s0).jrnl = s0.jrnl := by
  unfold State.meterCmd
  repeat' first | (simp; done) | split | dsimp only
@[simp] theorem meterCmd_cmpr (v : Slot) (s0 : State) : (State.meterCmd v s0).cmpr = s0.cmpr := by
  unfold State.meterCmd
  repeat' first | (simp; done) | split | dsimp only
@[simp] theorem meterCmd_plce (v : Slot) (s0 : State) : (State.meterCmd v s0).plce = s0.plce := by
  unfold State.meterCmd
  repeat' first | (simp; done) | split | dsimp only
@[simp] theorem meterCmd_strp (v : Slot) (s0 : State) : (State.meterCmd v s0).strp = s0.strp := by
  unfold State.meterCmd
  repeat' first | (simp; done) | split | dsimp only
@[simp] theorem meterCmd_drvp (v : Slot) (s0 : State) : (State.meterCmd v s0).drvp = s0.drvp := by
  unfold State.meterCmd
  repeat' first | (simp; done) | split | dsimp only
@[simp] theorem meterCmd_pair (v : Slot) (s0 : State) : (State.meterCmd v s0).pair = s0.pair := by
  unfold State.meterCmd
  repeat' first | (simp; done) | split | dsimp only
@[simp] theorem meterCmd_bayp (v : Slot) (s0 : State) : (State.meterCmd v s0).bayp = s0.bayp := by
  unfold State.meterCmd
  repeat' first | (simp; done) | split | dsimp only
@[simp] theorem meterCmd_pol (v : Slot) (s0 : State) : (State.meterCmd v s0).pol = s0.pol := by
  unfold State.meterCmd
  repeat' first | (simp; done) | split | dsimp only
@[simp] theorem meterCmd_tap (v : Slot) (s0 : State) : (State.meterCmd v s0).tap = s0.tap := by
  unfold State.meterCmd
  repeat' first | (simp; done) | split | dsimp only
@[simp] theorem meterCmd_now (v : Slot) (s0 : State) : (State.meterCmd v s0).now = s0.now := by
  unfold State.meterCmd
  repeat' first | (simp; done) | split | dsimp only
@[simp] theorem meterCmd_drawn (v : Slot) (s0 : State) : (State.meterCmd v s0).drawn = s0.drawn := by
  unfold State.meterCmd
  repeat' first | (simp; done) | split | dsimp only
@[simp] theorem meterCmd_pending (v : Slot) (s0 : State) : (State.meterCmd v s0).pending = s0.pending := by
  unfold State.meterCmd
  repeat' first | (simp; done) | split | dsimp only
@[simp] theorem submitData_fab (n : Nat) (v : Slot) (s : State) : (State.submitData n v s).fab = s.fab := by
  unfold State.submitData
  repeat' first | (simp; done) | split | dsimp only
@[simp] theorem submitData_line (n : Nat) (v : Slot) (s : State) : (State.submitData n v s).line = s.line := by
  unfold State.submitData
  repeat' first | (simp; done) | split | dsimp only
@[simp] theorem submitData_ptp (n : Nat) (v : Slot) (s : State) : (State.submitData n v s).ptp = s.ptp := by
  unfold State.submitData
  repeat' first | (simp; done) | split | dsimp only
@[simp] theorem submitData_gard (n : Nat) (v : Slot) (s : State) : (State.submitData n v s).gard = s.gard := by
  unfold State.submitData
  repeat' first | (simp; done) | split | dsimp only
@[simp] theorem submitData_tmgr (n : Nat) (v : Slot) (s : State) : (State.submitData n v s).tmgr = s.tmgr := by
  unfold State.submitData
  repeat' first | (simp; done) | split | dsimp only
@[simp] theorem submitData_vat (n : Nat) (v : Slot) (s : State) : (State.submitData n v s).vat = s.vat := by
  unfold State.submitData
  repeat' first | (simp; done) | split | dsimp only
@[simp] theorem submitData_cell (n : Nat) (v : Slot) (s : State) : (State.submitData n v s).cell = s.cell := by
  unfold State.submitData
  repeat' first | (simp; done) | split | dsimp only
@[simp] theorem submitData_cmdq (n : Nat) (v : Slot) (s : State) : (State.submitData n v s).cmdq = s.cmdq := by
  unfold State.submitData
  repeat' first | (simp; done) | split | dsimp only
@[simp] theorem submitData_regn (n : Nat) (v : Slot) (s : State) : (State.submitData n v s).regn = s.regn := by
  unfold State.submitData
  repeat' first | (simp; done) | split | dsimp only
@[simp] theorem submitData_jrnl (n : Nat) (v : Slot) (s : State) : (State.submitData n v s).jrnl = s.jrnl := by
  unfold State.submitData
  repeat' first | (simp; done) | split | dsimp only
@[simp] theorem submitData_cmpr (n : Nat) (v : Slot) (s : State) : (State.submitData n v s).cmpr = s.cmpr := by
  unfold State.submitData
  repeat' first | (simp; done) | split | dsimp only
@[simp] theorem submitData_plce (n : Nat) (v : Slot) (s : State) : (State.submitData n v s).plce = s.plce := by
  unfold State.submitData
  repeat' first | (simp; done) | split | dsimp only
@[simp] theorem submitData_strp (n : Nat) (v : Slot) (s : State) : (State.submitData n v s).strp = s.strp := by
  unfold State.submitData
  repeat' first | (simp; done) | split | dsimp only
@[simp] theorem submitData_drvp (n : Nat) (v : Slot) (s : State) : (State.submitData n v s).drvp = s.drvp := by
  unfold State.submitData
  repeat' first | (simp; done) | split | dsimp only
@[simp] theorem submitData_pair (n : Nat) (v : Slot) (s : State) : (State.submitData n v s).pair = s.pair := by
  unfold State.submitData
  repeat' first | (simp; done) | split | dsimp only
@[simp] theorem submitData_bayp (n : Nat) (v : Slot) (s : State) : (State.submitData n v s).bayp = s.bayp := by
  unfold State.submitData
  repeat' first | (simp; done) | split | dsimp only
@[simp] theorem submitData_pol (n : Nat) (v : Slot) (s : State) : (State.submitData n v s).pol = s.pol := by
  unfold State.submitData
  repeat' first | (simp; done) | split | dsimp only
@[simp] theorem submitData_tap (n : Nat) (v : Slot) (s : State) : (State.submitData n v s).tap = s.tap := by
  unfold State.submitData
  repeat' first | (simp; done) | split | dsimp only
@[simp] theorem submitData_now (n : Nat) (v : Slot) (s : State) : (State.submitData n v s).now = s.now := by
  unfold State.submitData
  repeat' first | (simp; done) | split | dsimp only
@[simp] theorem submitData_drawn (n : Nat) (v : Slot) (s : State) : (State.submitData n v s).drawn = s.drawn := by
  unfold State.submitData
  repeat' first | (simp; done) | split | dsimp only
@[simp] theorem submitData_pending (n : Nat) (v : Slot) (s : State) : (State.submitData n v s).pending = s.pending := by
  unfold State.submitData
  repeat' first | (simp; done) | split | dsimp only
@[simp] theorem dropQueue_jrnl (i : Nat) (s : State) : (State.dropQueue i s).jrnl = s.jrnl := by
  unfold State.dropQueue
  repeat' first | (simp; done) | split | dsimp only
@[simp] theorem dropQueue_strp (i : Nat) (s : State) : (State.dropQueue i s).strp = s.strp := by
  unfold State.dropQueue
  repeat' first | (simp; done) | split | dsimp only
@[simp] theorem dropQueue_drvp (i : Nat) (s : State) : (State.dropQueue i s).drvp = s.drvp := by
  unfold State.dropQueue
  repeat' first | (simp; done) | split | dsimp only
@[simp] theorem setConnState_fab (i : Nat) (st : ConnState) (s : State) : (State.setConnState i st s).fab = s.fab := by
  unfold State.setConnState
  repeat' first | (simp; done) | split | dsimp only
@[simp] theorem setConnState_line (i : Nat) (st : ConnState) (s : State) : (State.setConnState i st s).line = s.line := by
  unfold State.setConnState
  repeat' first | (simp; done) | split | dsimp only
@[simp] theorem setConnState_ptp (i : Nat) (st : ConnState) (s : State) : (State.setConnState i st s).ptp = s.ptp := by
  unfold State.setConnState
  repeat' first | (simp; done) | split | dsimp only
@[simp] theorem setConnState_gard (i : Nat) (st : ConnState) (s : State) : (State.setConnState i st s).gard = s.gard := by
  unfold State.setConnState
  repeat' first | (simp; done) | split | dsimp only
@[simp] theorem setConnState_tmgr (i : Nat) (st : ConnState) (s : State) : (State.setConnState i st s).tmgr = s.tmgr := by
  unfold State.setConnState
  repeat' first | (simp; done) | split | dsimp only
@[simp] theorem setConnState_vat (i : Nat) (st : ConnState) (s : State) : (State.setConnState i st s).vat = s.vat := by
  unfold State.setConnState
  repeat' first | (simp; done) | split | dsimp only
@[simp] theorem setConnState_cell (i : Nat) (st : ConnState) (s : State) : (State.setConnState i st s).cell = s.cell := by
  unfold State.setConnState
  repeat' first | (simp; done) | split | dsimp only
@[simp] theorem setConnState_cmdq (i : Nat) (st : ConnState) (s : State) : (State.setConnState i st s).cmdq = s.cmdq := by
  unfold State.setConnState
  repeat' first | (simp; done) | split | dsimp only
@[simp] theorem setConnState_regn (i : Nat) (st : ConnState) (s : State) : (State.setConnState i st s).regn = s.regn := by
  unfold State.setConnState
  repeat' first | (simp; done) | split | dsimp only
@[simp] theorem setConnState_jrnl (i : Nat) (st : ConnState) (s : State) : (State.setConnState i st s).jrnl = s.jrnl := by
  unfold State.setConnState
  repeat' first | (simp; done) | split | dsimp only
@[simp] theorem setConnState_cmpr (i : Nat) (st : ConnState) (s : State) : (State.setConnState i st s).cmpr = s.cmpr := by
  unfold State.setConnState
  repeat' first | (simp; done) | split | dsimp only
@[simp] theorem setConnState_plce (i : Nat) (st : ConnState) (s : State) : (State.setConnState i st s).plce = s.plce := by
  unfold State.setConnState
  repeat' first | (simp; done) | split | dsimp only
@[simp] theorem setConnState_strp (i : Nat) (st : ConnState) (s : State) : (State.setConnState i st s).strp = s.strp := by
  unfold State.setConnState
  repeat' first | (simp; done) | split | dsimp only
@[simp] theorem setConnState_drvp (i : Nat) (st : ConnState) (s : State) : (State.setConnState i st s).drvp = s.drvp := by
  unfold State.setConnState
  repeat' first | (simp; done) | split | dsimp only
@[simp] theorem setConnState_pair (i : Nat) (st : ConnState) (s : State) : (State.setConnState i st s).pair = s.pair := by
  unfold State.setConnState
  repeat' first | (simp; done) | split | dsimp only
@[simp] theorem setConnState_bayp (i : Nat) (st : ConnState) (s : State) : (State.setConnState i st s).bayp = s.bayp := by
  unfold State.setConnState
  repeat' first | (simp; done) | split | dsimp only
@[simp] theorem setConnState_pol (i : Nat) (st : ConnState) (s : State) : (State.setConnState i st s).pol = s.pol := by
  unfold State.setConnState
  repeat' first | (simp; done) | split | dsimp only
@[simp] theorem setConnState_tap (i : Nat) (st : ConnState) (s : State) : (State.setConnState i st s).tap = s.tap := by
  unfold State.setConnState
  repeat' first | (simp; done) | split | dsimp only
@[simp] theorem setConnState_now (i : Nat) (st : ConnState) (s : State) : (State.setConnState i st s).now = s.now := by
  unfold State.setConnState
  repeat' first | (simp; done) | split | dsimp only
@[simp] theorem setConnState_drawn (i : Nat) (st : ConnState) (s : State) : (State.setConnState i st s).drawn = s.drawn := by
  unfold State.setConnState
  repeat' first | (simp; done) | split | dsimp only
@[simp] theorem setConnState_pending (i : Nat) (st : ConnState) (s : State) : (State.setConnState i st s).pending = s.pending := by
  unfold State.setConnState
  repeat' first | (simp; done) | split | dsimp only
@[simp] theorem endKey_cell (k : Option Nat) (s : State) : (State.endKey k s).cell = s.cell := by
  unfold State.endKey
  repeat' first | (simp; done) | split | dsimp only
@[simp] theorem endKey_cmdq (k : Option Nat) (s : State) : (State.endKey k s).cmdq = s.cmdq := by
  unfold State.endKey
  repeat' first | (simp; done) | split | dsimp only
@[simp] theorem endKey_regn (k : Option Nat) (s : State) : (State.endKey k s).regn = s.regn := by
  unfold State.endKey
  repeat' first | (simp; done) | split | dsimp only
@[simp] theorem endKey_jrnl (k : Option Nat) (s : State) : (State.endKey k s).jrnl = s.jrnl := by
  unfold State.endKey
  repeat' first | (simp; done) | split | dsimp only
@[simp] theorem endKey_cmpr (k : Option Nat) (s : State) : (State.endKey k s).cmpr = s.cmpr := by
  unfold State.endKey
  repeat' first | (simp; done) | split | dsimp only
@[simp] theorem endKey_plce (k : Option Nat) (s : State) : (State.endKey k s).plce = s.plce := by
  unfold State.endKey
  repeat' first | (simp; done) | split | dsimp only
@[simp] theorem endKey_strp (k : Option Nat) (s : State) : (State.endKey k s).strp = s.strp := by
  unfold State.endKey
  repeat' first | (simp; done) | split | dsimp only
@[simp] theorem endKey_drvp (k : Option Nat) (s : State) : (State.endKey k s).drvp = s.drvp := by
  unfold State.endKey
  repeat' first | (simp; done) | split | dsimp only
@[simp] theorem endKey_pair (k : Option Nat) (s : State) : (State.endKey k s).pair = s.pair := by
  unfold State.endKey
  repeat' first | (simp; done) | split | dsimp only
@[simp] theorem endKey_bayp (k : Option Nat) (s : State) : (State.endKey k s).bayp = s.bayp := by
  unfold State.endKey
  repeat' first | (simp; done) | split | dsimp only
@[simp] theorem endKey_pol (k : Option Nat) (s : State) : (State.endKey k s).pol = s.pol := by
  unfold State.endKey
  repeat' first | (simp; done) | split | dsimp only
@[simp] theorem endKey_now (k : Option Nat) (s : State) : (State.endKey k s).now = s.now := by
  unfold State.endKey
  repeat' first | (simp; done) | split | dsimp only
@[simp] theorem endKey_pending (k : Option Nat) (s : State) : (State.endKey k s).pending = s.pending := by
  unfold State.endKey
  repeat' first | (simp; done) | split | dsimp only
@[simp] theorem enqueueEgr_cell (i : Nat) (p : OutPkt) (s : State) : (State.enqueueEgr i p s).cell = s.cell := by
  unfold State.enqueueEgr
  repeat' first | (simp; done) | split | dsimp only
@[simp] theorem enqueueEgr_cmdq (i : Nat) (p : OutPkt) (s : State) : (State.enqueueEgr i p s).cmdq = s.cmdq := by
  unfold State.enqueueEgr
  repeat' first | (simp; done) | split | dsimp only
@[simp] theorem enqueueEgr_regn (i : Nat) (p : OutPkt) (s : State) : (State.enqueueEgr i p s).regn = s.regn := by
  unfold State.enqueueEgr
  repeat' first | (simp; done) | split | dsimp only
@[simp] theorem enqueueEgr_jrnl (i : Nat) (p : OutPkt) (s : State) : (State.enqueueEgr i p s).jrnl = s.jrnl := by
  unfold State.enqueueEgr
  repeat' first | (simp; done) | split | dsimp only
@[simp] theorem enqueueEgr_cmpr (i : Nat) (p : OutPkt) (s : State) : (State.enqueueEgr i p s).cmpr = s.cmpr := by
  unfold State.enqueueEgr
  repeat' first | (simp; done) | split | dsimp only
@[simp] theorem enqueueEgr_plce (i : Nat) (p : OutPkt) (s : State) : (State.enqueueEgr i p s).plce = s.plce := by
  unfold State.enqueueEgr
  repeat' first | (simp; done) | split | dsimp only
@[simp] theorem enqueueEgr_strp (i : Nat) (p : OutPkt) (s : State) : (State.enqueueEgr i p s).strp = s.strp := by
  unfold State.enqueueEgr
  repeat' first | (simp; done) | split | dsimp only
@[simp] theorem enqueueEgr_drvp (i : Nat) (p : OutPkt) (s : State) : (State.enqueueEgr i p s).drvp = s.drvp := by
  unfold State.enqueueEgr
  repeat' first | (simp; done) | split | dsimp only
@[simp] theorem enqueueEgr_pair (i : Nat) (p : OutPkt) (s : State) : (State.enqueueEgr i p s).pair = s.pair := by
  unfold State.enqueueEgr
  repeat' first | (simp; done) | split | dsimp only
@[simp] theorem enqueueEgr_bayp (i : Nat) (p : OutPkt) (s : State) : (State.enqueueEgr i p s).bayp = s.bayp := by
  unfold State.enqueueEgr
  repeat' first | (simp; done) | split | dsimp only
@[simp] theorem enqueueEgr_pol (i : Nat) (p : OutPkt) (s : State) : (State.enqueueEgr i p s).pol = s.pol := by
  unfold State.enqueueEgr
  repeat' first | (simp; done) | split | dsimp only
@[simp] theorem enqueueEgr_now (i : Nat) (p : OutPkt) (s : State) : (State.enqueueEgr i p s).now = s.now := by
  unfold State.enqueueEgr
  repeat' first | (simp; done) | split | dsimp only
@[simp] theorem enqueueEgr_pending (i : Nat) (p : OutPkt) (s : State) : (State.enqueueEgr i p s).pending = s.pending := by
  unfold State.enqueueEgr
  repeat' first | (simp; done) | split | dsimp only
@[simp] theorem resendOne_cell (i : Nat) (s : State) (p : OutPkt) : (State.resendOne i s p).cell = s.cell := by
  unfold State.resendOne
  repeat' first | (simp; done) | split | dsimp only
@[simp] theorem resendOne_cmdq (i : Nat) (s : State) (p : OutPkt) : (State.resendOne i s p).cmdq = s.cmdq := by
  unfold State.resendOne
  repeat' first | (simp; done) | split | dsimp only
@[simp] theorem resendOne_regn (i : Nat) (s : State) (p : OutPkt) : (State.resendOne i s p).regn = s.regn := by
  unfold State.resendOne
  repeat' first | (simp; done) | split | dsimp only
@[simp] theorem resendOne_jrnl (i : Nat) (s : State) (p : OutPkt) : (State.resendOne i s p).jrnl = s.jrnl := by
  unfold State.resendOne
  repeat' first | (simp; done) | split | dsimp only
@[simp] theorem resendOne_cmpr (i : Nat) (s : State) (p : OutPkt) : (State.resendOne i s p).cmpr = s.cmpr := by
  unfold State.resendOne
  repeat' first | (simp; done) | split | dsimp only
@[simp] theorem resendOne_plce (i : Nat) (s : State) (p : OutPkt) : (State.resendOne i s p).plce = s.plce := by
  unfold State.resendOne
  repeat' first | (simp; done) | split | dsimp only
@[simp] theorem resendOne_strp (i : Nat) (s : State) (p : OutPkt) : (State.resendOne i s p).strp = s.strp := by
  unfold State.resendOne
  repeat' first | (simp; done) | split | dsimp only
@[simp] theorem resendOne_drvp (i : Nat) (s : State) (p : OutPkt) : (State.resendOne i s p).drvp = s.drvp := by
  unfold State.resendOne
  repeat' first | (simp; done) | split | dsimp only
@[simp] theorem resendOne_pair (i : Nat) (s : State) (p : OutPkt) : (State.resendOne i s p).pair = s.pair := by
  unfold State.resendOne
  repeat' first | (simp; done) | split | dsimp only
@[simp] theorem resendOne_bayp (i : Nat) (s : State) (p : OutPkt) : (State.resendOne i s p).bayp = s.bayp := by
  unfold State.resendOne
  repeat' first | (simp; done) | split | dsimp only
@[simp] theorem resendOne_pol (i : Nat) (s : State) (p : OutPkt) : (State.resendOne i s p).pol = s.pol := by
  unfold State.resendOne
  repeat' first | (simp; done) | split | dsimp only
@[simp] theorem resendOne_now (i : Nat) (s : State) (p : OutPkt) : (State.resendOne i s p).now = s.now := by
  unfold State.resendOne
  repeat' first | (simp; done) | split | dsimp only
@[simp] theorem resendOne_pending (i : Nat) (s : State) (p : OutPkt) : (State.resendOne i s p).pending = s.pending := by
  unfold State.resendOne
  repeat' first | (simp; done) | split | dsimp only
@[simp] theorem resendFrom_cell (i psn : Nat) (s : State) : (State.resendFrom i psn s).cell = s.cell := by
  unfold State.resendFrom
  repeat' first | (simp; done) | split | dsimp only
@[simp] theorem resendFrom_cmdq (i psn : Nat) (s : State) : (State.resendFrom i psn s).cmdq = s.cmdq := by
  unfold State.resendFrom
  repeat' first | (simp; done) | split | dsimp only
@[simp] theorem resendFrom_regn (i psn : Nat) (s : State) : (State.resendFrom i psn s).regn = s.regn := by
  unfold State.resendFrom
  repeat' first | (simp; done) | split | dsimp only
@[simp] theorem resendFrom_jrnl (i psn : Nat) (s : State) : (State.resendFrom i psn s).jrnl = s.jrnl := by
  unfold State.resendFrom
  repeat' first | (simp; done) | split | dsimp only
@[simp] theorem resendFrom_cmpr (i psn : Nat) (s : State) : (State.resendFrom i psn s).cmpr = s.cmpr := by
  unfold State.resendFrom
  repeat' first | (simp; done) | split | dsimp only
@[simp] theorem resendFrom_plce (i psn : Nat) (s : State) : (State.resendFrom i psn s).plce = s.plce := by
  unfold State.resendFrom
  repeat' first | (simp; done) | split | dsimp only
@[simp] theorem resendFrom_strp (i psn : Nat) (s : State) : (State.resendFrom i psn s).strp = s.strp := by
  unfold State.resendFrom
  repeat' first | (simp; done) | split | dsimp only
@[simp] theorem resendFrom_drvp (i psn : Nat) (s : State) : (State.resendFrom i psn s).drvp = s.drvp := by
  unfold State.resendFrom
  repeat' first | (simp; done) | split | dsimp only
@[simp] theorem resendFrom_pair (i psn : Nat) (s : State) : (State.resendFrom i psn s).pair = s.pair := by
  unfold State.resendFrom
  repeat' first | (simp; done) | split | dsimp only
@[simp] theorem resendFrom_bayp (i psn : Nat) (s : State) : (State.resendFrom i psn s).bayp = s.bayp := by
  unfold State.resendFrom
  repeat' first | (simp; done) | split | dsimp only
@[simp] theorem resendFrom_pol (i psn : Nat) (s : State) : (State.resendFrom i psn s).pol = s.pol := by
  unfold State.resendFrom
  repeat' first | (simp; done) | split | dsimp only
@[simp] theorem resendFrom_now (i psn : Nat) (s : State) : (State.resendFrom i psn s).now = s.now := by
  unfold State.resendFrom
  repeat' first | (simp; done) | split | dsimp only
@[simp] theorem resendFrom_pending (i psn : Nat) (s : State) : (State.resendFrom i psn s).pending = s.pending := by
  unfold State.resendFrom
  repeat' first | (simp; done) | split | dsimp only
@[simp] theorem release_gard (i upto : Nat) (s : State) : (State.release i upto s).gard = s.gard := by
  unfold State.release
  repeat' first | (simp; done) | split | dsimp only
@[simp] theorem release_tmgr (i upto : Nat) (s : State) : (State.release i upto s).tmgr = s.tmgr := by
  unfold State.release
  repeat' first | (simp; done) | split | dsimp only
@[simp] theorem release_cmdq (i upto : Nat) (s : State) : (State.release i upto s).cmdq = s.cmdq := by
  unfold State.release
  repeat' first | (simp; done) | split | dsimp only
@[simp] theorem release_regn (i upto : Nat) (s : State) : (State.release i upto s).regn = s.regn := by
  unfold State.release
  repeat' first | (simp; done) | split | dsimp only
@[simp] theorem release_jrnl (i upto : Nat) (s : State) : (State.release i upto s).jrnl = s.jrnl := by
  unfold State.release
  repeat' first | (simp; done) | split | dsimp only
@[simp] theorem release_cmpr (i upto : Nat) (s : State) : (State.release i upto s).cmpr = s.cmpr := by
  unfold State.release
  repeat' first | (simp; done) | split | dsimp only
@[simp] theorem release_plce (i upto : Nat) (s : State) : (State.release i upto s).plce = s.plce := by
  unfold State.release
  repeat' first | (simp; done) | split | dsimp only
@[simp] theorem release_strp (i upto : Nat) (s : State) : (State.release i upto s).strp = s.strp := by
  unfold State.release
  repeat' first | (simp; done) | split | dsimp only
@[simp] theorem release_drvp (i upto : Nat) (s : State) : (State.release i upto s).drvp = s.drvp := by
  unfold State.release
  repeat' first | (simp; done) | split | dsimp only
@[simp] theorem release_pair (i upto : Nat) (s : State) : (State.release i upto s).pair = s.pair := by
  unfold State.release
  repeat' first | (simp; done) | split | dsimp only
@[simp] theorem release_bayp (i upto : Nat) (s : State) : (State.release i upto s).bayp = s.bayp := by
  unfold State.release
  repeat' first | (simp; done) | split | dsimp only
@[simp] theorem release_pol (i upto : Nat) (s : State) : (State.release i upto s).pol = s.pol := by
  unfold State.release
  repeat' first | (simp; done) | split | dsimp only
@[simp] theorem release_now (i upto : Nat) (s : State) : (State.release i upto s).now = s.now := by
  unfold State.release
  repeat' first | (simp; done) | split | dsimp only
@[simp] theorem release_pending (i upto : Nat) (s : State) : (State.release i upto s).pending = s.pending := by
  unfold State.release
  repeat' first | (simp; done) | split | dsimp only
@[simp] theorem advanceUna_fab (i upto : Nat) (s : State) : (State.advanceUna i upto s).fab = s.fab := by
  unfold State.advanceUna
  repeat' first | (simp; done) | split | dsimp only
@[simp] theorem advanceUna_gard (i upto : Nat) (s : State) : (State.advanceUna i upto s).gard = s.gard := by
  unfold State.advanceUna
  repeat' first | (simp; done) | split | dsimp only
@[simp] theorem advanceUna_tmgr (i upto : Nat) (s : State) : (State.advanceUna i upto s).tmgr = s.tmgr := by
  unfold State.advanceUna
  repeat' first | (simp; done) | split | dsimp only
@[simp] theorem advanceUna_cell (i upto : Nat) (s : State) : (State.advanceUna i upto s).cell = s.cell := by
  unfold State.advanceUna
  repeat' first | (simp; done) | split | dsimp only
@[simp] theorem advanceUna_cmdq (i upto : Nat) (s : State) : (State.advanceUna i upto s).cmdq = s.cmdq := by
  unfold State.advanceUna
  repeat' first | (simp; done) | split | dsimp only
@[simp] theorem advanceUna_regn (i upto : Nat) (s : State) : (State.advanceUna i upto s).regn = s.regn := by
  unfold State.advanceUna
  repeat' first | (simp; done) | split | dsimp only
@[simp] theorem advanceUna_jrnl (i upto : Nat) (s : State) : (State.advanceUna i upto s).jrnl = s.jrnl := by
  unfold State.advanceUna
  repeat' first | (simp; done) | split | dsimp only
@[simp] theorem advanceUna_cmpr (i upto : Nat) (s : State) : (State.advanceUna i upto s).cmpr = s.cmpr := by
  unfold State.advanceUna
  repeat' first | (simp; done) | split | dsimp only
@[simp] theorem advanceUna_plce (i upto : Nat) (s : State) : (State.advanceUna i upto s).plce = s.plce := by
  unfold State.advanceUna
  repeat' first | (simp; done) | split | dsimp only
@[simp] theorem advanceUna_strp (i upto : Nat) (s : State) : (State.advanceUna i upto s).strp = s.strp := by
  unfold State.advanceUna
  repeat' first | (simp; done) | split | dsimp only
@[simp] theorem advanceUna_drvp (i upto : Nat) (s : State) : (State.advanceUna i upto s).drvp = s.drvp := by
  unfold State.advanceUna
  repeat' first | (simp; done) | split | dsimp only
@[simp] theorem advanceUna_pair (i upto : Nat) (s : State) : (State.advanceUna i upto s).pair = s.pair := by
  unfold State.advanceUna
  repeat' first | (simp; done) | split | dsimp only
@[simp] theorem advanceUna_bayp (i upto : Nat) (s : State) : (State.advanceUna i upto s).bayp = s.bayp := by
  unfold State.advanceUna
  repeat' first | (simp; done) | split | dsimp only
@[simp] theorem advanceUna_pol (i upto : Nat) (s : State) : (State.advanceUna i upto s).pol = s.pol := by
  unfold State.advanceUna
  repeat' first | (simp; done) | split | dsimp only
@[simp] theorem advanceUna_now (i upto : Nat) (s : State) : (State.advanceUna i upto s).now = s.now := by
  unfold State.advanceUna
  repeat' first | (simp; done) | split | dsimp only
@[simp] theorem advanceUna_pending (i upto : Nat) (s : State) : (State.advanceUna i upto s).pending = s.pending := by
  unfold State.advanceUna
  repeat' first | (simp; done) | split | dsimp only
@[simp] theorem clipRates_line (port rate : Nat) (s : State) : (State.clipRates port rate s).line = s.line := by
  unfold State.clipRates
  repeat' first | (simp; done) | split | dsimp only
@[simp] theorem clipRates_cmdq (port rate : Nat) (s : State) : (State.clipRates port rate s).cmdq = s.cmdq := by
  unfold State.clipRates
  repeat' first | (simp; done) | split | dsimp only
@[simp] theorem clipRates_regn (port rate : Nat) (s : State) : (State.clipRates port rate s).regn = s.regn := by
  unfold State.clipRates
  repeat' first | (simp; done) | split | dsimp only
@[simp] theorem clipRates_jrnl (port rate : Nat) (s : State) : (State.clipRates port rate s).jrnl = s.jrnl := by
  unfold State.clipRates
  repeat' first | (simp; done) | split | dsimp only
@[simp] theorem clipRates_cmpr (port rate : Nat) (s : State) : (State.clipRates port rate s).cmpr = s.cmpr := by
  unfold State.clipRates
  repeat' first | (simp; done) | split | dsimp only
@[simp] theorem clipRates_plce (port rate : Nat) (s : State) : (State.clipRates port rate s).plce = s.plce := by
  unfold State.clipRates
  repeat' first | (simp; done) | split | dsimp only
@[simp] theorem clipRates_strp (port rate : Nat) (s : State) : (State.clipRates port rate s).strp = s.strp := by
  unfold State.clipRates
  repeat' first | (simp; done) | split | dsimp only
@[simp] theorem clipRates_drvp (port rate : Nat) (s : State) : (State.clipRates port rate s).drvp = s.drvp := by
  unfold State.clipRates
  repeat' first | (simp; done) | split | dsimp only
@[simp] theorem clipRates_pair (port rate : Nat) (s : State) : (State.clipRates port rate s).pair = s.pair := by
  unfold State.clipRates
  repeat' first | (simp; done) | split | dsimp only
@[simp] theorem clipRates_bayp (port rate : Nat) (s : State) : (State.clipRates port rate s).bayp = s.bayp := by
  unfold State.clipRates
  repeat' first | (simp; done) | split | dsimp only
@[simp] theorem clipRates_pol (port rate : Nat) (s : State) : (State.clipRates port rate s).pol = s.pol := by
  unfold State.clipRates
  repeat' first | (simp; done) | split | dsimp only
@[simp] theorem clipRates_now (port rate : Nat) (s : State) : (State.clipRates port rate s).now = s.now := by
  unfold State.clipRates
  repeat' first | (simp; done) | split | dsimp only
@[simp] theorem clipRates_pending (port rate : Nat) (s : State) : (State.clipRates port rate s).pending = s.pending := by
  unfold State.clipRates
  repeat' first | (simp; done) | split | dsimp only
@[simp] theorem syncAround_line (g : Nat) (s : State) : (State.syncAround g s).line = s.line := by
  unfold State.syncAround
  repeat' first | (simp; done) | split | dsimp only
@[simp] theorem syncAround_xprt (g : Nat) (s : State) : (State.syncAround g s).xprt = s.xprt := by
  unfold State.syncAround
  repeat' first | (simp; done) | split | dsimp only
@[simp] theorem syncAround_gard (g : Nat) (s : State) : (State.syncAround g s).gard = s.gard := by
  unfold State.syncAround
  repeat' first | (simp; done) | split | dsimp only
@[simp] theorem syncAround_vat (g : Nat) (s : State) : (State.syncAround g s).vat = s.vat := by
  unfold State.syncAround
  repeat' first | (simp; done) | split | dsimp only
@[simp] theorem syncAround_cell (g : Nat) (s : State) : (State.syncAround g s).cell = s.cell := by
  unfold State.syncAround
  repeat' first | (simp; done) | split | dsimp only
@[simp] theorem syncAround_cmdq (g : Nat) (s : State) : (State.syncAround g s).cmdq = s.cmdq := by
  unfold State.syncAround
  repeat' first | (simp; done) | split | dsimp only
@[simp] theorem syncAround_regn (g : Nat) (s : State) : (State.syncAround g s).regn = s.regn := by
  unfold State.syncAround
  repeat' first | (simp; done) | split | dsimp only
@[simp] theorem syncAround_jrnl (g : Nat) (s : State) : (State.syncAround g s).jrnl = s.jrnl := by
  unfold State.syncAround
  repeat' first | (simp; done) | split | dsimp only
@[simp] theorem syncAround_cmpr (g : Nat) (s : State) : (State.syncAround g s).cmpr = s.cmpr := by
  unfold State.syncAround
  repeat' first | (simp; done) | split | dsimp only
@[simp] theorem syncAround_plce (g : Nat) (s : State) : (State.syncAround g s).plce = s.plce := by
  unfold State.syncAround
  repeat' first | (simp; done) | split | dsimp only
@[simp] theorem syncAround_strp (g : Nat) (s : State) : (State.syncAround g s).strp = s.strp := by
  unfold State.syncAround
  repeat' first | (simp; done) | split | dsimp only
@[simp] theorem syncAround_drvp (g : Nat) (s : State) : (State.syncAround g s).drvp = s.drvp := by
  unfold State.syncAround
  repeat' first | (simp; done) | split | dsimp only
@[simp] theorem syncAround_pair (g : Nat) (s : State) : (State.syncAround g s).pair = s.pair := by
  unfold State.syncAround
  repeat' first | (simp; done) | split | dsimp only
@[simp] theorem syncAround_bayp (g : Nat) (s : State) : (State.syncAround g s).bayp = s.bayp := by
  unfold State.syncAround
  repeat' first | (simp; done) | split | dsimp only
@[simp] theorem syncAround_pol (g : Nat) (s : State) : (State.syncAround g s).pol = s.pol := by
  unfold State.syncAround
  repeat' first | (simp; done) | split | dsimp only
@[simp] theorem syncAround_now (g : Nat) (s : State) : (State.syncAround g s).now = s.now := by
  unfold State.syncAround
  repeat' first | (simp; done) | split | dsimp only
@[simp] theorem syncAround_pending (g : Nat) (s : State) : (State.syncAround g s).pending = s.pending := by
  unfold State.syncAround
  repeat' first | (simp; done) | split | dsimp only
@[simp] theorem dropHeldOn_xprt (p : Nat) (s : State) : (State.dropHeldOn p s).xprt = s.xprt := by
  unfold State.dropHeldOn
  repeat' first | (simp; done) | split | dsimp only
@[simp] theorem dropHeldOn_gard (p : Nat) (s : State) : (State.dropHeldOn p s).gard = s.gard := by
  unfold State.dropHeldOn
  repeat' first | (simp; done) | split | dsimp only
@[simp] theorem dropHeldOn_vat (p : Nat) (s : State) : (State.dropHeldOn p s).vat = s.vat := by
  unfold State.dropHeldOn
  repeat' first | (simp; done) | split | dsimp only
@[simp] theorem dropHeldOn_cell (p : Nat) (s : State) : (State.dropHeldOn p s).cell = s.cell := by
  unfold State.dropHeldOn
  repeat' first | (simp; done) | split | dsimp only
@[simp] theorem dropHeldOn_cmdq (p : Nat) (s : State) : (State.dropHeldOn p s).cmdq = s.cmdq := by
  unfold State.dropHeldOn
  repeat' first | (simp; done) | split | dsimp only
@[simp] theorem dropHeldOn_regn (p : Nat) (s : State) : (State.dropHeldOn p s).regn = s.regn := by
  unfold State.dropHeldOn
  repeat' first | (simp; done) | split | dsimp only
@[simp] theorem dropHeldOn_jrnl (p : Nat) (s : State) : (State.dropHeldOn p s).jrnl = s.jrnl := by
  unfold State.dropHeldOn
  repeat' first | (simp; done) | split | dsimp only
@[simp] theorem dropHeldOn_cmpr (p : Nat) (s : State) : (State.dropHeldOn p s).cmpr = s.cmpr := by
  unfold State.dropHeldOn
  repeat' first | (simp; done) | split | dsimp only
@[simp] theorem dropHeldOn_plce (p : Nat) (s : State) : (State.dropHeldOn p s).plce = s.plce := by
  unfold State.dropHeldOn
  repeat' first | (simp; done) | split | dsimp only
@[simp] theorem dropHeldOn_strp (p : Nat) (s : State) : (State.dropHeldOn p s).strp = s.strp := by
  unfold State.dropHeldOn
  repeat' first | (simp; done) | split | dsimp only
@[simp] theorem dropHeldOn_drvp (p : Nat) (s : State) : (State.dropHeldOn p s).drvp = s.drvp := by
  unfold State.dropHeldOn
  repeat' first | (simp; done) | split | dsimp only
@[simp] theorem dropHeldOn_pair (p : Nat) (s : State) : (State.dropHeldOn p s).pair = s.pair := by
  unfold State.dropHeldOn
  repeat' first | (simp; done) | split | dsimp only
@[simp] theorem dropHeldOn_bayp (p : Nat) (s : State) : (State.dropHeldOn p s).bayp = s.bayp := by
  unfold State.dropHeldOn
  repeat' first | (simp; done) | split | dsimp only
@[simp] theorem dropHeldOn_pol (p : Nat) (s : State) : (State.dropHeldOn p s).pol = s.pol := by
  unfold State.dropHeldOn
  repeat' first | (simp; done) | split | dsimp only
@[simp] theorem dropHeldOn_now (p : Nat) (s : State) : (State.dropHeldOn p s).now = s.now := by
  unfold State.dropHeldOn
  repeat' first | (simp; done) | split | dsimp only
@[simp] theorem dropHeldOn_pending (p : Nat) (s : State) : (State.dropHeldOn p s).pending = s.pending := by
  unfold State.dropHeldOn
  repeat' first | (simp; done) | split | dsimp only
@[simp] theorem portDown_xprt (p : Nat) (again : Bool) (s : State) : (State.portDown p again s).xprt = s.xprt := by
  unfold State.portDown
  repeat' first | (simp; done) | split | dsimp only
@[simp] theorem portDown_gard (p : Nat) (again : Bool) (s : State) : (State.portDown p again s).gard = s.gard := by
  unfold State.portDown
  repeat' first | (simp; done) | split | dsimp only
@[simp] theorem portDown_vat (p : Nat) (again : Bool) (s : State) : (State.portDown p again s).vat = s.vat := by
  unfold State.portDown
  repeat' first | (simp; done) | split | dsimp only
@[simp] theorem portDown_cell (p : Nat) (again : Bool) (s : State) : (State.portDown p again s).cell = s.cell := by
  unfold State.portDown
  repeat' first | (simp; done) | split | dsimp only
@[simp] theorem portDown_cmdq (p : Nat) (again : Bool) (s : State) : (State.portDown p again s).cmdq = s.cmdq := by
  unfold State.portDown
  repeat' first | (simp; done) | split | dsimp only
@[simp] theorem portDown_regn (p : Nat) (again : Bool) (s : State) : (State.portDown p again s).regn = s.regn := by
  unfold State.portDown
  repeat' first | (simp; done) | split | dsimp only
@[simp] theorem portDown_jrnl (p : Nat) (again : Bool) (s : State) : (State.portDown p again s).jrnl = s.jrnl := by
  unfold State.portDown
  repeat' first | (simp; done) | split | dsimp only
@[simp] theorem portDown_cmpr (p : Nat) (again : Bool) (s : State) : (State.portDown p again s).cmpr = s.cmpr := by
  unfold State.portDown
  repeat' first | (simp; done) | split | dsimp only
@[simp] theorem portDown_plce (p : Nat) (again : Bool) (s : State) : (State.portDown p again s).plce = s.plce := by
  unfold State.portDown
  repeat' first | (simp; done) | split | dsimp only
@[simp] theorem portDown_strp (p : Nat) (again : Bool) (s : State) : (State.portDown p again s).strp = s.strp := by
  unfold State.portDown
  repeat' first | (simp; done) | split | dsimp only
@[simp] theorem portDown_drvp (p : Nat) (again : Bool) (s : State) : (State.portDown p again s).drvp = s.drvp := by
  unfold State.portDown
  repeat' first | (simp; done) | split | dsimp only
@[simp] theorem portDown_pair (p : Nat) (again : Bool) (s : State) : (State.portDown p again s).pair = s.pair := by
  unfold State.portDown
  repeat' first | (simp; done) | split | dsimp only
@[simp] theorem portDown_bayp (p : Nat) (again : Bool) (s : State) : (State.portDown p again s).bayp = s.bayp := by
  unfold State.portDown
  repeat' first | (simp; done) | split | dsimp only
@[simp] theorem portDown_pol (p : Nat) (again : Bool) (s : State) : (State.portDown p again s).pol = s.pol := by
  unfold State.portDown
  repeat' first | (simp; done) | split | dsimp only
@[simp] theorem portDown_now (p : Nat) (again : Bool) (s : State) : (State.portDown p again s).now = s.now := by
  unfold State.portDown
  repeat' first | (simp; done) | split | dsimp only
@[simp] theorem portDown_pending (p : Nat) (again : Bool) (s : State) : (State.portDown p again s).pending = s.pending := by
  unfold State.portDown
  repeat' first | (simp; done) | split | dsimp only
@[simp] theorem removePort_xprt (p : Nat) (s : State) : (State.removePort p s).xprt = s.xprt := by
  unfold State.removePort
  repeat' first | (simp; done) | split | dsimp only
@[simp] theorem removePort_gard (p : Nat) (s : State) : (State.removePort p s).gard = s.gard := by
  unfold State.removePort
  repeat' first | (simp; done) | split | dsimp only
@[simp] theorem removePort_vat (p : Nat) (s : State) : (State.removePort p s).vat = s.vat := by
  unfold State.removePort
  repeat' first | (simp; done) | split | dsimp only
@[simp] theorem removePort_cell (p : Nat) (s : State) : (State.removePort p s).cell = s.cell := by
  unfold State.removePort
  repeat' first | (simp; done) | split | dsimp only
@[simp] theorem removePort_cmdq (p : Nat) (s : State) : (State.removePort p s).cmdq = s.cmdq := by
  unfold State.removePort
  repeat' first | (simp; done) | split | dsimp only
@[simp] theorem removePort_regn (p : Nat) (s : State) : (State.removePort p s).regn = s.regn := by
  unfold State.removePort
  repeat' first | (simp; done) | split | dsimp only
@[simp] theorem removePort_jrnl (p : Nat) (s : State) : (State.removePort p s).jrnl = s.jrnl := by
  unfold State.removePort
  repeat' first | (simp; done) | split | dsimp only
@[simp] theorem removePort_cmpr (p : Nat) (s : State) : (State.removePort p s).cmpr = s.cmpr := by
  unfold State.removePort
  repeat' first | (simp; done) | split | dsimp only
@[simp] theorem removePort_plce (p : Nat) (s : State) : (State.removePort p s).plce = s.plce := by
  unfold State.removePort
  repeat' first | (simp; done) | split | dsimp only
@[simp] theorem removePort_strp (p : Nat) (s : State) : (State.removePort p s).strp = s.strp := by
  unfold State.removePort
  repeat' first | (simp; done) | split | dsimp only
@[simp] theorem removePort_drvp (p : Nat) (s : State) : (State.removePort p s).drvp = s.drvp := by
  unfold State.removePort
  repeat' first | (simp; done) | split | dsimp only
@[simp] theorem removePort_pair (p : Nat) (s : State) : (State.removePort p s).pair = s.pair := by
  unfold State.removePort
  repeat' first | (simp; done) | split | dsimp only
@[simp] theorem removePort_bayp (p : Nat) (s : State) : (State.removePort p s).bayp = s.bayp := by
  unfold State.removePort
  repeat' first | (simp; done) | split | dsimp only
@[simp] theorem removePort_pol (p : Nat) (s : State) : (State.removePort p s).pol = s.pol := by
  unfold State.removePort
  repeat' first | (simp; done) | split | dsimp only
@[simp] theorem removePort_now (p : Nat) (s : State) : (State.removePort p s).now = s.now := by
  unfold State.removePort
  repeat' first | (simp; done) | split | dsimp only
@[simp] theorem removePort_pending (p : Nat) (s : State) : (State.removePort p s).pending = s.pending := by
  unfold State.removePort
  repeat' first | (simp; done) | split | dsimp only
@[simp] theorem sendLine_gard (port tp dst len : Nat) (o : EthHdr → Emit) (s : State) : (State.sendLine port tp dst len o s).gard = s.gard := by
  unfold State.sendLine
  repeat' first | (simp; done) | split | dsimp only
@[simp] theorem sendLine_vat (port tp dst len : Nat) (o : EthHdr → Emit) (s : State) : (State.sendLine port tp dst len o s).vat = s.vat := by
  unfold State.sendLine
  repeat' first | (simp; done) | split | dsimp only
@[simp] theorem sendLine_cell (port tp dst len : Nat) (o : EthHdr → Emit) (s : State) : (State.sendLine port tp dst len o s).cell = s.cell := by
  unfold State.sendLine
  repeat' first | (simp; done) | split | dsimp only
@[simp] theorem sendLine_cmdq (port tp dst len : Nat) (o : EthHdr → Emit) (s : State) : (State.sendLine port tp dst len o s).cmdq = s.cmdq := by
  unfold State.sendLine
  repeat' first | (simp; done) | split | dsimp only
@[simp] theorem sendLine_regn (port tp dst len : Nat) (o : EthHdr → Emit) (s : State) : (State.sendLine port tp dst len o s).regn = s.regn := by
  unfold State.sendLine
  repeat' first | (simp; done) | split | dsimp only
@[simp] theorem sendLine_jrnl (port tp dst len : Nat) (o : EthHdr → Emit) (s : State) : (State.sendLine port tp dst len o s).jrnl = s.jrnl := by
  unfold State.sendLine
  repeat' first | (simp; done) | split | dsimp only
@[simp] theorem sendLine_cmpr (port tp dst len : Nat) (o : EthHdr → Emit) (s : State) : (State.sendLine port tp dst len o s).cmpr = s.cmpr := by
  unfold State.sendLine
  repeat' first | (simp; done) | split | dsimp only
@[simp] theorem sendLine_plce (port tp dst len : Nat) (o : EthHdr → Emit) (s : State) : (State.sendLine port tp dst len o s).plce = s.plce := by
  unfold State.sendLine
  repeat' first | (simp; done) | split | dsimp only
@[simp] theorem sendLine_strp (port tp dst len : Nat) (o : EthHdr → Emit) (s : State) : (State.sendLine port tp dst len o s).strp = s.strp := by
  unfold State.sendLine
  repeat' first | (simp; done) | split | dsimp only
@[simp] theorem sendLine_drvp (port tp dst len : Nat) (o : EthHdr → Emit) (s : State) : (State.sendLine port tp dst len o s).drvp = s.drvp := by
  unfold State.sendLine
  repeat' first | (simp; done) | split | dsimp only
@[simp] theorem sendLine_pair (port tp dst len : Nat) (o : EthHdr → Emit) (s : State) : (State.sendLine port tp dst len o s).pair = s.pair := by
  unfold State.sendLine
  repeat' first | (simp; done) | split | dsimp only
@[simp] theorem sendLine_bayp (port tp dst len : Nat) (o : EthHdr → Emit) (s : State) : (State.sendLine port tp dst len o s).bayp = s.bayp := by
  unfold State.sendLine
  repeat' first | (simp; done) | split | dsimp only
@[simp] theorem sendLine_pol (port tp dst len : Nat) (o : EthHdr → Emit) (s : State) : (State.sendLine port tp dst len o s).pol = s.pol := by
  unfold State.sendLine
  repeat' first | (simp; done) | split | dsimp only
@[simp] theorem sendLine_now (port tp dst len : Nat) (o : EthHdr → Emit) (s : State) : (State.sendLine port tp dst len o s).now = s.now := by
  unfold State.sendLine
  repeat' first | (simp; done) | split | dsimp only
@[simp] theorem sendLine_pending (port tp dst len : Nat) (o : EthHdr → Emit) (s : State) : (State.sendLine port tp dst len o s).pending = s.pending := by
  unfold State.sendLine
  repeat' first | (simp; done) | split | dsimp only
@[simp] theorem announceOn_gard (port : Nat) (lanes : List Nat) (s : State) (e : Nat × Nat) : (State.announceOn port lanes s e).gard = s.gard := by
  unfold State.announceOn
  repeat' first | (simp; done) | split | dsimp only
@[simp] theorem announceOn_vat (port : Nat) (lanes : List Nat) (s : State) (e : Nat × Nat) : (State.announceOn port lanes s e).vat = s.vat := by
  unfold State.announceOn
  repeat' first | (simp; done) | split | dsimp only
@[simp] theorem announceOn_cell (port : Nat) (lanes : List Nat) (s : State) (e : Nat × Nat) : (State.announceOn port lanes s e).cell = s.cell := by
  unfold State.announceOn
  repeat' first | (simp; done) | split | dsimp only
@[simp] theorem announceOn_cmdq (port : Nat) (lanes : List Nat) (s : State) (e : Nat × Nat) : (State.announceOn port lanes s e).cmdq = s.cmdq := by
  unfold State.announceOn
  repeat' first | (simp; done) | split | dsimp only
@[simp] theorem announceOn_regn (port : Nat) (lanes : List Nat) (s : State) (e : Nat × Nat) : (State.announceOn port lanes s e).regn = s.regn := by
  unfold State.announceOn
  repeat' first | (simp; done) | split | dsimp only
@[simp] theorem announceOn_jrnl (port : Nat) (lanes : List Nat) (s : State) (e : Nat × Nat) : (State.announceOn port lanes s e).jrnl = s.jrnl := by
  unfold State.announceOn
  repeat' first | (simp; done) | split | dsimp only
@[simp] theorem announceOn_cmpr (port : Nat) (lanes : List Nat) (s : State) (e : Nat × Nat) : (State.announceOn port lanes s e).cmpr = s.cmpr := by
  unfold State.announceOn
  repeat' first | (simp; done) | split | dsimp only
@[simp] theorem announceOn_plce (port : Nat) (lanes : List Nat) (s : State) (e : Nat × Nat) : (State.announceOn port lanes s e).plce = s.plce := by
  unfold State.announceOn
  repeat' first | (simp; done) | split | dsimp only
@[simp] theorem announceOn_strp (port : Nat) (lanes : List Nat) (s : State) (e : Nat × Nat) : (State.announceOn port lanes s e).strp = s.strp := by
  unfold State.announceOn
  repeat' first | (simp; done) | split | dsimp only
@[simp] theorem announceOn_drvp (port : Nat) (lanes : List Nat) (s : State) (e : Nat × Nat) : (State.announceOn port lanes s e).drvp = s.drvp := by
  unfold State.announceOn
  repeat' first | (simp; done) | split | dsimp only
@[simp] theorem announceOn_pair (port : Nat) (lanes : List Nat) (s : State) (e : Nat × Nat) : (State.announceOn port lanes s e).pair = s.pair := by
  unfold State.announceOn
  repeat' first | (simp; done) | split | dsimp only
@[simp] theorem announceOn_bayp (port : Nat) (lanes : List Nat) (s : State) (e : Nat × Nat) : (State.announceOn port lanes s e).bayp = s.bayp := by
  unfold State.announceOn
  repeat' first | (simp; done) | split | dsimp only
@[simp] theorem announceOn_pol (port : Nat) (lanes : List Nat) (s : State) (e : Nat × Nat) : (State.announceOn port lanes s e).pol = s.pol := by
  unfold State.announceOn
  repeat' first | (simp; done) | split | dsimp only
@[simp] theorem announceOn_now (port : Nat) (lanes : List Nat) (s : State) (e : Nat × Nat) : (State.announceOn port lanes s e).now = s.now := by
  unfold State.announceOn
  repeat' first | (simp; done) | split | dsimp only
@[simp] theorem announceOn_pending (port : Nat) (lanes : List Nat) (s : State) (e : Nat × Nat) : (State.announceOn port lanes s e).pending = s.pending := by
  unfold State.announceOn
  repeat' first | (simp; done) | split | dsimp only
@[simp] theorem announce_gard (g : Nat) (s : State) : (State.announce g s).gard = s.gard := by
  unfold State.announce
  repeat' first | (simp; done) | split | dsimp only
@[simp] theorem announce_vat (g : Nat) (s : State) : (State.announce g s).vat = s.vat := by
  unfold State.announce
  repeat' first | (simp; done) | split | dsimp only
@[simp] theorem announce_cell (g : Nat) (s : State) : (State.announce g s).cell = s.cell := by
  unfold State.announce
  repeat' first | (simp; done) | split | dsimp only
@[simp] theorem announce_cmdq (g : Nat) (s : State) : (State.announce g s).cmdq = s.cmdq := by
  unfold State.announce
  repeat' first | (simp; done) | split | dsimp only
@[simp] theorem announce_regn (g : Nat) (s : State) : (State.announce g s).regn = s.regn := by
  unfold State.announce
  repeat' first | (simp; done) | split | dsimp only
@[simp] theorem announce_jrnl (g : Nat) (s : State) : (State.announce g s).jrnl = s.jrnl := by
  unfold State.announce
  repeat' first | (simp; done) | split | dsimp only
@[simp] theorem announce_cmpr (g : Nat) (s : State) : (State.announce g s).cmpr = s.cmpr := by
  unfold State.announce
  repeat' first | (simp; done) | split | dsimp only
@[simp] theorem announce_plce (g : Nat) (s : State) : (State.announce g s).plce = s.plce := by
  unfold State.announce
  repeat' first | (simp; done) | split | dsimp only
@[simp] theorem announce_strp (g : Nat) (s : State) : (State.announce g s).strp = s.strp := by
  unfold State.announce
  repeat' first | (simp; done) | split | dsimp only
@[simp] theorem announce_drvp (g : Nat) (s : State) : (State.announce g s).drvp = s.drvp := by
  unfold State.announce
  repeat' first | (simp; done) | split | dsimp only
@[simp] theorem announce_pair (g : Nat) (s : State) : (State.announce g s).pair = s.pair := by
  unfold State.announce
  repeat' first | (simp; done) | split | dsimp only
@[simp] theorem announce_bayp (g : Nat) (s : State) : (State.announce g s).bayp = s.bayp := by
  unfold State.announce
  repeat' first | (simp; done) | split | dsimp only
@[simp] theorem announce_pol (g : Nat) (s : State) : (State.announce g s).pol = s.pol := by
  unfold State.announce
  repeat' first | (simp; done) | split | dsimp only
@[simp] theorem announce_now (g : Nat) (s : State) : (State.announce g s).now = s.now := by
  unfold State.announce
  repeat' first | (simp; done) | split | dsimp only
@[simp] theorem announce_pending (g : Nat) (s : State) : (State.announce g s).pending = s.pending := by
  unfold State.announce
  repeat' first | (simp; done) | split | dsimp only
@[simp] theorem retrainLane_xprt (lane p : Nat) (s : State) : (State.retrainLane lane p s).xprt = s.xprt := by
  unfold State.retrainLane
  repeat' first | (simp; done) | split | dsimp only
@[simp] theorem retrainLane_gard (lane p : Nat) (s : State) : (State.retrainLane lane p s).gard = s.gard := by
  unfold State.retrainLane
  repeat' first | (simp; done) | split | dsimp only
@[simp] theorem retrainLane_vat (lane p : Nat) (s : State) : (State.retrainLane lane p s).vat = s.vat := by
  unfold State.retrainLane
  repeat' first | (simp; done) | split | dsimp only
@[simp] theorem retrainLane_cell (lane p : Nat) (s : State) : (State.retrainLane lane p s).cell = s.cell := by
  unfold State.retrainLane
  repeat' first | (simp; done) | split | dsimp only
@[simp] theorem retrainLane_cmdq (lane p : Nat) (s : State) : (State.retrainLane lane p s).cmdq = s.cmdq := by
  unfold State.retrainLane
  repeat' first | (simp; done) | split | dsimp only
@[simp] theorem retrainLane_regn (lane p : Nat) (s : State) : (State.retrainLane lane p s).regn = s.regn := by
  unfold State.retrainLane
  repeat' first | (simp; done) | split | dsimp only
@[simp] theorem retrainLane_jrnl (lane p : Nat) (s : State) : (State.retrainLane lane p s).jrnl = s.jrnl := by
  unfold State.retrainLane
  repeat' first | (simp; done) | split | dsimp only
@[simp] theorem retrainLane_cmpr (lane p : Nat) (s : State) : (State.retrainLane lane p s).cmpr = s.cmpr := by
  unfold State.retrainLane
  repeat' first | (simp; done) | split | dsimp only
@[simp] theorem retrainLane_plce (lane p : Nat) (s : State) : (State.retrainLane lane p s).plce = s.plce := by
  unfold State.retrainLane
  repeat' first | (simp; done) | split | dsimp only
@[simp] theorem retrainLane_strp (lane p : Nat) (s : State) : (State.retrainLane lane p s).strp = s.strp := by
  unfold State.retrainLane
  repeat' first | (simp; done) | split | dsimp only
@[simp] theorem retrainLane_drvp (lane p : Nat) (s : State) : (State.retrainLane lane p s).drvp = s.drvp := by
  unfold State.retrainLane
  repeat' first | (simp; done) | split | dsimp only
@[simp] theorem retrainLane_pair (lane p : Nat) (s : State) : (State.retrainLane lane p s).pair = s.pair := by
  unfold State.retrainLane
  repeat' first | (simp; done) | split | dsimp only
@[simp] theorem retrainLane_bayp (lane p : Nat) (s : State) : (State.retrainLane lane p s).bayp = s.bayp := by
  unfold State.retrainLane
  repeat' first | (simp; done) | split | dsimp only
@[simp] theorem retrainLane_pol (lane p : Nat) (s : State) : (State.retrainLane lane p s).pol = s.pol := by
  unfold State.retrainLane
  repeat' first | (simp; done) | split | dsimp only
@[simp] theorem retrainLane_now (lane p : Nat) (s : State) : (State.retrainLane lane p s).now = s.now := by
  unfold State.retrainLane
  repeat' first | (simp; done) | split | dsimp only
@[simp] theorem retrainLane_pending (lane p : Nat) (s : State) : (State.retrainLane lane p s).pending = s.pending := by
  unfold State.retrainLane
  repeat' first | (simp; done) | split | dsimp only
@[simp] theorem retrainOrRetire_xprt (lane : Nat) (s : State) : (State.retrainOrRetire lane s).xprt = s.xprt := by
  unfold State.retrainOrRetire
  repeat' first | (simp; done) | split | dsimp only
@[simp] theorem retrainOrRetire_gard (lane : Nat) (s : State) : (State.retrainOrRetire lane s).gard = s.gard := by
  unfold State.retrainOrRetire
  repeat' first | (simp; done) | split | dsimp only
@[simp] theorem retrainOrRetire_vat (lane : Nat) (s : State) : (State.retrainOrRetire lane s).vat = s.vat := by
  unfold State.retrainOrRetire
  repeat' first | (simp; done) | split | dsimp only
@[simp] theorem retrainOrRetire_cell (lane : Nat) (s : State) : (State.retrainOrRetire lane s).cell = s.cell := by
  unfold State.retrainOrRetire
  repeat' first | (simp; done) | split | dsimp only
@[simp] theorem retrainOrRetire_cmdq (lane : Nat) (s : State) : (State.retrainOrRetire lane s).cmdq = s.cmdq := by
  unfold State.retrainOrRetire
  repeat' first | (simp; done) | split | dsimp only
@[simp] theorem retrainOrRetire_regn (lane : Nat) (s : State) : (State.retrainOrRetire lane s).regn = s.regn := by
  unfold State.retrainOrRetire
  repeat' first | (simp; done) | split | dsimp only
@[simp] theorem retrainOrRetire_jrnl (lane : Nat) (s : State) : (State.retrainOrRetire lane s).jrnl = s.jrnl := by
  unfold State.retrainOrRetire
  repeat' first | (simp; done) | split | dsimp only
@[simp] theorem retrainOrRetire_cmpr (lane : Nat) (s : State) : (State.retrainOrRetire lane s).cmpr = s.cmpr := by
  unfold State.retrainOrRetire
  repeat' first | (simp; done) | split | dsimp only
@[simp] theorem retrainOrRetire_plce (lane : Nat) (s : State) : (State.retrainOrRetire lane s).plce = s.plce := by
  unfold State.retrainOrRetire
  repeat' first | (simp; done) | split | dsimp only
@[simp] theorem retrainOrRetire_strp (lane : Nat) (s : State) : (State.retrainOrRetire lane s).strp = s.strp := by
  unfold State.retrainOrRetire
  repeat' first | (simp; done) | split | dsimp only
@[simp] theorem retrainOrRetire_drvp (lane : Nat) (s : State) : (State.retrainOrRetire lane s).drvp = s.drvp := by
  unfold State.retrainOrRetire
  repeat' first | (simp; done) | split | dsimp only
@[simp] theorem retrainOrRetire_pair (lane : Nat) (s : State) : (State.retrainOrRetire lane s).pair = s.pair := by
  unfold State.retrainOrRetire
  repeat' first | (simp; done) | split | dsimp only
@[simp] theorem retrainOrRetire_bayp (lane : Nat) (s : State) : (State.retrainOrRetire lane s).bayp = s.bayp := by
  unfold State.retrainOrRetire
  repeat' first | (simp; done) | split | dsimp only
@[simp] theorem retrainOrRetire_pol (lane : Nat) (s : State) : (State.retrainOrRetire lane s).pol = s.pol := by
  unfold State.retrainOrRetire
  repeat' first | (simp; done) | split | dsimp only
@[simp] theorem retrainOrRetire_now (lane : Nat) (s : State) : (State.retrainOrRetire lane s).now = s.now := by
  unfold State.retrainOrRetire
  repeat' first | (simp; done) | split | dsimp only
@[simp] theorem retrainOrRetire_pending (lane : Nat) (s : State) : (State.retrainOrRetire lane s).pending = s.pending := by
  unfold State.retrainOrRetire
  repeat' first | (simp; done) | split | dsimp only
@[simp] theorem syncJrnl_cmdq (s : State) : (State.syncJrnl s).cmdq = s.cmdq := by
  unfold State.syncJrnl
  repeat' first | (simp; done) | split | dsimp only
@[simp] theorem rxBytes_line (n : Nat) (s : State) : (State.rxBytes n s).line = s.line := by
  unfold State.rxBytes
  repeat' first | (simp; done) | split | dsimp only
@[simp] theorem rxBytes_ptp (n : Nat) (s : State) : (State.rxBytes n s).ptp = s.ptp := by
  unfold State.rxBytes
  repeat' first | (simp; done) | split | dsimp only
@[simp] theorem rxBytes_gard (n : Nat) (s : State) : (State.rxBytes n s).gard = s.gard := by
  unfold State.rxBytes
  repeat' first | (simp; done) | split | dsimp only
@[simp] theorem rxBytes_tmgr (n : Nat) (s : State) : (State.rxBytes n s).tmgr = s.tmgr := by
  unfold State.rxBytes
  repeat' first | (simp; done) | split | dsimp only
@[simp] theorem rxBytes_vat (n : Nat) (s : State) : (State.rxBytes n s).vat = s.vat := by
  unfold State.rxBytes
  repeat' first | (simp; done) | split | dsimp only
@[simp] theorem rxBytes_cell (n : Nat) (s : State) : (State.rxBytes n s).cell = s.cell := by
  unfold State.rxBytes
  repeat' first | (simp; done) | split | dsimp only
@[simp] theorem rxBytes_cmdq (n : Nat) (s : State) : (State.rxBytes n s).cmdq = s.cmdq := by
  unfold State.rxBytes
  repeat' first | (simp; done) | split | dsimp only
@[simp] theorem rxBytes_regn (n : Nat) (s : State) : (State.rxBytes n s).regn = s.regn := by
  unfold State.rxBytes
  repeat' first | (simp; done) | split | dsimp only
@[simp] theorem rxBytes_jrnl (n : Nat) (s : State) : (State.rxBytes n s).jrnl = s.jrnl := by
  unfold State.rxBytes
  repeat' first | (simp; done) | split | dsimp only
@[simp] theorem rxBytes_cmpr (n : Nat) (s : State) : (State.rxBytes n s).cmpr = s.cmpr := by
  unfold State.rxBytes
  repeat' first | (simp; done) | split | dsimp only
@[simp] theorem rxBytes_plce (n : Nat) (s : State) : (State.rxBytes n s).plce = s.plce := by
  unfold State.rxBytes
  repeat' first | (simp; done) | split | dsimp only
@[simp] theorem rxBytes_strp (n : Nat) (s : State) : (State.rxBytes n s).strp = s.strp := by
  unfold State.rxBytes
  repeat' first | (simp; done) | split | dsimp only
@[simp] theorem rxBytes_drvp (n : Nat) (s : State) : (State.rxBytes n s).drvp = s.drvp := by
  unfold State.rxBytes
  repeat' first | (simp; done) | split | dsimp only
@[simp] theorem rxBytes_pair (n : Nat) (s : State) : (State.rxBytes n s).pair = s.pair := by
  unfold State.rxBytes
  repeat' first | (simp; done) | split | dsimp only
@[simp] theorem rxBytes_bayp (n : Nat) (s : State) : (State.rxBytes n s).bayp = s.bayp := by
  unfold State.rxBytes
  repeat' first | (simp; done) | split | dsimp only
@[simp] theorem rxBytes_pol (n : Nat) (s : State) : (State.rxBytes n s).pol = s.pol := by
  unfold State.rxBytes
  repeat' first | (simp; done) | split | dsimp only
@[simp] theorem rxBytes_now (n : Nat) (s : State) : (State.rxBytes n s).now = s.now := by
  unfold State.rxBytes
  repeat' first | (simp; done) | split | dsimp only
@[simp] theorem rxBytes_pending (n : Nat) (s : State) : (State.rxBytes n s).pending = s.pending := by
  unfold State.rxBytes
  repeat' first | (simp; done) | split | dsimp only

end Sys2Proof.Machine
end

