-- ==== Sys2Proof/Laws/Kept.lean ====
section
/-!
SUPPORT. What every command keeps: the queue, the canonical form of the region memory, and the range of the PTP counter. This file holds
the frame of the plain updates; the files under Laws/Kept/ hold one lemma for each operation.
-/
namespace Sys2Proof.Machine
open Sys2Proof

/-- The queue is `q`, the region memory is canonical, the counter holds a time. -/
structure Kept (q : List Instr) (s : State) : Prop where
  queue : s.pending = q
  mem : memWf s.regn.mem = true
  half : s.ptp.half < 2000000000
  sec : s.ptp.sec < 2 ^ 48

variable {q : List Instr} {s t : State}

theorem Kept.of (h : Kept q s) (h1 : t.pending = s.pending) (h2 : t.regn = s.regn) (h3 : t.ptp = s.ptp) : Kept q t :=
  ⟨h1.trans h.queue, h2 ▸ h.mem, h3 ▸ h.half, h3 ▸ h.sec⟩

theorem lit_kept {fab line xprt gard tmgr vat cell cmdq jrnl cmpr plce strp drvp pair bayp pol tap now drawn} (h : Kept q s) :
    Kept q (State.mk fab line s.ptp xprt gard tmgr vat cell cmdq s.regn jrnl cmpr plce strp drvp pair bayp pol tap now drawn s.pending) :=
  h.of rfl rfl rfl

theorem onFab_kept (k : Fab → Fab) (h : Kept q s) : Kept q (s.onFab k) := h.of rfl rfl rfl
theorem onLine_kept (k : LineSt → LineSt) (h : Kept q s) : Kept q (s.onLine k) := h.of rfl rfl rfl
theorem onXprt_kept (k : XprtSt → XprtSt) (h : Kept q s) : Kept q (s.onXprt k) := h.of rfl rfl rfl
theorem onGard_kept (k : GardSt → GardSt) (h : Kept q s) : Kept q (s.onGard k) := h.of rfl rfl rfl
theorem onTmgr_kept (k : TmgrSt → TmgrSt) (h : Kept q s) : Kept q (s.onTmgr k) := h.of rfl rfl rfl
theorem onVat_kept (k : VatSt → VatSt) (h : Kept q s) : Kept q (s.onVat k) := h.of rfl rfl rfl
theorem onCell_kept (k : CellSt → CellSt) (h : Kept q s) : Kept q (s.onCell k) := h.of rfl rfl rfl
theorem onCmdq_kept (k : CmdqSt → CmdqSt) (h : Kept q s) : Kept q (s.onCmdq k) := h.of rfl rfl rfl
theorem onJrnl_kept (k : JrnlSt → JrnlSt) (h : Kept q s) : Kept q (s.onJrnl k) := h.of rfl rfl rfl
theorem onCmpr_kept (k : CmprSt → CmprSt) (h : Kept q s) : Kept q (s.onCmpr k) := h.of rfl rfl rfl
theorem onPlce_kept (k : PlceSt → PlceSt) (h : Kept q s) : Kept q (s.onPlce k) := h.of rfl rfl rfl
theorem onStrp_kept (k : StrpSt → StrpSt) (h : Kept q s) : Kept q (s.onStrp k) := h.of rfl rfl rfl
theorem onDrvp_kept (k : DrvpSt → DrvpSt) (h : Kept q s) : Kept q (s.onDrvp k) := h.of rfl rfl rfl
theorem onPair_kept (k : PairSt → PairSt) (h : Kept q s) : Kept q (s.onPair k) := h.of rfl rfl rfl
theorem onPol_kept (k : PolSt → PolSt) (h : Kept q s) : Kept q (s.onPol k) := h.of rfl rfl rfl
theorem onIsland_kept (k : IslandSt → IslandSt) (h : Kept q s) : Kept q (s.onIsland k) := h.of rfl rfl rfl
theorem onPwr_kept (b : Nat) (k : BayPwr → BayPwr) (h : Kept q s) : Kept q (s.onPwr b k) := h.of rfl rfl rfl
/-- An update of REGN that leaves the memory canonical. -/
theorem onRegn_kept (k : RegnSt → RegnSt) (hk : ∀ g, memWf g.mem = true → memWf (k g).mem = true) (h : Kept q s) : Kept q (s.onRegn k) :=
  ⟨h.queue, hk _ h.mem, h.half, h.sec⟩
theorem onPtp_kept (k : PtpSt → PtpSt) (h1 : (k s.ptp).half < 2000000000) (h2 : (k s.ptp).sec < 2 ^ 48) (h : Kept q s) : Kept q (s.onPtp k) :=
  ⟨h.queue, h.mem, h1, h2⟩

theorem setF_kept (p : Page) (x : Fld) (n : Nat) (h : Kept q s) : Kept q (s.setF p x n) := onFab_kept (Fab.setF p x n) h
theorem satAdd_kept (p : Page) (x : Fld) (n : Nat) (h : Kept q s) : Kept q (s.satAdd p x n) := onFab_kept (Fab.satAdd p x n) h
theorem setTab_kept (p : Page) (a b c : Nat) (h : Kept q s) : Kept q (s.setTab p a b c) := onFab_kept (Fab.setTab p false a b c) h
theorem count_kept (e : Evt) (n : Nat) (h : Kept q s) : Kept q (s.count e n) := onFab_kept (Fab.count e n) h
theorem emit_kept (e : Emit) (h : Kept q s) : Kept q (s.emit e) := onFab_kept (Fab.emit e) h
theorem occur_kept (x : Src) (h : Kept q s) : Kept q (s.occur x) := onFab_kept (Fab.occur x) h
theorem pageEv_kept (p : Page) (e : PgEv) (h : Kept q s) : Kept q (s.pageEv p e) := onFab_kept (Fab.pageEv p e) h
theorem record_kept (a b : Nat) (h : Kept q s) : Kept q (s.record a b) := onFab_kept (Fab.postRecord ⟨a, s.timeStamp, b⟩) h
theorem when_kept (c : Bool) (g : State → State) (hg : Kept q s → Kept q (g s)) (h : Kept q s) : Kept q (s.when c g) := by
  unfold State.when
  split
  · exact hg h
  · exact h
theorem draw_kept {x : Nat} (h : Kept q s) (e : s.draw = (x, t)) : Kept q t := by
  injection e with _ e
  subst e
  exact h.of rfl rfl rfl
theorem draw_kept2 (h : Kept q s) : Kept q s.draw.2 := h.of rfl rfl rfl
theorem foldl_kept {α : Type} (g : State → α → State) (hg : ∀ u x, Kept q u → Kept q (g u x)) (l : List α) (h : Kept q s) :
    Kept q (l.foldl g s) := by
  induction l generalizing s with
  | nil => exact h
  | cons x l ih => exact ih (hg _ _ h)
/-- An optional state that keeps it all, where there is one. -/
structure OptKept (q : List Instr) (o : Option State) : Prop where
  kept : ∀ t, o = some t → Kept q t
theorem optKept_none : OptKept q none := ⟨by
  intro t e
  cases e⟩
theorem optKept_some (h : Kept q s) : OptKept q (some s) := ⟨by
  intro t e
  injection e with e
  exact e ▸ h⟩
theorem optKept_getD {o : Option State} (ho : OptKept q o) (h : Kept q s) : Kept q (o.getD s) := by
  cases o with
  | none => exact h
  | some t => exact ho.kept t rfl
theorem optKept_map {α : Type} (g : α → State) (o : Option α) (hg : ∀ a, Kept q (g a)) : OptKept q (o.map g) := by
  cases o with
  | none => exact optKept_none
  | some a => exact optKept_some (hg a)
theorem optKept_foldl {α : Type} (g : Option State → α → Option State) (hg : ∀ o x, OptKept q o → OptKept q (g o x)) (l : List α)
    {o : Option State} (h : OptKept q o) : OptKept q (l.foldl g o) := by
  induction l generalizing o with
  | nil => exact h
  | cons x l ih => exact ih (hg _ _ h)
/-- The meaning of a command that keeps it all. -/
theorem next_kept {r : State} (hr : Kept q r) (e : (Host.Outcome.next r : Result) = .next t) : Kept q t := by
  injection e with e
  exact e ▸ hr

/-- Writing bytes of the region memory, and zeroing a range, keep its canonical form. -/
theorem memWrite_wf (l : List Nat) (a : Nat) (m : SMap Byte) (h : memWf m = true) : memWf (memWrite l a m) = true := by
  induction l generalizing a m with
  | nil => exact h
  | cons b l ih => exact ih _ _ (SMap.put_wf m a (fun _ => 0) _ h)
theorem memPieces_wf (base : Nat) (l : List (Nat × List Nat)) (m : SMap Byte) (h : memWf m = true) :
    memWf (l.foldl (fun m e => memWrite e.2 (base + e.1) m) m) = true := by
  induction l generalizing m with
  | nil => exact h
  | cons e l ih => exact ih _ (memWrite_wf _ _ _ h)
theorem memZero_wf (a n : Nat) (m : SMap Byte) (h : memWf m = true) : memWf (memZero a n m) = true := SMap.filter_wf m _ _ h

end Sys2Proof.Machine
end

