-- ==== Sys2Proof/Laws/Kept/LineBase.lean ====
section
/-!
SUPPORT. What the operations of Machine/LineBase.lean keep.
-/
namespace Sys2Proof.Machine
open Sys2Proof

theorem setPort_kept {kq : List Instr} (p : Nat) (v : PortSt) (s : State) (kh : Kept kq s) : Kept kq (State.setPort p v s) := by
  unfold State.setPort
  try dsimp only
  repeat' first
    | with_reducible assumption
    | with_reducible apply onLine_kept
    | intro _
    | split
    | dsimp only

theorem beginPort_kept {kq : List Instr} (p : Nat) (v : PortSt) (s : State) (kh : Kept kq s) : Kept kq (State.beginPort p v s) := by
  unfold State.beginPort
  try dsimp only
  repeat' first
    | with_reducible assumption
    | with_reducible apply emit_kept
    | with_reducible apply when_kept
    | with_reducible apply setPort_kept
    | intro _
    | split
    | dsimp only

theorem syncGrp_kept {kq : List Instr} (g : Nat) (s : State) (kh : Kept kq s) : Kept kq (State.syncGrp g s) := by
  unfold State.syncGrp
  try dsimp only
  repeat' first
    | with_reducible assumption
    | with_reducible apply onFab_kept
    | intro _
    | split
    | dsimp only

theorem syncLane_kept {kq : List Instr} (lane : Nat) (s : State) (kh : Kept kq s) : Kept kq (State.syncLane lane s) := by
  unfold State.syncLane
  try dsimp only
  repeat' first
    | with_reducible assumption
    | with_reducible apply onFab_kept
    | intro _
    | split
    | dsimp only

theorem syncPorts_kept {kq : List Instr} (g : Nat) (s : State) (kh : Kept kq s) : Kept kq (State.syncPorts g s) := by
  unfold State.syncPorts
  try dsimp only
  repeat' first
    | with_reducible assumption
    | with_reducible apply syncGrp_kept
    | with_reducible apply syncLane_kept
    | with_reducible apply foldl_kept
    | intro _
    | split
    | dsimp only

theorem txFrame_kept {kq : List Instr} (g len : Nat) (s : State) (kh : Kept kq s) : Kept kq (State.txFrame g len s) := by
  unfold State.txFrame
  try dsimp only
  repeat' first
    | with_reducible assumption
    | with_reducible apply count_kept
    | intro _
    | split
    | dsimp only

end Sys2Proof.Machine
end

