-- ==== Sys2Proof/Laws/Kept/CellOps.lean ====
section
/-!
SUPPORT. What the operations of Machine/CellOps.lean keep.
-/
namespace Sys2Proof.Machine
open Sys2Proof

theorem syncCell_kept {kq : List Instr} (s : State) (kh : Kept kq s) : Kept kq (State.syncCell s) := by
  unfold State.syncCell
  try dsimp only
  repeat' first
    | with_reducible assumption
    | with_reducible apply onCell_kept
    | with_reducible apply setF_kept
    | intro _
    | split
    | dsimp only

theorem sendPfc_kept {kq : List Instr} (port prio quanta : Nat) (s : State) (kh : Kept kq s) : Kept kq (State.sendPfc port prio quanta s) := by
  unfold State.sendPfc
  try dsimp only
  repeat' first
    | with_reducible assumption
    | with_reducible apply count_kept
    | with_reducible apply emit_kept
    | with_reducible apply when_kept
    | with_reducible apply txFrame_kept
    | intro _
    | split
    | dsimp only

theorem pfcLevel_kept {kq : List Instr} (port prio : Nat) (s : State) (kh : Kept kq s) : Kept kq (State.pfcLevel port prio s) := by
  unfold State.pfcLevel
  try dsimp only
  repeat' first
    | with_reducible assumption
    | with_reducible apply onLine_kept
    | with_reducible apply sendPfc_kept
    | intro _
    | split
    | dsimp only

theorem pfcUnit_kept {kq : List Instr} (u : UnitSt) (s : State) (kh : Kept kq s) : Kept kq (State.pfcUnit u s) := by
  unfold State.pfcUnit
  try dsimp only
  repeat' first
    | with_reducible assumption
    | with_reducible apply pfcLevel_kept
    | intro _
    | split
    | dsimp only

theorem setVoq_kept {kq : List Instr} (k : Nat) (q : List QUnit) (s : State) (kh : Kept kq s) : Kept kq (State.setVoq k q s) := by
  unfold State.setVoq
  try dsimp only
  repeat' first
    | with_reducible assumption
    | with_reducible apply onVat_kept
    | intro _
    | split
    | dsimp only

theorem syncVat_kept {kq : List Instr} (s : State) (kh : Kept kq s) : Kept kq (State.syncVat s) := by
  unfold State.syncVat
  try dsimp only
  repeat' first
    | with_reducible assumption
    | with_reducible apply onVat_kept
    | with_reducible apply setF_kept
    | with_reducible apply foldl_kept
    | intro _
    | split
    | dsimp only

theorem enqueueUnit_kept {kq : List Instr} (input : Nat) (outs : List Nat) (cls unit : Nat) (s : State) (kh : Kept kq s) : Kept kq (State.enqueueUnit input outs cls unit s) := by
  unfold State.enqueueUnit
  try dsimp only
  repeat' first
    | with_reducible assumption
    | with_reducible apply count_kept
    | with_reducible apply onCell_kept
    | with_reducible apply when_kept
    | with_reducible apply setVoq_kept
    | with_reducible apply syncVat_kept
    | with_reducible apply foldl_kept
    | intro _
    | split
    | dsimp only

theorem offerUnit_kept {kq : List Instr} (outs : List Nat) (unit : Nat) (s : State) (kh : Kept kq s) : Kept kq (State.offerUnit outs unit s) := by
  unfold State.offerUnit
  try dsimp only
  repeat' first
    | with_reducible assumption
    | with_reducible apply onVat_kept
    | with_reducible apply enqueueUnit_kept
    | intro _
    | split
    | dsimp only

theorem offerHeld_kept {kq : List Instr} (s : State) (kh : Kept kq s) : Kept kq (State.offerHeld s) := by
  unfold State.offerHeld
  try dsimp only
  repeat' first
    | with_reducible assumption
    | with_reducible apply onVat_kept
    | with_reducible apply offerUnit_kept
    | with_reducible apply foldl_kept
    | intro _
    | split
    | dsimp only

theorem takeCells_keptE {kq : List Instr} {ko : State} {x0 : Nat} {r : AllocReq} {s : State} (kh : Kept kq s)
    (ke : State.takeCells r s = some (x0, ko)) : Kept kq ko := by
  unfold State.takeCells at ke
  dsimp only at ke
  split at ke
  · cases ke
  · injection ke with ke
    injection ke with _ ke
    subst ke
    exact pfcUnit_kept _ _ (syncCell_kept _ (count_kept _ _ (onCell_kept _ kh)))

theorem dropUnit_kept {kq : List Instr} (id : Nat) (s : State) (kh : Kept kq s) : Kept kq (State.dropUnit id s) := by
  unfold State.dropUnit
  try dsimp only
  repeat' first
    | with_reducible assumption
    | with_reducible apply count_kept
    | with_reducible apply onCell_kept
    | with_reducible apply onVat_kept
    | with_reducible apply syncCell_kept
    | with_reducible apply pfcUnit_kept
    | with_reducible apply foldl_kept
    | intro _
    | split
    | dsimp only

theorem evictUnit_kept2 {kq : List Instr} (id : Nat) (s : State) (kh : Kept kq s) : Kept kq (State.evictUnit id s).2 := by
  unfold State.evictUnit
  try dsimp only
  repeat' first
    | with_reducible assumption
    | with_reducible apply count_kept
    | with_reducible apply occur_kept
    | with_reducible apply onCell_kept
    | with_reducible apply dropUnit_kept
    | with_reducible exact optKept_none
    | with_reducible apply optKept_some
    | with_reducible apply optKept_map
    | with_reducible apply optKept_foldl
    | exact OptKept.kept (by assumption) _ rfl
    | intro _
    | split
    | dsimp only
theorem evictUnit_keptE {kq : List Instr} {ko : State} {x0 : Option UnitKind} {id : Nat} {s : State} (kh : Kept kq s) (ke : State.evictUnit id s = (x0,ko)) : Kept kq ko := by
  have kt := evictUnit_kept2 id s kh
  rw [ke] at kt
  exact kt

theorem pushOut_kept2 {kq : List Instr} (r : AllocReq) (n : Nat) (l : List UnitKind) (s : State) (kh : Kept kq s) :
    Kept kq (State.pushOut r n l s).2 := by
  induction n generalizing l s with
  | zero => exact kh
  | succ n ih =>
    unfold State.pushOut
    split
    · exact kh
    · split
      · exact kh
      · exact ih _ _ (evictUnit_kept2 _ _ kh)

theorem netDrop_kept {kq : List Instr} (o : Nat) (s : State) (kh : Kept kq s) : Kept kq (State.netDrop o s) := by
  unfold State.netDrop
  try dsimp only
  repeat' first
    | with_reducible assumption
    | with_reducible apply count_kept
    | with_reducible apply occur_kept
    | with_reducible apply onCell_kept
    | intro _
    | split
    | dsimp only

theorem allocRequest_keptA {kq : List Instr} (r : AllocReq) (retry : Bool) (s : State) (kh : Kept kq s) :
    Kept kq (State.allocRequest r retry s).after := by
  have grant : ∀ (ev : List UnitKind) (t : State), Kept kq t → Kept kq (match t.takeCells r with
      | some (id, t') => (⟨some id, ev, t'.when (!r.outs.isEmpty) (State.offerUnit r.outs id)⟩ : AllocOut)
      | none => ⟨none, ev, t⟩).after := by
    intro ev t ht
    split
    · exact when_kept _ _ (fun k => offerUnit_kept _ _ _ k) (takeCells_keptE ht (by assumption))
    · exact ht
  have wait : ∀ (ev : List UnitKind) (t : State), Kept kq t → Kept kq (if r.network.isSome then
      (⟨none, ev, t.netDrop (4 * r.port + r.cls)⟩ : AllocOut)
      else if retry then ⟨none, ev, t⟩
      else ⟨none, ev, (t.onCell fun c => { c with waiters := c.waiters ++ [r] }).count E.CELL_ALLOC_WAIT 1⟩).after := by
    intro ev t ht
    split
    · exact netDrop_kept _ _ ht
    · split
      · exact ht
      · exact count_kept _ _ (onCell_kept _ ht)
  unfold State.allocRequest
  extract_lets o g w
  split
  · exact wait _ _ kh
  · split
    · exact grant _ _ kh
    · split
      · split
        · exact grant _ _ (pushOut_kept2 _ _ _ _ kh)
        · exact wait _ _ (pushOut_kept2 _ _ _ _ kh)
      · exact wait _ _ kh

theorem badFree_kept {kq : List Instr} (ptr owner stored port reason : Nat) (s : State) (kh : Kept kq s) : Kept kq (State.badFree ptr owner stored port reason s) := by
  unfold State.badFree
  try dsimp only
  repeat' first
    | with_reducible assumption
    | with_reducible apply count_kept
    | with_reducible apply occur_kept
    | with_reducible apply onCell_kept
    | with_reducible apply setF_kept
    | intro _
    | split
    | dsimp only

theorem releaseCell_kept {kq : List Instr} (c owner : Nat) (m : CellMeta) (s : State) (kh : Kept kq s) : Kept kq (State.releaseCell c owner m s) := by
  unfold State.releaseCell
  try dsimp only
  repeat' first
    | with_reducible assumption
    | with_reducible apply count_kept
    | with_reducible apply onCell_kept
    | with_reducible apply syncCell_kept
    | with_reducible apply pfcUnit_kept
    | intro _
    | split
    | dsimp only

theorem freeCell_kept {kq : List Instr} (ptr owner port : Nat) (s : State) (kh : Kept kq s) : Kept kq (State.freeCell ptr owner port s) := by
  unfold State.freeCell
  try dsimp only
  repeat' first
    | with_reducible assumption
    | with_reducible apply onCell_kept
    | with_reducible apply badFree_kept
    | with_reducible apply releaseCell_kept
    | intro _
    | split
    | dsimp only

theorem pinUnit_kept {kq : List Instr} (id : Nat) (s : State) (kh : Kept kq s) : Kept kq (State.pinUnit id s) := by
  unfold State.pinUnit
  try dsimp only
  repeat' first
    | with_reducible assumption
    | with_reducible apply onCell_kept
    | with_reducible apply foldl_kept
    | intro _
    | split
    | dsimp only

theorem unrefKind_kept {kq : List Instr} (p : UnitKind → Bool) (s : State) (kh : Kept kq s) : Kept kq (State.unrefKind p s) := by
  unfold State.unrefKind
  try dsimp only
  repeat' first
    | with_reducible assumption
    | with_reducible apply onCell_kept
    | with_reducible apply foldl_kept
    | intro _
    | split
    | dsimp only

theorem dropKind_kept {kq : List Instr} (p : UnitKind → Bool) (s : State) (kh : Kept kq s) : Kept kq (State.dropKind p s) := by
  unfold State.dropKind
  try dsimp only
  repeat' first
    | with_reducible assumption
    | with_reducible apply onCell_kept
    | with_reducible apply dropUnit_kept
    | with_reducible apply foldl_kept
    | intro _
    | split
    | dsimp only

theorem ship_kept {kq : List Instr} (h : Hop) (s : State) (kh : Kept kq s) : Kept kq (State.ship h s) := by
  unfold State.ship
  try dsimp only
  repeat' first
    | with_reducible assumption
    | with_reducible apply allocRequest_keptA
    | with_reducible apply foldl_kept
    | intro _
    | split
    | dsimp only

theorem hasCells_kept2 {kq : List Instr} (h : Hop) (s : State) (kh : Kept kq s) : Kept kq (State.hasCells h s).2 := by
  unfold State.hasCells
  try dsimp only
  repeat' first
    | with_reducible assumption
    | with_reducible apply ship_kept
    | intro _
    | split
    | dsimp only
theorem hasCells_keptE {kq : List Instr} {ko : State} {x0 : Bool} {h : Hop} {s : State} (kh : Kept kq s) (ke : State.hasCells h s = (x0,ko)) : Kept kq ko := by
  have kt := hasCells_kept2 h s kh
  rw [ke] at kt
  exact kt

theorem crossed_kept2 {kq : List Instr} (h : Hop) (s : State) (kh : Kept kq s) : Kept kq (State.crossed h s).2 := by
  unfold State.crossed
  try dsimp only
  repeat' first
    | with_reducible assumption
    | with_reducible apply hasCells_kept2
    | intro _
    | split
    | (refine hasCells_keptE ?_ (by with_reducible assumption))
    | dsimp only
theorem crossed_keptE {kq : List Instr} {ko : State} {x0 : Bool} {h : Hop} {s : State} (kh : Kept kq s) (ke : State.crossed h s = (x0,ko)) : Kept kq ko := by
  have kt := crossed_kept2 h s kh
  rw [ke] at kt
  exact kt

theorem offerKind_kept {kq : List Instr} (k : UnitKind) (outs : List Nat) (s : State) (kh : Kept kq s) : Kept kq (State.offerKind k outs s) := by
  unfold State.offerKind
  try dsimp only
  repeat' first
    | with_reducible assumption
    | with_reducible apply offerUnit_kept
    | with_reducible apply foldl_kept
    | intro _
    | split
    | dsimp only

theorem splitUnit_keptE {kq : List Instr} {ko : State} {x0 id n : Nat} {k : UnitKind} {s : State} (kh : Kept kq s)
    (ke : State.splitUnit id n k s = some (x0, ko)) : Kept kq ko := by
  unfold State.splitUnit at ke
  dsimp only at ke
  split at ke
  · cases ke
  · split at ke
    · injection ke with ke
      injection ke with _ ke
      exact ke ▸ onCell_kept _ kh
    · injection ke with ke
      injection ke with _ ke
      exact ke ▸ onCell_kept _ kh

end Sys2Proof.Machine
end

