-- ==== Sys2Proof/Laws/Kept/DrvOps.lean ====
section
/-!
SUPPORT. What the operations of Machine/DrvOps.lean keep.
-/
namespace Sys2Proof.Machine
open Sys2Proof

theorem setBay_kept {kq : List Instr} (b : Nat) (v : BaySt) (s : State) (kh : Kept kq s) : Kept kq (State.setBay b v s) := by
  unfold State.setBay
  try dsimp only
  repeat' first
    | with_reducible assumption
    | with_reducible apply onDrvp_kept
    | intro _
    | split
    | dsimp only

theorem onBay_kept {kq : List Instr} (b : Nat) (g : BaySt → BaySt) (s : State) (kh : Kept kq s) : Kept kq (State.onBay b g s) := by
  unfold State.onBay
  try dsimp only
  repeat' first
    | with_reducible assumption
    | with_reducible apply setBay_kept
    | intro _
    | split
    | dsimp only

theorem syncBay_kept {kq : List Instr} (b : Nat) (s : State) (kh : Kept kq s) : Kept kq (State.syncBay b s) := by
  unfold State.syncBay
  try dsimp only
  repeat' first
    | with_reducible assumption
    | with_reducible apply setF_kept
    | intro _
    | split
    | dsimp only

theorem drvRecord_kept {kq : List Instr} (b type detail tag hdr : Nat) (s : State) (kh : Kept kq s) : Kept kq (State.drvRecord b type detail tag hdr s) := by
  unfold State.drvRecord
  try dsimp only
  repeat' first
    | with_reducible assumption
    | with_reducible apply onBay_kept
    | intro _
    | split
    | dsimp only

theorem drvPacket_kept {kq : List Instr} (b type tag : Nat) (s : State) (kh : Kept kq s) : Kept kq (State.drvPacket b type tag s) := by
  unfold State.drvPacket
  try dsimp only
  repeat' first
    | with_reducible assumption
    | with_reducible apply draw_kept2
    | with_reducible apply drvRecord_kept
    | intro _
    | split
    | (refine draw_kept ?_ (by with_reducible assumption))
    | dsimp only

theorem syncErrs_kept {kq : List Instr} (b : Nat) (s : State) (kh : Kept kq s) : Kept kq (State.syncErrs b s) := by
  unfold State.syncErrs
  try dsimp only
  repeat' first
    | with_reducible assumption
    | with_reducible apply setF_kept
    | intro _
    | split
    | dsimp only

theorem drvSubmit_kept {kq : List Instr} (b : Nat) (r : DrvReq) (s : State) (kh : Kept kq s) : Kept kq (State.drvSubmit b r s) := by
  unfold State.drvSubmit
  try dsimp only
  repeat' first
    | with_reducible assumption
    | with_reducible apply onBay_kept
    | intro _
    | split
    | dsimp only

theorem drvWrite_kept {kq : List Instr} (b : Nat) (k : UnitKind) (r : DrvReq) (s : State) (kh : Kept kq s) : Kept kq (State.drvWrite b k r s) := by
  unfold State.drvWrite
  try dsimp only
  repeat' first
    | with_reducible assumption
    | with_reducible apply ship_kept
    | with_reducible apply drvSubmit_kept
    | intro _
    | split
    | dsimp only

theorem dropWrite_kept {kq : List Instr} (u : DrvUse) (s : State) (kh : Kept kq s) : Kept kq (State.dropWrite u s) := by
  unfold State.dropWrite
  try dsimp only
  repeat' first
    | with_reducible assumption
    | with_reducible apply dropKind_kept
    | intro _
    | split
    | dsimp only

theorem ring_kept {kq : List Instr} (b tag : Nat) (r0 : DrvReq) (s : State) (kh : Kept kq s) : Kept kq (State.ring b tag r0 s) := by
  unfold State.ring
  try dsimp only
  repeat' first
    | with_reducible assumption
    | with_reducible apply count_kept
    | with_reducible apply emit_kept
    | with_reducible apply when_kept
    | with_reducible apply setBay_kept
    | with_reducible apply syncBay_kept
    | intro _
    | split
    | dsimp only

theorem untag_kept {kq : List Instr} (b tag : Nat) (s : State) (kh : Kept kq s) : Kept kq (State.untag b tag s) := by
  unfold State.untag
  try dsimp only
  repeat' first
    | with_reducible assumption
    | with_reducible apply onBay_kept
    | with_reducible apply syncBay_kept
    | intro _
    | split
    | dsimp only

end Sys2Proof.Machine
end

