-- ==== Sys2Proof/Laws/Kept/CoreReset.lean ====
section
/-!
SUPPORT. What the operations of Machine/CoreReset.lean keep.
-/
namespace Sys2Proof.Machine
open Sys2Proof

theorem syncPins_kept {kq : List Instr} (s : State) (kh : Kept kq s) : Kept kq (State.syncPins s) := by
  unfold State.syncPins
  try dsimp only
  repeat' first
    | with_reducible assumption
    | with_reducible apply setF_kept
    | with_reducible apply fenceIn_kept
    | intro _
    | split
    | dsimp only

theorem setOwnOut_kept {kq : List Instr} (on : Bool) (s : State) (kh : Kept kq s) : Kept kq (State.setOwnOut on s) := by
  unfold State.setOwnOut
  try dsimp only
  repeat' first
    | with_reducible assumption
    | with_reducible apply emit_kept
    | with_reducible apply onIsland_kept
    | intro _
    | split
    | dsimp only

theorem setFenceOut_kept {kq : List Instr} (on : Bool) (s : State) (kh : Kept kq s) : Kept kq (State.setFenceOut on s) := by
  unfold State.setFenceOut
  try dsimp only
  repeat' first
    | with_reducible assumption
    | with_reducible apply emit_kept
    | with_reducible apply onIsland_kept
    | with_reducible apply syncPins_kept
    | intro _
    | split
    | dsimp only

theorem coreReset_kept {kq : List Instr} (keep : Bool) (s : State) (kh : Kept kq s) : Kept kq (State.coreReset keep s) := by
  unfold State.coreReset
  dsimp only
  apply syncPins_kept
  apply foldl_kept
  · intro u b ku
    exact emit_kept _ (setF_kept _ _ _ (setF_kept _ _ _ (ku.of rfl rfl rfl)))
  · exact ⟨kh.queue, SMap.empty_wf _, (by decide : 0 < 2000000000), (by decide : 0 < 2 ^ 48)⟩

theorem tripNow_kept {kq : List Instr} (s : State) (kh : Kept kq s) : Kept kq (State.tripNow s) := by
  unfold State.tripNow
  try dsimp only
  repeat' first
    | with_reducible assumption
    | with_reducible apply emit_kept
    | with_reducible apply onIsland_kept
    | with_reducible apply setOwnOut_kept
    | with_reducible apply coreReset_kept
    | intro _
    | split
    | dsimp only

theorem tripEnd_kept {kq : List Instr} (s : State) (kh : Kept kq s) : Kept kq (State.tripEnd s) := by
  unfold State.tripEnd
  try dsimp only
  repeat' first
    | with_reducible assumption
    | with_reducible apply tripNow_kept
    | intro _
    | split
    | dsimp only

end Sys2Proof.Machine
end

