-- ==== Sys2Proof/Laws/Kept/TmgrOps.lean ====
section
/-!
SUPPORT. What the operations of Machine/TmgrOps.lean keep.
-/
namespace Sys2Proof.Machine
open Sys2Proof

theorem setBucket_kept {kq : List Instr} (p : Nat) (b : Bucket) (s : State) (kh : Kept kq s) : Kept kq (State.setBucket p b s) := by
  unfold State.setBucket
  try dsimp only
  repeat' first
    | with_reducible assumption
    | with_reducible apply onTmgr_kept
    | intro _
    | split
    | dsimp only

theorem police_kept2 {kq : List Instr} (p bits : Nat) (inColour : Colour) (s : State) (kh : Kept kq s) : Kept kq (State.police p bits inColour s).2 := by
  unfold State.police
  try dsimp only
  repeat' first
    | with_reducible assumption
    | with_reducible apply setBucket_kept
    | intro _
    | split
    | dsimp only
theorem police_keptE {kq : List Instr} {ko : State} {x0 : Colour} {p bits : Nat} {inColour : Colour} {s : State} (kh : Kept kq s) (ke : State.police p bits inColour s = (x0,ko)) : Kept kq ko := by
  have kt := police_kept2 p bits inColour s kh
  rw [ke] at kt
  exact kt

theorem addMeter_kept {kq : List Instr} (tenant : Nat) (g : MeterAcc → MeterAcc) (s : State) (kh : Kept kq s) : Kept kq (State.addMeter tenant g s) := by
  unfold State.addMeter
  try dsimp only
  repeat' first
    | with_reducible assumption
    | with_reducible apply onTmgr_kept
    | intro _
    | split
    | dsimp only

theorem policeFrame_kept2 {kq : List Instr} (tenant len dscp : Nat) (s : State) (kh : Kept kq s) : Kept kq (State.policeFrame tenant len dscp s).2.2 := by
  unfold State.policeFrame
  try dsimp only
  repeat' first
    | with_reducible assumption
    | with_reducible apply count_kept
    | with_reducible apply police_kept2
    | with_reducible apply addMeter_kept
    | intro _
    | split
    | (refine police_keptE ?_ (by with_reducible assumption))
    | dsimp only
theorem policeFrame_keptE {kq : List Instr} {ko : State} {x0 : Colour} {x1 : Bool} {tenant len dscp : Nat} {s : State} (kh : Kept kq s) (ke : State.policeFrame tenant len dscp s = (x0,x1,ko)) : Kept kq ko := by
  have kt := policeFrame_kept2 tenant len dscp s kh
  rw [ke] at kt
  exact kt

theorem openMinute_kept {kq : List Instr} (stepped part : Bool) (s : State) (kh : Kept kq s) : Kept kq (State.openMinute stepped part s) := by
  unfold State.openMinute
  try dsimp only
  repeat' first
    | with_reducible assumption
    | with_reducible apply onTmgr_kept
    | with_reducible apply setF_kept
    | intro _
    | split
    | dsimp only

theorem minuteDue_kept {kq : List Instr} (step : Bool) (s : State) (kh : Kept kq s) : Kept kq (State.minuteDue step s) := by
  unfold State.minuteDue
  try dsimp only
  repeat' first
    | with_reducible assumption
    | with_reducible apply onTmgr_kept
    | with_reducible apply when_kept
    | intro _
    | split
    | dsimp only

theorem closeMinute_kept {kq : List Instr} (covered : Nat) (step part : Bool) (s : State) (kh : Kept kq s) : Kept kq (State.closeMinute covered step part s) := by
  unfold State.closeMinute
  try dsimp only
  repeat' first
    | with_reducible assumption
    | with_reducible apply record_kept
    | with_reducible apply onTmgr_kept
    | with_reducible apply when_kept
    | with_reducible apply count_kept
    | with_reducible apply setF_kept
    | with_reducible apply occur_kept
    | intro _
    | split
    | dsimp only

theorem setRoot_kept {kq : List Instr} (r : Nat) (v : RootSt) (s : State) (kh : Kept kq s) : Kept kq (State.setRoot r v s) := by
  unfold State.setRoot
  try dsimp only
  repeat' first
    | with_reducible assumption
    | with_reducible apply onTmgr_kept
    | intro _
    | split
    | dsimp only

theorem keepDeficits_kept {kq : List Instr} (s : State) (kh : Kept kq s) : Kept kq (State.keepDeficits s) := by
  unfold State.keepDeficits
  try dsimp only
  repeat' first
    | with_reducible assumption
    | with_reducible apply onTmgr_kept
    | intro _
    | split
    | dsimp only

theorem chargeWork_kept {kq : List Instr} (r leaf bytes : Nat) (s : State) (kh : Kept kq s) : Kept kq (State.chargeWork r leaf bytes s) := by
  unfold State.chargeWork
  try dsimp only
  repeat' first
    | with_reducible assumption
    | with_reducible apply occur_kept
    | with_reducible apply onTmgr_kept
    | with_reducible apply when_kept
    | with_reducible apply setRoot_kept
    | intro _
    | split
    | dsimp only

theorem refillShapers_kept {kq : List Instr} (s : State) (kh : Kept kq s) : Kept kq (State.refillShapers s) := by
  unfold State.refillShapers
  try dsimp only
  repeat' first
    | with_reducible assumption
    | with_reducible apply onTmgr_kept
    | with_reducible apply foldl_kept
    | intro _
    | split
    | dsimp only

theorem bgTake_kept2 {kq : List Instr} (p k bytes : Nat) (s : State) (kh : Kept kq s) : Kept kq (State.bgTake p k bytes s).2 := by
  unfold State.bgTake
  try dsimp only
  repeat' first
    | with_reducible assumption
    | with_reducible apply onTmgr_kept
    | intro _
    | split
    | dsimp only
theorem bgTake_keptE {kq : List Instr} {ko : State} {x0 : Bool} {p k bytes : Nat} {s : State} (kh : Kept kq s) (ke : State.bgTake p k bytes s = (x0,ko)) : Kept kq ko := by
  have kt := bgTake_kept2 p k bytes s kh
  rw [ke] at kt
  exact kt

theorem bgAdmit_kept {kq : List Instr} (leaf bytes : Nat) (s : State) (kh : Kept kq s) : Kept kq (State.bgAdmit leaf bytes s) := by
  unfold State.bgAdmit
  try dsimp only
  repeat' first
    | with_reducible assumption
    | with_reducible apply count_kept
    | with_reducible apply onTmgr_kept
    | intro _
    | split
    | dsimp only

end Sys2Proof.Machine
end

