-- ==== Sys2Proof/Laws/Kept/LinkOps.lean ====
section
/-!
SUPPORT. What the operations of Machine/LinkOps.lean keep.
-/
namespace Sys2Proof.Machine
open Sys2Proof

theorem linkBytes_kept2 {kq : List Instr} (item : MirrorItem) (s : State) (kh : Kept kq s) : Kept kq (State.linkBytes item s).2 := by
  unfold State.linkBytes
  try dsimp only
  repeat' first
    | with_reducible assumption
    | with_reducible apply draw_kept2
    | intro _
    | split
    | (refine draw_kept ?_ (by with_reducible assumption))
    | dsimp only
theorem linkBytes_keptE {kq : List Instr} {ko : State} {x0 : Nat} {item : MirrorItem} {s : State} (kh : Kept kq s) (ke : State.linkBytes item s = (x0,ko)) : Kept kq ko := by
  have kt := linkBytes_kept2 item s kh
  rw [ke] at kt
  exact kt

theorem pump_kept {kq : List Instr} (n : Nat) (s : State) (kh : Kept kq s) : Kept kq (State.pump n s) := by
  induction n generalizing s with
  | zero => exact kh
  | succ n ih =>
    unfold State.pump
    split
    · exact kh
    · exact ih _ (when_kept _ _ (fun k => count_kept _ _ k) (when_kept _ _ (fun k => count_kept _ _ k) (count_kept _ _ (emit_kept _ (onPair_kept _ (linkBytes_kept2 _ _ kh))))))

theorem mirror_kept {kq : List Instr} (key : Nat) (item : MirrorItem) (s : State) (kh : Kept kq s) : Kept kq (State.mirror key item s) := by
  unfold State.mirror
  try dsimp only
  repeat' first
    | with_reducible assumption
    | with_reducible apply onPair_kept
    | with_reducible apply pump_kept
    | intro _
    | split
    | dsimp only

theorem mirrorIf_kept {kq : List Instr} (key : Nat) (item : MirrorItem) (s : State) (kh : Kept kq s) : Kept kq (State.mirrorIf key item s) := by
  unfold State.mirrorIf
  try dsimp only
  repeat' first
    | with_reducible assumption
    | with_reducible apply when_kept
    | with_reducible apply mirror_kept
    | intro _
    | split
    | dsimp only

theorem syncIf_kept {kq : List Instr} (key : Nat) (item : MirrorItem) (s : State) (kh : Kept kq s) : Kept kq (State.syncIf key item s) := by
  unfold State.syncIf
  try dsimp only
  repeat' first
    | with_reducible assumption
    | with_reducible apply when_kept
    | with_reducible apply mirror_kept
    | intro _
    | split
    | dsimp only

end Sys2Proof.Machine
end

