-- ==== Sys2Proof/Laws/Kept/XprtBase.lean ====
section
/-!
SUPPORT. What the operations of Machine/XprtBase.lean keep.
-/
namespace Sys2Proof.Machine
open Sys2Proof

theorem setCtx_kept {kq : List Instr} (i : Nat) (c : Ctx) (s : State) (kh : Kept kq s) : Kept kq (State.setCtx i c s) := by
  unfold State.setCtx
  try dsimp only
  repeat' first
    | with_reducible assumption
    | with_reducible apply onXprt_kept
    | intro _
    | split
    | dsimp only

theorem onCtx_kept {kq : List Instr} (i : Nat) (g : Ctx → Ctx) (s : State) (kh : Kept kq s) : Kept kq (State.onCtx i g s) := by
  unfold State.onCtx
  try dsimp only
  repeat' first
    | with_reducible assumption
    | with_reducible apply setCtx_kept
    | intro _
    | split
    | dsimp only

theorem onRx_kept {kq : List Instr} (i : Nat) (g : CtxRx → CtxRx) (s : State) (kh : Kept kq s) : Kept kq (State.onRx i g s) := by
  unfold State.onRx
  try dsimp only
  repeat' first
    | with_reducible assumption
    | with_reducible apply onCtx_kept
    | intro _
    | split
    | dsimp only

theorem onTx_kept {kq : List Instr} (i : Nat) (g : CtxTx → CtxTx) (s : State) (kh : Kept kq s) : Kept kq (State.onTx i g s) := by
  unfold State.onTx
  try dsimp only
  repeat' first
    | with_reducible assumption
    | with_reducible apply onCtx_kept
    | intro _
    | split
    | dsimp only

theorem onCtxId_kept {kq : List Instr} (i : Nat) (g : CtxId → CtxId) (s : State) (kh : Kept kq s) : Kept kq (State.onCtxId i g s) := by
  unfold State.onCtxId
  try dsimp only
  repeat' first
    | with_reducible assumption
    | with_reducible apply onCtx_kept
    | intro _
    | split
    | dsimp only

theorem onCtxStat_kept {kq : List Instr} (i : Nat) (g : CtxStat → CtxStat) (s : State) (kh : Kept kq s) : Kept kq (State.onCtxStat i g s) := by
  unfold State.onCtxStat
  try dsimp only
  repeat' first
    | with_reducible assumption
    | with_reducible apply onCtx_kept
    | intro _
    | split
    | dsimp only

theorem onSeal_kept {kq : List Instr} (i : Nat) (g : CtxSeal → CtxSeal) (s : State) (kh : Kept kq s) : Kept kq (State.onSeal i g s) := by
  unfold State.onSeal
  try dsimp only
  repeat' first
    | with_reducible assumption
    | with_reducible apply onCtx_kept
    | intro _
    | split
    | dsimp only

theorem syncXprt_kept {kq : List Instr} (s : State) (kh : Kept kq s) : Kept kq (State.syncXprt s) := by
  unfold State.syncXprt
  try dsimp only
  repeat' first
    | with_reducible assumption
    | with_reducible apply count_kept
    | with_reducible apply setF_kept
    | intro _
    | split
    | dsimp only

theorem touch_kept {kq : List Instr} (i : Nat) (s : State) (kh : Kept kq s) : Kept kq (State.touch i s) := by
  unfold State.touch
  try dsimp only
  repeat' first
    | with_reducible assumption
    | with_reducible apply onXprt_kept
    | intro _
    | split
    | dsimp only

theorem evictCtx_kept {kq : List Instr} (v : Nat) (s : State) (kh : Kept kq s) : Kept kq (State.evictCtx v s) := by
  unfold State.evictCtx
  try dsimp only
  repeat' first
    | with_reducible assumption
    | with_reducible apply count_kept
    | with_reducible apply onXprt_kept
    | with_reducible apply when_kept
    | intro _
    | split
    | dsimp only

theorem cacheRoom_kept2 {kq : List Instr} (s : State) (kh : Kept kq s) : Kept kq (State.cacheRoom s).2 := by
  unfold State.cacheRoom
  try dsimp only
  repeat' first
    | with_reducible assumption
    | with_reducible apply evictCtx_kept
    | intro _
    | split
    | dsimp only
theorem cacheRoom_keptE {kq : List Instr} {ko : State} {x0 : Bool} {s : State} (kh : Kept kq s) (ke : State.cacheRoom s = (x0,ko)) : Kept kq ko := by
  have kt := cacheRoom_kept2 s kh
  rw [ke] at kt
  exact kt

theorem startFetch_kept {kq : List Instr} (i : Nat) (s : State) (kh : Kept kq s) : Kept kq (State.startFetch i s) := by
  unfold State.startFetch
  try dsimp only
  repeat' first
    | with_reducible assumption
    | with_reducible apply onXprt_kept
    | with_reducible apply syncXprt_kept
    | with_reducible apply cacheRoom_kept2
    | intro _
    | split
    | (refine cacheRoom_keptE ?_ (by with_reducible assumption))
    | dsimp only

theorem acquire_kept {kq : List Instr} (i : Nat) (s : State) (kh : Kept kq s) : Kept kq (State.acquire i s) := by
  unfold State.acquire
  try dsimp only
  repeat' first
    | with_reducible assumption
    | with_reducible apply count_kept
    | with_reducible apply when_kept
    | with_reducible apply touch_kept
    | with_reducible apply startFetch_kept
    | intro _
    | split
    | dsimp only

theorem useCtx_kept {kq : List Instr} (i : Nat) (j : CtxJob) (k : State → State) (s : State) (hk_k : ∀ u, Kept kq u → Kept kq (k u)) (kh : Kept kq s) : Kept kq (State.useCtx i j k s) := by
  unfold State.useCtx
  try dsimp only
  repeat' first
    | with_reducible assumption
    | with_reducible apply count_kept
    | with_reducible apply onXprt_kept
    | with_reducible apply touch_kept
    | with_reducible apply startFetch_kept
    | with_reducible apply hk_k
    | intro _
    | split
    | dsimp only

theorem setKeySlot_kept {kq : List Instr} (i : Nat) (k : Bool) (v : KeySlot) (s : State) (kh : Kept kq s) : Kept kq (State.setKeySlot i k v s) := by
  unfold State.setKeySlot
  try dsimp only
  repeat' first
    | with_reducible assumption
    | with_reducible apply onGard_kept
    | intro _
    | split
    | dsimp only

theorem rekeyTx_kept {kq : List Instr} (i : Nat) (s : State) (kh : Kept kq s) : Kept kq (State.rekeyTx i s) := by
  unfold State.rekeyTx
  try dsimp only
  repeat' first
    | with_reducible assumption
    | with_reducible apply count_kept
    | with_reducible apply occur_kept
    | with_reducible apply onXprt_kept
    | with_reducible apply when_kept
    | with_reducible apply onSeal_kept
    | intro _
    | split
    | dsimp only

theorem sealPkt_kept2 {kq : List Instr} (i : Nat) (p : OutPkt) (s : State) (kh : Kept kq s) : Kept kq (State.sealPkt i p s).2 := by
  unfold State.sealPkt
  try dsimp only
  repeat' first
    | with_reducible assumption
    | with_reducible apply count_kept
    | with_reducible apply onSeal_kept
    | with_reducible apply rekeyTx_kept
    | with_reducible exact optKept_none
    | with_reducible apply optKept_some
    | with_reducible apply optKept_map
    | with_reducible apply optKept_foldl
    | exact OptKept.kept (by assumption) _ rfl
    | intro _
    | split
    | dsimp only
theorem sealPkt_keptE {kq : List Instr} {ko : State} {x0 : Option (OutPkt × Option SealTrailer)} {i : Nat} {p : OutPkt} {s : State} (kh : Kept kq s) (ke : State.sealPkt i p s = (x0,ko)) : Kept kq ko := by
  have kt := sealPkt_kept2 i p s kh
  rw [ke] at kt
  exact kt

theorem openFail_kept2 {kq : List Instr} (i : Nat) (k : Bool) (s : State) (kh : Kept kq s) : Kept kq (State.openFail i k s).2 := by
  unfold State.openFail
  try dsimp only
  repeat' first
    | with_reducible assumption
    | with_reducible apply count_kept
    | with_reducible apply occur_kept
    | with_reducible apply setKeySlot_kept
    | intro _
    | split
    | dsimp only
theorem openFail_keptE {kq : List Instr} {ko : State} {x0 : Opened} {i : Nat} {k : Bool} {s : State} (kh : Kept kq s) (ke : State.openFail i k s = (x0,ko)) : Kept kq ko := by
  have kt := openFail_kept2 i k s kh
  rw [ke] at kt
  exact kt

theorem openPkt_kept2 {kq : List Instr} (i : Nat) (p : Packet) (s : State) (kh : Kept kq s) : Kept kq (State.openPkt i p s).2 := by
  unfold State.openPkt
  try dsimp only
  repeat' first
    | with_reducible assumption
    | with_reducible apply count_kept
    | with_reducible apply onSeal_kept
    | with_reducible apply setKeySlot_kept
    | with_reducible apply openFail_kept2
    | intro _
    | split
    | (refine openFail_keptE ?_ (by with_reducible assumption))
    | dsimp only
theorem openPkt_keptE {kq : List Instr} {ko : State} {x0 : Opened} {i : Nat} {p : Packet} {s : State} (kh : Kept kq s) (ke : State.openPkt i p s = (x0,ko)) : Kept kq ko := by
  have kt := openPkt_kept2 i p s kh
  rw [ke] at kt
  exact kt

theorem frameOut_kept {kq : List Instr} (f : HeldFrame) (s : State) (kh : Kept kq s) : Kept kq (State.frameOut f s) := by
  unfold State.frameOut
  try dsimp only
  repeat' first
    | with_reducible assumption
    | with_reducible apply count_kept
    | with_reducible apply emit_kept
    | with_reducible apply onPtp_kept
    | with_reducible apply txFrame_kept
    | with_reducible apply onCtxStat_kept
    | exact kh.half
    | exact kh.sec
    | intro _
    | split
    | dsimp only

theorem lineSend_kept {kq : List Instr} (f : HeldFrame) (s : State) (kh : Kept kq s) : Kept kq (State.lineSend f s) := by
  unfold State.lineSend
  try dsimp only
  repeat' first
    | with_reducible assumption
    | with_reducible apply count_kept
    | with_reducible apply onLine_kept
    | with_reducible apply when_kept
    | with_reducible apply frameOut_kept
    | intro _
    | split
    | dsimp only

theorem releaseHeld_kept {kq : List Instr} (s : State) (kh : Kept kq s) : Kept kq (State.releaseHeld s) := by
  unfold State.releaseHeld
  try dsimp only
  repeat' first
    | with_reducible assumption
    | with_reducible apply onLine_kept
    | with_reducible apply lineSend_kept
    | with_reducible apply foldl_kept
    | intro _
    | split
    | dsimp only

theorem transmit_kept {kq : List Instr} (i port : Nat) (p : OutPkt) (t : Option SealTrailer) (s : State) (kh : Kept kq s) : Kept kq (State.transmit i port p t s) := by
  unfold State.transmit
  try dsimp only
  repeat' first
    | with_reducible assumption
    | with_reducible apply lineSend_kept
    | intro _
    | split
    | dsimp only

theorem sendNow_kept {kq : List Instr} (i : Nat) (p : OutPkt) (s : State) (kh : Kept kq s) : Kept kq (State.sendNow i p s) := by
  unfold State.sendNow
  try dsimp only
  repeat' first
    | with_reducible assumption
    | with_reducible apply sealPkt_kept2
    | with_reducible apply transmit_kept
    | intro _
    | split
    | (refine sealPkt_keptE ?_ (by with_reducible assumption))
    | dsimp only

theorem sendCm_kept {kq : List Instr} (port : Nat) (h : NetHdr) (o : Emit) (s : State) (kh : Kept kq s) : Kept kq (State.sendCm port h o s) := by
  unfold State.sendCm
  try dsimp only
  repeat' first
    | with_reducible assumption
    | with_reducible apply lineSend_kept
    | intro _
    | split
    | dsimp only

theorem cmOn_kept {kq : List Instr} (i : Nat) (o : Nat → NetHdr → Emit) (s : State) (kh : Kept kq s) : Kept kq (State.cmOn i o s) := by
  unfold State.cmOn
  try dsimp only
  repeat' first
    | with_reducible assumption
    | with_reducible apply sendCm_kept
    | intro _
    | split
    | dsimp only

theorem sendReply_kept {kq : List Instr} (i : Nat) (r : Reply) (s : State) (kh : Kept kq s) : Kept kq (State.sendReply i r s) := by
  unfold State.sendReply
  try dsimp only
  repeat' first
    | with_reducible assumption
    | with_reducible apply count_kept
    | with_reducible apply onRx_kept
    | with_reducible apply sendNow_kept
    | with_reducible apply ack_kept
    | intro _
    | split
    | dsimp only

theorem releaseReplies_kept {kq : List Instr} (i n : Nat) (s : State) (kh : Kept kq s) : Kept kq (State.releaseReplies i n s) := by
  induction n generalizing s with
  | zero => exact kh
  | succ n ih =>
    unfold State.releaseReplies
    dsimp only
    split
    · exact kh
    · split
      · exact kh
      · split
        · split
          · exact kh
          · exact count_kept _ _ (onRx_kept _ _ _ (mirror_kept _ _ _ kh))
        · exact ih _ (sendReply_kept _ _ _ (onRx_kept _ _ _ kh))

theorem reply_kept {kq : List Instr} (i : Nat) (aeth : Aeth) (psn : Nat) (s : State) (kh : Kept kq s) : Kept kq (State.reply i aeth psn s) := by
  unfold State.reply
  try dsimp only
  repeat' first
    | with_reducible assumption
    | with_reducible apply onRx_kept
    | with_reducible apply releaseReplies_kept
    | intro _
    | split
    | dsimp only

theorem ack_kept {kq : List Instr} (i : Nat) (s : State) (kh : Kept kq s) : Kept kq (State.ack i s) := by
  unfold State.ack
  try dsimp only
  repeat' first
    | with_reducible assumption
    | with_reducible apply reply_kept
    | intro _
    | split
    | dsimp only

theorem maybeCnp_kept {kq : List Instr} (i : Nat) (ce : Bool) (s : State) (kh : Kept kq s) : Kept kq (State.maybeCnp i ce s) := by
  unfold State.maybeCnp
  try dsimp only
  repeat' first
    | with_reducible assumption
    | with_reducible apply count_kept
    | with_reducible apply onTx_kept
    | with_reducible apply sendNow_kept
    | intro _
    | split
    | dsimp only

theorem learnPath_kept {kq : List Instr} (i : Nat) (rx : RxMeta) (len : Nat) (s : State) (kh : Kept kq s) : Kept kq (State.learnPath i rx len s) := by
  unfold State.learnPath
  try dsimp only
  repeat' first
    | with_reducible assumption
    | with_reducible apply onCtx_kept
    | with_reducible apply rxBytes_kept
    | intro _
    | split
    | dsimp only

end Sys2Proof.Machine
end

