-- ==== Sys2Proof/Laws/Kept/KeyOps.lean ====
section
/-!
SUPPORT. What the operations of Machine/KeyOps.lean keep.
-/
namespace Sys2Proof.Machine
open Sys2Proof

theorem setKey_kept {kq : List Instr} (i : Nat) (k : KeyEnt) (s : State) (kh : Kept kq s) : Kept kq (State.setKey i k s) := by
  unfold State.setKey
  try dsimp only
  repeat' first
    | with_reducible assumption
    | with_reducible apply onGard_kept
    | intro _
    | split
    | dsimp only

theorem syncKeys_kept {kq : List Instr} (s : State) (kh : Kept kq s) : Kept kq (State.syncKeys s) := by
  unfold State.syncKeys
  try dsimp only
  repeat' first
    | with_reducible assumption
    | with_reducible apply count_kept
    | with_reducible apply setF_kept
    | intro _
    | split
    | dsimp only

theorem keyPass_kept {kq : List Instr} (idx : Nat) (s : State) (kh : Kept kq s) : Kept kq (State.keyPass idx s) := by
  unfold State.keyPass
  try dsimp only
  repeat' first
    | with_reducible assumption
    | with_reducible apply count_kept
    | with_reducible apply setKey_kept
    | intro _
    | split
    | dsimp only

theorem keyFail_kept {kq : List Instr} (step key qpn opcode : Nat) (dup : Bool) (tenant va len : Nat) (s : State) (kh : Kept kq s) : Kept kq (State.keyFail step key qpn opcode dup tenant va len s) := by
  unfold State.keyFail
  try dsimp only
  repeat' first
    | with_reducible assumption
    | with_reducible apply count_kept
    | with_reducible apply onGard_kept
    | with_reducible apply setF_kept
    | intro _
    | split
    | dsimp only

theorem keyEnd_kept {kq : List Instr} (idx : Nat) (s : State) (kh : Kept kq s) : Kept kq (State.keyEnd idx s) := by
  unfold State.keyEnd
  try dsimp only
  repeat' first
    | with_reducible assumption
    | with_reducible apply setKey_kept
    | intro _
    | split
    | dsimp only

theorem keyTouch_kept {kq : List Instr} (idx : Nat) (s : State) (kh : Kept kq s) : Kept kq (State.keyTouch idx s) := by
  unfold State.keyTouch
  try dsimp only
  repeat' first
    | with_reducible assumption
    | with_reducible apply onGard_kept
    | intro _
    | split
    | dsimp only

theorem applyKeyChange_kept {kq : List Instr} (c : KeyChange) (s : State) (kh : Kept kq s) : Kept kq (State.applyKeyChange c s) := by
  unfold State.applyKeyChange
  try dsimp only
  repeat' first
    | with_reducible assumption
    | with_reducible apply count_kept
    | with_reducible apply onFab_kept
    | with_reducible apply setF_kept
    | with_reducible apply setKey_kept
    | with_reducible apply syncKeys_kept
    | intro _
    | split
    | dsimp only

theorem keyChange_kept {kq : List Instr} (idx : Nat) (c : KeyChange) (s : State) (kh : Kept kq s) : Kept kq (State.keyChange idx c s) := by
  unfold State.keyChange
  try dsimp only
  repeat' first
    | with_reducible assumption
    | with_reducible apply onGard_kept
    | with_reducible apply mirror_kept
    | with_reducible apply syncIf_kept
    | with_reducible apply applyKeyChange_kept
    | intro _
    | split
    | dsimp only

theorem keyConfirm_kept {kq : List Instr} (s : State) (kh : Kept kq s) : Kept kq (State.keyConfirm s) := by
  unfold State.keyConfirm
  try dsimp only
  repeat' first
    | with_reducible assumption
    | with_reducible apply onGard_kept
    | with_reducible apply mirrorIf_kept
    | with_reducible apply applyKeyChange_kept
    | with_reducible apply keyChange_kept
    | intro _
    | split
    | dsimp only

end Sys2Proof.Machine
end

