-- ==== Sys2Proof/Laws/Kept/RegnOps.lean ====
section
/-!
SUPPORT. What the operations of Machine/RegnOps.lean keep.
-/
namespace Sys2Proof.Machine
open Sys2Proof

theorem setRegion_kept {kq : List Instr} (i : Nat) (r : RegionEnt) (s : State) (kh : Kept kq s) : Kept kq (State.setRegion i r s) := by
  unfold State.setRegion
  try dsimp only
  repeat' first
    | with_reducible assumption
    | (with_reducible apply onRegn_kept <;> first | (intro g hg; exact hg) | skip)
    | intro _
    | split
    | dsimp only

theorem syncRegions_kept {kq : List Instr} (s : State) (kh : Kept kq s) : Kept kq (State.syncRegions s) := by
  unfold State.syncRegions
  try dsimp only
  repeat' first
    | with_reducible assumption
    | with_reducible apply setF_kept
    | intro _
    | split
    | dsimp only

theorem submit_kept {kq : List Instr} (i : Nat) (w : TxWork) (s : State) (kh : Kept kq s) : Kept kq (State.submit i w s) := by
  unfold State.submit
  try dsimp only
  repeat' first
    | with_reducible assumption
    | with_reducible apply onTx_kept
    | intro _
    | split
    | dsimp only

theorem respondFor_kept {kq : List Instr} (i op tag status : Nat) (solo : Bool) (nseq : Nat) (key : Option Nat) (s : State) (kh : Kept kq s) : Kept kq (State.respondFor i op tag status solo nseq key s) := by
  unfold State.respondFor
  try dsimp only
  repeat' first
    | with_reducible assumption
    | with_reducible apply submit_kept
    | intro _
    | split
    | dsimp only

theorem respond_kept {kq : List Instr} (i op tag status : Nat) (solo : Bool) (nseq : Nat) (s : State) (kh : Kept kq s) : Kept kq (State.respond i op tag status solo nseq s) := by
  unfold State.respond
  try dsimp only
  repeat' first
    | with_reducible assumption
    | with_reducible apply respondFor_kept
    | intro _
    | split
    | dsimp only

theorem ctlProto_kept {kq : List Instr} (s : State) (kh : Kept kq s) : Kept kq (State.ctlProto s) := by
  unfold State.ctlProto
  try dsimp only
  repeat' first
    | with_reducible assumption
    | with_reducible apply count_kept
    | with_reducible apply occur_kept
    | intro _
    | split
    | dsimp only

theorem syncFlushes_kept {kq : List Instr} (s : State) (kh : Kept kq s) : Kept kq (State.syncFlushes s) := by
  unfold State.syncFlushes
  try dsimp only
  repeat' first
    | with_reducible assumption
    | with_reducible apply setF_kept
    | intro _
    | split
    | dsimp only

theorem setSub_kept {kq : List Instr} (i : Nat) (e : SubEnt) (s : State) (kh : Kept kq s) : Kept kq (State.setSub i e s) := by
  unfold State.setSub
  try dsimp only
  repeat' first
    | with_reducible assumption
    | (with_reducible apply onRegn_kept <;> first | (intro g hg; exact hg) | skip)
    | intro _
    | split
    | dsimp only

theorem dropSub_kept {kq : List Instr} (i : Nat) (s : State) (kh : Kept kq s) : Kept kq (State.dropSub i s) := by
  unfold State.dropSub
  try dsimp only
  repeat' first
    | with_reducible assumption
    | (with_reducible apply onRegn_kept <;> first | (intro g hg; exact hg) | skip)
    | intro _
    | split
    | dsimp only

theorem endSub_kept {kq : List Instr} (i : Nat) (s : State) (kh : Kept kq s) : Kept kq (State.endSub i s) := by
  unfold State.endSub
  try dsimp only
  repeat' first
    | with_reducible assumption
    | with_reducible apply mirrorIf_kept
    | with_reducible apply dropSub_kept
    | intro _
    | split
    | dsimp only

theorem notifySub_kept {kq : List Instr} (imm region offset len qpn : Nat) (s : State) (i : Nat) (kh : Kept kq s) : Kept kq (State.notifySub imm region offset len qpn s i) := by
  unfold State.notifySub
  try dsimp only
  repeat' first
    | with_reducible assumption
    | with_reducible apply count_kept
    | with_reducible apply occur_kept
    | with_reducible apply mirrorIf_kept
    | with_reducible apply setSub_kept
    | intro _
    | split
    | dsimp only

theorem notifyRegion_kept {kq : List Instr} (w : RegWrite) (imm : Nat) (s : State) (kh : Kept kq s) : Kept kq (State.notifyRegion w imm s) := by
  unfold State.notifyRegion
  try dsimp only
  repeat' first
    | with_reducible assumption
    | with_reducible apply count_kept
    | with_reducible apply notifySub_kept
    | with_reducible apply foldl_kept
    | intro _
    | split
    | dsimp only

theorem meterRegion_kept {kq : List Instr} (i bytes : Nat) (s : State) (kh : Kept kq s) : Kept kq (State.meterRegion i bytes s) := by
  unfold State.meterRegion
  try dsimp only
  repeat' first
    | with_reducible assumption
    | with_reducible apply addMeter_kept
    | intro _
    | split
    | dsimp only

theorem placed_kept {kq : List Instr} (w : RegWrite) (s : State) (kh : Kept kq s) : Kept kq (State.placed w s) := by
  unfold State.placed
  try dsimp only
  repeat' first
    | with_reducible assumption
    | with_reducible apply count_kept
    | (with_reducible apply onRegn_kept <;> first | (intro g hg; exact hg) | skip)
    | with_reducible apply when_kept
    | with_reducible apply mirrorIf_kept
    | with_reducible apply keyEnd_kept
    | with_reducible apply setRegion_kept
    | with_reducible apply notifyRegion_kept
    | with_reducible apply meterRegion_kept
    | intro _
    | split
    | dsimp only

theorem placeAll_kept {kq : List Instr} (n : Nat) (s : State) (kh : Kept kq s) : Kept kq (State.placeAll n s) := by
  induction n generalizing s with
  | zero => exact kh
  | succ n ih =>
    unfold State.placeAll
    split
    · exact kh
    · exact ih _ (placed_kept _ _ kh)

theorem flushDone_kept {kq : List Instr} (f : FlushWait) (s : State) (kh : Kept kq s) : Kept kq (State.flushDone f s) := by
  unfold State.flushDone
  try dsimp only
  repeat' first
    | with_reducible assumption
    | with_reducible apply count_kept
    | (with_reducible apply onRegn_kept <;> first | (intro g hg; exact hg) | skip)
    | with_reducible apply respondFor_kept
    | with_reducible apply ctlProto_kept
    | with_reducible apply syncFlushes_kept
    | intro _
    | split
    | dsimp only

theorem flushAll_kept {kq : List Instr} (n : Nat) (s : State) (kh : Kept kq s) : Kept kq (State.flushAll n s) := by
  induction n generalizing s with
  | zero => exact kh
  | succ n ih =>
    unfold State.flushAll
    split
    · exact kh
    · exact ih _ (flushDone_kept _ _ kh)

theorem settle_kept {kq : List Instr} (s : State) (kh : Kept kq s) : Kept kq (State.settle s) := by
  unfold State.settle
  try dsimp only
  repeat' first
    | with_reducible assumption
    | with_reducible apply placeAll_kept
    | with_reducible apply flushAll_kept
    | intro _
    | split
    | dsimp only

theorem onWrite_kept {kq : List Instr} (id : Nat) (g : RegWrite → RegWrite) (s : State) (kh : Kept kq s) : Kept kq (State.onWrite id g s) := by
  unfold State.onWrite
  try dsimp only
  repeat' first
    | with_reducible assumption
    | (with_reducible apply onRegn_kept <;> first | (intro g hg; exact hg) | skip)
    | intro _
    | split
    | dsimp only

theorem markDirty_kept {kq : List Instr} (a n : Nat) (s : State) (kh : Kept kq s) : Kept kq (State.markDirty a n s) := by
  unfold State.markDirty
  try dsimp only
  repeat' first
    | with_reducible assumption
    | (with_reducible apply onRegn_kept <;> first | (intro g hg; exact hg) | skip)
    | with_reducible apply setF_kept
    | with_reducible apply foldl_kept
    | intro _
    | split
    | dsimp only

theorem syncDirty_kept {kq : List Instr} (s : State) (kh : Kept kq s) : Kept kq (State.syncDirty s) := by
  unfold State.syncDirty
  try dsimp only
  repeat' first
    | with_reducible assumption
    | with_reducible apply setF_kept
    | intro _
    | split
    | dsimp only

theorem localPlace_kept {kq : List Instr} (id : Nat) (ue : Bool) (s : State) (kh : Kept kq s) : Kept kq (State.localPlace id ue s) := by
  unfold State.localPlace
  try dsimp only
  repeat' first
    | with_reducible assumption
    | with_reducible apply occur_kept
    | (with_reducible apply onRegn_kept <;> first | (intro g hg; exact hg) | skip)
    | with_reducible apply when_kept
    | with_reducible apply syncIf_kept
    | with_reducible apply settle_kept
    | with_reducible apply onWrite_kept
    | with_reducible apply markDirty_kept
    | (refine memPieces_wf _ _ _ ?_; assumption)
    | (refine memWrite_wf _ _ _ ?_; assumption)
    | with_reducible apply foldl_kept
    | intro _
    | split
    | dsimp only

theorem wholeWrite_kept {kq : List Instr} (id : Nat) (s : State) (kh : Kept kq s) : Kept kq (State.wholeWrite id s) := by
  unfold State.wholeWrite
  try dsimp only
  repeat' first
    | with_reducible assumption
    | with_reducible apply mirror_kept
    | with_reducible apply settle_kept
    | with_reducible apply onWrite_kept
    | intro _
    | split
    | dsimp only

theorem confirmWrite_kept {kq : List Instr} (id : Nat) (s : State) (kh : Kept kq s) : Kept kq (State.confirmWrite id s) := by
  unfold State.confirmWrite
  try dsimp only
  repeat' first
    | with_reducible assumption
    | with_reducible apply settle_kept
    | with_reducible apply onWrite_kept
    | intro _
    | split
    | dsimp only

theorem soloWrites_kept {kq : List Instr} (s : State) (kh : Kept kq s) : Kept kq (State.soloWrites s) := by
  unfold State.soloWrites
  try dsimp only
  repeat' first
    | with_reducible assumption
    | (with_reducible apply onRegn_kept <;> first | (intro g hg; exact hg) | skip)
    | with_reducible apply settle_kept
    | intro _
    | split
    | dsimp only

theorem newWrite_kept {kq : List Instr} (w : RegWrite) (s : State) (kh : Kept kq s) : Kept kq (State.newWrite w s) := by
  unfold State.newWrite
  try dsimp only
  repeat' first
    | with_reducible assumption
    | (with_reducible apply onRegn_kept <;> first | (intro g hg; exact hg) | skip)
    | intro _
    | split
    | dsimp only

theorem cutWrite_kept {kq : List Instr} (id : Nat) (s : State) (kh : Kept kq s) : Kept kq (State.cutWrite id s) := by
  unfold State.cutWrite
  try dsimp only
  repeat' first
    | with_reducible assumption
    | with_reducible apply mirrorIf_kept
    | with_reducible apply onWrite_kept
    | intro _
    | split
    | dsimp only

theorem regnConnLost_kept {kq : List Instr} (i : Nat) (s : State) (kh : Kept kq s) : Kept kq (State.regnConnLost i s) := by
  unfold State.regnConnLost
  try dsimp only
  repeat' first
    | with_reducible assumption
    | with_reducible apply onGard_kept
    | (with_reducible apply onRegn_kept <;> first | (intro g hg; exact hg) | skip)
    | with_reducible apply keyEnd_kept
    | with_reducible apply syncFlushes_kept
    | with_reducible apply endSub_kept
    | with_reducible apply settle_kept
    | with_reducible apply cutWrite_kept
    | with_reducible apply foldl_kept
    | intro _
    | split
    | dsimp only

end Sys2Proof.Machine
end

