-- ==== Sys2Proof/Laws/Kept/CmdqOps.lean ====
section
/-!
SUPPORT. What the operations of Machine/CmdqOps.lean keep.
-/
namespace Sys2Proof.Machine
open Sys2Proof

theorem setSlot_kept {kq : List Instr} (n : Nat) (v : Slot) (s : State) (kh : Kept kq s) : Kept kq (State.setSlot n v s) := by
  unfold State.setSlot
  try dsimp only
  repeat' first
    | with_reducible assumption
    | with_reducible apply onCmdq_kept
    | intro _
    | split
    | dsimp only

theorem onSlot_kept {kq : List Instr} (n : Nat) (g : Slot → Slot) (s : State) (kh : Kept kq s) : Kept kq (State.onSlot n g s) := by
  unfold State.onSlot
  try dsimp only
  repeat' first
    | with_reducible assumption
    | with_reducible apply setSlot_kept
    | intro _
    | split
    | dsimp only

theorem setQueue_kept {kq : List Instr} (i : Nat) (q : Queue) (s : State) (kh : Kept kq s) : Kept kq (State.setQueue i q s) := by
  unfold State.setQueue
  try dsimp only
  repeat' first
    | with_reducible assumption
    | with_reducible apply onCmdq_kept
    | intro _
    | split
    | dsimp only

theorem setCtrl_kept {kq : List Instr} (k : Nat) (v : Ctrl) (s : State) (kh : Kept kq s) : Kept kq (State.setCtrl k v s) := by
  unfold State.setCtrl
  try dsimp only
  repeat' first
    | with_reducible assumption
    | with_reducible apply onCmdq_kept
    | intro _
    | split
    | dsimp only

theorem syncCmdq_kept {kq : List Instr} (s : State) (kh : Kept kq s) : Kept kq (State.syncCmdq s) := by
  unfold State.syncCmdq
  try dsimp only
  repeat' first
    | with_reducible assumption
    | with_reducible apply setF_kept
    | intro _
    | split
    | dsimp only

theorem dropRefs_kept {kq : List Instr} (n : Nat) (s : State) (kh : Kept kq s) : Kept kq (State.dropRefs n s) := by
  unfold State.dropRefs
  try dsimp only
  repeat' first
    | with_reducible assumption
    | with_reducible apply onCmdq_kept
    | intro _
    | split
    | dsimp only
    | with_reducible apply lit_kept

theorem freeSlot_kept {kq : List Instr} (n : Nat) (s : State) (kh : Kept kq s) : Kept kq (State.freeSlot n s) := by
  unfold State.freeSlot
  try dsimp only
  repeat' first
    | with_reducible assumption
    | with_reducible apply onCmdq_kept
    | with_reducible apply onTmgr_kept
    | with_reducible apply keepDeficits_kept
    | with_reducible apply dropKind_kept
    | with_reducible apply onTx_kept
    | with_reducible apply syncCmdq_kept
    | with_reducible apply dropRefs_kept
    | intro _
    | split
    | dsimp only
    | with_reducible apply lit_kept

theorem smartCmd_kept {kq : List Instr} (v : Slot) (s : State) (kh : Kept kq s) : Kept kq (State.smartCmd v s) := by
  unfold State.smartCmd
  try dsimp only
  repeat' first
    | with_reducible assumption
    | with_reducible apply onCmdq_kept
    | intro _
    | split
    | dsimp only

theorem meterCmd_kept {kq : List Instr} (v : Slot) (s0 : State) (kh : Kept kq s0) : Kept kq (State.meterCmd v s0) := by
  unfold State.meterCmd
  try dsimp only
  repeat' first
    | with_reducible assumption
    | with_reducible apply addMeter_kept
    | with_reducible apply smartCmd_kept
    | intro _
    | split
    | dsimp only

theorem submitData_kept {kq : List Instr} (n : Nat) (v : Slot) (s : State) (kh : Kept kq s) : Kept kq (State.submitData n v s) := by
  unfold State.submitData
  try dsimp only
  repeat' first
    | with_reducible assumption
    | with_reducible apply submit_kept
    | with_reducible apply foldl_kept
    | intro _
    | split
    | dsimp only

theorem finishCommitted_kept {kq : List Instr} (n : Nat) (s : State) (kh : Kept kq s) : Kept kq (State.finishCommitted n s) := by
  unfold State.finishCommitted
  try dsimp only
  repeat' first
    | with_reducible assumption
    | with_reducible apply count_kept
    | with_reducible apply submit_kept
    | with_reducible apply setSlot_kept
    | with_reducible apply syncCmdq_kept
    | with_reducible apply freeSlot_kept
    | with_reducible apply meterCmd_kept
    | with_reducible apply submitData_kept
    | with_reducible apply fetched_kept
    | intro _
    | split
    | dsimp only

theorem commitSlot_kept {kq : List Instr} (n : Nat) (c : Cpl) (s : State) (kh : Kept kq s) : Kept kq (State.commitSlot n c s) := by
  unfold State.commitSlot
  try dsimp only
  repeat' first
    | with_reducible assumption
    | with_reducible apply onTmgr_kept
    | with_reducible apply keepDeficits_kept
    | with_reducible apply mirrorIf_kept
    | with_reducible apply setSlot_kept
    | with_reducible apply dropRefs_kept
    | with_reducible apply finishCommitted_kept
    | intro _
    | split
    | dsimp only

theorem setOutcome_kept {kq : List Instr} (n : Nat) (c : Cpl) (s : State) (kh : Kept kq s) : Kept kq (State.setOutcome n c s) := by
  unfold State.setOutcome
  try dsimp only
  repeat' first
    | with_reducible assumption
    | with_reducible apply onSlot_kept
    | intro _
    | split
    | dsimp only

theorem workReturned_kept {kq : List Instr} (n : Nat) (s : State) (kh : Kept kq s) : Kept kq (State.workReturned n s) := by
  unfold State.workReturned
  try dsimp only
  repeat' first
    | with_reducible assumption
    | with_reducible apply freeSlot_kept
    | with_reducible apply finishCommitted_kept
    | intro _
    | split
    | dsimp only

theorem readArrived_kept {kq : List Instr} (n : Nat) (d : Blob) (s : State) (kh : Kept kq s) : Kept kq (State.readArrived n d s) := by
  unfold State.readArrived
  try dsimp only
  repeat' first
    | with_reducible assumption
    | with_reducible apply dropKind_kept
    | with_reducible apply setSlot_kept
    | with_reducible apply workReturned_kept
    | with_reducible apply fetched_kept
    | intro _
    | split
    | dsimp only

theorem abandonSlot_kept {kq : List Instr} (lost : Bool) (n : Nat) (v : Slot) (s : State) (kh : Kept kq s) : Kept kq (State.abandonSlot lost n v s) := by
  unfold State.abandonSlot
  try dsimp only
  repeat' first
    | with_reducible assumption
    | with_reducible apply setSlot_kept
    | with_reducible apply commitSlot_kept
    | intro _
    | split
    | dsimp only

theorem slotConnLost_kept {kq : List Instr} (s : State) (n : Nat) (kh : Kept kq s) : Kept kq (State.slotConnLost s n) := by
  unfold State.slotConnLost
  try dsimp only
  repeat' first
    | with_reducible assumption
    | with_reducible apply setSlot_kept
    | with_reducible apply freeSlot_kept
    | with_reducible apply finishCommitted_kept
    | with_reducible apply abandonSlot_kept
    | with_reducible apply fetched_kept
    | intro _
    | split
    | dsimp only

theorem dropQueue_kept {kq : List Instr} (i : Nat) (s : State) (kh : Kept kq s) : Kept kq (State.dropQueue i s) := by
  unfold State.dropQueue
  try dsimp only
  repeat' first
    | with_reducible assumption
    | with_reducible apply onCmdq_kept
    | with_reducible apply syncCmdq_kept
    | intro _
    | split
    | dsimp only

theorem cmdqConnLost_kept {kq : List Instr} (i : Nat) (s : State) (kh : Kept kq s) : Kept kq (State.cmdqConnLost i s) := by
  unfold State.cmdqConnLost
  try dsimp only
  repeat' first
    | with_reducible assumption
    | with_reducible apply slotConnLost_kept
    | with_reducible apply dropQueue_kept
    | with_reducible apply foldl_kept
    | intro _
    | split
    | dsimp only

theorem postEvents_kept {kq : List Instr} (k : Nat) (s : State) (kh : Kept kq s) : Kept kq (State.postEvents k s) := by
  unfold State.postEvents
  try dsimp only
  repeat' first
    | with_reducible assumption
    | with_reducible apply count_kept
    | with_reducible apply setCtrl_kept
    | with_reducible apply commitSlot_kept
    | intro _
    | split
    | dsimp only

theorem raiseEvent_kept {kq : List Instr} (e : AsyncEvt) (s : State) (k : Nat) (kh : Kept kq s) : Kept kq (State.raiseEvent e s k) := by
  unfold State.raiseEvent
  try dsimp only
  repeat' first
    | with_reducible assumption
    | with_reducible apply setCtrl_kept
    | with_reducible apply postEvents_kept
    | intro _
    | split
    | dsimp only

theorem deferredErr_kept {kq : List Instr} (volume cause slba nlb : Nat) (s : State) (kh : Kept kq s) : Kept kq (State.deferredErr volume cause slba nlb s) := by
  unfold State.deferredErr
  try dsimp only
  repeat' first
    | with_reducible assumption
    | with_reducible apply count_kept
    | with_reducible apply occur_kept
    | with_reducible apply onCmdq_kept
    | with_reducible apply raiseEvent_kept
    | with_reducible apply foldl_kept
    | intro _
    | split
    | dsimp only

end Sys2Proof.Machine
end

