-- ==== Sys2Proof/Laws/Kept/ConnOps.lean ====
section
/-!
SUPPORT. What the operations of Machine/ConnOps.lean keep.
-/
namespace Sys2Proof.Machine
open Sys2Proof

theorem dropRxUnit_kept {kq : List Instr} (rx : RxMeta) (s : State) (kh : Kept kq s) : Kept kq (State.dropRxUnit rx s) := by
  unfold State.dropRxUnit
  try dsimp only
  repeat' first
    | with_reducible assumption
    | with_reducible apply dropUnit_kept
    | intro _
    | split
    | dsimp only

theorem dropChecks_kept {kq : List Instr} (i : Nat) (later : Nat → Bool) (s : State) (kh : Kept kq s) : Kept kq (State.dropChecks i later s) := by
  unfold State.dropChecks
  try dsimp only
  repeat' first
    | with_reducible assumption
    | with_reducible apply onGard_kept
    | (with_reducible apply onRegn_kept <;> first | (intro g hg; exact hg) | skip)
    | with_reducible apply dropRxUnit_kept
    | with_reducible apply foldl_kept
    | intro _
    | split
    | dsimp only

theorem connLost_kept {kq : List Instr} (i : Nat) (s0 : State) (kh : Kept kq s0) : Kept kq (State.connLost i s0) := by
  unfold State.connLost
  try dsimp only
  repeat' first
    | with_reducible assumption
    | with_reducible apply onTmgr_kept
    | with_reducible apply keepDeficits_kept
    | with_reducible apply dropKind_kept
    | with_reducible apply onCtx_kept
    | with_reducible apply onTx_kept
    | with_reducible apply keyEnd_kept
    | with_reducible apply regnConnLost_kept
    | with_reducible apply cmdqConnLost_kept
    | with_reducible apply dropChecks_kept
    | with_reducible apply foldl_kept
    | intro _
    | split
    | dsimp only

theorem dropReplies_kept {kq : List Instr} (i : Nat) (s : State) (kh : Kept kq s) : Kept kq (State.dropReplies i s) := by
  unfold State.dropReplies
  try dsimp only
  repeat' first
    | with_reducible assumption
    | with_reducible apply onRx_kept
    | intro _
    | split
    | dsimp only

theorem setConnState_kept {kq : List Instr} (i : Nat) (st : ConnState) (s : State) (kh : Kept kq s) : Kept kq (State.setConnState i st s) := by
  unfold State.setConnState
  try dsimp only
  repeat' first
    | with_reducible assumption
    | with_reducible apply onCtx_kept
    | intro _
    | split
    | dsimp only

theorem enterError_kept {kq : List Instr} (i cause : Nat) (s : State) (kh : Kept kq s) : Kept kq (State.enterError i cause s) := by
  unfold State.enterError
  try dsimp only
  repeat' first
    | with_reducible assumption
    | with_reducible apply count_kept
    | with_reducible apply occur_kept
    | with_reducible apply when_kept
    | with_reducible apply onCtx_kept
    | with_reducible apply releaseReplies_kept
    | with_reducible apply connLost_kept
    | intro _
    | split
    | dsimp only

theorem settleSeal_kept {kq : List Instr} (s : State) (kh : Kept kq s) : Kept kq (State.settleSeal s) := by
  unfold State.settleSeal
  try dsimp only
  repeat' first
    | with_reducible assumption
    | with_reducible apply onXprt_kept
    | with_reducible apply enterError_kept
    | with_reducible apply foldl_kept
    | intro _
    | split
    | dsimp only

theorem sendDreq_kept {kq : List Instr} (i : Nat) (s : State) (kh : Kept kq s) : Kept kq (State.sendDreq i s) := by
  unfold State.sendDreq
  try dsimp only
  repeat' first
    | with_reducible assumption
    | with_reducible apply when_kept
    | with_reducible apply onTx_kept
    | with_reducible apply cmOn_kept
    | intro _
    | split
    | dsimp only

theorem closeConn_kept {kq : List Instr} (i cause : Nat) (s : State) (kh : Kept kq s) : Kept kq (State.closeConn i cause s) := by
  unfold State.closeConn
  try dsimp only
  repeat' first
    | with_reducible assumption
    | with_reducible apply onCtx_kept
    | with_reducible apply connLost_kept
    | with_reducible apply dropReplies_kept
    | with_reducible apply sendDreq_kept
    | intro _
    | split
    | dsimp only

theorem enterTimewait_kept {kq : List Instr} (i : Nat) (s : State) (kh : Kept kq s) : Kept kq (State.enterTimewait i s) := by
  unfold State.enterTimewait
  try dsimp only
  repeat' first
    | with_reducible assumption
    | with_reducible apply count_kept
    | with_reducible apply dropQueue_kept
    | with_reducible apply connLost_kept
    | with_reducible apply dropReplies_kept
    | with_reducible apply setConnState_kept
    | intro _
    | split
    | dsimp only

theorem freeConn_kept {kq : List Instr} (i : Nat) (s : State) (kh : Kept kq s) : Kept kq (State.freeConn i s) := by
  unfold State.freeConn
  try dsimp only
  repeat' first
    | with_reducible assumption
    | with_reducible apply onGard_kept
    | with_reducible apply onXprt_kept
    | with_reducible apply setCtx_kept
    | with_reducible apply syncXprt_kept
    | intro _
    | split
    | dsimp only

theorem completeCapsule_kept {kq : List Instr} (i : Nat) (cap : Capsule) (c : Cpl) (s : State) (kh : Kept kq s) : Kept kq (State.completeCapsule i cap c s) := by
  unfold State.completeCapsule
  try dsimp only
  repeat' first
    | with_reducible assumption
    | with_reducible apply submit_kept
    | with_reducible apply setQueue_kept
    | intro _
    | split
    | dsimp only

theorem resetQueue_kept {kq : List Instr} (spare : Option Nat) (s : State) (i : Nat) (kh : Kept kq s) : Kept kq (State.resetQueue spare s i) := by
  unfold State.resetQueue
  try dsimp only
  repeat' first
    | with_reducible assumption
    | with_reducible apply count_kept
    | with_reducible apply setQueue_kept
    | with_reducible apply finishCommitted_kept
    | with_reducible apply commitSlot_kept
    | with_reducible apply abandonSlot_kept
    | with_reducible apply completeCapsule_kept
    | with_reducible apply fetched_kept
    | with_reducible apply foldl_kept
    | intro _
    | split
    | dsimp only

theorem endReset_kept {kq : List Instr} (k : Nat) (admin : Bool) (s : State) (kh : Kept kq s) : Kept kq (State.endReset k admin s) := by
  unfold State.endReset
  try dsimp only
  repeat' first
    | with_reducible assumption
    | with_reducible apply setCtrl_kept
    | with_reducible apply syncCmdq_kept
    | with_reducible apply closeConn_kept
    | with_reducible apply foldl_kept
    | intro _
    | split
    | dsimp only

theorem settleResets_kept {kq : List Instr} (s : State) (kh : Kept kq s) : Kept kq (State.settleResets s) := by
  unfold State.settleResets
  try dsimp only
  repeat' first
    | with_reducible assumption
    | with_reducible apply endReset_kept
    | with_reducible apply foldl_kept
    | intro _
    | split
    | dsimp only

theorem resetCtrl_kept {kq : List Instr} (k : Nat) (spare : Option Nat) (expired : Bool) (s : State) (kh : Kept kq s) : Kept kq (State.resetCtrl k spare expired s) := by
  unfold State.resetCtrl
  try dsimp only
  repeat' first
    | with_reducible assumption
    | with_reducible apply setCtrl_kept
    | with_reducible apply syncCmdq_kept
    | with_reducible apply resetQueue_kept
    | with_reducible apply endReset_kept
    | with_reducible apply settleResets_kept
    | with_reducible apply foldl_kept
    | intro _
    | split
    | dsimp only

end Sys2Proof.Machine
end

