-- ==== Sys2Proof/Laws/Kept/ResumeOps.lean ====
section
/-!
SUPPORT. What the operations of Machine/ResumeOps.lean keep.
-/
namespace Sys2Proof.Machine
open Sys2Proof

theorem dropMirror_kept {kq : List Instr} (i : Nat) (s : State) (kh : Kept kq s) : Kept kq (State.dropMirror i s) := by
  unfold State.dropMirror
  try dsimp only
  repeat' first
    | with_reducible assumption
    | with_reducible apply onPair_kept
    | intro _
    | split
    | dsimp only

theorem sendProbe_kept {kq : List Instr} (i l : Nat) (s : State) (kh : Kept kq s) : Kept kq (State.sendProbe i l s) := by
  unfold State.sendProbe
  try dsimp only
  repeat' first
    | with_reducible assumption
    | with_reducible apply count_kept
    | with_reducible apply sendNow_kept
    | with_reducible apply sendReply_kept
    | intro _
    | split
    | dsimp only

theorem offerResume_kept {kq : List Instr} (i : Nat) (s : State) (kh : Kept kq s) : Kept kq (State.offerResume i s) := by
  unfold State.offerResume
  try dsimp only
  repeat' first
    | with_reducible assumption
    | with_reducible apply onPair_kept
    | with_reducible apply when_kept
    | with_reducible apply setCtx_kept
    | with_reducible apply startFetch_kept
    | with_reducible apply rekeyTx_kept
    | with_reducible apply dropMirror_kept
    | with_reducible apply sendProbe_kept
    | intro _
    | split
    | dsimp only

theorem resumeFail_kept {kq : List Instr} (i : Nat) (s : State) (kh : Kept kq s) : Kept kq (State.resumeFail i s) := by
  unfold State.resumeFail
  try dsimp only
  repeat' first
    | with_reducible assumption
    | with_reducible apply count_kept
    | with_reducible apply occur_kept
    | with_reducible apply freeConn_kept
    | with_reducible apply dropMirror_kept
    | intro _
    | split
    | dsimp only

theorem resumeQueue_kept {kq : List Instr} (i : Nat) (s : State) (kh : Kept kq s) : Kept kq (State.resumeQueue i s) := by
  unfold State.resumeQueue
  try dsimp only
  repeat' first
    | with_reducible assumption
    | with_reducible apply draw_kept2
    | with_reducible apply setQueue_kept
    | with_reducible apply setCtrl_kept
    | intro _
    | split
    | (refine draw_kept ?_ (by with_reducible assumption))
    | dsimp only

theorem replayCmd_kept {kq : List Instr} (n : Nat) (x : Slot) (s : State) (kh : Kept kq s) : Kept kq (State.replayCmd n x s) := by
  unfold State.replayCmd
  try dsimp only
  repeat' first
    | with_reducible assumption
    | with_reducible apply count_kept
    | with_reducible apply onCmdq_kept
    | with_reducible apply setSlot_kept
    | with_reducible apply syncCmdq_kept
    | intro _
    | split
    | dsimp only

theorem resumeCmd_kept {kq : List Instr} (i epsn h : Nat) (s : State) (e : Nat × MirCmd) (kh : Kept kq s) : Kept kq (State.resumeCmd i epsn h s e) := by
  unfold State.resumeCmd
  try dsimp only
  repeat' first
    | with_reducible assumption
    | with_reducible apply replayCmd_kept
    | with_reducible apply count_kept
    | with_reducible apply setSlot_kept
    | with_reducible apply syncCmdq_kept
    | with_reducible apply commitSlot_kept
    | with_reducible apply opened_kept
    | intro _
    | split
    | dsimp only

theorem requeueSubs_kept {kq : List Instr} (i : Nat) (s : State) (kh : Kept kq s) : Kept kq (State.requeueSubs i s) := by
  unfold State.requeueSubs
  try dsimp only
  repeat' first
    | with_reducible assumption
    | (with_reducible apply onRegn_kept <;> first | (intro g hg; exact hg) | skip)
    | intro _
    | split
    | dsimp only

theorem resumeAnswer_kept {kq : List Instr} (i h : Nat) (s : State) (kh : Kept kq s) : Kept kq (State.resumeAnswer i h s) := by
  unfold State.resumeAnswer
  try dsimp only
  repeat' first
    | with_reducible assumption
    | with_reducible apply count_kept
    | with_reducible apply onCtx_kept
    | with_reducible apply syncXprt_kept
    | with_reducible apply dropMirror_kept
    | with_reducible apply resumeFail_kept
    | with_reducible apply resumeQueue_kept
    | with_reducible apply resumeCmd_kept
    | with_reducible apply requeueSubs_kept
    | with_reducible apply foldl_kept
    | intro _
    | split
    | dsimp only

theorem probeTimeout_kept {kq : List Instr} (i : Nat) (s : State) (kh : Kept kq s) : Kept kq (State.probeTimeout i s) := by
  unfold State.probeTimeout
  try dsimp only
  repeat' first
    | with_reducible assumption
    | with_reducible apply count_kept
    | with_reducible apply onTx_kept
    | with_reducible apply resumeFail_kept
    | intro _
    | split
    | dsimp only

end Sys2Proof.Machine
end

