-- ==== Sys2Proof/Laws/Kept/VatOps.lean ====
section
/-!
SUPPORT. What the operations of Machine/VatOps.lean keep.
-/
namespace Sys2Proof.Machine
open Sys2Proof

theorem freeDead_kept {kq : List Instr} (k : Nat) (s : State) (kh : Kept kq s) : Kept kq (State.freeDead k s) := by
  unfold State.freeDead
  try dsimp only
  repeat' first
    | with_reducible assumption
    | with_reducible apply count_kept
    | with_reducible apply occur_kept
    | with_reducible apply setVoq_kept
    | with_reducible apply freeCell_kept
    | with_reducible apply foldl_kept
    | intro _
    | split
    | dsimp only

theorem ageHead_kept {kq : List Instr} (k : Nat) (s : State) (kh : Kept kq s) : Kept kq (State.ageHead k s) := by
  unfold State.ageHead
  try dsimp only
  repeat' first
    | with_reducible assumption
    | with_reducible apply count_kept
    | with_reducible apply setVoq_kept
    | intro _
    | split
    | dsimp only

theorem moveMatch_kept2 {kq : List Instr} (m : VMatch) (x : List Nat × State) (kh : Kept kq x.2) : Kept kq (State.moveMatch m x).2 :=
  count_kept _ _ (count_kept _ _ (count_kept _ _ (setVoq_kept _ _ _ kh)))
theorem moves_kept2 {kq : List Instr} (l : List VMatch) (x : List Nat × State) (kh : Kept kq x.2) :
    Kept kq (l.foldl (fun x m => State.moveMatch m x) x).2 := by
  induction l generalizing x with
  | nil => exact kh
  | cons m l ih => exact ih _ (moveMatch_kept2 m x kh)

theorem vatCellTime_kept2 {kq : List Instr} (s : State) (kh : Kept kq s) : Kept kq (State.vatCellTime s).2 := by
  unfold State.vatCellTime
  dsimp only
  exact syncVat_kept _ (onVat_kept _ (moves_kept2 _ _ (foldl_kept _ (fun u k hu => ageHead_kept _ _ hu) _
    (foldl_kept _ (fun u k hu => freeDead_kept _ _ hu) _ (offerHeld_kept _ kh)))))

end Sys2Proof.Machine
end

