-- ==== Sys2Proof/Laws/Kept/XprtRx.lean ====
section
/-!
SUPPORT. What the operations of Machine/XprtRx.lean keep.
-/
namespace Sys2Proof.Machine
open Sys2Proof

theorem invalidRequest_kept {kq : List Instr} (i psn : Nat) (s : State) (kh : Kept kq s) : Kept kq (State.invalidRequest i psn s) := by
  unfold State.invalidRequest
  try dsimp only
  repeat' first
    | with_reducible assumption
    | with_reducible apply reply_kept
    | with_reducible apply enterError_kept
    | intro _
    | split
    | dsimp only

theorem skipMessage_kept {kq : List Instr} (i psn n : Nat) (s : State) (kh : Kept kq s) : Kept kq (State.skipMessage i psn n s) := by
  unfold State.skipMessage
  try dsimp only
  repeat' first
    | with_reducible assumption
    | with_reducible apply onRx_kept
    | intro _
    | split
    | dsimp only

theorem accessFail_kept {kq : List Instr} (i : Nat) (p : Packet) (step opcode len n : Nat) (dup : Bool) (s : State) (kh : Kept kq s) : Kept kq (State.accessFail i p step opcode len n dup s) := by
  unfold State.accessFail
  try dsimp only
  repeat' first
    | with_reducible assumption
    | with_reducible apply reply_kept
    | with_reducible apply keyFail_kept
    | with_reducible apply enterError_kept
    | with_reducible apply skipMessage_kept
    | intro _
    | split
    | dsimp only

theorem operationFail_kept {kq : List Instr} (i psn n : Nat) (dup : Bool) (s : State) (kh : Kept kq s) : Kept kq (State.operationFail i psn n dup s) := by
  unfold State.operationFail
  try dsimp only
  repeat' first
    | with_reducible assumption
    | with_reducible apply reply_kept
    | with_reducible apply skipMessage_kept
    | intro _
    | split
    | dsimp only

theorem ackNew_kept {kq : List Instr} (i : Nat) (ackReq : Bool) (s : State) (kh : Kept kq s) : Kept kq (State.ackNew i ackReq s) := by
  unfold State.ackNew
  try dsimp only
  repeat' first
    | with_reducible assumption
    | with_reducible apply onRx_kept
    | with_reducible apply ack_kept
    | intro _
    | split
    | dsimp only

theorem accept_kept {kq : List Instr} (i : Nat) (s : State) (kh : Kept kq s) : Kept kq (State.accept i s) := by
  unfold State.accept
  try dsimp only
  repeat' first
    | with_reducible assumption
    | with_reducible apply onRx_kept
    | intro _
    | split
    | dsimp only

theorem bumpMsn_kept {kq : List Instr} (i : Nat) (s : State) (kh : Kept kq s) : Kept kq (State.bumpMsn i s) := by
  unfold State.bumpMsn
  try dsimp only
  repeat' first
    | with_reducible assumption
    | with_reducible apply onRx_kept
    | intro _
    | split
    | dsimp only

theorem intoVat_kept {kq : List Instr} (i : Nat) (isWrite : Bool) (rx : RxMeta) (psn : Nat) (s : State) (kh : Kept kq s) : Kept kq (State.intoVat i isWrite rx psn s) := by
  unfold State.intoVat
  try dsimp only
  repeat' first
    | with_reducible assumption
    | with_reducible apply enqueueUnit_kept
    | with_reducible apply onRx_kept
    | intro _
    | split
    | dsimp only

theorem feedWrite_kept {kq : List Instr} (id : Nat) (p : Packet) (last : Bool) (imm : Option Nat) (s : State) (kh : Kept kq s) : Kept kq (State.feedWrite id p last imm s) := by
  unfold State.feedWrite
  try dsimp only
  repeat' first
    | with_reducible assumption
    | with_reducible apply onWrite_kept
    | with_reducible apply wholeWrite_kept
    | intro _
    | split
    | dsimp only

theorem openWrite_kept {kq : List Instr} (i : Nat) (p : Packet) (last dup : Bool) (id : Option Nat) (s : State) (kh : Kept kq s) : Kept kq (State.openWrite i p last dup id s) := by
  unfold State.openWrite
  try dsimp only
  repeat' first
    | with_reducible assumption
    | with_reducible apply onRx_kept
    | intro _
    | split
    | dsimp only

theorem beginWrite_kept {kq : List Instr} (i : Nat) (p : Packet) (o : OpInfo) (idx : Nat) (dup checking : Bool) (s : State) (kh : Kept kq s) : Kept kq (State.beginWrite i p o idx dup checking s) := by
  unfold State.beginWrite
  try dsimp only
  repeat' first
    | with_reducible assumption
    | with_reducible apply when_kept
    | with_reducible apply keyPass_kept
    | with_reducible apply newWrite_kept
    | with_reducible apply feedWrite_kept
    | with_reducible apply openWrite_kept
    | intro _
    | split
    | dsimp only

theorem staleDup_kept {kq : List Instr} (i : Nat) (s : State) (kh : Kept kq s) : Kept kq (State.staleDup i s) := by
  unfold State.staleDup
  try dsimp only
  repeat' first
    | with_reducible assumption
    | with_reducible apply count_kept
    | with_reducible apply ack_kept
    | intro _
    | split
    | dsimp only

theorem cutDup_kept {kq : List Instr} (i : Nat) (s : State) (kh : Kept kq s) : Kept kq (State.cutDup i s) := by
  unfold State.cutDup
  try dsimp only
  repeat' first
    | with_reducible assumption
    | with_reducible apply onRx_kept
    | with_reducible apply settle_kept
    | with_reducible apply cutWrite_kept
    | intro _
    | split
    | dsimp only

theorem acceptFirst_kept {kq : List Instr} (i : Nat) (p : Packet) (last : Bool) (s : State) (kh : Kept kq s) : Kept kq (State.acceptFirst i p last s) := by
  unfold State.acceptFirst
  try dsimp only
  repeat' first
    | with_reducible assumption
    | with_reducible apply ackNew_kept
    | with_reducible apply accept_kept
    | with_reducible apply bumpMsn_kept
    | intro _
    | split
    | dsimp only

theorem writeFirst_kept {kq : List Instr} (i : Nat) (rx : RxMeta) (p : Packet) (o : OpInfo) (dup : Bool) (s0 : State) (kh : Kept kq s0) : Kept kq (State.writeFirst i rx p o dup s0) := by
  unfold State.writeFirst
  try dsimp only
  repeat' first
    | with_reducible assumption
    | with_reducible apply count_kept
    | with_reducible apply onGard_kept
    | with_reducible apply ack_kept
    | with_reducible apply keyTouch_kept
    | with_reducible apply accessFail_kept
    | with_reducible apply operationFail_kept
    | with_reducible apply intoVat_kept
    | with_reducible apply openWrite_kept
    | with_reducible apply beginWrite_kept
    | with_reducible apply staleDup_kept
    | with_reducible apply acceptFirst_kept
    | intro _
    | split
    | dsimp only

theorem readChecked_kept {kq : List Instr} (i : Nat) (p : Packet) (seen : Nat) (s : State) (kh : Kept kq s) : Kept kq (State.readChecked i p seen s) := by
  unfold State.readChecked
  try dsimp only
  repeat' first
    | with_reducible assumption
    | (with_reducible apply onRegn_kept <;> first | (intro g hg; exact hg) | skip)
    | with_reducible apply keyPass_kept
    | intro _
    | split
    | dsimp only

theorem acceptRead_kept {kq : List Instr} (i n : Nat) (dup : Bool) (s : State) (kh : Kept kq s) : Kept kq (State.acceptRead i n dup s) := by
  unfold State.acceptRead
  try dsimp only
  repeat' first
    | with_reducible assumption
    | with_reducible apply onRx_kept
    | with_reducible apply bumpMsn_kept
    | intro _
    | split
    | dsimp only

theorem readRequest_kept {kq : List Instr} (i : Nat) (p : Packet) (dup : Bool) (s0 : State) (kh : Kept kq s0) : Kept kq (State.readRequest i p dup s0) := by
  unfold State.readRequest
  try dsimp only
  repeat' first
    | with_reducible assumption
    | with_reducible apply count_kept
    | with_reducible apply onGard_kept
    | with_reducible apply keyTouch_kept
    | with_reducible apply invalidRequest_kept
    | with_reducible apply accessFail_kept
    | with_reducible apply operationFail_kept
    | with_reducible apply readChecked_kept
    | with_reducible apply acceptRead_kept
    | intro _
    | split
    | dsimp only

theorem sendPacket_kept {kq : List Instr} (i : Nat) (rx : RxMeta) (p : Packet) (o : OpInfo) (s : State) (kh : Kept kq s) : Kept kq (State.sendPacket i rx p o s) := by
  unfold State.sendPacket
  try dsimp only
  repeat' first
    | with_reducible assumption
    | with_reducible apply onRx_kept
    | with_reducible apply invalidRequest_kept
    | with_reducible apply ackNew_kept
    | with_reducible apply accept_kept
    | with_reducible apply bumpMsn_kept
    | intro _
    | split
    | dsimp only

theorem followWrite_kept {kq : List Instr} (i : Nat) (id : Option Nat) (rx : RxMeta) (psn : Nat) (s : State) (kh : Kept kq s) : Kept kq (State.followWrite i id rx psn s) := by
  unfold State.followWrite
  try dsimp only
  repeat' first
    | with_reducible assumption
    | with_reducible apply onGard_kept
    | with_reducible apply intoVat_kept
    | intro _
    | split
    | dsimp only

theorem immFail_kept {kq : List Instr} (i : Nat) (p : Packet) (id : Option Nat) (dup : Bool) (s : State) (kh : Kept kq s) : Kept kq (State.immFail i p id dup s) := by
  unfold State.immFail
  try dsimp only
  repeat' first
    | with_reducible assumption
    | with_reducible apply settle_kept
    | with_reducible apply cutWrite_kept
    | with_reducible apply accessFail_kept
    | intro _
    | split
    | dsimp only

theorem writeNext_kept {kq : List Instr} (i : Nat) (rx : RxMeta) (p : Packet) (o : OpInfo) (idx : Nat) (id : Option Nat) (left first span : Nat) (s : State) (kh : Kept kq s) : Kept kq (State.writeNext i rx p o idx id left first span s) := by
  unfold State.writeNext
  try dsimp only
  repeat' first
    | with_reducible assumption
    | with_reducible apply onRx_kept
    | with_reducible apply ackNew_kept
    | with_reducible apply accept_kept
    | with_reducible apply bumpMsn_kept
    | with_reducible apply feedWrite_kept
    | with_reducible apply followWrite_kept
    | with_reducible apply immFail_kept
    | intro _
    | split
    | dsimp only

theorem newPacket_kept {kq : List Instr} (i : Nat) (rx : RxMeta) (p : Packet) (s0 : State) (kh : Kept kq s0) : Kept kq (State.newPacket i rx p s0) := by
  unfold State.newPacket
  try dsimp only
  repeat' first
    | with_reducible assumption
    | with_reducible apply when_kept
    | with_reducible apply invalidRequest_kept
    | with_reducible apply intoVat_kept
    | with_reducible apply cutDup_kept
    | with_reducible apply writeFirst_kept
    | with_reducible apply readRequest_kept
    | with_reducible apply sendPacket_kept
    | with_reducible apply writeNext_kept
    | intro _
    | split
    | dsimp only

theorem dupNext_kept {kq : List Instr} (i : Nat) (rx : RxMeta) (p : Packet) (o : OpInfo) (s : State) (kh : Kept kq s) : Kept kq (State.dupNext i rx p o s) := by
  unfold State.dupNext
  try dsimp only
  repeat' first
    | with_reducible assumption
    | with_reducible apply onRx_kept
    | with_reducible apply ack_kept
    | with_reducible apply feedWrite_kept
    | with_reducible apply staleDup_kept
    | with_reducible apply followWrite_kept
    | with_reducible apply immFail_kept
    | intro _
    | split
    | dsimp only

theorem dupPacket_kept {kq : List Instr} (i : Nat) (rx : RxMeta) (p : Packet) (s0 : State) (kh : Kept kq s0) : Kept kq (State.dupPacket i rx p s0) := by
  unfold State.dupPacket
  try dsimp only
  repeat' first
    | with_reducible assumption
    | with_reducible apply count_kept
    | with_reducible apply when_kept
    | with_reducible apply onCtxStat_kept
    | with_reducible apply ack_kept
    | with_reducible apply invalidRequest_kept
    | with_reducible apply cutDup_kept
    | with_reducible apply writeFirst_kept
    | with_reducible apply readRequest_kept
    | with_reducible apply dupNext_kept
    | intro _
    | split
    | dsimp only

theorem request_kept {kq : List Instr} (i : Nat) (rx : RxMeta) (p : Packet) (s : State) (kh : Kept kq s) : Kept kq (State.request i rx p s) := by
  unfold State.request
  try dsimp only
  repeat' first
    | with_reducible assumption
    | with_reducible apply count_kept
    | with_reducible apply onRx_kept
    | with_reducible apply reply_kept
    | with_reducible apply ack_kept
    | with_reducible apply newPacket_kept
    | with_reducible apply dupPacket_kept
    | intro _
    | split
    | dsimp only

theorem replyAt_kept {kq : List Instr} (i : Nat) (aeth : Aeth) (psn : Nat) (s : State) (kh : Kept kq s) : Kept kq (State.replyAt i aeth psn s) := by
  unfold State.replyAt
  try dsimp only
  repeat' first
    | with_reducible assumption
    | with_reducible apply onRx_kept
    | with_reducible apply releaseReplies_kept
    | intro _
    | split
    | dsimp only

theorem endMessage_kept {kq : List Instr} (i : Nat) (p : Packet) (id : Option Nat) (s : State) (kh : Kept kq s) : Kept kq (State.endMessage i p id s) := by
  unfold State.endMessage
  try dsimp only
  repeat' first
    | with_reducible assumption
    | with_reducible apply onRx_kept
    | with_reducible apply skipMessage_kept
    | intro _
    | split
    | dsimp only

theorem dropWaiting_kept {kq : List Instr} (i id : Nat) (units : List (RxMeta × Nat)) (s : State) (kh : Kept kq s) : Kept kq (State.dropWaiting i id units s) := by
  unfold State.dropWaiting
  try dsimp only
  repeat' first
    | with_reducible assumption
    | (with_reducible apply onRegn_kept <;> first | (intro g hg; exact hg) | skip)
    | with_reducible apply dropRxUnit_kept
    | with_reducible apply foldl_kept
    | intro _
    | split
    | dsimp only

theorem lateAccessFail_kept {kq : List Instr} (i : Nat) (p : Packet) (step opcode : Nat) (dup : Bool) (id : Option Nat) (s : State) (kh : Kept kq s) : Kept kq (State.lateAccessFail i p step opcode dup id s) := by
  unfold State.lateAccessFail
  try dsimp only
  repeat' first
    | with_reducible assumption
    | with_reducible apply keyFail_kept
    | with_reducible apply enterError_kept
    | with_reducible apply replyAt_kept
    | with_reducible apply endMessage_kept
    | intro _
    | split
    | dsimp only

theorem lateOperationFail_kept {kq : List Instr} (i : Nat) (p : Packet) (id : Option Nat) (s : State) (kh : Kept kq s) : Kept kq (State.lateOperationFail i p id s) := by
  unfold State.lateOperationFail
  try dsimp only
  repeat' first
    | with_reducible assumption
    | with_reducible apply replyAt_kept
    | with_reducible apply endMessage_kept
    | intro _
    | split
    | dsimp only

theorem resumeWrite_kept {kq : List Instr} (i id idx : Nat) (p : Packet) (units : List (RxMeta × Nat)) (s : State) (kh : Kept kq s) : Kept kq (State.resumeWrite i id idx p units s) := by
  unfold State.resumeWrite
  try dsimp only
  repeat' first
    | with_reducible assumption
    | with_reducible apply keyPass_kept
    | with_reducible apply settle_kept
    | with_reducible apply onWrite_kept
    | with_reducible apply wholeWrite_kept
    | with_reducible apply cutWrite_kept
    | with_reducible apply intoVat_kept
    | with_reducible apply foldl_kept
    | intro _
    | split
    | dsimp only

theorem writeArrived_kept {kq : List Instr} (ue : Bool) (i id : Nat) (p : Packet) (dup : Bool) (units : List (RxMeta × Nat)) (s : State) (kh : Kept kq s) : Kept kq (State.writeArrived ue i id p dup units s) := by
  unfold State.writeArrived
  try dsimp only
  repeat' first
    | with_reducible assumption
    | with_reducible apply onRx_kept
    | with_reducible apply ack_kept
    | with_reducible apply staleDup_kept
    | with_reducible apply dropWaiting_kept
    | with_reducible apply lateAccessFail_kept
    | with_reducible apply lateOperationFail_kept
    | with_reducible apply resumeWrite_kept
    | intro _
    | split
    | dsimp only

theorem regReadArrived_kept {kq : List Instr} (ue : Bool) (i : Nat) (p : Packet) (dup : Bool) (seen : Nat) (s : State) (kh : Kept kq s) : Kept kq (State.regReadArrived ue i p dup seen s) := by
  unfold State.regReadArrived
  try dsimp only
  repeat' first
    | with_reducible assumption
    | with_reducible apply onRx_kept
    | with_reducible apply readChecked_kept
    | with_reducible apply lateAccessFail_kept
    | with_reducible apply lateOperationFail_kept
    | intro _
    | split
    | dsimp only

theorem endKey_kept {kq : List Instr} (k : Option Nat) (s : State) (kh : Kept kq s) : Kept kq (State.endKey k s) := by
  unfold State.endKey
  try dsimp only
  repeat' first
    | with_reducible assumption
    | with_reducible apply keyEnd_kept
    | intro _
    | split
    | dsimp only

theorem enqueueEgr_kept {kq : List Instr} (i : Nat) (p : OutPkt) (s : State) (kh : Kept kq s) : Kept kq (State.enqueueEgr i p s) := by
  unfold State.enqueueEgr
  try dsimp only
  repeat' first
    | with_reducible assumption
    | with_reducible apply count_kept
    | with_reducible apply onTmgr_kept
    | with_reducible apply sealPkt_kept2
    | with_reducible apply endKey_kept
    | intro _
    | split
    | (refine sealPkt_keptE ?_ (by with_reducible assumption))
    | dsimp only

theorem cellsOut_kept {kq : List Instr} (i src : Nat) (cells : Option UnitKind) (kind : UnitKind) (p : OutPkt) (s : State) (kh : Kept kq s) : Kept kq (State.cellsOut i src cells kind p s) := by
  unfold State.cellsOut
  try dsimp only
  repeat' first
    | with_reducible assumption
    | with_reducible apply ship_kept
    | intro _
    | split
    | (refine splitUnit_keptE ?_ (by with_reducible assumption))
    | dsimp only

theorem sendPackets_kept {kq : List Instr} (i src : Nat) (cells : Option UnitKind) (ps : List OutPkt) (s0 : State) (kh : Kept kq s0) : Kept kq (State.sendPackets i src cells ps s0) := by
  unfold State.sendPackets
  try dsimp only
  repeat' first
    | with_reducible assumption
    | with_reducible apply mirrorIf_kept
    | with_reducible apply onTx_kept
    | with_reducible apply enqueueEgr_kept
    | with_reducible apply cellsOut_kept
    | with_reducible apply foldl_kept
    | intro _
    | split
    | dsimp only

theorem sendResponse_kept {kq : List Instr} (i psn key seen : Nat) (d : Blob) (s : State) (kh : Kept kq s) : Kept kq (State.sendResponse i psn key seen d s) := by
  unfold State.sendResponse
  try dsimp only
  repeat' first
    | with_reducible assumption
    | with_reducible apply onRx_kept
    | with_reducible apply enqueueEgr_kept
    | with_reducible apply cellsOut_kept
    | with_reducible apply foldl_kept
    | intro _
    | split
    | dsimp only

theorem sendRead_keptO {kq : List Instr} (i va rkey len slot : Nat) (s : State) (kh : Kept kq s) : OptKept kq (State.sendRead i va rkey len slot s) := by
  unfold State.sendRead
  try dsimp only
  repeat' first
    | with_reducible assumption
    | with_reducible apply mirrorIf_kept
    | with_reducible apply onTx_kept
    | with_reducible apply enqueueEgr_kept
    | with_reducible apply cellsOut_kept
    | with_reducible exact optKept_none
    | with_reducible apply optKept_some
    | with_reducible apply optKept_map
    | with_reducible apply optKept_foldl
    | exact OptKept.kept (by assumption) _ rfl
    | intro _
    | split
    | (refine takeCells_keptE ?_ (by with_reducible assumption))
    | dsimp only
theorem sendRead_keptE {kq : List Instr} {ko : State} {i va rkey len slot : Nat} {s : State} (kh : Kept kq s) (ke : State.sendRead i va rkey len slot s = some ko) : Kept kq ko := (sendRead_keptO i va rkey len slot s kh).kept ko ke

theorem sendWork_kept {kq : List Instr} (i : Nat) (s : State) (kh : Kept kq s) : Kept kq (State.sendWork i s) := by
  unfold State.sendWork
  try dsimp only
  repeat' first
    | with_reducible assumption
    | with_reducible apply mirrorIf_kept
    | with_reducible apply onTx_kept
    | with_reducible apply onSlot_kept
    | with_reducible apply sendPackets_kept
    | with_reducible apply sendResponse_kept
    | with_reducible apply optKept_getD
    | with_reducible apply sendRead_keptO
    | intro _
    | split
    | (refine sendRead_keptE ?_ (by with_reducible assumption))
    | dsimp only

theorem retry_kept {kq : List Instr} (i : Nat) (k : State → State) (s : State) (hk_k : ∀ u, Kept kq u → Kept kq (k u)) (kh : Kept kq s) : Kept kq (State.retry i k s) := by
  unfold State.retry
  try dsimp only
  repeat' first
    | with_reducible assumption
    | with_reducible apply onTx_kept
    | with_reducible apply enterError_kept
    | with_reducible apply hk_k
    | intro _
    | split
    | dsimp only

theorem resendOne_kept {kq : List Instr} (i : Nat) (s : State) (p : OutPkt) (kh : Kept kq s) : Kept kq (State.resendOne i s p) := by
  unfold State.resendOne
  try dsimp only
  repeat' first
    | with_reducible assumption
    | with_reducible apply count_kept
    | with_reducible apply onCtxStat_kept
    | with_reducible apply enqueueEgr_kept
    | intro _
    | split
    | dsimp only

theorem resendFrom_kept {kq : List Instr} (i psn : Nat) (s : State) (kh : Kept kq s) : Kept kq (State.resendFrom i psn s) := by
  unfold State.resendFrom
  try dsimp only
  repeat' first
    | with_reducible assumption
    | with_reducible apply resendOne_kept
    | with_reducible apply foldl_kept
    | intro _
    | split
    | dsimp only

theorem release_kept {kq : List Instr} (i upto : Nat) (s : State) (kh : Kept kq s) : Kept kq (State.release i upto s) := by
  unfold State.release
  try dsimp only
  repeat' first
    | with_reducible assumption
    | with_reducible apply onXprt_kept
    | with_reducible apply dropKind_kept
    | with_reducible apply onTx_kept
    | intro _
    | split
    | dsimp only

theorem advanceUna_kept {kq : List Instr} (i upto : Nat) (s : State) (kh : Kept kq s) : Kept kq (State.advanceUna i upto s) := by
  unfold State.advanceUna
  try dsimp only
  repeat' first
    | with_reducible assumption
    | with_reducible apply onTx_kept
    | intro _
    | split
    | dsimp only

theorem resendRead_kept {kq : List Instr} (i psn : Nat) (s : State) (kh : Kept kq s) : Kept kq (State.resendRead i psn s) := by
  unfold State.resendRead
  try dsimp only
  repeat' first
    | with_reducible assumption
    | with_reducible apply onTx_kept
    | with_reducible apply retry_kept
    | with_reducible apply resendOne_kept
    | intro _
    | split
    | dsimp only

theorem handleAck_kept {kq : List Instr} (i upto : Nat) (s : State) (kh : Kept kq s) : Kept kq (State.handleAck i upto s) := by
  unfold State.handleAck
  try dsimp only
  repeat' first
    | with_reducible assumption
    | with_reducible apply release_kept
    | with_reducible apply advanceUna_kept
    | with_reducible apply resendRead_kept
    | intro _
    | split
    | dsimp only

theorem writeCells_kept {kq : List Instr} (slot len : Nat) (s : State) (kh : Kept kq s) : Kept kq (State.writeCells slot len s) := by
  unfold State.writeCells
  try dsimp only
  repeat' first
    | with_reducible assumption
    | with_reducible apply offerUnit_kept
    | with_reducible apply dropUnit_kept
    | with_reducible apply writeData_kept2
    | intro _
    | split
    | (refine splitUnit_keptE ?_ (by with_reducible assumption))
    | (refine writeData_keptE ?_ (by with_reducible assumption))
    | dsimp only

theorem handleReadResp_kept {kq : List Instr} (i : Nat) (p : Packet) (s1 : State) (kh : Kept kq s1) : Kept kq (State.handleReadResp i p s1) := by
  unfold State.handleReadResp
  try dsimp only
  repeat' first
    | with_reducible assumption
    | with_reducible apply dropKind_kept
    | with_reducible apply onTx_kept
    | with_reducible apply readArrived_kept
    | with_reducible apply advanceUna_kept
    | with_reducible apply resendRead_kept
    | with_reducible apply handleAck_kept
    | with_reducible apply writeCells_kept
    | intro _
    | split
    | dsimp only

theorem cnpReceived_kept {kq : List Instr} (i : Nat) (s0 : State) (kh : Kept kq s0) : Kept kq (State.cnpReceived i s0) := by
  unfold State.cnpReceived
  try dsimp only
  repeat' first
    | with_reducible assumption
    | with_reducible apply count_kept
    | with_reducible apply onTx_kept
    | with_reducible apply onCtxStat_kept
    | intro _
    | split
    | dsimp only

theorem rateIncrease_kept {kq : List Instr} (i : Nat) (s : State) (kh : Kept kq s) : Kept kq (State.rateIncrease i s) := by
  unfold State.rateIncrease
  try dsimp only
  repeat' first
    | with_reducible assumption
    | with_reducible apply onTx_kept
    | intro _
    | split
    | dsimp only

theorem clipRates_kept {kq : List Instr} (port rate : Nat) (s : State) (kh : Kept kq s) : Kept kq (State.clipRates port rate s) := by
  unfold State.clipRates
  try dsimp only
  repeat' first
    | with_reducible assumption
    | with_reducible apply onTx_kept
    | with_reducible apply foldl_kept
    | intro _
    | split
    | dsimp only

theorem opened_kept {kq : List Instr} (i : Nat) (rx : RxMeta) (p : Packet) (s : State) (kh : Kept kq s) : Kept kq (State.opened i rx p s) := by
  unfold State.opened
  try dsimp only
  repeat' first
    | with_reducible assumption
    | with_reducible apply count_kept
    | with_reducible apply onTx_kept
    | with_reducible apply ack_kept
    | with_reducible apply maybeCnp_kept
    | with_reducible apply learnPath_kept
    | with_reducible apply setConnState_kept
    | with_reducible apply enterError_kept
    | with_reducible apply resumeAnswer_kept
    | with_reducible apply request_kept
    | with_reducible apply retry_kept
    | with_reducible apply resendFrom_kept
    | with_reducible apply handleAck_kept
    | with_reducible apply handleReadResp_kept
    | with_reducible apply cnpReceived_kept
    | intro _
    | split
    | dsimp only

theorem dropUnused_kept {kq : List Instr} (rx : RxMeta) (s : State) (kh : Kept kq s) : Kept kq (State.dropUnused rx s) := by
  unfold State.dropUnused
  try dsimp only
  repeat' first
    | with_reducible assumption
    | with_reducible apply dropUnit_kept
    | intro _
    | split
    | dsimp only

theorem process_kept {kq : List Instr} (rx : RxMeta) (p : Packet) (s : State) (kh : Kept kq s) : Kept kq (State.process rx p s) := by
  unfold State.process
  try dsimp only
  repeat' first
    | with_reducible assumption
    | with_reducible apply count_kept
    | with_reducible apply openPkt_kept2
    | with_reducible apply dropRxUnit_kept
    | with_reducible apply enterError_kept
    | with_reducible apply opened_kept
    | with_reducible apply dropUnused_kept
    | intro _
    | split
    | (refine openPkt_keptE ?_ (by with_reducible assumption))
    | dsimp only

theorem park_kept {kq : List Instr} (i : Nat) (rx : RxMeta) (p : Packet) (s : State) (kh : Kept kq s) : Kept kq (State.park i rx p s) := by
  unfold State.park
  try dsimp only
  repeat' first
    | with_reducible assumption
    | with_reducible apply count_kept
    | with_reducible apply occur_kept
    | with_reducible apply onXprt_kept
    | with_reducible apply when_kept
    | with_reducible apply onCtxStat_kept
    | with_reducible apply syncXprt_kept
    | with_reducible apply startFetch_kept
    | with_reducible apply dropRxUnit_kept
    | intro _
    | split
    | dsimp only

theorem rxPacket_kept {kq : List Instr} (rx : RxMeta) (p : Packet) (s : State) (kh : Kept kq s) : Kept kq (State.rxPacket rx p s) := by
  unfold State.rxPacket
  try dsimp only
  repeat' first
    | with_reducible assumption
    | with_reducible apply count_kept
    | with_reducible apply touch_kept
    | with_reducible apply dropRxUnit_kept
    | with_reducible apply process_kept
    | with_reducible apply park_kept
    | intro _
    | split
    | dsimp only

theorem fetched_kept {kq : List Instr} (i : Nat) (ue : Bool) (s : State) (kh : Kept kq s) : Kept kq (State.fetched i ue s) := by
  unfold State.fetched
  try dsimp only
  repeat' first
    | with_reducible assumption
    | with_reducible apply occur_kept
    | with_reducible apply onXprt_kept
    | with_reducible apply when_kept
    | with_reducible apply syncXprt_kept
    | with_reducible apply touch_kept
    | with_reducible apply cacheRoom_kept2
    | with_reducible apply dropRxUnit_kept
    | with_reducible apply enterError_kept
    | with_reducible apply process_kept
    | with_reducible apply foldl_kept
    | intro _
    | split
    | (refine cacheRoom_keptE ?_ (by with_reducible assumption))
    | dsimp only

theorem evictRx_kept {kq : List Instr} (i psn : Nat) (s : State) (kh : Kept kq s) : Kept kq (State.evictRx i psn s) := by
  unfold State.evictRx
  try dsimp only
  repeat' first
    | with_reducible assumption
    | (with_reducible apply onRegn_kept <;> first | (intro g hg; exact hg) | skip)
    | with_reducible apply dropUnit_kept
    | with_reducible apply onRx_kept
    | with_reducible apply keyEnd_kept
    | with_reducible apply dropChecks_kept
    | with_reducible apply foldl_kept
    | intro _
    | split
    | dsimp only

end Sys2Proof.Machine
end

