-- ==== Sys2Proof/Laws/Kept/LineExec.lean ====
section
/-!
SUPPORT. What the operations of Machine/LineExec.lean keep.
-/
namespace Sys2Proof.Machine
open Sys2Proof

theorem syncAround_kept {kq : List Instr} (g : Nat) (s : State) (kh : Kept kq s) : Kept kq (State.syncAround g s) := by
  unfold State.syncAround
  try dsimp only
  repeat' first
    | with_reducible assumption
    | with_reducible apply syncPorts_kept
    | intro _
    | split
    | dsimp only

theorem dropHeldOn_kept {kq : List Instr} (p : Nat) (s : State) (kh : Kept kq s) : Kept kq (State.dropHeldOn p s) := by
  unfold State.dropHeldOn
  try dsimp only
  repeat' first
    | with_reducible assumption
    | with_reducible apply count_kept
    | with_reducible apply onLine_kept
    | with_reducible apply when_kept
    | intro _
    | split
    | dsimp only

theorem portDown_kept {kq : List Instr} (p : Nat) (again : Bool) (s : State) (kh : Kept kq s) : Kept kq (State.portDown p again s) := by
  unfold State.portDown
  try dsimp only
  repeat' first
    | with_reducible assumption
    | with_reducible apply occur_kept
    | with_reducible apply when_kept
    | with_reducible apply setPort_kept
    | with_reducible apply beginPort_kept
    | with_reducible apply syncAround_kept
    | with_reducible apply dropHeldOn_kept
    | intro _
    | split
    | dsimp only

theorem forgetRetrain_kept {kq : List Instr} (s : State) (lane : Nat) (kh : Kept kq s) : Kept kq (State.forgetRetrain s lane) := by
  unfold State.forgetRetrain
  try dsimp only
  repeat' first
    | with_reducible assumption
    | with_reducible apply count_kept
    | with_reducible apply onLine_kept
    | intro _
    | split
    | dsimp only

theorem removePort_kept {kq : List Instr} (p : Nat) (s : State) (kh : Kept kq s) : Kept kq (State.removePort p s) := by
  unfold State.removePort
  try dsimp only
  repeat' first
    | with_reducible assumption
    | with_reducible apply onLine_kept
    | with_reducible apply syncAround_kept
    | with_reducible apply portDown_kept
    | intro _
    | split
    | dsimp only

theorem stopPorts_kept {kq : List Instr} (g : Nat) (s : State) (kh : Kept kq s) : Kept kq (State.stopPorts g s) := by
  unfold State.stopPorts
  try dsimp only
  repeat' first
    | with_reducible assumption
    | with_reducible apply removePort_kept
    | with_reducible apply foldl_kept
    | intro _
    | split
    | dsimp only

theorem restartPorts_kept {kq : List Instr} (gs : List Nat) (s : State) (kh : Kept kq s) : Kept kq (State.restartPorts gs s) := by
  unfold State.restartPorts
  try dsimp only
  repeat' first
    | with_reducible assumption
    | with_reducible apply beginPort_kept
    | with_reducible apply syncAround_kept
    | with_reducible apply forgetRetrain_kept
    | with_reducible apply stopPorts_kept
    | with_reducible apply foldl_kept
    | intro _
    | split
    | dsimp only

theorem startPorts_kept {kq : List Instr} (g : Nat) (s : State) (kh : Kept kq s) : Kept kq (State.startPorts g s) := by
  unfold State.startPorts
  try dsimp only
  repeat' first
    | with_reducible assumption
    | with_reducible apply restartPorts_kept
    | intro _
    | split
    | dsimp only

theorem lineDrop_kept {kq : List Instr} (e : Evt) (port : Nat) (unit : Option Nat) (s : State) (kh : Kept kq s) : Kept kq (State.lineDrop e port unit s) := by
  unfold State.lineDrop
  try dsimp only
  repeat' first
    | with_reducible assumption
    | with_reducible apply count_kept
    | with_reducible apply dropRxUnit_kept
    | intro _
    | split
    | dsimp only

theorem pfcFrame_kept {kq : List Instr} (port vector quanta : Nat) (s0 : State) (kh : Kept kq s0) : Kept kq (State.pfcFrame port vector quanta s0) := by
  unfold State.pfcFrame
  try dsimp only
  repeat' first
    | with_reducible assumption
    | with_reducible apply count_kept
    | with_reducible apply onLine_kept
    | with_reducible apply releaseHeld_kept
    | with_reducible apply foldl_kept
    | intro _
    | split
    | dsimp only

theorem sendDelayReq_kept {kq : List Instr} (s : State) (kh : Kept kq s) : Kept kq (State.sendDelayReq s) := by
  unfold State.sendDelayReq
  try dsimp only
  repeat' first
    | with_reducible assumption
    | with_reducible apply onPtp_kept
    | with_reducible apply lineSend_kept
    | exact kh.half
    | exact kh.sec
    | intro _
    | split
    | dsimp only

theorem syncTimes_kept {kq : List Instr} (t1 : Nat) (corr : Int) (s : State) (kh : Kept kq s) : Kept kq (State.syncTimes t1 corr s) := by
  unfold State.syncTimes
  try dsimp only
  repeat' first
    | with_reducible assumption
    | with_reducible apply onPtp_kept
    | with_reducible apply sendDelayReq_kept
    | exact kh.half
    | exact kh.sec
    | intro _
    | split
    | dsimp only

theorem ptpStep_kept {kq : List Instr} (m : PtpMsg) (s : State) (kh : Kept kq s) : Kept kq (State.ptpStep m s) := by
  unfold State.ptpStep
  try dsimp only
  repeat' first
    | with_reducible assumption
    | with_reducible apply onPtp_kept
    | with_reducible apply sendDelayReq_kept
    | with_reducible apply syncTimes_kept
    | exact kh.half
    | exact kh.sec
    | intro _
    | split
    | dsimp only

theorem ptpFrame_kept {kq : List Instr} (port : Nat) (vlan : Option Nat) (transport : Nat) (m : PtpMsg) (addrOk : Bool) (s0 : State) (kh : Kept kq s0) : Kept kq (State.ptpFrame port vlan transport m addrOk s0) := by
  unfold State.ptpFrame
  try dsimp only
  repeat' first
    | with_reducible assumption
    | with_reducible apply count_kept
    | with_reducible apply emit_kept
    | with_reducible apply onPtp_kept
    | with_reducible apply ptpStep_kept
    | exact kh.half
    | exact kh.sec
    | intro _
    | split
    | dsimp only

theorem sendLine_kept {kq : List Instr} (port tp dst len : Nat) (o : EthHdr → Emit) (s : State) (kh : Kept kq s) : Kept kq (State.sendLine port tp dst len o s) := by
  unfold State.sendLine
  try dsimp only
  repeat' first
    | with_reducible assumption
    | with_reducible apply lineSend_kept
    | intro _
    | split
    | dsimp only

theorem roceFrame_kept {kq : List Instr} (port tp dscp ecn : Nat) (f : Frame) (p : Packet) (unit : Option Nat) (s : State) (kh : Kept kq s) : Kept kq (State.roceFrame port tp dscp ecn f p unit s) := by
  unfold State.roceFrame
  try dsimp only
  repeat' first
    | with_reducible assumption
    | with_reducible apply count_kept
    | with_reducible apply emit_kept
    | with_reducible apply when_kept
    | with_reducible apply policeFrame_kept2
    | with_reducible apply dropRxUnit_kept
    | intro _
    | split
    | (refine policeFrame_keptE ?_ (by with_reducible assumption))
    | dsimp only

theorem ipFrame_kept {kq : List Instr} (port : Nat) (v6 : Bool) (dst dscp ecn : Nat) (b : L4) (f : Frame) (unit : Option Nat) (s : State) (kh : Kept kq s) : Kept kq (State.ipFrame port v6 dst dscp ecn b f unit s) := by
  unfold State.ipFrame
  try dsimp only
  repeat' first
    | with_reducible assumption
    | with_reducible apply count_kept
    | with_reducible apply dropRxUnit_kept
    | with_reducible apply lineDrop_kept
    | with_reducible apply ptpFrame_kept
    | with_reducible apply sendLine_kept
    | with_reducible apply roceFrame_kept
    | intro _
    | split
    | dsimp only

theorem bodyFrame_kept {kq : List Instr} (port : Nat) (f : Frame) (unit : Option Nat) (s : State) (kh : Kept kq s) : Kept kq (State.bodyFrame port f unit s) := by
  unfold State.bodyFrame
  try dsimp only
  repeat' first
    | with_reducible assumption
    | with_reducible apply count_kept
    | with_reducible apply dropRxUnit_kept
    | with_reducible apply request_kept
    | with_reducible apply lineDrop_kept
    | with_reducible apply pfcFrame_kept
    | with_reducible apply ptpFrame_kept
    | with_reducible apply sendLine_kept
    | with_reducible apply ipFrame_kept
    | intro _
    | split
    | dsimp only

theorem rxFrame_kept {kq : List Instr} (port : Nat) (f : Frame) (unit : Option Nat) (s0 : State) (kh : Kept kq s0) : Kept kq (State.rxFrame port f unit s0) := by
  unfold State.rxFrame
  try dsimp only
  repeat' first
    | with_reducible assumption
    | with_reducible apply count_kept
    | with_reducible apply dropRxUnit_kept
    | with_reducible apply lineDrop_kept
    | with_reducible apply bodyFrame_kept
    | intro _
    | split
    | dsimp only

theorem execRxFrame_kept {kq : List Instr} {ko : State} (port : Nat) (frame : Frame) (unit : Option Nat) (s : State) (kh : Kept kq s) (ke : execRxFrame port frame unit s = .next ko) : Kept kq ko := by
  unfold execRxFrame at ke
  refine next_kept ?_ ke
  try dsimp only
  repeat' first
    | with_reducible assumption
    | with_reducible apply when_kept
    | with_reducible apply rxFrame_kept
    | intro _
    | split
    | dsimp only

theorem execPfcXoffRefresh_kept {kq : List Instr} {ko : State} (port prio : Nat) (s : State) (kh : Kept kq s) (ke : execPfcXoffRefresh port prio s = .next ko) : Kept kq ko := by
  unfold execPfcXoffRefresh at ke
  refine next_kept ?_ ke
  try dsimp only
  repeat' first
    | with_reducible assumption
    | with_reducible apply when_kept
    | with_reducible apply sendPfc_kept
    | intro _
    | split
    | dsimp only

theorem execPfcPauseExpiry_kept {kq : List Instr} {ko : State} (port prio : Nat) (s : State) (kh : Kept kq s) (ke : execPfcPauseExpiry port prio s = .next ko) : Kept kq ko := by
  unfold execPfcPauseExpiry at ke
  refine next_kept ?_ ke
  try dsimp only
  repeat' first
    | with_reducible assumption
    | with_reducible apply onLine_kept
    | with_reducible apply releaseHeld_kept
    | intro _
    | split
    | dsimp only

theorem announceOn_kept {kq : List Instr} (port : Nat) (lanes : List Nat) (s : State) (e : Nat × Nat) (kh : Kept kq s) : Kept kq (State.announceOn port lanes s e) := by
  unfold State.announceOn
  try dsimp only
  repeat' first
    | with_reducible assumption
    | with_reducible apply when_kept
    | with_reducible apply sendLine_kept
    | intro _
    | split
    | dsimp only

theorem announce_kept {kq : List Instr} (g : Nat) (s : State) (kh : Kept kq s) : Kept kq (State.announce g s) := by
  unfold State.announce
  try dsimp only
  repeat' first
    | with_reducible assumption
    | with_reducible apply announceOn_kept
    | with_reducible apply foldl_kept
    | intro _
    | split
    | dsimp only

theorem execGroupAnnounce_kept {kq : List Instr} {ko : State} (group : Nat) (s : State) (kh : Kept kq s) (ke : execGroupAnnounce group s = .next ko) : Kept kq ko := by
  unfold execGroupAnnounce at ke
  refine next_kept ?_ ke
  try dsimp only
  repeat' first
    | with_reducible assumption
    | with_reducible apply announce_kept
    | intro _
    | split
    | dsimp only

theorem restoreSlot_kept {kq : List Instr} (g : Nat) (s : State) (slot : Nat) (kh : Kept kq s) : Kept kq (State.restoreSlot g s slot) := by
  unfold State.restoreSlot
  try dsimp only
  repeat' first
    | with_reducible assumption
    | with_reducible apply beginPort_kept
    | with_reducible apply clipRates_kept
    | with_reducible apply syncAround_kept
    | with_reducible apply removePort_kept
    | with_reducible apply foldl_kept
    | intro _
    | split
    | dsimp only

theorem restorePorts_kept {kq : List Instr} (g slots : Nat) (s : State) (kh : Kept kq s) : Kept kq (State.restorePorts g slots s) := by
  unfold State.restorePorts
  try dsimp only
  repeat' first
    | with_reducible assumption
    | with_reducible apply restoreSlot_kept
    | with_reducible apply foldl_kept
    | intro _
    | split
    | dsimp only

theorem execPortRestore_kept {kq : List Instr} {ko : State} (group slots : Nat) (s : State) (kh : Kept kq s) (ke : execPortRestore group slots s = .next ko) : Kept kq ko := by
  unfold execPortRestore at ke
  refine next_kept ?_ ke
  try dsimp only
  repeat' first
    | with_reducible assumption
    | with_reducible apply restorePorts_kept
    | intro _
    | split
    | dsimp only

theorem retrainLane_kept {kq : List Instr} (lane p : Nat) (s : State) (kh : Kept kq s) : Kept kq (State.retrainLane lane p s) := by
  unfold State.retrainLane
  try dsimp only
  repeat' first
    | with_reducible assumption
    | with_reducible apply count_kept
    | with_reducible apply onLine_kept
    | with_reducible apply portDown_kept
    | intro _
    | split
    | dsimp only

theorem retrainOrRetire_kept {kq : List Instr} (lane : Nat) (s : State) (kh : Kept kq s) : Kept kq (State.retrainOrRetire lane s) := by
  unfold State.retrainOrRetire
  try dsimp only
  repeat' first
    | with_reducible assumption
    | with_reducible apply occur_kept
    | with_reducible apply pageEv_kept
    | with_reducible apply retrainLane_kept
    | intro _
    | split
    | dsimp only

theorem execLaneLockLoss_kept {kq : List Instr} {ko : State} (lane : Nat) (s : State) (kh : Kept kq s) (ke : execLaneLockLoss lane s = .next ko) : Kept kq ko := by
  unfold execLaneLockLoss at ke
  refine next_kept ?_ ke
  try dsimp only
  repeat' first
    | with_reducible assumption
    | with_reducible apply portDown_kept
    | with_reducible apply retrainOrRetire_kept
    | intro _
    | split
    | dsimp only

theorem execLaneSymThreshold_kept {kq : List Instr} {ko : State} (lane : Nat) (fec : FecSecond) (s : State) (kh : Kept kq s) (ke : execLaneSymThreshold lane fec s = .next ko) : Kept kq ko := by
  unfold execLaneSymThreshold at ke
  refine next_kept ?_ ke
  try dsimp only
  repeat' first
    | with_reducible assumption
    | with_reducible apply count_kept
    | with_reducible apply when_kept
    | with_reducible apply retrainOrRetire_kept
    | intro _
    | split
    | dsimp only

theorem execPortLinkUp_kept {kq : List Instr} {ko : State} (port : Nat) (s : State) (kh : Kept kq s) (ke : execPortLinkUp port s = .next ko) : Kept kq ko := by
  unfold execPortLinkUp at ke
  refine next_kept ?_ ke
  try dsimp only
  repeat' first
    | with_reducible assumption
    | with_reducible apply onLine_kept
    | with_reducible apply setPort_kept
    | with_reducible apply clipRates_kept
    | with_reducible apply syncAround_kept
    | intro _
    | split
    | dsimp only

theorem execPortTrainTimeout_kept {kq : List Instr} {ko : State} (port : Nat) (s : State) (kh : Kept kq s) (ke : execPortTrainTimeout port s = .next ko) : Kept kq ko := by
  unfold execPortTrainTimeout at ke
  refine next_kept ?_ ke
  try dsimp only
  repeat' first
    | with_reducible assumption
    | with_reducible apply beginPort_kept
    | with_reducible apply syncAround_kept
    | intro _
    | split
    | dsimp only

theorem narrowPort_kept {kq : List Instr} (port : Nat) (s : State) (kh : Kept kq s) : Kept kq (State.narrowPort port s) := by
  unfold State.narrowPort
  try dsimp only
  repeat' first
    | with_reducible assumption
    | with_reducible apply occur_kept
    | with_reducible apply beginPort_kept
    | with_reducible apply clipRates_kept
    | with_reducible apply syncAround_kept
    | with_reducible apply portDown_kept
    | with_reducible apply removePort_kept
    | intro _
    | split
    | dsimp only

theorem execPortNarrow_kept {kq : List Instr} {ko : State} (port : Nat) (s : State) (kh : Kept kq s) (ke : execPortNarrow port s = .next ko) : Kept kq ko := by
  unfold execPortNarrow at ke
  refine next_kept ?_ ke
  try dsimp only
  repeat' first
    | with_reducible assumption
    | with_reducible apply narrowPort_kept
    | intro _
    | split
    | dsimp only

theorem execNarrowTimeout_kept {kq : List Instr} {ko : State} (port : Nat) (s : State) (kh : Kept kq s) (ke : execNarrowTimeout port s = .next ko) : Kept kq ko := by
  unfold execNarrowTimeout at ke
  refine next_kept ?_ ke
  try dsimp only
  repeat' first
    | with_reducible assumption
    | with_reducible apply portDown_kept
    | intro _
    | split
    | dsimp only

theorem setTime_kept {kq : List Instr} (sec half : Nat) (s : State) (kt : half < 2000000000) (kh : Kept kq s) :
    Kept kq (State.setTime sec half s) := by
  unfold State.setTime
  split
  · exact onPtp_kept _ kh.half kh.sec kh
  · exact onPtp_kept _ kt (Nat.mod_lt _ (Nat.two_pow_pos 48)) (minuteDue_kept _ _ kh)

theorem todWrite_kept {kq : List Instr} (value : Nat) (s : State) (kh : Kept kq s) : Kept kq (State.todWrite value s) := by
  unfold State.todWrite
  dsimp only
  split
  · exact setTime_kept _ _ _ kh.half (setF_kept _ _ _ kh)
  · exact onPtp_kept _ kh.half kh.sec (setF_kept _ _ _ kh)

theorem execPtpTodWrite_kept {kq : List Instr} {ko : State} (value : BitVec 32) (s : State) (kh : Kept kq s) (ke : execPtpTodWrite value s = .next ko) : Kept kq ko := by
  unfold execPtpTodWrite at ke
  refine next_kept ?_ ke
  try dsimp only
  repeat' first
    | with_reducible assumption
    | with_reducible apply todWrite_kept
    | intro _
    | split
    | dsimp only

theorem execPpsEdge_kept {kq : List Instr} {ko : State} (s : State) (kh : Kept kq s) (ke : execPpsEdge s = .next ko) : Kept kq ko := by
  unfold execPpsEdge at ke
  refine next_kept ?_ ke
  apply when_kept _ _ _ kh
  intro k
  dsimp only
  split
  · exact setTime_kept _ _ _ (by decide) (setF_kept _ _ _ k)
  · exact setF_kept _ _ _ k

theorem timeRead_kept {kq : List Instr} (rq : Requester) (s : State) (kh : Kept kq s) : Kept kq (State.timeRead rq s) := by
  unfold State.timeRead
  try dsimp only
  repeat' first
    | with_reducible assumption
    | with_reducible apply emit_kept
    | with_reducible apply setF_kept
    | intro _
    | split
    | dsimp only

theorem execPtpTimeRead_kept {kq : List Instr} {ko : State} (rq : Requester) (s : State) (kh : Kept kq s) (ke : execPtpTimeRead rq s = .next ko) : Kept kq ko := by
  unfold execPtpTimeRead at ke
  refine next_kept ?_ ke
  try dsimp only
  repeat' first
    | with_reducible assumption
    | with_reducible apply timeRead_kept
    | intro _
    | split
    | dsimp only

theorem ptpUpdate_kept {kq : List Instr} (offset slew : Int) (s0 : State) (kh : Kept kq s0) : Kept kq (State.ptpUpdate offset slew s0) := by
  unfold State.ptpUpdate
  dsimp only
  have k1 : Kept kq ((if s0.ptp.todPending then s0.setTime s0.todValue s0.ptp.half else s0).setF (pgGrp 0) F.PTP_STAT_SYNC 0) := by
    apply setF_kept
    split
    · exact setTime_kept _ _ _ kh.half kh
    · exact kh
  split
  · exact when_kept _ _ (fun k => minuteDue_kept _ _ k) (onPtp_kept _ (Nat.mod_lt _ (by decide)) (Nat.mod_lt _ (Nat.two_pow_pos 48)) k1)
  · exact record_kept _ _ (occur_kept _ (satAdd_kept _ _ _ (setTime_kept _ _ _ (Nat.mod_lt _ (by decide)) k1)))

theorem execPtpUpdate_kept {kq : List Instr} {ko : State} (offset slew : Int) (s : State) (kh : Kept kq s) (ke : execPtpUpdate offset slew s = .next ko) : Kept kq ko := by
  unfold execPtpUpdate at ke
  refine next_kept ?_ ke
  try dsimp only
  repeat' first
    | with_reducible assumption
    | with_reducible apply when_kept
    | with_reducible apply ptpUpdate_kept
    | intro _
    | split
    | dsimp only

theorem execPtpHoldoverTimeout_kept {kq : List Instr} {ko : State} (s : State) (kh : Kept kq s) (ke : execPtpHoldoverTimeout s = .next ko) : Kept kq ko := by
  unfold execPtpHoldoverTimeout at ke
  refine next_kept ?_ ke
  try dsimp only
  repeat' first
    | with_reducible assumption
    | with_reducible apply setF_kept
    | with_reducible apply when_kept
    | intro _
    | split
    | dsimp only

theorem execPtpFreeTimeout_kept {kq : List Instr} {ko : State} (s : State) (kh : Kept kq s) (ke : execPtpFreeTimeout s = .next ko) : Kept kq ko := by
  unfold execPtpFreeTimeout at ke
  refine next_kept ?_ ke
  try dsimp only
  repeat' first
    | with_reducible assumption
    | with_reducible apply occur_kept
    | with_reducible apply onTmgr_kept
    | with_reducible apply setF_kept
    | with_reducible apply when_kept
    | intro _
    | split
    | dsimp only

end Sys2Proof.Machine
end

