-- ==== Sys2Proof/Laws/Kept/StrpOps.lean ====
section
/-!
SUPPORT. What the operations of Machine/StrpOps.lean keep.
-/
namespace Sys2Proof.Machine
open Sys2Proof

theorem setPool_kept {kq : List Instr} (p : Nat) (v : PoolRt) (s : State) (kh : Kept kq s) : Kept kq (State.setPool p v s) := by
  unfold State.setPool
  try dsimp only
  repeat' first
    | with_reducible assumption
    | with_reducible apply onStrp_kept
    | with_reducible apply when_kept
    | with_reducible apply mirrorIf_kept
    | intro _
    | split
    | dsimp only

theorem onPool_kept {kq : List Instr} (p : Nat) (g : PoolRt → PoolRt) (s : State) (kh : Kept kq s) : Kept kq (State.onPool p g s) := by
  unfold State.onPool
  try dsimp only
  repeat' first
    | with_reducible assumption
    | with_reducible apply setPool_kept
    | intro _
    | split
    | dsimp only

theorem syncPool_kept {kq : List Instr} (p : Nat) (s : State) (kh : Kept kq s) : Kept kq (State.syncPool p s) := by
  unfold State.syncPool
  try dsimp only
  repeat' first
    | with_reducible assumption
    | with_reducible apply setF_kept
    | intro _
    | split
    | dsimp only

theorem writeBay_kept {kq : List Instr} (b : Nat) (e : List Emit) (g : StrpSt → StrpSt) (s : State) (kh : Kept kq s) : Kept kq (State.writeBay b e g s) := by
  unfold State.writeBay
  try dsimp only
  repeat' first
    | with_reducible assumption
    | with_reducible apply count_kept
    | with_reducible apply emit_kept
    | with_reducible apply occur_kept
    | with_reducible apply onStrp_kept
    | with_reducible apply foldl_kept
    | intro _
    | split
    | dsimp only

theorem putLabel_kept {kq : List Instr} (p bay : Nat) (l : PoolLabel) (s : State) (kh : Kept kq s) : Kept kq (State.putLabel p bay l s) := by
  unfold State.putLabel
  try dsimp only
  repeat' first
    | with_reducible assumption
    | with_reducible apply writeBay_kept
    | intro _
    | split
    | dsimp only

theorem writeLabels_kept {kq : List Instr} (p : Nat) (bump : Bool) (open0 open1 : Nat) (s : State) (kh : Kept kq s) : Kept kq (State.writeLabels p bump open0 open1 s) := by
  unfold State.writeLabels
  try dsimp only
  repeat' first
    | with_reducible assumption
    | with_reducible apply when_kept
    | with_reducible apply onPool_kept
    | with_reducible apply putLabel_kept
    | with_reducible apply foldl_kept
    | intro _
    | split
    | dsimp only

theorem relabel_kept {kq : List Instr} (p : Nat) (bump : Bool) (s : State) (kh : Kept kq s) : Kept kq (State.relabel p bump s) := by
  unfold State.relabel
  try dsimp only
  repeat' first
    | with_reducible assumption
    | with_reducible apply writeLabels_kept
    | intro _
    | split
    | dsimp only

theorem oslCopies_kept {kq : List Instr} (p : Nat) (ps : List Nat) (s : State) (kh : Kept kq s) : Kept kq (State.oslCopies p ps s) := by
  unfold State.oslCopies
  try dsimp only
  repeat' first
    | with_reducible assumption
    | with_reducible apply onPool_kept
    | with_reducible apply writeBay_kept
    | with_reducible apply foldl_kept
    | intro _
    | split
    | dsimp only

theorem oslWrite_kept {kq : List Instr} (p : Nat) (s : State) (kh : Kept kq s) : Kept kq (State.oslWrite p s) := by
  unfold State.oslWrite
  try dsimp only
  repeat' first
    | with_reducible assumption
    | with_reducible apply onPool_kept
    | with_reducible apply oslCopies_kept
    | intro _
    | split
    | dsimp only

theorem takeSpare_kept {kq : List Instr} (p pos : Nat) (s : State) (kh : Kept kq s) : Kept kq (State.takeSpare p pos s) := by
  unfold State.takeSpare
  try dsimp only
  repeat' first
    | with_reducible assumption
    | with_reducible apply count_kept
    | with_reducible apply occur_kept
    | with_reducible apply setPool_kept
    | intro _
    | split
    | dsimp only

theorem settlePool_kept {kq : List Instr} (p : Nat) (s : State) (kh : Kept kq s) : Kept kq (State.settlePool p s) := by
  unfold State.settlePool
  try dsimp only
  repeat' first
    | with_reducible assumption
    | with_reducible apply occur_kept
    | with_reducible apply when_kept
    | with_reducible apply setPool_kept
    | with_reducible apply syncPool_kept
    | with_reducible apply relabel_kept
    | with_reducible apply turnerRow_kept
    | intro _
    | split
    | dsimp only

theorem setLoss_kept {kq : List Instr} (p : Nat) (l : List LossEnt) (s : State) (kh : Kept kq s) : Kept kq (State.setLoss p l s) := by
  unfold State.setLoss
  try dsimp only
  repeat' first
    | with_reducible assumption
    | with_reducible apply onPool_kept
    | with_reducible apply writeBay_kept
    | with_reducible apply foldl_kept
    | intro _
    | split
    | dsimp only

theorem addLoss_kept {kq : List Instr} (p : Nat) (e : LossEnt) (s : State) (kh : Kept kq s) : Kept kq (State.addLoss p e s) := by
  unfold State.addLoss
  try dsimp only
  repeat' first
    | with_reducible assumption
    | with_reducible apply occur_kept
    | with_reducible apply onPool_kept
    | with_reducible apply setLoss_kept
    | intro _
    | split
    | dsimp only

theorem memberLoss_kept {kq : List Instr} (p : Nat) (s : State) (kh : Kept kq s) : Kept kq (State.memberLoss p s) := by
  unfold State.memberLoss
  try dsimp only
  repeat' first
    | with_reducible assumption
    | with_reducible apply count_kept
    | with_reducible apply occur_kept
    | with_reducible apply addLoss_kept
    | with_reducible apply foldl_kept
    | intro _
    | split
    | dsimp only

theorem failMember_kept {kq : List Instr} (p pos cause : Nat) (s : State) (kh : Kept kq s) : Kept kq (State.failMember p pos cause s) := by
  unfold State.failMember
  try dsimp only
  repeat' first
    | with_reducible assumption
    | with_reducible apply count_kept
    | with_reducible apply occur_kept
    | with_reducible apply onStrp_kept
    | with_reducible apply setPool_kept
    | with_reducible apply onPool_kept
    | with_reducible apply oslCopies_kept
    | with_reducible apply takeSpare_kept
    | with_reducible apply settlePool_kept
    | with_reducible apply memberLoss_kept
    | intro _
    | split
    | dsimp only

theorem bayLost_kept {kq : List Instr} (b : Nat) (s : State) (kh : Kept kq s) : Kept kq (State.bayLost b s) := by
  unfold State.bayLost
  try dsimp only
  repeat' first
    | with_reducible assumption
    | with_reducible apply occur_kept
    | with_reducible apply onPool_kept
    | with_reducible apply failMember_kept
    | with_reducible apply foldl_kept
    | intro _
    | split
    | dsimp only

theorem addSpare_kept {kq : List Instr} (p b : Nat) (s : State) (kh : Kept kq s) : Kept kq (State.addSpare p b s) := by
  unfold State.addSpare
  try dsimp only
  repeat' first
    | with_reducible assumption
    | with_reducible apply occur_kept
    | with_reducible apply setPool_kept
    | with_reducible apply putLabel_kept
    | with_reducible apply takeSpare_kept
    | with_reducible apply settlePool_kept
    | intro _
    | split
    | dsimp only

theorem bayArrived_kept {kq : List Instr} (b : Nat) (s : State) (kh : Kept kq s) : Kept kq (State.bayArrived b s) := by
  unfold State.bayArrived
  try dsimp only
  repeat' first
    | with_reducible assumption
    | with_reducible apply addSpare_kept
    | with_reducible apply foldl_kept
    | intro _
    | split
    | dsimp only

end Sys2Proof.Machine
end

