-- ==== Sys2Proof/Laws/Kept/CmprFmt.lean ====
section
/-!
SUPPORT. What the operations of Machine/CmprFmt.lean keep.
-/
namespace Sys2Proof.Machine
open Sys2Proof

theorem integrityRec_kept {kq : List Instr} (lun volume reason outcome u lane crc : Nat) (s : State) (kh : Kept kq s) : Kept kq (State.integrityRec lun volume reason outcome u lane crc s) := by
  unfold State.integrityRec
  try dsimp only
  repeat' first
    | with_reducible assumption
    | with_reducible apply onCmpr_kept
    | with_reducible apply setF_kept
    | intro _
    | split
    | dsimp only

end Sys2Proof.Machine
end

