-- ==== Sys2Proof/Laws/Kept/PlceOps.lean ====
section
/-!
SUPPORT. What the operations of Machine/PlceOps.lean keep.
-/
namespace Sys2Proof.Machine
open Sys2Proof

theorem unitErr_kept {kq : List Instr} (v lun count cause : Nat) (s : State) (kh : Kept kq s) : Kept kq (State.unitErr v lun count cause s) := by
  unfold State.unitErr
  try dsimp only
  repeat' first
    | with_reducible assumption
    | with_reducible apply count_kept
    | with_reducible apply deferredErr_kept
    | intro _
    | split
    | dsimp only

theorem syncMap_kept {kq : List Instr} (s : State) (kh : Kept kq s) : Kept kq (State.syncMap s) := by
  unfold State.syncMap
  try dsimp only
  repeat' first
    | with_reducible assumption
    | with_reducible apply count_kept
    | with_reducible apply setF_kept
    | intro _
    | split
    | dsimp only

theorem pageUsed_kept {kq : List Instr} (k : Nat) (s : State) (kh : Kept kq s) : Kept kq (State.pageUsed k s) := by
  unfold State.pageUsed
  try dsimp only
  repeat' first
    | with_reducible assumption
    | with_reducible apply onPlce_kept
    | intro _
    | split
    | dsimp only

theorem takeFrame_keptO {kq : List Instr} (s : State) (kh : Kept kq s) : OptKept kq (State.takeFrame s) := by
  unfold State.takeFrame
  try dsimp only
  repeat' first
    | with_reducible assumption
    | with_reducible apply onPlce_kept
    | with_reducible exact optKept_none
    | with_reducible apply optKept_some
    | with_reducible apply optKept_map
    | with_reducible apply optKept_foldl
    | exact OptKept.kept (by assumption) _ rfl
    | intro _
    | split
    | dsimp only
theorem takeFrame_keptE {kq : List Instr} {ko : State} {s : State} (kh : Kept kq s) (ke : State.takeFrame s = some ko) : Kept kq ko := (takeFrame_keptO s kh).kept ko ke

theorem fillFrame_kept {kq : List Instr} (k : Nat) (s : State) (kh : Kept kq s) : Kept kq (State.fillFrame k s) := by
  unfold State.fillFrame
  try dsimp only
  repeat' first
    | with_reducible assumption
    | with_reducible apply onPlce_kept
    | with_reducible apply syncMap_kept
    | with_reducible apply pageUsed_kept
    | intro _
    | split
    | dsimp only

theorem readCopy_keptO {kq : List Instr} (k cls : Nat) (s : State) (kh : Kept kq s) : OptKept kq (State.readCopy k cls s) := by
  unfold State.readCopy
  try dsimp only
  repeat' first
    | with_reducible assumption
    | with_reducible apply onPlce_kept
    | with_reducible apply drvSubmit_kept
    | with_reducible exact optKept_none
    | with_reducible apply optKept_some
    | with_reducible apply optKept_map
    | with_reducible apply optKept_foldl
    | exact OptKept.kept (by assumption) _ rfl
    | intro _
    | split
    | dsimp only
theorem readCopy_keptE {kq : List Instr} {ko : State} {k cls : Nat} {s : State} (kh : Kept kq s) (ke : State.readCopy k cls s = some ko) : Kept kq ko := (readCopy_keptO k cls s kh).kept ko ke

theorem lookupPage_kept2 {kq : List Instr} (k cls : Nat) (s : State) (kh : Kept kq s) : Kept kq (State.lookupPage k cls s).2 := by
  unfold State.lookupPage
  try dsimp only
  repeat' first
    | with_reducible assumption
    | with_reducible apply count_kept
    | with_reducible apply onPlce_kept
    | with_reducible apply onStrp_kept
    | with_reducible apply pageUsed_kept
    | with_reducible apply fillFrame_kept
    | with_reducible apply optKept_getD
    | with_reducible apply takeFrame_keptO
    | with_reducible apply readCopy_keptO
    | intro _
    | split
    | (refine takeFrame_keptE ?_ (by with_reducible assumption))
    | (refine readCopy_keptE ?_ (by with_reducible assumption))
    | dsimp only
theorem lookupPage_keptE {kq : List Instr} {ko : State} {x0 : Bool} {k cls : Nat} {s : State} (kh : Kept kq s) (ke : State.lookupPage k cls s = (x0,ko)) : Kept kq ko := by
  have kt := lookupPage_kept2 k cls s kh
  rw [ke] at kt
  exact kt

theorem setSeg_kept {kq : List Instr} (p n : Nat) (g : Seg) (s : State) (kh : Kept kq s) : Kept kq (State.setSeg p n g s) := by
  unfold State.setSeg
  try dsimp only
  repeat' first
    | with_reducible assumption
    | with_reducible apply onPlce_kept
    | with_reducible apply when_kept
    | with_reducible apply mirrorIf_kept
    | intro _
    | split
    | dsimp only

theorem onSeg_kept {kq : List Instr} (p n : Nat) (f : Seg → Seg) (s : State) (kh : Kept kq s) : Kept kq (State.onSeg p n f s) := by
  unfold State.onSeg
  try dsimp only
  repeat' first
    | with_reducible assumption
    | with_reducible apply setSeg_kept
    | intro _
    | split
    | dsimp only

theorem settleSeg_kept {kq : List Instr} (p n : Nat) (s : State) (kh : Kept kq s) : Kept kq (State.settleSeg p n s) := by
  unfold State.settleSeg
  try dsimp only
  repeat' first
    | with_reducible assumption
    | with_reducible apply count_kept
    | with_reducible apply onFab_kept
    | with_reducible apply onPlce_kept
    | with_reducible apply setF_kept
    | with_reducible apply setSeg_kept
    | intro _
    | split
    | dsimp only

theorem keyStored_kept {kq : List Instr} (k idx : Nat) (s : State) (kh : Kept kq s) : Kept kq (State.keyStored k idx s) := by
  unfold State.keyStored
  try dsimp only
  repeat' first
    | with_reducible assumption
    | with_reducible apply onGard_kept
    | with_reducible apply onPlce_kept
    | intro _
    | split
    | dsimp only

theorem mapChange_kept {kq : List Instr} (v lun new seq : Nat) (s : State) (kh : Kept kq s) : Kept kq (State.mapChange v lun new seq s) := by
  unfold State.mapChange
  try dsimp only
  repeat' first
    | with_reducible assumption
    | with_reducible apply count_kept
    | with_reducible apply onPlce_kept
    | with_reducible apply mirrorIf_kept
    | with_reducible apply syncMap_kept
    | with_reducible apply onSeg_kept
    | with_reducible apply settleSeg_kept
    | intro _
    | split
    | dsimp only

theorem commitSealed_kept {kq : List Instr} (v lun new seq idx : Nat) (s : State) (kh : Kept kq s) : Kept kq (State.commitSealed v lun new seq idx s) := by
  unfold State.commitSealed
  try dsimp only
  repeat' first
    | with_reducible assumption
    | with_reducible apply keyStored_kept
    | with_reducible apply mapChange_kept
    | intro _
    | split
    | dsimp only

theorem commitEntry_kept {kq : List Instr} (v lun new seq : Nat) (s : State) (kh : Kept kq s) : Kept kq (State.commitEntry v lun new seq s) := by
  unfold State.commitEntry
  try dsimp only
  repeat' first
    | with_reducible assumption
    | with_reducible apply commitSealed_kept
    | intro _
    | split
    | dsimp only

theorem takeSeg_kept {kq : List Instr} (p stream : Nat) (s : State) (kh : Kept kq s) : Kept kq (State.takeSeg p stream s) := by
  unfold State.takeSeg
  try dsimp only
  repeat' first
    | with_reducible assumption
    | with_reducible apply onPlce_kept
    | with_reducible apply relabel_kept
    | with_reducible apply oslWrite_kept
    | with_reducible apply setSeg_kept
    | intro _
    | split
    | dsimp only

theorem issueStripe_kept {kq : List Instr} (x : Stripe) (s : State) (kh : Kept kq s) : Kept kq (State.issueStripe x s) := by
  unfold State.issueStripe
  try dsimp only
  repeat' first
    | with_reducible assumption
    | with_reducible apply emit_kept
    | with_reducible apply onPlce_kept
    | with_reducible apply ship_kept
    | with_reducible apply mirrorIf_kept
    | with_reducible apply drvSubmit_kept
    | with_reducible apply foldl_kept
    | intro _
    | split
    | dsimp only

theorem closeStripe_kept {kq : List Instr} (p stream : Nat) (s : State) (kh : Kept kq s) : Kept kq (State.closeStripe p stream s) := by
  unfold State.closeStripe
  try dsimp only
  repeat' first
    | with_reducible assumption
    | with_reducible apply count_kept
    | with_reducible apply onPlce_kept
    | with_reducible apply onSeg_kept
    | with_reducible apply takeSeg_kept
    | with_reducible apply issueStripe_kept
    | intro _
    | split
    | dsimp only

theorem setReadJob_kept {kq : List Instr} (j : Nat) (r : RUnit) (s : State) (kh : Kept kq s) : Kept kq (State.setReadJob j r s) := by
  unfold State.setReadJob
  try dsimp only
  repeat' first
    | with_reducible assumption
    | with_reducible apply onCmpr_kept
    | intro _
    | split
    | dsimp only

theorem slotDrive_kept {kq : List Instr} (f : RFor) (bay : Nat) (s : State) (kh : Kept kq s) : Kept kq (State.slotDrive f bay s) := by
  unfold State.slotDrive
  try dsimp only
  repeat' first
    | with_reducible assumption
    | with_reducible apply onSlot_kept
    | intro _
    | split
    | dsimp only

theorem askParts_keptO {kq : List Instr} (j : Nat) (bad : List Nat) (s : State) (kh : Kept kq s) : OptKept kq (State.askParts j bad s) := by
  unfold State.askParts
  try dsimp only
  repeat' first
    | with_reducible assumption
    | with_reducible apply count_kept
    | with_reducible apply onCmpr_kept
    | with_reducible apply when_kept
    | with_reducible apply drvSubmit_kept
    | with_reducible apply onSeg_kept
    | with_reducible apply slotDrive_kept
    | with_reducible apply foldl_kept
    | with_reducible exact optKept_none
    | with_reducible apply optKept_some
    | with_reducible apply optKept_map
    | with_reducible apply optKept_foldl
    | exact OptKept.kept (by assumption) _ rfl
    | intro _
    | split
    | dsimp only
theorem askParts_keptE {kq : List Instr} {ko : State} {j : Nat} {bad : List Nat} {s : State} (kh : Kept kq s) (ke : State.askParts j bad s = some ko) : Kept kq ko := (askParts_keptO j bad s kh).kept ko ke

theorem rewriteRows_kept {kq : List Instr} (p stripe role off count : Nat) (data : Option Nat) (s : State) (kh : Kept kq s) : Kept kq (State.rewriteRows p stripe role off count data s) := by
  unfold State.rewriteRows
  try dsimp only
  repeat' first
    | with_reducible assumption
    | with_reducible apply count_kept
    | with_reducible apply drvWrite_kept
    | with_reducible apply foldl_kept
    | intro _
    | split
    | dsimp only

theorem newRead_kept2 {kq : List Instr} (v lun : Nat) (f : RFor) (ranges : List (Nat × Nat)) (part : Bool) (cls : Nat) (s : State) (kh : Kept kq s) : Kept kq (State.newRead v lun f ranges part cls s).2 := by
  unfold State.newRead
  try dsimp only
  repeat' first
    | with_reducible assumption
    | with_reducible apply onCmpr_kept
    | intro _
    | split
    | dsimp only
theorem newRead_keptE {kq : List Instr} {ko : State} {x0 : Nat} (v lun : Nat) (f : RFor) (ranges : List (Nat × Nat)) (part : Bool) (cls : Nat) (s : State) (kh : Kept kq s) (ke : State.newRead v lun f ranges part cls s = (x0,ko)) : Kept kq ko := by
  have kt := newRead_kept2 v lun f ranges part cls s kh
  rw [ke] at kt
  exact kt

theorem bgEnd_kept {kq : List Instr} (x : Nat × Nat × Nat × Nat) (s : State) (kh : Kept kq s) : Kept kq (State.bgEnd x s) := by
  unfold State.bgEnd
  try dsimp only
  repeat' first
    | with_reducible assumption
    | with_reducible apply onStrp_kept
    | with_reducible apply when_kept
    | with_reducible apply dropKind_kept
    | with_reducible apply onSeg_kept
    | intro _
    | split
    | dsimp only

theorem bgAsk_kept {kq : List Instr} (e p g w : Nat) (part : Nat × Nat × Nat × Nat) (s : State) (kh : Kept kq s) : Kept kq (State.bgAsk e p g w part s) := by
  unfold State.bgAsk
  try dsimp only
  repeat' first
    | with_reducible assumption
    | with_reducible apply drvSubmit_kept
    | intro _
    | split
    | dsimp only

theorem bgRead_kept2 {kq : List Instr} (e p g w bytes : Nat) (parts : List (Nat × Nat × Nat)) (s0 : State) (kh : Kept kq s0) : Kept kq (State.bgRead e p g w bytes parts s0).2 := by
  unfold State.bgRead
  try dsimp only
  repeat' first
    | with_reducible assumption
    | with_reducible apply onStrp_kept
    | with_reducible apply when_kept
    | with_reducible apply bgTake_kept2
    | with_reducible apply onSeg_kept
    | with_reducible apply bgEnd_kept
    | with_reducible apply bgAsk_kept
    | with_reducible apply foldl_kept
    | with_reducible exact optKept_none
    | with_reducible apply optKept_some
    | with_reducible apply optKept_map
    | with_reducible apply optKept_foldl
    | exact OptKept.kept (by assumption) _ rfl
    | intro _
    | split
    | (refine bgTake_keptE ?_ (by with_reducible assumption))
    | dsimp only
theorem bgRead_keptE {kq : List Instr} {ko : State} {x0 : Option (List (Option Nat))} (e p g w bytes : Nat) (parts : List (Nat × Nat × Nat)) (s0 : State) (kh : Kept kq s0) (ke : State.bgRead e p g w bytes parts s0 = (x0,ko)) : Kept kq ko := by
  have kt := bgRead_kept2 e p g w bytes parts s0 kh
  rw [ke] at kt
  exact kt

theorem bgBack_kept {kq : List Instr} (b : Nat) (r : DrvReq) (got : Option Nat) (s : State) (kh : Kept kq s) : Kept kq (State.bgBack b r got s) := by
  unfold State.bgBack
  try dsimp only
  repeat' first
    | with_reducible assumption
    | with_reducible apply onStrp_kept
    | intro _
    | split
    | dsimp only

theorem bgAgain_keptE {kq : List Instr} {ko : State} {x0 e p w i : Nat} {s : State} (kh : Kept kq s)
    (ke : State.bgAgain e p w i s = some (x0, ko)) : Kept kq ko := by
  unfold State.bgAgain at ke
  obtain ⟨d, _, ke⟩ := Option.map_eq_some_iff.mp ke
  injection ke with _ ke
  exact ke ▸ drvSubmit_kept _ _ _ (onStrp_kept _ kh)

end Sys2Proof.Machine
end

