-- ==== Sys2Proof/Laws/Kept/JrnlOps.lean ====
section
/-!
SUPPORT. What the operations of Machine/JrnlOps.lean keep.
-/
namespace Sys2Proof.Machine
open Sys2Proof

theorem setRec_kept {kq : List Instr} (k : Nat) (r : JRec) (s : State) (kh : Kept kq s) : Kept kq (State.setRec k r s) := by
  unfold State.setRec
  try dsimp only
  repeat' first
    | with_reducible assumption
    | with_reducible apply onJrnl_kept
    | intro _
    | split
    | dsimp only

theorem syncJrnl_kept {kq : List Instr} (s : State) (kh : Kept kq s) : Kept kq (State.syncJrnl s) := by
  unfold State.syncJrnl
  try dsimp only
  repeat' first
    | with_reducible assumption
    | with_reducible apply setF_kept
    | intro _
    | split
    | dsimp only

theorem openRec_kept {kq : List Instr} (r : JRec) (s : State) (kh : Kept kq s) : Kept kq (State.openRec r s) := by
  unfold State.openRec
  try dsimp only
  repeat' first
    | with_reducible assumption
    | with_reducible apply onJrnl_kept
    | with_reducible apply mirrorIf_kept
    | with_reducible apply onSlot_kept
    | with_reducible apply opened_kept
    | with_reducible apply syncJrnl_kept
    | intro _
    | split
    | dsimp only

theorem dropRec_kept {kq : List Instr} (k : Nat) (s : State) (kh : Kept kq s) : Kept kq (State.dropRec k s) := by
  unfold State.dropRec
  try dsimp only
  repeat' first
    | with_reducible assumption
    | with_reducible apply onJrnl_kept
    | with_reducible apply syncJrnl_kept
    | intro _
    | split
    | dsimp only

theorem recDone_kept {kq : List Instr} (r : JRec) (s : State) (kh : Kept kq s) : Kept kq (State.recDone r s) := by
  unfold State.recDone
  try dsimp only
  repeat' first
    | with_reducible assumption
    | with_reducible apply onSlot_kept
    | intro _
    | split
    | dsimp only

theorem lastRec_kept {kq : List Instr} (n : Nat) (s : State) (kh : Kept kq s) : Kept kq (State.lastRec n s) := by
  unfold State.lastRec
  try dsimp only
  repeat' first
    | with_reducible assumption
    | with_reducible apply onJrnl_kept
    | with_reducible apply onSlot_kept
    | with_reducible apply commitSlot_kept
    | intro _
    | split
    | dsimp only

theorem commitRec_kept {kq : List Instr} (k : Nat) (s : State) (kh : Kept kq s) : Kept kq (State.commitRec k s) := by
  unfold State.commitRec
  try dsimp only
  repeat' first
    | with_reducible assumption
    | with_reducible apply count_kept
    | with_reducible apply onJrnl_kept
    | with_reducible apply when_kept
    | with_reducible apply mirrorIf_kept
    | with_reducible apply setRec_kept
    | with_reducible apply syncJrnl_kept
    | with_reducible apply recDone_kept
    | with_reducible apply lastRec_kept
    | intro _
    | split
    | dsimp only

theorem dropPieces_kept {kq : List Instr} (n : Nat) (s : State) (kh : Kept kq s) : Kept kq (State.dropPieces n s) := by
  unfold State.dropPieces
  try dsimp only
  repeat' first
    | with_reducible assumption
    | with_reducible apply count_kept
    | with_reducible apply mirrorIf_kept
    | with_reducible apply dropRec_kept
    | with_reducible apply foldl_kept
    | intro _
    | split
    | dsimp only

theorem discardRec_kept {kq : List Instr} (k : Nat) (s : State) (kh : Kept kq s) : Kept kq (State.discardRec k s) := by
  unfold State.discardRec
  try dsimp only
  repeat' first
    | with_reducible assumption
    | with_reducible apply count_kept
    | with_reducible apply mirrorIf_kept
    | with_reducible apply commitSlot_kept
    | with_reducible apply workReturned_kept
    | with_reducible apply dropRec_kept
    | with_reducible apply recDone_kept
    | with_reducible apply dropPieces_kept
    | intro _
    | split
    | dsimp only

theorem stepOne_kept {kq : List Instr} (k : Nat) (s : State) (kh : Kept kq s) : Kept kq (State.stepOne k s) := by
  unfold State.stepOne
  try dsimp only
  repeat' first
    | with_reducible assumption
    | with_reducible apply setRec_kept
    | with_reducible apply commitRec_kept
    | with_reducible apply discardRec_kept
    | intro _
    | split
    | dsimp only

theorem stepPieces_kept {kq : List Instr} (fuel : Nat) : ∀ (k : Nat) (s : State), Kept kq s → Kept kq (State.stepPieces fuel k s) := by
  induction fuel with
  | zero => exact fun _ _ kh => kh
  | succ n ih =>
    intro k s kh
    unfold State.stepPieces
    try dsimp only
    repeat' first
      | with_reducible assumption
      | with_reducible apply stepOne_kept
      | with_reducible apply ih
      | intro _
      | split
      | dsimp only

theorem stepRec_kept {kq : List Instr} (k : Nat) (s : State) (kh : Kept kq s) : Kept kq (State.stepRec k s) := stepPieces_kept 32 k s kh

theorem soloRecords_kept {kq : List Instr} (s : State) (kh : Kept kq s) : Kept kq (State.soloRecords s) := by
  unfold State.soloRecords
  try dsimp only
  repeat' first
    | with_reducible assumption
    | with_reducible apply when_kept
    | with_reducible apply count_kept
    | with_reducible apply stepRec_kept
    | with_reducible apply foldl_kept
    | intro _
    | split
    | dsimp only

theorem releaseRecs_kept {kq : List Instr} (s : State) (kh : Kept kq s) : Kept kq (State.releaseRecs s) := by
  unfold State.releaseRecs
  try dsimp only
  repeat' first
    | with_reducible assumption
    | with_reducible apply count_kept
    | with_reducible apply onJrnl_kept
    | with_reducible apply mirrorIf_kept
    | with_reducible apply syncJrnl_kept
    | with_reducible apply foldl_kept
    | intro _
    | split
    | dsimp only

theorem unitPlaced_kept {kq : List Instr} (recs : List Nat) (lun : Nat) (change : Nat × Nat) (s : State) (kh : Kept kq s) : Kept kq (State.unitPlaced recs lun change s) := by
  unfold State.unitPlaced
  try dsimp only
  repeat' first
    | with_reducible assumption
    | with_reducible apply count_kept
    | with_reducible apply onJrnl_kept
    | with_reducible apply placed_kept
    | with_reducible apply setRec_kept
    | with_reducible apply syncJrnl_kept
    | with_reducible apply releaseRecs_kept
    | with_reducible apply foldl_kept
    | intro _
    | split
    | dsimp only

theorem setJob_kept {kq : List Instr} (j : Nat) (w : WUnit) (s : State) (kh : Kept kq s) : Kept kq (State.setJob j w s) := by
  unfold State.setJob
  try dsimp only
  repeat' first
    | with_reducible assumption
    | with_reducible apply onCmpr_kept
    | intro _
    | split
    | dsimp only

theorem handCells_kept {kq : List Instr} (j : Nat) (s : State) (kh : Kept kq s) : Kept kq (State.handCells j s) := by
  unfold State.handCells
  try dsimp only
  repeat' first
    | with_reducible assumption
    | with_reducible apply ship_kept
    | with_reducible apply destage_kept
    | intro _
    | split
    | dsimp only

theorem endJob_kept {kq : List Instr} (j : Nat) (s : State) (kh : Kept kq s) : Kept kq (State.endJob j s) := by
  unfold State.endJob
  try dsimp only
  repeat' first
    | with_reducible assumption
    | with_reducible apply onCmpr_kept
    | with_reducible apply onPlce_kept
    | with_reducible apply dropKind_kept
    | with_reducible apply job_kept
    | intro _
    | split
    | dsimp only

theorem finishJob_kept {kq : List Instr} (j entry : Nat) (s : State) (kh : Kept kq s) : Kept kq (State.finishJob j entry s) := by
  unfold State.finishJob
  try dsimp only
  repeat' first
    | with_reducible assumption
    | with_reducible apply commitSealed_kept
    | with_reducible apply unitPlaced_kept
    | with_reducible apply endJob_kept
    | with_reducible apply destage_kept
    | intro _
    | split
    | dsimp only

theorem unitErrs_kept {kq : List Instr} (cause : Nat) (us : List (Nat × Nat)) (s : State) (kh : Kept kq s) : Kept kq (State.unitErrs cause us s) := by
  unfold State.unitErrs
  try dsimp only
  repeat' first
    | with_reducible assumption
    | with_reducible apply unitErr_kept
    | with_reducible apply foldl_kept
    | intro _
    | split
    | dsimp only

theorem failJob_kept {kq : List Instr} (j cause : Nat) (s : State) (kh : Kept kq s) : Kept kq (State.failJob j cause s) := by
  unfold State.failJob
  try dsimp only
  repeat' first
    | with_reducible assumption
    | with_reducible apply unitErr_kept
    | with_reducible apply finishJob_kept
    | intro _
    | split
    | dsimp only

end Sys2Proof.Machine
end

