-- ==== Sys2Proof/Laws/Kept/SaveOps.lean ====
section
/-!
SUPPORT. What the operations of Machine/SaveOps.lean keep.
-/
namespace Sys2Proof.Machine
open Sys2Proof

theorem writeImage_kept {kq : List Instr} (s0 : State) (kh : Kept kq s0) : Kept kq (State.writeImage s0) := by
  unfold State.writeImage
  try dsimp only
  repeat' first
    | with_reducible assumption
    | with_reducible apply draw_kept2
    | with_reducible apply emit_kept
    | with_reducible apply foldl_kept
    | intro _
    | split
    | (refine draw_kept ?_ (by with_reducible assumption))
    | dsimp only

end Sys2Proof.Machine
end

