-- ==== Sys2Proof/Laws/Kept/JrnlExec.lean ====
section
/-!
SUPPORT. What the operations of Machine/JrnlExec.lean keep.
-/
namespace Sys2Proof.Machine
open Sys2Proof

theorem execJrnlRecordOpen_kept {kq : List Instr} {ko : State} (slot : Nat) (s : State) (kh : Kept kq s) (ke : execJrnlRecordOpen slot s = .next ko) : Kept kq ko := by
  unfold execJrnlRecordOpen at ke
  refine next_kept ?_ ke
  try dsimp only
  repeat' first
    | with_reducible assumption
    | with_reducible apply setSlot_kept
    | with_reducible apply openRec_kept
    | with_reducible apply writeData_kept2
    | intro _
    | split
    | (refine writeData_keptE ?_ (by with_reducible assumption))
    | dsimp only

theorem copied_kept {kq : List Instr} (u : Nat) (s : State) (kh : Kept kq s) : Kept kq (State.copied u s) := by
  unfold State.copied
  try dsimp only
  repeat' first
    | with_reducible assumption
    | with_reducible apply onCell_kept
    | with_reducible apply dropUnit_kept
    | with_reducible apply unrefKind_kept
    | intro _
    | split
    | dsimp only

theorem execJrnlLocalPlaced_kept {kq : List Instr} {ko : State} (rec : Nat) (ue : Bool) (s : State) (kh : Kept kq s) (ke : execJrnlLocalPlaced rec ue s = .next ko) : Kept kq ko := by
  unfold execJrnlLocalPlaced at ke
  refine next_kept ?_ ke
  try dsimp only
  repeat' first
    | with_reducible assumption
    | with_reducible apply occur_kept
    | with_reducible apply when_kept
    | with_reducible apply settleResets_kept
    | with_reducible apply opened_kept
    | with_reducible apply fetched_kept
    | with_reducible apply setRec_kept
    | with_reducible apply stepRec_kept
    | with_reducible apply copied_kept
    | with_reducible apply writeData_kept2
    | with_reducible apply foldl_kept
    | intro _
    | split
    | (refine writeData_keptE ?_ (by with_reducible assumption))
    | dsimp only

theorem execJrnlMirrorLate_kept {kq : List Instr} {ko : State} (rec : Nat) (s : State) (kh : Kept kq s) (ke : execJrnlMirrorLate rec s = .next ko) : Kept kq ko := by
  unfold execJrnlMirrorLate at ke
  refine next_kept ?_ ke
  try dsimp only
  repeat' first
    | with_reducible assumption
    | with_reducible apply occur_kept
    | with_reducible apply when_kept
    | with_reducible apply opened_kept
    | intro _
    | split
    | dsimp only

theorem uncoveredErr_kept {kq : List Instr} (v lun cover : Nat) (s : State) (kh : Kept kq s) : Kept kq (State.uncoveredErr v lun cover s) := by
  unfold State.uncoveredErr
  try dsimp only
  repeat' first
    | with_reducible assumption
    | with_reducible apply deferredErr_kept
    | with_reducible apply foldl_kept
    | intro _
    | split
    | dsimp only

theorem poisonErr_kept {kq : List Instr} (r : JRec) (s : State) (kh : Kept kq s) : Kept kq (State.poisonErr r s) := by
  unfold State.poisonErr
  try dsimp only
  repeat' first
    | with_reducible assumption
    | with_reducible apply deferredErr_kept
    | intro _
    | split
    | dsimp only

theorem newJob_kept2 {kq : List Instr} (w : WUnit) (s : State) (kh : Kept kq s) : Kept kq (State.newJob w s).2 := by
  unfold State.newJob
  try dsimp only
  repeat' first
    | with_reducible assumption
    | with_reducible apply onCmpr_kept
    | intro _
    | split
    | dsimp only
theorem newJob_keptE {kq : List Instr} {ko : State} {x0 : Nat} {w : WUnit} {s : State} (kh : Kept kq s) (ke : State.newJob w s = (x0,ko)) : Kept kq ko := by
  have kt := newJob_kept2 w s kh
  rw [ke] at kt
  exact kt

theorem handUnit_kept {kq : List Instr} (v lun : Nat) (recs : List Nat) (s : State) (kh : Kept kq s) : Kept kq (State.handUnit v lun recs s) := by
  unfold State.handUnit
  try dsimp only
  repeat' first
    | with_reducible assumption
    | with_reducible apply count_kept
    | with_reducible apply onCmpr_kept
    | with_reducible apply newRead_kept2
    | with_reducible apply setJob_kept
    | with_reducible apply handCells_kept
    | with_reducible apply finishJob_kept
    | with_reducible apply failJob_kept
    | with_reducible apply uncoveredErr_kept
    | with_reducible apply newJob_kept2
    | intro _
    | split
    | (refine askParts_keptE ?_ (by with_reducible assumption))
    | (refine newRead_keptE ?_ (by with_reducible assumption))
    | (refine newJob_keptE ?_ (by with_reducible assumption))
    | dsimp only

theorem handoff_kept {kq : List Instr} (v lun : Nat) (s : State) (kh : Kept kq s) : Kept kq (State.handoff v lun s) := by
  unfold State.handoff
  try dsimp only
  repeat' first
    | with_reducible assumption
    | with_reducible apply count_kept
    | with_reducible apply onPlce_kept
    | with_reducible apply lookupPage_kept2
    | with_reducible apply setRec_kept
    | with_reducible apply syncJrnl_kept
    | with_reducible apply poisonErr_kept
    | with_reducible apply handUnit_kept
    | with_reducible apply foldl_kept
    | intro _
    | split
    | (refine lookupPage_keptE ?_ (by with_reducible assumption))
    | dsimp only

theorem execJrnlHandoff_kept {kq : List Instr} {ko : State} (volume lun : Nat) (s : State) (kh : Kept kq s) (ke : execJrnlHandoff volume lun s = .next ko) : Kept kq ko := by
  unfold execJrnlHandoff at ke
  refine next_kept ?_ ke
  try dsimp only
  repeat' first
    | with_reducible assumption
    | with_reducible apply handoff_kept
    | intro _
    | split
    | dsimp only

theorem execPowerFailAssert_kept {kq : List Instr} {ko : State} (s : State) (kh : Kept kq s) (ke : execPowerFailAssert s = .next ko) : Kept kq ko := by
  unfold execPowerFailAssert at ke
  refine next_kept ?_ ke
  try dsimp only
  repeat' first
    | with_reducible assumption
    | with_reducible apply onJrnl_kept
    | intro _
    | split
    | dsimp only

theorem execPowerFailGlitch_kept {kq : List Instr} {ko : State} (s : State) (kh : Kept kq s) (ke : execPowerFailGlitch s = .next ko) : Kept kq ko := by
  unfold execPowerFailGlitch at ke
  refine next_kept ?_ ke
  try dsimp only
  repeat' first
    | with_reducible assumption
    | with_reducible apply count_kept
    | with_reducible apply onJrnl_kept
    | intro _
    | split
    | dsimp only

theorem beginSave_kept {kq : List Instr} (s : State) (kh : Kept kq s) : Kept kq (State.beginSave s) := by
  unfold State.beginSave
  try dsimp only
  repeat' first
    | with_reducible assumption
    | with_reducible apply emit_kept
    | with_reducible apply onFab_kept
    | with_reducible apply onJrnl_kept
    | with_reducible apply setF_kept
    | with_reducible apply stopPorts_kept
    | with_reducible apply syncJrnl_kept
    | with_reducible apply foldl_kept
    | intro _
    | split
    | dsimp only

theorem execSaveQuiesceEnd_kept {kq : List Instr} {ko : State} (s : State) (kh : Kept kq s) (ke : execSaveQuiesceEnd s = .next ko) : Kept kq ko := by
  unfold execSaveQuiesceEnd at ke
  refine next_kept ?_ ke
  try dsimp only
  repeat' first
    | with_reducible assumption
    | with_reducible apply onJrnl_kept
    | with_reducible apply setF_kept
    | with_reducible apply opened_kept
    | intro _
    | split
    | dsimp only

theorem execSaveWriteEnd_kept {kq : List Instr} {ko : State} (s : State) (kh : Kept kq s) (ke : execSaveWriteEnd s = .next ko) : Kept kq ko := by
  unfold execSaveWriteEnd at ke
  refine next_kept ?_ ke
  try dsimp only
  repeat' first
    | with_reducible assumption
    | with_reducible apply count_kept
    | with_reducible apply emit_kept
    | with_reducible apply onJrnl_kept
    | with_reducible apply writeImage_kept
    | with_reducible apply foldl_kept
    | intro _
    | split
    | dsimp only

theorem execSaveMemberFail_kept {kq : List Instr} {ko : State} (bay : Nat) (s : State) (kh : Kept kq s) (ke : execSaveMemberFail bay s = .next ko) : Kept kq ko := by
  unfold execSaveMemberFail at ke
  refine next_kept ?_ ke
  try dsimp only
  repeat' first
    | with_reducible assumption
    | with_reducible apply occur_kept
    | with_reducible apply onJrnl_kept
    | with_reducible apply setF_kept
    | with_reducible apply tripEnd_kept
    | intro _
    | split
    | dsimp only

theorem execSaveCommitEnd_kept {kq : List Instr} {ko : State} (s : State) (kh : Kept kq s) (ke : execSaveCommitEnd s = .next ko) : Kept kq ko := by
  unfold execSaveCommitEnd at ke
  refine next_kept ?_ ke
  try dsimp only
  repeat' first
    | with_reducible assumption
    | with_reducible apply setF_kept
    | with_reducible apply when_kept
    | with_reducible apply tripEnd_kept
    | intro _
    | split
    | dsimp only

theorem execJrnlRestoreBegin_kept {kq : List Instr} {ko : State} (partner regionImage : Bool) (headers : List (Nat × Nat)) (s : State) (kh : Kept kq s) (ke : execJrnlRestoreBegin partner regionImage headers s = .next ko) : Kept kq ko := by
  unfold execJrnlRestoreBegin at ke
  refine next_kept ?_ ke
  try dsimp only
  repeat' first
    | with_reducible assumption
    | with_reducible apply onJrnl_kept
    | with_reducible apply setF_kept
    | intro _
    | split
    | dsimp only

theorem syncKeyWait_kept {kq : List Instr} (s : State) (kh : Kept kq s) : Kept kq (State.syncKeyWait s) := by
  unfold State.syncKeyWait
  try dsimp only
  repeat' first
    | with_reducible assumption
    | with_reducible apply setF_kept
    | intro _
    | split
    | dsimp only

theorem restoreLoss_kept {kq : List Instr} (s : State) (kh : Kept kq s) : Kept kq (State.restoreLoss s) := by
  unfold State.restoreLoss
  try dsimp only
  repeat' first
    | with_reducible assumption
    | with_reducible apply count_kept
    | with_reducible apply occur_kept
    | with_reducible apply setF_kept
    | intro _
    | split
    | dsimp only

theorem restoreRec_kept {kq : List Instr} (s : State) (x : ImageRec) (kh : Kept kq s) : Kept kq (State.restoreRec s x) := by
  unfold State.restoreRec
  try dsimp only
  repeat' first
    | with_reducible assumption
    | with_reducible apply count_kept
    | with_reducible apply onJrnl_kept
    | with_reducible apply deferredErr_kept
    | with_reducible apply restoreLoss_kept
    | intro _
    | split
    | dsimp only

theorem restorePage_kept {kq : List Instr} (s : State) (x : ImagePage × Nat) (kh : Kept kq s) : Kept kq (State.restorePage s x) := by
  unfold State.restorePage
  try dsimp only
  repeat' first
    | with_reducible assumption
    | with_reducible apply count_kept
    | (with_reducible apply onRegn_kept <;> first | (intro g hg; with_reducible exact memWrite_wf _ _ _ hg) | skip)
    | with_reducible apply restoreLoss_kept
    | (refine memPieces_wf _ _ _ ?_; assumption)
    | (refine memWrite_wf _ _ _ ?_; assumption)
    | intro _
    | split
    | dsimp only

theorem restoreUnit_kept {kq : List Instr} (s : State) (x : ImagePage) (kh : Kept kq s) : Kept kq (State.restoreUnit s x) := by
  unfold State.restoreUnit
  try dsimp only
  repeat' first
    | with_reducible assumption
    | with_reducible apply count_kept
    | with_reducible apply occur_kept
    | (with_reducible apply onRegn_kept <;> first | (intro g hg; with_reducible exact memWrite_wf _ _ _ hg) | skip)
    | with_reducible apply integrityRec_kept
    | (refine memPieces_wf _ _ _ ?_; assumption)
    | (refine memWrite_wf _ _ _ ?_; assumption)
    | intro _
    | split
    | dsimp only

theorem invalidateHeaders_kept {kq : List Instr} (s : State) (kh : Kept kq s) : Kept kq (State.invalidateHeaders s) := by
  unfold State.invalidateHeaders
  try dsimp only
  repeat' first
    | with_reducible assumption
    | with_reducible apply emit_kept
    | with_reducible apply foldl_kept
    | intro _
    | split
    | dsimp only

theorem clearRegions_kept {kq : List Instr} (s : State) (kh : Kept kq s) : Kept kq (State.clearRegions s) := by
  unfold State.clearRegions
  try dsimp only
  repeat' first
    | with_reducible assumption
    | (with_reducible apply onRegn_kept <;> first | (intro g hg; exact hg) | skip)
    | with_reducible apply syncRegions_kept
    | exact SMap.empty_wf _
    | intro _
    | split
    | dsimp only

theorem execJrnlRestoreComplete_kept {kq : List Instr} {ko : State} (recs : List ImageRec) (regions : List (Nat × Nat)) (pages : List ImagePage) (crcs : List Nat) (s : State) (kh : Kept kq s) (ke : execJrnlRestoreComplete recs regions pages crcs s = .next ko) : Kept kq ko := by
  unfold execJrnlRestoreComplete at ke
  refine next_kept ?_ ke
  try dsimp only
  repeat' first
    | with_reducible assumption
    | with_reducible apply onJrnl_kept
    | with_reducible apply setRegion_kept
    | with_reducible apply syncRegions_kept
    | with_reducible apply markDirty_kept
    | with_reducible apply syncJrnl_kept
    | with_reducible apply syncKeyWait_kept
    | with_reducible apply restoreRec_kept
    | with_reducible apply restorePage_kept
    | with_reducible apply restoreUnit_kept
    | with_reducible apply invalidateHeaders_kept
    | with_reducible apply clearRegions_kept
    | with_reducible apply foldl_kept
    | intro _
    | split
    | dsimp only

theorem execSealedRecordOpen_kept {kq : List Instr} {ko : State} (rec : Nat) (ue : Bool) (s : State) (kh : Kept kq s) (ke : execSealedRecordOpen rec ue s = .next ko) : Kept kq ko := by
  unfold execSealedRecordOpen at ke
  refine next_kept ?_ ke
  try dsimp only
  repeat' first
    | with_reducible assumption
    | with_reducible apply occur_kept
    | with_reducible apply when_kept
    | with_reducible apply setRec_kept
    | with_reducible apply syncKeyWait_kept
    | intro _
    | split
    | dsimp only

end Sys2Proof.Machine
end

