-- ==== Sys2Proof/Laws/Kept/CmprExec.lean ====
section
/-!
SUPPORT. What the operations of Machine/CmprExec.lean keep.
-/
namespace Sys2Proof.Machine
open Sys2Proof

theorem setLane_kept {kq : List Instr} (n : Nat) (job : Option Nat) (s : State) (kh : Kept kq s) : Kept kq (State.setLane n job s) := by
  unfold State.setLane
  try dsimp only
  repeat' first
    | with_reducible assumption
    | with_reducible apply onCmpr_kept
    | with_reducible apply job_kept
    | intro _
    | split
    | dsimp only

theorem retireLane_kept {kq : List Instr} (n : Nat) (s : State) (kh : Kept kq s) : Kept kq (State.retireLane n s) := by
  unfold State.retireLane
  try dsimp only
  repeat' first
    | with_reducible assumption
    | with_reducible apply occur_kept
    | with_reducible apply setF_kept
    | intro _
    | split
    | dsimp only

theorem laneCells_kept2 {kq : List Instr} (lane cls cells : Nat) (s : State) (kh : Kept kq s) : Kept kq (State.laneCells lane cls cells s).2 := by
  unfold State.laneCells
  try dsimp only
  repeat' first
    | with_reducible assumption
    | with_reducible apply allocRequest_keptA
    | intro _
    | split
    | dsimp only
theorem laneCells_keptE {kq : List Instr} {ko : State} {x0 : Bool} {lane cls cells : Nat} {s : State} (kh : Kept kq s) (ke : State.laneCells lane cls cells s = (x0,ko)) : Kept kq ko := by
  have kt := laneCells_kept2 lane cls cells s kh
  rw [ke] at kt
  exact kt

theorem execCompressStart_kept {kq : List Instr} {ko : State} (s : State) (kh : Kept kq s) (ke : execCompressStart s = .next ko) : Kept kq ko := by
  unfold execCompressStart at ke
  refine next_kept ?_ ke
  try dsimp only
  repeat' first
    | with_reducible assumption
    | with_reducible apply count_kept
    | with_reducible apply setJob_kept
    | with_reducible apply setLane_kept
    | with_reducible apply laneCells_kept2
    | intro _
    | split
    | (refine laneCells_keptE ?_ (by with_reducible assumption))
    | dsimp only

theorem chainTo_kept2 {kq : List Instr} (n cls need k : Nat) (s : State) (kh : Kept kq s) : Kept kq (State.chainTo n cls need k s).2 := by
  induction k generalizing s with
  | zero => exact kh
  | succ k ih =>
    unfold State.chainTo
    dsimp only
    split
    · exact kh
    · split
      · exact ih _ (count_kept _ _ (laneCells_kept2 _ _ _ _ kh))
      · exact laneCells_kept2 _ _ _ _ kh
theorem chainTo_keptE {kq : List Instr} {ko : State} {x0 : Bool} {n cls need k : Nat} {s : State} (kh : Kept kq s)
    (ke : State.chainTo n cls need k s = (x0, ko)) : Kept kq ko := by
  have kt := chainTo_kept2 n cls need k s kh
  rw [ke] at kt
  exact kt

theorem sendStored_kept {kq : List Instr} (j n : Nat) (w : WUnit) (b : Blob) (raw : Bool) (s : State) (kh : Kept kq s) : Kept kq (State.sendStored j n w b raw s) := by
  unfold State.sendStored
  try dsimp only
  repeat' first
    | with_reducible assumption
    | with_reducible apply count_kept
    | with_reducible apply onCell_kept
    | with_reducible apply offerUnit_kept
    | with_reducible apply dropKind_kept
    | with_reducible apply setJob_kept
    | with_reducible apply setLane_kept
    | with_reducible apply foldl_kept
    | intro _
    | split
    | dsimp only

theorem compressDone_kept {kq : List Instr} (lane : Nat) (body : Blob) (poison : Bool) (s : State) (kh : Kept kq s) : Kept kq (State.compressDone lane body poison s) := by
  unfold State.compressDone
  try dsimp only
  repeat' first
    | with_reducible assumption
    | with_reducible apply count_kept
    | with_reducible apply when_kept
    | with_reducible apply dropUnit_kept
    | with_reducible apply dropKind_kept
    | with_reducible apply setJob_kept
    | with_reducible apply handCells_kept
    | with_reducible apply finishJob_kept
    | with_reducible apply setLane_kept
    | with_reducible apply chainTo_kept2
    | with_reducible apply sendStored_kept
    | with_reducible apply foldl_kept
    | intro _
    | split
    | (refine chainTo_keptE ?_ (by with_reducible assumption))
    | dsimp only

theorem execCompressComplete_kept {kq : List Instr} {ko : State} (lane : Nat) (body : Blob) (poison : Bool) (s : State) (kh : Kept kq s) (ke : execCompressComplete lane body poison s = .next ko) : Kept kq ko := by
  unfold execCompressComplete at ke
  refine next_kept ?_ ke
  try dsimp only
  repeat' first
    | with_reducible assumption
    | with_reducible apply compressDone_kept
    | intro _
    | split
    | dsimp only

theorem execChainAbandonTimeout_kept {kq : List Instr} {ko : State} (lane : Nat) (s : State) (kh : Kept kq s) (ke : execChainAbandonTimeout lane s = .next ko) : Kept kq ko := by
  unfold execChainAbandonTimeout at ke
  refine next_kept ?_ ke
  try dsimp only
  repeat' first
    | with_reducible assumption
    | with_reducible apply count_kept
    | with_reducible apply occur_kept
    | with_reducible apply onCell_kept
    | with_reducible apply dropUnit_kept
    | with_reducible apply setJob_kept
    | with_reducible apply laneCells_kept2
    | with_reducible apply foldl_kept
    | intro _
    | split
    | (refine laneCells_keptE ?_ (by with_reducible assumption))
    | dsimp only

theorem failRead_kept {kq : List Instr} (r : RUnit) (c : Cpl) (s : State) (kh : Kept kq s) : Kept kq (State.failRead r c s) := by
  unfold State.failRead
  try dsimp only
  repeat' first
    | with_reducible assumption
    | with_reducible apply onSlot_kept
    | intro _
    | split
    | dsimp only

theorem mergeDone_kept {kq : List Instr} (j : Nat) (got : Option Nat) (s : State) (kh : Kept kq s) : Kept kq (State.mergeDone j got s) := by
  unfold State.mergeDone
  try dsimp only
  repeat' first
    | with_reducible assumption
    | with_reducible apply setJob_kept
    | with_reducible apply handCells_kept
    | with_reducible apply uncoveredErr_kept
    | with_reducible apply foldl_kept
    | intro _
    | split
    | dsimp only

theorem fillSlot_kept {kq : List Instr} (n : Nat) (lun x : Nat) (s : State) (kh : Kept kq s) : Kept kq (State.fillSlot n lun x s) := by
  unfold State.fillSlot
  try dsimp only
  repeat' first
    | with_reducible assumption
    | with_reducible apply count_kept
    | with_reducible apply onSlot_kept
    | with_reducible apply foldl_kept
    | intro _
    | split
    | dsimp only

theorem resultCells_kept {kq : List Instr} (n : Nat) (v : Slot) (s : State) (kh : Kept kq s) : Kept kq (State.resultCells n v s) := by
  unfold State.resultCells
  try dsimp only
  repeat' first
    | with_reducible assumption
    | with_reducible apply ship_kept
    | intro _
    | split
    | dsimp only

theorem readReady_kept {kq : List Instr} (n : Nat) (s : State) (kh : Kept kq s) : Kept kq (State.readReady n s) := by
  unfold State.readReady
  try dsimp only
  repeat' first
    | with_reducible assumption
    | with_reducible apply dropKind_kept
    | with_reducible apply onSlot_kept
    | with_reducible apply workReturned_kept
    | with_reducible apply resultCells_kept
    | intro _
    | split
    | dsimp only

theorem endRead_kept {kq : List Instr} (j : Nat) (r : RUnit) (s : State) (kh : Kept kq s) : Kept kq (State.endRead j r s) := by
  unfold State.endRead
  try dsimp only
  repeat' first
    | with_reducible assumption
    | with_reducible apply onCmpr_kept
    | with_reducible apply dropKind_kept
    | with_reducible apply readReady_kept
    | intro _
    | split
    | dsimp only

theorem serveRead_kept {kq : List Instr} (j : Nat) (r : RUnit) (x : Nat) (s : State) (kh : Kept kq s) : Kept kq (State.serveRead j r x s) := by
  unfold State.serveRead
  try dsimp only
  repeat' first
    | with_reducible assumption
    | with_reducible apply mergeDone_kept
    | with_reducible apply fillSlot_kept
    | with_reducible apply endRead_kept
    | intro _
    | split
    | dsimp only

theorem loseRead_kept {kq : List Instr} (j : Nat) (r : RUnit) (c : Cpl) (s : State) (kh : Kept kq s) : Kept kq (State.loseRead j r c s) := by
  unfold State.loseRead
  try dsimp only
  repeat' first
    | with_reducible assumption
    | with_reducible apply failRead_kept
    | with_reducible apply mergeDone_kept
    | with_reducible apply endRead_kept
    | intro _
    | split
    | dsimp only

theorem decompressStart_kept {kq : List Instr} (s : State) (kh : Kept kq s) : Kept kq (State.decompressStart s) := by
  unfold State.decompressStart
  try dsimp only
  repeat' first
    | with_reducible assumption
    | with_reducible apply count_kept
    | with_reducible apply when_kept
    | with_reducible apply setReadJob_kept
    | with_reducible apply setLane_kept
    | with_reducible apply loseRead_kept
    | intro _
    | split
    | dsimp only

theorem execDecompressStart_kept {kq : List Instr} {ko : State} (s : State) (kh : Kept kq s) (ke : execDecompressStart s = .next ko) : Kept kq ko := by
  unfold execDecompressStart at ke
  refine next_kept ?_ ke
  try dsimp only
  repeat' first
    | with_reducible assumption
    | with_reducible apply decompressStart_kept
    | intro _
    | split
    | dsimp only

theorem integrityLog_kept {kq : List Instr} (r : RUnit) (outcome lane : Nat) (s : State) (kh : Kept kq s) : Kept kq (State.integrityLog r outcome lane s) := by
  unfold State.integrityLog
  try dsimp only
  repeat' first
    | with_reducible assumption
    | with_reducible apply integrityRec_kept
    | intro _
    | split
    | dsimp only

theorem integrityFail_kept {kq : List Instr} (j : Nat) (r0 : RUnit) (reason lane u crc : Nat) (s0 : State) (kh : Kept kq s0) : Kept kq (State.integrityFail j r0 reason lane u crc s0) := by
  unfold State.integrityFail
  try dsimp only
  repeat' first
    | with_reducible assumption
    | with_reducible apply count_kept
    | with_reducible apply occur_kept
    | with_reducible apply setReadJob_kept
    | with_reducible apply loseRead_kept
    | with_reducible apply integrityLog_kept
    | intro _
    | split
    | (refine askParts_keptE ?_ (by with_reducible assumption))
    | dsimp only

theorem rewriteUnit_kept {kq : List Instr} (r : RUnit) (s : State) (kh : Kept kq s) : Kept kq (State.rewriteUnit r s) := by
  unfold State.rewriteUnit
  try dsimp only
  repeat' first
    | with_reducible assumption
    | with_reducible apply count_kept
    | with_reducible apply rewriteRows_kept
    | with_reducible apply foldl_kept
    | intro _
    | split
    | dsimp only

theorem decompressDone_kept {kq : List Instr} (lane : Nat) (s0 : State) (kh : Kept kq s0) : Kept kq (State.decompressDone lane s0) := by
  unfold State.decompressDone
  try dsimp only
  repeat' first
    | with_reducible assumption
    | with_reducible apply count_kept
    | with_reducible apply setLane_kept
    | with_reducible apply serveRead_kept
    | with_reducible apply integrityLog_kept
    | with_reducible apply integrityFail_kept
    | with_reducible apply rewriteUnit_kept
    | intro _
    | split
    | dsimp only

theorem execDecompressComplete_kept {kq : List Instr} {ko : State} (lane : Nat) (s : State) (kh : Kept kq s) (ke : execDecompressComplete lane s = .next ko) : Kept kq ko := by
  unfold execDecompressComplete at ke
  refine next_kept ?_ ke
  try dsimp only
  repeat' first
    | with_reducible assumption
    | with_reducible apply decompressDone_kept
    | intro _
    | split
    | dsimp only

theorem execLaneParityError_kept {kq : List Instr} {ko : State} (lane : Nat) (corrected : Bool) (s : State) (kh : Kept kq s) (ke : execLaneParityError lane corrected s = .next ko) : Kept kq ko := by
  unfold execLaneParityError at ke
  refine next_kept ?_ ke
  try dsimp only
  repeat' first
    | with_reducible assumption
    | with_reducible apply count_kept
    | with_reducible apply occur_kept
    | with_reducible apply onCell_kept
    | with_reducible apply onCmpr_kept
    | with_reducible apply dropUnit_kept
    | with_reducible apply setReadJob_kept
    | with_reducible apply setJob_kept
    | with_reducible apply setLane_kept
    | with_reducible apply foldl_kept
    | intro _
    | split
    | dsimp only

theorem execLaneSelftest_kept {kq : List Instr} {ko : State} (fails : Bool) (s : State) (kh : Kept kq s) (ke : execLaneSelftest fails s = .next ko) : Kept kq ko := by
  unfold execLaneSelftest at ke
  refine next_kept ?_ ke
  try dsimp only
  repeat' first
    | with_reducible assumption
    | with_reducible apply occur_kept
    | with_reducible apply onCmpr_kept
    | with_reducible apply retireLane_kept
    | intro _
    | split
    | dsimp only

theorem cmprLaneCtl_kept {kq : List Instr} (w : Nat) (s : State) (kh : Kept kq s) : Kept kq (State.cmprLaneCtl w s) := by
  unfold State.cmprLaneCtl
  try dsimp only
  repeat' first
    | with_reducible assumption
    | with_reducible apply count_kept
    | with_reducible apply retireLane_kept
    | intro _
    | split
    | dsimp only

theorem execCmprLaneRetire_kept {kq : List Instr} {ko : State} (value : BitVec 32) (s : State) (kh : Kept kq s) (ke : execCmprLaneRetire value s = .next ko) : Kept kq ko := by
  unfold execCmprLaneRetire at ke
  refine next_kept ?_ ke
  try dsimp only
  repeat' first
    | with_reducible assumption
    | with_reducible apply cmprLaneCtl_kept
    | intro _
    | split
    | dsimp only

end Sys2Proof.Machine
end

