-- ==== Sys2Proof/Laws/Kept/TmgrExec.lean ====
section
/-!
SUPPORT. What the operations of Machine/TmgrExec.lean keep.
-/
namespace Sys2Proof.Machine
open Sys2Proof

theorem setHeld_kept {kq : List Instr} (t : Nat) (l : List HeldCmd) (s : State) (kh : Kept kq s) : Kept kq (State.setHeld t l s) := by
  unfold State.setHeld
  try dsimp only
  repeat' first
    | with_reducible assumption
    | with_reducible apply onTmgr_kept
    | intro _
    | split
    | dsimp only

theorem passCmd_kept {kq : List Instr} (h : HeldCmd) (c : Colour) (s : State) (kh : Kept kq s) : Kept kq (State.passCmd h c s) := by
  unfold State.passCmd
  try dsimp only
  repeat' first
    | with_reducible assumption
    | with_reducible apply count_kept
    | with_reducible apply onTmgr_kept
    | intro _
    | split
    | dsimp only

theorem policeHeld_kept {kq : List Instr} (t n : Nat) (s : State) (kh : Kept kq s) : Kept kq (State.policeHeld t n s) := by
  induction n generalizing s with
  | zero => exact kh
  | succ n ih =>
    unfold State.policeHeld
    repeat' first
      | with_reducible assumption
      | with_reducible apply ih
      | with_reducible apply passCmd_kept
      | with_reducible apply setHeld_kept
      | with_reducible apply police_kept2
      | with_reducible apply addMeter_kept
      | with_reducible apply count_kept
      | split
      | dsimp only

theorem policeCmd_kept {kq : List Instr} (n : Nat) (s : State) (kh : Kept kq s) : Kept kq (State.policeCmd n s) := by
  unfold State.policeCmd
  try dsimp only
  repeat' first
    | with_reducible assumption
    | with_reducible apply setHeld_kept
    | with_reducible apply policeHeld_kept
    | intro _
    | split
    | dsimp only

theorem refillPolicers_kept {kq : List Instr} (s : State) (kh : Kept kq s) : Kept kq (State.refillPolicers s) := by
  unfold State.refillPolicers
  try dsimp only
  repeat' first
    | with_reducible assumption
    | with_reducible apply setBucket_kept
    | with_reducible apply foldl_kept
    | intro _
    | split
    | dsimp only

theorem execPolicerRefill_kept {kq : List Instr} {ko : State} (s : State) (kh : Kept kq s) (ke : execPolicerRefill s = .next ko) : Kept kq ko := by
  unfold execPolicerRefill at ke
  refine next_kept ?_ ke
  try dsimp only
  repeat' first
    | with_reducible assumption
    | with_reducible apply refillShapers_kept
    | with_reducible apply policeHeld_kept
    | with_reducible apply refillPolicers_kept
    | with_reducible apply foldl_kept
    | intro _
    | split
    | dsimp only

theorem settleGhost_kept {kq : List Instr} (leaf : Nat) (s : State) (kh : Kept kq s) : Kept kq (State.settleGhost leaf s) := by
  unfold State.settleGhost
  try dsimp only
  repeat' first
    | with_reducible assumption
    | with_reducible apply onTmgr_kept
    | intro _
    | split
    | dsimp only

theorem pace_kept {kq : List Instr} (e : EgrWork) (s : State) (kh : Kept kq s) : Kept kq (State.pace e s) := by
  unfold State.pace
  try dsimp only
  repeat' first
    | with_reducible assumption
    | with_reducible apply when_kept
    | with_reducible apply onTx_kept
    | intro _
    | split
    | dsimp only

theorem countExpress_kept {kq : List Instr} (leaf : Nat) (step1 : Bool) (s : State) (kh : Kept kq s) : Kept kq (State.countExpress leaf step1 s) := by
  unfold State.countExpress
  try dsimp only
  repeat' first
    | with_reducible assumption
    | with_reducible apply count_kept
    | with_reducible apply when_kept
    | intro _
    | split
    | dsimp only

theorem portSelect_kept {kq : List Instr} (port : Nat) (s : State) (kh : Kept kq s) : Kept kq (State.portSelect port s) := by
  unfold State.portSelect
  try dsimp only
  repeat' first
    | with_reducible assumption
    | with_reducible apply count_kept
    | with_reducible apply onTmgr_kept
    | with_reducible apply setRoot_kept
    | with_reducible apply keepDeficits_kept
    | with_reducible apply chargeWork_kept
    | with_reducible apply dropKind_kept
    | with_reducible apply transmit_kept
    | with_reducible apply settleResets_kept
    | with_reducible apply endKey_kept
    | with_reducible apply settleGhost_kept
    | with_reducible apply pace_kept
    | with_reducible apply countExpress_kept
    | with_reducible apply foldl_kept
    | intro _
    | split
    | dsimp only

theorem countHold_kept {kq : List Instr} (s : State) (w : AdmWork) (kh : Kept kq s) : Kept kq (State.countHold s w) := by
  unfold State.countHold
  try dsimp only
  repeat' first
    | with_reducible assumption
    | with_reducible apply count_kept
    | with_reducible apply occur_kept
    | with_reducible apply onJrnl_kept
    | intro _
    | split
    | dsimp only

theorem poolSelect_kept {kq : List Instr} (p : Nat) (s0 : State) (kh : Kept kq s0) : Kept kq (State.poolSelect p s0) := by
  unfold State.poolSelect
  try dsimp only
  repeat' first
    | with_reducible assumption
    | with_reducible apply count_kept
    | with_reducible apply onTmgr_kept
    | with_reducible apply when_kept
    | with_reducible apply setRoot_kept
    | with_reducible apply keepDeficits_kept
    | with_reducible apply chargeWork_kept
    | with_reducible apply bgAdmit_kept
    | with_reducible apply settleGhost_kept
    | with_reducible apply countHold_kept
    | with_reducible apply foldl_kept
    | intro _
    | split
    | dsimp only

theorem execRootSelect_kept {kq : List Instr} {ko : State} (root : Nat) (s : State) (kh : Kept kq s) (ke : execRootSelect root s = .next ko) : Kept kq ko := by
  unfold execRootSelect at ke
  refine next_kept ?_ ke
  try dsimp only
  repeat' first
    | with_reducible assumption
    | with_reducible apply portSelect_kept
    | with_reducible apply poolSelect_kept
    | intro _
    | split
    | dsimp only

theorem sampleRecord_kept {kq : List Instr} (leaf : Nat) (s : State) (kh : Kept kq s) : Kept kq (State.sampleRecord leaf s) := by
  unfold State.sampleRecord
  try dsimp only
  repeat' first
    | with_reducible assumption
    | with_reducible apply count_kept
    | with_reducible apply onTmgr_kept
    | with_reducible apply setF_kept
    | intro _
    | split
    | dsimp only

theorem execSampleTick_kept {kq : List Instr} {ko : State} (s : State) (kh : Kept kq s) (ke : execSampleTick s = .next ko) : Kept kq ko := by
  unfold execSampleTick at ke
  refine next_kept ?_ ke
  try dsimp only
  repeat' first
    | with_reducible assumption
    | with_reducible apply onTmgr_kept
    | with_reducible apply sampleRecord_kept
    | with_reducible apply foldl_kept
    | intro _
    | split
    | dsimp only

theorem execMeterSecondTick_kept {kq : List Instr} {ko : State} (s : State) (kh : Kept kq s) (ke : execMeterSecondTick s = .next ko) : Kept kq ko := by
  unfold execMeterSecondTick at ke
  refine next_kept ?_ ke
  try dsimp only
  repeat' first
    | with_reducible assumption
    | with_reducible apply addMeter_kept
    | with_reducible apply foldl_kept
    | intro _
    | split
    | dsimp only

theorem execMeterMinuteClose_kept {kq : List Instr} {ko : State} (s : State) (kh : Kept kq s) (ke : execMeterMinuteClose s = .next ko) : Kept kq ko := by
  unfold execMeterMinuteClose at ke
  refine next_kept ?_ ke
  try dsimp only
  repeat' first
    | with_reducible assumption
    | with_reducible apply openMinute_kept
    | with_reducible apply closeMinute_kept
    | with_reducible apply mirrorIf_kept
    | intro _
    | split
    | dsimp only

theorem meterAck_kept {kq : List Instr} (v : Nat) (s : State) (kh : Kept kq s) : Kept kq (State.meterAck v s) := by
  unfold State.meterAck
  try dsimp only
  repeat' first
    | with_reducible assumption
    | with_reducible apply count_kept
    | with_reducible apply setF_kept
    | with_reducible apply mirrorIf_kept
    | intro _
    | split
    | dsimp only

theorem execMeterAckWrite_kept {kq : List Instr} {ko : State} (value : BitVec 32) (s : State) (kh : Kept kq s) (ke : execMeterAckWrite value s = .next ko) : Kept kq ko := by
  unfold execMeterAckWrite at ke
  refine next_kept ?_ ke
  try dsimp only
  repeat' first
    | with_reducible assumption
    | with_reducible apply meterAck_kept
    | intro _
    | split
    | dsimp only

theorem destage_kept {kq : List Instr} (n : Nat) (s : State) (kh : Kept kq s) : Kept kq (State.destage n s) := by
  unfold State.destage
  try dsimp only
  repeat' first
    | with_reducible assumption
    | with_reducible apply count_kept
    | with_reducible apply occur_kept
    | (with_reducible apply onRegn_kept <;> first | (intro g hg; exact hg) | skip)
    | with_reducible apply bgTake_kept2
    | with_reducible apply syncDirty_kept
    | with_reducible apply handCells_kept
    | with_reducible apply newJob_kept2
    | intro _
    | split
    | (refine bgTake_keptE ?_ (by with_reducible assumption))
    | (refine newJob_keptE ?_ (by with_reducible assumption))
    | dsimp only

theorem execDestageUnit_kept {kq : List Instr} {ko : State} (unit : Nat) (s : State) (kh : Kept kq s) (ke : execDestageUnit unit s = .next ko) : Kept kq ko := by
  unfold execDestageUnit at ke
  refine next_kept ?_ ke
  try dsimp only
  repeat' first
    | with_reducible assumption
    | with_reducible apply destage_kept
    | intro _
    | split
    | dsimp only

end Sys2Proof.Machine
end

