-- ==== Sys2Proof/Laws/Kept/PlceExec.lean ====
section
/-!
SUPPORT. What the operations of Machine/PlceExec.lean keep.
-/
namespace Sys2Proof.Machine
open Sys2Proof

theorem pack_keptO {kq : List Instr} (p stream : Nat) (u : PackU) (n : Nat) (s : State) (kh : Kept kq s) :
    OptKept kq (State.pack p stream u n s) := by
  induction n generalizing s with
  | zero => exact optKept_none
  | succ n ih =>
    unfold State.pack
    repeat' first
      | with_reducible assumption
      | with_reducible apply ih
      | with_reducible exact optKept_none
      | with_reducible apply optKept_some
      | with_reducible apply takeSeg_kept
      | with_reducible apply closeStripe_kept
      | with_reducible apply onPlce_kept
      | split
      | dsimp only
theorem pack_keptE {kq : List Instr} {ko : State} {p stream : Nat} {u : PackU} {n : Nat} {s : State} (kh : Kept kq s)
    (ke : State.pack p stream u n s = some ko) : Kept kq ko := (pack_keptO p stream u n s kh).kept ko ke

theorem packJob_kept {kq : List Instr} (j : Nat) (s : State) (kh : Kept kq s) : Kept kq (State.packJob j s) := by
  unfold State.packJob
  try dsimp only
  repeat' first
    | with_reducible assumption
    | with_reducible apply count_kept
    | with_reducible apply onPlce_kept
    | with_reducible apply setJob_kept
    | with_reducible apply failJob_kept
    | with_reducible apply job_kept
    | intro _
    | split
    | (refine pack_keptE ?_ (by with_reducible assumption))
    | dsimp only

theorem packPress_kept {kq : List Instr} (p v lun : Nat) (s : State) (kh : Kept kq s) : Kept kq (State.packPress p v lun s) := by
  unfold State.packPress
  try dsimp only
  repeat' first
    | with_reducible assumption
    | with_reducible apply count_kept
    | with_reducible apply bgTake_kept2
    | with_reducible apply newRead_kept2
    | with_reducible apply endRead_kept
    | with_reducible apply job_kept
    | with_reducible apply optKept_getD
    | with_reducible apply askParts_keptO
    | with_reducible apply pack_keptO
    | intro _
    | split
    | (refine bgTake_keptE ?_ (by with_reducible assumption))
    | (refine askParts_keptE ?_ (by with_reducible assumption))
    | (refine newRead_keptE ?_ (by with_reducible assumption))
    | (refine pack_keptE ?_ (by with_reducible assumption))
    | dsimp only

theorem execUnitPack_kept {kq : List Instr} {ko : State} (src : PackSrc) (s : State) (kh : Kept kq s) (ke : execUnitPack src s = .next ko) : Kept kq ko := by
  unfold execUnitPack at ke
  refine next_kept ?_ ke
  try dsimp only
  repeat' first
    | with_reducible assumption
    | with_reducible apply packJob_kept
    | with_reducible apply packPress_kept
    | with_reducible apply job_kept
    | intro _
    | split
    | dsimp only

theorem execStripeFillTimeout_kept {kq : List Instr} {ko : State} (pool stream : Nat) (s : State) (kh : Kept kq s) (ke : execStripeFillTimeout pool stream s = .next ko) : Kept kq ko := by
  unfold execStripeFillTimeout at ke
  refine next_kept ?_ ke
  try dsimp only
  repeat' first
    | with_reducible assumption
    | with_reducible apply count_kept
    | with_reducible apply closeStripe_kept
    | intro _
    | split
    | dsimp only

theorem stripeWritten_kept {kq : List Instr} (x : Stripe) (s : State) (kh : Kept kq s) : Kept kq (State.stripeWritten x s) := by
  unfold State.stripeWritten
  try dsimp only
  repeat' first
    | with_reducible assumption
    | with_reducible apply count_kept
    | with_reducible apply onPlce_kept
    | with_reducible apply dropKind_kept
    | with_reducible apply mirrorIf_kept
    | with_reducible apply syncPool_kept
    | with_reducible apply relabel_kept
    | with_reducible apply oslWrite_kept
    | with_reducible apply addLoss_kept
    | with_reducible apply setSeg_kept
    | with_reducible apply onSeg_kept
    | with_reducible apply settleSeg_kept
    | with_reducible apply finishJob_kept
    | with_reducible apply unitErrs_kept
    | with_reducible apply job_kept
    | with_reducible apply foldl_kept
    | intro _
    | split
    | dsimp only

theorem rebuiltDone_kept {kq : List Instr} (p : Nat) (m : Bool) (w pos : Nat) (ok : Bool) (s : State) (kh : Kept kq s) : Kept kq (State.rebuiltDone p m w pos ok s) := by
  unfold State.rebuiltDone
  try dsimp only
  repeat' first
    | with_reducible assumption
    | with_reducible apply onStrp_kept
    | with_reducible apply when_kept
    | with_reducible apply onPool_kept
    | with_reducible apply failMember_kept
    | intro _
    | split
    | dsimp only

theorem stripDone_kept {kq : List Instr} (s : State) (kh : Kept kq s) : Kept kq (State.stripDone s) := by
  unfold State.stripDone
  try dsimp only
  repeat' first
    | with_reducible assumption
    | with_reducible apply count_kept
    | with_reducible apply onPlce_kept
    | with_reducible apply onStrp_kept
    | with_reducible apply when_kept
    | with_reducible apply unrefKind_kept
    | with_reducible apply failMember_kept
    | with_reducible apply stripeWritten_kept
    | with_reducible apply rebuiltDone_kept
    | intro _
    | split
    | dsimp only

theorem execStripWriteComplete_kept {kq : List Instr} {ko : State} (s : State) (kh : Kept kq s) (ke : execStripWriteComplete s = .next ko) : Kept kq ko := by
  unfold execStripWriteComplete at ke
  refine next_kept ?_ ke
  try dsimp only
  repeat' first
    | with_reducible assumption
    | with_reducible apply stripDone_kept
    | intro _
    | split
    | dsimp only

theorem execSegmentWaitStall_kept {kq : List Instr} {ko : State} (job : Nat) (s : State) (kh : Kept kq s) (ke : execSegmentWaitStall job s = .next ko) : Kept kq ko := by
  unfold execSegmentWaitStall at ke
  refine next_kept ?_ ke
  try dsimp only
  repeat' first
    | with_reducible assumption
    | with_reducible apply occur_kept
    | with_reducible apply failJob_kept
    | with_reducible apply job_kept
    | intro _
    | split
    | dsimp only

theorem mapLost_kept {kq : List Instr} (k : Nat) (s : State) (kh : Kept kq s) : Kept kq (State.mapLost k s) := by
  unfold State.mapLost
  try dsimp only
  repeat' first
    | with_reducible assumption
    | with_reducible apply occur_kept
    | with_reducible apply unitErr_kept
    | with_reducible apply commitEntry_kept
    | with_reducible apply foldl_kept
    | intro _
    | split
    | dsimp only

theorem missEnd_kept {kq : List Instr} (k : Nat) (s : State) (kh : Kept kq s) : Kept kq (State.missEnd k s) := by
  unfold State.missEnd
  try dsimp only
  repeat' first
    | with_reducible assumption
    | with_reducible apply onPlce_kept
    | with_reducible apply fillFrame_kept
    | intro _
    | split
    | dsimp only

theorem rewriteCopy_kept {kq : List Instr} (k c : Nat) (s : State) (kh : Kept kq s) : Kept kq (State.rewriteCopy k c s) := by
  unfold State.rewriteCopy
  try dsimp only
  repeat' first
    | with_reducible assumption
    | with_reducible apply drvWrite_kept
    | intro _
    | split
    | dsimp only

theorem mapReadDone_kept {kq : List Instr} (k : Nat) (bad : Bool) (s : State) (kh : Kept kq s) : Kept kq (State.mapReadDone k bad s) := by
  unfold State.mapReadDone
  try dsimp only
  repeat' first
    | with_reducible assumption
    | with_reducible apply count_kept
    | with_reducible apply occur_kept
    | with_reducible apply onStrp_kept
    | with_reducible apply when_kept
    | with_reducible apply dropKind_kept
    | with_reducible apply mapLost_kept
    | with_reducible apply missEnd_kept
    | with_reducible apply rewriteCopy_kept
    | with_reducible apply foldl_kept
    | intro _
    | split
    | (refine takeFrame_keptE ?_ (by with_reducible assumption))
    | (refine readCopy_keptE ?_ (by with_reducible assumption))
    | dsimp only

theorem execMapPageReadComplete_kept {kq : List Instr} {ko : State} (page : Nat) (bad : Bool) (s : State) (kh : Kept kq s) (ke : execMapPageReadComplete page bad s = .next ko) : Kept kq ko := by
  unfold execMapPageReadComplete at ke
  refine next_kept ?_ ke
  try dsimp only
  repeat' first
    | with_reducible assumption
    | with_reducible apply mapReadDone_kept
    | intro _
    | split
    | dsimp only

theorem writeBack_kept {kq : List Instr} (k : Nat) (s : State) (kh : Kept kq s) : Kept kq (State.writeBack k s) := by
  unfold State.writeBack
  try dsimp only
  repeat' first
    | with_reducible assumption
    | with_reducible apply emit_kept
    | with_reducible apply onPlce_kept
    | with_reducible apply bgTake_kept2
    | with_reducible apply mirrorIf_kept
    | with_reducible apply drvWrite_kept
    | with_reducible apply onPool_kept
    | with_reducible apply syncMap_kept
    | with_reducible apply foldl_kept
    | intro _
    | split
    | (refine bgTake_keptE ?_ (by with_reducible assumption))
    | dsimp only

theorem execMapWbTimer_kept {kq : List Instr} {ko : State} (page : Nat) (s : State) (kh : Kept kq s) (ke : execMapWbTimer page s = .next ko) : Kept kq ko := by
  unfold execMapWbTimer at ke
  refine next_kept ?_ ke
  try dsimp only
  repeat' first
    | with_reducible assumption
    | with_reducible apply writeBack_kept
    | intro _
    | split
    | dsimp only

theorem durable_kept {kq : List Instr} (k n : Nat) (s : State) (kh : Kept kq s) : Kept kq (State.durable k n s) := by
  unfold State.durable
  try dsimp only
  repeat' first
    | with_reducible assumption
    | with_reducible apply onJrnl_kept
    | with_reducible apply onPlce_kept
    | with_reducible apply releaseRecs_kept
    | intro _
    | split
    | dsimp only

theorem writeBackDone_kept {kq : List Instr} (k : Nat) (s : State) (kh : Kept kq s) : Kept kq (State.writeBackDone k s) := by
  unfold State.writeBackDone
  try dsimp only
  repeat' first
    | with_reducible assumption
    | with_reducible apply count_kept
    | with_reducible apply onPlce_kept
    | with_reducible apply onStrp_kept
    | with_reducible apply mirrorIf_kept
    | with_reducible apply durable_kept
    | intro _
    | split
    | dsimp only

theorem execMapWbComplete_kept {kq : List Instr} {ko : State} (page : Nat) (s : State) (kh : Kept kq s) (ke : execMapWbComplete page s = .next ko) : Kept kq ko := by
  unfold execMapWbComplete at ke
  refine next_kept ?_ ke
  try dsimp only
  repeat' first
    | with_reducible assumption
    | with_reducible apply writeBackDone_kept
    | intro _
    | split
    | dsimp only

theorem settleRebuild_kept {kq : List Instr} (p : Nat) (s : State) (kh : Kept kq s) : Kept kq (State.settleRebuild p s) := by
  unfold State.settleRebuild
  try dsimp only
  repeat' first
    | with_reducible assumption
    | with_reducible apply setPool_kept
    | with_reducible apply syncPool_kept
    | with_reducible apply settlePool_kept
    | with_reducible apply foldl_kept
    | intro _
    | split
    | dsimp only

theorem freeSegment_kept {kq : List Instr} (p n : Nat) (s : State) (kh : Kept kq s) : Kept kq (State.freeSegment p n s) := by
  unfold State.freeSegment
  try dsimp only
  repeat' first
    | with_reducible assumption
    | with_reducible apply count_kept
    | with_reducible apply onPool_kept
    | with_reducible apply setLoss_kept
    | with_reducible apply setSeg_kept
    | with_reducible apply settleRebuild_kept
    | intro _
    | split
    | dsimp only

theorem execSegmentFree_kept {kq : List Instr} {ko : State} (pool seg : Nat) (s : State) (kh : Kept kq s) (ke : execSegmentFree pool seg s = .next ko) : Kept kq ko := by
  unfold execSegmentFree at ke
  refine next_kept ?_ ke
  try dsimp only
  repeat' first
    | with_reducible assumption
    | with_reducible apply freeSegment_kept
    | intro _
    | split
    | dsimp only

theorem mendSummary_kept {kq : List Instr} (p n : Nat) (e : Nat × Nat) (s : State) (kh : Kept kq s) : Kept kq (State.mendSummary p n e s) := by
  unfold State.mendSummary
  try dsimp only
  repeat' first
    | with_reducible assumption
    | with_reducible apply count_kept
    | with_reducible apply rewriteRows_kept
    | intro _
    | split
    | dsimp only

theorem pressSelect_kept {kq : List Instr} (p : Nat) (scan : SummaryScan) (s : State) (kh : Kept kq s) : Kept kq (State.pressSelect p scan s) := by
  unfold State.pressSelect
  try dsimp only
  repeat' first
    | with_reducible assumption
    | with_reducible apply count_kept
    | with_reducible apply onFab_kept
    | with_reducible apply onPlce_kept
    | with_reducible apply setF_kept
    | with_reducible apply onSeg_kept
    | with_reducible apply mendSummary_kept
    | with_reducible apply foldl_kept
    | intro _
    | split
    | dsimp only

theorem execPressSelect_kept {kq : List Instr} {ko : State} (pool : Nat) (scan : SummaryScan) (s : State) (kh : Kept kq s) (ke : execPressSelect pool scan s = .next ko) : Kept kq ko := by
  unfold execPressSelect at ke
  refine next_kept ?_ ke
  try dsimp only
  repeat' first
    | with_reducible assumption
    | with_reducible apply pressSelect_kept
    | intro _
    | split
    | dsimp only

theorem relocate_kept {kq : List Instr} (s : State) (kh : Kept kq s) : Kept kq (State.relocate s) := by
  unfold State.relocate
  try dsimp only
  repeat' first
    | with_reducible assumption
    | with_reducible apply count_kept
    | with_reducible apply onPlce_kept
    | with_reducible apply commitSealed_kept
    | intro _
    | split
    | dsimp only

theorem execPressRelocateCommit_kept {kq : List Instr} {ko : State} (s : State) (kh : Kept kq s) (ke : execPressRelocateCommit s = .next ko) : Kept kq ko := by
  unfold execPressRelocateCommit at ke
  refine next_kept ?_ ke
  try dsimp only
  repeat' first
    | with_reducible assumption
    | with_reducible apply relocate_kept
    | intro _
    | split
    | dsimp only

theorem volOp_kept {kq : List Instr} (w : Nat) (s : State) (kh : Kept kq s) : Kept kq (State.volOp w s) := by
  unfold State.volOp
  try dsimp only
  repeat' first
    | with_reducible assumption
    | with_reducible apply count_kept
    | with_reducible apply onPlce_kept
    | with_reducible apply setF_kept
    | intro _
    | split
    | dsimp only

theorem execVolumeDiscard_kept {kq : List Instr} {ko : State} (value : BitVec 32) (s : State) (kh : Kept kq s) (ke : execVolumeDiscard value s = .next ko) : Kept kq ko := by
  unfold execVolumeDiscard at ke
  refine next_kept ?_ ke
  try dsimp only
  repeat' first
    | with_reducible assumption
    | with_reducible apply volOp_kept
    | intro _
    | split
    | dsimp only

theorem execVolumeDiscardComplete_kept {kq : List Instr} {ko : State} (s : State) (kh : Kept kq s) (ke : execVolumeDiscardComplete s = .next ko) : Kept kq ko := by
  unfold execVolumeDiscardComplete at ke
  refine next_kept ?_ ke
  try dsimp only
  repeat' first
    | with_reducible assumption
    | with_reducible apply onPlce_kept
    | with_reducible apply setF_kept
    | with_reducible apply syncMap_kept
    | with_reducible apply settleSeg_kept
    | with_reducible apply keyStored_kept
    | with_reducible apply foldl_kept
    | intro _
    | split
    | dsimp only

end Sys2Proof.Machine
end

