-- ==== Sys2Proof/Laws/Kept/StrpExec.lean ====
section
/-!
SUPPORT. What the operations of Machine/StrpExec.lean keep.
-/
namespace Sys2Proof.Machine
open Sys2Proof

theorem opStatus_kept {kq : List Instr} (p st : Nat) (s : State) (kh : Kept kq s) : Kept kq (State.opStatus p st s) := by
  unfold State.opStatus
  try dsimp only
  repeat' first
    | with_reducible assumption
    | with_reducible apply setF_kept
    | intro _
    | split
    | dsimp only

theorem poolCreate_kept {kq : List Instr} (p : Nat) (s : State) (kh : Kept kq s) : Kept kq (State.poolCreate p s) := by
  unfold State.poolCreate
  try dsimp only
  repeat' first
    | with_reducible assumption
    | with_reducible apply onPlce_kept
    | with_reducible apply setPool_kept
    | with_reducible apply syncPool_kept
    | with_reducible apply relabel_kept
    | with_reducible apply oslWrite_kept
    | with_reducible apply setSeg_kept
    | with_reducible apply syncJrnl_kept
    | with_reducible apply opStatus_kept
    | intro _
    | split
    | dsimp only

theorem unloadPool_kept {kq : List Instr} (p : Nat) (s : State) (kh : Kept kq s) : Kept kq (State.unloadPool p s) := by
  unfold State.unloadPool
  try dsimp only
  repeat' first
    | with_reducible assumption
    | with_reducible apply onPlce_kept
    | with_reducible apply syncMap_kept
    | intro _
    | split
    | dsimp only

theorem undefine_kept {kq : List Instr} (p : Nat) (s : State) (kh : Kept kq s) : Kept kq (State.undefine p s) := by
  unfold State.undefine
  try dsimp only
  repeat' first
    | with_reducible assumption
    | with_reducible apply setPool_kept
    | with_reducible apply syncPool_kept
    | with_reducible apply syncJrnl_kept
    | with_reducible apply unloadPool_kept
    | intro _
    | split
    | dsimp only

theorem poolExport_kept {kq : List Instr} (p : Nat) (s : State) (kh : Kept kq s) : Kept kq (State.poolExport p s) := by
  unfold State.poolExport
  try dsimp only
  repeat' first
    | with_reducible assumption
    | with_reducible apply when_kept
    | with_reducible apply relabel_kept
    | with_reducible apply opStatus_kept
    | with_reducible apply undefine_kept
    | intro _
    | split
    | dsimp only

theorem poolImport_kept {kq : List Instr} (p : Nat) (s : State) (kh : Kept kq s) : Kept kq (State.poolImport p s) := by
  unfold State.poolImport
  try dsimp only
  repeat' first
    | with_reducible assumption
    | with_reducible apply onPool_kept
    | with_reducible apply syncPool_kept
    | with_reducible apply opStatus_kept
    | intro _
    | split
    | dsimp only

theorem poolFail_kept {kq : List Instr} (p b : Nat) (s : State) (kh : Kept kq s) : Kept kq (State.poolFail p b s) := by
  unfold State.poolFail
  try dsimp only
  repeat' first
    | with_reducible assumption
    | with_reducible apply failMember_kept
    | with_reducible apply opStatus_kept
    | intro _
    | split
    | dsimp only

theorem poolClear_kept {kq : List Instr} (p b : Nat) (s : State) (kh : Kept kq s) : Kept kq (State.poolClear p b s) := by
  unfold State.poolClear
  try dsimp only
  repeat' first
    | with_reducible assumption
    | with_reducible apply writeBay_kept
    | with_reducible apply opStatus_kept
    | intro _
    | split
    | dsimp only

theorem poolOp_kept {kq : List Instr} (p op b : Nat) (s : State) (kh : Kept kq s) : Kept kq (State.poolOp p op b s) := by
  unfold State.poolOp
  try dsimp only
  repeat' first
    | with_reducible assumption
    | with_reducible apply count_kept
    | with_reducible apply poolCreate_kept
    | with_reducible apply poolExport_kept
    | with_reducible apply poolImport_kept
    | with_reducible apply poolFail_kept
    | with_reducible apply poolClear_kept
    | intro _
    | split
    | dsimp only

theorem execPoolCreate_kept {kq : List Instr} {ko : State} (pool : Nat) (s : State) (kh : Kept kq s) (ke : execPoolCreate pool s = .next ko) : Kept kq ko := by
  unfold execPoolCreate at ke
  refine next_kept ?_ ke
  try dsimp only
  repeat' first
    | with_reducible assumption
    | with_reducible apply poolOp_kept
    | intro _
    | split
    | dsimp only

theorem execPoolImport_kept {kq : List Instr} {ko : State} (pool : Nat) (s : State) (kh : Kept kq s) (ke : execPoolImport pool s = .next ko) : Kept kq ko := by
  unfold execPoolImport at ke
  refine next_kept ?_ ke
  try dsimp only
  repeat' first
    | with_reducible assumption
    | with_reducible apply poolOp_kept
    | intro _
    | split
    | dsimp only

theorem execPoolExport_kept {kq : List Instr} {ko : State} (pool : Nat) (s : State) (kh : Kept kq s) (ke : execPoolExport pool s = .next ko) : Kept kq ko := by
  unfold execPoolExport at ke
  refine next_kept ?_ ke
  try dsimp only
  repeat' first
    | with_reducible assumption
    | with_reducible apply poolOp_kept
    | intro _
    | split
    | dsimp only

theorem execPoolFailMember_kept {kq : List Instr} {ko : State} (pool bay : Nat) (s : State) (kh : Kept kq s) (ke : execPoolFailMember pool bay s = .next ko) : Kept kq ko := by
  unfold execPoolFailMember at ke
  refine next_kept ?_ ke
  try dsimp only
  repeat' first
    | with_reducible assumption
    | with_reducible apply poolOp_kept
    | intro _
    | split
    | dsimp only

theorem execPoolClearLabel_kept {kq : List Instr} {ko : State} (pool bay : Nat) (s : State) (kh : Kept kq s) (ke : execPoolClearLabel pool bay s = .next ko) : Kept kq ko := by
  unfold execPoolClearLabel at ke
  refine next_kept ?_ ke
  try dsimp only
  repeat' first
    | with_reducible assumption
    | with_reducible apply poolOp_kept
    | intro _
    | split
    | dsimp only

theorem importFail_kept {kq : List Instr} (p st : Nat) (s : State) (kh : Kept kq s) : Kept kq (State.importFail p st s) := by
  unfold State.importFail
  try dsimp only
  repeat' first
    | with_reducible assumption
    | with_reducible apply opStatus_kept
    | with_reducible apply undefine_kept
    | intro _
    | split
    | dsimp only

theorem importLabels_kept {kq : List Instr} (p : Nat) (s : State) (kh : Kept kq s) : Kept kq (State.importLabels p s) := by
  unfold State.importLabels
  try dsimp only
  repeat' first
    | with_reducible assumption
    | with_reducible apply occur_kept
    | with_reducible apply when_kept
    | with_reducible apply setPool_kept
    | with_reducible apply syncPool_kept
    | with_reducible apply importFail_kept
    | with_reducible apply foldl_kept
    | intro _
    | split
    | dsimp only

theorem importLog_kept {kq : List Instr} (p : Nat) (x : ImportIn) (s : State) (kh : Kept kq s) : Kept kq (State.importLog p x s) := by
  unfold State.importLog
  try dsimp only
  repeat' first
    | with_reducible assumption
    | with_reducible apply occur_kept
    | with_reducible apply when_kept
    | with_reducible apply onPool_kept
    | with_reducible apply syncPool_kept
    | with_reducible apply setSeg_kept
    | with_reducible apply foldl_kept
    | intro _
    | split
    | dsimp only

theorem importMap_kept {kq : List Instr} (p : Nat) (x : ImportIn) (s : State) (kh : Kept kq s) : Kept kq (State.importMap p x s) := by
  unfold State.importMap
  try dsimp only
  repeat' first
    | with_reducible assumption
    | with_reducible apply onPlce_kept
    | with_reducible apply onPool_kept
    | with_reducible apply syncPool_kept
    | with_reducible apply fillFrame_kept
    | with_reducible apply setSeg_kept
    | with_reducible apply rewriteCopy_kept
    | with_reducible apply foldl_kept
    | intro _
    | split
    | dsimp only

theorem padSegment_kept {kq : List Instr} (p : Nat) (x : ImportIn) (n : Nat) (s : State) (kh : Kept kq s) : Kept kq (State.padSegment p x n s) := by
  unfold State.padSegment
  try dsimp only
  repeat' first
    | with_reducible assumption
    | with_reducible apply count_kept
    | with_reducible apply setSeg_kept
    | with_reducible apply settleSeg_kept
    | with_reducible apply issueStripe_kept
    | with_reducible apply foldl_kept
    | intro _
    | split
    | dsimp only

theorem importClose_kept {kq : List Instr} (p : Nat) (x : ImportIn) (s : State) (kh : Kept kq s) : Kept kq (State.importClose p x s) := by
  unfold State.importClose
  try dsimp only
  repeat' first
    | with_reducible assumption
    | with_reducible apply onPool_kept
    | with_reducible apply syncPool_kept
    | with_reducible apply takeSeg_kept
    | with_reducible apply padSegment_kept
    | with_reducible apply foldl_kept
    | intro _
    | split
    | dsimp only

theorem importEnd_kept {kq : List Instr} (p : Nat) (s : State) (kh : Kept kq s) : Kept kq (State.importEnd p s) := by
  unfold State.importEnd
  try dsimp only
  repeat' first
    | with_reducible assumption
    | with_reducible apply setPool_kept
    | with_reducible apply takeSpare_kept
    | with_reducible apply settlePool_kept
    | with_reducible apply memberLoss_kept
    | with_reducible apply syncJrnl_kept
    | with_reducible apply settleRebuild_kept
    | with_reducible apply opStatus_kept
    | with_reducible apply importFail_kept
    | with_reducible apply foldl_kept
    | intro _
    | split
    | dsimp only

theorem execImportPhaseComplete_kept {kq : List Instr} {ko : State} (pool : Nat) (found : ImportIn) (s : State) (kh : Kept kq s) (ke : execImportPhaseComplete pool found s = .next ko) : Kept kq ko := by
  unfold execImportPhaseComplete at ke
  refine next_kept ?_ ke
  try dsimp only
  repeat' first
    | with_reducible assumption
    | with_reducible apply onPool_kept
    | with_reducible apply syncPool_kept
    | with_reducible apply importLabels_kept
    | with_reducible apply importLog_kept
    | with_reducible apply importMap_kept
    | with_reducible apply importClose_kept
    | with_reducible apply importEnd_kept
    | intro _
    | split
    | dsimp only

theorem rebuildAt_kept {kq : List Instr} (p : Nat) (s : State) (kh : Kept kq s) : Kept kq (State.rebuildAt p s) := by
  unfold State.rebuildAt
  try dsimp only
  repeat' first
    | with_reducible assumption
    | with_reducible apply onPool_kept
    | intro _
    | split
    | dsimp only

theorem rebuildWrite_kept {kq : List Instr} (e : RbWrite) (off len : Nat) (s : State) (kh : Kept kq s) : Kept kq (State.rebuildWrite e off len s) := by
  unfold State.rebuildWrite
  try dsimp only
  repeat' first
    | with_reducible assumption
    | with_reducible apply onStrp_kept
    | with_reducible apply drvWrite_kept
    | intro _
    | split
    | dsimp only

theorem rebuildMap_kept {kq : List Instr} (p pos slot : Nat) (s : State) (kh : Kept kq s) : Kept kq (State.rebuildMap p pos slot s) := by
  unfold State.rebuildMap
  try dsimp only
  repeat' first
    | with_reducible assumption
    | with_reducible apply count_kept
    | with_reducible apply emit_kept
    | with_reducible apply bgRead_kept2
    | with_reducible apply rebuildWrite_kept
    | intro _
    | split
    | (refine bgRead_keptE ?_ (by with_reducible assumption))
    | dsimp only

theorem rebuildNext_kept {kq : List Instr} (p : Nat) (s : State) (kh : Kept kq s) : Kept kq (State.rebuildNext p s) := by
  unfold State.rebuildNext
  try dsimp only
  repeat' first
    | with_reducible assumption
    | with_reducible apply onPool_kept
    | with_reducible apply syncPool_kept
    | with_reducible apply settleRebuild_kept
    | intro _
    | split
    | dsimp only

theorem rebuildStrips_kept {kq : List Instr} (p : Nat) (bad : List (Nat × Nat)) (known : List (Nat × Option Nat)) (writers : List Nat) (bytes : Nat) (s : State) (kh : Kept kq s) : Kept kq (State.rebuildStrips p bad known writers bytes s) := by
  unfold State.rebuildStrips
  try dsimp only
  repeat' first
    | with_reducible assumption
    | with_reducible apply count_kept
    | with_reducible apply draw_kept2
    | with_reducible apply emit_kept
    | with_reducible apply occur_kept
    | with_reducible apply onPool_kept
    | with_reducible apply addLoss_kept
    | with_reducible apply rewriteRows_kept
    | with_reducible apply rebuildWrite_kept
    | with_reducible apply foldl_kept
    | intro _
    | split
    | (refine draw_kept ?_ (by with_reducible assumption))
    | dsimp only

theorem rebuildRead_kept2 {kq : List Instr} (p : Nat) (s : State) (kh : Kept kq s) : Kept kq (State.rebuildRead p s).2 := by
  unfold State.rebuildRead
  try dsimp only
  repeat' first
    | with_reducible assumption
    | with_reducible apply bgRead_kept2
    | with_reducible exact optKept_none
    | with_reducible apply optKept_some
    | with_reducible apply optKept_map
    | with_reducible apply optKept_foldl
    | exact OptKept.kept (by assumption) _ rfl
    | intro _
    | split
    | (refine bgRead_keptE ?_ (by with_reducible assumption))
    | dsimp only
theorem rebuildRead_keptE {kq : List Instr} {ko : State} {x0 : Option (List (Option Nat))} {p : Nat} {s : State} (kh : Kept kq s) (ke : State.rebuildRead p s = (x0,ko)) : Kept kq ko := by
  have kt := rebuildRead_kept2 p s kh
  rw [ke] at kt
  exact kt

theorem rebuildStripe_kept {kq : List Instr} (p : Nat) (bad : List (Nat × Nat)) (s0 : State) (kh : Kept kq s0) : Kept kq (State.rebuildStripe p bad s0) := by
  unfold State.rebuildStripe
  try dsimp only
  repeat' first
    | with_reducible assumption
    | with_reducible apply rebuildAt_kept
    | with_reducible apply rebuildMap_kept
    | with_reducible apply rebuildNext_kept
    | with_reducible apply rebuildStrips_kept
    | with_reducible apply rebuildRead_kept2
    | intro _
    | split
    | (refine rebuildRead_keptE ?_ (by with_reducible assumption))
    | dsimp only

theorem execRebuildStripe_kept {kq : List Instr} {ko : State} (pool : Nat) (bad : List (Nat × Nat)) (s : State) (kh : Kept kq s) (ke : execRebuildStripe pool bad s = .next ko) : Kept kq ko := by
  unfold execRebuildStripe at ke
  refine next_kept ?_ ke
  try dsimp only
  repeat' first
    | with_reducible assumption
    | with_reducible apply onPool_kept
    | with_reducible apply syncPool_kept
    | with_reducible apply relabel_kept
    | with_reducible apply rebuildStripe_kept
    | intro _
    | split
    | dsimp only

theorem execRebuildCheckpoint_kept {kq : List Instr} {ko : State} (pool : Nat) (s : State) (kh : Kept kq s) (ke : execRebuildCheckpoint pool s = .next ko) : Kept kq ko := by
  unfold execRebuildCheckpoint at ke
  refine next_kept ?_ ke
  try dsimp only
  repeat' first
    | with_reducible assumption
    | with_reducible apply when_kept
    | with_reducible apply relabel_kept
    | intro _
    | split
    | dsimp only

theorem damageUnits_kept {kq : List Instr} (p cause : Nat) (us : List (Nat × Nat)) (s : State) (kh : Kept kq s) : Kept kq (State.damageUnits p cause us s) := by
  unfold State.damageUnits
  try dsimp only
  repeat' first
    | with_reducible assumption
    | with_reducible apply count_kept
    | with_reducible apply commitEntry_kept
    | with_reducible apply unitErrs_kept
    | with_reducible apply foldl_kept
    | intro _
    | split
    | dsimp only

theorem lossUnits_kept {kq : List Instr} (p : Nat) (e : LossEnt) (s : State) (kh : Kept kq s) : Kept kq (State.lossUnits p e s) := by
  unfold State.lossUnits
  try dsimp only
  repeat' first
    | with_reducible assumption
    | with_reducible apply occur_kept
    | with_reducible apply damageUnits_kept
    | intro _
    | split
    | dsimp only

theorem lossHandle_kept {kq : List Instr} (p i : Nat) (s : State) (kh : Kept kq s) : Kept kq (State.lossHandle p i s) := by
  unfold State.lossHandle
  try dsimp only
  repeat' first
    | with_reducible assumption
    | with_reducible apply bgTake_kept2
    | with_reducible apply onPool_kept
    | with_reducible apply setLoss_kept
    | with_reducible apply rewriteRows_kept
    | with_reducible apply lossUnits_kept
    | with_reducible apply foldl_kept
    | intro _
    | split
    | (refine bgTake_keptE ?_ (by with_reducible assumption))
    | dsimp only

theorem execLossHandle_kept {kq : List Instr} {ko : State} (pool index : Nat) (s : State) (kh : Kept kq s) (ke : execLossHandle pool index s = .next ko) : Kept kq ko := by
  unfold execLossHandle at ke
  refine next_kept ?_ ke
  try dsimp only
  repeat' first
    | with_reducible assumption
    | with_reducible apply lossHandle_kept
    | intro _
    | split
    | dsimp only

theorem turnerLog_kept {kq : List Instr} (p st row result role : Nat) (s : State) (kh : Kept kq s) : Kept kq (State.turnerLog p st row result role s) := by
  unfold State.turnerLog
  try dsimp only
  repeat' first
    | with_reducible assumption
    | with_reducible apply onPool_kept
    | intro _
    | split
    | dsimp only

theorem turnerMove_kept {kq : List Instr} (p : Nat) (s : State) (kh : Kept kq s) : Kept kq (State.turnerMove p s) := by
  unfold State.turnerMove
  try dsimp only
  repeat' first
    | with_reducible assumption
    | with_reducible apply onPool_kept
    | with_reducible apply turnerRow_kept
    | intro _
    | split
    | dsimp only

theorem mendUnit_kept {kq : List Instr} (p st : Nat) (u : Nat × Nat) (s : State) (kh : Kept kq s) : Kept kq (State.mendUnit p st u s) := by
  unfold State.mendUnit
  try dsimp only
  repeat' first
    | with_reducible assumption
    | with_reducible apply count_kept
    | with_reducible apply rewriteRows_kept
    | with_reducible apply foldl_kept
    | intro _
    | split
    | dsimp only

theorem turnerRow_kept {kq : List Instr} (p : Nat) (rows : List (Option Nat)) (mended failed : List (Nat × Nat)) (s : State) (kh : Kept kq s) : Kept kq (State.turnerRow p rows mended failed s) := by
  unfold State.turnerRow
  try dsimp only
  repeat' first
    | with_reducible assumption
    | with_reducible apply count_kept
    | with_reducible apply occur_kept
    | with_reducible apply syncPool_kept
    | with_reducible apply addLoss_kept
    | with_reducible apply commitEntry_kept
    | with_reducible apply rewriteRows_kept
    | with_reducible apply unitErrs_kept
    | with_reducible apply turnerLog_kept
    | with_reducible apply turnerMove_kept
    | with_reducible apply mendUnit_kept
    | with_reducible apply foldl_kept
    | intro _
    | split
    | dsimp only

theorem turnerRead_kept2 {kq : List Instr} (p st row : Nat) (s : State) (kh : Kept kq s) : Kept kq (State.turnerRead p st row s).2 := by
  unfold State.turnerRead
  try dsimp only
  repeat' first
    | with_reducible assumption
    | with_reducible apply bgRead_kept2
    | with_reducible exact optKept_none
    | with_reducible apply optKept_some
    | with_reducible apply optKept_map
    | with_reducible apply optKept_foldl
    | exact OptKept.kept (by assumption) _ rfl
    | intro _
    | split
    | (refine bgRead_keptE ?_ (by with_reducible assumption))
    | dsimp only
theorem turnerRead_keptE {kq : List Instr} {ko : State} {x0 : Option (List (Option Nat))} {p st row : Nat} {s : State} (kh : Kept kq s) (ke : State.turnerRead p st row s = (x0,ko)) : Kept kq ko := by
  have kt := turnerRead_kept2 p st row s kh
  rw [ke] at kt
  exact kt

theorem execTurnerRow_kept {kq : List Instr} {ko : State} (pool : Nat) (mended failed : List (Nat × Nat)) (s : State) (kh : Kept kq s) (ke : execTurnerRow pool mended failed s = .next ko) : Kept kq ko := by
  unfold execTurnerRow at ke
  refine next_kept ?_ ke
  try dsimp only
  repeat' first
    | with_reducible assumption
    | with_reducible apply onPool_kept
    | with_reducible apply syncPool_kept
    | with_reducible apply turnerRow_kept
    | with_reducible apply turnerRead_kept2
    | intro _
    | split
    | (refine turnerRead_keptE ?_ (by with_reducible assumption))
    | dsimp only

end Sys2Proof.Machine
end

