-- ==== Sys2Proof/Laws/Kept/DrvExec.lean ====
section
/-!
SUPPORT. What the operations of Machine/DrvExec.lean keep.
-/
namespace Sys2Proof.Machine
open Sys2Proof

theorem dropBg_kept {kq : List Instr} (b tag : Nat) (r : DrvReq) (s : State) (kh : Kept kq s) : Kept kq (State.dropBg b tag r s) := by
  unfold State.dropBg
  try dsimp only
  repeat' first
    | with_reducible assumption
    | with_reducible apply dropKind_kept
    | intro _
    | split
    | dsimp only

theorem dropReads_kept {kq : List Instr} (b : Nat) (s : State) (kh : Kept kq s) : Kept kq (State.dropReads b s) := by
  unfold State.dropReads
  try dsimp only
  repeat' first
    | with_reducible assumption
    | with_reducible apply dropBg_kept
    | with_reducible apply foldl_kept
    | intro _
    | split
    | dsimp only

theorem slotBack_kept {kq : List Instr} (n : Nat) (completed : Bool) (s : State) (kh : Kept kq s) : Kept kq (State.slotBack n completed s) := by
  unfold State.slotBack
  try dsimp only
  repeat' first
    | with_reducible assumption
    | with_reducible apply count_kept
    | with_reducible apply when_kept
    | with_reducible apply onSlot_kept
    | intro _
    | split
    | dsimp only

theorem partBack_kept {kq : List Instr} (j i : Nat) (q : RPart → RPart) (completed : Bool) (s : State) (kh : Kept kq s) : Kept kq (State.partBack j i q completed s) := by
  unfold State.partBack
  try dsimp only
  repeat' first
    | with_reducible assumption
    | with_reducible apply onSeg_kept
    | with_reducible apply setReadJob_kept
    | with_reducible apply slotBack_kept
    | intro _
    | split
    | dsimp only

theorem repairRows_kept {kq : List Instr} (j : Nat) (s : State) (kh : Kept kq s) : Kept kq (State.repairRows j s) := by
  unfold State.repairRows
  try dsimp only
  repeat' first
    | with_reducible assumption
    | with_reducible apply count_kept
    | with_reducible apply occur_kept
    | with_reducible apply setReadJob_kept
    | with_reducible apply rewriteRows_kept
    | with_reducible apply foldl_kept
    | intro _
    | split
    | dsimp only

theorem settleUnit_kept {kq : List Instr} (j : Nat) (s : State) (kh : Kept kq s) : Kept kq (State.settleUnit j s) := by
  unfold State.settleUnit
  try dsimp only
  repeat' first
    | with_reducible assumption
    | with_reducible apply endRead_kept
    | with_reducible apply loseRead_kept
    | with_reducible apply repairRows_kept
    | intro _
    | split
    | dsimp only

theorem partLost_kept {kq : List Instr} (j i : Nat) (media completed : Bool) (s : State) (kh : Kept kq s) : Kept kq (State.partLost j i media completed s) := by
  unfold State.partLost
  try dsimp only
  repeat' first
    | with_reducible assumption
    | with_reducible apply count_kept
    | with_reducible apply occur_kept
    | with_reducible apply syncPool_kept
    | with_reducible apply addLoss_kept
    | with_reducible apply setReadJob_kept
    | with_reducible apply partBack_kept
    | with_reducible apply settleUnit_kept
    | intro _
    | split
    | (refine askParts_keptE ?_ (by with_reducible assumption))
    | dsimp only

theorem dropBack_kept {kq : List Instr} (slot : Option Nat) (p seg : Nat) (completed : Bool) (s : State) (kh : Kept kq s) : Kept kq (State.dropBack slot p seg completed s) := by
  unfold State.dropBack
  try dsimp only
  repeat' first
    | with_reducible assumption
    | with_reducible apply when_kept
    | with_reducible apply workReturned_kept
    | with_reducible apply onSeg_kept
    | with_reducible apply slotBack_kept
    | intro _
    | split
    | dsimp only

theorem failUser_kept {kq : List Instr} (b : Nat) (r : DrvReq) (media completed : Bool) (s : State) (kh : Kept kq s) : Kept kq (State.failUser b r media completed s) := by
  unfold State.failUser
  try dsimp only
  repeat' first
    | with_reducible assumption
    | with_reducible apply onStrp_kept
    | with_reducible apply dropWrite_kept
    | with_reducible apply bgBack_kept
    | with_reducible apply partLost_kept
    | with_reducible apply dropBack_kept
    | intro _
    | split
    | dsimp only

theorem reqFail_kept {kq : List Instr} (b : Nat) (r : DrvReq) (completed : Bool) (s : State) (kh : Kept kq s) : Kept kq (State.reqFail b r completed s) := by
  unfold State.reqFail
  try dsimp only
  repeat' first
    | with_reducible assumption
    | with_reducible apply count_kept
    | with_reducible apply failUser_kept
    | intro _
    | split
    | dsimp only

theorem drvRetry_kept {kq : List Instr} (b : Nat) (r : DrvReq) (completed : Bool) (s : State) (kh : Kept kq s) : Kept kq (State.drvRetry b r completed s) := by
  unfold State.drvRetry
  try dsimp only
  repeat' first
    | with_reducible assumption
    | with_reducible apply count_kept
    | with_reducible apply drvSubmit_kept
    | with_reducible apply failUser_kept
    | with_reducible apply reqFail_kept
    | intro _
    | split
    | dsimp only

theorem bayDrain_kept {kq : List Instr} (b : Nat) (s : State) (kh : Kept kq s) : Kept kq (State.bayDrain b s) := by
  unfold State.bayDrain
  try dsimp only
  repeat' first
    | with_reducible assumption
    | with_reducible apply setBay_kept
    | with_reducible apply syncBay_kept
    | with_reducible apply dropReads_kept
    | with_reducible apply reqFail_kept
    | with_reducible apply foldl_kept
    | intro _
    | split
    | dsimp only

theorem bayDown_kept {kq : List Instr} (b nvme : Nat) (s : State) (kh : Kept kq s) : Kept kq (State.bayDown b nvme s) := by
  unfold State.bayDown
  try dsimp only
  repeat' first
    | with_reducible assumption
    | with_reducible apply setF_kept
    | with_reducible apply onBay_kept
    | intro _
    | split
    | dsimp only

theorem driveRetire_kept {kq : List Instr} (b : Nat) (s : State) (kh : Kept kq s) : Kept kq (State.driveRetire b s) := by
  unfold State.driveRetire
  try dsimp only
  repeat' first
    | with_reducible assumption
    | with_reducible apply occur_kept
    | with_reducible apply pageEv_kept
    | with_reducible apply bayLost_kept
    | with_reducible apply bayDrain_kept
    | intro _
    | split
    | dsimp only

theorem driveReset_kept {kq : List Instr} (b level : Nat) (s : State) (kh : Kept kq s) : Kept kq (State.driveReset b level s) := by
  unfold State.driveReset
  try dsimp only
  repeat' first
    | with_reducible assumption
    | with_reducible apply count_kept
    | with_reducible apply emit_kept
    | with_reducible apply setF_kept
    | with_reducible apply setBay_kept
    | with_reducible apply syncBay_kept
    | with_reducible apply drvRecord_kept
    | with_reducible apply syncErrs_kept
    | with_reducible apply dropReads_kept
    | with_reducible apply reqFail_kept
    | with_reducible apply foldl_kept
    | intro _
    | split
    | dsimp only

theorem execBayReset1_kept {kq : List Instr} {ko : State} (bay : Nat) (s : State) (kh : Kept kq s) (ke : execBayReset1 bay s = .next ko) : Kept kq ko := by
  unfold execBayReset1 at ke
  refine next_kept ?_ ke
  try dsimp only
  repeat' first
    | with_reducible assumption
    | with_reducible apply when_kept
    | with_reducible apply driveReset_kept
    | intro _
    | split
    | dsimp only

theorem execBayReset2_kept {kq : List Instr} {ko : State} (bay : Nat) (s : State) (kh : Kept kq s) (ke : execBayReset2 bay s = .next ko) : Kept kq ko := by
  unfold execBayReset2 at ke
  refine next_kept ?_ ke
  try dsimp only
  repeat' first
    | with_reducible assumption
    | with_reducible apply when_kept
    | with_reducible apply driveReset_kept
    | intro _
    | split
    | dsimp only

theorem execReset1Timeout_kept {kq : List Instr} {ko : State} (bay : Nat) (s : State) (kh : Kept kq s) (ke : execReset1Timeout bay s = .next ko) : Kept kq ko := by
  unfold execReset1Timeout at ke
  refine next_kept ?_ ke
  try dsimp only
  repeat' first
    | with_reducible assumption
    | with_reducible apply when_kept
    | with_reducible apply driveReset_kept
    | intro _
    | split
    | dsimp only

theorem execReset2Timeout_kept {kq : List Instr} {ko : State} (bay : Nat) (s : State) (kh : Kept kq s) (ke : execReset2Timeout bay s = .next ko) : Kept kq ko := by
  unfold execReset2Timeout at ke
  refine next_kept ?_ ke
  try dsimp only
  repeat' first
    | with_reducible assumption
    | with_reducible apply when_kept
    | with_reducible apply driveRetire_kept
    | intro _
    | split
    | dsimp only

theorem driveRemoved_kept {kq : List Instr} (b : Nat) (s : State) (kh : Kept kq s) : Kept kq (State.driveRemoved b s) := by
  unfold State.driveRemoved
  try dsimp only
  repeat' first
    | with_reducible assumption
    | with_reducible apply onFab_kept
    | with_reducible apply onBay_kept
    | with_reducible apply syncBay_kept
    | with_reducible apply bayLost_kept
    | with_reducible apply bayDrain_kept
    | with_reducible apply bayDown_kept
    | intro _
    | split
    | dsimp only

theorem presence_kept {kq : List Instr} (b : Nat) (present : Bool) (s : State) (kh : Kept kq s) : Kept kq (State.presence b present s) := by
  unfold State.presence
  try dsimp only
  repeat' first
    | with_reducible assumption
    | with_reducible apply count_kept
    | with_reducible apply pageEv_kept
    | with_reducible apply setF_kept
    | with_reducible apply when_kept
    | with_reducible apply driveRemoved_kept
    | intro _
    | split
    | dsimp only

theorem execPerstRelease_kept {kq : List Instr} {ko : State} (bay : Nat) (s : State) (kh : Kept kq s) (ke : execPerstRelease bay s = .next ko) : Kept kq ko := by
  unfold execPerstRelease at ke
  refine next_kept ?_ ke
  try dsimp only
  repeat' first
    | with_reducible assumption
    | with_reducible apply emit_kept
    | with_reducible apply onBay_kept
    | intro _
    | split
    | dsimp only

theorem execDriveLinkUp_kept {kq : List Instr} {ko : State} (bay gen width : Nat) (flit slow : Bool) (s : State) (kh : Kept kq s) (ke : execDriveLinkUp bay gen width flit slow s = .next ko) : Kept kq ko := by
  unfold execDriveLinkUp at ke
  refine next_kept ?_ ke
  try dsimp only
  repeat' first
    | with_reducible assumption
    | with_reducible apply occur_kept
    | with_reducible apply pageEv_kept
    | with_reducible apply setF_kept
    | intro _
    | split
    | dsimp only

theorem driveApst_kept {kq : List Instr} (b : Nat) (s : State) (kh : Kept kq s) : Kept kq (State.driveApst b s) := by
  unfold State.driveApst
  try dsimp only
  repeat' first
    | with_reducible assumption
    | with_reducible apply emit_kept
    | intro _
    | split
    | dsimp only

theorem driveReady_kept {kq : List Instr} (b : Nat) (i : DriveInfo) (s : State) (kh : Kept kq s) : Kept kq (State.driveReady b i s) := by
  unfold State.driveReady
  try dsimp only
  repeat' first
    | with_reducible assumption
    | with_reducible apply occur_kept
    | with_reducible apply onStrp_kept
    | with_reducible apply setF_kept
    | with_reducible apply when_kept
    | with_reducible apply onBay_kept
    | with_reducible apply bayArrived_kept
    | with_reducible apply driveApst_kept
    | intro _
    | split
    | dsimp only

theorem execDriveBringup_kept {kq : List Instr} {ko : State} (bay : Nat) (info : DriveInfo) (s : State) (kh : Kept kq s) (ke : execDriveBringup bay info s = .next ko) : Kept kq ko := by
  unfold execDriveBringup at ke
  refine next_kept ?_ ke
  try dsimp only
  repeat' first
    | with_reducible assumption
    | with_reducible apply driveReady_kept
    | intro _
    | split
    | dsimp only

theorem execDriveResetComplete_kept {kq : List Instr} {ko : State} (bay : Nat) (info : DriveInfo) (s : State) (kh : Kept kq s) (ke : execDriveResetComplete bay info s = .next ko) : Kept kq ko := by
  unfold execDriveResetComplete at ke
  refine next_kept ?_ ke
  try dsimp only
  repeat' first
    | with_reducible assumption
    | with_reducible apply onBay_kept
    | with_reducible apply drvRetry_kept
    | with_reducible apply driveReady_kept
    | with_reducible apply foldl_kept
    | intro _
    | split
    | dsimp only

theorem execDriveLinkDown_kept {kq : List Instr} {ko : State} (bay : Nat) (s : State) (kh : Kept kq s) (ke : execDriveLinkDown bay s = .next ko) : Kept kq ko := by
  unfold execDriveLinkDown at ke
  refine next_kept ?_ ke
  try dsimp only
  repeat' first
    | with_reducible assumption
    | with_reducible apply occur_kept
    | with_reducible apply setF_kept
    | with_reducible apply driveReset_kept
    | intro _
    | split
    | dsimp only

theorem tagWait_kept {kq : List Instr} (b : Nat) (s : State) (kh : Kept kq s) : Kept kq (State.tagWait b s) := by
  unfold State.tagWait
  try dsimp only
  repeat' first
    | with_reducible assumption
    | with_reducible apply count_kept
    | with_reducible apply onBay_kept
    | intro _
    | split
    | dsimp only

theorem issueNext_kept {kq : List Instr} (b : Nat) (s : State) (kh : Kept kq s) : Kept kq (State.issueNext b s) := by
  unfold State.issueNext
  try dsimp only
  repeat' first
    | with_reducible assumption
    | with_reducible apply count_kept
    | with_reducible apply emit_kept
    | with_reducible apply occur_kept
    | with_reducible apply onBay_kept
    | with_reducible apply ring_kept
    | with_reducible apply failUser_kept
    | with_reducible apply tagWait_kept
    | intro _
    | split
    | dsimp only

theorem execDriveRequestIssue_kept {kq : List Instr} {ko : State} (bay : Nat) (s : State) (kh : Kept kq s) (ke : execDriveRequestIssue bay s = .next ko) : Kept kq ko := by
  unfold execDriveRequestIssue at ke
  refine next_kept ?_ ke
  try dsimp only
  repeat' first
    | with_reducible assumption
    | with_reducible apply issueNext_kept
    | intro _
    | split
    | dsimp only

theorem readCross_kept {kq : List Instr} (b tag : Nat) (r : DrvReq) (s : State) (kh : Kept kq s) : Kept kq (State.readCross b tag r s) := by
  unfold State.readCross
  try dsimp only
  repeat' first
    | with_reducible assumption
    | with_reducible apply offerKind_kept
    | with_reducible apply dropBg_kept
    | intro _
    | split
    | dsimp only

theorem reqDone_kept {kq : List Instr} (b tag : Nat) (r : DrvReq) (s : State) (kh : Kept kq s) : Kept kq (State.reqDone b tag r s) := by
  unfold State.reqDone
  try dsimp only
  repeat' first
    | with_reducible assumption
    | with_reducible apply count_kept
    | with_reducible apply onStrp_kept
    | with_reducible apply onBay_kept
    | with_reducible apply drvSubmit_kept
    | with_reducible apply dropWrite_kept
    | with_reducible apply untag_kept
    | with_reducible apply bgBack_kept
    | with_reducible apply dropBg_kept
    | with_reducible apply partBack_kept
    | with_reducible apply settleUnit_kept
    | with_reducible apply dropBack_kept
    | with_reducible apply readCross_kept
    | intro _
    | split
    | dsimp only

theorem driveCompletion_kept {kq : List Instr} (b cid sct sc : Nat) (dnr : Bool) (s : State) (kh : Kept kq s) : Kept kq (State.driveCompletion b cid sct sc dnr s) := by
  unfold State.driveCompletion
  try dsimp only
  repeat' first
    | with_reducible assumption
    | with_reducible apply count_kept
    | with_reducible apply onBay_kept
    | with_reducible apply drvPacket_kept
    | with_reducible apply syncErrs_kept
    | with_reducible apply untag_kept
    | with_reducible apply dropBg_kept
    | with_reducible apply failUser_kept
    | with_reducible apply reqFail_kept
    | with_reducible apply drvRetry_kept
    | with_reducible apply reqDone_kept
    | intro _
    | split
    | dsimp only

theorem execDriveCompletion_kept {kq : List Instr} {ko : State} (bay cid sct sc : Nat) (dnr : Bool) (s : State) (kh : Kept kq s) (ke : execDriveCompletion bay cid sct sc dnr s = .next ko) : Kept kq ko := by
  unfold execDriveCompletion at ke
  refine next_kept ?_ ke
  try dsimp only
  repeat' first
    | with_reducible assumption
    | with_reducible apply driveCompletion_kept
    | intro _
    | split
    | dsimp only

theorem windowCells_kept2 {kq : List Instr} (b tag : Nat) (r : DrvReq) (s : State) (kh : Kept kq s) : Kept kq (State.windowCells b tag r s).2 := by
  unfold State.windowCells
  try dsimp only
  repeat' first
    | with_reducible assumption
    | with_reducible apply hasCells_kept2
    | intro _
    | split
    | (refine hasCells_keptE ?_ (by with_reducible assumption))
    | dsimp only
theorem windowCells_keptE {kq : List Instr} {ko : State} {x0 : Bool} {b tag : Nat} {r : DrvReq} {s : State} (kh : Kept kq s) (ke : State.windowCells b tag r s = (x0,ko)) : Kept kq ko := by
  have kt := windowCells_kept2 b tag r s kh
  rw [ke] at kt
  exact kt

theorem dmaWrite_kept {kq : List Instr} (b addr : Nat) (d : Blob) (s : State) (kh : Kept kq s) : Kept kq (State.dmaWrite b addr d s) := by
  unfold State.dmaWrite
  try dsimp only
  repeat' first
    | with_reducible assumption
    | with_reducible apply count_kept
    | with_reducible apply onBay_kept
    | with_reducible apply drvPacket_kept
    | with_reducible apply windowCells_kept2
    | intro _
    | split
    | (refine windowCells_keptE ?_ (by with_reducible assumption))
    | dsimp only

theorem execDriveDmaWrite_kept {kq : List Instr} {ko : State} (bay addr : Nat) (data : Blob) (s : State) (kh : Kept kq s) (ke : execDriveDmaWrite bay addr data s = .next ko) : Kept kq ko := by
  unfold execDriveDmaWrite at ke
  refine next_kept ?_ ke
  try dsimp only
  repeat' first
    | with_reducible assumption
    | with_reducible apply dmaWrite_kept
    | intro _
    | split
    | dsimp only

theorem writeData_kept2 {kq : List Instr} (r : DrvReq) (s : State) (kh : Kept kq s) : Kept kq (State.writeData r s).2 := by
  unfold State.writeData
  try dsimp only
  repeat' first
    | with_reducible assumption
    | with_reducible apply draw_kept2
    | intro _
    | split
    | (refine draw_kept ?_ (by with_reducible assumption))
    | dsimp only
theorem writeData_keptE {kq : List Instr} {ko : State} {x0 : Nat} {r : DrvReq} {s : State} (kh : Kept kq s) (ke : State.writeData r s = (x0,ko)) : Kept kq ko := by
  have kt := writeData_kept2 r s kh
  rw [ke] at kt
  exact kt

theorem windowBytes_kept2 {kq : List Instr} (b tag : Nat) (r : DrvReq) (s : State) (kh : Kept kq s) : Kept kq (State.windowBytes b tag r s).2 := by
  unfold State.windowBytes
  try dsimp only
  repeat' first
    | with_reducible assumption
    | with_reducible apply draw_kept2
    | with_reducible apply writeData_kept2
    | intro _
    | split
    | (refine draw_kept ?_ (by with_reducible assumption))
    | (refine writeData_keptE ?_ (by with_reducible assumption))
    | dsimp only
theorem windowBytes_keptE {kq : List Instr} {ko : State} {x0 : Nat} {b tag : Nat} {r : DrvReq} {s : State} (kh : Kept kq s) (ke : State.windowBytes b tag r s = (x0,ko)) : Kept kq ko := by
  have kt := windowBytes_kept2 b tag r s kh
  rw [ke] at kt
  exact kt

theorem dmaRead_kept {kq : List Instr} (b addr n : Nat) (s : State) (kh : Kept kq s) : Kept kq (State.dmaRead b addr n s) := by
  unfold State.dmaRead
  try dsimp only
  repeat' first
    | with_reducible assumption
    | with_reducible apply count_kept
    | with_reducible apply emit_kept
    | with_reducible apply drvPacket_kept
    | with_reducible apply windowBytes_kept2
    | intro _
    | split
    | (refine windowBytes_keptE ?_ (by with_reducible assumption))
    | dsimp only

theorem execDriveDmaRead_kept {kq : List Instr} {ko : State} (bay addr bytes : Nat) (s : State) (kh : Kept kq s) (ke : execDriveDmaRead bay addr bytes s = .next ko) : Kept kq ko := by
  unfold execDriveDmaRead at ke
  refine next_kept ?_ ke
  try dsimp only
  repeat' first
    | with_reducible assumption
    | with_reducible apply dmaRead_kept
    | intro _
    | split
    | dsimp only

theorem cmdTimeout_kept {kq : List Instr} (b tag : Nat) (s : State) (kh : Kept kq s) : Kept kq (State.cmdTimeout b tag s) := by
  unfold State.cmdTimeout
  try dsimp only
  repeat' first
    | with_reducible assumption
    | with_reducible apply count_kept
    | with_reducible apply emit_kept
    | with_reducible apply onBay_kept
    | with_reducible apply syncBay_kept
    | with_reducible apply drvRecord_kept
    | with_reducible apply syncErrs_kept
    | with_reducible apply untag_kept
    | with_reducible apply dropBg_kept
    | with_reducible apply drvRetry_kept
    | with_reducible apply driveReset_kept
    | intro _
    | split
    | dsimp only

theorem execDriveCmdTimeout_kept {kq : List Instr} {ko : State} (bay tag : Nat) (s : State) (kh : Kept kq s) (ke : execDriveCmdTimeout bay tag s = .next ko) : Kept kq ko := by
  unfold execDriveCmdTimeout at ke
  refine next_kept ?_ ke
  try dsimp only
  repeat' first
    | with_reducible assumption
    | with_reducible apply cmdTimeout_kept
    | intro _
    | split
    | dsimp only

theorem execTagQuarantineEnd_kept {kq : List Instr} {ko : State} (bay tag : Nat) (s : State) (kh : Kept kq s) (ke : execTagQuarantineEnd bay tag s = .next ko) : Kept kq ko := by
  unfold execTagQuarantineEnd at ke
  refine next_kept ?_ ke
  try dsimp only
  repeat' first
    | with_reducible assumption
    | with_reducible apply onBay_kept
    | with_reducible apply syncBay_kept
    | intro _
    | split
    | dsimp only

theorem execDriveCto_kept {kq : List Instr} {ko : State} (bay tag : Nat) (s : State) (kh : Kept kq s) (ke : execDriveCto bay tag s = .next ko) : Kept kq ko := by
  unfold execDriveCto at ke
  refine next_kept ?_ ke
  try dsimp only
  repeat' first
    | with_reducible assumption
    | with_reducible apply onBay_kept
    | with_reducible apply drvPacket_kept
    | intro _
    | split
    | dsimp only

theorem execDriveIdleTimeout_kept {kq : List Instr} {ko : State} (bay : Nat) (s : State) (kh : Kept kq s) (ke : execDriveIdleTimeout bay s = .next ko) : Kept kq ko := by
  unfold execDriveIdleTimeout at ke
  refine next_kept ?_ ke
  try dsimp only
  repeat' first
    | with_reducible assumption
    | with_reducible apply count_kept
    | with_reducible apply emit_kept
    | with_reducible apply onBay_kept
    | intro _
    | split
    | dsimp only

theorem psDelayed_kept {kq : List Instr} (n us : Nat) (s : State) (kh : Kept kq s) : Kept kq (State.psDelayed n us s) := by
  unfold State.psDelayed
  try dsimp only
  repeat' first
    | with_reducible assumption
    | with_reducible apply count_kept
    | with_reducible apply setSlot_kept
    | intro _
    | split
    | dsimp only

theorem psDelays_kept {kq : List Instr} (b : Nat) (s : State) (kh : Kept kq s) : Kept kq (State.psDelays b s) := by
  unfold State.psDelays
  try dsimp only
  repeat' first
    | with_reducible assumption
    | with_reducible apply psDelayed_kept
    | with_reducible apply foldl_kept
    | intro _
    | split
    | dsimp only

theorem execDrivePsComplete_kept {kq : List Instr} {ko : State} (bay : Nat) (s : State) (kh : Kept kq s) (ke : execDrivePsComplete bay s = .next ko) : Kept kq ko := by
  unfold execDrivePsComplete at ke
  refine next_kept ?_ ke
  try dsimp only
  repeat' first
    | with_reducible assumption
    | with_reducible apply count_kept
    | with_reducible apply emit_kept
    | with_reducible apply setF_kept
    | with_reducible apply onBay_kept
    | with_reducible apply psDelays_kept
    | intro _
    | split
    | dsimp only

theorem execDriveAerMessage_kept {kq : List Instr} {ko : State} (bay kind detail tag hdr : Nat) (s : State) (kh : Kept kq s) (ke : execDriveAerMessage bay kind detail tag hdr s = .next ko) : Kept kq ko := by
  unfold execDriveAerMessage at ke
  refine next_kept ?_ ke
  try dsimp only
  repeat' first
    | with_reducible assumption
    | with_reducible apply count_kept
    | with_reducible apply occur_kept
    | with_reducible apply drvRecord_kept
    | with_reducible apply untag_kept
    | with_reducible apply dropBg_kept
    | with_reducible apply drvRetry_kept
    | with_reducible apply driveReset_kept
    | intro _
    | split
    | dsimp only

end Sys2Proof.Machine
end

