-- ==== Sys2Proof/Laws/Kept/BaypExec.lean ====
section
/-!
SUPPORT. What the operations of Machine/BaypExec.lean keep.
-/
namespace Sys2Proof.Machine
open Sys2Proof

theorem setCh_kept {kq : List Instr} (b n : Nat) (s : State) (kh : Kept kq s) : Kept kq (State.setCh b n s) := by
  unfold State.setCh
  try dsimp only
  repeat' first
    | with_reducible assumption
    | with_reducible apply setF_kept
    | intro _
    | split
    | dsimp only

theorem sense_kept {kq : List Instr} (b : Nat) (x : PwrSample) (s : State) (kh : Kept kq s) : Kept kq (State.sense b x s) := by
  unfold State.sense
  try dsimp only
  repeat' first
    | with_reducible assumption
    | with_reducible apply setF_kept
    | intro _
    | split
    | dsimp only

theorem limited_kept {kq : List Instr} (b ticks mj : Nat) (s : State) (kh : Kept kq s) : Kept kq (State.limited b ticks mj s) := by
  unfold State.limited
  try dsimp only
  repeat' first
    | with_reducible assumption
    | with_reducible apply count_kept
    | with_reducible apply satAdd_kept
    | with_reducible apply when_kept
    | intro _
    | split
    | dsimp only

theorem gatesOff_kept {kq : List Instr} (b : Nat) (s : State) (kh : Kept kq s) : Kept kq (State.gatesOff b s) := by
  unfold State.gatesOff
  try dsimp only
  repeat' first
    | with_reducible assumption
    | with_reducible apply emit_kept
    | with_reducible apply onPwr_kept
    | with_reducible apply when_kept
    | intro _
    | split
    | dsimp only

theorem pgFall_kept {kq : List Instr} (b : Nat) (s : State) (kh : Kept kq s) : Kept kq (State.pgFall b s) := by
  unfold State.pgFall
  try dsimp only
  repeat' first
    | with_reducible assumption
    | with_reducible apply emit_kept
    | with_reducible apply onPwr_kept
    | with_reducible apply setF_kept
    | with_reducible apply onBay_kept
    | with_reducible apply bayDown_kept
    | with_reducible apply driveRemoved_kept
    | intro _
    | split
    | dsimp only

theorem pgRise_kept {kq : List Instr} (b : Nat) (s : State) (kh : Kept kq s) : Kept kq (State.pgRise b s) := by
  unfold State.pgRise
  try dsimp only
  repeat' first
    | with_reducible assumption
    | with_reducible apply onPwr_kept
    | with_reducible apply pageEv_kept
    | with_reducible apply setF_kept
    | with_reducible apply when_kept
    | intro _
    | split
    | dsimp only

theorem chanDown_kept {kq : List Instr} (b n : Nat) (s : State) (kh : Kept kq s) : Kept kq (State.chanDown b n s) := by
  unfold State.chanDown
  try dsimp only
  repeat' first
    | with_reducible assumption
    | with_reducible apply setF_kept
    | with_reducible apply setCh_kept
    | with_reducible apply gatesOff_kept
    | with_reducible apply pgFall_kept
    | intro _
    | split
    | dsimp only

theorem chanFault_kept {kq : List Instr} (b cause : Nat) (s : State) (kh : Kept kq s) : Kept kq (State.chanFault b cause s) := by
  unfold State.chanFault
  try dsimp only
  repeat' first
    | with_reducible assumption
    | with_reducible apply count_kept
    | with_reducible apply occur_kept
    | with_reducible apply setF_kept
    | with_reducible apply chanDown_kept
    | intro _
    | split
    | dsimp only

theorem chanWait_kept {kq : List Instr} (b : Nat) (s : State) (kh : Kept kq s) : Kept kq (State.chanWait b s) := by
  unfold State.chanWait
  try dsimp only
  repeat' first
    | with_reducible assumption
    | with_reducible apply onPwr_kept
    | with_reducible apply setCh_kept
    | intro _
    | split
    | dsimp only

theorem baypLeave_kept {kq : List Instr} (b : Nat) (s : State) (kh : Kept kq s) : Kept kq (State.baypLeave b s) := by
  unfold State.baypLeave
  try dsimp only
  repeat' first
    | with_reducible assumption
    | with_reducible apply setF_kept
    | with_reducible apply setCh_kept
    | with_reducible apply chanDown_kept
    | intro _
    | split
    | dsimp only

theorem chanPresence_kept {kq : List Instr} (b : Nat) (present : Bool) (s : State) (kh : Kept kq s) : Kept kq (State.chanPresence b present s) := by
  unfold State.chanPresence
  try dsimp only
  repeat' first
    | with_reducible assumption
    | with_reducible apply count_kept
    | with_reducible apply setF_kept
    | with_reducible apply when_kept
    | with_reducible apply setCh_kept
    | with_reducible apply chanDown_kept
    | intro _
    | split
    | dsimp only

theorem execDrivePresenceDebounce_kept {kq : List Instr} {ko : State} (bay : Nat) (present : Bool) (s : State) (kh : Kept kq s) (ke : execDrivePresenceDebounce bay present s = .next ko) : Kept kq ko := by
  unfold execDrivePresenceDebounce at ke
  refine next_kept ?_ ke
  try dsimp only
  repeat' first
    | with_reducible assumption
    | with_reducible apply presence_kept
    | with_reducible apply chanPresence_kept
    | intro _
    | split
    | dsimp only

theorem startBay_kept {kq : List Instr} (s : State) (b : Nat) (kh : Kept kq s) : Kept kq (State.startBay s b) := by
  unfold State.startBay
  try dsimp only
  repeat' first
    | with_reducible assumption
    | with_reducible apply count_kept
    | with_reducible apply emit_kept
    | with_reducible apply onPwr_kept
    | with_reducible apply setF_kept
    | with_reducible apply setCh_kept
    | intro _
    | split
    | dsimp only

theorem execBayStartGrant_kept {kq : List Instr} {ko : State} (s : State) (kh : Kept kq s) (ke : execBayStartGrant s = .next ko) : Kept kq ko := by
  unfold execBayStartGrant at ke
  refine next_kept ?_ ke
  try dsimp only
  repeat' first
    | with_reducible assumption
    | with_reducible apply startBay_kept
    | with_reducible apply foldl_kept
    | intro _
    | split
    | dsimp only

theorem execAuxGood_kept {kq : List Instr} {ko : State} (bay : Nat) (sample : PwrSample) (s : State) (kh : Kept kq s) (ke : execAuxGood bay sample s = .next ko) : Kept kq ko := by
  unfold execAuxGood at ke
  refine next_kept ?_ ke
  try dsimp only
  repeat' first
    | with_reducible assumption
    | with_reducible apply emit_kept
    | with_reducible apply onPwr_kept
    | with_reducible apply setCh_kept
    | with_reducible apply sense_kept
    | intro _
    | split
    | dsimp only

theorem execAuxTimeout_kept {kq : List Instr} {ko : State} (bay : Nat) (s : State) (kh : Kept kq s) (ke : execAuxTimeout bay s = .next ko) : Kept kq ko := by
  unfold execAuxTimeout at ke
  refine next_kept ?_ ke
  try dsimp only
  repeat' first
    | with_reducible assumption
    | with_reducible apply count_kept
    | with_reducible apply chanFault_kept
    | intro _
    | split
    | dsimp only

theorem execFaultTimerExpiry_kept {kq : List Instr} {ko : State} (bay ticks mj : Nat) (sample : PwrSample) (s : State) (kh : Kept kq s) (ke : execFaultTimerExpiry bay ticks mj sample s = .next ko) : Kept kq ko := by
  unfold execFaultTimerExpiry at ke
  refine next_kept ?_ ke
  try dsimp only
  repeat' first
    | with_reducible assumption
    | with_reducible apply count_kept
    | with_reducible apply occur_kept
    | with_reducible apply sense_kept
    | with_reducible apply limited_kept
    | with_reducible apply chanFault_kept
    | intro _
    | split
    | dsimp only

theorem execShortTrip_kept {kq : List Instr} {ko : State} (bay ticks mj : Nat) (sample : PwrSample) (s : State) (kh : Kept kq s) (ke : execShortTrip bay ticks mj sample s = .next ko) : Kept kq ko := by
  unfold execShortTrip at ke
  refine next_kept ?_ ke
  try dsimp only
  repeat' first
    | with_reducible assumption
    | with_reducible apply count_kept
    | with_reducible apply occur_kept
    | with_reducible apply sense_kept
    | with_reducible apply limited_kept
    | with_reducible apply chanFault_kept
    | intro _
    | split
    | dsimp only

theorem execPowerGood_kept {kq : List Instr} {ko : State} (bay ticks mj : Nat) (sample : PwrSample) (s : State) (kh : Kept kq s) (ke : execPowerGood bay ticks mj sample s = .next ko) : Kept kq ko := by
  unfold execPowerGood at ke
  refine next_kept ?_ ke
  try dsimp only
  repeat' first
    | with_reducible assumption
    | with_reducible apply count_kept
    | with_reducible apply setCh_kept
    | with_reducible apply sense_kept
    | with_reducible apply limited_kept
    | with_reducible apply pgRise_kept
    | intro _
    | split
    | dsimp only

theorem execDroopFault_kept {kq : List Instr} {ko : State} (bay : Nat) (sample : PwrSample) (s : State) (kh : Kept kq s) (ke : execDroopFault bay sample s = .next ko) : Kept kq ko := by
  unfold execDroopFault at ke
  refine next_kept ?_ ke
  try dsimp only
  repeat' first
    | with_reducible assumption
    | with_reducible apply count_kept
    | with_reducible apply occur_kept
    | with_reducible apply sense_kept
    | with_reducible apply chanFault_kept
    | intro _
    | split
    | dsimp only

theorem execAuxDroopFault_kept {kq : List Instr} {ko : State} (bay : Nat) (sample : PwrSample) (s : State) (kh : Kept kq s) (ke : execAuxDroopFault bay sample s = .next ko) : Kept kq ko := by
  unfold execAuxDroopFault at ke
  refine next_kept ?_ ke
  try dsimp only
  repeat' first
    | with_reducible assumption
    | with_reducible apply count_kept
    | with_reducible apply occur_kept
    | with_reducible apply sense_kept
    | with_reducible apply chanFault_kept
    | intro _
    | split
    | dsimp only

theorem execPgStable_kept {kq : List Instr} {ko : State} (bay : Nat) (s : State) (kh : Kept kq s) (ke : execPgStable bay s = .next ko) : Kept kq ko := by
  unfold execPgStable at ke
  refine next_kept ?_ ke
  try dsimp only
  repeat' first
    | with_reducible assumption
    | with_reducible apply setF_kept
    | intro _
    | split
    | dsimp only

theorem execRetryIntervalExpiry_kept {kq : List Instr} {ko : State} (bay : Nat) (s : State) (kh : Kept kq s) (ke : execRetryIntervalExpiry bay s = .next ko) : Kept kq ko := by
  unfold execRetryIntervalExpiry at ke
  refine next_kept ?_ ke
  try dsimp only
  repeat' first
    | with_reducible assumption
    | with_reducible apply count_kept
    | with_reducible apply satAdd_kept
    | with_reducible apply chanWait_kept
    | intro _
    | split
    | dsimp only

theorem execGate3OffDelay_kept {kq : List Instr} {ko : State} (bay : Nat) (s : State) (kh : Kept kq s) (ke : execGate3OffDelay bay s = .next ko) : Kept kq ko := by
  unfold execGate3OffDelay at ke
  refine next_kept ?_ ke
  try dsimp only
  repeat' first
    | with_reducible assumption
    | with_reducible apply emit_kept
    | with_reducible apply onPwr_kept
    | intro _
    | split
    | dsimp only

theorem execDamageDetectorArm_kept {kq : List Instr} {ko : State} (bay : Nat) (s : State) (kh : Kept kq s) (ke : execDamageDetectorArm bay s = .next ko) : Kept kq ko := by
  unfold execDamageDetectorArm at ke
  refine next_kept ?_ ke
  try dsimp only
  repeat' first
    | with_reducible assumption
    | with_reducible apply onPwr_kept
    | intro _
    | split
    | dsimp only

theorem execDamageTrip_kept {kq : List Instr} {ko : State} (bay : Nat) (sample : PwrSample) (s : State) (kh : Kept kq s) (ke : execDamageTrip bay sample s = .next ko) : Kept kq ko := by
  unfold execDamageTrip at ke
  refine next_kept ?_ ke
  try dsimp only
  repeat' first
    | with_reducible assumption
    | with_reducible apply count_kept
    | with_reducible apply occur_kept
    | with_reducible apply setF_kept
    | with_reducible apply setCh_kept
    | with_reducible apply sense_kept
    | intro _
    | split
    | dsimp only

theorem execDamageCheckPass_kept {kq : List Instr} {ko : State} (bay : Nat) (s : State) (kh : Kept kq s) (ke : execDamageCheckPass bay s = .next ko) : Kept kq ko := by
  unfold execDamageCheckPass at ke
  refine next_kept ?_ ke
  try dsimp only
  repeat' first
    | with_reducible assumption
    | with_reducible apply chanWait_kept
    | intro _
    | split
    | dsimp only

theorem baypEnable_kept {kq : List Instr} (b : Nat) (s : State) (kh : Kept kq s) : Kept kq (State.baypEnable b s) := by
  unfold State.baypEnable
  try dsimp only
  repeat' first
    | with_reducible assumption
    | with_reducible apply onPwr_kept
    | with_reducible apply setF_kept
    | intro _
    | split
    | dsimp only

theorem execNonOwnerSenseChange_kept {kq : List Instr} {ko : State} (bay : Nat) (sample : PwrSample) (s : State) (kh : Kept kq s) (ke : execNonOwnerSenseChange bay sample s = .next ko) : Kept kq ko := by
  unfold execNonOwnerSenseChange at ke
  refine next_kept ?_ ke
  try dsimp only
  repeat' first
    | with_reducible assumption
    | with_reducible apply emit_kept
    | with_reducible apply onPwr_kept
    | with_reducible apply setCh_kept
    | with_reducible apply sense_kept
    | with_reducible apply pgFall_kept
    | with_reducible apply pgRise_kept
    | intro _
    | split
    | dsimp only

theorem baysYield_kept {kq : List Instr} (s : State) (kh : Kept kq s) : Kept kq (State.baysYield s) := by
  unfold State.baysYield
  try dsimp only
  repeat' first
    | with_reducible assumption
    | with_reducible apply emit_kept
    | with_reducible apply onPwr_kept
    | with_reducible apply setF_kept
    | with_reducible apply setCh_kept
    | with_reducible apply foldl_kept
    | intro _
    | split
    | dsimp only

theorem baysAdopt_kept {kq : List Instr} (s : State) (kh : Kept kq s) : Kept kq (State.baysAdopt s) := by
  unfold State.baysAdopt
  try dsimp only
  repeat' first
    | with_reducible assumption
    | with_reducible apply count_kept
    | with_reducible apply onPwr_kept
    | with_reducible apply setF_kept
    | with_reducible apply setCh_kept
    | with_reducible apply foldl_kept
    | intro _
    | split
    | dsimp only

end Sys2Proof.Machine
end

