-- ==== Sys2Proof/Laws/Kept/CellExec.lean ====
section
/-!
SUPPORT. What the operations of Machine/CellExec.lean keep.
-/
namespace Sys2Proof.Machine
open Sys2Proof

theorem reissueTag_kept {kq : List Instr} (b tag : Nat) (s : State) (kh : Kept kq s) : Kept kq (State.reissueTag b tag s) := by
  unfold State.reissueTag
  try dsimp only
  repeat' first
    | with_reducible assumption
    | with_reducible apply when_kept
    | with_reducible apply onBay_kept
    | with_reducible apply drvSubmit_kept
    | with_reducible apply onSeg_kept
    | with_reducible apply slotDrive_kept
    | intro _
    | split
    | dsimp only

theorem reissueRead_kept {kq : List Instr} (j i : Nat) (s : State) (kh : Kept kq s) : Kept kq (State.reissueRead j i s) := by
  unfold State.reissueRead
  try dsimp only
  repeat' first
    | with_reducible assumption
    | with_reducible apply count_kept
    | with_reducible apply drvSubmit_kept
    | with_reducible apply onSeg_kept
    | with_reducible apply setReadJob_kept
    | with_reducible apply slotDrive_kept
    | with_reducible apply reissueTag_kept
    | intro _
    | split
    | dsimp only

theorem reissueBg_kept {kq : List Instr} (e p w i : Nat) (s : State) (kh : Kept kq s) : Kept kq (State.reissueBg e p w i s) := by
  unfold State.reissueBg
  try dsimp only
  repeat' first
    | with_reducible assumption
    | with_reducible apply count_kept
    | with_reducible apply reissueTag_kept
    | intro _
    | split
    | (refine bgAgain_keptE ?_ (by with_reducible assumption))
    | dsimp only

theorem jrnlCells_kept2 {kq : List Instr} (n bytes : Nat) (s : State) (kh : Kept kq s) : Kept kq (State.jrnlCells n bytes s).2 := by
  unfold State.jrnlCells
  try dsimp only
  repeat' first
    | with_reducible assumption
    | with_reducible apply hasCells_kept2
    | intro _
    | split
    | (refine hasCells_keptE ?_ (by with_reducible assumption))
    | dsimp only
theorem jrnlCells_keptE {kq : List Instr} {ko : State} {x0 : Bool} {n bytes : Nat} {s : State} (kh : Kept kq s) (ke : State.jrnlCells n bytes s = (x0,ko)) : Kept kq ko := by
  have kt := jrnlCells_kept2 n bytes s kh
  rw [ke] at kt
  exact kt

theorem unitLost_kept {kq : List Instr} (s : State) (k : UnitKind) (kh : Kept kq s) : Kept kq (State.unitLost s k) := by
  unfold State.unitLost
  try dsimp only
  repeat' first
    | with_reducible assumption
    | with_reducible apply count_kept
    | with_reducible apply rxPacket_kept
    | with_reducible apply evictRx_kept
    | with_reducible apply bgRead_kept2
    | with_reducible apply reissueTag_kept
    | with_reducible apply reissueRead_kept
    | with_reducible apply reissueBg_kept
    | with_reducible apply jrnlCells_kept2
    | intro _
    | split
    | (refine bgRead_keptE ?_ (by with_reducible assumption))
    | (refine jrnlCells_keptE ?_ (by with_reducible assumption))
    | dsimp only

theorem custody_kept {kq : List Instr} (s : State) (unit : Nat) (kh : Kept kq s) : Kept kq (State.custody s unit) := by
  unfold State.custody
  try dsimp only
  repeat' first
    | with_reducible assumption
    | with_reducible apply pinUnit_kept
    | with_reducible apply onRx_kept
    | with_reducible apply releaseReplies_kept
    | with_reducible apply foldl_kept
    | intro _
    | split
    | dsimp only

theorem xtsHop_kept {kq : List Instr} (u out : Nat) (x : UnitSt) (s : State) (kh : Kept kq s) : Kept kq (State.xtsHop u out x s) := by
  unfold State.xtsHop
  try dsimp only
  repeat' first
    | with_reducible assumption
    | with_reducible apply dropUnit_kept
    | with_reducible apply allocRequest_keptA
    | intro _
    | split
    | dsimp only

theorem responseLeft_kept {kq : List Instr} (i psn : Nat) (s : State) (kh : Kept kq s) : Kept kq (State.responseLeft i psn s) := by
  unfold State.responseLeft
  try dsimp only
  repeat' first
    | with_reducible assumption
    | with_reducible apply onTmgr_kept
    | with_reducible apply endKey_kept
    | intro _
    | split
    | dsimp only

theorem arrived_kept {kq : List Instr} (s : State) (u : Nat) (kh : Kept kq s) : Kept kq (State.arrived s u) := by
  unfold State.arrived
  try dsimp only
  repeat' first
    | with_reducible assumption
    | with_reducible apply when_kept
    | with_reducible apply dropUnit_kept
    | with_reducible apply rxPacket_kept
    | with_reducible apply custody_kept
    | with_reducible apply xtsHop_kept
    | with_reducible apply responseLeft_kept
    | intro _
    | split
    | dsimp only

theorem execVatCellTime_kept {kq : List Instr} {ko : State} (s : State) (kh : Kept kq s) (ke : execVatCellTime s = .next ko) : Kept kq ko := by
  unfold execVatCellTime at ke
  refine next_kept ?_ ke
  try dsimp only
  repeat' first
    | with_reducible assumption
    | with_reducible apply vatCellTime_kept2
    | with_reducible apply settleSeal_kept
    | with_reducible apply arrived_kept
    | with_reducible apply foldl_kept
    | intro _
    | split
    | (refine vatCellTime_keptE ?_ (by with_reducible assumption))
    | dsimp only

theorem execUnitEnqueue_kept {kq : List Instr} {ko : State} (input : Nat) (outs : List Nat) (cls first : Nat) (s : State) (kh : Kept kq s) (ke : execUnitEnqueue input outs cls first s = .next ko) : Kept kq ko := by
  unfold execUnitEnqueue at ke
  refine next_kept ?_ ke
  try dsimp only
  repeat' first
    | with_reducible assumption
    | with_reducible apply enqueueUnit_kept
    | intro _
    | split
    | dsimp only

theorem execCellAllocRequest_kept {kq : List Instr} {ko : State} (port cls cells : Nat) (kind : UnitKind) (network : Option (Nat × Nat)) (evictable : Bool) (s : State) (kh : Kept kq s) (ke : execCellAllocRequest port cls cells kind network evictable s = .next ko) : Kept kq ko := by
  unfold execCellAllocRequest at ke
  refine next_kept ?_ ke
  try dsimp only
  repeat' first
    | with_reducible assumption
    | with_reducible apply unitLost_kept
    | with_reducible apply allocRequest_keptA
    | with_reducible apply foldl_kept
    | intro _
    | split
    | dsimp only

theorem retryAlloc_kept {kq : List Instr} (s : State) (r : AllocReq) (kh : Kept kq s) : Kept kq (State.retryAlloc s r) := by
  unfold State.retryAlloc
  try dsimp only
  repeat' first
    | with_reducible assumption
    | with_reducible apply onCell_kept
    | with_reducible apply unitLost_kept
    | with_reducible apply allocRequest_keptA
    | with_reducible apply foldl_kept
    | intro _
    | split
    | dsimp only

theorem execCellAllocRetry_kept {kq : List Instr} {ko : State} (s : State) (kh : Kept kq s) (ke : execCellAllocRetry s = .next ko) : Kept kq ko := by
  unfold execCellAllocRetry at ke
  refine next_kept ?_ ke
  try dsimp only
  repeat' first
    | with_reducible assumption
    | with_reducible apply retryAlloc_kept
    | with_reducible apply foldl_kept
    | intro _
    | split
    | dsimp only

theorem execCellFree_kept {kq : List Instr} {ko : State} (ptr owner port : Nat) (s : State) (kh : Kept kq s) (ke : execCellFree ptr owner port s = .next ko) : Kept kq ko := by
  unfold execCellFree at ke
  refine next_kept ?_ ke
  try dsimp only
  repeat' first
    | with_reducible assumption
    | with_reducible apply freeCell_kept
    | intro _
    | split
    | dsimp only

theorem cellUe_kept {kq : List Instr} (c : Nat) (s : State) (kh : Kept kq s) : Kept kq (State.cellUe c s) := by
  unfold State.cellUe
  try dsimp only
  repeat' first
    | with_reducible assumption
    | with_reducible apply occur_kept
    | with_reducible apply onCell_kept
    | with_reducible apply evictUnit_kept2
    | with_reducible apply setSlot_kept
    | with_reducible apply commitSlot_kept
    | with_reducible apply fetched_kept
    | with_reducible apply dropPieces_kept
    | with_reducible apply releaseRecs_kept
    | with_reducible apply writeData_kept2
    | with_reducible apply unitLost_kept
    | intro _
    | split
    | (refine evictUnit_keptE ?_ (by with_reducible assumption))
    | (refine writeData_keptE ?_ (by with_reducible assumption))
    | dsimp only

theorem execCellSramError_kept {kq : List Instr} {ko : State} (cell : Nat) (ue : Bool) (s : State) (kh : Kept kq s) (ke : execCellSramError cell ue s = .next ko) : Kept kq ko := by
  unfold execCellSramError at ke
  refine next_kept ?_ ke
  try dsimp only
  repeat' first
    | with_reducible assumption
    | with_reducible apply count_kept
    | with_reducible apply occur_kept
    | with_reducible apply onCell_kept
    | with_reducible apply cellUe_kept
    | intro _
    | split
    | dsimp only

theorem bankCtl_kept {kq : List Instr} (v : Nat) (s : State) (kh : Kept kq s) : Kept kq (State.bankCtl v s) := by
  unfold State.bankCtl
  try dsimp only
  repeat' first
    | with_reducible assumption
    | with_reducible apply count_kept
    | with_reducible apply occur_kept
    | with_reducible apply setF_kept
    | with_reducible apply syncCell_kept
    | intro _
    | split
    | dsimp only

theorem execCellBankRetire_kept {kq : List Instr} {ko : State} (value : BitVec 32) (s : State) (kh : Kept kq s) (ke : execCellBankRetire value s = .next ko) : Kept kq ko := by
  unfold execCellBankRetire at ke
  refine next_kept ?_ ke
  try dsimp only
  repeat' first
    | with_reducible assumption
    | with_reducible apply bankCtl_kept
    | intro _
    | split
    | dsimp only

end Sys2Proof.Machine
end

