-- ==== Sys2Proof/Laws/Kept/EpOps.lean ====
section
/-!
SUPPORT. What the operations of Machine/EpOps.lean keep.
-/
namespace Sys2Proof.Machine
open Sys2Proof

theorem onEp_kept {kq : List Instr} (g : EpSt → EpSt) (s : State) (kh : Kept kq s) : Kept kq (State.onEp g s) := by
  unfold State.onEp
  try dsimp only
  repeat' first
    | with_reducible assumption
    | with_reducible apply onFab_kept
    | intro _
    | split
    | dsimp only

theorem setMrrs_kept {kq : List Instr} (bytes : Nat) (s : State) (kh : Kept kq s) : Kept kq (State.setMrrs bytes s) := by
  unfold State.setMrrs
  try dsimp only
  repeat' first
    | with_reducible assumption
    | with_reducible apply onEp_kept
    | intro _
    | split
    | dsimp only

theorem aerLog_kept {kq : List Instr} (e : AerErr) (hdr : Nat) (s : State) (kh : Kept kq s) : Kept kq (State.aerLog e hdr s) := by
  unfold State.aerLog
  try dsimp only
  repeat' first
    | with_reducible assumption
    | with_reducible apply onEp_kept
    | intro _
    | split
    | dsimp only

theorem epService_kept {kq : List Instr} (s : State) (kh : Kept kq s) : Kept kq (State.epService s) := by
  unfold State.epService
  try dsimp only
  repeat' first
    | with_reducible assumption
    | with_reducible apply onFab_kept
    | with_reducible apply foldl_kept
    | intro _
    | split
    | dsimp only

theorem mgmtDma_kept {kq : List Instr} (addr len tag : Nat) (s : State) (kh : Kept kq s) : Kept kq (State.mgmtDma addr len tag s) := by
  unfold State.mgmtDma
  try dsimp only
  repeat' first
    | with_reducible assumption
    | with_reducible apply emit_kept
    | with_reducible apply onEp_kept
    | with_reducible apply foldl_kept
    | intro _
    | split
    | dsimp only

theorem mboxKick_kept {kq : List Instr} (s : State) (kh : Kept kq s) : Kept kq (State.mboxKick s) := by
  unfold State.mboxKick
  try dsimp only
  repeat' first
    | with_reducible assumption
    | with_reducible apply onEp_kept
    | with_reducible apply mgmtDma_kept
    | intro _
    | split
    | dsimp only

theorem mboxEnd_kept {kq : List Instr} (status bytes : Nat) (s : State) (kh : Kept kq s) : Kept kq (State.mboxEnd status bytes s) := by
  unfold State.mboxEnd
  try dsimp only
  repeat' first
    | with_reducible assumption
    | with_reducible apply count_kept
    | with_reducible apply when_kept
    | with_reducible apply onEp_kept
    | intro _
    | split
    | dsimp only

theorem mboxBegin_kept {kq : List Instr} (s : State) (kh : Kept kq s) : Kept kq (State.mboxBegin s) := by
  unfold State.mboxBegin
  try dsimp only
  repeat' first
    | with_reducible assumption
    | with_reducible apply onEp_kept
    | with_reducible apply mgmtDma_kept
    | with_reducible apply mboxEnd_kept
    | intro _
    | split
    | dsimp only

theorem mboxArrive_kept {kq : List Instr} (r : MboxReq) (s : State) (kh : Kept kq s) : Kept kq (State.mboxArrive r s) := by
  unfold State.mboxArrive
  try dsimp only
  repeat' first
    | with_reducible assumption
    | with_reducible apply count_kept
    | with_reducible apply occur_kept
    | with_reducible apply satAdd_kept
    | with_reducible apply setF_kept
    | with_reducible apply onEp_kept
    | with_reducible apply mboxEnd_kept
    | with_reducible apply mboxBegin_kept
    | intro _
    | split
    | dsimp only

theorem mboxData_kept {kq : List Instr} (data : Blob) (s : State) (kh : Kept kq s) : Kept kq (State.mboxData data s) := by
  unfold State.mboxData
  try dsimp only
  repeat' first
    | with_reducible assumption
    | with_reducible apply emit_kept
    | with_reducible apply onEp_kept
    | with_reducible apply mboxEnd_kept
    | intro _
    | split
    | dsimp only

theorem mboxFinish_kept {kq : List Instr} (m : MboxRun) (s : State) (kh : Kept kq s) : Kept kq (State.mboxFinish m s) := by
  unfold State.mboxFinish
  try dsimp only
  repeat' first
    | with_reducible assumption
    | with_reducible apply emit_kept
    | with_reducible apply onFab_kept
    | with_reducible apply setF_kept
    | with_reducible apply onEp_kept
    | with_reducible apply mboxKick_kept
    | intro _
    | split
    | dsimp only

theorem mboxComplete_kept {kq : List Instr} (s : State) (kh : Kept kq s) : Kept kq (State.mboxComplete s) := by
  unfold State.mboxComplete
  try dsimp only
  repeat' first
    | with_reducible assumption
    | with_reducible apply onEp_kept
    | with_reducible apply mboxKick_kept
    | with_reducible apply mboxFinish_kept
    | intro _
    | split
    | dsimp only

theorem epResume_kept {kq : List Instr} (s : State) (kh : Kept kq s) : Kept kq (State.epResume s) := by
  unfold State.epResume
  try dsimp only
  repeat' first
    | with_reducible assumption
    | with_reducible apply when_kept
    | with_reducible apply epService_kept
    | with_reducible apply mboxKick_kept
    | with_reducible apply mboxComplete_kept
    | intro _
    | split
    | dsimp only

theorem epReset_kept {kq : List Instr} (fundamental : Bool) (s : State) (kh : Kept kq s) : Kept kq (State.epReset fundamental s) := by
  unfold State.epReset
  try dsimp only
  repeat' first
    | with_reducible assumption
    | with_reducible apply onFab_kept
    | with_reducible apply setF_kept
    | with_reducible apply onEp_kept
    | intro _
    | split
    | dsimp only

end Sys2Proof.Machine
end

