-- ==== Sys2Proof/Laws/Kept/CmdqExec.lean ====
section
/-!
SUPPORT. What the operations of Machine/CmdqExec.lean keep.
-/
namespace Sys2Proof.Machine
open Sys2Proof

theorem markWaits_kept {kq : List Instr} (s : State) (kh : Kept kq s) : Kept kq (State.markWaits s) := by
  unfold State.markWaits
  try dsimp only
  repeat' first
    | with_reducible assumption
    | with_reducible apply count_kept
    | with_reducible apply setQueue_kept
    | with_reducible apply foldl_kept
    | intro _
    | split
    | dsimp only

theorem execCapsuleRx_kept {kq : List Instr} {ko : State} (ctx : Nat) (s : State) (kh : Kept kq s) (ke : execCapsuleRx ctx s = .next ko) : Kept kq ko := by
  unfold execCapsuleRx at ke
  refine next_kept ?_ ke
  try dsimp only
  repeat' first
    | with_reducible assumption
    | with_reducible apply count_kept
    | with_reducible apply occur_kept
    | with_reducible apply onRx_kept
    | with_reducible apply setQueue_kept
    | with_reducible apply syncCmdq_kept
    | with_reducible apply closeConn_kept
    | with_reducible apply markWaits_kept
    | intro _
    | split
    | dsimp only

theorem takeSlot_kept2 {kq : List Instr} (i : Nat) (reserve : Bool) (s : State) (kh : Kept kq s) : Kept kq (State.takeSlot i reserve s).2 := by
  unfold State.takeSlot
  try dsimp only
  repeat' first
    | with_reducible assumption
    | with_reducible apply count_kept
    | with_reducible apply occur_kept
    | with_reducible apply onCmdq_kept
    | with_reducible apply when_kept
    | with_reducible apply mirrorIf_kept
    | with_reducible apply setSlot_kept
    | with_reducible apply setQueue_kept
    | with_reducible apply syncCmdq_kept
    | with_reducible apply markWaits_kept
    | intro _
    | split
    | dsimp only
theorem takeSlot_keptE {kq : List Instr} {ko : State} {x0 : Nat} {i : Nat} {reserve : Bool} {s : State} (kh : Kept kq s) (ke : State.takeSlot i reserve s = (x0,ko)) : Kept kq ko := by
  have kt := takeSlot_kept2 i reserve s kh
  rw [ke] at kt
  exact kt

theorem ioChecks_keptA {kq : List Instr} (x : Slot) (s : State) (kh : Kept kq s) : Kept kq (State.ioChecks x s).after := by
  unfold State.ioChecks
  dsimp only
  repeat' first
    | with_reducible assumption
    | with_reducible apply count_kept
    | with_reducible apply onCmdq_kept
    | split
    | dsimp only

theorem beginIo_kept {kq : List Instr} (n : Nat) (x : Slot) (s0 : State) (kh : Kept kq s0) : Kept kq (State.beginIo n x s0) := by
  unfold State.beginIo
  try dsimp only
  repeat' first
    | with_reducible assumption
    | with_reducible apply count_kept
    | with_reducible apply setSlot_kept
    | with_reducible apply commitSlot_kept
    | with_reducible apply policeCmd_kept
    | with_reducible apply ioChecks_keptA
    | intro _
    | split
    | dsimp only

theorem beginCmd_kept {kq : List Instr} (n : Nat) (s : State) (kh : Kept kq s) : Kept kq (State.beginCmd n s) := by
  unfold State.beginCmd
  try dsimp only
  repeat' first
    | with_reducible assumption
    | with_reducible apply count_kept
    | with_reducible apply onCmdq_kept
    | with_reducible apply satAdd_kept
    | with_reducible apply when_kept
    | with_reducible apply setSlot_kept
    | with_reducible apply commitSlot_kept
    | with_reducible apply beginIo_kept
    | intro _
    | split
    | dsimp only

theorem execSlotAssign_kept {kq : List Instr} {ko : State} (s : State) (kh : Kept kq s) (ke : execSlotAssign s = .next ko) : Kept kq ko := by
  unfold execSlotAssign at ke
  refine next_kept ?_ ke
  try dsimp only
  repeat' first
    | with_reducible assumption
    | with_reducible apply takeSlot_kept2
    | with_reducible apply beginCmd_kept
    | intro _
    | split
    | (refine takeSlot_keptE ?_ (by with_reducible assumption))
    | dsimp only

theorem fetchHost_kept {kq : List Instr} (n len : Nat) (x : Slot) (s : State) (kh : Kept kq s) : Kept kq (State.fetchHost n len x s) := by
  unfold State.fetchHost
  try dsimp only
  repeat' first
    | with_reducible assumption
    | with_reducible apply submit_kept
    | with_reducible apply setSlot_kept
    | intro _
    | split
    | dsimp only

theorem writeWork_kept {kq : List Instr} (n : Nat) (x : Slot) (s : State) (kh : Kept kq s) : Kept kq (State.writeWork n x s) := by
  unfold State.writeWork
  try dsimp only
  repeat' first
    | with_reducible assumption
    | with_reducible apply fetched_kept
    | with_reducible apply fetchHost_kept
    | intro _
    | split
    | dsimp only

theorem openZero_kept {kq : List Instr} (n type : Nat) (x : Slot) (ext : List (Nat × Nat)) (s : State) (kh : Kept kq s) : Kept kq (State.openZero n type x ext s) := by
  unfold State.openZero
  try dsimp only
  repeat' first
    | with_reducible assumption
    | with_reducible apply setSlot_kept
    | with_reducible apply openRec_kept
    | with_reducible apply foldl_kept
    | intro _
    | split
    | dsimp only

theorem zeroWork_kept {kq : List Instr} (n : Nat) (x : Slot) (s : State) (kh : Kept kq s) : Kept kq (State.zeroWork n x s) := by
  unfold State.zeroWork
  try dsimp only
  repeat' first
    | with_reducible assumption
    | with_reducible apply openZero_kept
    | intro _
    | split
    | dsimp only

theorem dsmWork_kept {kq : List Instr} (n : Nat) (x : Slot) (s : State) (kh : Kept kq s) : Kept kq (State.dsmWork n x s) := by
  unfold State.dsmWork
  try dsimp only
  repeat' first
    | with_reducible assumption
    | with_reducible apply setSlot_kept
    | with_reducible apply fetched_kept
    | with_reducible apply fetchHost_kept
    | with_reducible apply openZero_kept
    | intro _
    | split
    | dsimp only

theorem readUnit_kept {kq : List Instr} (n : Nat) (s : State) (lun : Nat) (kh : Kept kq s) : Kept kq (State.readUnit n s lun) := by
  unfold State.readUnit
  try dsimp only
  repeat' first
    | with_reducible assumption
    | with_reducible apply count_kept
    | with_reducible apply onSlot_kept
    | with_reducible apply setOutcome_kept
    | with_reducible apply lookupPage_kept2
    | with_reducible apply newRead_kept2
    | with_reducible apply fillSlot_kept
    | with_reducible apply loseRead_kept
    | with_reducible apply optKept_getD
    | with_reducible apply askParts_keptO
    | intro _
    | split
    | (refine lookupPage_keptE ?_ (by with_reducible assumption))
    | (refine askParts_keptE ?_ (by with_reducible assumption))
    | (refine newRead_keptE ?_ (by with_reducible assumption))
    | dsimp only

theorem readBegin_kept {kq : List Instr} (n : Nat) (x : Slot) (s : State) (kh : Kept kq s) : Kept kq (State.readBegin n x s) := by
  unfold State.readBegin
  try dsimp only
  repeat' first
    | with_reducible assumption
    | with_reducible apply count_kept
    | with_reducible apply when_kept
    | with_reducible apply onSlot_kept
    | with_reducible apply dropRefs_kept
    | with_reducible apply setRec_kept
    | with_reducible apply releaseRecs_kept
    | with_reducible apply jrnlCells_kept2
    | with_reducible apply foldl_kept
    | intro _
    | split
    | (refine jrnlCells_keptE ?_ (by with_reducible assumption))
    | dsimp only

theorem readWork_kept {kq : List Instr} (n : Nat) (x : Slot) (s : State) (kh : Kept kq s) : Kept kq (State.readWork n x s) := by
  unfold State.readWork
  try dsimp only
  repeat' first
    | with_reducible assumption
    | with_reducible apply readReady_kept
    | with_reducible apply readUnit_kept
    | with_reducible apply readBegin_kept
    | with_reducible apply foldl_kept
    | intro _
    | split
    | dsimp only

theorem startWork_kept {kq : List Instr} (n : Nat) (s : State) (kh : Kept kq s) : Kept kq (State.startWork n s) := by
  unfold State.startWork
  try dsimp only
  repeat' first
    | with_reducible assumption
    | with_reducible apply writeWork_kept
    | with_reducible apply zeroWork_kept
    | with_reducible apply dsmWork_kept
    | with_reducible apply readWork_kept
    | intro _
    | split
    | dsimp only

theorem execCmdAdmit_kept {kq : List Instr} {ko : State} (slot : Nat) (s : State) (kh : Kept kq s) (ke : execCmdAdmit slot s = .next ko) : Kept kq ko := by
  unfold execCmdAdmit at ke
  refine next_kept ?_ ke
  try dsimp only
  repeat' first
    | with_reducible assumption
    | with_reducible apply onTmgr_kept
    | with_reducible apply setSlot_kept
    | with_reducible apply fetched_kept
    | with_reducible apply startWork_kept
    | intro _
    | split
    | dsimp only

theorem execFlush_kept {kq : List Instr} {ko : State} (slot : Nat) (s : State) (kh : Kept kq s) (ke : execFlush slot s = .next ko) : Kept kq ko := by
  unfold execFlush at ke
  refine next_kept ?_ ke
  try dsimp only
  repeat' first
    | with_reducible assumption
    | with_reducible apply setOutcome_kept
    | intro _
    | split
    | dsimp only

theorem execWrite_kept {kq : List Instr} {ko : State} (slot : Nat) (s : State) (kh : Kept kq s) (ke : execWrite slot s = .next ko) : Kept kq ko := by
  unfold execWrite at ke
  refine next_kept ?_ ke
  try dsimp only
  repeat' first
    | with_reducible assumption
    | with_reducible apply writeWork_kept
    | intro _
    | split
    | dsimp only

theorem execRead_kept {kq : List Instr} {ko : State} (slot : Nat) (s : State) (kh : Kept kq s) (ke : execRead slot s = .next ko) : Kept kq ko := by
  unfold execRead at ke
  refine next_kept ?_ ke
  try dsimp only
  repeat' first
    | with_reducible assumption
    | with_reducible apply readWork_kept
    | intro _
    | split
    | dsimp only

theorem execWriteZeroes_kept {kq : List Instr} {ko : State} (slot : Nat) (s : State) (kh : Kept kq s) (ke : execWriteZeroes slot s = .next ko) : Kept kq ko := by
  unfold execWriteZeroes at ke
  refine next_kept ?_ ke
  try dsimp only
  repeat' first
    | with_reducible assumption
    | with_reducible apply zeroWork_kept
    | intro _
    | split
    | dsimp only

theorem execDatasetManagement_kept {kq : List Instr} {ko : State} (slot : Nat) (s : State) (kh : Kept kq s) (ke : execDatasetManagement slot s = .next ko) : Kept kq ko := by
  unfold execDatasetManagement at ke
  refine next_kept ?_ ke
  try dsimp only
  repeat' first
    | with_reducible assumption
    | with_reducible apply dsmWork_kept
    | intro _
    | split
    | dsimp only

theorem dropReadCells_kept {kq : List Instr} (n : Nat) (s : State) (kh : Kept kq s) : Kept kq (State.dropReadCells n s) := by
  unfold State.dropReadCells
  try dsimp only
  repeat' first
    | with_reducible assumption
    | with_reducible apply dropKind_kept
    | intro _
    | split
    | dsimp only

theorem commitWork_kept {kq : List Instr} (n : Nat) (s : State) (kh : Kept kq s) : Kept kq (State.commitWork n s) := by
  unfold State.commitWork
  try dsimp only
  repeat' first
    | with_reducible assumption
    | with_reducible apply pinUnit_kept
    | with_reducible apply commitSlot_kept
    | with_reducible apply releaseRecs_kept
    | with_reducible apply dropReadCells_kept
    | with_reducible apply foldl_kept
    | intro _
    | split
    | dsimp only

theorem execCmdCommit_kept {kq : List Instr} {ko : State} (slot : Nat) (s : State) (kh : Kept kq s) (ke : execCmdCommit slot s = .next ko) : Kept kq ko := by
  unfold execCmdCommit at ke
  refine next_kept ?_ ke
  try dsimp only
  repeat' first
    | with_reducible assumption
    | with_reducible apply settleResets_kept
    | with_reducible apply commitWork_kept
    | intro _
    | split
    | dsimp only

theorem execResponseAcked_kept {kq : List Instr} {ko : State} (slot : Nat) (s : State) (kh : Kept kq s) (ke : execResponseAcked slot s = .next ko) : Kept kq ko := by
  unfold execResponseAcked at ke
  refine next_kept ?_ ke
  try dsimp only
  repeat' first
    | with_reducible assumption
    | with_reducible apply onXprt_kept
    | with_reducible apply setSlot_kept
    | with_reducible apply freeSlot_kept
    | with_reducible apply settleResets_kept
    | intro _
    | split
    | dsimp only

theorem execKatoExpiry_kept {kq : List Instr} {ko : State} (ctrl : Nat) (s : State) (kh : Kept kq s) (ke : execKatoExpiry ctrl s = .next ko) : Kept kq ko := by
  unfold execKatoExpiry at ke
  refine next_kept ?_ ke
  try dsimp only
  repeat' first
    | with_reducible assumption
    | with_reducible apply count_kept
    | with_reducible apply occur_kept
    | with_reducible apply resetCtrl_kept
    | intro _
    | split
    | dsimp only

theorem postAll_kept {kq : List Instr} (s : State) (k : Nat) (kh : Kept kq s) : Kept kq (State.postAll s k) := by
  unfold State.postAll
  try dsimp only
  repeat' first
    | with_reducible assumption
    | with_reducible apply postEvents_kept
    | with_reducible apply foldl_kept
    | intro _
    | split
    | dsimp only

theorem holdEnd_kept {kq : List Instr} (s : State) (kh : Kept kq s) : Kept kq (State.holdEnd s) := by
  unfold State.holdEnd
  try dsimp only
  repeat' first
    | with_reducible assumption
    | with_reducible apply onCmdq_kept
    | with_reducible apply setF_kept
    | with_reducible apply onSlot_kept
    | with_reducible apply mboxBegin_kept
    | with_reducible apply beginCmd_kept
    | with_reducible apply postAll_kept
    | with_reducible apply foldl_kept
    | intro _
    | split
    | dsimp only

theorem execFwHoldEnd_kept {kq : List Instr} {ko : State} (s : State) (kh : Kept kq s) (ke : execFwHoldEnd s = .next ko) : Kept kq ko := by
  unfold execFwHoldEnd at ke
  refine next_kept ?_ ke
  try dsimp only
  repeat' first
    | with_reducible assumption
    | with_reducible apply holdEnd_kept
    | intro _
    | split
    | dsimp only

theorem execFwHoldTimeout_kept {kq : List Instr} {ko : State} (s : State) (kh : Kept kq s) (ke : execFwHoldTimeout s = .next ko) : Kept kq ko := by
  unfold execFwHoldTimeout at ke
  refine next_kept ?_ ke
  try dsimp only
  repeat' first
    | with_reducible assumption
    | with_reducible apply occur_kept
    | with_reducible apply holdEnd_kept
    | intro _
    | split
    | dsimp only

end Sys2Proof.Machine
end

