-- ==== Sys2Proof/Laws/Kept/CmdqAdmin.lean ====
section
/-!
SUPPORT. What the operations of Machine/CmdqAdmin.lean keep.
-/
namespace Sys2Proof.Machine
open Sys2Proof

theorem answer_kept {kq : List Instr} (n dw0 : Nat) (s : State) (kh : Kept kq s) : Kept kq (State.answer n dw0 s) := by
  unfold State.answer
  try dsimp only
  repeat' first
    | with_reducible assumption
    | with_reducible apply setOutcome_kept
    | intro _
    | split
    | dsimp only

theorem refuseCmd_kept {kq : List Instr} (n sct sc : Nat) (dw0 : Nat := 0) (s : State) (kh : Kept kq s) : Kept kq (State.refuseCmd n sct sc dw0 s) := by
  unfold State.refuseCmd
  try dsimp only
  repeat' first
    | with_reducible assumption
    | with_reducible apply setOutcome_kept
    | intro _
    | split
    | dsimp only

theorem answerData_kept {kq : List Instr} (n : Nat) (x : Slot) (d : Blob) (s : State) (kh : Kept kq s) : Kept kq (State.answerData n x d s) := by
  unfold State.answerData
  try dsimp only
  repeat' first
    | with_reducible assumption
    | with_reducible apply onSlot_kept
    | with_reducible apply setOutcome_kept
    | with_reducible apply refuseCmd_kept
    | intro _
    | split
    | dsimp only

theorem joinCtrl_kept {kq : List Instr} (n : Nat) (x : Slot) (q : Queue) (c : ConnectCmd) (cntlid : Nat) (s : State) (kh : Kept kq s) : Kept kq (State.joinCtrl n x q c cntlid s) := by
  unfold State.joinCtrl
  try dsimp only
  repeat' first
    | with_reducible assumption
    | with_reducible apply onSlot_kept
    | with_reducible apply setQueue_kept
    | with_reducible apply answer_kept
    | intro _
    | split
    | dsimp only

theorem connectAdmin_kept {kq : List Instr} (n : Nat) (x : Slot) (q : Queue) (c : ConnectCmd) (s : State) (kh : Kept kq s) : Kept kq (State.connectAdmin n x q c s) := by
  unfold State.connectAdmin
  try dsimp only
  repeat' first
    | with_reducible assumption
    | with_reducible apply setCtrl_kept
    | with_reducible apply setOutcome_kept
    | with_reducible apply refuseCmd_kept
    | with_reducible apply joinCtrl_kept
    | intro _
    | split
    | dsimp only

theorem connectIo_kept {kq : List Instr} (n : Nat) (x : Slot) (q : Queue) (c : ConnectCmd) (s : State) (kh : Kept kq s) : Kept kq (State.connectIo n x q c s) := by
  unfold State.connectIo
  try dsimp only
  repeat' first
    | with_reducible assumption
    | with_reducible apply setOutcome_kept
    | with_reducible apply refuseCmd_kept
    | with_reducible apply joinCtrl_kept
    | intro _
    | split
    | dsimp only

theorem connectWork_kept {kq : List Instr} (n : Nat) (x : Slot) (q : Queue) (c : ConnectCmd) (s : State) (kh : Kept kq s) : Kept kq (State.connectWork n x q c s) := by
  unfold State.connectWork
  try dsimp only
  repeat' first
    | with_reducible assumption
    | with_reducible apply setOutcome_kept
    | with_reducible apply refuseCmd_kept
    | with_reducible apply connectAdmin_kept
    | with_reducible apply connectIo_kept
    | intro _
    | split
    | dsimp only

theorem execConnect_kept {kq : List Instr} {ko : State} (slot : Nat) (s : State) (kh : Kept kq s) (ke : execConnect slot s = .next ko) : Kept kq ko := by
  unfold execConnect at ke
  refine next_kept ?_ ke
  try dsimp only
  repeat' first
    | with_reducible assumption
    | with_reducible apply fetchHost_kept
    | with_reducible apply refuseCmd_kept
    | with_reducible apply connectWork_kept
    | intro _
    | split
    | dsimp only

theorem execPropertyGet_kept {kq : List Instr} {ko : State} (slot : Nat) (s : State) (kh : Kept kq s) (ke : execPropertyGet slot s = .next ko) : Kept kq ko := by
  unfold execPropertyGet at ke
  refine next_kept ?_ ke
  try dsimp only
  repeat' first
    | with_reducible assumption
    | with_reducible apply setOutcome_kept
    | with_reducible apply answer_kept
    | with_reducible apply refuseCmd_kept
    | intro _
    | split
    | dsimp only

theorem writeCc_kept {kq : List Instr} (n k : Nat) (c : Ctrl) (v : Nat) (s : State) (kh : Kept kq s) : Kept kq (State.writeCc n k c v s) := by
  unfold State.writeCc
  try dsimp only
  repeat' first
    | with_reducible assumption
    | with_reducible apply setCtrl_kept
    | with_reducible apply resetCtrl_kept
    | with_reducible apply answer_kept
    | intro _
    | split
    | dsimp only

theorem execPropertySet_kept {kq : List Instr} {ko : State} (slot : Nat) (s : State) (kh : Kept kq s) (ke : execPropertySet slot s = .next ko) : Kept kq ko := by
  unfold execPropertySet at ke
  refine next_kept ?_ ke
  try dsimp only
  repeat' first
    | with_reducible assumption
    | with_reducible apply refuseCmd_kept
    | with_reducible apply writeCc_kept
    | intro _
    | split
    | dsimp only

theorem authFail_kept {kq : List Instr} (i : Nat) (q : Queue) (msg : Nat) (s : State) (kh : Kept kq s) : Kept kq (State.authFail i q msg s) := by
  unfold State.authFail
  try dsimp only
  repeat' first
    | with_reducible assumption
    | with_reducible apply count_kept
    | with_reducible apply occur_kept
    | with_reducible apply setQueue_kept
    | intro _
    | split
    | dsimp only

theorem authOk_kept {kq : List Instr} (i : Nat) (q : Queue) (s : State) (kh : Kept kq s) : Kept kq (State.authOk i q s) := by
  unfold State.authOk
  try dsimp only
  repeat' first
    | with_reducible assumption
    | with_reducible apply count_kept
    | with_reducible apply setQueue_kept
    | intro _
    | split
    | dsimp only

theorem authMessage_kept {kq : List Instr} (i : Nat) (q : Queue) (nonce : Nat) (d : Blob) (s : State) (kh : Kept kq s) : Kept kq (State.authMessage i q nonce d s) := by
  unfold State.authMessage
  try dsimp only
  repeat' first
    | with_reducible assumption
    | with_reducible apply count_kept
    | with_reducible apply occur_kept
    | with_reducible apply setQueue_kept
    | with_reducible apply authFail_kept
    | with_reducible apply authOk_kept
    | intro _
    | split
    | dsimp only

theorem execAuthenticationSend_kept {kq : List Instr} {ko : State} (slot nonce : Nat) (s : State) (kh : Kept kq s) (ke : execAuthenticationSend slot nonce s = .next ko) : Kept kq ko := by
  unfold execAuthenticationSend at ke
  refine next_kept ?_ ke
  try dsimp only
  repeat' first
    | with_reducible assumption
    | with_reducible apply fetchHost_kept
    | with_reducible apply answer_kept
    | with_reducible apply refuseCmd_kept
    | with_reducible apply authMessage_kept
    | intro _
    | split
    | dsimp only

theorem execAuthenticationReceive_kept {kq : List Instr} {ko : State} (slot : Nat) (s : State) (kh : Kept kq s) (ke : execAuthenticationReceive slot s = .next ko) : Kept kq ko := by
  unfold execAuthenticationReceive at ke
  refine next_kept ?_ ke
  try dsimp only
  repeat' first
    | with_reducible assumption
    | with_reducible apply setQueue_kept
    | with_reducible apply refuseCmd_kept
    | with_reducible apply answerData_kept
    | intro _
    | split
    | dsimp only

theorem clearCondition_kept {kq : List Instr} (k log : Nat) (s : State) (kh : Kept kq s) : Kept kq (State.clearCondition k log s) := by
  unfold State.clearCondition
  try dsimp only
  repeat' first
    | with_reducible assumption
    | with_reducible apply setCtrl_kept
    | intro _
    | split
    | dsimp only

theorem execGetLogPage_kept {kq : List Instr} {ko : State} (slot : Nat) (s : State) (kh : Kept kq s) (ke : execGetLogPage slot s = .next ko) : Kept kq ko := by
  unfold execGetLogPage at ke
  refine next_kept ?_ ke
  try dsimp only
  repeat' first
    | with_reducible assumption
    | with_reducible apply draw_kept2
    | with_reducible apply refuseCmd_kept
    | with_reducible apply answerData_kept
    | with_reducible apply clearCondition_kept
    | intro _
    | split
    | (refine draw_kept ?_ (by with_reducible assumption))
    | dsimp only

theorem execIdentify_kept {kq : List Instr} {ko : State} (slot : Nat) (s : State) (kh : Kept kq s) (ke : execIdentify slot s = .next ko) : Kept kq ko := by
  unfold execIdentify at ke
  refine next_kept ?_ ke
  try dsimp only
  repeat' first
    | with_reducible assumption
    | with_reducible apply draw_kept2
    | with_reducible apply refuseCmd_kept
    | with_reducible apply answerData_kept
    | intro _
    | split
    | (refine draw_kept ?_ (by with_reducible assumption))
    | dsimp only

theorem abortLost_kept {kq : List Instr} (n : Nat) (s : State) (kh : Kept kq s) : Kept kq (State.abortLost n s) := by
  unfold State.abortLost
  try dsimp only
  repeat' first
    | with_reducible assumption
    | with_reducible apply count_kept
    | with_reducible apply answer_kept
    | intro _
    | split
    | dsimp only

theorem abortWins_kept {kq : List Instr} (n m : Nat) (x : Slot) (s : State) (kh : Kept kq s) : Kept kq (State.abortWins n m x s) := by
  unfold State.abortWins
  try dsimp only
  repeat' first
    | with_reducible assumption
    | with_reducible apply count_kept
    | with_reducible apply when_kept
    | with_reducible apply setSlot_kept
    | with_reducible apply commitSlot_kept
    | with_reducible apply dropPieces_kept
    | with_reducible apply releaseRecs_kept
    | with_reducible apply dropReadCells_kept
    | with_reducible apply answer_kept
    | intro _
    | split
    | dsimp only

theorem abortPending_kept {kq : List Instr} (n i cid : Nat) (s : State) (kh : Kept kq s) : Kept kq (State.abortPending n i cid s) := by
  unfold State.abortPending
  try dsimp only
  repeat' first
    | with_reducible assumption
    | with_reducible apply setQueue_kept
    | with_reducible apply syncCmdq_kept
    | with_reducible apply completeCapsule_kept
    | with_reducible apply answer_kept
    | with_reducible apply abortLost_kept
    | intro _
    | split
    | dsimp only

theorem abortWork_kept {kq : List Instr} (n k : Nat) (x : Slot) (s : State) (kh : Kept kq s) : Kept kq (State.abortWork n k x s) := by
  unfold State.abortWork
  try dsimp only
  repeat' first
    | with_reducible assumption
    | with_reducible apply commitWork_kept
    | with_reducible apply refuseCmd_kept
    | with_reducible apply abortLost_kept
    | with_reducible apply abortWins_kept
    | with_reducible apply abortPending_kept
    | intro _
    | split
    | dsimp only

theorem execAbort_kept {kq : List Instr} {ko : State} (slot : Nat) (s : State) (kh : Kept kq s) (ke : execAbort slot s = .next ko) : Kept kq ko := by
  unfold execAbort at ke
  refine next_kept ?_ ke
  try dsimp only
  repeat' first
    | with_reducible assumption
    | with_reducible apply count_kept
    | with_reducible apply refuseCmd_kept
    | with_reducible apply abortWork_kept
    | intro _
    | split
    | dsimp only

theorem setFeature_kept {kq : List Instr} (n k : Nat) (c : Ctrl) (x : Slot) (s : State) (kh : Kept kq s) : Kept kq (State.setFeature n k c x s) := by
  unfold State.setFeature
  try dsimp only
  repeat' first
    | with_reducible assumption
    | with_reducible apply setCtrl_kept
    | with_reducible apply answer_kept
    | with_reducible apply refuseCmd_kept
    | intro _
    | split
    | dsimp only

theorem getFeature_kept {kq : List Instr} (n : Nat) (c : Ctrl) (x : Slot) (s : State) (kh : Kept kq s) : Kept kq (State.getFeature n c x s) := by
  unfold State.getFeature
  try dsimp only
  repeat' first
    | with_reducible assumption
    | with_reducible apply answer_kept
    | with_reducible apply refuseCmd_kept
    | intro _
    | split
    | dsimp only

theorem execSetFeatures_kept {kq : List Instr} {ko : State} (slot : Nat) (s : State) (kh : Kept kq s) (ke : execSetFeatures slot s = .next ko) : Kept kq ko := by
  unfold execSetFeatures at ke
  refine next_kept ?_ ke
  try dsimp only
  repeat' first
    | with_reducible assumption
    | with_reducible apply refuseCmd_kept
    | with_reducible apply setFeature_kept
    | intro _
    | split
    | dsimp only

theorem execGetFeatures_kept {kq : List Instr} {ko : State} (slot : Nat) (s : State) (kh : Kept kq s) (ke : execGetFeatures slot s = .next ko) : Kept kq ko := by
  unfold execGetFeatures at ke
  refine next_kept ?_ ke
  try dsimp only
  repeat' first
    | with_reducible assumption
    | with_reducible apply refuseCmd_kept
    | with_reducible apply getFeature_kept
    | intro _
    | split
    | dsimp only

theorem execAsyncEventRequest_kept {kq : List Instr} {ko : State} (slot : Nat) (s : State) (kh : Kept kq s) (ke : execAsyncEventRequest slot s = .next ko) : Kept kq ko := by
  unfold execAsyncEventRequest at ke
  refine next_kept ?_ ke
  try dsimp only
  repeat' first
    | with_reducible assumption
    | with_reducible apply onSlot_kept
    | with_reducible apply setCtrl_kept
    | with_reducible apply postEvents_kept
    | with_reducible apply refuseCmd_kept
    | intro _
    | split
    | dsimp only

theorem execKeepAlive_kept {kq : List Instr} {ko : State} (slot : Nat) (s : State) (kh : Kept kq s) (ke : execKeepAlive slot s = .next ko) : Kept kq ko := by
  unfold execKeepAlive at ke
  refine next_kept ?_ ke
  try dsimp only
  repeat' first
    | with_reducible assumption
    | with_reducible apply setCtrl_kept
    | with_reducible apply answer_kept
    | with_reducible apply refuseCmd_kept
    | intro _
    | split
    | dsimp only

end Sys2Proof.Machine
end

