-- ==== Sys2Proof/Laws/Kept/CmOps.lean ====
section
/-!
SUPPORT. What the operations of Machine/CmOps.lean keep.
-/
namespace Sys2Proof.Machine
open Sys2Proof

theorem sendRej_kept {kq : List Instr} (r : CmReq) (sport status : Nat) (s : State) (kh : Kept kq s) : Kept kq (State.sendRej r sport status s) := by
  unfold State.sendRej
  try dsimp only
  repeat' first
    | with_reducible assumption
    | with_reducible apply count_kept
    | with_reducible apply occur_kept
    | with_reducible apply when_kept
    | with_reducible apply sendCm_kept
    | intro _
    | split
    | dsimp only

theorem sendRep_kept {kq : List Instr} (i : Nat) (s : State) (kh : Kept kq s) : Kept kq (State.sendRep i s) := by
  unfold State.sendRep
  try dsimp only
  repeat' first
    | with_reducible assumption
    | with_reducible apply cmOn_kept
    | intro _
    | split
    | dsimp only

theorem installSeal_kept {kq : List Instr} (i devPriv secret : Nat) (r : CmReq) (s : State) (kh : Kept kq s) : Kept kq (State.installSeal i devPriv secret r s) := by
  unfold State.installSeal
  try dsimp only
  repeat' first
    | with_reducible assumption
    | with_reducible apply onGard_kept
    | with_reducible apply onCtxId_kept
    | with_reducible apply onSeal_kept
    | with_reducible apply setKeySlot_kept
    | intro _
    | split
    | dsimp only

theorem openConn_kept {kq : List Instr} (i devPriv sport startPsn : Nat) (r : CmReq) (s : State) (kh : Kept kq s) : Kept kq (State.openConn i devPriv sport startPsn r s) := by
  unfold State.openConn
  try dsimp only
  repeat' first
    | with_reducible assumption
    | with_reducible apply count_kept
    | with_reducible apply onXprt_kept
    | with_reducible apply when_kept
    | with_reducible apply setCtx_kept
    | with_reducible apply syncXprt_kept
    | with_reducible apply startFetch_kept
    | with_reducible apply setQueue_kept
    | with_reducible apply sendRep_kept
    | with_reducible apply installSeal_kept
    | intro _
    | split
    | dsimp only

theorem answerReq_kept {kq : List Instr} (devPriv sport pick startPsn : Nat) (s : State) (kh : Kept kq s) : Kept kq (State.answerReq devPriv sport pick startPsn s) := by
  unfold State.answerReq
  try dsimp only
  repeat' first
    | with_reducible assumption
    | with_reducible apply onXprt_kept
    | with_reducible apply sendRej_kept
    | with_reducible apply sendRep_kept
    | with_reducible apply openConn_kept
    | intro _
    | split
    | dsimp only

end Sys2Proof.Machine
end

