-- ==== Sys2Proof/Laws/Kept/RegnExec.lean ====
section
/-!
SUPPORT. What the operations of Machine/RegnExec.lean keep.
-/
namespace Sys2Proof.Machine
open Sys2Proof

theorem execRegionLocalPlaced_kept {kq : List Instr} {ko : State} (id : Nat) (ue : Bool) (s : State) (kh : Kept kq s) (ke : execRegionLocalPlaced id ue s = .next ko) : Kept kq ko := by
  unfold execRegionLocalPlaced at ke
  refine next_kept ?_ ke
  try dsimp only
  repeat' first
    | with_reducible assumption
    | with_reducible apply when_kept
    | with_reducible apply localPlace_kept
    | intro _
    | split
    | dsimp only

theorem readExecute_kept {kq : List Instr} (r : RegRead) (ue : Bool) (s : State) (kh : Kept kq s) : Kept kq (State.readExecute r ue s) := by
  unfold State.readExecute
  try dsimp only
  repeat' first
    | with_reducible assumption
    | with_reducible apply count_kept
    | with_reducible apply occur_kept
    | (with_reducible apply onRegn_kept <;> first | (intro g hg; exact hg) | skip)
    | with_reducible apply onRx_kept
    | with_reducible apply keyEnd_kept
    | with_reducible apply submit_kept
    | with_reducible apply meterRegion_kept
    | with_reducible apply replyAt_kept
    | intro _
    | split
    | dsimp only

theorem execRegionReadExecute_kept {kq : List Instr} {ko : State} (id : Nat) (ue : Bool) (s : State) (kh : Kept kq s) (ke : execRegionReadExecute id ue s = .next ko) : Kept kq ko := by
  unfold execRegionReadExecute at ke
  refine next_kept ?_ ke
  try dsimp only
  repeat' first
    | with_reducible assumption
    | with_reducible apply settleSeal_kept
    | with_reducible apply readExecute_kept
    | intro _
    | split
    | dsimp only

theorem execRegnMirrorLate_kept {kq : List Instr} {ko : State} (id : Nat) (s : State) (kh : Kept kq s) (ke : execRegnMirrorLate id s = .next ko) : Kept kq ko := by
  unfold execRegnMirrorLate at ke
  refine next_kept ?_ ke
  try dsimp only
  repeat' first
    | with_reducible assumption
    | with_reducible apply occur_kept
    | with_reducible apply when_kept
    | intro _
    | split
    | dsimp only

theorem popMsg_kept {kq : List Instr} (i : Nat) (s : State) (kh : Kept kq s) : Kept kq (State.popMsg i s) := by
  unfold State.popMsg
  try dsimp only
  repeat' first
    | with_reducible assumption
    | with_reducible apply onRx_kept
    | intro _
    | split
    | dsimp only

theorem execSetPolicy_kept {kq : List Instr} {ko : State} (ctx : Nat) (s : State) (kh : Kept kq s) (ke : execSetPolicy ctx s = .next ko) : Kept kq ko := by
  unfold execSetPolicy at ke
  refine next_kept ?_ ke
  try dsimp only
  repeat' first
    | with_reducible assumption
    | with_reducible apply onCtxId_kept
    | with_reducible apply respond_kept
    | with_reducible apply popMsg_kept
    | intro _
    | split
    | dsimp only

theorem subscribe_kept {kq : List Instr} (i : Nat) (m : InSend) (s0 : State) (kh : Kept kq s0) : Kept kq (State.subscribe i m s0) := by
  unfold State.subscribe
  try dsimp only
  repeat' first
    | with_reducible assumption
    | with_reducible apply count_kept
    | (with_reducible apply onRegn_kept <;> first | (intro g hg; exact hg) | skip)
    | with_reducible apply mirrorIf_kept
    | with_reducible apply respond_kept
    | with_reducible apply setSub_kept
    | with_reducible apply popMsg_kept
    | intro _
    | split
    | dsimp only

theorem execSubscribe_kept {kq : List Instr} {ko : State} (ctx : Nat) (s : State) (kh : Kept kq s) (ke : execSubscribe ctx s = .next ko) : Kept kq ko := by
  unfold execSubscribe at ke
  refine next_kept ?_ ke
  try dsimp only
  repeat' first
    | with_reducible assumption
    | with_reducible apply subscribe_kept
    | intro _
    | split
    | dsimp only

theorem subFinish_kept {kq : List Instr} (k : Nat) (s : State) (kh : Kept kq s) : Kept kq (State.subFinish k s) := by
  unfold State.subFinish
  try dsimp only
  repeat' first
    | with_reducible assumption
    | with_reducible apply respond_kept
    | with_reducible apply endSub_kept
    | intro _
    | split
    | dsimp only

theorem unsubscribe_kept {kq : List Instr} (i : Nat) (m : InSend) (s0 : State) (kh : Kept kq s0) : Kept kq (State.unsubscribe i m s0) := by
  unfold State.unsubscribe
  try dsimp only
  repeat' first
    | with_reducible assumption
    | with_reducible apply respond_kept
    | with_reducible apply setSub_kept
    | with_reducible apply popMsg_kept
    | with_reducible apply subFinish_kept
    | intro _
    | split
    | dsimp only

theorem execUnsubscribe_kept {kq : List Instr} {ko : State} (ctx : Nat) (s : State) (kh : Kept kq s) (ke : execUnsubscribe ctx s = .next ko) : Kept kq ko := by
  unfold execUnsubscribe at ke
  refine next_kept ?_ ke
  try dsimp only
  repeat' first
    | with_reducible assumption
    | with_reducible apply unsubscribe_kept
    | intro _
    | split
    | dsimp only

theorem settleFlush_kept {kq : List Instr} (f : FlushWait) (left : Option FlushWait) (s : State) (kh : Kept kq s) : Kept kq (State.settleFlush f left s) := by
  unfold State.settleFlush
  try dsimp only
  repeat' first
    | with_reducible assumption
    | (with_reducible apply onRegn_kept <;> first | (intro g hg; exact hg) | skip)
    | intro _
    | split
    | dsimp only

theorem flushCheck_kept {kq : List Instr} (f : FlushWait) (m : InSend) (s : State) (kh : Kept kq s) : Kept kq (State.flushCheck f m s) := by
  unfold State.flushCheck
  try dsimp only
  repeat' first
    | with_reducible assumption
    | with_reducible apply count_kept
    | with_reducible apply when_kept
    | with_reducible apply keyPass_kept
    | with_reducible apply keyFail_kept
    | with_reducible apply syncFlushes_kept
    | with_reducible apply settle_kept
    | with_reducible apply enterError_kept
    | with_reducible apply replyAt_kept
    | with_reducible apply settleFlush_kept
    | intro _
    | split
    | dsimp only

theorem placeFlush_kept {kq : List Instr} (i : Nat) (m : InSend) (s0 : State) (kh : Kept kq s0) : Kept kq (State.placeFlush i m s0) := by
  unfold State.placeFlush
  try dsimp only
  repeat' first
    | with_reducible assumption
    | with_reducible apply count_kept
    | with_reducible apply onGard_kept
    | (with_reducible apply onRegn_kept <;> first | (intro g hg; exact hg) | skip)
    | with_reducible apply keyTouch_kept
    | with_reducible apply popMsg_kept
    | with_reducible apply flushCheck_kept
    | intro _
    | split
    | dsimp only

theorem flushArrived_kept {kq : List Instr} (ue : Bool) (i psn : Nat) (s : State) (kh : Kept kq s) : Kept kq (State.flushArrived ue i psn s) := by
  unfold State.flushArrived
  try dsimp only
  repeat' first
    | with_reducible assumption
    | with_reducible apply settle_kept
    | with_reducible apply replyAt_kept
    | with_reducible apply settleFlush_kept
    | with_reducible apply flushCheck_kept
    | intro _
    | split
    | dsimp only

theorem execPlaceFlush_kept {kq : List Instr} {ko : State} (ctx : Nat) (s : State) (kh : Kept kq s) (ke : execPlaceFlush ctx s = .next ko) : Kept kq ko := by
  unfold execPlaceFlush at ke
  refine next_kept ?_ ke
  try dsimp only
  repeat' first
    | with_reducible assumption
    | with_reducible apply settleSeal_kept
    | with_reducible apply placeFlush_kept
    | intro _
    | split
    | dsimp only

theorem execControlMsgInvalid_kept {kq : List Instr} {ko : State} (ctx : Nat) (s : State) (kh : Kept kq s) (ke : execControlMsgInvalid ctx s = .next ko) : Kept kq ko := by
  unfold execControlMsgInvalid at ke
  refine next_kept ?_ ke
  try dsimp only
  repeat' first
    | with_reducible assumption
    | with_reducible apply respond_kept
    | with_reducible apply ctlProto_kept
    | with_reducible apply settleSeal_kept
    | with_reducible apply popMsg_kept
    | with_reducible apply placeFlush_kept
    | intro _
    | split
    | dsimp only

theorem notifySend_kept {kq : List Instr} (k : Nat) (s : State) (kh : Kept kq s) : Kept kq (State.notifySend k s) := by
  unfold State.notifySend
  try dsimp only
  repeat' first
    | with_reducible assumption
    | with_reducible apply count_kept
    | with_reducible apply submit_kept
    | with_reducible apply setSub_kept
    | with_reducible apply subFinish_kept
    | intro _
    | split
    | dsimp only

theorem execNotifySend_kept {kq : List Instr} {ko : State} (index : Nat) (s : State) (kh : Kept kq s) (ke : execNotifySend index s = .next ko) : Kept kq ko := by
  unfold execNotifySend at ke
  refine next_kept ?_ ke
  try dsimp only
  repeat' first
    | with_reducible assumption
    | with_reducible apply when_kept
    | with_reducible apply notifySend_kept
    | intro _
    | split
    | dsimp only

theorem execNotifyAcked_kept {kq : List Instr} {ko : State} (index : Nat) (s : State) (kh : Kept kq s) (ke : execNotifyAcked index s = .next ko) : Kept kq ko := by
  unfold execNotifyAcked at ke
  refine next_kept ?_ ke
  try dsimp only
  repeat' first
    | with_reducible assumption
    | with_reducible apply onXprt_kept
    | with_reducible apply mirrorIf_kept
    | with_reducible apply setSub_kept
    | intro _
    | split
    | dsimp only

theorem freeDestage_kept {kq : List Instr} (s : State) (u : Nat) (kh : Kept kq s) : Kept kq (State.freeDestage s u) := by
  unfold State.freeDestage
  try dsimp only
  repeat' first
    | with_reducible assumption
    | with_reducible apply lookupPage_kept2
    | with_reducible apply commitEntry_kept
    | intro _
    | split
    | (refine lookupPage_keptE ?_ (by with_reducible assumption))
    | dsimp only

theorem regionOpDone_kept {kq : List Instr} (status : Nat) (s : State) (kh : Kept kq s) : Kept kq (State.regionOpDone status s) := by
  unfold State.regionOpDone
  try dsimp only
  repeat' first
    | with_reducible assumption
    | with_reducible apply setF_kept
    | intro _
    | split
    | dsimp only

theorem regionRetire_kept {kq : List Instr} (i : Nat) (s : State) (kh : Kept kq s) : Kept kq (State.regionRetire i s) := by
  unfold State.regionRetire
  try dsimp only
  repeat' first
    | with_reducible assumption
    | (with_reducible apply onRegn_kept <;> first | (intro g hg; exact hg) | skip)
    | with_reducible apply setRegion_kept
    | with_reducible apply submit_kept
    | with_reducible apply endSub_kept
    | with_reducible apply syncDirty_kept
    | with_reducible apply freeDestage_kept
    | with_reducible apply regionOpDone_kept
    | with_reducible apply foldl_kept
    | intro _
    | split
    | dsimp only

theorem applyRegChange_kept {kq : List Instr} (c : RegChange) (s : State) (kh : Kept kq s) : Kept kq (State.applyRegChange c s) := by
  unfold State.applyRegChange
  try dsimp only
  repeat' first
    | with_reducible assumption
    | with_reducible apply onFab_kept
    | (with_reducible apply onRegn_kept <;> first | (intro g hg; exact hg) | skip)
    | with_reducible apply setRegion_kept
    | with_reducible apply syncRegions_kept
    | with_reducible apply regionRetire_kept
    | (refine memZero_wf _ _ _ ?_; assumption)
    | intro _
    | split
    | dsimp only

theorem regionChange_kept {kq : List Instr} (i : Nat) (c : RegChange) (s : State) (kh : Kept kq s) : Kept kq (State.regionChange i c s) := by
  unfold State.regionChange
  try dsimp only
  repeat' first
    | with_reducible assumption
    | (with_reducible apply onRegn_kept <;> first | (intro g hg; exact hg) | skip)
    | with_reducible apply mirror_kept
    | with_reducible apply syncIf_kept
    | with_reducible apply applyRegChange_kept
    | intro _
    | split
    | dsimp only

theorem regionConfirm_kept {kq : List Instr} (s : State) (kh : Kept kq s) : Kept kq (State.regionConfirm s) := by
  unfold State.regionConfirm
  try dsimp only
  repeat' first
    | with_reducible assumption
    | (with_reducible apply onRegn_kept <;> first | (intro g hg; exact hg) | skip)
    | with_reducible apply mirrorIf_kept
    | with_reducible apply applyRegChange_kept
    | intro _
    | split
    | dsimp only

theorem retireDue_kept {kq : List Instr} (s : State) (kh : Kept kq s) : Kept kq (State.retireDue s) := by
  unfold State.retireDue
  try dsimp only
  repeat' first
    | with_reducible assumption
    | (with_reducible apply onRegn_kept <;> first | (intro g hg; exact hg) | skip)
    | with_reducible apply regionChange_kept
    | intro _
    | split
    | dsimp only

theorem keyConfirmed_kept {kq : List Instr} (s : State) (kh : Kept kq s) : Kept kq (State.keyConfirmed s) := by
  unfold State.keyConfirmed
  try dsimp only
  repeat' first
    | with_reducible assumption
    | with_reducible apply keyConfirm_kept
    | with_reducible apply retireDue_kept
    | intro _
    | split
    | dsimp only

theorem retireAlone_kept {kq : List Instr} (s : State) (kh : Kept kq s) : Kept kq (State.retireAlone s) := by
  unfold State.retireAlone
  try dsimp only
  repeat' first
    | with_reducible assumption
    | (with_reducible apply onRegn_kept <;> first | (intro g hg; exact hg) | skip)
    | with_reducible apply applyRegChange_kept
    | intro _
    | split
    | dsimp only

theorem regionRetireWrite_kept {kq : List Instr} (index : Nat) (s : State) (kh : Kept kq s) : Kept kq (State.regionRetireWrite index s) := by
  unfold State.regionRetireWrite
  try dsimp only
  repeat' first
    | with_reducible assumption
    | with_reducible apply count_kept
    | with_reducible apply setF_kept
    | with_reducible apply regionChange_kept
    | intro _
    | split
    | dsimp only

theorem execRegionRetire_kept {kq : List Instr} {ko : State} (index : Nat) (s : State) (kh : Kept kq s) (ke : execRegionRetire index s = .next ko) : Kept kq ko := by
  unfold execRegionRetire at ke
  refine next_kept ?_ ke
  try dsimp only
  repeat' first
    | with_reducible assumption
    | with_reducible apply regionRetireWrite_kept
    | intro _
    | split
    | dsimp only

theorem execRegionZeroComplete_kept {kq : List Instr} {ko : State} (index : Nat) (s : State) (kh : Kept kq s) (ke : execRegionZeroComplete index s = .next ko) : Kept kq ko := by
  unfold execRegionZeroComplete at ke
  refine next_kept ?_ ke
  try dsimp only
  repeat' first
    | with_reducible assumption
    | with_reducible apply when_kept
    | with_reducible apply regionChange_kept
    | intro _
    | split
    | dsimp only

theorem execRegionTableConfirm_kept {kq : List Instr} {ko : State} (s : State) (kh : Kept kq s) (ke : execRegionTableConfirm s = .next ko) : Kept kq ko := by
  unfold execRegionTableConfirm at ke
  refine next_kept ?_ ke
  try dsimp only
  repeat' first
    | with_reducible assumption
    | with_reducible apply regionConfirm_kept
    | intro _
    | split
    | dsimp only

theorem execDestageLag_kept {kq : List Instr} {ko : State} (s : State) (kh : Kept kq s) (ke : execDestageLag s = .next ko) : Kept kq ko := by
  unfold execDestageLag at ke
  refine next_kept ?_ ke
  try dsimp only
  repeat' first
    | with_reducible assumption
    | with_reducible apply occur_kept
    | with_reducible apply when_kept
    | with_reducible apply syncDirty_kept
    | intro _
    | split
    | dsimp only

end Sys2Proof.Machine
end

