-- ==== Sys2Proof/Laws/Kept/XprtExec.lean ====
section
/-!
SUPPORT. What the operations of Machine/XprtExec.lean keep.
-/
namespace Sys2Proof.Machine
open Sys2Proof

theorem rxIf_kept {kq : List Instr} (c : Bool) (rx : RxMeta) (p : Packet) (s : State) (kh : Kept kq s) : Kept kq (State.rxIf c rx p s) := by
  unfold State.rxIf
  try dsimp only
  repeat' first
    | with_reducible assumption
    | with_reducible apply when_kept
    | with_reducible apply settleSeal_kept
    | with_reducible apply rxPacket_kept
    | intro _
    | split
    | dsimp only

theorem execRxRequestPacket_kept {kq : List Instr} {ko : State} (rx : RxMeta) (pkt : Packet) (s : State) (kh : Kept kq s) (ke : execRxRequestPacket rx pkt s = .next ko) : Kept kq ko := by
  unfold execRxRequestPacket at ke
  refine next_kept ?_ ke
  try dsimp only
  repeat' first
    | with_reducible assumption
    | with_reducible apply rxIf_kept
    | intro _
    | split
    | dsimp only

theorem execRxReadResponse_kept {kq : List Instr} {ko : State} (rx : RxMeta) (pkt : Packet) (s : State) (kh : Kept kq s) (ke : execRxReadResponse rx pkt s = .next ko) : Kept kq ko := by
  unfold execRxReadResponse at ke
  refine next_kept ?_ ke
  try dsimp only
  repeat' first
    | with_reducible assumption
    | with_reducible apply rxIf_kept
    | intro _
    | split
    | dsimp only

theorem execRxCnp_kept {kq : List Instr} {ko : State} (rx : RxMeta) (pkt : Packet) (s : State) (kh : Kept kq s) (ke : execRxCnp rx pkt s = .next ko) : Kept kq ko := by
  unfold execRxCnp at ke
  refine next_kept ?_ ke
  try dsimp only
  repeat' first
    | with_reducible assumption
    | with_reducible apply rxIf_kept
    | intro _
    | split
    | dsimp only

theorem execRxAck_kept {kq : List Instr} {ko : State} (rx : RxMeta) (pkt : Packet) (s : State) (kh : Kept kq s) (ke : execRxAck rx pkt s = .next ko) : Kept kq ko := by
  unfold execRxAck at ke
  refine next_kept ?_ ke
  try dsimp only
  repeat' first
    | with_reducible assumption
    | with_reducible apply ack_kept
    | with_reducible apply rxIf_kept
    | intro _
    | split
    | dsimp only

theorem beginReplays_kept {kq : List Instr} (s : State) (kh : Kept kq s) : Kept kq (State.beginReplays s) := by
  unfold State.beginReplays
  try dsimp only
  repeat' first
    | with_reducible assumption
    | with_reducible apply onCmdq_kept
    | with_reducible apply beginCmd_kept
    | with_reducible apply foldl_kept
    | intro _
    | split
    | dsimp only

theorem execRxSeqNak_kept {kq : List Instr} {ko : State} (rx : RxMeta) (pkt : Packet) (s : State) (kh : Kept kq s) (ke : execRxSeqNak rx pkt s = .next ko) : Kept kq ko := by
  unfold execRxSeqNak at ke
  refine next_kept ?_ ke
  try dsimp only
  repeat' first
    | with_reducible assumption
    | with_reducible apply rxIf_kept
    | with_reducible apply beginReplays_kept
    | intro _
    | split
    | dsimp only

theorem execRxRnrNak_kept {kq : List Instr} {ko : State} (rx : RxMeta) (pkt : Packet) (s : State) (kh : Kept kq s) (ke : execRxRnrNak rx pkt s = .next ko) : Kept kq ko := by
  unfold execRxRnrNak at ke
  refine next_kept ?_ ke
  try dsimp only
  repeat' first
    | with_reducible assumption
    | with_reducible apply rxIf_kept
    | intro _
    | split
    | dsimp only

theorem execRxFatalNak_kept {kq : List Instr} {ko : State} (rx : RxMeta) (pkt : Packet) (s : State) (kh : Kept kq s) (ke : execRxFatalNak rx pkt s = .next ko) : Kept kq ko := by
  unfold execRxFatalNak at ke
  refine next_kept ?_ ke
  try dsimp only
  repeat' first
    | with_reducible assumption
    | with_reducible apply rxIf_kept
    | intro _
    | split
    | dsimp only

theorem runJob_kept {kq : List Instr} (i : Nat) (j : CtxJob) (s : State) (kh : Kept kq s) : Kept kq (State.runJob i j s) := by
  unfold State.runJob
  try dsimp only
  repeat' first
    | with_reducible assumption
    | with_reducible apply count_kept
    | with_reducible apply when_kept
    | with_reducible apply onTx_kept
    | with_reducible apply onCtxId_kept
    | with_reducible apply ack_kept
    | with_reducible apply sendDreq_kept
    | with_reducible apply enterTimewait_kept
    | with_reducible apply freeConn_kept
    | with_reducible apply probeTimeout_kept
    | with_reducible apply sendWork_kept
    | with_reducible apply retry_kept
    | with_reducible apply resendFrom_kept
    | with_reducible apply rateIncrease_kept
    | with_reducible apply sendRep_kept
    | intro _
    | split
    | dsimp only

theorem job_kept {kq : List Instr} (i : Nat) (j : CtxJob) (s : State) (kh : Kept kq s) : Kept kq (State.job i j s) := by
  unfold State.job
  try dsimp only
  repeat' first
    | with_reducible assumption
    | with_reducible apply when_kept
    | with_reducible apply useCtx_kept
    | with_reducible apply settleSeal_kept
    | with_reducible apply runJob_kept
    | intro _
    | split
    | dsimp only

theorem execAckDelayExpiry_kept {kq : List Instr} {ko : State} (ctx : Nat) (s : State) (kh : Kept kq s) (ke : execAckDelayExpiry ctx s = .next ko) : Kept kq ko := by
  unfold execAckDelayExpiry at ke
  refine next_kept ?_ ke
  try dsimp only
  repeat' first
    | with_reducible assumption
    | with_reducible apply when_kept
    | with_reducible apply job_kept
    | intro _
    | split
    | dsimp only

theorem execRateIncrease_kept {kq : List Instr} {ko : State} (ctx : Nat) (s : State) (kh : Kept kq s) (ke : execRateIncrease ctx s = .next ko) : Kept kq ko := by
  unfold execRateIncrease at ke
  refine next_kept ?_ ke
  try dsimp only
  repeat' first
    | with_reducible assumption
    | with_reducible apply when_kept
    | with_reducible apply job_kept
    | intro _
    | split
    | dsimp only

theorem execAckTimeout_kept {kq : List Instr} {ko : State} (ctx : Nat) (s : State) (kh : Kept kq s) (ke : execAckTimeout ctx s = .next ko) : Kept kq ko := by
  unfold execAckTimeout at ke
  refine next_kept ?_ ke
  try dsimp only
  repeat' first
    | with_reducible assumption
    | with_reducible apply when_kept
    | with_reducible apply job_kept
    | intro _
    | split
    | dsimp only

theorem execRnrTimerExpiry_kept {kq : List Instr} {ko : State} (ctx : Nat) (s : State) (kh : Kept kq s) (ke : execRnrTimerExpiry ctx s = .next ko) : Kept kq ko := by
  unfold execRnrTimerExpiry at ke
  refine next_kept ?_ ke
  try dsimp only
  repeat' first
    | with_reducible assumption
    | with_reducible apply when_kept
    | with_reducible apply job_kept
    | intro _
    | split
    | dsimp only

theorem execXprtSend_kept {kq : List Instr} {ko : State} (ctx : Nat) (s : State) (kh : Kept kq s) (ke : execXprtSend ctx s = .next ko) : Kept kq ko := by
  unfold execXprtSend at ke
  refine next_kept ?_ ke
  try dsimp only
  repeat' first
    | with_reducible assumption
    | with_reducible apply when_kept
    | with_reducible apply job_kept
    | intro _
    | split
    | dsimp only

theorem rekeyLoad_kept {kq : List Instr} (i : Nat) (rxHalf : Bool) (s : State) (kh : Kept kq s) : Kept kq (State.rekeyLoad i rxHalf s) := by
  unfold State.rekeyLoad
  try dsimp only
  repeat' first
    | with_reducible assumption
    | with_reducible apply when_kept
    | with_reducible apply setKeySlot_kept
    | with_reducible apply rekeyTx_kept
    | intro _
    | split
    | dsimp only

theorem execRekeyLoad_kept {kq : List Instr} {ko : State} (ctx : Nat) (rxHalf : Bool) (s : State) (kh : Kept kq s) (ke : execRekeyLoad ctx rxHalf s = .next ko) : Kept kq ko := by
  unfold execRekeyLoad at ke
  refine next_kept ?_ ke
  try dsimp only
  repeat' first
    | with_reducible assumption
    | with_reducible apply rekeyLoad_kept
    | intro _
    | split
    | dsimp only

theorem runJobs_kept {kq : List Instr} (i : Nat) (s : State) (kh : Kept kq s) : Kept kq (State.runJobs i s) := by
  unfold State.runJobs
  try dsimp only
  repeat' first
    | with_reducible assumption
    | with_reducible apply onXprt_kept
    | with_reducible apply runJob_kept
    | with_reducible apply foldl_kept
    | intro _
    | split
    | dsimp only

theorem execCtxFetchComplete_kept {kq : List Instr} {ko : State} (ctx : Nat) (late ue : Bool) (s : State) (kh : Kept kq s) (ke : execCtxFetchComplete ctx late ue s = .next ko) : Kept kq ko := by
  unfold execCtxFetchComplete at ke
  refine next_kept ?_ ke
  try dsimp only
  repeat' first
    | with_reducible assumption
    | with_reducible apply occur_kept
    | with_reducible apply when_kept
    | with_reducible apply settleSeal_kept
    | with_reducible apply fetched_kept
    | with_reducible apply beginReplays_kept
    | with_reducible apply runJobs_kept
    | intro _
    | split
    | dsimp only

theorem cmMessage_kept {kq : List Instr} (g : State → State) (s : State) (hk_g : ∀ u, Kept kq u → Kept kq (g u)) (kh : Kept kq s) : Kept kq (State.cmMessage g s) := by
  unfold State.cmMessage
  try dsimp only
  repeat' first
    | with_reducible assumption
    | with_reducible apply count_kept
    | with_reducible apply hk_g
    | intro _
    | split
    | dsimp only

theorem execCmReq_kept {kq : List Instr} {ko : State} (req : CmReq) (s : State) (kh : Kept kq s) (ke : execCmReq req s = .next ko) : Kept kq ko := by
  unfold execCmReq at ke
  refine next_kept ?_ ke
  try dsimp only
  repeat' first
    | with_reducible assumption
    | with_reducible apply onXprt_kept
    | with_reducible apply cmMessage_kept
    | intro _
    | split
    | dsimp only

theorem execCmReqAnswer_kept {kq : List Instr} {ko : State} (devPriv sport pick startPsn : Nat) (s : State) (kh : Kept kq s) (ke : execCmReqAnswer devPriv sport pick startPsn s = .next ko) : Kept kq ko := by
  unfold execCmReqAnswer at ke
  refine next_kept ?_ ke
  try dsimp only
  repeat' first
    | with_reducible assumption
    | with_reducible apply when_kept
    | with_reducible apply answerReq_kept
    | intro _
    | split
    | dsimp only

theorem execCmRtu_kept {kq : List Instr} {ko : State} (ctx : Nat) (s : State) (kh : Kept kq s) (ke : execCmRtu ctx s = .next ko) : Kept kq ko := by
  unfold execCmRtu at ke
  refine next_kept ?_ ke
  try dsimp only
  repeat' first
    | with_reducible assumption
    | with_reducible apply when_kept
    | with_reducible apply setConnState_kept
    | with_reducible apply cmMessage_kept
    | intro _
    | split
    | dsimp only

theorem execCmRej_kept {kq : List Instr} {ko : State} (ctx : Nat) (s : State) (kh : Kept kq s) (ke : execCmRej ctx s = .next ko) : Kept kq ko := by
  unfold execCmRej at ke
  refine next_kept ?_ ke
  try dsimp only
  repeat' first
    | with_reducible assumption
    | with_reducible apply when_kept
    | with_reducible apply enterTimewait_kept
    | with_reducible apply cmMessage_kept
    | intro _
    | split
    | dsimp only

theorem execCmDreq_kept {kq : List Instr} {ko : State} (ctx : Nat) (s : State) (kh : Kept kq s) (ke : execCmDreq ctx s = .next ko) : Kept kq ko := by
  unfold execCmDreq at ke
  refine next_kept ?_ ke
  try dsimp only
  repeat' first
    | with_reducible assumption
    | with_reducible apply cmOn_kept
    | with_reducible apply enterTimewait_kept
    | with_reducible apply dropMirror_kept
    | with_reducible apply cmMessage_kept
    | intro _
    | split
    | dsimp only

theorem execCmDrep_kept {kq : List Instr} {ko : State} (ctx : Nat) (s : State) (kh : Kept kq s) (ke : execCmDrep ctx s = .next ko) : Kept kq ko := by
  unfold execCmDrep at ke
  refine next_kept ?_ ke
  try dsimp only
  repeat' first
    | with_reducible assumption
    | with_reducible apply when_kept
    | with_reducible apply enterTimewait_kept
    | with_reducible apply cmMessage_kept
    | intro _
    | split
    | dsimp only

theorem execCmUnsupported_kept {kq : List Instr} {ko : State} (malformed : Bool) (s : State) (kh : Kept kq s) (ke : execCmUnsupported malformed s = .next ko) : Kept kq ko := by
  unfold execCmUnsupported at ke
  refine next_kept ?_ ke
  try dsimp only
  repeat' first
    | with_reducible assumption
    | with_reducible apply count_kept
    | with_reducible apply occur_kept
    | with_reducible apply cmMessage_kept
    | intro _
    | split
    | dsimp only

theorem execRepRetryTimeout_kept {kq : List Instr} {ko : State} (ctx : Nat) (s : State) (kh : Kept kq s) (ke : execRepRetryTimeout ctx s = .next ko) : Kept kq ko := by
  unfold execRepRetryTimeout at ke
  refine next_kept ?_ ke
  try dsimp only
  repeat' first
    | with_reducible assumption
    | with_reducible apply when_kept
    | with_reducible apply job_kept
    | intro _
    | split
    | dsimp only

theorem execDreqRetryTimeout_kept {kq : List Instr} {ko : State} (ctx : Nat) (s : State) (kh : Kept kq s) (ke : execDreqRetryTimeout ctx s = .next ko) : Kept kq ko := by
  unfold execDreqRetryTimeout at ke
  refine next_kept ?_ ke
  try dsimp only
  repeat' first
    | with_reducible assumption
    | with_reducible apply when_kept
    | with_reducible apply job_kept
    | intro _
    | split
    | dsimp only

theorem execFlushComplete_kept {kq : List Instr} {ko : State} (ctx : Nat) (s : State) (kh : Kept kq s) (ke : execFlushComplete ctx s = .next ko) : Kept kq ko := by
  unfold execFlushComplete at ke
  refine next_kept ?_ ke
  try dsimp only
  repeat' first
    | with_reducible assumption
    | with_reducible apply when_kept
    | with_reducible apply onCtx_kept
    | with_reducible apply sendDreq_kept
    | intro _
    | split
    | dsimp only

theorem execTimewaitExpiry_kept {kq : List Instr} {ko : State} (ctx : Nat) (s : State) (kh : Kept kq s) (ke : execTimewaitExpiry ctx s = .next ko) : Kept kq ko := by
  unfold execTimewaitExpiry at ke
  refine next_kept ?_ ke
  try dsimp only
  repeat' first
    | with_reducible assumption
    | with_reducible apply when_kept
    | with_reducible apply job_kept
    | intro _
    | split
    | dsimp only

theorem xprtCloseWrite_kept {kq : List Instr} (value : Nat) (s : State) (kh : Kept kq s) : Kept kq (State.xprtCloseWrite value s) := by
  unfold State.xprtCloseWrite
  try dsimp only
  repeat' first
    | with_reducible assumption
    | with_reducible apply when_kept
    | with_reducible apply closeConn_kept
    | intro _
    | split
    | dsimp only

theorem execXprtClose_kept {kq : List Instr} {ko : State} (value : BitVec 32) (s : State) (kh : Kept kq s) (ke : execXprtClose value s = .next ko) : Kept kq ko := by
  unfold execXprtClose at ke
  refine next_kept ?_ ke
  try dsimp only
  repeat' first
    | with_reducible assumption
    | with_reducible apply xprtCloseWrite_kept
    | intro _
    | split
    | dsimp only

theorem keyArrived_kept {kq : List Instr} (ue : Bool) (s : State) (w : KeyWait) (kh : Kept kq s) : Kept kq (State.keyArrived ue s w) := by
  unfold State.keyArrived
  try dsimp only
  repeat' first
    | with_reducible assumption
    | with_reducible apply writeArrived_kept
    | with_reducible apply regReadArrived_kept
    | with_reducible apply flushArrived_kept
    | intro _
    | split
    | dsimp only

theorem keyFetched_kept {kq : List Instr} (index : Nat) (ue : Bool) (s : State) (kh : Kept kq s) : Kept kq (State.keyFetched index ue s) := by
  unfold State.keyFetched
  try dsimp only
  repeat' first
    | with_reducible assumption
    | with_reducible apply occur_kept
    | with_reducible apply onGard_kept
    | with_reducible apply releaseReplies_kept
    | with_reducible apply setKey_kept
    | with_reducible apply keyTouch_kept
    | with_reducible apply settleSeal_kept
    | with_reducible apply keyArrived_kept
    | with_reducible apply foldl_kept
    | intro _
    | split
    | dsimp only

theorem execKeyFetchComplete_kept {kq : List Instr} {ko : State} (index : Nat) (ue : Bool) (s : State) (kh : Kept kq s) (ke : execKeyFetchComplete index ue s = .next ko) : Kept kq ko := by
  unfold execKeyFetchComplete at ke
  refine next_kept ?_ ke
  try dsimp only
  repeat' first
    | with_reducible assumption
    | with_reducible apply when_kept
    | with_reducible apply keyFetched_kept
    | intro _
    | split
    | dsimp only

theorem keyRetire_kept {kq : List Instr} (index : Nat) (s : State) (kh : Kept kq s) : Kept kq (State.keyRetire index s) := by
  unfold State.keyRetire
  try dsimp only
  repeat' first
    | with_reducible assumption
    | with_reducible apply count_kept
    | with_reducible apply setF_kept
    | with_reducible apply keyChange_kept
    | intro _
    | split
    | dsimp only

theorem execKeyRetire_kept {kq : List Instr} {ko : State} (index : Nat) (s : State) (kh : Kept kq s) (ke : execKeyRetire index s = .next ko) : Kept kq ko := by
  unfold execKeyRetire at ke
  refine next_kept ?_ ke
  try dsimp only
  repeat' first
    | with_reducible assumption
    | with_reducible apply keyRetire_kept
    | intro _
    | split
    | dsimp only

theorem execKeyChangeConfirm_kept {kq : List Instr} {ko : State} (s : State) (kh : Kept kq s) (ke : execKeyChangeConfirm s = .next ko) : Kept kq ko := by
  unfold execKeyChangeConfirm at ke
  refine next_kept ?_ ke
  try dsimp only
  repeat' first
    | with_reducible assumption
    | with_reducible apply keyConfirmed_kept
    | intro _
    | split
    | dsimp only

theorem execKeyQuietExpiry_kept {kq : List Instr} {ko : State} (index : Nat) (s : State) (kh : Kept kq s) (ke : execKeyQuietExpiry index s = .next ko) : Kept kq ko := by
  unfold execKeyQuietExpiry at ke
  refine next_kept ?_ ke
  try dsimp only
  repeat' first
    | with_reducible assumption
    | with_reducible apply when_kept
    | with_reducible apply setKey_kept
    | with_reducible apply syncKeys_kept
    | intro _
    | split
    | dsimp only

end Sys2Proof.Machine
end

