-- ==== Sys2Proof/Laws/Kept/TblOps.lean ====
section
/-!
SUPPORT. What the operations of Machine/TblOps.lean keep.
-/
namespace Sys2Proof.Machine
open Sys2Proof

theorem tblReadDone_kept {kq : List Instr} (p : Page) (t i : Nat) (s : State) (kh : Kept kq s) : Kept kq (State.tblReadDone p t i s) := by
  unfold State.tblReadDone
  try dsimp only
  repeat' first
    | with_reducible assumption
    | with_reducible apply onCell_kept
    | with_reducible apply onTmgr_kept
    | intro _
    | split
    | dsimp only

theorem restWrite_keptO {kq : List Instr} (i x : Nat) (s : State) (kh : Kept kq s) : OptKept kq (State.restWrite i x s) := by
  unfold State.restWrite
  try dsimp only
  repeat' first
    | with_reducible assumption
    | with_reducible apply count_kept
    | with_reducible apply onGard_kept
    | with_reducible apply setF_kept
    | with_reducible exact optKept_none
    | with_reducible apply optKept_some
    | with_reducible apply optKept_map
    | with_reducible apply optKept_foldl
    | exact OptKept.kept (by assumption) _ rfl
    | intro _
    | split
    | dsimp only
theorem restWrite_keptE {kq : List Instr} {ko : State} {i x : Nat} {s : State} (kh : Kept kq s) (ke : State.restWrite i x s = some ko) : Kept kq ko := (restWrite_keptO i x s kh).kept ko ke

theorem secretWrite_keptO {kq : List Instr} (i x : Nat) (s : State) (kh : Kept kq s) : OptKept kq (State.secretWrite i x s) := by
  unfold State.secretWrite
  try dsimp only
  repeat' first
    | with_reducible assumption
    | with_reducible apply onGard_kept
    | with_reducible exact optKept_none
    | with_reducible apply optKept_some
    | with_reducible apply optKept_map
    | with_reducible apply optKept_foldl
    | exact OptKept.kept (by assumption) _ rfl
    | intro _
    | split
    | dsimp only
theorem secretWrite_keptE {kq : List Instr} {ko : State} {i x : Nat} {s : State} (kh : Kept kq s) (ke : State.secretWrite i x s = some ko) : Kept kq ko := (secretWrite_keptO i x s kh).kept ko ke

theorem livePut_keptO {kq : List Instr} (p : Page) (t i x : Nat) (s : State) (kh : Kept kq s) : OptKept kq (State.livePut p t i x s) := by
  unfold State.livePut
  try dsimp only
  repeat' first
    | with_reducible assumption
    | with_reducible apply onGard_kept
    | with_reducible exact optKept_none
    | with_reducible apply optKept_some
    | with_reducible apply optKept_map
    | with_reducible apply optKept_foldl
    | exact OptKept.kept (by assumption) _ rfl
    | with_reducible apply restWrite_keptO
    | with_reducible apply secretWrite_keptO
    | intro _
    | split
    | (refine restWrite_keptE ?_ (by with_reducible assumption))
    | (refine secretWrite_keptE ?_ (by with_reducible assumption))
    | dsimp only
theorem livePut_keptE {kq : List Instr} {ko : State} {p : Page} {t i x : Nat} {s : State} (kh : Kept kq s) (ke : State.livePut p t i x s = some ko) : Kept kq ko := (livePut_keptO p t i x s kh).kept ko ke

theorem livePutDone_kept {kq : List Instr} (p : Page) (t i x : Nat) (rq : Requester) (s : State) (kh : Kept kq s) : Kept kq (State.livePutDone p t i x rq s) := by
  unfold State.livePutDone
  try dsimp only
  repeat' first
    | with_reducible assumption
    | with_reducible apply onFab_kept
    | intro _
    | split
    | (refine livePut_keptE ?_ (by with_reducible assumption))
    | dsimp only

theorem liveWrite_kept {kq : List Instr} (p : Page) (t i x : Nat) (rq : Requester) (s : State) (kh : Kept kq s) : Kept kq (State.liveWrite p t i x rq s) := by
  unfold State.liveWrite
  try dsimp only
  repeat' first
    | with_reducible assumption
    | with_reducible apply onPair_kept
    | with_reducible apply mirror_kept
    | with_reducible apply syncIf_kept
    | with_reducible apply keyChange_kept
    | with_reducible apply regionChange_kept
    | with_reducible apply livePutDone_kept
    | intro _
    | split
    | (refine livePut_keptE ?_ (by with_reducible assumption))
    | dsimp only

theorem tblConfirm_kept {kq : List Instr} (s : State) (kh : Kept kq s) : Kept kq (State.tblConfirm s) := by
  unfold State.tblConfirm
  try dsimp only
  repeat' first
    | with_reducible assumption
    | with_reducible apply onPair_kept
    | with_reducible apply livePutDone_kept
    | intro _
    | split
    | dsimp only

theorem onWin_kept {kq : List Instr} (b : Nat) (g : Win → Win) (s : State) (kh : Kept kq s) : Kept kq (State.onWin b g s) := by
  unfold State.onWin
  try dsimp only
  repeat' first
    | with_reducible assumption
    | with_reducible apply onFab_kept
    | intro _
    | split
    | dsimp only

theorem shadowEdited_kept {kq : List Instr} (p : Page) (s : State) (kh : Kept kq s) : Kept kq (State.shadowEdited p s) := by
  unfold State.shadowEdited
  try dsimp only
  repeat' first
    | with_reducible assumption
    | with_reducible apply onFab_kept
    | with_reducible apply setF_kept
    | intro _
    | split
    | dsimp only

theorem shadowDrop_kept {kq : List Instr} (s : State) (kh : Kept kq s) : Kept kq (State.shadowDrop s) := by
  unfold State.shadowDrop
  try dsimp only
  repeat' first
    | with_reducible assumption
    | with_reducible apply count_kept
    | with_reducible apply setF_kept
    | intro _
    | split
    | dsimp only

theorem tblCmd_kept {kq : List Instr} (rq : Requester) (p : Page) (op : Nat) (sel : Bool) (table : Nat) (s : State) (kh : Kept kq s) : Kept kq (State.tblCmd rq p op sel table s) := by
  unfold State.tblCmd
  try dsimp only
  repeat' first
    | with_reducible assumption
    | with_reducible apply count_kept
    | with_reducible apply onFab_kept
    | with_reducible apply onWin_kept
    | with_reducible apply shadowDrop_kept
    | intro _
    | split
    | dsimp only

theorem tblDone_kept {kq : List Instr} (p : Page) (rq : Requester) (status : Nat) (s : State) (kh : Kept kq s) : Kept kq (State.tblDone p rq status s) := by
  unfold State.tblDone
  try dsimp only
  repeat' first
    | with_reducible assumption
    | with_reducible apply onFab_kept
    | intro _
    | split
    | dsimp only

theorem dropHeld_kept {kq : List Instr} (b : Nat) (keep : Option (Nat × Bool × Nat)) (s : State) (kh : Kept kq s) : Kept kq (State.dropHeld b keep s) := by
  unfold State.dropHeld
  try dsimp only
  repeat' first
    | with_reducible assumption
    | with_reducible apply count_kept
    | with_reducible apply onWin_kept
    | intro _
    | split
    | dsimp only

theorem tblPut_kept {kq : List Instr} (p : Page) (rq : Requester) (d : TblDef) (i x : Nat) (s : State) (kh : Kept kq s) : Kept kq (State.tblPut p rq d i x s) := by
  unfold State.tblPut
  try dsimp only
  repeat' first
    | with_reducible assumption
    | with_reducible apply onFab_kept
    | with_reducible apply setTab_kept
    | with_reducible apply liveWrite_kept
    | with_reducible apply shadowEdited_kept
    | with_reducible apply tblDone_kept
    | intro _
    | split
    | dsimp only

theorem tblFinish_kept {kq : List Instr} (p : Page) (rq : Requester) (o : TblOp) (s0 : State) (kh : Kept kq s0) : Kept kq (State.tblFinish p rq o s0) := by
  unfold State.tblFinish
  try dsimp only
  repeat' first
    | with_reducible assumption
    | with_reducible apply onFab_kept
    | with_reducible apply tblReadDone_kept
    | with_reducible apply onWin_kept
    | with_reducible apply tblDone_kept
    | with_reducible apply dropHeld_kept
    | with_reducible apply tblPut_kept
    | with_reducible apply foldl_kept
    | intro _
    | split
    | dsimp only

theorem tblComplete_kept {kq : List Instr} (rq : Requester) (p : Page) (s : State) (kh : Kept kq s) : Kept kq (State.tblComplete rq p s) := by
  unfold State.tblComplete
  try dsimp only
  repeat' first
    | with_reducible assumption
    | with_reducible apply tblFinish_kept
    | intro _
    | split
    | dsimp only

theorem execTblReadChunk_kept {kq : List Instr} {ko : State} (rq : Requester) (page : Page) (sel : Bool) (table : Nat) (s : State) (kh : Kept kq s) (ke : execTblReadChunk rq page sel table s = .next ko) : Kept kq ko := by
  unfold execTblReadChunk at ke
  refine next_kept ?_ ke
  try dsimp only
  repeat' first
    | with_reducible assumption
    | with_reducible apply tblCmd_kept
    | intro _
    | split
    | dsimp only

theorem execTblWriteChunk_kept {kq : List Instr} {ko : State} (rq : Requester) (page : Page) (sel : Bool) (table : Nat) (s : State) (kh : Kept kq s) (ke : execTblWriteChunk rq page sel table s = .next ko) : Kept kq ko := by
  unfold execTblWriteChunk at ke
  refine next_kept ?_ ke
  try dsimp only
  repeat' first
    | with_reducible assumption
    | with_reducible apply tblCmd_kept
    | intro _
    | split
    | dsimp only

theorem execTblClearEntry_kept {kq : List Instr} {ko : State} (rq : Requester) (page : Page) (sel : Bool) (table : Nat) (s : State) (kh : Kept kq s) (ke : execTblClearEntry rq page sel table s = .next ko) : Kept kq ko := by
  unfold execTblClearEntry at ke
  refine next_kept ?_ ke
  try dsimp only
  repeat' first
    | with_reducible assumption
    | with_reducible apply tblCmd_kept
    | intro _
    | split
    | dsimp only

theorem execTblOpComplete_kept {kq : List Instr} {ko : State} (rq : Requester) (page : Page) (s : State) (kh : Kept kq s) (ke : execTblOpComplete rq page s = .next ko) : Kept kq ko := by
  unfold execTblOpComplete at ke
  refine next_kept ?_ ke
  try dsimp only
  repeat' first
    | with_reducible assumption
    | with_reducible apply tblComplete_kept
    | intro _
    | split
    | dsimp only

end Sys2Proof.Machine
end

