-- ==== Sys2Proof/Laws/Kept/FwOps.lean ====
section
/-!
SUPPORT. What the operations of Machine/FwOps.lean keep.
-/
namespace Sys2Proof.Machine
open Sys2Proof

theorem setRunning_kept {kq : List Instr} (k : Nat) (s : State) (kh : Kept kq s) : Kept kq (State.setRunning k s) := by
  unfold State.setRunning
  try dsimp only
  repeat' first
    | with_reducible assumption
    | with_reducible apply setF_kept
    | intro _
    | split
    | dsimp only

theorem bootLoad_kept {kq : List Instr} (s : State) (kh : Kept kq s) : Kept kq (State.bootLoad s) := by
  unfold State.bootLoad
  try dsimp only
  repeat' first
    | with_reducible assumption
    | with_reducible apply occur_kept
    | with_reducible apply pageEv_kept
    | with_reducible apply setRunning_kept
    | intro _
    | split
    | dsimp only

theorem setPhase_kept {kq : List Instr} (n : Nat) (s : State) (kh : Kept kq s) : Kept kq (State.setPhase n s) := by
  unfold State.setPhase
  try dsimp only
  repeat' first
    | with_reducible assumption
    | with_reducible apply setF_kept
    | intro _
    | split
    | dsimp only

theorem fwCtl_kept {kq : List Instr} (w : Nat) (s : State) (kh : Kept kq s) : Kept kq (State.fwCtl w s) := by
  unfold State.fwCtl
  try dsimp only
  repeat' first
    | with_reducible assumption
    | with_reducible apply count_kept
    | with_reducible apply onPol_kept
    | with_reducible apply setPhase_kept
    | intro _
    | split
    | dsimp only

theorem fwEnd_kept {kq : List Instr} (result : Nat) (s : State) (kh : Kept kq s) : Kept kq (State.fwEnd result s) := by
  unfold State.fwEnd
  try dsimp only
  repeat' first
    | with_reducible assumption
    | with_reducible apply setF_kept
    | with_reducible apply holdEnd_kept
    | with_reducible apply setPhase_kept
    | intro _
    | split
    | dsimp only

theorem fwValidated_kept {kq : List Instr} (s : State) (kh : Kept kq s) : Kept kq (State.fwValidated s) := by
  unfold State.fwValidated
  try dsimp only
  repeat' first
    | with_reducible assumption
    | with_reducible apply setF_kept
    | with_reducible apply setPhase_kept
    | with_reducible apply fwEnd_kept
    | intro _
    | split
    | dsimp only

theorem fwStarted_kept {kq : List Instr} (ok : Bool) (s : State) (kh : Kept kq s) : Kept kq (State.fwStarted ok s) := by
  unfold State.fwStarted
  try dsimp only
  repeat' first
    | with_reducible assumption
    | with_reducible apply count_kept
    | with_reducible apply occur_kept
    | with_reducible apply record_kept
    | with_reducible apply setF_kept
    | with_reducible apply setRunning_kept
    | with_reducible apply fwEnd_kept
    | intro _
    | split
    | dsimp only

theorem fwAbandon_kept {kq : List Instr} (s : State) (kh : Kept kq s) : Kept kq (State.fwAbandon s) := by
  unfold State.fwAbandon
  try dsimp only
  repeat' first
    | with_reducible assumption
    | with_reducible apply holdEnd_kept
    | with_reducible apply setPhase_kept
    | intro _
    | split
    | dsimp only

theorem execFwActivate_kept {kq : List Instr} {ko : State} (value : BitVec 32) (s : State) (kh : Kept kq s) (ke : execFwActivate value s = .next ko) : Kept kq ko := by
  unfold execFwActivate at ke
  refine next_kept ?_ ke
  try dsimp only
  repeat' first
    | with_reducible assumption
    | with_reducible apply fwCtl_kept
    | intro _
    | split
    | dsimp only

theorem execFwValidateComplete_kept {kq : List Instr} {ko : State} (s : State) (kh : Kept kq s) (ke : execFwValidateComplete s = .next ko) : Kept kq ko := by
  unfold execFwValidateComplete at ke
  refine next_kept ?_ ke
  try dsimp only
  repeat' first
    | with_reducible assumption
    | with_reducible apply fwValidated_kept
    | intro _
    | split
    | dsimp only

theorem execFwStartComplete_kept {kq : List Instr} {ko : State} (ok : Bool) (s : State) (kh : Kept kq s) (ke : execFwStartComplete ok s = .next ko) : Kept kq ko := by
  unfold execFwStartComplete at ke
  refine next_kept ?_ ke
  try dsimp only
  repeat' first
    | with_reducible assumption
    | with_reducible apply fwStarted_kept
    | intro _
    | split
    | dsimp only

end Sys2Proof.Machine
end

