-- ==== Sys2Proof/Laws/Kept/PageBase.lean ====
section
/-!
SUPPORT. What the operations of Machine/PageBase.lean keep.
-/
namespace Sys2Proof.Machine
open Sys2Proof

theorem xprtStart_kept {kq : List Instr} (s : State) (kh : Kept kq s) : Kept kq (State.xprtStart s) := by
  unfold State.xprtStart
  try dsimp only
  repeat' first
    | with_reducible assumption
    | with_reducible apply onGard_kept
    | with_reducible apply onPair_kept
    | with_reducible apply onXprt_kept
    | with_reducible apply syncXprt_kept
    | with_reducible apply connLost_kept
    | with_reducible apply foldl_kept
    | intro _
    | split
    | dsimp only
    | with_reducible apply lit_kept

theorem keysStart_kept {kq : List Instr} (s : State) (kh : Kept kq s) : Kept kq (State.keysStart s) := by
  unfold State.keysStart
  try dsimp only
  repeat' first
    | with_reducible assumption
    | with_reducible apply onFab_kept
    | with_reducible apply onGard_kept
    | with_reducible apply setF_kept
    | with_reducible apply syncKeys_kept
    | with_reducible apply keyChange_kept
    | with_reducible apply retireDue_kept
    | with_reducible apply foldl_kept
    | intro _
    | split
    | dsimp only

theorem cmdqStart_kept {kq : List Instr} (s : State) (kh : Kept kq s) : Kept kq (State.cmdqStart s) := by
  unfold State.cmdqStart
  try dsimp only
  repeat' first
    | with_reducible assumption
    | with_reducible apply onCmdq_kept
    | with_reducible apply onTmgr_kept
    | with_reducible apply syncCmdq_kept
    | intro _
    | split
    | dsimp only

theorem regnStart_kept {kq : List Instr} (s : State) (kh : Kept kq s) : Kept kq (State.regnStart s) := by
  unfold State.regnStart
  try dsimp only
  repeat' first
    | with_reducible assumption
    | (with_reducible apply onRegn_kept <;> first | (intro g hg; exact hg) | skip)
    | intro _
    | split
    | dsimp only

theorem tmgrStart_kept {kq : List Instr} (s : State) (kh : Kept kq s) : Kept kq (State.tmgrStart s) := by
  unfold State.tmgrStart
  try dsimp only
  repeat' first
    | with_reducible assumption
    | with_reducible apply setBucket_kept
    | with_reducible apply openMinute_kept
    | with_reducible apply foldl_kept
    | intro _
    | split
    | dsimp only

theorem cellStart_kept {kq : List Instr} (s : State) (kh : Kept kq s) : Kept kq (State.cellStart s) := by
  unfold State.cellStart
  try dsimp only
  repeat' first
    | with_reducible assumption
    | with_reducible apply onCell_kept
    | with_reducible apply syncCell_kept
    | intro _
    | split
    | dsimp only

theorem jrnlStart_kept {kq : List Instr} (s : State) (kh : Kept kq s) : Kept kq (State.jrnlStart s) := by
  unfold State.jrnlStart
  try dsimp only
  repeat' first
    | with_reducible assumption
    | with_reducible apply onJrnl_kept
    | with_reducible apply syncJrnl_kept
    | intro _
    | split
    | dsimp only

theorem cmprStart_kept {kq : List Instr} (s : State) (kh : Kept kq s) : Kept kq (State.cmprStart s) := by
  unfold State.cmprStart
  try dsimp only
  repeat' first
    | with_reducible assumption
    | with_reducible apply onCmpr_kept
    | intro _
    | split
    | dsimp only
    | with_reducible apply lit_kept

theorem syncFrames_kept {kq : List Instr} (s : State) (kh : Kept kq s) : Kept kq (State.syncFrames s) := by
  unfold State.syncFrames
  try dsimp only
  repeat' first
    | with_reducible assumption
    | with_reducible apply setF_kept
    | intro _
    | split
    | dsimp only

theorem plceStart_kept {kq : List Instr} (s : State) (kh : Kept kq s) : Kept kq (State.plceStart s) := by
  unfold State.plceStart
  try dsimp only
  repeat' first
    | with_reducible assumption
    | with_reducible apply onPlce_kept
    | with_reducible apply unloadPool_kept
    | with_reducible apply syncFrames_kept
    | with_reducible apply foldl_kept
    | intro _
    | split
    | dsimp only
    | with_reducible apply lit_kept

theorem poolStart_kept {kq : List Instr} (p : Nat) (s : State) (kh : Kept kq s) : Kept kq (State.poolStart p s) := by
  unfold State.poolStart
  try dsimp only
  repeat' first
    | with_reducible assumption
    | with_reducible apply setPool_kept
    | with_reducible apply syncPool_kept
    | with_reducible apply unloadPool_kept
    | intro _
    | split
    | dsimp only

theorem drvpStart_kept {kq : List Instr} (b : Nat) (s : State) (kh : Kept kq s) : Kept kq (State.drvpStart b s) := by
  unfold State.drvpStart
  try dsimp only
  repeat' first
    | with_reducible assumption
    | with_reducible apply emit_kept
    | with_reducible apply onBay_kept
    | intro _
    | split
    | dsimp only

theorem onStarting_kept {kq : List Instr} (p : Page) (s : State) (kh : Kept kq s) : Kept kq (State.onStarting p s) := by
  unfold State.onStarting
  try dsimp only
  repeat' first
    | with_reducible assumption
    | with_reducible apply onFab_kept
    | with_reducible apply setTab_kept
    | with_reducible apply syncVat_kept
    | with_reducible apply startPorts_kept
    | with_reducible apply xprtStart_kept
    | with_reducible apply keysStart_kept
    | with_reducible apply cmdqStart_kept
    | with_reducible apply regnStart_kept
    | with_reducible apply tmgrStart_kept
    | with_reducible apply cellStart_kept
    | with_reducible apply jrnlStart_kept
    | with_reducible apply cmprStart_kept
    | with_reducible apply plceStart_kept
    | with_reducible apply poolStart_kept
    | with_reducible apply drvpStart_kept
    | with_reducible apply foldl_kept
    | intro _
    | split
    | dsimp only
    | with_reducible apply lit_kept

theorem laneStop_kept {kq : List Instr} (n : Nat) (s : State) (kh : Kept kq s) : Kept kq (State.laneStop n s) := by
  unfold State.laneStop
  try dsimp only
  repeat' first
    | with_reducible assumption
    | with_reducible apply portDown_kept
    | intro _
    | split
    | dsimp only

theorem drvpStop_kept {kq : List Instr} (b : Nat) (s : State) (kh : Kept kq s) : Kept kq (State.drvpStop b s) := by
  unfold State.drvpStop
  try dsimp only
  repeat' first
    | with_reducible assumption
    | with_reducible apply emit_kept
    | with_reducible apply setF_kept
    | with_reducible apply bayLost_kept
    | with_reducible apply bayDrain_kept
    | intro _
    | split
    | dsimp only

theorem plceDrain_kept {kq : List Instr} (s : State) (kh : Kept kq s) : Kept kq (State.plceDrain s) := by
  unfold State.plceDrain
  try dsimp only
  repeat' first
    | with_reducible assumption
    | with_reducible apply closeStripe_kept
    | with_reducible apply writeBack_kept
    | with_reducible apply foldl_kept
    | intro _
    | split
    | dsimp only

theorem onDraining_kept {kq : List Instr} (p : Page) (s : State) (kh : Kept kq s) : Kept kq (State.onDraining p s) := by
  unfold State.onDraining
  try dsimp only
  repeat' first
    | with_reducible assumption
    | with_reducible apply when_kept
    | with_reducible apply closeMinute_kept
    | with_reducible apply closeConn_kept
    | with_reducible apply relabel_kept
    | with_reducible apply baypLeave_kept
    | with_reducible apply laneStop_kept
    | with_reducible apply drvpStop_kept
    | with_reducible apply plceDrain_kept
    | with_reducible apply foldl_kept
    | intro _
    | split
    | dsimp only

theorem onStopped_kept {kq : List Instr} (p : Page) (failed : Bool) (s0 : State) (kh : Kept kq s0) : Kept kq (State.onStopped p failed s0) := by
  unfold State.onStopped
  try dsimp only
  repeat' first
    | with_reducible assumption
    | with_reducible apply emit_kept
    | with_reducible apply when_kept
    | with_reducible apply onBay_kept
    | with_reducible apply stopPorts_kept
    | with_reducible apply bayDown_kept
    | with_reducible apply baypLeave_kept
    | with_reducible apply laneStop_kept
    | with_reducible apply drvpStop_kept
    | intro _
    | split
    | dsimp only

theorem onReset_kept {kq : List Instr} (p : Page) (present : Nat) (s : State) (kh : Kept kq s) : Kept kq (State.onReset p present s) := by
  unfold State.onReset
  try dsimp only
  repeat' first
    | with_reducible assumption
    | with_reducible apply onCell_kept
    | with_reducible apply onLine_kept
    | with_reducible apply onVat_kept
    | with_reducible apply setF_kept
    | with_reducible apply syncLane_kept
    | with_reducible apply syncPorts_kept
    | with_reducible apply syncCell_kept
    | with_reducible apply onBay_kept
    | with_reducible apply syncBay_kept
    | with_reducible apply onEp_kept
    | intro _
    | split
    | dsimp only

theorem pageMove_kept {kq : List Instr} (p : Page) (e : PgEv) (s : State) (kh : Kept kq s) : Kept kq (State.pageMove p e s) := by
  unfold State.pageMove
  try dsimp only
  repeat' first
    | with_reducible assumption
    | with_reducible apply pageEv_kept
    | with_reducible apply when_kept
    | with_reducible apply baypEnable_kept
    | with_reducible apply onStarting_kept
    | with_reducible apply onDraining_kept
    | with_reducible apply onStopped_kept
    | with_reducible apply onReset_kept
    | intro _
    | split
    | dsimp only

theorem fwEnable_kept {kq : List Instr} (s : State) (p : Page) (kh : Kept kq s) : Kept kq (State.fwEnable s p) := by
  unfold State.fwEnable
  try dsimp only
  repeat' first
    | with_reducible assumption
    | with_reducible apply pageMove_kept
    | intro _
    | split
    | dsimp only

theorem retirePc_kept {kq : List Instr} (n : Nat) (s : State) (kh : Kept kq s) : Kept kq (State.retirePc n s) := by
  unfold State.retirePc
  try dsimp only
  repeat' first
    | with_reducible assumption
    | with_reducible apply occur_kept
    | with_reducible apply setF_kept
    | with_reducible apply syncFrames_kept
    | intro _
    | split
    | dsimp only

theorem selfTestFail_kept {kq : List Instr} (p : Page) (x : Src) (s : State) (kh : Kept kq s) : Kept kq (State.selfTestFail p x s) := by
  unfold State.selfTestFail
  try dsimp only
  repeat' first
    | with_reducible assumption
    | with_reducible apply occur_kept
    | with_reducible apply pageMove_kept
    | intro _
    | split
    | dsimp only

theorem avsSet_kept {kq : List Instr} (s : State) (kh : Kept kq s) : Kept kq (State.avsSet s) := by
  unfold State.avsSet
  try dsimp only
  repeat' first
    | with_reducible assumption
    | with_reducible apply draw_kept2
    | with_reducible apply emit_kept
    | with_reducible apply onPol_kept
    | intro _
    | split
    | (refine draw_kept ?_ (by with_reducible assumption))
    | dsimp only

theorem coresStarted_kept {kq : List Instr} (bad : List Nat) (s : State) (kh : Kept kq s) : Kept kq (State.coresStarted bad s) := by
  unfold State.coresStarted
  try dsimp only
  repeat' first
    | with_reducible assumption
    | with_reducible apply bootLoad_kept
    | with_reducible apply pageMove_kept
    | with_reducible apply fwEnable_kept
    | with_reducible apply retirePc_kept
    | with_reducible apply avsSet_kept
    | with_reducible apply foldl_kept
    | intro _
    | split
    | dsimp only

theorem lanesStarted_kept {kq : List Instr} (bad : List Nat) (s : State) (kh : Kept kq s) : Kept kq (State.lanesStarted bad s) := by
  unfold State.lanesStarted
  try dsimp only
  repeat' first
    | with_reducible assumption
    | with_reducible apply setF_kept
    | with_reducible apply retireLane_kept
    | with_reducible apply pageMove_kept
    | with_reducible apply selfTestFail_kept
    | with_reducible apply foldl_kept
    | intro _
    | split
    | dsimp only

theorem jrnlStarted_kept {kq : List Instr} (s : State) (kh : Kept kq s) : Kept kq (State.jrnlStarted s) := by
  unfold State.jrnlStarted
  try dsimp only
  repeat' first
    | with_reducible assumption
    | with_reducible apply onPool_kept
    | with_reducible apply syncPool_kept
    | with_reducible apply syncJrnl_kept
    | with_reducible apply pageMove_kept
    | with_reducible apply foldl_kept
    | intro _
    | split
    | dsimp only

theorem startComplete_kept {kq : List Instr} (p : Page) (bad : List Nat) (s : State) (kh : Kept kq s) : Kept kq (State.startComplete p bad s) := by
  unfold State.startComplete
  try dsimp only
  repeat' first
    | with_reducible assumption
    | with_reducible apply pageEv_kept
    | with_reducible apply pageMove_kept
    | with_reducible apply selfTestFail_kept
    | with_reducible apply coresStarted_kept
    | with_reducible apply lanesStarted_kept
    | with_reducible apply jrnlStarted_kept
    | intro _
    | split
    | dsimp only

end Sys2Proof.Machine
end

