-- ==== Sys2Proof/Laws/Kept/PairBase.lean ====
section
/-!
SUPPORT. What the operations of Machine/PairBase.lean keep.
-/
namespace Sys2Proof.Machine
open Sys2Proof

theorem setRole_kept {kq : List Instr} (n : Nat) (s : State) (kh : Kept kq s) : Kept kq (State.setRole n s) := by
  unfold State.setRole
  try dsimp only
  repeat' first
    | with_reducible assumption
    | with_reducible apply setF_kept
    | intro _
    | split
    | dsimp only

theorem setPartner_kept {kq : List Instr} (n : Nat) (s : State) (kh : Kept kq s) : Kept kq (State.setPartner n s) := by
  unfold State.setPartner
  try dsimp only
  repeat' first
    | with_reducible assumption
    | with_reducible apply setF_kept
    | intro _
    | split
    | dsimp only

theorem setMirrorValid_kept {kq : List Instr} (b : Bool) (s : State) (kh : Kept kq s) : Kept kq (State.setMirrorValid b s) := by
  unfold State.setMirrorValid
  try dsimp only
  repeat' first
    | with_reducible assumption
    | with_reducible apply setF_kept
    | intro _
    | split
    | dsimp only

theorem toDiscover_kept {kq : List Instr} (s : State) (kh : Kept kq s) : Kept kq (State.toDiscover s) := by
  unfold State.toDiscover
  try dsimp only
  repeat' first
    | with_reducible assumption
    | with_reducible apply setRole_kept
    | with_reducible apply setMirrorValid_kept
    | intro _
    | split
    | dsimp only

theorem claim_kept {kq : List Instr} (fence : Bool) (s : State) (kh : Kept kq s) : Kept kq (State.claim fence s) := by
  unfold State.claim
  try dsimp only
  repeat' first
    | with_reducible assumption
    | with_reducible apply onPair_kept
    | with_reducible apply when_kept
    | with_reducible apply setFenceOut_kept
    | with_reducible apply setRole_kept
    | intro _
    | split
    | dsimp only

theorem toJoining_kept {kq : List Instr} (s : State) (kh : Kept kq s) : Kept kq (State.toJoining s) := by
  unfold State.toJoining
  try dsimp only
  repeat' first
    | with_reducible assumption
    | with_reducible apply onCmdq_kept
    | with_reducible apply onGard_kept
    | with_reducible apply onJrnl_kept
    | with_reducible apply onPair_kept
    | (with_reducible apply onRegn_kept <;> first | (intro g hg; exact hg) | skip)
    | with_reducible apply onTmgr_kept
    | with_reducible apply onXprt_kept
    | with_reducible apply setF_kept
    | with_reducible apply syncXprt_kept
    | with_reducible apply syncKeys_kept
    | with_reducible apply keyChange_kept
    | with_reducible apply syncRegions_kept
    | with_reducible apply syncCmdq_kept
    | with_reducible apply setPool_kept
    | with_reducible apply syncPool_kept
    | with_reducible apply syncJrnl_kept
    | with_reducible apply unloadPool_kept
    | with_reducible apply fwEnable_kept
    | with_reducible apply setRole_kept
    | with_reducible apply setMirrorValid_kept
    | exact SMap.empty_wf _
    | with_reducible apply foldl_kept
    | intro _
    | split
    | dsimp only

theorem yieldOwn_kept {kq : List Instr} (s : State) (kh : Kept kq s) : Kept kq (State.yieldOwn s) := by
  unfold State.yieldOwn
  try dsimp only
  repeat' first
    | with_reducible assumption
    | with_reducible apply setF_kept
    | with_reducible apply setOwnOut_kept
    | with_reducible apply baysYield_kept
    | intro _
    | split
    | dsimp only

theorem contend_kept {kq : List Instr} (s : State) (kh : Kept kq s) : Kept kq (State.contend s) := by
  unfold State.contend
  try dsimp only
  repeat' first
    | with_reducible assumption
    | with_reducible apply occur_kept
    | with_reducible apply onPair_kept
    | with_reducible apply setRole_kept
    | with_reducible apply toDiscover_kept
    | with_reducible apply yieldOwn_kept
    | intro _
    | split
    | dsimp only

theorem grant_kept {kq : List Instr} (s : State) (kh : Kept kq s) : Kept kq (State.grant s) := by
  unfold State.grant
  try dsimp only
  repeat' first
    | with_reducible assumption
    | with_reducible apply onPair_kept
    | with_reducible apply onTmgr_kept
    | with_reducible apply setF_kept
    | with_reducible apply when_kept
    | with_reducible apply baysAdopt_kept
    | with_reducible apply fwEnable_kept
    | with_reducible apply setRole_kept
    | with_reducible apply setPartner_kept
    | intro _
    | split
    | dsimp only

theorem repeatOp_kept {kq : List Instr} (g : State → State) (n : Nat) (s : State) (kg : ∀ u, Kept kq u → Kept kq (g u)) (kh : Kept kq s) :
    Kept kq (repeatOp g n s) := by
  induction n generalizing s with
  | zero => exact kh
  | succ n ih => exact ih _ (kg _ kh)

theorem withoutPartner_kept {kq : List Instr} (s : State) (kh : Kept kq s) : Kept kq (State.withoutPartner s) := by
  unfold State.withoutPartner
  try dsimp only
  repeat' first
    | with_reducible assumption
    | with_reducible apply onPair_kept
    | with_reducible apply releaseReplies_kept
    | with_reducible apply keyChange_kept
    | with_reducible apply soloWrites_kept
    | with_reducible apply settleSeal_kept
    | with_reducible apply soloRecords_kept
    | with_reducible apply regionConfirm_kept
    | with_reducible apply keyConfirmed_kept
    | with_reducible apply retireAlone_kept
    | with_reducible apply tblConfirm_kept
    | with_reducible apply repeatOp_kept
    | with_reducible apply foldl_kept
    | intro _
    | split
    | dsimp only

theorem partnerLost_kept {kq : List Instr} (s : State) (kh : Kept kq s) : Kept kq (State.partnerLost s) := by
  unfold State.partnerLost
  try dsimp only
  repeat' first
    | with_reducible assumption
    | with_reducible apply occur_kept
    | with_reducible apply onPair_kept
    | with_reducible apply setFenceOut_kept
    | with_reducible apply setPartner_kept
    | with_reducible apply withoutPartner_kept
    | intro _
    | split
    | dsimp only

theorem losePartner_kept {kq : List Instr} (s : State) (kh : Kept kq s) : Kept kq (State.losePartner s) := by
  unfold State.losePartner
  try dsimp only
  repeat' first
    | with_reducible assumption
    | with_reducible apply when_kept
    | with_reducible apply partnerLost_kept
    | intro _
    | split
    | dsimp only

theorem syncLink_kept {kq : List Instr} (s : State) (kh : Kept kq s) : Kept kq (State.syncLink s) := by
  unfold State.syncLink
  try dsimp only
  repeat' first
    | with_reducible assumption
    | with_reducible apply occur_kept
    | with_reducible apply setF_kept
    | with_reducible apply when_kept
    | intro _
    | split
    | dsimp only

theorem pumpAll_kept {kq : List Instr} (s : State) (kh : Kept kq s) : Kept kq (State.pumpAll s) := by
  unfold State.pumpAll
  try dsimp only
  repeat' first
    | with_reducible assumption
    | with_reducible apply pump_kept
    | intro _
    | split
    | dsimp only

theorem sendFrame_kept {kq : List Instr} (item : MirrorItem) (payload : Nat) (s : State) (kh : Kept kq s) : Kept kq (State.sendFrame item payload s) := by
  unfold State.sendFrame
  try dsimp only
  repeat' first
    | with_reducible assumption
    | with_reducible apply count_kept
    | with_reducible apply emit_kept
    | with_reducible apply onPair_kept
    | intro _
    | split
    | dsimp only

theorem syncBegin_kept {kq : List Instr} (s : State) (kh : Kept kq s) : Kept kq (State.syncBegin s) := by
  unfold State.syncBegin
  try dsimp only
  repeat' first
    | with_reducible assumption
    | with_reducible apply onPair_kept
    | with_reducible apply setF_kept
    | with_reducible apply setPartner_kept
    | with_reducible apply pumpAll_kept
    | intro _
    | split
    | dsimp only

theorem checkpointCtx_kept {kq : List Instr} (s : State) (i : Nat) (kh : Kept kq s) : Kept kq (State.checkpointCtx s i) := by
  unfold State.checkpointCtx
  try dsimp only
  repeat' first
    | with_reducible assumption
    | with_reducible apply count_kept
    | with_reducible apply onPair_kept
    | with_reducible apply setF_kept
    | with_reducible apply mirror_kept
    | with_reducible apply acquire_kept
    | intro _
    | split
    | dsimp only

theorem checkpointRound_kept {kq : List Instr} (s : State) (kh : Kept kq s) : Kept kq (State.checkpointRound s) := by
  unfold State.checkpointRound
  try dsimp only
  repeat' first
    | with_reducible assumption
    | with_reducible apply when_kept
    | with_reducible apply mirror_kept
    | with_reducible apply checkpointCtx_kept
    | with_reducible apply foldl_kept
    | intro _
    | split
    | dsimp only

theorem handoverStep_kept {kq : List Instr} (s : State) (kh : Kept kq s) : Kept kq (State.handoverStep s) := by
  unfold State.handoverStep
  try dsimp only
  repeat' first
    | with_reducible assumption
    | with_reducible apply setPartner_kept
    | with_reducible apply toJoining_kept
    | with_reducible apply yieldOwn_kept
    | with_reducible apply sendFrame_kept
    | intro _
    | split
    | dsimp only

theorem release638_kept {kq : List Instr} (s : State) (kh : Kept kq s) : Kept kq (State.release638 s) := by
  unfold State.release638
  try dsimp only
  repeat' first
    | with_reducible assumption
    | with_reducible apply onPair_kept
    | with_reducible apply checkpointRound_kept
    | with_reducible apply handoverStep_kept
    | intro _
    | split
    | dsimp only

theorem writeHealth_kept {kq : List Instr} (s : State) (kh : Kept kq s) : Kept kq (State.writeHealth s) := by
  unfold State.writeHealth
  try dsimp only
  repeat' first
    | with_reducible assumption
    | with_reducible apply onIsland_kept
    | intro _
    | split
    | dsimp only

theorem enterInit_kept {kq : List Instr} (s : State) (kh : Kept kq s) : Kept kq (State.enterInit s) := by
  unfold State.enterInit
  try dsimp only
  repeat' first
    | with_reducible assumption
    | with_reducible apply onPair_kept
    | with_reducible apply setF_kept
    | with_reducible apply setRole_kept
    | intro _
    | split
    | dsimp only

theorem pairOn_kept {kq : List Instr} (s : State) (kh : Kept kq s) : Kept kq (State.pairOn s) := by
  unfold State.pairOn
  try dsimp only
  repeat' first
    | with_reducible assumption
    | with_reducible apply onPair_kept
    | with_reducible apply fwEnable_kept
    | with_reducible apply setRole_kept
    | with_reducible apply foldl_kept
    | intro _
    | split
    | dsimp only

theorem pairDrain_kept {kq : List Instr} (s : State) (kh : Kept kq s) : Kept kq (State.pairDrain s) := by
  unfold State.pairDrain
  try dsimp only
  repeat' first
    | with_reducible assumption
    | with_reducible apply setPartner_kept
    | with_reducible apply withoutPartner_kept
    | with_reducible apply release638_kept
    | intro _
    | split
    | dsimp only

theorem pairReset_kept {kq : List Instr} (owned : Bool) (s : State) (kh : Kept kq s) : Kept kq (State.pairReset owned s) := by
  unfold State.pairReset
  try dsimp only
  repeat' first
    | with_reducible assumption
    | with_reducible apply onPair_kept
    | with_reducible apply when_kept
    | with_reducible apply syncPins_kept
    | with_reducible apply setOwnOut_kept
    | with_reducible apply baysYield_kept
    | with_reducible apply withoutPartner_kept
    | with_reducible apply syncLink_kept
    | with_reducible apply enterInit_kept
    | intro _
    | split
    | dsimp only

theorem pageAct_kept {kq : List Instr} (p : Page) (e : PgEv) (s : State) (kh : Kept kq s) : Kept kq (State.pageAct p e s) := by
  unfold State.pageAct
  try dsimp only
  repeat' first
    | with_reducible assumption
    | with_reducible apply count_kept
    | with_reducible apply pageEv_kept
    | with_reducible apply pageMove_kept
    | with_reducible apply pairOn_kept
    | with_reducible apply pairDrain_kept
    | with_reducible apply pairReset_kept
    | intro _
    | split
    | dsimp only

end Sys2Proof.Machine
end

