-- ==== Sys2Proof/Laws/Kept/PageOps.lean ====
section
/-!
SUPPORT. What the operations of Machine/PageOps.lean keep.
-/
namespace Sys2Proof.Machine
open Sys2Proof

theorem pgCtl_kept {kq : List Instr} (p : Page) (w : Nat) (s : State) (kh : Kept kq s) : Kept kq (State.pgCtl p w s) := by
  unfold State.pgCtl
  try dsimp only
  repeat' first
    | with_reducible assumption
    | with_reducible apply pageAct_kept
    | intro _
    | split
    | dsimp only

theorem pgCtlWrite_kept {kq : List Instr} (p : Page) (w : Nat) (s : State) (kh : Kept kq s) : Kept kq (State.pgCtlWrite p w s) := by
  unfold State.pgCtlWrite
  try dsimp only
  repeat' first
    | with_reducible assumption
    | with_reducible apply pgCtl_kept
    | intro _
    | split
    | dsimp only

theorem execPageEnable_kept {kq : List Instr} {ko : State} (page : Page) (value : BitVec 32) (s : State) (kh : Kept kq s) (ke : execPageEnable page value s = .next ko) : Kept kq ko := by
  unfold execPageEnable at ke
  refine next_kept ?_ ke
  try dsimp only
  repeat' first
    | with_reducible assumption
    | with_reducible apply pgCtlWrite_kept
    | intro _
    | split
    | dsimp only

theorem execPageDrain_kept {kq : List Instr} {ko : State} (page : Page) (value : BitVec 32) (s : State) (kh : Kept kq s) (ke : execPageDrain page value s = .next ko) : Kept kq ko := by
  unfold execPageDrain at ke
  refine next_kept ?_ ke
  try dsimp only
  repeat' first
    | with_reducible assumption
    | with_reducible apply pgCtlWrite_kept
    | intro _
    | split
    | dsimp only

theorem execPageSoftReset_kept {kq : List Instr} {ko : State} (page : Page) (value : BitVec 32) (s : State) (kh : Kept kq s) (ke : execPageSoftReset page value s = .next ko) : Kept kq ko := by
  unfold execPageSoftReset at ke
  refine next_kept ?_ ke
  try dsimp only
  repeat' first
    | with_reducible assumption
    | with_reducible apply pgCtlWrite_kept
    | intro _
    | split
    | dsimp only

theorem execPageRetire_kept {kq : List Instr} {ko : State} (page : Page) (value : BitVec 32) (s : State) (kh : Kept kq s) (ke : execPageRetire page value s = .next ko) : Kept kq ko := by
  unfold execPageRetire at ke
  refine next_kept ?_ ke
  try dsimp only
  repeat' first
    | with_reducible assumption
    | with_reducible apply pgCtlWrite_kept
    | intro _
    | split
    | dsimp only

theorem startEnd_kept {kq : List Instr} (p : Page) (bad : List Nat) (s : State) (kh : Kept kq s) : Kept kq (State.startEnd p bad s) := by
  unfold State.startEnd
  try dsimp only
  repeat' first
    | with_reducible assumption
    | with_reducible apply startComplete_kept
    | with_reducible apply pageAct_kept
    | intro _
    | split
    | dsimp only

theorem startLate_kept {kq : List Instr} (p : Page) (s : State) (kh : Kept kq s) : Kept kq (State.startLate p s) := by
  unfold State.startLate
  try dsimp only
  repeat' first
    | with_reducible assumption
    | with_reducible apply pageAct_kept
    | intro _
    | split
    | dsimp only

theorem drainEnd_kept {kq : List Instr} (p : Page) (s : State) (kh : Kept kq s) : Kept kq (State.drainEnd p s) := by
  unfold State.drainEnd
  try dsimp only
  repeat' first
    | with_reducible assumption
    | with_reducible apply pageAct_kept
    | intro _
    | split
    | dsimp only

theorem execPageStartComplete_kept {kq : List Instr} {ko : State} (page : Page) (bad : List Nat) (s : State) (kh : Kept kq s) (ke : execPageStartComplete page bad s = .next ko) : Kept kq ko := by
  unfold execPageStartComplete at ke
  refine next_kept ?_ ke
  try dsimp only
  repeat' first
    | with_reducible assumption
    | with_reducible apply startEnd_kept
    | intro _
    | split
    | dsimp only

theorem execPageStartTimeout_kept {kq : List Instr} {ko : State} (page : Page) (s : State) (kh : Kept kq s) (ke : execPageStartTimeout page s = .next ko) : Kept kq ko := by
  unfold execPageStartTimeout at ke
  refine next_kept ?_ ke
  try dsimp only
  repeat' first
    | with_reducible assumption
    | with_reducible apply startLate_kept
    | intro _
    | split
    | dsimp only

theorem execPageDrainComplete_kept {kq : List Instr} {ko : State} (page : Page) (s : State) (kh : Kept kq s) (ke : execPageDrainComplete page s = .next ko) : Kept kq ko := by
  unfold execPageDrainComplete at ke
  refine next_kept ?_ ke
  try dsimp only
  repeat' first
    | with_reducible assumption
    | with_reducible apply drainEnd_kept
    | intro _
    | split
    | dsimp only

theorem execPageDrainTimeout_kept {kq : List Instr} {ko : State} (page : Page) (s : State) (kh : Kept kq s) (ke : execPageDrainTimeout page s = .next ko) : Kept kq ko := by
  unfold execPageDrainTimeout at ke
  refine next_kept ?_ ke
  try dsimp only
  repeat' first
    | with_reducible assumption
    | with_reducible apply pageAct_kept
    | intro _
    | split
    | dsimp only

end Sys2Proof.Machine
end

