-- ==== Sys2Proof/Laws/Kept/SwapOps.lean ====
section
/-!
SUPPORT. What the operations of Machine/SwapOps.lean keep.
-/
namespace Sys2Proof.Machine
open Sys2Proof

theorem onSwap_kept {kq : List Instr} (g : SwapSt → SwapSt) (s : State) (kh : Kept kq s) : Kept kq (State.onSwap g s) := by
  unfold State.onSwap
  try dsimp only
  repeat' first
    | with_reducible assumption
    | with_reducible apply onFab_kept
    | intro _
    | split
    | dsimp only

theorem swapIdle_kept {kq : List Instr} (s : State) (kh : Kept kq s) : Kept kq (State.swapIdle s) := by
  unfold State.swapIdle
  try dsimp only
  repeat' first
    | with_reducible assumption
    | with_reducible apply setF_kept
    | with_reducible apply onSwap_kept
    | intro _
    | split
    | dsimp only

theorem swapRejected_kept {kq : List Instr} (code : Nat) (blk : Blk) (inst offset : Nat) (s : State) (kh : Kept kq s) : Kept kq (State.swapRejected code blk inst offset s) := by
  unfold State.swapRejected
  try dsimp only
  repeat' first
    | with_reducible assumption
    | with_reducible apply occur_kept
    | with_reducible apply record_kept
    | with_reducible apply setF_kept
    | with_reducible apply swapIdle_kept
    | intro _
    | split
    | dsimp only

theorem commitTports_kept {kq : List Instr} (s : State) (kh : Kept kq s) : Kept kq (State.commitTports s) := by
  unfold State.commitTports
  try dsimp only
  repeat' first
    | with_reducible assumption
    | with_reducible apply closeConn_kept
    | with_reducible apply enterTimewait_kept
    | with_reducible apply foldl_kept
    | intro _
    | split
    | dsimp only

theorem commitGroups_kept {kq : List Instr} (s : State) (kh : Kept kq s) : Kept kq (State.commitGroups s) := by
  unfold State.commitGroups
  try dsimp only
  repeat' first
    | with_reducible assumption
    | with_reducible apply restartPorts_kept
    | intro _
    | split
    | dsimp only

theorem commitPolicers_kept {kq : List Instr} (s : State) (kh : Kept kq s) : Kept kq (State.commitPolicers s) := by
  unfold State.commitPolicers
  try dsimp only
  repeat' first
    | with_reducible assumption
    | with_reducible apply setBucket_kept
    | with_reducible apply foldl_kept
    | intro _
    | split
    | dsimp only

theorem commitLeaves_kept {kq : List Instr} (s : State) (kh : Kept kq s) : Kept kq (State.commitLeaves s) := by
  unfold State.commitLeaves
  try dsimp only
  repeat' first
    | with_reducible assumption
    | with_reducible apply onTmgr_kept
    | with_reducible apply settleGhost_kept
    | with_reducible apply foldl_kept
    | intro _
    | split
    | dsimp only

theorem commitNamespaces_kept {kq : List Instr} (s : State) (kh : Kept kq s) : Kept kq (State.commitNamespaces s) := by
  unfold State.commitNamespaces
  try dsimp only
  repeat' first
    | with_reducible assumption
    | with_reducible apply setCtrl_kept
    | with_reducible apply raiseEvent_kept
    | with_reducible apply foldl_kept
    | intro _
    | split
    | dsimp only

theorem commitMults_kept {kq : List Instr} (s : State) (kh : Kept kq s) : Kept kq (State.commitMults s) := by
  unfold State.commitMults
  try dsimp only
  repeat' first
    | with_reducible assumption
    | with_reducible apply count_kept
    | with_reducible apply onPol_kept
    | with_reducible apply when_kept
    | with_reducible apply foldl_kept
    | intro _
    | split
    | dsimp only

theorem commitSpares_kept {kq : List Instr} (s : State) (kh : Kept kq s) : Kept kq (State.commitSpares s) := by
  unfold State.commitSpares
  try dsimp only
  repeat' first
    | with_reducible assumption
    | with_reducible apply onPool_kept
    | with_reducible apply addSpare_kept
    | with_reducible apply foldl_kept
    | intro _
    | split
    | dsimp only

theorem commitPins_kept {kq : List Instr} (s : State) (kh : Kept kq s) : Kept kq (State.commitPins s) := by
  unfold State.commitPins
  try dsimp only
  repeat' first
    | with_reducible assumption
    | with_reducible apply lookupPage_kept2
    | with_reducible apply foldl_kept
    | intro _
    | split
    | (refine lookupPage_keptE ?_ (by with_reducible assumption))
    | dsimp only

theorem commitPower_kept {kq : List Instr} (s : State) (kh : Kept kq s) : Kept kq (State.commitPower s) := by
  unfold State.commitPower
  try dsimp only
  repeat' first
    | with_reducible assumption
    | with_reducible apply emit_kept
    | with_reducible apply when_kept
    | with_reducible apply onBay_kept
    | with_reducible apply driveApst_kept
    | with_reducible apply foldl_kept
    | intro _
    | split
    | dsimp only

theorem commitPair_kept {kq : List Instr} (oldEpoch : Nat) (s : State) (kh : Kept kq s) : Kept kq (State.commitPair oldEpoch s) := by
  unfold State.commitPair
  try dsimp only
  repeat' first
    | with_reducible assumption
    | with_reducible apply onPair_kept
    | with_reducible apply setRole_kept
    | with_reducible apply setPartner_kept
    | intro _
    | split
    | dsimp only

theorem commitStatus_kept {kq : List Instr} (s : State) (kh : Kept kq s) : Kept kq (State.commitStatus s) := by
  unfold State.commitStatus
  try dsimp only
  repeat' first
    | with_reducible assumption
    | with_reducible apply syncLane_kept
    | with_reducible apply syncCell_kept
    | with_reducible apply releaseHeld_kept
    | with_reducible apply syncCmdq_kept
    | with_reducible apply syncPool_kept
    | with_reducible apply syncJrnl_kept
    | with_reducible apply foldl_kept
    | intro _
    | split
    | dsimp only

theorem commitSet_kept {kq : List Instr} (epoch : Nat) (s : State) (kh : Kept kq s) : Kept kq (State.commitSet epoch s) := by
  unfold State.commitSet
  try dsimp only
  repeat' first
    | with_reducible assumption
    | with_reducible apply onFab_kept
    | with_reducible apply record_kept
    | with_reducible apply setF_kept
    | with_reducible apply mirrorIf_kept
    | with_reducible apply swapIdle_kept
    | with_reducible apply commitTports_kept
    | with_reducible apply commitGroups_kept
    | with_reducible apply commitPolicers_kept
    | with_reducible apply commitLeaves_kept
    | with_reducible apply commitNamespaces_kept
    | with_reducible apply commitMults_kept
    | with_reducible apply commitSpares_kept
    | with_reducible apply commitPins_kept
    | with_reducible apply commitPower_kept
    | with_reducible apply commitPair_kept
    | with_reducible apply commitStatus_kept
    | with_reducible apply foldl_kept
    | intro _
    | split
    | dsimp only

theorem adoptSet_kept {kq : List Instr} (epoch : Nat) (words : List (Nat × Word)) (entries : List (Page × Nat × Nat × Nat)) (s : State) (kh : Kept kq s) : Kept kq (State.adoptSet epoch words entries s) := by
  unfold State.adoptSet
  try dsimp only
  repeat' first
    | with_reducible assumption
    | with_reducible apply onFab_kept
    | with_reducible apply setTab_kept
    | with_reducible apply commitSet_kept
    | with_reducible apply foldl_kept
    | intro _
    | split
    | dsimp only

theorem swapStart_kept {kq : List Instr} (run : SwapRun) (s : State) (kh : Kept kq s) : Kept kq (State.swapStart run s) := by
  unfold State.swapStart
  try dsimp only
  repeat' first
    | with_reducible assumption
    | with_reducible apply setF_kept
    | with_reducible apply onSwap_kept
    | intro _
    | split
    | dsimp only

theorem swapRevert_kept {kq : List Instr} (s : State) (kh : Kept kq s) : Kept kq (State.swapRevert s) := by
  unfold State.swapRevert
  try dsimp only
  repeat' first
    | with_reducible assumption
    | with_reducible apply swapRejected_kept
    | with_reducible apply swapStart_kept
    | intro _
    | split
    | dsimp only

theorem swapSync_kept {kq : List Instr} (s : State) (kh : Kept kq s) : Kept kq (State.swapSync s) := by
  unfold State.swapSync
  try dsimp only
  repeat' first
    | with_reducible assumption
    | with_reducible apply setF_kept
    | with_reducible apply onSwap_kept
    | intro _
    | split
    | dsimp only

theorem swapCtl_kept {kq : List Instr} (w : Nat) (s : State) (kh : Kept kq s) : Kept kq (State.swapCtl w s) := by
  unfold State.swapCtl
  try dsimp only
  repeat' first
    | with_reducible assumption
    | with_reducible apply count_kept
    | with_reducible apply swapRejected_kept
    | with_reducible apply swapStart_kept
    | with_reducible apply swapRevert_kept
    | with_reducible apply swapSync_kept
    | intro _
    | split
    | dsimp only

theorem execSwapGo_kept {kq : List Instr} {ko : State} (s : State) (kh : Kept kq s) (ke : execSwapGo s = .next ko) : Kept kq ko := by
  unfold execSwapGo at ke
  refine next_kept ?_ ke
  try dsimp only
  repeat' first
    | with_reducible assumption
    | with_reducible apply swapCtl_kept
    | intro _
    | split
    | dsimp only

theorem execSwapRevert_kept {kq : List Instr} {ko : State} (s : State) (kh : Kept kq s) (ke : execSwapRevert s = .next ko) : Kept kq ko := by
  unfold execSwapRevert at ke
  refine next_kept ?_ ke
  try dsimp only
  repeat' first
    | with_reducible assumption
    | with_reducible apply swapCtl_kept
    | intro _
    | split
    | dsimp only

theorem execSwapSync_kept {kq : List Instr} {ko : State} (s : State) (kh : Kept kq s) (ke : execSwapSync s = .next ko) : Kept kq ko := by
  unfold execSwapSync at ke
  refine next_kept ?_ ke
  try dsimp only
  repeat' first
    | with_reducible assumption
    | with_reducible apply swapCtl_kept
    | intro _
    | split
    | dsimp only

theorem execSwapCtlMulti_kept {kq : List Instr} {ko : State} (go revert sync : Bool) (s : State) (kh : Kept kq s) (ke : execSwapCtlMulti go revert sync s = .next ko) : Kept kq ko := by
  unfold execSwapCtlMulti at ke
  refine next_kept ?_ ke
  try dsimp only
  repeat' first
    | with_reducible assumption
    | with_reducible apply swapCtl_kept
    | intro _
    | split
    | dsimp only

theorem swapReject_kept {kq : List Instr} (p : Page) (s : State) (kh : Kept kq s) : Kept kq (State.swapReject p s) := by
  unfold State.swapReject
  try dsimp only
  repeat' first
    | with_reducible assumption
    | with_reducible apply swapRejected_kept
    | intro _
    | split
    | dsimp only

theorem swapCommit_kept {kq : List Instr} (s : State) (kh : Kept kq s) : Kept kq (State.swapCommit s) := by
  unfold State.swapCommit
  try dsimp only
  repeat' first
    | with_reducible assumption
    | with_reducible apply commitSet_kept
    | intro _
    | split
    | dsimp only

theorem execSwapReject_kept {kq : List Instr} {ko : State} (page : Page) (s : State) (kh : Kept kq s) (ke : execSwapReject page s = .next ko) : Kept kq ko := by
  unfold execSwapReject at ke
  refine next_kept ?_ ke
  try dsimp only
  repeat' first
    | with_reducible assumption
    | with_reducible apply swapReject_kept
    | intro _
    | split
    | dsimp only

theorem execSwapCommit_kept {kq : List Instr} {ko : State} (s : State) (kh : Kept kq s) (ke : execSwapCommit s = .next ko) : Kept kq ko := by
  unfold execSwapCommit at ke
  refine next_kept ?_ ke
  try dsimp only
  repeat' first
    | with_reducible assumption
    | with_reducible apply swapCommit_kept
    | intro _
    | split
    | dsimp only

theorem execSafePointTimeout_kept {kq : List Instr} {ko : State} (page : Page) (s : State) (kh : Kept kq s) (ke : execSafePointTimeout page s = .next ko) : Kept kq ko := by
  unfold execSafePointTimeout at ke
  refine next_kept ?_ ke
  try dsimp only
  repeat' first
    | with_reducible assumption
    | with_reducible apply swapRejected_kept
    | intro _
    | split
    | dsimp only

theorem syncDone_kept {kq : List Instr} (s : State) (kh : Kept kq s) : Kept kq (State.syncDone s) := by
  unfold State.syncDone
  try dsimp only
  repeat' first
    | with_reducible assumption
    | with_reducible apply onFab_kept
    | with_reducible apply setF_kept
    | with_reducible apply swapIdle_kept
    | intro _
    | split
    | dsimp only

theorem execSyncComplete_kept {kq : List Instr} {ko : State} (s : State) (kh : Kept kq s) (ke : execSyncComplete s = .next ko) : Kept kq ko := by
  unfold execSyncComplete at ke
  refine next_kept ?_ ke
  try dsimp only
  repeat' first
    | with_reducible assumption
    | with_reducible apply syncDone_kept
    | intro _
    | split
    | dsimp only

theorem swapAbandon_kept {kq : List Instr} (s : State) (kh : Kept kq s) : Kept kq (State.swapAbandon s) := by
  unfold State.swapAbandon
  try dsimp only
  repeat' first
    | with_reducible assumption
    | with_reducible apply swapIdle_kept
    | intro _
    | split
    | dsimp only

theorem powerFailed_kept {kq : List Instr} (s : State) (kh : Kept kq s) : Kept kq (State.powerFailed s) := by
  unfold State.powerFailed
  try dsimp only
  repeat' first
    | with_reducible assumption
    | with_reducible apply beginSave_kept
    | with_reducible apply fwAbandon_kept
    | with_reducible apply swapAbandon_kept
    | intro _
    | split
    | dsimp only

theorem execPowerFailRecognised_kept {kq : List Instr} {ko : State} (s : State) (kh : Kept kq s) (ke : execPowerFailRecognised s = .next ko) : Kept kq ko := by
  unfold execPowerFailRecognised at ke
  refine next_kept ?_ ke
  try dsimp only
  repeat' first
    | with_reducible assumption
    | with_reducible apply powerFailed_kept
    | intro _
    | split
    | dsimp only

end Sys2Proof.Machine
end

