-- ==== Sys2Proof/Laws/Kept/MirrorOps.lean ====
section
/-!
SUPPORT. What the operations of Machine/MirrorOps.lean keep.
-/
namespace Sys2Proof.Machine
open Sys2Proof

theorem mirrorTable_kept {kq : List Instr} (p : Page) (table i x : Nat) (s : State) (kh : Kept kq s) : Kept kq (State.mirrorTable p table i x s) := by
  unfold State.mirrorTable
  try dsimp only
  repeat' first
    | with_reducible assumption
    | with_reducible apply count_kept
    | with_reducible apply onGard_kept
    | (with_reducible apply onRegn_kept <;> first | (intro g hg; exact hg) | skip)
    | with_reducible apply setF_kept
    | with_reducible apply setKey_kept
    | with_reducible apply syncKeys_kept
    | with_reducible apply setRegion_kept
    | with_reducible apply syncRegions_kept
    | (refine memZero_wf _ _ _ ?_; assumption)
    | intro _
    | split
    | dsimp only

theorem setMirRec_kept {kq : List Instr} (at' : Nat) (r : MirRec) (s : State) (kh : Kept kq s) : Kept kq (State.setMirRec at' r s) := by
  unfold State.setMirRec
  try dsimp only
  repeat' first
    | with_reducible assumption
    | with_reducible apply onPair_kept
    | intro _
    | split
    | dsimp only

theorem mirHead_kept {kq : List Instr} (at' : Nat) (h : RestRec) (s : State) (kh : Kept kq s) : Kept kq (State.mirHead at' h s) := by
  unfold State.mirHead
  try dsimp only
  repeat' first
    | with_reducible assumption
    | with_reducible apply onPair_kept
    | with_reducible apply setMirRec_kept
    | intro _
    | split
    | dsimp only

theorem mirData_kept {kq : List Instr} (at' : Nat) (d : Blob) (s : State) (kh : Kept kq s) : Kept kq (State.mirData at' d s) := by
  unfold State.mirData
  try dsimp only
  repeat' first
    | with_reducible assumption
    | with_reducible apply setMirRec_kept
    | intro _
    | split
    | dsimp only

theorem placePeer_kept {kq : List Instr} (at' : Nat) (d : PeerData) (s : State) (kh : Kept kq s) : Kept kq (State.placePeer at' d s) := by
  unfold State.placePeer
  try dsimp only
  repeat' first
    | with_reducible assumption
    | (with_reducible apply onRegn_kept <;> first | (intro g hg; with_reducible exact memWrite_wf _ _ _ hg) | skip)
    | with_reducible apply markDirty_kept
    | with_reducible apply mirrorTable_kept
    | with_reducible apply mirHead_kept
    | with_reducible apply mirData_kept
    | (refine memPieces_wf _ _ _ ?_; assumption)
    | (refine memWrite_wf _ _ _ ?_; assumption)
    | intro _
    | split
    | dsimp only

theorem windowed_kept {kq : List Instr} (h : PeerHdr) (d : PeerData) (s : State) (kh : Kept kq s) : Kept kq (State.windowed h d s) := by
  unfold State.windowed
  try dsimp only
  repeat' first
    | with_reducible assumption
    | with_reducible apply count_kept
    | with_reducible apply emit_kept
    | with_reducible apply occur_kept
    | with_reducible apply placePeer_kept
    | intro _
    | split
    | dsimp only

theorem onMirCtx_kept {kq : List Instr} (i : Nat) (g : MirCtx → MirCtx) (s : State) (kh : Kept kq s) : Kept kq (State.onMirCtx i g s) := by
  unfold State.onMirCtx
  try dsimp only
  repeat' first
    | with_reducible assumption
    | with_reducible apply onPair_kept
    | intro _
    | split
    | dsimp only

theorem onMirCmd_kept {kq : List Instr} (n : Nat) (g : MirCmd → MirCmd) (s : State) (kh : Kept kq s) : Kept kq (State.onMirCmd n g s) := by
  unfold State.onMirCmd
  try dsimp only
  repeat' first
    | with_reducible assumption
    | with_reducible apply onPair_kept
    | intro _
    | split
    | dsimp only

theorem mirrorEntries_kept {kq : List Instr} (v wgen maxSeq : Nat) (es : List (Nat × Nat)) (s : State) (kh : Kept kq s) : Kept kq (State.mirrorEntries v wgen maxSeq es s) := by
  unfold State.mirrorEntries
  try dsimp only
  repeat' first
    | with_reducible assumption
    | with_reducible apply onPlce_kept
    | with_reducible apply syncMap_kept
    | with_reducible apply foldl_kept
    | intro _
    | split
    | dsimp only

theorem mirrorDirectory_kept {kq : List Instr} (k slot wgen maxSeq : Nat) (dirty : Bool) (s : State) (kh : Kept kq s) : Kept kq (State.mirrorDirectory k slot wgen maxSeq dirty s) := by
  unfold State.mirrorDirectory
  try dsimp only
  repeat' first
    | with_reducible assumption
    | with_reducible apply onPlce_kept
    | with_reducible apply syncMap_kept
    | intro _
    | split
    | dsimp only

theorem mirrorPool_kept {kq : List Instr} (p : Nat) (l : PoolLabel) (logGen : Nat) (losses : List (Nat × Nat × Nat × Nat × Nat × Bool)) (s : State) (kh : Kept kq s) : Kept kq (State.mirrorPool p l logGen losses s) := by
  unfold State.mirrorPool
  try dsimp only
  repeat' first
    | with_reducible assumption
    | with_reducible apply onPool_kept
    | with_reducible apply syncPool_kept
    | intro _
    | split
    | dsimp only

theorem applyRecord_kept {kq : List Instr} (r : PeerRec) (s : State) (kh : Kept kq s) : Kept kq (State.applyRecord r s) := by
  unfold State.applyRecord
  try dsimp only
  repeat' first
    | with_reducible assumption
    | with_reducible apply onPair_kept
    | (with_reducible apply onRegn_kept <;> first | (intro g hg; exact hg) | skip)
    | with_reducible apply onTmgr_kept
    | with_reducible apply setF_kept
    | with_reducible apply setSub_kept
    | with_reducible apply dropSub_kept
    | with_reducible apply onPool_kept
    | with_reducible apply onSeg_kept
    | with_reducible apply meterAck_kept
    | with_reducible apply adoptSet_kept
    | with_reducible apply mirrorTable_kept
    | with_reducible apply setMirRec_kept
    | with_reducible apply onMirCtx_kept
    | with_reducible apply onMirCmd_kept
    | with_reducible apply mirrorEntries_kept
    | with_reducible apply mirrorDirectory_kept
    | with_reducible apply mirrorPool_kept
    | intro _
    | split
    | dsimp only

theorem applyCkpt_kept {kq : List Instr} (c : PeerCkpt) (s : State) (kh : Kept kq s) : Kept kq (State.applyCkpt c s) := by
  unfold State.applyCkpt
  try dsimp only
  repeat' first
    | with_reducible assumption
    | with_reducible apply onGard_kept
    | with_reducible apply onTmgr_kept
    | with_reducible apply setF_kept
    | with_reducible apply setKeySlot_kept
    | with_reducible apply onMirCtx_kept
    | intro _
    | split
    | dsimp only

theorem rxBytes_kept {kq : List Instr} (n : Nat) (s : State) (kh : Kept kq s) : Kept kq (State.rxBytes n s) := by
  unfold State.rxBytes
  try dsimp only
  repeat' first
    | with_reducible assumption
    | with_reducible apply count_kept
    | intro _
    | split
    | dsimp only

theorem confirmPeer_kept {kq : List Instr} (h : PeerHdr) (s : State) (kh : Kept kq s) : Kept kq (State.confirmPeer h s) := by
  unfold State.confirmPeer
  try dsimp only
  repeat' first
    | with_reducible assumption
    | with_reducible apply emit_kept
    | intro _
    | split
    | dsimp only

theorem itemConfirmed_kept {kq : List Instr} (item : MirrorItem) (s : State) (kh : Kept kq s) : Kept kq (State.itemConfirmed item s) := by
  unfold State.itemConfirmed
  try dsimp only
  repeat' first
    | with_reducible assumption
    | with_reducible apply onRx_kept
    | with_reducible apply releaseReplies_kept
    | with_reducible apply keyChange_kept
    | with_reducible apply confirmWrite_kept
    | with_reducible apply setRec_kept
    | with_reducible apply stepRec_kept
    | with_reducible apply regionChange_kept
    | with_reducible apply regionConfirm_kept
    | with_reducible apply keyConfirmed_kept
    | with_reducible apply tblConfirm_kept
    | intro _
    | split
    | dsimp only

theorem confirmed_kept {kq : List Instr} (group lseq : Nat) (s : State) (kh : Kept kq s) : Kept kq (State.confirmed group lseq s) := by
  unfold State.confirmed
  try dsimp only
  repeat' first
    | with_reducible assumption
    | with_reducible apply onPair_kept
    | with_reducible apply settleSeal_kept
    | with_reducible apply pumpAll_kept
    | with_reducible apply handoverStep_kept
    | with_reducible apply itemConfirmed_kept
    | with_reducible apply foldl_kept
    | intro _
    | split
    | dsimp only

theorem linkAcked_kept {kq : List Instr} (group lack : Nat) (resend : Bool) (s : State) (kh : Kept kq s) : Kept kq (State.linkAcked group lack resend s) := by
  unfold State.linkAcked
  try dsimp only
  repeat' first
    | with_reducible assumption
    | with_reducible apply count_kept
    | with_reducible apply emit_kept
    | with_reducible apply onPair_kept
    | with_reducible apply pumpAll_kept
    | with_reducible apply foldl_kept
    | intro _
    | split
    | dsimp only

end Sys2Proof.Machine
end

