-- ==== Sys2Proof/Laws/Kept/PairExec.lean ====
section
/-!
SUPPORT. What the operations of Machine/PairExec.lean keep.
-/
namespace Sys2Proof.Machine
open Sys2Proof

theorem hbMissing_kept {kq : List Instr} (s : State) (kh : Kept kq s) : Kept kq (State.hbMissing s) := by
  unfold State.hbMissing
  try dsimp only
  repeat' first
    | with_reducible assumption
    | with_reducible apply occur_kept
    | with_reducible apply onIsland_kept
    | with_reducible apply when_kept
    | with_reducible apply syncPins_kept
    | with_reducible apply claim_kept
    | with_reducible apply losePartner_kept
    | intro _
    | split
    | dsimp only

theorem execHeartbeatTimeout_kept {kq : List Instr} {ko : State} (s : State) (kh : Kept kq s) (ke : execHeartbeatTimeout s = .next ko) : Kept kq ko := by
  unfold execHeartbeatTimeout at ke
  refine next_kept ?_ ke
  try dsimp only
  repeat' first
    | with_reducible assumption
    | with_reducible apply hbMissing_kept
    | intro _
    | split
    | dsimp only

theorem execHbWatchdogExpiry_kept {kq : List Instr} {ko : State} (s : State) (kh : Kept kq s) (ke : execHbWatchdogExpiry s = .next ko) : Kept kq ko := by
  unfold execHbWatchdogExpiry at ke
  refine next_kept ?_ ke
  try dsimp only
  repeat' first
    | with_reducible assumption
    | with_reducible apply onPair_kept
    | intro _
    | split
    | dsimp only

theorem ownInChange_kept {kq : List Instr} (on : Bool) (s : State) (kh : Kept kq s) : Kept kq (State.ownInChange on s) := by
  unfold State.ownInChange
  try dsimp only
  repeat' first
    | with_reducible assumption
    | with_reducible apply onIsland_kept
    | with_reducible apply onPair_kept
    | with_reducible apply syncPins_kept
    | with_reducible apply setOwnOut_kept
    | with_reducible apply contend_kept
    | intro _
    | split
    | dsimp only

theorem execOwnInChange_kept {kq : List Instr} {ko : State} (asserted : Bool) (s : State) (kh : Kept kq s) (ke : execOwnInChange asserted s = .next ko) : Kept kq ko := by
  unfold execOwnInChange at ke
  refine next_kept ?_ ke
  try dsimp only
  repeat' first
    | with_reducible assumption
    | with_reducible apply ownInChange_kept
    | intro _
    | split
    | dsimp only

theorem execOwnClaimAssert_kept {kq : List Instr} {ko : State} (s : State) (kh : Kept kq s) (ke : execOwnClaimAssert s = .next ko) : Kept kq ko := by
  unfold execOwnClaimAssert at ke
  refine next_kept ?_ ke
  try dsimp only
  repeat' first
    | with_reducible assumption
    | with_reducible apply setOwnOut_kept
    | intro _
    | split
    | dsimp only

theorem execOwnershipGrant_kept {kq : List Instr} {ko : State} (s : State) (kh : Kept kq s) (ke : execOwnershipGrant s = .next ko) : Kept kq ko := by
  unfold execOwnershipGrant at ke
  refine next_kept ?_ ke
  try dsimp only
  repeat' first
    | with_reducible assumption
    | with_reducible apply grant_kept
    | intro _
    | split
    | dsimp only

theorem execClaimBackoffEnd_kept {kq : List Instr} {ko : State} (s : State) (kh : Kept kq s) (ke : execClaimBackoffEnd s = .next ko) : Kept kq ko := by
  unfold execClaimBackoffEnd at ke
  refine next_kept ?_ ke
  try dsimp only
  repeat' first
    | with_reducible assumption
    | with_reducible apply occur_kept
    | with_reducible apply onPair_kept
    | with_reducible apply setRole_kept
    | intro _
    | split
    | dsimp only

theorem execDiscoverTimeout_kept {kq : List Instr} {ko : State} (s : State) (kh : Kept kq s) (ke : execDiscoverTimeout s = .next ko) : Kept kq ko := by
  unfold execDiscoverTimeout at ke
  refine next_kept ?_ ke
  try dsimp only
  repeat' first
    | with_reducible assumption
    | with_reducible apply claim_kept
    | intro _
    | split
    | dsimp only

theorem acceptFence_kept {kq : List Instr} (s : State) (kh : Kept kq s) : Kept kq (State.acceptFence s) := by
  unfold State.acceptFence
  try dsimp only
  repeat' first
    | with_reducible assumption
    | with_reducible apply emit_kept
    | with_reducible apply onIsland_kept
    | with_reducible apply setOwnOut_kept
    | with_reducible apply coreReset_kept
    | with_reducible apply setRole_kept
    | with_reducible apply writeHealth_kept
    | intro _
    | split
    | dsimp only

theorem fenceIn_kept {kq : List Instr} (s : State) (kh : Kept kq s) : Kept kq (State.fenceIn s) := by
  unfold State.fenceIn
  try dsimp only
  repeat' first
    | with_reducible assumption
    | with_reducible apply onIsland_kept
    | with_reducible apply syncPins_kept
    | with_reducible apply setFenceOut_kept
    | with_reducible apply acceptFence_kept
    | intro _
    | split
    | dsimp only

theorem execFenceInAssert_kept {kq : List Instr} {ko : State} (s : State) (kh : Kept kq s) (ke : execFenceInAssert s = .next ko) : Kept kq ko := by
  unfold execFenceInAssert at ke
  refine next_kept ?_ ke
  try dsimp only
  repeat' first
    | with_reducible assumption
    | with_reducible apply fenceIn_kept
    | intro _
    | split
    | dsimp only

theorem startUp_kept {kq : List Instr} (s : State) (kh : Kept kq s) : Kept kq (State.startUp s) := by
  unfold State.startUp
  try dsimp only
  repeat' first
    | with_reducible assumption
    | with_reducible apply fwEnable_kept
    | with_reducible apply foldl_kept
    | intro _
    | split
    | dsimp only

theorem fenceInEnd_kept {kq : List Instr} (s : State) (kh : Kept kq s) : Kept kq (State.fenceInEnd s) := by
  unfold State.fenceInEnd
  try dsimp only
  repeat' first
    | with_reducible assumption
    | with_reducible apply onIsland_kept
    | with_reducible apply syncPins_kept
    | with_reducible apply enterInit_kept
    | with_reducible apply fenceIn_kept
    | with_reducible apply startUp_kept
    | intro _
    | split
    | dsimp only

theorem execFenceInDeassert_kept {kq : List Instr} {ko : State} (s : State) (kh : Kept kq s) (ke : execFenceInDeassert s = .next ko) : Kept kq ko := by
  unfold execFenceInDeassert at ke
  refine next_kept ?_ ke
  try dsimp only
  repeat' first
    | with_reducible assumption
    | with_reducible apply fenceInEnd_kept
    | intro _
    | split
    | dsimp only

theorem pairRt_kept {kq : List Instr} (w : Nat) (s : State) (kh : Kept kq s) : Kept kq (State.pairRt w s) := by
  unfold State.pairRt
  try dsimp only
  repeat' first
    | with_reducible assumption
    | with_reducible apply setFenceOut_kept
    | with_reducible apply claim_kept
    | with_reducible apply release638_kept
    | intro _
    | split
    | dsimp only

theorem execUnfence_kept {kq : List Instr} {ko : State} (s : State) (kh : Kept kq s) (ke : execUnfence s = .next ko) : Kept kq ko := by
  unfold execUnfence at ke
  refine next_kept ?_ ke
  try dsimp only
  repeat' first
    | with_reducible assumption
    | with_reducible apply pairRt_kept
    | intro _
    | split
    | dsimp only

theorem execForceClaim_kept {kq : List Instr} {ko : State} (s : State) (kh : Kept kq s) (ke : execForceClaim s = .next ko) : Kept kq ko := by
  unfold execForceClaim at ke
  refine next_kept ?_ ke
  try dsimp only
  repeat' first
    | with_reducible assumption
    | with_reducible apply pairRt_kept
    | intro _
    | split
    | dsimp only

theorem execRelease_kept {kq : List Instr} {ko : State} (s : State) (kh : Kept kq s) (ke : execRelease s = .next ko) : Kept kq ko := by
  unfold execRelease at ke
  refine next_kept ?_ ke
  try dsimp only
  repeat' first
    | with_reducible assumption
    | with_reducible apply pairRt_kept
    | intro _
    | split
    | dsimp only

theorem mayJoin_kept {kq : List Instr} (s : State) (kh : Kept kq s) : Kept kq (State.mayJoin s) := by
  unfold State.mayJoin
  try dsimp only
  repeat' first
    | with_reducible assumption
    | with_reducible apply toJoining_kept
    | intro _
    | split
    | dsimp only

theorem britosUp_kept {kq : List Instr} (ver : Nat) (lanes : List Nat) (s : State) (kh : Kept kq s) : Kept kq (State.britosUp ver lanes s) := by
  unfold State.britosUp
  try dsimp only
  repeat' first
    | with_reducible assumption
    | with_reducible apply occur_kept
    | with_reducible apply onPair_kept
    | with_reducible apply setF_kept
    | with_reducible apply syncLink_kept
    | with_reducible apply pumpAll_kept
    | with_reducible apply mayJoin_kept
    | intro _
    | split
    | dsimp only

theorem execBritosLinkUp_kept {kq : List Instr} {ko : State} (version : Nat) (lanes : List Nat) (s : State) (kh : Kept kq s) (ke : execBritosLinkUp version lanes s = .next ko) : Kept kq ko := by
  unfold execBritosLinkUp at ke
  refine next_kept ?_ ke
  try dsimp only
  repeat' first
    | with_reducible assumption
    | with_reducible apply britosUp_kept
    | intro _
    | split
    | dsimp only

theorem britosLost_kept {kq : List Instr} (s : State) (kh : Kept kq s) : Kept kq (State.britosLost s) := by
  unfold State.britosLost
  try dsimp only
  repeat' first
    | with_reducible assumption
    | with_reducible apply onPair_kept
    | with_reducible apply toDiscover_kept
    | with_reducible apply losePartner_kept
    | with_reducible apply syncLink_kept
    | intro _
    | split
    | dsimp only

theorem execBritosLinkLoss_kept {kq : List Instr} {ko : State} (s : State) (kh : Kept kq s) (ke : execBritosLinkLoss s = .next ko) : Kept kq ko := by
  unfold execBritosLinkLoss at ke
  refine next_kept ?_ ke
  try dsimp only
  repeat' first
    | with_reducible assumption
    | with_reducible apply britosLost_kept
    | intro _
    | split
    | dsimp only

theorem britosLaneDown_kept {kq : List Instr} (n : Nat) (s : State) (kh : Kept kq s) : Kept kq (State.britosLaneDown n s) := by
  unfold State.britosLaneDown
  try dsimp only
  repeat' first
    | with_reducible assumption
    | with_reducible apply occur_kept
    | with_reducible apply onPair_kept
    | with_reducible apply syncLink_kept
    | intro _
    | split
    | dsimp only

theorem execBritosLaneLockLoss_kept {kq : List Instr} {ko : State} (lane : Nat) (s : State) (kh : Kept kq s) (ke : execBritosLaneLockLoss lane s = .next ko) : Kept kq ko := by
  unfold execBritosLaneLockLoss at ke
  refine next_kept ?_ ke
  try dsimp only
  repeat' first
    | with_reducible assumption
    | with_reducible apply britosLaneDown_kept
    | intro _
    | split
    | dsimp only

theorem britosLaneUp_kept {kq : List Instr} (n : Nat) (s : State) (kh : Kept kq s) : Kept kq (State.britosLaneUp n s) := by
  unfold State.britosLaneUp
  try dsimp only
  repeat' first
    | with_reducible assumption
    | with_reducible apply onPair_kept
    | with_reducible apply syncLink_kept
    | with_reducible apply pumpAll_kept
    | with_reducible apply mayJoin_kept
    | intro _
    | split
    | dsimp only

theorem execBritosLaneUp_kept {kq : List Instr} {ko : State} (lane : Nat) (s : State) (kh : Kept kq s) (ke : execBritosLaneUp lane s = .next ko) : Kept kq ko := by
  unfold execBritosLaneUp at ke
  refine next_kept ?_ ke
  try dsimp only
  repeat' first
    | with_reducible assumption
    | with_reducible apply britosLaneUp_kept
    | intro _
    | split
    | dsimp only

theorem execBritosFrameCrcErr_kept {kq : List Instr} {ko : State} (s : State) (kh : Kept kq s) (ke : execBritosFrameCrcErr s = .next ko) : Kept kq ko := by
  unfold execBritosFrameCrcErr at ke
  refine next_kept ?_ ke
  try dsimp only
  repeat' first
    | with_reducible assumption
    | with_reducible apply count_kept
    | intro _
    | split
    | dsimp only

theorem execLinkAckRx_kept {kq : List Instr} {ko : State} (group lack : Nat) (resend : Bool) (s : State) (kh : Kept kq s) (ke : execLinkAckRx group lack resend s = .next ko) : Kept kq ko := by
  unfold execLinkAckRx at ke
  refine next_kept ?_ ke
  try dsimp only
  repeat' first
    | with_reducible assumption
    | with_reducible apply linkAcked_kept
    | intro _
    | split
    | dsimp only

theorem execMirrorWriteRx_kept {kq : List Instr} {ko : State} (hdr : PeerHdr) (data : PeerData) (s : State) (kh : Kept kq s) (ke : execMirrorWriteRx hdr data s = .next ko) : Kept kq ko := by
  unfold execMirrorWriteRx at ke
  refine next_kept ?_ ke
  try dsimp only
  repeat' first
    | with_reducible assumption
    | with_reducible apply windowed_kept
    | with_reducible apply rxBytes_kept
    | intro _
    | split
    | dsimp only

theorem execMirrorConfirmRx_kept {kq : List Instr} {ko : State} (group lseq : Nat) (s : State) (kh : Kept kq s) (ke : execMirrorConfirmRx group lseq s = .next ko) : Kept kq ko := by
  unfold execMirrorConfirmRx at ke
  refine next_kept ?_ ke
  try dsimp only
  repeat' first
    | with_reducible assumption
    | with_reducible apply confirmed_kept
    | intro _
    | split
    | dsimp only

theorem execCheckpointRx_kept {kq : List Instr} {ko : State} (hdr : PeerHdr) (data : PeerCkpt) (s : State) (kh : Kept kq s) (ke : execCheckpointRx hdr data s = .next ko) : Kept kq ko := by
  unfold execCheckpointRx at ke
  refine next_kept ?_ ke
  try dsimp only
  repeat' first
    | with_reducible assumption
    | with_reducible apply count_kept
    | with_reducible apply applyCkpt_kept
    | with_reducible apply rxBytes_kept
    | with_reducible apply confirmPeer_kept
    | intro _
    | split
    | dsimp only

theorem execRecordRx_kept {kq : List Instr} {ko : State} (hdr : PeerHdr) (record : PeerRec) (s : State) (kh : Kept kq s) (ke : execRecordRx hdr record s = .next ko) : Kept kq ko := by
  unfold execRecordRx at ke
  refine next_kept ?_ ke
  try dsimp only
  repeat' first
    | with_reducible assumption
    | with_reducible apply record_kept
    | with_reducible apply applyRecord_kept
    | with_reducible apply rxBytes_kept
    | with_reducible apply confirmPeer_kept
    | intro _
    | split
    | dsimp only

theorem syncFrame_kept {kq : List Instr} (h : PeerHdr) (d : PeerSync) (s : State) (kh : Kept kq s) : Kept kq (State.syncFrame h d s) := by
  unfold State.syncFrame
  try dsimp only
  repeat' first
    | with_reducible assumption
    | with_reducible apply count_kept
    | with_reducible apply draw_kept2
    | with_reducible apply setF_kept
    | with_reducible apply windowed_kept
    | with_reducible apply applyRecord_kept
    | with_reducible apply rxBytes_kept
    | with_reducible apply confirmPeer_kept
    | intro _
    | split
    | (refine draw_kept ?_ (by with_reducible assumption))
    | dsimp only

theorem execSyncDataRx_kept {kq : List Instr} {ko : State} (hdr : PeerHdr) (data : PeerSync) (s : State) (kh : Kept kq s) (ke : execSyncDataRx hdr data s = .next ko) : Kept kq ko := by
  unfold execSyncDataRx at ke
  refine next_kept ?_ ke
  try dsimp only
  repeat' first
    | with_reducible assumption
    | with_reducible apply syncFrame_kept
    | intro _
    | split
    | dsimp only

theorem syncComplete_kept {kq : List Instr} (s : State) (kh : Kept kq s) : Kept kq (State.syncComplete s) := by
  unfold State.syncComplete
  try dsimp only
  repeat' first
    | with_reducible assumption
    | with_reducible apply onJrnl_kept
    | with_reducible apply setF_kept
    | with_reducible apply soloWrites_kept
    | with_reducible apply opened_kept
    | with_reducible apply soloRecords_kept
    | with_reducible apply invalidateHeaders_kept
    | with_reducible apply setRole_kept
    | with_reducible apply setPartner_kept
    | with_reducible apply setMirrorValid_kept
    | intro _
    | split
    | dsimp only

theorem execSyncCompletePair_kept {kq : List Instr} {ko : State} (s : State) (kh : Kept kq s) (ke : execSyncCompletePair s = .next ko) : Kept kq ko := by
  unfold execSyncCompletePair at ke
  refine next_kept ?_ ke
  try dsimp only
  repeat' first
    | with_reducible assumption
    | with_reducible apply syncComplete_kept
    | intro _
    | split
    | dsimp only

theorem healthRx_kept {kq : List Instr} (x : Nat) (s : State) (kh : Kept kq s) : Kept kq (State.healthRx x s) := by
  unfold State.healthRx
  try dsimp only
  repeat' first
    | with_reducible assumption
    | with_reducible apply onIsland_kept
    | with_reducible apply onPair_kept
    | with_reducible apply when_kept
    | with_reducible apply syncPins_kept
    | with_reducible apply setPartner_kept
    | with_reducible apply toDiscover_kept
    | with_reducible apply losePartner_kept
    | with_reducible apply syncBegin_kept
    | with_reducible apply rxBytes_kept
    | with_reducible apply mayJoin_kept
    | intro _
    | split
    | dsimp only

theorem execHealthRx_kept {kq : List Instr} {ko : State} (record : Nat) (s : State) (kh : Kept kq s) (ke : execHealthRx record s = .next ko) : Kept kq ko := by
  unfold execHealthRx at ke
  refine next_kept ?_ ke
  try dsimp only
  repeat' first
    | with_reducible assumption
    | with_reducible apply record_kept
    | with_reducible apply healthRx_kept
    | intro _
    | split
    | dsimp only

theorem execHandoverRx_kept {kq : List Instr} {ko : State} (s : State) (kh : Kept kq s) (ke : execHandoverRx s = .next ko) : Kept kq ko := by
  unfold execHandoverRx at ke
  refine next_kept ?_ ke
  try dsimp only
  repeat' first
    | with_reducible assumption
    | with_reducible apply claim_kept
    | with_reducible apply rxBytes_kept
    | intro _
    | split
    | dsimp only

theorem execCheckpointRound_kept {kq : List Instr} {ko : State} (s : State) (kh : Kept kq s) (ke : execCheckpointRound s = .next ko) : Kept kq ko := by
  unfold execCheckpointRound at ke
  refine next_kept ?_ ke
  try dsimp only
  repeat' first
    | with_reducible assumption
    | with_reducible apply checkpointRound_kept
    | intro _
    | split
    | dsimp only

theorem execHealthRecordWrite_kept {kq : List Instr} {ko : State} (s : State) (kh : Kept kq s) (ke : execHealthRecordWrite s = .next ko) : Kept kq ko := by
  unfold execHealthRecordWrite at ke
  refine next_kept ?_ ke
  try dsimp only
  repeat' first
    | with_reducible assumption
    | with_reducible apply when_kept
    | with_reducible apply sendFrame_kept
    | with_reducible apply writeHealth_kept
    | intro _
    | split
    | dsimp only

theorem takeRec_kept {kq : List Instr} (s : State) (e : Nat × MirRec) (kh : Kept kq s) : Kept kq (State.takeRec s e) := by
  unfold State.takeRec
  try dsimp only
  repeat' first
    | with_reducible assumption
    | with_reducible apply count_kept
    | with_reducible apply onJrnl_kept
    | with_reducible apply when_kept
    | intro _
    | split
    | dsimp only

theorem takeJournal_kept {kq : List Instr} (s : State) (kh : Kept kq s) : Kept kq (State.takeJournal s) := by
  unfold State.takeJournal
  try dsimp only
  repeat' first
    | with_reducible assumption
    | with_reducible apply onPair_kept
    | with_reducible apply syncJrnl_kept
    | with_reducible apply takeRec_kept
    | with_reducible apply foldl_kept
    | intro _
    | split
    | dsimp only

theorem takePools_kept {kq : List Instr} (s : State) (kh : Kept kq s) : Kept kq (State.takePools s) := by
  unfold State.takePools
  try dsimp only
  repeat' first
    | with_reducible assumption
    | with_reducible apply onPool_kept
    | with_reducible apply takeSeg_kept
    | with_reducible apply padSegment_kept
    | with_reducible apply importEnd_kept
    | with_reducible apply foldl_kept
    | intro _
    | split
    | dsimp only

theorem takeAnnounce_kept {kq : List Instr} (s : State) (kh : Kept kq s) : Kept kq (State.takeAnnounce s) := by
  unfold State.takeAnnounce
  try dsimp only
  repeat' first
    | with_reducible assumption
    | with_reducible apply announce_kept
    | with_reducible apply foldl_kept
    | intro _
    | split
    | dsimp only

theorem takeConns_kept {kq : List Instr} (s : State) (kh : Kept kq s) : Kept kq (State.takeConns s) := by
  unfold State.takeConns
  try dsimp only
  repeat' first
    | with_reducible assumption
    | with_reducible apply onPair_kept
    | with_reducible apply offerResume_kept
    | with_reducible apply foldl_kept
    | intro _
    | split
    | dsimp only

theorem stageEnd_kept {kq : List Instr} (s : State) (kh : Kept kq s) : Kept kq (State.stageEnd s) := by
  unfold State.stageEnd
  try dsimp only
  repeat' first
    | with_reducible assumption
    | with_reducible apply onPair_kept
    | with_reducible apply announce_kept
    | with_reducible apply setMirrorValid_kept
    | with_reducible apply takeJournal_kept
    | with_reducible apply takePools_kept
    | with_reducible apply takeAnnounce_kept
    | with_reducible apply takeConns_kept
    | intro _
    | split
    | dsimp only

theorem execTakeoverStageEnd_kept {kq : List Instr} {ko : State} (s : State) (kh : Kept kq s) (ke : execTakeoverStageEnd s = .next ko) : Kept kq ko := by
  unfold execTakeoverStageEnd at ke
  refine next_kept ?_ ke
  try dsimp only
  repeat' first
    | with_reducible assumption
    | with_reducible apply stageEnd_kept
    | intro _
    | split
    | dsimp only

theorem culture_kept {kq : List Instr} (fails drives : Nat) (s : State) (kh : Kept kq s) : Kept kq (State.culture fails drives s) := by
  unfold State.culture
  try dsimp only
  repeat' first
    | with_reducible assumption
    | with_reducible apply count_kept
    | with_reducible apply occur_kept
    | with_reducible apply onPair_kept
    | with_reducible apply setF_kept
    | intro _
    | split
    | dsimp only

theorem execCultureCheck_kept {kq : List Instr} {ko : State} (fails drives : Nat) (s : State) (kh : Kept kq s) (ke : execCultureCheck fails drives s = .next ko) : Kept kq ko := by
  unfold execCultureCheck at ke
  refine next_kept ?_ ke
  try dsimp only
  repeat' first
    | with_reducible assumption
    | with_reducible apply culture_kept
    | intro _
    | split
    | dsimp only

end Sys2Proof.Machine
end

