-- ==== Sys2Proof/Laws/Kept/PolExec.lean ====
section
/-!
SUPPORT. What the operations of Machine/PolExec.lean keep.
-/
namespace Sys2Proof.Machine
open Sys2Proof

theorem setRate_kept {kq : List Instr} (n : Nat) (r : BgRate) (s : State) (kh : Kept kq s) : Kept kq (State.setRate n r s) := by
  unfold State.setRate
  try dsimp only
  repeat' first
    | with_reducible assumption
    | with_reducible apply count_kept
    | with_reducible apply onPol_kept
    | intro _
    | split
    | dsimp only

theorem setThrottle_kept {kq : List Instr} (n : Nat) (s : State) (kh : Kept kq s) : Kept kq (State.setThrottle n s) := by
  unfold State.setThrottle
  try dsimp only
  repeat' first
    | with_reducible assumption
    | with_reducible apply count_kept
    | with_reducible apply occur_kept
    | with_reducible apply setF_kept
    | with_reducible apply when_kept
    | intro _
    | split
    | dsimp only

theorem setMult_kept {kq : List Instr} (l m : Nat) (s : State) (kh : Kept kq s) : Kept kq (State.setMult l m s) := by
  unfold State.setMult
  try dsimp only
  repeat' first
    | with_reducible assumption
    | with_reducible apply count_kept
    | with_reducible apply onPol_kept
    | intro _
    | split
    | dsimp only

theorem policyTick_kept {kq : List Instr} (s : State) (kh : Kept kq s) : Kept kq (State.policyTick s) := by
  unfold State.policyTick
  try dsimp only
  repeat' first
    | with_reducible assumption
    | with_reducible apply onPair_kept
    | with_reducible apply onPol_kept
    | with_reducible apply avsSet_kept
    | with_reducible apply setRate_kept
    | with_reducible apply setThrottle_kept
    | with_reducible apply setMult_kept
    | with_reducible apply foldl_kept
    | intro _
    | split
    | dsimp only

theorem execPolicyLoopTick_kept {kq : List Instr} {ko : State} (s : State) (kh : Kept kq s) (ke : execPolicyLoopTick s = .next ko) : Kept kq ko := by
  unfold execPolicyLoopTick at ke
  refine next_kept ?_ ke
  try dsimp only
  repeat' first
    | with_reducible assumption
    | with_reducible apply policyTick_kept
    | intro _
    | split
    | dsimp only

theorem defer_kept {kq : List Instr} (kind channel : Nat) (s : State) (kh : Kept kq s) : Kept kq (State.defer kind channel s) := by
  unfold State.defer
  try dsimp only
  repeat' first
    | with_reducible assumption
    | with_reducible apply count_kept
    | with_reducible apply occur_kept
    | with_reducible apply onPol_kept
    | with_reducible apply setF_kept
    | intro _
    | split
    | dsimp only

theorem settleDeferred_kept {kq : List Instr} (s : State) (kh : Kept kq s) : Kept kq (State.settleDeferred s) := by
  unfold State.settleDeferred
  try dsimp only
  repeat' first
    | with_reducible assumption
    | with_reducible apply onPol_kept
    | with_reducible apply setF_kept
    | intro _
    | split
    | dsimp only

theorem evalDrive_kept {kq : List Instr} (s0 : State) (b : Nat) (kh : Kept kq s0) : Kept kq (State.evalDrive s0 b) := by
  unfold State.evalDrive
  try dsimp only
  repeat' first
    | with_reducible assumption
    | with_reducible apply count_kept
    | with_reducible apply syncErrs_kept
    | with_reducible apply driveRetire_kept
    | with_reducible apply defer_kept
    | intro _
    | split
    | dsimp only

theorem evalBritos_kept {kq : List Instr} (s : State) (n : Nat) (kh : Kept kq s) : Kept kq (State.evalBritos s n) := by
  unfold State.evalBritos
  try dsimp only
  repeat' first
    | with_reducible assumption
    | with_reducible apply count_kept
    | with_reducible apply occur_kept
    | with_reducible apply onPair_kept
    | with_reducible apply syncLink_kept
    | intro _
    | split
    | dsimp only

theorem shrinkMap_kept {kq : List Instr} (n : Nat) (s : State) (kh : Kept kq s) : Kept kq (State.shrinkMap n s) := by
  induction n generalizing s with
  | zero => exact kh
  | succ n ih =>
    unfold State.shrinkMap
    split
    · exact kh
    · split
      · exact ih _ (syncMap_kept _ (onPlce_kept _ kh))
      · exact kh

theorem evalPc_kept {kq : List Instr} (s : State) (n : Nat) (kh : Kept kq s) : Kept kq (State.evalPc s n) := by
  unfold State.evalPc
  try dsimp only
  repeat' first
    | with_reducible assumption
    | with_reducible apply onPol_kept
    | with_reducible apply writeBack_kept
    | with_reducible apply syncFrames_kept
    | with_reducible apply defer_kept
    | with_reducible apply shrinkMap_kept
    | with_reducible apply foldl_kept
    | intro _
    | split
    | dsimp only

theorem evalCmpr_kept {kq : List Instr} (s : State) (n : Nat) (kh : Kept kq s) : Kept kq (State.evalCmpr s n) := by
  unfold State.evalCmpr
  try dsimp only
  repeat' first
    | with_reducible assumption
    | with_reducible apply count_kept
    | with_reducible apply when_kept
    | with_reducible apply cmprLaneCtl_kept
    | intro _
    | split
    | dsimp only

theorem evalBank_kept {kq : List Instr} (s : State) (b : Nat) (kh : Kept kq s) : Kept kq (State.evalBank s b) := by
  unfold State.evalBank
  try dsimp only
  repeat' first
    | with_reducible assumption
    | with_reducible apply count_kept
    | with_reducible apply when_kept
    | with_reducible apply bankCtl_kept
    | with_reducible apply defer_kept
    | intro _
    | split
    | dsimp only

theorem retirement_kept {kq : List Instr} (s0 : State) (kh : Kept kq s0) : Kept kq (State.retirement s0) := by
  unfold State.retirement
  try dsimp only
  repeat' first
    | with_reducible assumption
    | with_reducible apply settleDeferred_kept
    | with_reducible apply evalDrive_kept
    | with_reducible apply evalBritos_kept
    | with_reducible apply evalPc_kept
    | with_reducible apply evalCmpr_kept
    | with_reducible apply evalBank_kept
    | with_reducible apply foldl_kept
    | intro _
    | split
    | dsimp only

theorem execRetirementEval_kept {kq : List Instr} {ko : State} (s : State) (kh : Kept kq s) (ke : execRetirementEval s = .next ko) : Kept kq ko := by
  unfold execRetirementEval at ke
  refine next_kept ?_ ke
  try dsimp only
  repeat' first
    | with_reducible assumption
    | with_reducible apply retirement_kept
    | intro _
    | split
    | dsimp only

theorem pcMoved_kept {kq : List Instr} (pc : Nat) (s : State) (kh : Kept kq s) : Kept kq (State.pcMoved pc s) := by
  unfold State.pcMoved
  try dsimp only
  repeat' first
    | with_reducible assumption
    | with_reducible apply count_kept
    | with_reducible apply onPol_kept
    | with_reducible apply retirePc_kept
    | with_reducible apply shrinkMap_kept
    | intro _
    | split
    | dsimp only

theorem execPcRetireComplete_kept {kq : List Instr} {ko : State} (pc : Nat) (s : State) (kh : Kept kq s) (ke : execPcRetireComplete pc s = .next ko) : Kept kq ko := by
  unfold execPcRetireComplete at ke
  refine next_kept ?_ ke
  try dsimp only
  repeat' first
    | with_reducible assumption
    | with_reducible apply pcMoved_kept
    | intro _
    | split
    | dsimp only

theorem adaptLeaf_kept {kq : List Instr} (s : State) (l : Nat) (kh : Kept kq s) : Kept kq (State.adaptLeaf s l) := by
  unfold State.adaptLeaf
  try dsimp only
  repeat' first
    | with_reducible assumption
    | with_reducible apply onTmgr_kept
    | with_reducible apply setMult_kept
    | intro _
    | split
    | dsimp only

theorem execAdaptTick_kept {kq : List Instr} {ko : State} (s : State) (kh : Kept kq s) (ke : execAdaptTick s = .next ko) : Kept kq ko := by
  unfold execAdaptTick at ke
  refine next_kept ?_ ke
  try dsimp only
  repeat' first
    | with_reducible assumption
    | with_reducible apply adaptLeaf_kept
    | with_reducible apply foldl_kept
    | intro _
    | split
    | dsimp only

theorem thermalTick_kept {kq : List Instr} (low high tj : Nat) (s : State) (kh : Kept kq s) : Kept kq (State.thermalTick low high tj s) := by
  unfold State.thermalTick
  try dsimp only
  repeat' first
    | with_reducible assumption
    | with_reducible apply onPol_kept
    | with_reducible apply setF_kept
    | with_reducible apply setThrottle_kept
    | intro _
    | split
    | dsimp only

theorem execThermalTick_kept {kq : List Instr} {ko : State} (low high tj : Nat) (s : State) (kh : Kept kq s) (ke : execThermalTick low high tj s = .next ko) : Kept kq ko := by
  unfold execThermalTick at ke
  refine next_kept ?_ ke
  try dsimp only
  repeat' first
    | with_reducible assumption
    | with_reducible apply thermalTick_kept
    | intro _
    | split
    | dsimp only

end Sys2Proof.Machine
end

