-- ==== Sys2Proof/Laws/Kept/EpExec.lean ====
section
/-!
SUPPORT. What the operations of Machine/EpExec.lean keep.
-/
namespace Sys2Proof.Machine
open Sys2Proof

theorem epLinkDown_kept {kq : List Instr} (s : State) (kh : Kept kq s) : Kept kq (State.epLinkDown s) := by
  unfold State.epLinkDown
  try dsimp only
  repeat' first
    | with_reducible assumption
    | with_reducible apply onEp_kept
    | intro _
    | split
    | dsimp only

theorem epLinkUp_kept {kq : List Instr} (s : State) (kh : Kept kq s) : Kept kq (State.epLinkUp s) := by
  unfold State.epLinkUp
  try dsimp only
  repeat' first
    | with_reducible assumption
    | with_reducible apply count_kept
    | with_reducible apply draw_kept2
    | with_reducible apply record_kept
    | with_reducible apply satAdd_kept
    | with_reducible apply onEp_kept
    | with_reducible apply epResume_kept
    | intro _
    | split
    | (refine draw_kept ?_ (by with_reducible assumption))
    | dsimp only

theorem epPerst_kept {kq : List Instr} (asserted : Bool) (s : State) (kh : Kept kq s) : Kept kq (State.epPerst asserted s) := by
  unfold State.epPerst
  try dsimp only
  repeat' first
    | with_reducible assumption
    | with_reducible apply setF_kept
    | with_reducible apply onEp_kept
    | with_reducible apply epReset_kept
    | with_reducible apply epLinkDown_kept
    | intro _
    | split
    | dsimp only

theorem dstateWrite_kept {kq : List Instr} (d3hot pmeEn clearPme : Bool) (s : State) (kh : Kept kq s) : Kept kq (State.dstateWrite d3hot pmeEn clearPme s) := by
  unfold State.dstateWrite
  try dsimp only
  repeat' first
    | with_reducible assumption
    | with_reducible apply setF_kept
    | with_reducible apply onEp_kept
    | with_reducible apply epResume_kept
    | intro _
    | split
    | dsimp only

theorem execEpLinkDown_kept {kq : List Instr} {ko : State} (s : State) (kh : Kept kq s) (ke : execEpLinkDown s = .next ko) : Kept kq ko := by
  unfold execEpLinkDown at ke
  refine next_kept ?_ ke
  try dsimp only
  repeat' first
    | with_reducible assumption
    | with_reducible apply epLinkDown_kept
    | intro _
    | split
    | dsimp only

theorem execEpLinkUp_kept {kq : List Instr} {ko : State} (s : State) (kh : Kept kq s) (ke : execEpLinkUp s = .next ko) : Kept kq ko := by
  unfold execEpLinkUp at ke
  refine next_kept ?_ ke
  try dsimp only
  repeat' first
    | with_reducible assumption
    | with_reducible apply epLinkUp_kept
    | intro _
    | split
    | dsimp only

theorem execEpPerst_kept {kq : List Instr} {ko : State} (asserted : Bool) (s : State) (kh : Kept kq s) (ke : execEpPerst asserted s = .next ko) : Kept kq ko := by
  unfold execEpPerst at ke
  refine next_kept ?_ ke
  try dsimp only
  repeat' first
    | with_reducible assumption
    | with_reducible apply epPerst_kept
    | intro _
    | split
    | dsimp only

theorem execEpFlr_kept {kq : List Instr} {ko : State} (s : State) (kh : Kept kq s) (ke : execEpFlr s = .next ko) : Kept kq ko := by
  unfold execEpFlr at ke
  refine next_kept ?_ ke
  try dsimp only
  repeat' first
    | with_reducible assumption
    | with_reducible apply epReset_kept
    | intro _
    | split
    | dsimp only

theorem execEpDstateChange_kept {kq : List Instr} {ko : State} (d3hot pmeEn clearPme : Bool) (s : State) (kh : Kept kq s) (ke : execEpDstateChange d3hot pmeEn clearPme s = .next ko) : Kept kq ko := by
  unfold execEpDstateChange at ke
  refine next_kept ?_ ke
  try dsimp only
  repeat' first
    | with_reducible assumption
    | with_reducible apply dstateWrite_kept
    | intro _
    | split
    | dsimp only

theorem msixUnmask_kept {kq : List Instr} (vector : Option Nat) (s : State) (kh : Kept kq s) : Kept kq (State.msixUnmask vector s) := by
  unfold State.msixUnmask
  try dsimp only
  repeat' first
    | with_reducible assumption
    | with_reducible apply onFab_kept
    | with_reducible apply onEp_kept
    | intro _
    | split
    | dsimp only

theorem msixAddress_kept {kq : List Instr} (v : Nat) (addr : BitVec 64) (data : BitVec 32) (s : State) (kh : Kept kq s) : Kept kq (State.msixAddress v addr data s) := by
  unfold State.msixAddress
  try dsimp only
  repeat' first
    | with_reducible assumption
    | with_reducible apply onFab_kept
    | with_reducible apply onEp_kept
    | intro _
    | split
    | dsimp only

theorem busMaster_kept {kq : List Instr} (on : Bool) (s : State) (kh : Kept kq s) : Kept kq (State.busMaster on s) := by
  unfold State.busMaster
  try dsimp only
  repeat' first
    | with_reducible assumption
    | with_reducible apply onEp_kept
    | with_reducible apply epResume_kept
    | intro _
    | split
    | dsimp only

theorem execMsixUnmask_kept {kq : List Instr} {ko : State} (vector : Option Nat) (s : State) (kh : Kept kq s) (ke : execMsixUnmask vector s = .next ko) : Kept kq ko := by
  unfold execMsixUnmask at ke
  refine next_kept ?_ ke
  try dsimp only
  repeat' first
    | with_reducible assumption
    | with_reducible apply msixUnmask_kept
    | intro _
    | split
    | dsimp only

theorem execMsixAddressWrite_kept {kq : List Instr} {ko : State} (vector : Nat) (addr : BitVec 64) (data : BitVec 32) (s : State) (kh : Kept kq s) (ke : execMsixAddressWrite vector addr data s = .next ko) : Kept kq ko := by
  unfold execMsixAddressWrite at ke
  refine next_kept ?_ ke
  try dsimp only
  repeat' first
    | with_reducible assumption
    | with_reducible apply msixAddress_kept
    | intro _
    | split
    | dsimp only

theorem execBusMasterEnable_kept {kq : List Instr} {ko : State} (on : Bool) (s : State) (kh : Kept kq s) (ke : execBusMasterEnable on s = .next ko) : Kept kq ko := by
  unfold execBusMasterEnable at ke
  refine next_kept ?_ ke
  try dsimp only
  repeat' first
    | with_reducible assumption
    | with_reducible apply busMaster_kept
    | intro _
    | split
    | dsimp only

theorem epTimeout_kept {kq : List Instr} (tag : Nat) (s : State) (kh : Kept kq s) : Kept kq (State.epTimeout tag s) := by
  unfold State.epTimeout
  try dsimp only
  repeat' first
    | with_reducible assumption
    | with_reducible apply count_kept
    | with_reducible apply draw_kept2
    | with_reducible apply onEp_kept
    | with_reducible apply aerLog_kept
    | with_reducible apply mboxKick_kept
    | with_reducible apply mboxEnd_kept
    | intro _
    | split
    | (refine draw_kept ?_ (by with_reducible assumption))
    | dsimp only

theorem lateCompletion_kept {kq : List Instr} (bay : Option Nat) (tag : Nat) (s : State) (kh : Kept kq s) : Kept kq (State.lateCompletion bay tag s) := by
  unfold State.lateCompletion
  try dsimp only
  repeat' first
    | with_reducible assumption
    | with_reducible apply count_kept
    | with_reducible apply draw_kept2
    | with_reducible apply drvPacket_kept
    | with_reducible apply aerLog_kept
    | intro _
    | split
    | (refine draw_kept ?_ (by with_reducible assumption))
    | dsimp only

theorem quarEnd_kept {kq : List Instr} (bay : Option Nat) (tag : Nat) (s : State) (kh : Kept kq s) : Kept kq (State.quarEnd bay tag s) := by
  unfold State.quarEnd
  try dsimp only
  repeat' first
    | with_reducible assumption
    | with_reducible apply onBay_kept
    | with_reducible apply onEp_kept
    | with_reducible apply mboxKick_kept
    | intro _
    | split
    | dsimp only

theorem tlpError_kept {kq : List Instr} (err : AerErr) (hdr : Nat) (s : State) (kh : Kept kq s) : Kept kq (State.tlpError err hdr s) := by
  unfold State.tlpError
  try dsimp only
  repeat' first
    | with_reducible assumption
    | with_reducible apply aerLog_kept
    | intro _
    | split
    | dsimp only

theorem execEpDmaTimeout_kept {kq : List Instr} {ko : State} (tag : Nat) (s : State) (kh : Kept kq s) (ke : execEpDmaTimeout tag s = .next ko) : Kept kq ko := by
  unfold execEpDmaTimeout at ke
  refine next_kept ?_ ke
  try dsimp only
  repeat' first
    | with_reducible assumption
    | with_reducible apply epTimeout_kept
    | intro _
    | split
    | dsimp only

theorem execPcieUnexpectedCompletion_kept {kq : List Instr} {ko : State} (bay : Option Nat) (tag : Nat) (s : State) (kh : Kept kq s) (ke : execPcieUnexpectedCompletion bay tag s = .next ko) : Kept kq ko := by
  unfold execPcieUnexpectedCompletion at ke
  refine next_kept ?_ ke
  try dsimp only
  repeat' first
    | with_reducible assumption
    | with_reducible apply lateCompletion_kept
    | intro _
    | split
    | dsimp only

theorem execPcieTagQuarantineEnd_kept {kq : List Instr} {ko : State} (bay : Option Nat) (tag : Nat) (s : State) (kh : Kept kq s) (ke : execPcieTagQuarantineEnd bay tag s = .next ko) : Kept kq ko := by
  unfold execPcieTagQuarantineEnd at ke
  refine next_kept ?_ ke
  try dsimp only
  repeat' first
    | with_reducible assumption
    | with_reducible apply quarEnd_kept
    | intro _
    | split
    | dsimp only

theorem execEpTlpError_kept {kq : List Instr} {ko : State} (err : AerErr) (hdr : Nat) (s : State) (kh : Kept kq s) (ke : execEpTlpError err hdr s = .next ko) : Kept kq ko := by
  unfold execEpTlpError at ke
  refine next_kept ?_ ke
  try dsimp only
  repeat' first
    | with_reducible assumption
    | with_reducible apply tlpError_kept
    | intro _
    | split
    | dsimp only

theorem mboxCfg_kept {kq : List Instr} (w : Nat) (s : State) (kh : Kept kq s) : Kept kq (State.mboxCfg w s) := by
  unfold State.mboxCfg
  try dsimp only
  repeat' first
    | with_reducible assumption
    | with_reducible apply setF_kept
    | with_reducible apply mboxKick_kept
    | intro _
    | split
    | dsimp only

theorem mboxTail_kept {kq : List Instr} (w : Nat) (s : State) (kh : Kept kq s) : Kept kq (State.mboxTail w s) := by
  unfold State.mboxTail
  try dsimp only
  repeat' first
    | with_reducible assumption
    | with_reducible apply occur_kept
    | with_reducible apply setF_kept
    | with_reducible apply mboxKick_kept
    | intro _
    | split
    | dsimp only

theorem mboxRingBase_kept {kq : List Instr} (x : Fld) (v : Nat) (s : State) (kh : Kept kq s) : Kept kq (State.mboxRingBase x v s) := by
  unfold State.mboxRingBase
  try dsimp only
  repeat' first
    | with_reducible assumption
    | with_reducible apply count_kept
    | with_reducible apply setF_kept
    | intro _
    | split
    | dsimp only

theorem mboxFetched_kept {kq : List Instr} (req : MboxReq) (err : Bool) (s : State) (kh : Kept kq s) : Kept kq (State.mboxFetched req err s) := by
  unfold State.mboxFetched
  try dsimp only
  repeat' first
    | with_reducible assumption
    | with_reducible apply onEp_kept
    | with_reducible apply mboxKick_kept
    | with_reducible apply mboxArrive_kept
    | intro _
    | split
    | dsimp only

theorem getInfo_kept {kq : List Instr} (s : State) (kh : Kept kq s) : Kept kq (State.getInfo s) := by
  unfold State.getInfo
  try dsimp only
  repeat' first
    | with_reducible assumption
    | with_reducible apply mboxData_kept
    | intro _
    | split
    | dsimp only

theorem slotPut_kept {kq : List Instr} (m : MboxRun) (val : Nat) (s : State) (kh : Kept kq s) : Kept kq (State.slotPut m val s) := by
  unfold State.slotPut
  try dsimp only
  repeat' first
    | with_reducible assumption
    | with_reducible apply onPol_kept
    | intro _
    | split
    | dsimp only

theorem slotWrite_kept {kq : List Instr} (data : Blob) (dmaErr flashErr : Bool) (s : State) (kh : Kept kq s) : Kept kq (State.slotWrite data dmaErr flashErr s) := by
  unfold State.slotWrite
  try dsimp only
  repeat' first
    | with_reducible assumption
    | with_reducible apply draw_kept2
    | with_reducible apply onEp_kept
    | with_reducible apply mboxEnd_kept
    | with_reducible apply slotPut_kept
    | intro _
    | split
    | (refine draw_kept ?_ (by with_reducible assumption))
    | dsimp only

theorem slotRead_kept {kq : List Instr} (s : State) (kh : Kept kq s) : Kept kq (State.slotRead s) := by
  unfold State.slotRead
  try dsimp only
  repeat' first
    | with_reducible assumption
    | with_reducible apply mboxData_kept
    | intro _
    | split
    | dsimp only

theorem smbusXfer_kept {kq : List Instr} (ack : Bool) (rdata : Nat) (s : State) (kh : Kept kq s) : Kept kq (State.smbusXfer ack rdata s) := by
  unfold State.smbusXfer
  try dsimp only
  repeat' first
    | with_reducible assumption
    | with_reducible apply emit_kept
    | with_reducible apply ack_kept
    | with_reducible apply mboxEnd_kept
    | with_reducible apply mboxData_kept
    | intro _
    | split
    | dsimp only

theorem execMboxEnable_kept {kq : List Instr} {ko : State} (value : BitVec 32) (s : State) (kh : Kept kq s) (ke : execMboxEnable value s = .next ko) : Kept kq ko := by
  unfold execMboxEnable at ke
  refine next_kept ?_ ke
  try dsimp only
  repeat' first
    | with_reducible assumption
    | with_reducible apply mboxCfg_kept
    | intro _
    | split
    | dsimp only

theorem execMboxTailWrite_kept {kq : List Instr} {ko : State} (value : BitVec 32) (s : State) (kh : Kept kq s) (ke : execMboxTailWrite value s = .next ko) : Kept kq ko := by
  unfold execMboxTailWrite at ke
  refine next_kept ?_ ke
  try dsimp only
  repeat' first
    | with_reducible assumption
    | with_reducible apply mboxTail_kept
    | intro _
    | split
    | dsimp only

theorem execMboxFetchComplete_kept {kq : List Instr} {ko : State} (req : MboxReq) (err : Bool) (s : State) (kh : Kept kq s) (ke : execMboxFetchComplete req err s = .next ko) : Kept kq ko := by
  unfold execMboxFetchComplete at ke
  refine next_kept ?_ ke
  try dsimp only
  repeat' first
    | with_reducible assumption
    | with_reducible apply mboxFetched_kept
    | intro _
    | split
    | dsimp only

theorem execGetInfo_kept {kq : List Instr} {ko : State} (s : State) (kh : Kept kq s) (ke : execGetInfo s = .next ko) : Kept kq ko := by
  unfold execGetInfo at ke
  refine next_kept ?_ ke
  try dsimp only
  repeat' first
    | with_reducible assumption
    | with_reducible apply getInfo_kept
    | intro _
    | split
    | dsimp only

theorem execSlotWrite_kept {kq : List Instr} {ko : State} (data : Blob) (dmaErr flashErr : Bool) (s : State) (kh : Kept kq s) (ke : execSlotWrite data dmaErr flashErr s = .next ko) : Kept kq ko := by
  unfold execSlotWrite at ke
  refine next_kept ?_ ke
  try dsimp only
  repeat' first
    | with_reducible assumption
    | with_reducible apply slotWrite_kept
    | intro _
    | split
    | dsimp only

theorem execSlotRead_kept {kq : List Instr} {ko : State} (s : State) (kh : Kept kq s) (ke : execSlotRead s = .next ko) : Kept kq ko := by
  unfold execSlotRead at ke
  refine next_kept ?_ ke
  try dsimp only
  repeat' first
    | with_reducible assumption
    | with_reducible apply slotRead_kept
    | intro _
    | split
    | dsimp only

theorem execSmbusXfer_kept {kq : List Instr} {ko : State} (ack : Bool) (rdata : Nat) (s : State) (kh : Kept kq s) (ke : execSmbusXfer ack rdata s = .next ko) : Kept kq ko := by
  unfold execSmbusXfer at ke
  refine next_kept ?_ ke
  try dsimp only
  repeat' first
    | with_reducible assumption
    | with_reducible apply ack_kept
    | with_reducible apply smbusXfer_kept
    | intro _
    | split
    | dsimp only

theorem execMboxComplete_kept {kq : List Instr} {ko : State} (s : State) (kh : Kept kq s) (ke : execMboxComplete s = .next ko) : Kept kq ko := by
  unfold execMboxComplete at ke
  refine next_kept ?_ ke
  try dsimp only
  repeat' first
    | with_reducible assumption
    | with_reducible apply mboxComplete_kept
    | intro _
    | split
    | dsimp only

theorem evrHead_kept {kq : List Instr} (n w : Nat) (s : State) (kh : Kept kq s) : Kept kq (State.evrHead n w s) := by
  unfold State.evrHead
  try dsimp only
  repeat' first
    | with_reducible assumption
    | with_reducible apply setF_kept
    | with_reducible apply epService_kept
    | intro _
    | split
    | dsimp only

theorem evrCfg_kept {kq : List Instr} (n w : Nat) (s : State) (kh : Kept kq s) : Kept kq (State.evrCfg n w s) := by
  unfold State.evrCfg
  try dsimp only
  repeat' first
    | with_reducible assumption
    | with_reducible apply onFab_kept
    | with_reducible apply setF_kept
    | with_reducible apply epService_kept
    | intro _
    | split
    | dsimp only

theorem execEventRecordPost_kept {kq : List Instr} {ko : State} (type payload : Nat) (s : State) (kh : Kept kq s) (ke : execEventRecordPost type payload s = .next ko) : Kept kq ko := by
  unfold execEventRecordPost at ke
  refine next_kept ?_ ke
  try dsimp only
  repeat' first
    | with_reducible assumption
    | with_reducible apply record_kept
    | with_reducible apply when_kept
    | intro _
    | split
    | dsimp only

theorem execEvrHeadWrite_kept {kq : List Instr} {ko : State} (ring : Nat) (value : BitVec 32) (s : State) (kh : Kept kq s) (ke : execEvrHeadWrite ring value s = .next ko) : Kept kq ko := by
  unfold execEvrHeadWrite at ke
  refine next_kept ?_ ke
  try dsimp only
  repeat' first
    | with_reducible assumption
    | with_reducible apply ring_kept
    | with_reducible apply evrHead_kept
    | intro _
    | split
    | dsimp only

theorem execEvrEnable_kept {kq : List Instr} {ko : State} (ring : Nat) (value : BitVec 32) (s : State) (kh : Kept kq s) (ke : execEvrEnable ring value s = .next ko) : Kept kq ko := by
  unfold execEvrEnable at ke
  refine next_kept ?_ ke
  try dsimp only
  repeat' first
    | with_reducible assumption
    | with_reducible apply ring_kept
    | with_reducible apply evrCfg_kept
    | intro _
    | split
    | dsimp only

end Sys2Proof.Machine
end

