-- ==== Sys2Proof/Laws/Kept/FabExec.lean ====
section
/-!
SUPPORT. What the operations of Machine/FabExec.lean keep.
-/
namespace Sys2Proof.Machine
open Sys2Proof

theorem barAccess_kept {kq : List Instr} (rq : Requester) (g : State → State) (s : State) (hk_g : ∀ u, Kept kq u → Kept kq (g u)) (kh : Kept kq s) : Kept kq (State.barAccess rq g s) := by
  unfold State.barAccess
  try dsimp only
  repeat' first
    | with_reducible assumption
    | with_reducible apply draw_kept2
    | with_reducible apply aerLog_kept
    | with_reducible apply hk_g
    | intro _
    | split
    | (refine draw_kept ?_ (by with_reducible assumption))
    | dsimp only

theorem latch_kept {kq : List Instr} (rq : Requester) (key : Nat) (v : Word) (s : State) (kh : Kept kq s) : Kept kq (State.latch rq key v s) := by
  unfold State.latch
  try dsimp only
  repeat' first
    | with_reducible assumption
    | with_reducible apply onFab_kept
    | intro _
    | split
    | dsimp only

theorem lowerRead_kept {kq : List Instr} (rq : Requester) (bar : Bar) (a : Nat) (s : State) (kh : Kept kq s) : Kept kq (State.lowerRead rq bar a s) := by
  unfold State.lowerRead
  try dsimp only
  repeat' first
    | with_reducible assumption
    | with_reducible apply emit_kept
    | with_reducible apply latch_kept
    | intro _
    | split
    | dsimp only

theorem undefAccess_kept {kq : List Instr} (a : Nat) (isWrite : Bool) (s : State) (kh : Kept kq s) : Kept kq (State.undefAccess a isWrite s) := by
  unfold State.undefAccess
  try dsimp only
  repeat' first
    | with_reducible assumption
    | with_reducible apply count_kept
    | with_reducible apply occur_kept
    | with_reducible apply setF_kept
    | intro _
    | split
    | dsimp only

theorem undefRead_kept {kq : List Instr} (rq : Requester) (a : Nat) (s : State) (kh : Kept kq s) : Kept kq (State.undefRead rq a s) := by
  unfold State.undefRead
  try dsimp only
  repeat' first
    | with_reducible assumption
    | with_reducible apply emit_kept
    | with_reducible apply undefAccess_kept
    | intro _
    | split
    | dsimp only

theorem woRead_kept {kq : List Instr} (rq : Requester) (a : Nat) (s : State) (kh : Kept kq s) : Kept kq (State.woRead rq a s) := by
  unfold State.woRead
  try dsimp only
  repeat' first
    | with_reducible assumption
    | with_reducible apply count_kept
    | with_reducible apply emit_kept
    | intro _
    | split
    | dsimp only

theorem rcRead_kept {kq : List Instr} (rq : Requester) (p : Page) (fields : List Fld) (s : State) (kh : Kept kq s) : Kept kq (State.rcRead rq p fields s) := by
  unfold State.rcRead
  try dsimp only
  repeat' first
    | with_reducible assumption
    | with_reducible apply emit_kept
    | with_reducible apply setF_kept
    | with_reducible apply foldl_kept
    | intro _
    | split
    | dsimp only

theorem execUndefinedAccess_kept {kq : List Instr} {ko : State} (rq : Requester) (addr bytes : Nat) (isWrite : Bool) (s : State) (kh : Kept kq s) (ke : execUndefinedAccess rq addr bytes isWrite s = .next ko) : Kept kq ko := by
  unfold execUndefinedAccess at ke
  refine next_kept ?_ ke
  try dsimp only
  repeat' first
    | with_reducible assumption
    | with_reducible apply barAccess_kept
    | with_reducible apply undefAccess_kept
    | with_reducible apply undefRead_kept
    | intro _
    | split
    | dsimp only

theorem execWoFieldRead_kept {kq : List Instr} {ko : State} (rq : Requester) (addr : Nat) (s : State) (kh : Kept kq s) (ke : execWoFieldRead rq addr s = .next ko) : Kept kq ko := by
  unfold execWoFieldRead at ke
  refine next_kept ?_ ke
  try dsimp only
  repeat' first
    | with_reducible assumption
    | with_reducible apply barAccess_kept
    | with_reducible apply woRead_kept
    | intro _
    | split
    | dsimp only

theorem execReg64LowerRead_kept {kq : List Instr} {ko : State} (rq : Requester) (bar : Bar) (addr : Nat) (s : State) (kh : Kept kq s) (ke : execReg64LowerRead rq bar addr s = .next ko) : Kept kq ko := by
  unfold execReg64LowerRead at ke
  refine next_kept ?_ ke
  try dsimp only
  repeat' first
    | with_reducible assumption
    | with_reducible apply barAccess_kept
    | with_reducible apply lowerRead_kept
    | intro _
    | split
    | dsimp only

theorem execAccErrRead_kept {kq : List Instr} {ko : State} (rq : Requester) (s : State) (kh : Kept kq s) (ke : execAccErrRead rq s = .next ko) : Kept kq ko := by
  unfold execAccErrRead at ke
  refine next_kept ?_ ke
  try dsimp only
  repeat' first
    | with_reducible assumption
    | with_reducible apply barAccess_kept
    | with_reducible apply rcRead_kept
    | intro _
    | split
    | dsimp only

theorem execMissqStatRead_kept {kq : List Instr} {ko : State} (rq : Requester) (s : State) (kh : Kept kq s) (ke : execMissqStatRead rq s = .next ko) : Kept kq ko := by
  unfold execMissqStatRead at ke
  refine next_kept ?_ ke
  try dsimp only
  repeat' first
    | with_reducible assumption
    | with_reducible apply barAccess_kept
    | with_reducible apply rcRead_kept
    | intro _
    | split
    | dsimp only

theorem execCmdqMaxuseRead_kept {kq : List Instr} {ko : State} (rq : Requester) (s : State) (kh : Kept kq s) (ke : execCmdqMaxuseRead rq s = .next ko) : Kept kq ko := by
  unfold execCmdqMaxuseRead at ke
  refine next_kept ?_ ke
  try dsimp only
  repeat' first
    | with_reducible assumption
    | with_reducible apply barAccess_kept
    | with_reducible apply rcRead_kept
    | intro _
    | split
    | dsimp only

theorem execVatMaxqRead_kept {kq : List Instr} {ko : State} (rq : Requester) (s : State) (kh : Kept kq s) (ke : execVatMaxqRead rq s = .next ko) : Kept kq ko := by
  unfold execVatMaxqRead at ke
  refine next_kept ?_ ke
  try dsimp only
  repeat' first
    | with_reducible assumption
    | with_reducible apply onVat_kept
    | with_reducible apply barAccess_kept
    | with_reducible apply rcRead_kept
    | intro _
    | split
    | dsimp only

theorem execCellMinfreeRead_kept {kq : List Instr} {ko : State} (rq : Requester) (s : State) (kh : Kept kq s) (ke : execCellMinfreeRead rq s = .next ko) : Kept kq ko := by
  unfold execCellMinfreeRead at ke
  refine next_kept ?_ ke
  try dsimp only
  repeat' first
    | with_reducible assumption
    | with_reducible apply onCell_kept
    | with_reducible apply barAccess_kept
    | with_reducible apply rcRead_kept
    | intro _
    | split
    | dsimp only

theorem execPairCkptAgeRead_kept {kq : List Instr} {ko : State} (rq : Requester) (s : State) (kh : Kept kq s) (ke : execPairCkptAgeRead rq s = .next ko) : Kept kq ko := by
  unfold execPairCkptAgeRead at ke
  refine next_kept ?_ ke
  try dsimp only
  repeat' first
    | with_reducible assumption
    | with_reducible apply barAccess_kept
    | with_reducible apply rcRead_kept
    | intro _
    | split
    | dsimp only

theorem raise_kept {kq : List Instr} (p : Page) (l : List Src) (s : State) (kh : Kept kq s) : Kept kq (State.raise p l s) := by
  unfold State.raise
  try dsimp only
  repeat' first
    | with_reducible assumption
    | with_reducible apply count_kept
    | with_reducible apply onFab_kept
    | with_reducible apply pageAct_kept
    | with_reducible apply foldl_kept
    | intro _
    | split
    | dsimp only

theorem mapUe_kept {kq : List Instr} (k group : Nat) (s : State) (kh : Kept kq s) : Kept kq (State.mapUe k group s) := by
  unfold State.mapUe
  try dsimp only
  repeat' first
    | with_reducible assumption
    | with_reducible apply onPlce_kept
    | with_reducible apply unitErr_kept
    | with_reducible apply syncMap_kept
    | with_reducible apply lookupPage_kept2
    | with_reducible apply commitEntry_kept
    | with_reducible apply foldl_kept
    | intro _
    | split
    | (refine lookupPage_keptE ?_ (by with_reducible assumption))
    | dsimp only

theorem slotUe_kept {kq : List Instr} (n : Nat) (s : State) (kh : Kept kq s) : Kept kq (State.slotUe n s) := by
  unfold State.slotUe
  try dsimp only
  repeat' first
    | with_reducible assumption
    | with_reducible apply setSlot_kept
    | with_reducible apply commitSlot_kept
    | with_reducible apply dropPieces_kept
    | with_reducible apply releaseRecs_kept
    | intro _
    | split
    | dsimp only

theorem keySlotUe_kept {kq : List Instr} (i : Nat) (s : State) (kh : Kept kq s) : Kept kq (State.keySlotUe i s) := by
  unfold State.keySlotUe
  try dsimp only
  repeat' first
    | with_reducible assumption
    | with_reducible apply enterError_kept
    | intro _
    | split
    | dsimp only

theorem hbmErr_kept {kq : List Instr} (k : Nat) (ue : Bool) (s : State) (kh : Kept kq s) : Kept kq (State.hbmErr k ue s) := by
  unfold State.hbmErr
  try dsimp only
  repeat' first
    | with_reducible assumption
    | with_reducible apply onPol_kept
    | intro _
    | split
    | dsimp only

theorem faultEffect_kept {kq : List Instr} (x : Src) (item : Nat) (s : State) (kh : Kept kq s) : Kept kq (State.faultEffect x item s) := by
  unfold State.faultEffect
  try dsimp only
  repeat' first
    | with_reducible assumption
    | with_reducible apply count_kept
    | with_reducible apply draw_kept2
    | with_reducible apply aerLog_kept
    | with_reducible apply mapUe_kept
    | with_reducible apply slotUe_kept
    | with_reducible apply keySlotUe_kept
    | with_reducible apply hbmErr_kept
    | intro _
    | split
    | (refine draw_kept ?_ (by with_reducible assumption))
    | dsimp only

theorem faultOccur_kept {kq : List Instr} (p : Page) (loc item : Nat) (s : State) (kh : Kept kq s) : Kept kq (State.faultOccur p loc item s) := by
  unfold State.faultOccur
  try dsimp only
  repeat' first
    | with_reducible assumption
    | with_reducible apply raise_kept
    | with_reducible apply faultEffect_kept
    | intro _
    | split
    | dsimp only

theorem fltForce_kept {kq : List Instr} (p : Page) (n w : Nat) (s : State) (kh : Kept kq s) : Kept kq (State.fltForce p n w s) := by
  unfold State.fltForce
  try dsimp only
  repeat' first
    | with_reducible assumption
    | with_reducible apply count_kept
    | with_reducible apply raise_kept
    | intro _
    | split
    | dsimp only

theorem stickyClear_kept {kq : List Instr} (p : Page) (n w meets : Nat) (s : State) (kh : Kept kq s) : Kept kq (State.stickyClear p n w meets s) := by
  unfold State.stickyClear
  try dsimp only
  repeat' first
    | with_reducible assumption
    | with_reducible apply onFab_kept
    | with_reducible apply raise_kept
    | intro _
    | split
    | dsimp only

theorem maskWrite_kept {kq : List Instr} (p : Page) (n w meets : Nat) (s : State) (kh : Kept kq s) : Kept kq (State.maskWrite p n w meets s) := by
  unfold State.maskWrite
  try dsimp only
  repeat' first
    | with_reducible assumption
    | with_reducible apply onFab_kept
    | with_reducible apply raise_kept
    | intro _
    | split
    | dsimp only

theorem sevWrite_kept {kq : List Instr} (p : Page) (n w : Nat) (s : State) (kh : Kept kq s) : Kept kq (State.sevWrite p n w s) := by
  unfold State.sevWrite
  try dsimp only
  repeat' first
    | with_reducible assumption
    | with_reducible apply onFab_kept
    | with_reducible apply foldl_kept
    | intro _
    | split
    | dsimp only

theorem factoryKey_kept {kq : List Instr} (w : Nat) (s : State) (kh : Kept kq s) : Kept kq (State.factoryKey w s) := by
  unfold State.factoryKey
  try dsimp only
  repeat' first
    | with_reducible assumption
    | with_reducible apply count_kept
    | with_reducible apply onFab_kept
    | with_reducible apply setF_kept
    | intro _
    | split
    | dsimp only

theorem cntGlobal_kept {kq : List Instr} (clear freeze : Bool) (s : State) (kh : Kept kq s) : Kept kq (State.cntGlobal clear freeze s) := by
  unfold State.cntGlobal
  try dsimp only
  repeat' first
    | with_reducible assumption
    | with_reducible apply onFab_kept
    | with_reducible apply setF_kept
    | intro _
    | split
    | dsimp only

theorem execFaultOccurrence_kept {kq : List Instr} {ko : State} (page : Page) (loc item : Nat) (s : State) (kh : Kept kq s) (ke : execFaultOccurrence page loc item s = .next ko) : Kept kq ko := by
  unfold execFaultOccurrence at ke
  refine next_kept ?_ ke
  try dsimp only
  repeat' first
    | with_reducible assumption
    | with_reducible apply faultOccur_kept
    | intro _
    | split
    | dsimp only

theorem execFaultForce_kept {kq : List Instr} {ko : State} (page : Page) (n : Nat) (value : BitVec 32) (s : State) (kh : Kept kq s) (ke : execFaultForce page n value s = .next ko) : Kept kq ko := by
  unfold execFaultForce at ke
  refine next_kept ?_ ke
  try dsimp only
  repeat' first
    | with_reducible assumption
    | with_reducible apply fltForce_kept
    | intro _
    | split
    | dsimp only

theorem execFaultStickyClear_kept {kq : List Instr} {ko : State} (page : Page) (n : Nat) (value meets : BitVec 32) (s : State) (kh : Kept kq s) (ke : execFaultStickyClear page n value meets s = .next ko) : Kept kq ko := by
  unfold execFaultStickyClear at ke
  refine next_kept ?_ ke
  try dsimp only
  repeat' first
    | with_reducible assumption
    | with_reducible apply stickyClear_kept
    | intro _
    | split
    | dsimp only

theorem execFaultMaskWrite_kept {kq : List Instr} {ko : State} (page : Page) (n : Nat) (value meets : BitVec 32) (s : State) (kh : Kept kq s) (ke : execFaultMaskWrite page n value meets s = .next ko) : Kept kq ko := by
  unfold execFaultMaskWrite at ke
  refine next_kept ?_ ke
  try dsimp only
  repeat' first
    | with_reducible assumption
    | with_reducible apply maskWrite_kept
    | intro _
    | split
    | dsimp only

theorem execFaultSevWrite_kept {kq : List Instr} {ko : State} (page : Page) (n : Nat) (value : BitVec 32) (s : State) (kh : Kept kq s) (ke : execFaultSevWrite page n value s = .next ko) : Kept kq ko := by
  unfold execFaultSevWrite at ke
  refine next_kept ?_ ke
  try dsimp only
  repeat' first
    | with_reducible assumption
    | with_reducible apply sevWrite_kept
    | intro _
    | split
    | dsimp only

theorem execFactoryKeyWrite_kept {kq : List Instr} {ko : State} (value : BitVec 32) (s : State) (kh : Kept kq s) (ke : execFactoryKeyWrite value s = .next ko) : Kept kq ko := by
  unfold execFactoryKeyWrite at ke
  refine next_kept ?_ ke
  try dsimp only
  repeat' first
    | with_reducible assumption
    | with_reducible apply factoryKey_kept
    | intro _
    | split
    | dsimp only

theorem execCounterClearAll_kept {kq : List Instr} {ko : State} (freeze : Bool) (s : State) (kh : Kept kq s) (ke : execCounterClearAll freeze s = .next ko) : Kept kq ko := by
  unfold execCounterClearAll at ke
  refine next_kept ?_ ke
  try dsimp only
  repeat' first
    | with_reducible assumption
    | with_reducible apply cntGlobal_kept
    | intro _
    | split
    | dsimp only

theorem execCounterFreezeAll_kept {kq : List Instr} {ko : State} (freeze : Bool) (s : State) (kh : Kept kq s) (ke : execCounterFreezeAll freeze s = .next ko) : Kept kq ko := by
  unfold execCounterFreezeAll at ke
  refine next_kept ?_ ke
  try dsimp only
  repeat' first
    | with_reducible assumption
    | with_reducible apply cntGlobal_kept
    | intro _
    | split
    | dsimp only

theorem plainWrite_kept {kq : List Instr} (d : RegDef) (a w : Nat) (s : State) (kh : Kept kq s) : Kept kq (State.plainWrite d a w s) := by
  unfold State.plainWrite
  try dsimp only
  repeat' first
    | with_reducible assumption
    | with_reducible apply onFab_kept
    | with_reducible apply foldl_kept
    | intro _
    | split
    | dsimp only

theorem shadowWrite_kept {kq : List Instr} (rq : Requester) (p : Page) (d : RegDef) (a w : Nat) (s : State) (kh : Kept kq s) : Kept kq (State.shadowWrite rq p d a w s) := by
  unfold State.shadowWrite
  try dsimp only
  repeat' first
    | with_reducible assumption
    | with_reducible apply count_kept
    | with_reducible apply onFab_kept
    | with_reducible apply shadowEdited_kept
    | with_reducible apply shadowDrop_kept
    | with_reducible apply foldl_kept
    | intro _
    | split
    | dsimp only

theorem windowWrite_kept {kq : List Instr} (rq : Requester) (p : Page) (d : RegDef) (a w : Nat) (s : State) (kh : Kept kq s) : Kept kq (State.windowWrite rq p d a w s) := by
  unfold State.windowWrite
  try dsimp only
  repeat' first
    | with_reducible assumption
    | with_reducible apply count_kept
    | with_reducible apply when_kept
    | with_reducible apply tblCmd_kept
    | with_reducible apply plainWrite_kept
    | intro _
    | split
    | dsimp only

theorem cntSel_kept {kq : List Instr} (p : Page) (a w : Nat) (s : State) (kh : Kept kq s) : Kept kq (State.cntSel p a w s) := by
  unfold State.cntSel
  try dsimp only
  repeat' first
    | with_reducible assumption
    | with_reducible apply onFab_kept
    | intro _
    | split
    | dsimp only

theorem cntLoad_kept {kq : List Instr} (p : Page) (k v : Nat) (s : State) (kh : Kept kq s) : Kept kq (State.cntLoad p k v s) := by
  unfold State.cntLoad
  try dsimp only
  repeat' first
    | with_reducible assumption
    | with_reducible apply onFab_kept
    | intro _
    | split
    | dsimp only

theorem commonWrite_kept {kq : List Instr} (p : Page) (d : RegDef) (off w : Nat) (s : State) (kh : Kept kq s) : Kept kq (State.commonWrite p d off w s) := by
  unfold State.commonWrite
  try dsimp only
  repeat' first
    | with_reducible assumption
    | with_reducible apply pgCtl_kept
    | with_reducible apply fltForce_kept
    | with_reducible apply stickyClear_kept
    | with_reducible apply maskWrite_kept
    | with_reducible apply sevWrite_kept
    | with_reducible apply plainWrite_kept
    | with_reducible apply cntSel_kept
    | with_reducible apply cntLoad_kept
    | intro _
    | split
    | dsimp only

theorem reservedOp_kept {kq : List Instr} (s : State) (kh : Kept kq s) : Kept kq (State.reservedOp s) := by
  unfold State.reservedOp
  try dsimp only
  repeat' first
    | with_reducible assumption
    | with_reducible apply count_kept
    | intro _
    | split
    | dsimp only

theorem keyOpWrite_kept {kq : List Instr} (w : Nat) (s : State) (kh : Kept kq s) : Kept kq (State.keyOpWrite w s) := by
  unfold State.keyOpWrite
  try dsimp only
  repeat' first
    | with_reducible assumption
    | with_reducible apply count_kept
    | with_reducible apply keyRetire_kept
    | with_reducible apply reservedOp_kept
    | intro _
    | split
    | dsimp only

theorem regionOpWrite_kept {kq : List Instr} (w : Nat) (s : State) (kh : Kept kq s) : Kept kq (State.regionOpWrite w s) := by
  unfold State.regionOpWrite
  try dsimp only
  repeat' first
    | with_reducible assumption
    | with_reducible apply count_kept
    | with_reducible apply regionRetireWrite_kept
    | with_reducible apply reservedOp_kept
    | intro _
    | split
    | dsimp only

theorem poolOpWrite_kept {kq : List Instr} (p w : Nat) (s : State) (kh : Kept kq s) : Kept kq (State.poolOpWrite p w s) := by
  unfold State.poolOpWrite
  try dsimp only
  repeat' first
    | with_reducible assumption
    | with_reducible apply count_kept
    | with_reducible apply poolOp_kept
    | with_reducible apply reservedOp_kept
    | intro _
    | split
    | dsimp only

theorem bayRt_kept {kq : List Instr} (b w : Nat) (s : State) (kh : Kept kq s) : Kept kq (State.bayRt b w s) := by
  unfold State.bayRt
  try dsimp only
  repeat' first
    | with_reducible assumption
    | with_reducible apply when_kept
    | with_reducible apply driveReset_kept
    | intro _
    | split
    | dsimp only

theorem blockWrite_kept {kq : List Instr} (p : Page) (d : RegDef) (off w : Nat) (s : State) (kh : Kept kq s) : Kept kq (State.blockWrite p d off w s) := by
  unfold State.blockWrite
  try dsimp only
  repeat' first
    | with_reducible assumption
    | with_reducible apply when_kept
    | with_reducible apply announce_kept
    | with_reducible apply restorePorts_kept
    | with_reducible apply todWrite_kept
    | with_reducible apply cmprLaneCtl_kept
    | with_reducible apply meterAck_kept
    | with_reducible apply volOp_kept
    | with_reducible apply bankCtl_kept
    | with_reducible apply xprtCloseWrite_kept
    | with_reducible apply fwCtl_kept
    | with_reducible apply pairRt_kept
    | with_reducible apply mboxCfg_kept
    | with_reducible apply mboxTail_kept
    | with_reducible apply mboxRingBase_kept
    | with_reducible apply evrHead_kept
    | with_reducible apply evrCfg_kept
    | with_reducible apply cntGlobal_kept
    | with_reducible apply plainWrite_kept
    | with_reducible apply keyOpWrite_kept
    | with_reducible apply regionOpWrite_kept
    | with_reducible apply poolOpWrite_kept
    | with_reducible apply bayRt_kept
    | intro _
    | split
    | dsimp only

theorem devWrite_kept {kq : List Instr} (rq : Requester) (d : RegDef) (off w : Nat) (s : State) (kh : Kept kq s) : Kept kq (State.devWrite rq d off w s) := by
  unfold State.devWrite
  try dsimp only
  repeat' first
    | with_reducible assumption
    | with_reducible apply count_kept
    | with_reducible apply swapCtl_kept
    | with_reducible apply factoryKey_kept
    | with_reducible apply plainWrite_kept
    | intro _
    | split
    | dsimp only

theorem write32_kept {kq : List Instr} (rq : Requester) (p : Page) (off w : Nat) (s : State) (kh : Kept kq s) : Kept kq (State.write32 rq p off w s) := by
  unfold State.write32
  try dsimp only
  repeat' first
    | with_reducible assumption
    | with_reducible apply count_kept
    | with_reducible apply when_kept
    | with_reducible apply shadowWrite_kept
    | with_reducible apply windowWrite_kept
    | with_reducible apply commonWrite_kept
    | with_reducible apply blockWrite_kept
    | with_reducible apply devWrite_kept
    | intro _
    | split
    | dsimp only

theorem write64_kept {kq : List Instr} (p : Page) (off : Nat) (w : BitVec 64) (s : State) (kh : Kept kq s) : Kept kq (State.write64 p off w s) := by
  unfold State.write64
  try dsimp only
  repeat' first
    | with_reducible assumption
    | with_reducible apply count_kept
    | with_reducible apply when_kept
    | with_reducible apply cntLoad_kept
    | intro _
    | split
    | dsimp only

theorem msixWrite_kept {kq : List Instr} (a : Nat) (wide : Bool) (w : BitVec 64) (s : State) (kh : Kept kq s) : Kept kq (State.msixWrite a wide w s) := by
  unfold State.msixWrite
  try dsimp only
  repeat' first
    | with_reducible assumption
    | with_reducible apply onFab_kept
    | with_reducible apply onEp_kept
    | intro _
    | split
    | dsimp only

theorem fabWrite_kept {kq : List Instr} (rq : Requester) (a : Nat) (wide : Bool) (w : BitVec 64) (s : State) (kh : Kept kq s) : Kept kq (State.fabWrite rq a wide w s) := by
  unfold State.fabWrite
  try dsimp only
  repeat' first
    | with_reducible assumption
    | with_reducible apply undefAccess_kept
    | with_reducible apply write32_kept
    | with_reducible apply write64_kept
    | intro _
    | split
    | dsimp only

theorem barWrite_kept {kq : List Instr} (rq : Requester) (bar : Bar) (a : Nat) (wide : Bool) (w : BitVec 64) (poisoned : Bool) (s : State) (kh : Kept kq s) : Kept kq (State.barWrite rq bar a wide w poisoned s) := by
  unfold State.barWrite
  try dsimp only
  repeat' first
    | with_reducible assumption
    | with_reducible apply draw_kept2
    | with_reducible apply aerLog_kept
    | with_reducible apply msixWrite_kept
    | with_reducible apply fabWrite_kept
    | intro _
    | split
    | (refine draw_kept ?_ (by with_reducible assumption))
    | dsimp only

theorem metEvent_kept {kq : List Instr} (rq : Requester) (bar : Bar) (a : Nat) (wide poisoned : Bool) (met : Nat) (s : State) (kh : Kept kq s) : Kept kq (State.metEvent rq bar a wide poisoned met s) := by
  unfold State.metEvent
  try dsimp only
  repeat' first
    | with_reducible assumption
    | with_reducible apply count_kept
    | with_reducible apply onFab_kept
    | intro _
    | split
    | dsimp only

theorem execRegWrite_kept {kq : List Instr} {ko : State} (rq : Requester) (bar : Bar) (addr : Nat) (wide : Bool) (value : BitVec 64) (way : WriteWay) (s : State) (kh : Kept kq s) (ke : execRegWrite rq bar addr wide value way s = .next ko) : Kept kq ko := by
  unfold execRegWrite at ke
  refine next_kept ?_ ke
  try dsimp only
  repeat' first
    | with_reducible assumption
    | with_reducible apply barAccess_kept
    | with_reducible apply barWrite_kept
    | with_reducible apply metEvent_kept
    | intro _
    | split
    | dsimp only

theorem execCoreWriteRetry_kept {kq : List Instr} {ko : State} (addr : RegAt) (first second : BitVec 64) (s : State) (kh : Kept kq s) (ke : execCoreWriteRetry addr first second s = .next ko) : Kept kq ko := by
  unfold execCoreWriteRetry at ke
  refine next_kept ?_ ke
  try dsimp only
  repeat' first
    | with_reducible assumption
    | with_reducible apply count_kept
    | with_reducible apply fabWrite_kept
    | intro _
    | split
    | dsimp only

end Sys2Proof.Machine
end

