-- ==== Sys2Proof/Laws/Kept/PwrExec.lean ====
section
/-!
SUPPORT. What the operations of Machine/PwrExec.lean keep.
-/
namespace Sys2Proof.Machine
open Sys2Proof

theorem vauxRise_kept {kq : List Instr} (s : State) (kh : Kept kq s) : Kept kq (State.vauxRise s) := by
  unfold State.vauxRise
  try dsimp only
  repeat' first
    | with_reducible assumption
    | with_reducible apply onIsland_kept
    | with_reducible apply syncPins_kept
    | intro _
    | split
    | dsimp only

theorem vauxFall_kept {kq : List Instr} (s : State) (kh : Kept kq s) : Kept kq (State.vauxFall s) := by
  unfold State.vauxFall
  try dsimp only
  repeat' first
    | with_reducible assumption
    | with_reducible apply onIsland_kept
    | with_reducible apply syncPins_kept
    | with_reducible apply setOwnOut_kept
    | with_reducible apply setFenceOut_kept
    | intro _
    | split
    | dsimp only

theorem porAssert_kept {kq : List Instr} (s : State) (kh : Kept kq s) : Kept kq (State.porAssert s) := by
  unfold State.porAssert
  try dsimp only
  repeat' first
    | with_reducible assumption
    | with_reducible apply emit_kept
    | with_reducible apply onIsland_kept
    | with_reducible apply when_kept
    | with_reducible apply setOwnOut_kept
    | with_reducible apply coreReset_kept
    | intro _
    | split
    | dsimp only

theorem gradeReset_kept {kq : List Instr} (e : Bool) (s : State) (kh : Kept kq s) : Kept kq (State.gradeReset e s) := by
  unfold State.gradeReset
  try dsimp only
  repeat' first
    | with_reducible assumption
    | with_reducible apply onFab_kept
    | intro _
    | split
    | dsimp only

theorem porRelease_kept {kq : List Instr} (slotHigh testMode gradeE : Bool) (s : State) (kh : Kept kq s) : Kept kq (State.porRelease slotHigh testMode gradeE s) := by
  unfold State.porRelease
  try dsimp only
  repeat' first
    | with_reducible assumption
    | with_reducible apply onIsland_kept
    | with_reducible apply onPol_kept
    | with_reducible apply setF_kept
    | with_reducible apply syncPins_kept
    | with_reducible apply startUp_kept
    | with_reducible apply gradeReset_kept
    | intro _
    | split
    | dsimp only

theorem thermalTrip_kept {kq : List Instr} (s : State) (kh : Kept kq s) : Kept kq (State.thermalTrip s) := by
  unfold State.thermalTrip
  try dsimp only
  repeat' first
    | with_reducible assumption
    | with_reducible apply onIsland_kept
    | with_reducible apply onJrnl_kept
    | with_reducible apply tripNow_kept
    | with_reducible apply powerFailed_kept
    | intro _
    | split
    | dsimp only

theorem execVauxRise_kept {kq : List Instr} {ko : State} (s : State) (kh : Kept kq s) (ke : execVauxRise s = .next ko) : Kept kq ko := by
  unfold execVauxRise at ke
  refine next_kept ?_ ke
  try dsimp only
  repeat' first
    | with_reducible assumption
    | with_reducible apply vauxRise_kept
    | intro _
    | split
    | dsimp only

theorem execVauxFall_kept {kq : List Instr} {ko : State} (s : State) (kh : Kept kq s) (ke : execVauxFall s = .next ko) : Kept kq ko := by
  unfold execVauxFall at ke
  refine next_kept ?_ ke
  try dsimp only
  repeat' first
    | with_reducible assumption
    | with_reducible apply vauxFall_kept
    | intro _
    | split
    | dsimp only

theorem execPorAssert_kept {kq : List Instr} {ko : State} (s : State) (kh : Kept kq s) (ke : execPorAssert s = .next ko) : Kept kq ko := by
  unfold execPorAssert at ke
  refine next_kept ?_ ke
  try dsimp only
  repeat' first
    | with_reducible assumption
    | with_reducible apply porAssert_kept
    | intro _
    | split
    | dsimp only

theorem execPorRelease_kept {kq : List Instr} {ko : State} (slotHigh testMode gradeE : Bool) (s : State) (kh : Kept kq s) (ke : execPorRelease slotHigh testMode gradeE s = .next ko) : Kept kq ko := by
  unfold execPorRelease at ke
  refine next_kept ?_ ke
  try dsimp only
  repeat' first
    | with_reducible assumption
    | with_reducible apply porRelease_kept
    | intro _
    | split
    | dsimp only

theorem execThermalTrip_kept {kq : List Instr} {ko : State} (s : State) (kh : Kept kq s) (ke : execThermalTrip s = .next ko) : Kept kq ko := by
  unfold execThermalTrip at ke
  refine next_kept ?_ ke
  try dsimp only
  repeat' first
    | with_reducible assumption
    | with_reducible apply thermalTrip_kept
    | intro _
    | split
    | dsimp only

end Sys2Proof.Machine
end

