-- ==== Sys2Proof/Laws/Kept/ClockOps.lean ====
section
/-!
SUPPORT. What the operations of Machine/ClockOps.lean keep.
-/
namespace Sys2Proof.Machine
open Sys2Proof

theorem ptpCycle_kept {kq : List Instr} (s : State) (kh : Kept kq s) : Kept kq (State.ptpCycle s) := by
  unfold State.ptpCycle
  dsimp only
  have k := kh.half
  split
  · exact onPtp_kept _ (by assumption) kh.sec kh
  · refine when_kept _ _ (fun k => minuteDue_kept _ _ k) (onPtp_kept _ ?_ (Nat.mod_lt _ (Nat.two_pow_pos 48)) kh)
    show s.ptp.half + cycleHalf - 2000000000 < 2000000000
    unfold cycleHalf
    omega

theorem eachMs_kept {kq : List Instr} (s : State) (kh : Kept kq s) : Kept kq (State.eachMs s) := by
  unfold State.eachMs
  try dsimp only
  repeat' first
    | with_reducible assumption
    | with_reducible apply when_kept
    | with_reducible apply syncLane_kept
    | with_reducible apply syncDirty_kept
    | with_reducible apply releaseRecs_kept
    | with_reducible apply foldl_kept
    | intro _
    | split
    | dsimp only

theorem restartPages_kept {kq : List Instr} (s : State) (kh : Kept kq s) : Kept kq (State.restartPages s) := by
  unfold State.restartPages
  try dsimp only
  repeat' first
    | with_reducible assumption
    | with_reducible apply pageAct_kept
    | with_reducible apply foldl_kept
    | intro _
    | split
    | dsimp only

theorem tick_kept {kq : List Instr} (s : State) (kh : Kept kq s) : Kept kq s.tick := by
  unfold State.tick
  dsimp only
  have k : Kept kq { s with now := s.now + cycleHalf } := kh.of rfl rfl rfl
  split
  · exact k
  · exact when_kept _ _ (fun k => eachMs_kept _ k) (ptpCycle_kept _ (restartPages_kept _ k))

end Sys2Proof.Machine
end

