-- ==== Sys2Proof/Machine/TapOps.lean ====
section
/-!
DEFINITION. The test access port (R744, R5). No command of the opcode table drives it: these operations stand for what its pins do.
-/
namespace Sys2Proof.Machine
open Sys2Proof

def tapIdcode : Nat := 0x24B18F3D
/-- TRST_N changes: while it is low the TAP is held in reset, and the instruction is the one that follows reset. -/
def TapSt.trst (low : Bool) (t : TapSt) : TapSt := { held := low, instr := if low then .idcode else t.instr }
/-- An instruction is loaded. -/
def TapSt.load (i : TapInstr) (t : TapSt) : TapSt := if t.held then t else { t with instr := i }
/-- What the data register captures, where the spec gives it: the IDCODE; the one bit of BYPASS, also selected by CLAMP and HIGHZ. -/
def TapSt.capture (t : TapSt) : Option Nat := match t.instr with
  | .idcode => some tapIdcode
  | .bypass | .clamp | .highz => some 0
  | .samplePreload | .extest | .extestPulse | .extestTrain | .debug => none

def State.onTap (g : TapSt → TapSt) (s : State) : State := { s with tap := g s.tap }
/-- A debug instruction reads all device state. -/
def State.tapRead (s : State) : Option State := if !s.tap.held ∧ s.tap.instr = .debug then some s else none
/-- A debug instruction writes all device state; the TAP's own stays. -/
def State.tapWrite (x s : State) : State := if !s.tap.held ∧ s.tap.instr = .debug then { x with tap := s.tap } else s

end Sys2Proof.Machine
end

