-- ==== Sys2Proof/Laws/Kept/TapOps.lean ====
section
/-!
SUPPORT. What the operations of Machine/TapOps.lean keep.
-/
namespace Sys2Proof.Machine
open Sys2Proof

theorem onTap_kept {kq : List Instr} (g : TapSt → TapSt) (s : State) (kh : Kept kq s) : Kept kq (State.onTap g s) :=
  ⟨kh.queue, kh.mem, kh.half, kh.sec⟩

theorem tapRead_keptO {kq : List Instr} (s : State) (kh : Kept kq s) : OptKept kq (State.tapRead s) := by
  unfold State.tapRead
  try dsimp only
  repeat' first
    | with_reducible assumption
    | with_reducible exact optKept_none
    | with_reducible apply optKept_some
    | with_reducible apply optKept_map
    | with_reducible apply optKept_foldl
    | exact OptKept.kept (by assumption) _ rfl
    | intro _
    | split
    | dsimp only
theorem tapRead_keptE {kq : List Instr} {ko : State} {s : State} (kh : Kept kq s) (ke : State.tapRead s = some ko) : Kept kq ko := (tapRead_keptO s kh).kept ko ke

theorem tapWrite_kept {kq : List Instr} (x s : State) (kx : Kept kq x) (kh : Kept kq s) : Kept kq (State.tapWrite x s) := by
  unfold State.tapWrite
  split
  · exact ⟨kx.queue, kx.mem, kx.half, kx.sec⟩
  · exact kh

end Sys2Proof.Machine
end

