-- ==== Sys2Proof/Laws/Line.lean ====
section
/-!
SUPPORT. What the operations on ports leave of a port.
-/
namespace Sys2Proof.Machine
open Sys2Proof

/-- The ports are read from LINE's part alone. -/
theorem port_of_line {s t : State} (h : t.line = s.line) (p : Nat) : t.port p = s.port p := by
  unfold State.port
  rw [h]
/-- What LINE keeps of its ports and retrains. -/
@[simp] theorem dropHeldOn_ports (p : Nat) (s : State) : (s.dropHeldOn p).line.ports = s.line.ports := by
  simp only [State.dropHeldOn, State.when]
  split <;> simp
@[simp] theorem dropHeldOn_retrains (p : Nat) (s : State) : (s.dropHeldOn p).line.retrains = s.line.retrains := by
  simp only [State.dropHeldOn, State.when]
  split <;> simp
@[simp] theorem beginPort_ports (p : Nat) (v : PortSt) (s : State) :
    (s.beginPort p v).line.ports = s.line.ports.set p { v with up := false, training := true } := by
  unfold State.beginPort State.when
  repeat' split
  all_goals simp [State.setPort]
@[simp] theorem beginPort_retrains (p : Nat) (v : PortSt) (s : State) : (s.beginPort p v).line.retrains = s.line.retrains := by
  unfold State.beginPort State.when
  repeat' split
  all_goals simp [State.setPort]
/-- A port that goes down keeps its lanes. -/
theorem portDown_port {s : State} {p : Nat} {v : PortSt} (again : Bool) (h : s.port p = some v) :
    (s.portDown p again).port p = some { v with up := false, training := again } := by
  unfold State.portDown
  rw [h]
  dsimp only
  rw [port_of_line (syncAround_line _ _)]
  unfold State.port
  rw [dropHeldOn_ports]
  unfold State.when
  cases again <;> split <;> simp [State.setPort]
/-- Going down leaves the retrains recorded. -/
@[simp] theorem portDown_retrains (p : Nat) (again : Bool) (s : State) : (s.portDown p again).line.retrains = s.line.retrains := by
  unfold State.portDown State.when
  repeat' split
  all_goals simp [State.setPort]
/-- A retrain, or the threshold crossed in its place, leaves the port its lanes. -/
theorem retrainOrRetire_port {s : State} {lane p : Nat} {v : PortSt} (hl : s.portOfLane lane = some p) (h : s.port p = some v) :
    ∃ w, (s.retrainOrRetire lane).port p = some w ∧ w.lanes = v.lanes := by
  unfold State.retrainOrRetire
  rw [hl]
  dsimp only
  split
  · exact ⟨v, h, rfl⟩
  · split
    · exact ⟨v, by rw [port_of_line (s := s) (by simp)]; exact h, rfl⟩
    · unfold State.retrainLane
      dsimp only
      exact ⟨_, portDown_port true (v := v) h, rfl⟩

end Sys2Proof.Machine
end

