-- ==== Sys2Proof/Laws/Unit.lean ====
section
/-!
SUPPORT. Laws of stored units: the CRC fits its field, the header gives back its fields, and a raw unit passes every check.
-/
namespace Sys2Proof.Machine
open Sys2Proof

theorem crcBit_lt (c : Nat) (h : c < 2 ^ 32) : crcBit c < 2 ^ 32 := by
  unfold crcBit
  split
  · exact Nat.xor_lt_two_pow (by omega) (by decide)
  · omega

theorem crcByte_lt (c b : Nat) (hc : c < 2 ^ 32) (hb : b < 2 ^ 32) : crcByte c b < 2 ^ 32 := by
  unfold crcByte
  generalize List.range 8 = l
  have h0 : c ^^^ b < 2 ^ 32 := Nat.xor_lt_two_pow hc hb
  revert h0
  generalize c ^^^ b = x
  induction l generalizing x with
  | nil => exact id
  | cons a l ih => exact fun h => ih _ (crcBit_lt x h)

theorem toBytes_lt (n x b : Nat) (h : b ∈ toBytes n x) : b < 2 ^ 32 := by
  obtain ⟨i, -, rfl⟩ := List.mem_map.1 h
  exact Nat.lt_trans (Nat.mod_lt _ (by decide)) (by decide)

theorem crc_fold_lt (l : List Nat) (c : Nat) (hl : ∀ b ∈ l, b < 2 ^ 32) (hc : c < 2 ^ 32) : l.foldl crcByte c < 2 ^ 32 := by
  induction l generalizing c with
  | nil => exact hc
  | cons a l ih => exact ih _ (fun b h => hl b (List.mem_cons_of_mem a h)) (crcByte_lt c a hc (hl a List.mem_cons_self))

/-- A CRC-32C fits 32 bits. -/
theorem crc32c_lt (n x : Nat) : crc32c n x < 2 ^ 32 :=
  Nat.xor_lt_two_pow (crc_fold_lt _ _ (toBytes_lt n x) (by decide)) (by decide)

/-- The fields of a header of Table 11.1 with its body above it. -/
theorem header_fields (f r l u c b : Nat) (hf : f < 2 ^ 4) (hr : r < 2 ^ 8) (hl : l < 2 ^ 16) (hu : u < 2 ^ 32) (hc : c < 2 ^ 32) :
    let x := f + 1 * 2 ^ 4 + r * 2 ^ 8 + l * 2 ^ 16 + u * 2 ^ 32 + c * 2 ^ 96 + b * 2 ^ 128
    hdrFormat x = f ∧ hdrVer x = 1 ∧ hdrLen x = l ∧ hdrUcrc x = u ∧ hdrKey x = 0 ∧ hdrChk x = c ∧
      bytesAt x 0 8 = f + 1 * 2 ^ 4 + r * 2 ^ 8 + l * 2 ^ 16 + u * 2 ^ 32 ∧ x / 2 ^ 128 = b := by
  simp only [hdrFormat, hdrVer, hdrLen, hdrUcrc, hdrKey, hdrChk, bytesAt, bitsOf]
  omega

/-- LEN of a stored unit is 16 and the length of its body (R433). -/
theorem storedUnit_hdrLen (f r u : Nat) (b : Blob) (hf : f < 2 ^ 4) (hr : r < 2 ^ 8) (hu : u < 2 ^ 32) :
    hdrLen (storedUnit f r u b).val = (16 + b.len) % 2 ^ 16 :=
  (header_fields f r _ u _ _ hf hr (Nat.mod_lt _ (by decide)) hu (crc32c_lt 8 _)).2.2.1

/-- The header of a stored unit read back (R433), and its body. -/
theorem storedUnit_fields (f r u : Nat) (b : Blob) (hf : f < 2 ^ 4) (hr : r < 2 ^ 8) (hu : u < 2 ^ 32) :
    hdrFormat (storedUnit f r u b).val = f ∧ hdrVer (storedUnit f r u b).val = 1 ∧
      hdrLen (storedUnit f r u b).val = (16 + b.len) % 2 ^ 16 ∧ hdrUcrc (storedUnit f r u b).val = u ∧
      hdrChk (storedUnit f r u b).val = crc32c 8 (bytesAt (storedUnit f r u b).val 0 8) ∧
      (storedUnit f r u b).val / 2 ^ 128 = b.val % 2 ^ (8 * b.len) := by
  have h := header_fields f r ((16 + b.len) % 2 ^ 16) u
    (crc32c 8 (f + 1 * 2 ^ 4 + r * 2 ^ 8 + (16 + b.len) % 2 ^ 16 * 2 ^ 16 + u * 2 ^ 32)) (b.val % 2 ^ (8 * b.len)) hf hr
    (Nat.mod_lt _ (by decide)) hu (crc32c_lt _ _)
  obtain ⟨h1, h2, h3, h4, -, h6, h7, h8⟩ := h
  simp only [storedUnit]
  exact ⟨h1, h2, h3, h4, h6.trans (congrArg (crc32c 8) h7.symm), h8⟩

/-- A unit whose header and CRC are right passes R450 with its bytes. -/
theorem checkUnit_ok (u grans x : Nat) (h1 : headerOk u grans = true) (h2 : decodeBody u = some x) (h3 : crc32c unitBytes x = hdrUcrc u) :
    checkUnit u grans = .inl x := by
  unfold checkUnit
  simp only [h1, h2, h3, Bool.not_true, Bool.false_eq_true, if_false, if_true]

/-- A raw unit passes every check of R450 and gives its bytes back. -/
theorem checkUnit_rawUnit (r d : Nat) (hr : r < 2 ^ 8) (hd : d < 2 ^ (8 * unitBytes)) : checkUnit (rawUnit r d).val 33 = .inl d := by
  obtain ⟨h1, h2, h3, h4, h6, h8⟩ := storedUnit_fields 0 r (crc32c unitBytes d) ⟨unitBytes, d⟩ (by decide) hr (crc32c_lt _ _)
  unfold rawUnit
  generalize (storedUnit 0 r (crc32c unitBytes d) ⟨unitBytes, d⟩).val = x at h1 h2 h3 h4 h6 h8 ⊢
  have h3' : hdrLen x = 16400 := h3
  have hx : bytesAt x 16 unitBytes = d := by
    unfold bytesAt bitsOf
    generalize hn : 8 * unitBytes = n at hd h8 ⊢
    have h9 : x / 2 ^ (8 * 16) = d % 2 ^ n := h8
    rw [h9, Nat.mod_mod, Nat.mod_eq_of_lt hd]
  have ok : headerOk x 33 = true := by
    unfold headerOk
    rw [h1, h2, h3', h6, decide_eq_true (Eq.refl _)]
    rfl
  have body : decodeBody x = some d := by
    unfold decodeBody
    rw [h1]
    exact congrArg some hx
  exact checkUnit_ok x 33 d ok body h4.symm

/-- LEN of a compressed unit that fits, as a lane writes it (R433, R435). -/
theorem form_hdrLen_fit (w : WUnit) (b : Blob) (h : w.fmt = 1 ∨ w.fmt = 2) (h0 : 0 < b.len) (h1 : b.len ≤ 15872) :
    hdrLen (w.form b false).1.val = 16 + b.len := by
  have e : (w.form b false).1 = storedUnit w.fmt 0 (crc32c unitBytes w.data) b := by
    unfold WUnit.form
    rw [if_neg (by decide), if_neg (by omega), if_neg (by omega)]
  rw [e, storedUnit_hdrLen _ _ _ _ (by omega) (by decide) (crc32c_lt _ _)]
  omega

/-- LEN of a unit whose compressed form is too long: it is stored raw (R435). -/
theorem form_hdrLen_raw (w : WUnit) (b : Blob) (h : w.fmt = 1 ∨ w.fmt = 2) (h1 : 15872 < b.len) :
    hdrLen (w.form b false).1.val = 16400 := by
  have e : (w.form b false).1 = rawUnit 2 w.data := by
    unfold WUnit.form
    rw [if_neg (by decide), if_neg (by omega), if_pos (.inl h1)]
  rw [e]
  unfold rawUnit
  rw [storedUnit_hdrLen _ _ _ _ (by decide) (by decide) (crc32c_lt _ _)]
  rfl

end Sys2Proof.Machine
end

