-- ==== Sys2Proof/Laws/Xprt.lean ====
section
/-!
SUPPORT. What the operations on connections leave of a context.
-/
namespace Sys2Proof.Machine
open Sys2Proof

/-- A context is read from XPRT's part alone. -/
theorem ctx_of_xprt {s t : State} (h : t.xprt = s.xprt) (i : Nat) : t.ctx i = s.ctx i := by
  unfold State.ctx
  rw [h]
theorem ctx_of_maps {s t : State} (h : t.xprt.ctx = s.xprt.ctx) (hb : t.xprt.baseInc = s.xprt.baseInc) (i : Nat) : t.ctx i = s.ctx i := by
  unfold State.ctx XprtSt.blank
  rw [h, hb]
@[simp] theorem ctx_setCtx (i : Nat) (c : Ctx) (s : State) : (s.setCtx i c).ctx i = c := by
  unfold State.ctx State.setCtx
  rw [State.onXprt_xprt]
  exact SMap.get_put_same _ _ _ _
theorem ctx_setCtx_ne (i j : Nat) (c : Ctx) (s : State) (h : j ≠ i) : (s.setCtx i c).ctx j = s.ctx j := by
  unfold State.ctx State.setCtx
  rw [State.onXprt_xprt]
  exact SMap.get_put_ne _ _ _ _ _ _ h
@[simp] theorem ctx_onCtx (i : Nat) (g : Ctx → Ctx) (s : State) : (s.onCtx i g).ctx i = g (s.ctx i) := ctx_setCtx _ _ _
@[simp] theorem ctx_onRx (i : Nat) (g : CtxRx → CtxRx) (s : State) : (s.onRx i g).ctx i = { s.ctx i with rx := g (s.ctx i).rx } := ctx_setCtx _ _ _
@[simp] theorem ctx_onTx (i : Nat) (g : CtxTx → CtxTx) (s : State) : (s.onTx i g).ctx i = { s.ctx i with tx := g (s.ctx i).tx } := ctx_setCtx _ _ _
@[simp] theorem ctx_onCtxId (i : Nat) (g : CtxId → CtxId) (s : State) : (s.onCtxId i g).ctx i = { s.ctx i with id := g (s.ctx i).id } :=
  ctx_setCtx _ _ _
@[simp] theorem ctx_onCtxStat (i : Nat) (g : CtxStat → CtxStat) (s : State) : (s.onCtxStat i g).ctx i = { s.ctx i with st := g (s.ctx i).st } :=
  ctx_setCtx _ _ _
@[simp] theorem ctx_onSeal (i : Nat) (g : CtxSeal → CtxSeal) (s : State) : (s.onSeal i g).ctx i = { s.ctx i with sl := g (s.ctx i).sl } :=
  ctx_setCtx _ _ _
@[simp] theorem ctx_setConnState (i : Nat) (st : ConnState) (s : State) : (s.setConnState i st).ctx i = { s.ctx i with state := st } :=
  ctx_setCtx _ _ _
@[simp] theorem ctx_count (e : Evt) (n : Nat) (s : State) (j : Nat) : (s.count e n).ctx j = s.ctx j := ctx_of_xprt (by simp) j
@[simp] theorem ctx_emit (e : Emit) (s : State) (j : Nat) : (s.emit e).ctx j = s.ctx j := ctx_of_xprt (by simp) j
@[simp] theorem ctx_occur (x : Src) (s : State) (j : Nat) : (s.occur x).ctx j = s.ctx j := ctx_of_xprt (by simp) j
@[simp] theorem ctx_setF (p : Page) (x : Fld) (v : Nat) (s : State) (j : Nat) : (s.setF p x v).ctx j = s.ctx j := ctx_of_xprt (by simp) j
@[simp] theorem ctx_onFab (k : Fab → Fab) (s : State) (j : Nat) : (s.onFab k).ctx j = s.ctx j := ctx_of_xprt (by simp) j
@[simp] theorem ctx_onLine (k : LineSt → LineSt) (s : State) (j : Nat) : (s.onLine k).ctx j = s.ctx j := ctx_of_xprt (by simp) j
@[simp] theorem ctx_onPtp (k : PtpSt → PtpSt) (s : State) (j : Nat) : (s.onPtp k).ctx j = s.ctx j := ctx_of_xprt (by simp) j
@[simp] theorem ctx_onGard (k : GardSt → GardSt) (s : State) (j : Nat) : (s.onGard k).ctx j = s.ctx j := ctx_of_xprt (by simp) j
@[simp] theorem ctx_onTmgr (k : TmgrSt → TmgrSt) (s : State) (j : Nat) : (s.onTmgr k).ctx j = s.ctx j := ctx_of_xprt (by simp) j
@[simp] theorem ctx_onVat (k : VatSt → VatSt) (s : State) (j : Nat) : (s.onVat k).ctx j = s.ctx j := ctx_of_xprt (by simp) j
@[simp] theorem ctx_onCell (k : CellSt → CellSt) (s : State) (j : Nat) : (s.onCell k).ctx j = s.ctx j := ctx_of_xprt (by simp) j
@[simp] theorem ctx_onCmdq (k : CmdqSt → CmdqSt) (s : State) (j : Nat) : (s.onCmdq k).ctx j = s.ctx j := ctx_of_xprt (by simp) j
@[simp] theorem ctx_onRegn (k : RegnSt → RegnSt) (s : State) (j : Nat) : (s.onRegn k).ctx j = s.ctx j := ctx_of_xprt (by simp) j
@[simp] theorem ctx_onJrnl (k : JrnlSt → JrnlSt) (s : State) (j : Nat) : (s.onJrnl k).ctx j = s.ctx j := ctx_of_xprt (by simp) j
@[simp] theorem ctx_onCmpr (k : CmprSt → CmprSt) (s : State) (j : Nat) : (s.onCmpr k).ctx j = s.ctx j := ctx_of_xprt (by simp) j
@[simp] theorem ctx_onPlce (k : PlceSt → PlceSt) (s : State) (j : Nat) : (s.onPlce k).ctx j = s.ctx j := ctx_of_xprt (by simp) j
@[simp] theorem ctx_onStrp (k : StrpSt → StrpSt) (s : State) (j : Nat) : (s.onStrp k).ctx j = s.ctx j := ctx_of_xprt (by simp) j
@[simp] theorem ctx_onDrvp (k : DrvpSt → DrvpSt) (s : State) (j : Nat) : (s.onDrvp k).ctx j = s.ctx j := ctx_of_xprt (by simp) j
@[simp] theorem ctx_onPair (k : PairSt → PairSt) (s : State) (j : Nat) : (s.onPair k).ctx j = s.ctx j := ctx_of_xprt (by simp) j
@[simp] theorem ctx_onPol (k : PolSt → PolSt) (s : State) (j : Nat) : (s.onPol k).ctx j = s.ctx j := ctx_of_xprt (by simp) j
@[simp] theorem ctx_when (c : Bool) (g : State → State) (s : State) (j : Nat) (h : (g s).ctx j = s.ctx j) : (s.when c g).ctx j = s.ctx j := by
  unfold State.when
  split
  · exact h
  · rfl
@[simp] theorem get_setCtx (i : Nat) (c : Ctx) (s : State) (p : Page) (x : Fld) : (s.setCtx i c).get p x = s.get p x := State.get_of_fab (by simp) p x
@[simp] theorem get_onCtx (i : Nat) (k : Ctx → Ctx) (s : State) (p : Page) (x : Fld) : (s.onCtx i k).get p x = s.get p x := State.get_of_fab (by simp) p x
@[simp] theorem get_onRx (i : Nat) (k : CtxRx → CtxRx) (s : State) (p : Page) (x : Fld) : (s.onRx i k).get p x = s.get p x := State.get_of_fab (by simp) p x
@[simp] theorem get_onTx (i : Nat) (k : CtxTx → CtxTx) (s : State) (p : Page) (x : Fld) : (s.onTx i k).get p x = s.get p x := State.get_of_fab (by simp) p x
@[simp] theorem get_onCtxId (i : Nat) (k : CtxId → CtxId) (s : State) (p : Page) (x : Fld) : (s.onCtxId i k).get p x = s.get p x := State.get_of_fab (by simp) p x
@[simp] theorem get_onCtxStat (i : Nat) (k : CtxStat → CtxStat) (s : State) (p : Page) (x : Fld) : (s.onCtxStat i k).get p x = s.get p x := State.get_of_fab (by simp) p x
@[simp] theorem get_onSeal (i : Nat) (k : CtxSeal → CtxSeal) (s : State) (p : Page) (x : Fld) : (s.onSeal i k).get p x = s.get p x := State.get_of_fab (by simp) p x
@[simp] theorem get_setConnState (i : Nat) (k : ConnState) (s : State) (p : Page) (x : Fld) : (s.setConnState i k).get p x = s.get p x := State.get_of_fab (by simp) p x
@[simp] theorem get_touch (i : Nat) (s : State) (p : Page) (x : Fld) : (s.touch i).get p x = s.get p x := State.get_of_fab (by simp) p x
/-- The cache of contexts alone changes. -/
@[simp] theorem ctx_touch (i j : Nat) (s : State) : (s.touch i).ctx j = s.ctx j := ctx_of_maps (by simp [State.touch]) (by simp [State.touch]) j
@[simp] theorem ctx_evictCtx (i j : Nat) (s : State) : (s.evictCtx i).ctx j = s.ctx j :=
  ctx_of_maps (by simp [State.evictCtx]) (by simp [State.evictCtx]) j
@[simp] theorem ctx_syncXprt (j : Nat) (s : State) : s.syncXprt.ctx j = s.ctx j := ctx_of_xprt (by simp) j
@[simp] theorem ctx_cacheRoom (j : Nat) (s : State) : s.cacheRoom.2.ctx j = s.ctx j := by
  unfold State.cacheRoom
  repeat' split
  all_goals simp
@[simp] theorem ctx_startFetch (i j : Nat) (s : State) : (s.startFetch i).ctx j = s.ctx j := by
  unfold State.startFetch
  split
  · rfl
  · rw [ctx_syncXprt, ctx_of_maps (s := s.cacheRoom.2) (by simp) (by simp), ctx_cacheRoom]
@[simp] theorem ctx_acquire (i j : Nat) (s : State) : (s.acquire i).ctx j = s.ctx j := by
  unfold State.acquire
  split
  · simp
  · exact ctx_when _ _ _ _ (ctx_startFetch _ _ _)

@[simp] theorem learnPath_fab (i : Nat) (rx : RxMeta) (n : Nat) (s : State) : (s.learnPath i rx n).fab = s.fab := by simp [State.learnPath]

/-! ### Egress -/

/-- Two states whose context `j` differs in the seal part alone. -/
abbrev SealOnly (j : Nat) (s t : State) : Prop :=
  (t.ctx j).tx = (s.ctx j).tx ∧ (t.ctx j).state = (s.ctx j).state ∧ (t.ctx j).rx = (s.ctx j).rx
theorem sealOnly_of_eq {j : Nat} {s t : State} (h : t.ctx j = s.ctx j) : SealOnly j s t := by simp [SealOnly, h]
theorem sealOnly_trans {j : Nat} {s t u : State} (h : SealOnly j s t) (k : SealOnly j t u) : SealOnly j s u :=
  ⟨k.1.trans h.1, k.2.1.trans h.2.1, k.2.2.trans h.2.2⟩
theorem sealOnly_onSeal (i j : Nat) (g : CtxSeal → CtxSeal) (s : State) : SealOnly j s (s.onSeal i g) := by
  by_cases h : j = i
  · subst h
    simp [SealOnly]
  · simp [SealOnly, State.onSeal, State.onCtx, ctx_setCtx_ne _ _ _ _ h]
theorem sealOnly_when {j : Nat} (c : Bool) (g : State → State) {s : State} (h : SealOnly j s (g s)) : SealOnly j s (s.when c g) := by
  unfold State.when
  split
  · exact h
  · exact ⟨rfl, rfl, rfl⟩
/-- Sealing changes the seal part of a context alone. -/
theorem rekeyTx_keeps (i j : Nat) (s : State) : SealOnly j s (s.rekeyTx i) := by
  unfold State.rekeyTx
  dsimp only
  split
  · exact ⟨rfl, rfl, rfl⟩
  · split
    · exact sealOnly_trans (sealOnly_onSeal i j _ s) (sealOnly_of_eq (ctx_count _ _ _ _))
    · refine sealOnly_trans (sealOnly_when _ _ ?_) (sealOnly_when _ _ (sealOnly_of_eq (ctx_of_maps (by simp) (by simp) j)))
      exact sealOnly_trans (sealOnly_onSeal i j _ s) (sealOnly_of_eq (ctx_occur _ _ _))
theorem sealPkt_keeps (i j : Nat) (p : OutPkt) (s : State) : SealOnly j s (s.sealPkt i p).2 := by
  unfold State.sealPkt
  dsimp only
  split
  · exact ⟨rfl, rfl, rfl⟩
  · split
    · exact ⟨rfl, rfl, rfl⟩
    · exact sealOnly_trans (sealOnly_trans (sealOnly_onSeal i j _ s) (sealOnly_of_eq (ctx_count _ _ _ _))) (rekeyTx_keeps i j _)

end Sys2Proof.Machine
end

