-- ==== Sys2Proof/WellFormed.lean ====
section
/-!
DEFINITION. Which commands are well formed: every operand names something the device has. A command that is not does nothing that the
spec describes; the meanings take every operand, and leave the state as it is where it names nothing.
-/
namespace Sys2Proof

/-- The instances of a block (Table 2.2). -/
def Blk.pages : Blk → Nat
  | .line => 80 | .gard => 3 | .strp => 5 | .drvp => 24 | .bayp => 24 | .mgmt => 4 | _ => 1
/-- A page that exists (R51), and one with the common layout (R63). -/
def okAnyPage (p : Page) : Bool := decide (p.inst < p.blk.pages)
def okPage (p : Page) : Bool := okAnyPage p && decide (p.blk ≠ .dev)
def okPort (n : Nat) : Bool := decide (n < 64)
def okLane (n : Nat) : Bool := decide (n < 64)
def okGroup (n : Nat) : Bool := decide (n < 16)
def okPrio (n : Nat) : Bool := decide (n < 8)
def okBay (n : Nat) : Bool := decide (n < 24)
def okPool (n : Nat) : Bool := decide (n < 4)
def okStream (n : Nat) : Bool := decide (n < 2)
def okCtx (n : Nat) : Bool := decide (n < 65536)
def okRegion (n : Nat) : Bool := decide (n < 65536)
def okKey (n : Nat) : Bool := decide (n < 2 ^ 20)
def okSlot (n : Nat) : Bool := decide (n < 262144)
def okVector (n : Nat) : Bool := decide (n < 2048)
def okTag (n : Nat) : Bool := decide (n < 1024)
def okRing (n : Nat) : Bool := decide (n < 4)
def okEvent (n : Nat) : Bool := decide (1 ≤ n ∧ n ≤ 7)
def okTable (n : Nat) : Bool := decide (n < 256)
def okCell (n : Nat) : Bool := decide (n < 524288)
def okClass (n : Nat) : Bool := decide (n < 4)
def okVatPort (n : Nat) : Bool := decide (n < 48)
def okRoot (n : Nat) : Bool := decide (n < 68)
def okBritos (n : Nat) : Bool := decide (n < 24)
def okBritosGroup (n : Nat) : Bool := decide (n < 4)
def okCmprLane (n : Nat) : Bool := decide (n < 60)
def okChannel (n : Nat) : Bool := decide (n < 64)
def okBlob (b : Blob) : Bool := decide (b.val < 2 ^ (8 * b.len))
def okAddr (bar : Bar) (a : Nat) : Bool := match bar with
  | .bar0 => decide (a < 0x20000000)
  | .bar2 => decide (a < 0x100000)
  | .bar4 => decide (a < 0x10000)
def okBayOr (o : Option Nat) (tag : Nat) : Bool := match o with
  | some b => okBay b && okTag tag
  | none => okTag tag
def okSample (x : PwrSample) : Bool := decide (x.vin12 < 65536 ∧ x.vout12 < 65536 ∧ x.vin3 < 65536 ∧ x.vout3 < 65536 ∧ x.i12 < 65536)
def okHdr (h : PeerHdr) : Bool := okBritosGroup h.group && decide (h.lseq < 2 ^ 32 ∧ h.winEpoch < 2 ^ 32 ∧ h.window < 256)

/-- The command is well formed. -/
def Instr.wf : Instr → Bool
  | .regWrite _ bar a _ _ _ => okAddr bar a
  | .undefinedAccess _ a _ _ => okAddr .bar0 a
  | .woFieldRead _ a => okAddr .bar0 a
  | .reg64LowerRead _ bar a => okAddr bar a
  | .coreWriteRetry r _ _ => okAddr .bar0 r.addr
  | .accErrRead _ | .missqStatRead _ | .cmdqMaxuseRead _ | .vatMaxqRead _ | .cellMinfreeRead _ | .pairCkptAgeRead _ => true
  | .swapGo | .swapRevert | .swapSync | .swapCommit | .syncComplete => true
  | .swapCtlMulti go revert sync => decide (2 ≤ ([go, revert, sync].filter id).length)
  | .swapReject p | .safePointTimeout p => okPage p
  | .pageEnable p _ | .pageDrain p _ | .pageSoftReset p _ | .pageRetire p _ => okPage p
  | .pageStartComplete p _ | .pageStartTimeout p | .pageDrainComplete p | .pageDrainTimeout p => okPage p
  | .tblReadChunk _ p _ t | .tblWriteChunk _ p _ t | .tblClearEntry _ p _ t => okPage p && okTable t
  | .tblOpComplete _ p => okPage p
  | .faultOccurrence p loc _ => okPage p && okTable loc
  | .faultForce p n _ | .faultStickyClear p n _ _ | .faultMaskWrite p n _ _ => okPage p && okPrio n
  | .faultSevWrite p n _ => okPage p && okGroup n
  | .factoryKeyWrite _ | .counterClearAll _ | .counterFreezeAll _ => true
  | .rxFrame port _ _ => okPort port
  | .pfcXoffRefresh port prio | .pfcPauseExpiry port prio => okPort port && okPrio prio
  | .groupAnnounce g | .portRestore g _ => okGroup g
  | .laneLockLoss n | .laneSymThreshold n _ => okLane n
  | .portLinkUp p | .portTrainTimeout p | .portNarrow p | .narrowTimeout p => okPort p
  | .ppsEdge | .ptpTodWrite _ | .ptpTimeRead _ | .ptpUpdate _ _ | .ptpHoldoverTimeout | .ptpFreeTimeout => true
  | .rxRequestPacket rx _ | .rxAck rx _ | .rxSeqNak rx _ | .rxRnrNak rx _ | .rxFatalNak rx _ | .rxReadResponse rx _ | .rxCnp rx _ =>
    okPort rx.port
  | .ackDelayExpiry c | .rateIncrease c | .ackTimeout c | .rnrTimerExpiry c | .xprtSend c | .rekeyLoad c _ | .ctxFetchComplete c _ _ => okCtx c
  | .cmReq r => okPort r.port
  | .cmReqAnswer _ _ _ _ => true
  | .cmRtu c | .cmRej c | .cmDreq c | .cmDrep c | .repRetryTimeout c | .dreqRetryTimeout c | .flushComplete c | .timewaitExpiry c => okCtx c
  | .cmUnsupported _ | .xprtClose _ => true
  | .keyFetchComplete i _ | .keyRetire i | .keyQuietExpiry i => okKey i
  | .keyChangeConfirm => true
  | .capsuleRx c => okCtx c
  | .slotAssign => true
  | .cmdAdmit n | .cmdCommit n | .responseAcked n | .connect n | .propertySet n | .propertyGet n | .authenticationSend n _
  | .authenticationReceive n | .getLogPage n | .identify n | .abort n | .setFeatures n | .getFeatures n | .asyncEventRequest n
  | .keepAlive n | .flush n | .write n | .read n | .writeZeroes n | .datasetManagement n => okSlot n
  | .katoExpiry _ | .fwHoldEnd | .fwHoldTimeout | .regionLocalPlaced _ _ | .regionReadExecute _ _ => true
  | .setPolicy c | .subscribe c | .unsubscribe c | .placeFlush c | .controlMsgInvalid c => okCtx c
  | .notifySend i | .notifyAcked i => okRegion i
  | .regionRetire i | .regionZeroComplete i => okRegion i
  | .regionTableConfirm | .regnMirrorLate _ | .destageUnit _ | .destageLag | .policerRefill => true
  | .rootSelect r => okRoot r
  | .sampleTick | .meterSecondTick | .meterMinuteClose | .meterAckWrite _ | .vatCellTime => true
  | .unitEnqueue i outs c _ => okVatPort i && outs.all okVatPort && okClass c
  | .cellAllocRequest p c _ _ _ _ => okVatPort p && okClass c
  | .cellAllocRetry => true
  | .cellFree c _ _ | .cellSramError c _ => okCell c
  | .cellBankRetire _ => true
  | .jrnlRecordOpen n => okSlot n
  | .jrnlLocalPlaced _ _ | .jrnlMirrorLate _ | .jrnlHandoff _ _ => true
  | .powerFailAssert | .powerFailGlitch | .powerFailRecognised | .saveQuiesceEnd | .saveWriteEnd | .saveCommitEnd => true
  | .saveMemberFail b => okBay b
  | .jrnlRestoreBegin _ _ hs => hs.all fun h => okBay h.1
  | .jrnlRestoreComplete recs _ pages _ =>
    (recs.all fun r => okBlob r.data && decide (r.head < 2 ^ 512)) && pages.all fun x => decide (x.addr % 4096 = 0 ∧ x.data < 2 ^ 135168)
  | .sealedRecordOpen _ _ | .compressStart | .decompressStart => true
  | .chainAbandonTimeout n | .decompressComplete n => okCmprLane n
  | .laneParityError n _ => okCmprLane n
  | .compressComplete n body _ => okCmprLane n && okBlob body
  | .laneSelftest _ | .cmprLaneRetire _ | .unitPack _ => true
  | .stripeFillTimeout p n => okPool p && okStream n
  | .stripWriteComplete | .segmentWaitStall _ | .mapPageReadComplete _ _ | .mapWbTimer _ | .mapWbComplete _ => true
  | .segmentFree p _ | .pressSelect p _ => okPool p
  | .pressRelocateCommit | .volumeDiscard _ | .volumeDiscardComplete => true
  | .poolCreate p | .poolImport p | .poolExport p | .importPhaseComplete p _ | .rebuildStripe p _ | .rebuildCheckpoint p | .lossHandle p _
  | .turnerRow p _ _ => okPool p
  | .poolFailMember p b | .poolClearLabel p b => okPool p && okBay b
  | .drivePresenceDebounce b _ | .perstRelease b | .driveLinkUp b _ _ _ _ | .driveBringup b _ | .driveLinkDown b | .driveRequestIssue b
  | .driveCompletion b _ _ _ _ | .driveDmaRead b _ _ | .driveCmdTimeout b _ | .tagQuarantineEnd b _ | .driveCto b _
  | .bayReset1 b | .bayReset2 b | .driveResetComplete b _ | .reset1Timeout b | .reset2Timeout b | .driveIdleTimeout b | .drivePsComplete b
  | .driveAerMessage b _ _ _ _ => okBay b
  | .driveDmaWrite b _ d => okBay b && okBlob d
  | .bayStartGrant => true
  | .auxTimeout b | .pgStable b | .retryIntervalExpiry b | .gate3OffDelay b | .damageDetectorArm b | .damageCheckPass b => okBay b
  | .auxGood b x | .droopFault b x | .auxDroopFault b x | .damageTrip b x | .nonOwnerSenseChange b x => okBay b && okSample x
  | .faultTimerExpiry b _ _ x | .shortTrip b _ _ x | .powerGood b _ _ x => okBay b && okSample x
  | .heartbeatTimeout | .ownInChange _ | .ownClaimAssert | .ownershipGrant | .claimBackoffEnd | .discoverTimeout | .fenceInAssert
  | .fenceInDeassert | .unfence | .forceClaim | .release | .britosLinkLoss | .hbWatchdogExpiry => true
  | .britosLinkUp v lanes => okTable v && lanes.all okBritos
  | .britosLaneLockLoss n | .britosLaneUp n => okBritos n
  | .mirrorWriteRx h _ | .checkpointRx h _ | .recordRx h _ | .syncDataRx h _ => okHdr h
  | .mirrorConfirmRx g _ | .linkAckRx g _ _ => okBritosGroup g
  | .healthRx _ | .handoverRx | .britosFrameCrcErr | .syncCompletePair | .checkpointRound | .healthRecordWrite | .takeoverStageEnd
  | .cultureCheck _ _ | .policyLoopTick | .retirementEval | .adaptTick | .thermalTick _ _ _ => true
  | .pcRetireComplete n => okChannel n
  | .fwActivate _ | .fwValidateComplete | .fwStartComplete _ => true
  | .epLinkDown | .epLinkUp | .epPerst _ | .epFlr | .epDstateChange _ _ _ => true
  | .msixUnmask none => true
  | .msixUnmask (some v) => okVector v
  | .msixAddressWrite v _ _ => okVector v
  | .epDmaTimeout t => okTag t
  | .mboxEnable _ | .mboxTailWrite _ | .mboxFetchComplete _ _ | .getInfo | .slotRead | .smbusXfer _ _ | .mboxComplete => true
  | .slotWrite d _ _ => okBlob d
  | .eventRecordPost t _ => okEvent t
  | .evrHeadWrite n _ | .evrEnable n _ => okRing n
  | .vauxRise | .vauxFall | .porAssert | .porRelease _ _ _ | .thermalTrip => true
  | .busMasterEnable _ => true
  | .pcieUnexpectedCompletion b t | .pcieTagQuarantineEnd b t => okBayOr b t
  | .epTlpError _ _ => true

end Sys2Proof
end

