-- ==== Sys2Proof/Tests/Slice0.lean ====
section
/-!
SUPPORT. Tests: an ill-formed command for each check, single steps against the worked examples of spec/, and for every statement
with hypotheses a state and operands that meet them.
-/
namespace Sys2Proof.Tests
set_option maxRecDepth 100000
set_option Elab.async false
open Sys2Proof Sys2Proof.Machine

/-- A state with a page ON. -/
def on (p : Page) (s : State) : State := s.onFab fun f => f.setPage p { f.page p with state := .on }
def page (p : Page) (g : PageSt → PageSt) (s : State) : State := s.onFab fun f => f.setPage p (g (f.page p))
/-- A connection whose context is on die. -/
def conn (i : Nat) (c : Ctx) (s : State) : State := (s.setCtx i c).onXprt fun x => { x with cache := i :: x.cache }
def aBlob : Blob := ⟨4, 0x04030201⟩
def sX : State := on pgXprt State.reset
def eth (p : Nat) (v : PortSt) (s : State) : State := s.setPort p v
def upPort (p : Nat) (s : State) : State := eth p { lanes := [p], up := true, home := p } s
def sqe (opc cid : Nat) : Nat := opc + cid * 2 ^ 16
/-- CMDQ with a slot of connection 3, its queue, and controller 1. -/
def withSlot (n : Nat) (x : Slot) (q : Queue) (c : Ctrl) : State :=
  (((conn 3 { state := .ready } (on pgCmdq (on pgXprt State.reset))).setSlot n x).setQueue 3 q).setCtrl 1 c

/-! ### Well-formedness: one ill-formed term for each check -/

theorem test_wf_refuses_addresses :
    Instr.wf (.regWrite .mgmt .bar0 0x20000000 false 0 {}) = false ∧ Instr.wf (.regWrite .mgmt .bar2 0x100000 false 0 {}) = false ∧
    Instr.wf (.regWrite .mgmt .bar4 0x10000 false 0 {}) = false ∧ Instr.wf (.swapCtlMulti true false false) = false := by decide
theorem test_wf_refuses_pages :
    Instr.wf (.pageEnable ⟨.dev, 0⟩ 0) = false ∧ Instr.wf (.pageEnable ⟨.gard, 3⟩ 0) = false ∧
    Instr.wf (.pageEnable ⟨.line, 80⟩ 0) = false ∧ Instr.wf (.tblReadChunk .mgmt pgXprt true 256) = false ∧
    Instr.wf (.faultSevWrite pgXprt 16 0) = false ∧ Instr.wf (.faultForce pgXprt 8 0) = false := by decide
theorem test_wf_refuses_network :
    Instr.wf (.portLinkUp 64) = false ∧ Instr.wf (.laneLockLoss 64) = false ∧ Instr.wf (.groupAnnounce 16) = false ∧
    Instr.wf (.pfcPauseExpiry 0 8) = false ∧ Instr.wf (.ackTimeout 65536) = false ∧ Instr.wf (.keyRetire (2 ^ 20)) = false ∧
    Instr.wf (.cmdAdmit 262144) = false ∧ Instr.wf (.regionRetire 65536) = false ∧ Instr.wf (.rootSelect 68) = false ∧
    Instr.wf (.unitEnqueue 48 [] 0 0) = false ∧ Instr.wf (.unitEnqueue 0 [48] 0 0) = false ∧ Instr.wf (.unitEnqueue 0 [] 4 0) = false ∧
    Instr.wf (.cellSramError 524288 true) = false := by decide
theorem test_wf_refuses_storage :
    Instr.wf (.bayReset1 24) = false ∧ Instr.wf (.poolImport 4) = false ∧ Instr.wf (.stripeFillTimeout 0 2) = false ∧
    Instr.wf (.chainAbandonTimeout 60) = false ∧ Instr.wf (.compressComplete 0 ⟨1, 256⟩ false) = false ∧
    Instr.wf (.jrnlRestoreComplete [] [] [⟨512, 0, none⟩] []) = false ∧ Instr.wf (.jrnlRestoreComplete [⟨0, ⟨1, 256⟩, 0, none⟩] [] [] []) = false ∧
    Instr.wf (.droopFault 0 ⟨65536, 0, 0, 0, 0⟩) = false := by decide
theorem test_wf_refuses_control :
    Instr.wf (.britosLaneUp 24) = false ∧ Instr.wf (.linkAckRx 4 0 false) = false ∧ Instr.wf (.pcRetireComplete 64) = false ∧
    Instr.wf (.msixUnmask (some 2048)) = false ∧ Instr.wf (.epDmaTimeout 1024) = false ∧ Instr.wf (.eventRecordPost 0 0) = false ∧
    Instr.wf (.eventRecordPost 8 0) = false ∧ Instr.wf (.evrHeadWrite 4 0) = false ∧
    Instr.wf (.pcieTagQuarantineEnd (some 24) 0) = false ∧ Instr.wf (.checkpointRx ⟨4, 0, 0, 0, 0, 0⟩ (.ctx 0 0)) = false := by decide
theorem test_wf_takes_limits :
    Instr.wf (.regWrite .core .bar0 0x1FFFFFFC false 0 {}) = true ∧ Instr.wf (.pageEnable ⟨.line, 79⟩ 1) = true ∧
    Instr.wf (.keyRetire 0xFFFFF) = true ∧ Instr.wf (.bayReset1 23) = true ∧ Instr.wf (.rootSelect 67) = true := by decide

/-! ### Single steps, against the worked examples and tables of spec/ -/

/-- The state a command leaves. -/
def after (o : Result) : State := match o with
  | .next t => t
  | _ => State.reset

theorem test_reset_memory : Safety.Inv State.reset := by
  refine ⟨?_, ?_⟩
  · show memWf _ = true
    decide
  · unfold Safety.TimeOk
    decide
/-- No row of the table gives bits. -/
theorem test_no_words : decodeTableWord 32 0x12345678 = none := rfl
/-- The check value of CRC-32C in RFC 3720, B.4: 32 bytes of zeros. -/
theorem test_crc32c : crc32c 32 0 = 0x8A9136AA := by decide +kernel

/-- FIPS 180-4: SHA-256 of "abc". -/
theorem test_sha256 : sha256.hash [0x61, 0x62, 0x63] = [0xBA, 0x78, 0x16, 0xBF, 0x8F, 0x01, 0xCF, 0xEA, 0x41, 0x41, 0x40, 0xDE, 0x5D, 0xAE, 0x22,
    0x23, 0xB0, 0x03, 0x61, 0xA3, 0x96, 0x17, 0x7A, 0x9C, 0xB4, 0x10, 0xFF, 0x61, 0xF2, 0x00, 0x15, 0xAD] := by decide +kernel
/-- FIPS 197, C.3: AES-256 of 00112233445566778899AABBCCDDEEFF under the key 00 to 1F, and back. -/
def aesKey : List (List Nat) := aesKeys (ofBytes (List.range 32))
def aesText : List Nat := (List.range 16).map fun i => 17 * i
theorem test_aes256 : aesBlock aesKey aesText = [0x8E, 0xA2, 0xB7, 0xCA, 0x51, 0x67, 0x45, 0xBF, 0xEA, 0xFC, 0x49, 0x90, 0x4B, 0x49, 0x60, 0x89] ∧
    aesUnblock aesKey (aesBlock aesKey aesText) = aesText := by decide +kernel
/-- RFC 7748, 5.2: the first vector of X25519. -/
theorem test_x25519 : x25519 (ofBytes [0xA5, 0x46, 0xE3, 0x6B, 0xF0, 0x52, 0x7C, 0x9D, 0x3B, 0x16, 0x15, 0x4B, 0x82, 0x46, 0x5E, 0xDD, 0x62, 0x14, 0x4C, 0x0A,
      0xC1, 0xFC, 0x5A, 0x18, 0x50, 0x6A, 0x22, 0x44, 0xBA, 0x44, 0x9A, 0xC4])
    (ofBytes [0xE6, 0xDB, 0x68, 0x67, 0x58, 0x30, 0x30, 0xDB, 0x35, 0x94, 0xC1, 0xA4, 0x24, 0xB1, 0x5F, 0x7C, 0x72, 0x66, 0x24, 0xEC, 0x26, 0xB3, 0x35, 0x3B,
      0x10, 0xA9, 0x03, 0xA6, 0xD0, 0xAB, 0x1C, 0x4C]) =
    ofBytes [0xC3, 0xDA, 0x55, 0x37, 0x9D, 0xE9, 0xC6, 0x90, 0x8E, 0x94, 0xEA, 0x4D, 0xF2, 0x8D, 0x08, 0x4F, 0x32, 0xEC, 0xCF, 0x03, 0x49, 0x1C, 0x71, 0xF7,
      0x54, 0xB4, 0x07, 0x55, 0x77, 0xA2, 0x85, 0x52] := by decide +kernel

/-- Policer 17 of Table 8.1. -/
def pol17 : Nat := 1 + 10000 * 2 ^ 8 + 20000 * 2 ^ 32 + 16384 * 2 ^ 64 + 32768 * 2 ^ 96
theorem test_policer_colours :
    polColour pol17 (polFull pol17) 73728 .green = (.green, ⟨57344, 188416⟩) ∧
    polColour pol17 ⟨57344, 188416⟩ 73728 .green = (.yellow, ⟨57344, 114688⟩) ∧
    polColour pol17 ⟨77344, 80960⟩ 73728 .green = (.green, ⟨3616, 7232⟩) ∧
    polColour pol17 ⟨3616, 7232⟩ 73728 .green = (.red, ⟨3616, 7232⟩) := by decide +kernel
theorem test_policer_refill :
    (after (exec .policerRefill ((on pgTmgr (State.reset.setTab pgTmgr 1 17 pol17)).setBucket 17 ⟨57344, 114688⟩))).bucket 17 = ⟨67344, 134688⟩ := by
  decide +kernel
/-- Table 8.6. -/
theorem test_meter_record :
    meterRecord { minute := 29123456, durationMs := 60000, accs := ⟨[(1067, { readBytes := 42949672960, writeBytes := 10737418240, readOps := 10485760, writeOps := 655400, logicalMib := 122880 * 1024, physicalMib := 42030 * 1024, cmdRed := 1152 })]⟩ } 1067 =
      ofBytes [0x01, 0x00, 0x2B, 0x04, 0x80, 0x63, 0xBC, 0x01, 0x60, 0xEA, 0, 0, 0, 0, 0x0A, 0, 0, 0, 0, 0x80, 0x02, 0, 0, 0, 0xA0, 0, 0,
        0x28, 0, 0x0A, 0, 0, 0, 0, 0, 0, 0, 0, 0, 0, 0, 0, 0, 0, 0xE0, 0x01, 0, 0, 0, 0x2E, 0xA4, 0, 0, 0, 0, 0, 0, 0, 0, 0x80, 0x04, 0, 0] := by
  decide +kernel

/-- Table 18.5: the default severities of JRNL, the global number of DIRTY_LIMIT_HIT, and its force. -/
theorem test_jrnl_severities : (State.reset.fab.reg 0x09000140).toNat = 0x00026414 ∧ S.JRNL_DIRTY_LIMIT_HIT.global = 310 := by decide +kernel
def forced : State := after (exec (.faultForce pgJrnl 0 8) State.reset)
theorem test_force_sets_sticky : forced.fab.reg 0x09000100 = 8 := by decide +kernel
theorem test_force_sets_summary : bitAt (forced.fab.fltSum 9).toNat 22 = true ∧ forced.fab.pinAlert = false := by decide +kernel
/-- The example after R696: CMPR's CNT_SEL0 shows EVT_C_IN_BYTES at BAR2 0x90000. -/
theorem test_bar2_counter :
    ((after (exec (.regWrite .mgmt .bar0 0x0A000200 false 0x00003002 {}) State.reset)).onFab
      fun f => { f with cnts := ⟨[(cntKey pgCmpr 0, 77)]⟩ }).bar2Word 0x90000 = 77 := by decide +kernel

/-- Table 2.14: the first GO, while its check has found instance 3 in 400 GbE beside an 800 GbE lead. -/
def swapFails : State := (((State.reset.setF pgDev F.EPOCH_EPOCH 41).onFab (Fab.setReg 0x01029000 (setBits ((State.reset.onFab id).fab.reg 0x01029000) 0 4 4))).setF
  pgDev F.SWAP_STAT_BUSY 1).onSwap fun x => { x with run := .go, fails := [⟨⟨.line, 3⟩, 0x0004, 0x1000⟩] }
theorem test_swap_rejected :
    (let t := after (exec (.swapReject ⟨.line, 3⟩) swapFails)
     (t.get pgDev F.SWAP_STAT_RESULT, t.get pgDev F.SWAP_STAT_REJECT_BLOCK, t.get pgDev F.SWAP_STAT_REJECT_CODE, t.get pgDev F.SWAP_DETAIL_REJECT_INST,
      t.get pgDev F.SWAP_DETAIL_REJECT_OFFSET, t.swapBusy, t.get pgDev F.EPOCH_EPOCH)) = (2, 1, 4, 3, 0x1000, false, 41) := by decide +kernel

/-- Connection 9,841 of Table 4.9 has QPN 0x07_2671; its miss queue entries are full. -/
def missFull : State :=
  let p : Packet := { icrcOk := true, opcode := 10, qpn := 0x072671, psn := 0x410, payload := ⟨4096, 1⟩ }
  (on pgXprt (State.reset.setCtx 9841 { state := .ready, incarnation := 7, rx := { epsn := 0x410 } })).onXprt fun x =>
    { x with fetching := [9841], missq := (List.range 8).map fun k => ⟨9841, ⟨0, 0, 0, false, .green, none⟩, { p with psn := 0x410 + k }⟩ }
theorem test_miss_overflow :
    (let t := after (exec (.rxRequestPacket ⟨0, 0, 0, false, .green, none⟩ { icrcOk := true, opcode := 10, qpn := 0x072671, psn := 0x418, payload := ⟨4096, 1⟩ }) missFull)
     (t.xprt.missq.length, t.fab.sticky S.XPRT_MISSQ_OVF, (t.ctx 9841).st.missDrops, (t.ctx 9841).rx.epsn)) = (8, true, 1, 0x410) := by decide +kernel

/-- Table 5.3: INDEX 0x1A2C with GEN 0x11 is retired, and its quiet time passes. -/
def staleKey : State := State.reset.onGard fun g => { g with keys := ⟨[(0x1A2C, { base := 0x120000000, length := 0x10000, state := 1, gen := 0x11 })]⟩ }
theorem test_key_retired :
    (let t := after (exec (.keyRetire 0x1A2C) staleKey)
     (t.get pgKeys F.KEY_OP_STAT_NEW_GEN, (t.key 0x1A2C).state, (t.key 0x1A2C).gen)) = (0x12, 3, 0x12) := by decide +kernel
theorem test_key_quiet :
    ((after (exec (.keyQuietExpiry 0x1A2C) (after (exec (.keyRetire 0x1A2C) staleKey)))).key 0x1A2C).state = 0 := by decide +kernel

/-- Of "a brine save at partial occupancy": 11,272 MiB with parity over 24 members. -/
theorem test_save_parity : withParity 11819548672 24 = 12333442093 := by decide +kernel

/-- Table 15.4: the retry interval, and the fourth fault with RETRY_CNT = RETRIES. -/
def bay7 (ch cnt : Nat) : State := ((State.reset.setF pgPair F.PAIR_STAT_OWN 1).setF (pgBayp 7) F.BAY_PWR_STAT_CH ch).setF (pgBayp 7) F.BAY_PWR_STAT_RETRY_CNT cnt
theorem test_bay_retry :
    (let t := after (exec (.retryIntervalExpiry 7) (bay7 6 0))
     (t.ch 7, t.get (pgBayp 7) F.BAY_PWR_STAT_RETRY_CNT)) = (2, 1) := by decide +kernel
theorem test_bay_latch_off :
    (let t := after (exec (.faultTimerExpiry 7 1000 80 ⟨12000, 5890, 3300, 3300, 1300⟩) ((bay7 4 3).onPwr 7 fun b => { b with gate12 := true, gate3 := true }))
     (t.ch 7, t.get (pgBayp 7) F.BAY_PWR_STAT_LAST_CAUSE, t.fab.sticky (S.BAYP_LATCHED.on 7))) = (7, 1, true) := by decide +kernel

/-- Table 14.5: tag 0x2A7 of bay 14 times out. -/
def bay14 : State := (on (pgDrvp 14) State.reset).onBay 14 fun v => { v with out := ⟨[(0x2A7, { use := .unit 0 0, isWrite := false, cls := 1, offset := 0x82C00, bytes := 11264 })]⟩ }
theorem test_drive_timeout :
    (let t := after (exec (.driveCmdTimeout 14 0x2A7) bay14)
     (t.get (pgDrvp 14) F.BAY_OUT_QUAR, (t.bay 14).quar, (t.bay 14).out)) = (1, [0x2A7], {}) := by decide +kernel

/-- Table 3.6: the fifth loss of lane 22 drains it towards RETIRED (STATE 3, then 5). -/
def lane22 : State := (on (pgLane 22) ((upPort 20 State.reset).setPort 20 { lanes := [20, 21, 22, 23], up := true, home := 20 })).onLine fun l =>
  { l with retrains := ⟨[(22, [0, 0, 0, 0])]⟩ }
theorem test_lane_retired :
    (let t := after (exec (.laneLockLoss 22) lane22)
     ((t.fab.page (pgLane 22)).state, (t.fab.page (pgLane 22)).toRetire, t.fab.sticky (S.LINE_LANE_RETIRED.on 38), (t.line.ports.get 20 {}).up)) = (.draining, true, true, false) := by decide +kernel

/-- The clock: an empty queue is 2.5 ns, five half nanoseconds. -/
theorem test_idle_tick : (after (step State.reset)).now = 5 := by decide +kernel
/-- A queue is first in, first out. -/
theorem test_queue_order : (after (step { State.reset with pending := [.porRelease true true false, .vauxFall] })).pending = [.vauxFall] := by
  decide +kernel

/-! ### Witnesses of the statements' hypotheses -/

def sTick (h : Nat) : State := (State.reset.onIsland fun i => { i with inPor := false }).onPtp fun p => { p with half := h }
theorem witness_StepTakesFront :
    (∃ (s : State) (c : Instr) (rest : List Instr), s.pending = c :: rest) ∧
    (∃ s : State, s.pending = [] ∧ (s.pair.island.inPor = true ∨ s.heldReset = true)) ∧
    (∃ s : State, s.pending = [] ∧ s.pair.island.inPor = false ∧ s.heldReset = false ∧
      (s.fab.pages.list.all fun e => !(decide (e.2.state = .off) && e.2.pendEn)) = true ∧ (s.now + 5) / 2000000 = s.now / 2000000 ∧
      s.ptp.half + 5 < 2000000000) ∧
    (∃ s : State, s.pending = [] ∧ s.pair.island.inPor = false ∧ s.heldReset = false ∧
      (s.fab.pages.list.all fun e => !(decide (e.2.state = .off) && e.2.pendEn)) = true ∧ (s.now + 5) / 2000000 = s.now / 2000000 ∧
      2000000000 ≤ s.ptp.half + 5 ∧ (s.ptp.sec + 1) % 2 ^ 48 % 60 ≠ 0) :=
  ⟨⟨{ State.reset with pending := [.porAssert] }, .porAssert, [], rfl⟩, ⟨State.reset, by decide⟩,
   ⟨sTick 1999999994, by decide +kernel⟩, ⟨sTick 1999999995, by decide +kernel⟩⟩
theorem witness_CommandsLeaveQueue : ∃ (c : Instr) (s t : State), Safety.Inv s ∧ exec c s = .next t :=
  ⟨.vauxFall, State.reset, _, test_reset_memory, rfl⟩
theorem witness_StepsKeepInv : ∃ s t : State, Safety.Inv s ∧ step s = .next t := ⟨State.reset, _, test_reset_memory, rfl⟩

namespace Misc
def sB : State := (upPort 0 State.reset)
def ring2 (s : State) : State := ((on (pgMgmt 0) s).onEp fun p => { p with linkUp := true, bme := true }).setF (pgMgmt 0) (F.EVR_CFG_EN.idx 1) 1 |>.setF (pgMgmt 0) (F.EVR_CFG_TYPE_MASK.idx 1) 4

/-- The hypotheses of `Obligations.CounterWindow` can be met. -/
theorem witness_CounterWindow :
    (∃ (p : Page) (k : Nat), p ∈ allPages ∧ k < 8) ∧
    (∃ (s : State) (p : Page) (k : Nat), s.fab.ep.dstate = .d0 ∧ p ∈ allPages ∧ k < 8) ∧
    (∃ (s : State) (rq : Requester), s.barOpen rq = true) :=
   ⟨⟨pgBayp 23, 7, by decide +kernel⟩,
    ⟨State.reset, pgBayp 23, 7, by decide +kernel⟩,
    ⟨State.reset, .core, by decide +kernel⟩⟩

/-- The hypotheses of `Obligations.SeveralSwapBits` can be met. -/
theorem witness_SeveralSwapBits :
    ∃ (s : State) (g : Bool) (r : Bool) (y : Bool), 2 ≤ boolNat g + boolNat r + boolNat y ∧ s.swapBusy = false ∧ s.isStandby = false := ⟨ring2 State.reset, true, false, true, by decide +kernel⟩

end Misc

namespace Fab
def rOf (p : Page) (off : Nat) : Area × RegDef × Nat := match regAt p off with
  | some x => x
  | none => (.plain, ⟨"", 0, 0, 0, false, []⟩, 0)
def dOf (p : Page) (off : Nat) : RegDef := (rOf p off).2.1
def tOf (p : Page) (n : Nat) : TblDef := match findTbl p n with
  | some d => d
  | none => ⟨0, false, 0, 0, [], false⟩
def sR : State := ((((((on pgCmdq (on pgXprt State.reset)).setF pgXprt F.MISSQ_STAT_MAX 9).setF pgXprt F.MISSQ_STAT_OCC 4).setF pgCmdq F.CMDQ_MAXUSE_MAX 77).setF pgVat F.VAT_MAXQ_MAX 6).setF pgCell F.CELL_MINFREE_MIN 5).setF pgPair F.PAIR_CKPT_AGE_MAX_US 123
def sAcc : State := ((sR.setF pgDev F.ACC_ERR_ADDR 0x4567).setF pgDev F.ACC_ERR_VALID 2).onVat fun v => { v with maxQ := 6 }
def sel (p : Page) (k w : Nat) (s : State) : State := s.onFab (Fab.setReg (p.base + 0x200 + 4 * k) (BitVec.ofNat 32 w))
def cnt (p : Page) (k n : Nat) (s : State) : State := s.onFab fun f => { f with cnts := f.cnts.put (cntKey p k) 0 (BitVec.ofNat 48 n) }
def evs (p : Page) (n : Nat) (s : State) : State := sel p 0 (0x1000 + n) s
def dn (s : State) : State := s.onEp fun p => { p with dstate := .d3hot }
def busy (s : State) : State := s.setF pgDev F.SWAP_STAT_BUSY 1
def sDirty : State := (((sR.onFab (Fab.setReg 0x0F009000 0x1FF0A03)).onFab (Fab.setTab pgTmgr true 3 7 5)).onFab (Fab.setTab pgCmdq true 1 9 (16 + 1000 * 2 ^ 32))).setF pgDev F.EPOCH_EPOCH 41
def runs (r : SwapRun) (s : State) : State := busy (s.onFab fun f => { f with swap := { run := r } })
def failed (s : State) : State := s.onFab fun f => { f with swap := { f.swap with fails := [⟨pgGrp 3, 4, 0x1000⟩] } }
def ps (p : Page) (x : PgState) (s : State) : State := page p (fun v => { v with state := x }) s
def drn (p : Page) (pe tr : Bool) (s : State) : State := page p (fun v => { v with state := .draining, pendEn := pe, toRetire := tr }) s
def op (p : Page) (rq : Requester) (o : TblOp) (s : State) : State := (s.onFab (Fab.setReg (winBase p rq + 0x40) (BitVec.ofNat 32 (2 ^ 31 + o.op * 2 ^ 8 + o.table)))).onWin (winBase p rq) fun w => { w with run := some o }
def held (p : Page) (e : Nat × Bool × Nat) (c : SMap Nat) (s : State) : State := s.onWin (winBase p .mgmt) fun w => { w with heldEntry := some e, heldChunks := c }
def sTab : State := ((((sDirty.onFab (Fab.setReg (winBase pgTmgr .mgmt) 0x02000007)).onFab (Fab.setReg (winBase pgTmgr .mgmt + 0x10) 0xABCD1234)).onFab (Fab.setReg (winBase pgTmgr .mgmt + 0x2C) 0x99)).onFab (Fab.setReg (winBase pgTmgr .core) 0x02000007))
def sOpen : State := State.reset.onEp fun p => { p with linkUp := true, bme := true, msix := ⟨[(0, ⟨0x3000, 6, false⟩), (1, ⟨0x1000, 7, false⟩), (2, ⟨0x2000, 8, false⟩)]⟩ }
def stk (p : Page) (l : Nat) (s : State) : State := s.onFab (Fab.setReg (stickyAddr p l) (setBits (s.fab.reg (stickyAddr p l)) (l % 32) 1 1))
def msk (p : Page) (l : Nat) (s : State) : State := s.onFab (Fab.setReg (maskAddr p l) (setBits (s.fab.reg (maskAddr p l)) (l % 32) 1 1))
def strap (s : State) : State := s.setF (pgMgmt 2) F.FLT_TEST_STAT_STRAP 1

/-- The hypotheses of `Obligations.FabricReads` can be met. -/
theorem witness_FabricReads :
    (∃ (s : State) (rq : Requester), s.barOpen rq = true) ∧
    (∃ (s : State) (rq : Requester), s.barOpen rq = true) ∧
    (∃ (s : State) (rq : Requester), s.barOpen rq = true) ∧
    (∃ (s : State) (rq : Requester), s.barOpen rq = true) ∧
    (∃ (s : State) (rq : Requester), s.barOpen rq = true) ∧
    (∃ (s : State) (rq : Requester), s.barOpen rq = true) ∧
    (∃ (s : State) (rq : Requester) (a : Nat) (n : Nat), s.barOpen rq = true ∧ accessOk rq a n = false) ∧
    (∃ (s : State) (rq : Requester) (a : Nat) (x : Area × RegDef × Nat), s.barOpen rq = true ∧ ((Page.ofAddr a).bind fun p => regAt p (a % 0x10000)) = some x ∧ x.2.1.hasWo = true) ∧
    (∃ (s : State) (rq : Requester) (p : Page) (off : Nat), s.barOpen rq = true ∧ p ∈ allPages ∧ isWide p off = true ∧ off < 0x10000) ∧
    (∃ (s : State) (p : Page) (k : Nat), s.fab.ep.dstate = .d0 ∧ p ∈ allPages ∧ k < 8) :=
   ⟨⟨sAcc, .mgmt, by decide +kernel⟩,
    ⟨sAcc, .mgmt, by decide +kernel⟩,
    ⟨sAcc, .core, by decide +kernel⟩,
    ⟨sAcc, .mgmt, by decide +kernel⟩,
    ⟨sAcc, .mgmt, by decide +kernel⟩,
    ⟨sAcc, .mgmt, by decide +kernel⟩,
    ⟨sAcc, .core, 0x06008000, 4, by decide +kernel⟩,
    ⟨sAcc, .mgmt, 0x01000010, rOf (pgGrp 0) 0x10, by decide +kernel⟩,
    ⟨(page (pgLane 3) (fun v => { v with lastEpoch := 42, shdDirty := true }) sAcc), .mgmt, pgLane 3, 0x20, by decide +kernel⟩,
    ⟨cnt (pgGrp 0) 0 5 sAcc, pgGrp 0, 0, by decide +kernel⟩⟩

/-- The hypotheses of `Obligations.RegisterWrites` can be met. -/
theorem witness_RegisterWrites :
    (∃ (s : State) (rq : Requester) (p : Page) (k : Nat), s.barOpen rq = true ∧ p ∈ allPages ∧ k < 8) ∧
    (∃ (s : State) (rq : Requester) (p : Page) (k : Nat), s.barOpen rq = true ∧ p ∈ allPages ∧ k < 8) ∧
    (∃ (s : State) (p : Page) (d : RegDef) (n : Nat) (off : Nat), s.fab.ep.dstate = .d0 ∧ p ∈ allPages ∧ off < 0x10000 ∧ regAt p off = some (.shadow, d, n) ∧ off % 4 = 0 ∧ s.isStandby = false ∧ s.swapBusy = false) ∧
    (∃ (s : State) (p : Page) (d : RegDef) (n : Nat) (off : Nat), s.fab.ep.dstate = .d0 ∧ p ∈ allPages ∧ off < 0x10000 ∧ regAt p off = some (.shadow, d, n) ∧ off % 4 = 0 ∧ s.isStandby = false ∧ s.swapBusy = true) ∧
    (∃ (s : State) (p : Page) (d : RegDef) (n : Nat) (off : Nat), s.fab.ep.dstate = .d0 ∧ p ∈ allPages ∧ off < 0x10000 ∧ regAt p off = some (.shadow, d, n) ∧ off % 4 = 0) ∧
    (∃ (s : State) (rq : Requester) (p : Page) (d : RegDef) (n : Nat) (off : Nat), s.barOpen rq = true ∧ p ∈ allPages ∧ off < 0x10000 ∧ regAt p off = some (.active, d, n)) ∧
    (∃ (s : State) (rq : Requester) (p : Page), s.barOpen rq = true ∧ p ∈ allPages) ∧
    (∃ (s : State), s.fab.ep.dstate = .d0) ∧
    (∃ (s : State), s.fab.ep.dstate ≠ .d0) ∧
    (∃ (s : State), s.fab.ep.dstate = .d0) ∧
    (∃ (s : State) (i : Nat), s.fab.ep.dstate = .d0 ∧ i < 2048 ∧ s.fab.ep.pba = []) ∧
    (∃ (s : State) (n : Nat), s.fab.ep.dstate = .d0 ∧ n < 4) ∧
    (∃ (n : Nat), n < 4) ∧
    (∃ (p : Page) (n : Nat), p ∈ allPages ∧ n < 8) ∧
    (∃ (p : Page) (k : Nat), p ∈ allPages ∧ k < 8) :=
   ⟨⟨cnt pgRegn 7 5 sAcc, .mgmt, pgRegn, 7, by decide +kernel⟩,
    ⟨State.reset, .core, pgXprt, 7, by decide +kernel⟩,
    ⟨sAcc.setF pgDev F.SWAP_STAT_REVERT_OK 1, pgPair, dOf pgPair 0x9000, 0, 0x9000, by decide +kernel⟩,
    ⟨busy (evs (pgMgmt 0) 0x003 sAcc), pgPair, dOf pgPair 0x9000, 0, 0x9000, by decide +kernel⟩,
    ⟨evs (pgMgmt 0) 0x003 sAcc, pgPair, dOf pgPair 0x9000, 0, 0x9000, by decide +kernel⟩,
    ⟨sAcc, .mgmt, pgPair, dOf pgPair 0x1000, 0, 0x1000, by decide +kernel⟩,
    ⟨evs (pgMgmt 0) 0x004 sAcc, .mgmt, pgPair, by decide +kernel⟩,
    ⟨sAcc, by decide +kernel⟩,
    ⟨dn sAcc, by decide +kernel⟩,
    ⟨sAcc, by decide +kernel⟩,
    ⟨sAcc, 2047, by decide +kernel⟩,
    ⟨sAcc, 3, by decide +kernel⟩,
    ⟨3, by decide +kernel⟩,
    ⟨pgJrnl, 0, by decide +kernel⟩,
    ⟨pgXprt, 7, by decide +kernel⟩⟩

/-- The hypotheses of `Obligations.SwapControl` can be met. -/
theorem witness_SwapControl :
    (∃ (s : State), s.isStandby = false ∧ s.swapBusy = false) ∧
    (∃ (s : State), s.isStandby = false ∧ s.swapBusy = false ∧ s.flag pgDev F.SWAP_STAT_REVERT_OK = true ∧ (s.fab.pages.any fun _ g => g.shdDirty) = false) ∧
    (∃ (s : State), s.isStandby = false ∧ s.swapBusy = false ∧ (s.flag pgDev F.SWAP_STAT_REVERT_OK = false ∨ (s.fab.pages.any fun _ g => g.shdDirty) = true)) ∧
    (∃ (s : State), s.isStandby = false ∧ s.swapBusy = false) ∧
    (∃ (s : State) (g : Bool) (r : Bool) (y : Bool), s.isStandby = false ∧ s.swapBusy = false ∧ 2 ≤ boolNat g + boolNat r + boolNat y) ∧
    (∃ (s : State), s.isStandby = true ∨ s.swapBusy = true) ∧
    (∃ (s : State), s.isStandby = true ∨ s.swapBusy = true) ∧
    (∃ (s : State), s.isStandby = true ∨ s.swapBusy = true) ∧
    (∃ (s : State), s.isStandby = true ∨ s.swapBusy = true) ∧
    (∃ (s : State) (p : Page) (v : Nat × Nat), s.swapRuns = true ∧ p ∈ allPages ∧ s.mayFail p = some v) ∧
    (∃ (s : State) (p : Page), s.mayFail p = none) ∧
    (∃ (s : State) (p : Page), s.swapRuns = true ∧ p ∈ allPages ∧ allPages.all s.mayPass = true) ∧
    (∃ (s : State), s.fab.swap.run = .sync) ∧
    (∃ (s : State), s.fab.swap.run ≠ .sync) :=
   ⟨⟨sDirty, by decide +kernel⟩,
    ⟨sDirty.setF pgDev F.SWAP_STAT_REVERT_OK 1, by decide +kernel⟩,
    ⟨page pgPair (fun v => { v with shdDirty := true }) (sDirty.setF pgDev F.SWAP_STAT_REVERT_OK 1), by decide +kernel⟩,
    ⟨sDirty.setF pgDev F.SWAP_STAT_REVERT_OK 1, by decide +kernel⟩,
    ⟨sDirty.setF pgDev F.SWAP_STAT_REVERT_OK 1, true, true, false, by decide +kernel⟩,
    ⟨busy sDirty, by decide +kernel⟩,
    ⟨busy sDirty, by decide +kernel⟩,
    ⟨busy sDirty, by decide +kernel⟩,
    ⟨sDirty.setF pgPair F.PAIR_STAT_ROLE 4, by decide +kernel⟩,
    ⟨failed (runs .go sDirty), pgGrp 3, (4, 0x1000), by decide +kernel⟩,
    ⟨runs .go sDirty, pgCmdq, by decide +kernel⟩,
    ⟨runs .go sDirty, pgPair, by decide +kernel⟩,
    ⟨page pgPair (fun v => { v with state := .on, shdDirty := true }) ((runs .sync sDirty).setF pgDev F.SWAP_STAT_REVERT_OK 1), by decide +kernel⟩,
    ⟨runs .go sDirty, by decide +kernel⟩⟩

/-- The hypotheses of `Obligations.ConfigurationCommit` can be met. -/
theorem witness_ConfigurationCommit :
    (∃ (s : State), s.swapRuns = true ∧ allPages.all s.mayPass = true) ∧
    (∃ (s : State), s.swapRuns = false ∨ allPages.all s.mayPass = false) :=
   ⟨⟨runs .revert (sDirty.setF pgDev F.EPOCH_EPOCH 0xFFFFFFFF), by decide +kernel⟩,
    ⟨failed (runs .sync sDirty), by decide +kernel⟩⟩

/-- The hypotheses of `Obligations.PageStates` can be met. -/
theorem witness_PageStates :
    (∃ (s : State) (p : Page) (v : BitVec 32), p ∈ allPages ∧ s.heldReset = false ∧ v.toNat / 2 % 8 = 0 ∧ (s.fab.page p).state = .off ∧ ((p.blk = .line → p.inst < 16 → s.fab.severity ⟨p, 0⟩ ≠ 2))) ∧
    (∃ (s : State) (p : Page) (v : BitVec 32), p ∈ allPages ∧ s.heldReset = false ∧ v.toNat / 2 % 8 = 0 ∧ (s.fab.page p).state = .draining ∧ (s.fab.page p).toRetire = false) ∧
    (∃ (s : State) (p : Page) (v : BitVec 32), p ∈ allPages ∧ v.toNat / 2 % 8 = 0 ∧ (s.heldReset = true ∨ (s.fab.page p).state ∈ [.starting, .on, .failed, .retired] ∨ (s.fab.page p).state = .draining ∧ (s.fab.page p).toRetire = true)) ∧
    (∃ (s : State) (p : Page) (v : BitVec 32), p ∈ allPages ∧ v.toNat % 16 / 4 = 0 ∧ v.toNat % 2 = 0 ∧ (s.fab.page p).state ∈ [.starting, .on] ∧ ((p = pgTmgr → s.fab.severity S.TMGR_METER_OVERRUN ≠ 2 ∧ s.fab.severity S.TMGR_METER_SAT ≠ 2)) ∧ ((p.blk = .drvp → s.fab.severity (S.DRVP_WRITE_GATED.on p.inst) ≠ 2))) ∧
    (∃ (s : State) (p : Page), p ∈ allPages ∧ s.heldReset = false ∧ (s.fab.page p).state = .on ∧ ((p = pgTmgr → s.fab.severity S.TMGR_METER_OVERRUN ≠ 2 ∧ s.fab.severity S.TMGR_METER_SAT ≠ 2)) ∧ p.blk ≠ .pair ∧ (s.fab.page p).toRetire = false ∧ ((p.blk = .drvp → s.fab.severity (S.DRVP_WRITE_GATED.on p.inst) ≠ 2))) ∧
    (∃ (s : State) (p : Page) (v : BitVec 32), p ∈ allPages ∧ v.toNat % 16 / 4 = 0 ∧ v.toNat % 2 = 0 ∧ (s.fab.page p).state = .draining ∧ (s.fab.page p).toRetire = false ∧ (s.fab.page p).pendEn = true) ∧
    (∃ (s : State) (p : Page) (v : BitVec 32), p ∈ allPages ∧ v.toNat % 16 / 4 = 0 ∧ v.toNat % 2 = 0 ∧ ((s.fab.page p).state ∈ [.off, .failed, .retired] ∨ (s.fab.page p).state = .draining ∧ ((s.fab.page p).toRetire = true ∨ (s.fab.page p).pendEn = false))) ∧
    (∃ (s : State) (p : Page) (v : BitVec 32), p ∈ allPages ∧ v.toNat % 4 = 0 ∧ v.toNat / 8 % 2 = 0 ∧ (s.fab.page p).state ∈ [.off, .failed, .retired]) ∧
    (∃ (s : State) (p : Page) (v : BitVec 32), p ∈ allPages ∧ v.toNat % 4 = 0 ∧ v.toNat / 8 % 2 = 0 ∧ (s.fab.page p).state ∈ [.starting, .on, .draining]) ∧
    (∃ (s : State) (p : Page), p ∈ allPages ∧ s.heldReset = false ∧ (s.fab.page p).state = .failed ∧ ((p.blk = .line → p.inst < 16 → s.fab.severity ⟨p, 0⟩ ≠ 2)) ∧ p.blk ≠ .pair) ∧
    (∃ (s : State) (p : Page) (v : BitVec 32), p ∈ allPages ∧ v.toNat % 8 = 0 ∧ (s.fab.page p).state ∈ [.off, .failed]) ∧
    (∃ (s : State) (p : Page) (v : BitVec 32), p ∈ allPages ∧ v.toNat % 8 = 0 ∧ (s.fab.page p).state ∈ [.starting, .on, .draining, .retired]) :=
   ⟨⟨sR, pgBayp 3, 1, by decide +kernel⟩,
    ⟨drn pgPair false false sR, pgPair, 1, by decide +kernel⟩,
    ⟨drn pgPair false true (evs (pgMgmt 0) 0x006 sR), pgPair, 0x11, by decide +kernel⟩,
    ⟨on pgPair sR, pgPair, 2, by decide +kernel⟩,
    ⟨sR, pgXprt, by decide +kernel⟩,
    ⟨drn pgPair true false sR, pgPair, 2, by decide +kernel⟩,
    ⟨ps pgPair .retired (evs (pgMgmt 0) 0x006 sR), pgPair, 2, by decide +kernel⟩,
    ⟨page pgPair (fun v => { v with state := .retired, retireCause := 2, shdDirty := true }) sR, pgPair, 0, by decide +kernel⟩,
    ⟨evs (pgMgmt 0) 0x006 sR, pgXprt, 4, by decide +kernel⟩,
    ⟨page pgXprt (fun v => { v with state := .failed, failCause := 2 }) sR, pgXprt, by decide +kernel⟩,
    ⟨page pgPair (fun v => { v with state := .failed, failCause := 2 }) sR, pgPair, 8, by decide +kernel⟩,
    ⟨evs (pgMgmt 0) 0x006 sR, pgXprt, 8, by decide +kernel⟩⟩

/-- The hypotheses of `Obligations.PageBounds` can be met. -/
theorem witness_PageBounds :
    (∃ (s : State) (p : Page), p ∈ allPages ∧ (s.fab.page p).state = .starting ∧ (p.blk ∈ [.line, .xprt, .gard, .cmdq, .tmgr, .vat, .cell, .plce, .strp, .bayp] ∨ p ∈ [pgMgmt 0, pgMgmt 2, pgMgmt 3])) ∧
    (∃ (s : State), (s.fab.page pgSeal).state = .starting) ∧
    (∃ (s : State), (s.fab.page pgJrnl).state = .starting ∧ s.jrnl.restored = false) ∧
    (∃ (s : State) (p : Page), p ∈ allPages ∧ p.blk ≠ .pair ∧ (s.fab.page p).state ≠ .starting) ∧
    (∃ (s : State) (p : Page), p ∈ allPages ∧ (s.fab.page p).state = .starting ∧ s.startBounded p = true) ∧
    (∃ (s : State) (p : Page), p ∈ allPages ∧ s.startBounded p = false) ∧
    (∃ (s : State) (p : Page), p ∈ allPages ∧ (s.fab.page p).state = .draining ∧ s.drained p = false) ∧
    (∃ (s : State) (p : Page), p ∈ allPages ∧ (s.fab.page p).state = .draining ∧ s.drained p = true ∧ (s.fab.page p).toRetire = true) ∧
    (∃ (s : State) (p : Page), p ∈ allPages ∧ (s.fab.page p).state = .draining ∧ s.drained p = true ∧ (s.fab.page p).toRetire = false) ∧
    (∃ (s : State) (p : Page), p ∈ allPages ∧ (s.fab.page p).state = .draining) ∧
    (∃ (s : State) (p : Page), p ∈ allPages ∧ (s.fab.page p).state ≠ .draining) ∧
    (∃ (s : State) (p : Page), p ∈ allPages ∧ (s.fab.page p).state ≠ .draining) ∧
    (∃ (s : State) (p : Page), p ∈ allPages ∧ s.pending = [] ∧ s.pair.island.inPor = false ∧ s.heldReset = false ∧ s.ptp.half + 5 < 2000000000 ∧ (s.now + 5) / 2000000 = s.now / 2000000 ∧ (s.fab.pages.list.filter fun e => decide (e.2.state = .off) && e.2.pendEn) = [(p.base, s.fab.page p)] ∧ ((p.blk = .line → p.inst < 16 → s.fab.severity ⟨p, 0⟩ ≠ 2))) :=
   ⟨⟨ps (pgMgmt 3) .starting sR, pgMgmt 3, by decide +kernel⟩,
    ⟨ps pgSeal .starting sR, by decide +kernel⟩,
    ⟨ps pgJrnl .starting sR, by decide +kernel⟩,
    ⟨evs (pgMgmt 0) 0x006 sR, pgXprt, by decide +kernel⟩,
    ⟨ps (pgDrvp 3) .starting (sR.setF (pgBayp 3) F.BAY_PWR_STAT_PG 1), pgDrvp 3, by decide +kernel⟩,
    ⟨ps (pgDrvp 3) .starting sR, pgDrvp 3, by decide +kernel⟩,
    ⟨drn pgCmdq false false (sR.setSlot 3 { state := .fetched }), pgCmdq, by decide +kernel⟩,
    ⟨drn pgCmdq false true sR, pgCmdq, by decide +kernel⟩,
    ⟨drn pgPair false false sR, pgPair, by decide +kernel⟩,
    ⟨drn pgPair true true sR, pgPair, by decide +kernel⟩,
    ⟨evs (pgMgmt 0) 0x006 sR, pgXprt, by decide +kernel⟩,
    ⟨evs (pgMgmt 0) 0x006 sR, pgXprt, by decide +kernel⟩,
    ⟨page pgXprt (fun v => { v with pendEn := true }) (State.reset.onIsland fun i => { i with inPor := false }), pgXprt, by decide +kernel⟩⟩

/-- The hypotheses of `Obligations.TableWindows` can be met. -/
theorem witness_TableWindows :
    (∃ (s : State) (rq : Requester) (p : Page) (m : Nat), p ∈ allPages ∧ m < 256 ∧ getBits (s.fab.reg (winBase p rq + 0x40)) 31 1 = 0) ∧
    (∃ (s : State) (p : Page) (m : Nat), p ∈ allPages ∧ m < 256 ∧ getBits (s.fab.reg (winBase p .mgmt + 0x40)) 31 1 = 0 ∧ s.isStandby = false ∧ s.swapBusy = false) ∧
    (∃ (s : State) (p : Page) (m : Nat), p ∈ allPages ∧ m < 256 ∧ getBits (s.fab.reg (winBase p .mgmt + 0x40)) 31 1 = 0 ∧ s.isStandby = false ∧ s.swapBusy = false) ∧
    (∃ (s : State) (p : Page) (d : TblDef), p ∈ allPages ∧ findTbl p d.table = some d ∧ d.shadowed = true ∧ d.table < 256 ∧ getBits (s.fab.reg (winBase p .core + 0x40)) 31 1 = 0) ∧
    (∃ (s : State) (p : Page) (d : TblDef), p ∈ allPages ∧ findTbl p d.table = some d ∧ d.shadowed = true ∧ d.table < 256 ∧ getBits (s.fab.reg (winBase p .core + 0x40)) 31 1 = 0) ∧
    (∃ (s : State) (p : Page) (d : TblDef), p ∈ allPages ∧ findTbl p d.table = some d ∧ d.shadowed = true ∧ d.table < 256 ∧ getBits (s.fab.reg (winBase p .mgmt + 0x40)) 31 1 = 0 ∧ s.isStandby = false ∧ s.swapBusy = true) ∧
    (∃ (s : State) (rq : Requester) (p : Page), p ∈ allPages ∧ getBits (s.fab.reg (winBase p rq + 0x40)) 31 1 = 1) ∧
    (∃ (s : State) (rq : Requester) (p : Page), p ∈ allPages ∧ getBits (s.fab.reg (winBase p rq + 0x40)) 31 1 = 1) ∧
    (∃ (s : State) (rq : Requester) (p : Page), p ∈ allPages ∧ getBits (s.fab.reg (winBase p rq + 0x40)) 31 1 = 1) ∧
    (∃ (s : State) (rq : Requester) (p : Page) (o : TblOp) (d : TblDef), p ∈ allPages ∧ (s.fab.win (winBase p rq)).run = some o ∧ s.tblAwaits p rq = false ∧ s.tblBehind p rq o = false ∧ o.op = 1 ∧ findTbl p o.table = some d ∧ o.index < d.entries ∧ o.chunk < d.chunks ∧ ((o.sel = true → d.shadowed = true))) ∧
    (∃ (s : State) (p : Page) (o : TblOp) (d : TblDef), p ∈ allPages ∧ (s.fab.win (winBase p .mgmt)).run = some o ∧ s.tblAwaits p .mgmt = false ∧ s.tblBehind p .mgmt o = false ∧ o.op = 2 ∧ o.sel = true ∧ findTbl p o.table = some d ∧ d.shadowed = true ∧ d.chunks = 1 ∧ o.index < d.entries ∧ o.chunk = 0 ∧ (s.fab.win (winBase p .mgmt)).heldEntry = none ∧ (s.fab.win (winBase p .mgmt)).heldChunks = {}) ∧
    (∃ (s : State) (o : TblOp) (a : Nat) (b : Nat), (s.fab.win (winBase (pgGrp 0) .mgmt)).run = some o ∧ s.tblAwaits (pgGrp 0) .mgmt = false ∧ s.tblBehind (pgGrp 0) .mgmt o = false ∧ o.op = 2 ∧ o.sel = true ∧ o.table = 1 ∧ o.index < 4096 ∧ a < 2 ^ 256 ∧ b < 2 ^ 256 ∧ o.chunk = 0 ∧ o.data = a ∧ (s.fab.win (winBase (pgGrp 0) .mgmt)).heldEntry = none ∧ (s.fab.win (winBase (pgGrp 0) .mgmt)).heldChunks = {}) ∧
    (∃ (s : State) (o : TblOp) (a : Nat) (b : Nat), (s.fab.win (winBase (pgGrp 0) .mgmt)).run = some o ∧ s.tblAwaits (pgGrp 0) .mgmt = false ∧ s.tblBehind (pgGrp 0) .mgmt o = false ∧ o.op = 2 ∧ o.sel = true ∧ o.table = 1 ∧ o.index < 4096 ∧ a < 2 ^ 256 ∧ b < 2 ^ 256 ∧ o.chunk = 1 ∧ o.data = b ∧ (s.fab.win (winBase (pgGrp 0) .mgmt)).heldEntry = some (1, true, o.index) ∧ (s.fab.win (winBase (pgGrp 0) .mgmt)).heldChunks = ⟨[(0, a)]⟩) ∧
    (∃ (s : State) (p : Page) (o : TblOp) (d : TblDef), p ∈ allPages ∧ (s.fab.win (winBase p .mgmt)).run = some o ∧ s.tblAwaits p .mgmt = false ∧ s.tblBehind p .mgmt o = false ∧ o.op = 3 ∧ o.sel = true ∧ findTbl p o.table = some d ∧ d.shadowed = true ∧ o.index < d.entries ∧ o.chunk < d.chunks) ∧
    (∃ (s : State) (rq : Requester) (p : Page) (o : TblOp), p ∈ allPages ∧ (s.fab.win (winBase p rq)).run = some o ∧ s.tblAwaits p rq = false ∧ s.tblBehind p rq o = false ∧ findTbl p o.table = none) ∧
    (∃ (s : State) (rq : Requester) (p : Page) (o : TblOp) (d : TblDef), p ∈ allPages ∧ (s.fab.win (winBase p rq)).run = some o ∧ s.tblAwaits p rq = false ∧ s.tblBehind p rq o = false ∧ findTbl p o.table = some d ∧ (d.entries ≤ o.index ∨ d.chunks ≤ o.chunk)) ∧
    (∃ (s : State) (rq : Requester) (p : Page) (o : TblOp) (d : TblDef), p ∈ allPages ∧ (s.fab.win (winBase p rq)).run = some o ∧ s.tblAwaits p rq = false ∧ s.tblBehind p rq o = false ∧ findTbl p o.table = some d ∧ o.index < d.entries ∧ o.chunk < d.chunks ∧ o.sel = true ∧ d.shadowed = false) ∧
    (∃ (s : State) (rq : Requester) (p : Page) (o : TblOp) (d : TblDef), p ∈ allPages ∧ (s.fab.win (winBase p rq)).run = some o ∧ s.tblAwaits p rq = false ∧ s.tblBehind p rq o = false ∧ findTbl p o.table = some d ∧ o.index < d.entries ∧ o.chunk < d.chunks ∧ o.sel = false ∧ o.op ≠ 1 ∧ d.shadowed = true) ∧
    (∃ (s : State) (rq : Requester) (p : Page) (o : TblOp) (d : TblDef), p ∈ allPages ∧ (s.fab.win (winBase p rq)).run = some o ∧ s.tblAwaits p rq = false ∧ s.tblBehind p rq o = false ∧ findTbl p o.table = some d ∧ o.index < d.entries ∧ o.chunk < d.chunks ∧ o.sel = false ∧ o.op ≠ 1 ∧ d.shadowed = false ∧ d.writable = false) ∧
    (∃ (s : State) (rq : Requester) (p : Page), p ∈ allPages ∧ (s.fab.win (winBase p rq)).run = none) :=
   ⟨⟨sTab, .core, pgTmgr, 9, by decide +kernel⟩,
    ⟨sTab, pgTmgr, 9, by decide +kernel⟩,
    ⟨sTab, pgTmgr, 9, by decide +kernel⟩,
    ⟨evs (pgMgmt 0) 0x003 sTab, pgTmgr, tOf pgTmgr 3, by decide +kernel⟩,
    ⟨evs (pgMgmt 0) 0x003 sTab, pgTmgr, tOf pgTmgr 3, by decide +kernel⟩,
    ⟨busy (evs (pgMgmt 0) 0x003 sTab), pgTmgr, tOf pgTmgr 3, by decide +kernel⟩,
    ⟨op pgTmgr .mgmt ⟨1, true, 3, 7, 0, 0, 0⟩ sTab, .mgmt, pgTmgr, by decide +kernel⟩,
    ⟨op pgTmgr .mgmt ⟨1, true, 3, 7, 0, 0, 0⟩ sTab, .mgmt, pgTmgr, by decide +kernel⟩,
    ⟨op pgTmgr .mgmt ⟨1, true, 3, 7, 0, 0, 0⟩ sTab, .mgmt, pgTmgr, by decide +kernel⟩,
    ⟨op pgCell .core ⟨1, false, 2, 7, 0, 0, 0⟩ (sTab.onCell fun c => { c with peak := c.peak.set 7 88 }), .core, pgCell, ⟨1, false, 2, 7, 0, 0, 0⟩, tOf pgCell 2, by decide +kernel⟩,
    ⟨op pgTmgr .mgmt ⟨2, true, 3, 7, 0, 0x123456789ABC, 0⟩ sTab, pgTmgr, ⟨2, true, 3, 7, 0, 0x123456789ABC, 0⟩, tOf pgTmgr 3, by decide +kernel⟩,
    ⟨op (pgGrp 0) .mgmt ⟨2, true, 1, 4095, 0, 0x1234, 0⟩ sTab, ⟨2, true, 1, 4095, 0, 0x1234, 0⟩, 0x1234, 2 ^ 256 - 1, by decide +kernel⟩,
    ⟨op (pgGrp 0) .mgmt ⟨2, true, 1, 4095, 1, 2 ^ 256 - 1, 0⟩ (held (pgGrp 0) (1, true, 4095) ⟨[(0, 0x1234)]⟩ sTab), ⟨2, true, 1, 4095, 1, 2 ^ 256 - 1, 0⟩, 0x1234, 2 ^ 256 - 1, by decide +kernel⟩,
    ⟨op pgTmgr .mgmt ⟨3, true, 3, 7, 0, 0, 0⟩ (held pgTmgr (4, true, 9) ⟨[(0, 5)]⟩ sTab), pgTmgr, ⟨3, true, 3, 7, 0, 0, 0⟩, tOf pgTmgr 3, by decide +kernel⟩,
    ⟨op pgTmgr .mgmt ⟨3, true, 44, 7, 0, 0, 0⟩ sTab, .mgmt, pgTmgr, ⟨3, true, 44, 7, 0, 0, 0⟩, by decide +kernel⟩,
    ⟨op pgTmgr .mgmt ⟨3, true, 3, 4096, 0, 0, 0⟩ sTab, .mgmt, pgTmgr, ⟨3, true, 3, 4096, 0, 0, 0⟩, tOf pgTmgr 3, by decide +kernel⟩,
    ⟨op pgTmgr .mgmt ⟨1, true, 2, 8191, 0, 0, 0⟩ sTab, .mgmt, pgTmgr, ⟨1, true, 2, 8191, 0, 0, 0⟩, tOf pgTmgr 2, by decide +kernel⟩,
    ⟨op pgTmgr .mgmt ⟨2, false, 3, 7, 0, 0, 0⟩ sTab, .mgmt, pgTmgr, ⟨2, false, 3, 7, 0, 0, 0⟩, tOf pgTmgr 3, by decide +kernel⟩,
    ⟨op pgTmgr .core ⟨2, false, 2, 7, 0, 0, 0⟩ sTab, .core, pgTmgr, ⟨2, false, 2, 7, 0, 0, 0⟩, tOf pgTmgr 2, by decide +kernel⟩,
    ⟨sTab, .core, pgTmgr, by decide +kernel⟩⟩

/-- The hypotheses of `Obligations.FaultCollector` can be met. -/
theorem witness_FaultCollector :
    (∃ (s : State) (p : Page) (l : Nat), (Src.mk p l).implemented = true ∧ s.fab.sticky ⟨p, l⟩ = false ∧ p.blk ∈ [.line, .xprt, .regn, .tmgr, .vat, .cell, .jrnl, .cmpr, .strp, .drvp, .bayp, .pair] ∧ s.fab.severity ⟨p, l⟩ ≠ 2 ∧ (Src.mk p l).defaultClass ≠ 2) ∧
    (∃ (s : State) (p : Page) (l : Nat), (Src.mk p l).implemented = true ∧ s.fab.sticky ⟨p, l⟩ = false ∧ p.blk ∈ [.xprt, .regn, .tmgr, .vat, .cell, .jrnl, .cmpr, .strp, .pair] ∧ (s.fab.severity ⟨p, l⟩ = 2 ∨ (Src.mk p l).defaultClass = 2) ∧ (s.fab.page p).state.isLive = true) ∧
    (∃ (s : State) (p : Page) (l : Nat), (s.fab.sticky ⟨p, l⟩ = true ∨ (Src.mk p l).implemented = false) ∧ p.blk ∈ [.line, .xprt, .regn, .tmgr, .vat, .cell, .jrnl, .cmpr, .strp, .drvp, .bayp, .pair]) ∧
    (∃ (s : State) (p : Page) (n : Nat) (j : Nat), p ∈ allPages ∧ n < 8 ∧ j < 32 ∧ s.fab.sticky ⟨p, 32 * n + j⟩ = false ∧ s.mayForce ⟨p, 32 * n + j⟩ = true ∧ s.fab.severity ⟨p, 32 * n + j⟩ ≠ 2 ∧ (Src.mk p (32 * n + j)).defaultClass ≠ 2) ∧
    (∃ (s : State) (p : Page) (n : Nat) (j : Nat), p ∈ allPages ∧ n < 8 ∧ j < 32 ∧ s.fab.sticky ⟨p, 32 * n + j⟩ = false ∧ s.mayForce ⟨p, 32 * n + j⟩ = false) ∧
    (∃ (s : State), s.fab.sticky ⟨pgMgmt 0, 1⟩ = false ∧ (s.fab.page (pgMgmt 0)).state = .on) ∧
    (∃ (p : Page) (n : Nat), p ∈ allPages ∧ n < 8) ∧
    (∃ (s : State) (p : Page) (n : Nat) (j : Nat), p ∈ allPages ∧ n < 8 ∧ j < 32 ∧ s.fab.sticky ⟨p, 32 * n + j⟩ = true) ∧
    (∃ (p : Page) (n : Nat), p ∈ allPages ∧ n < 8) ∧
    (∃ (s : State) (p : Page) (n : Nat) (j : Nat) (v : BitVec 32), p ∈ allPages ∧ n < 8 ∧ j < 32 ∧ v = s.fab.reg (p.base + 0x120 + 4 * n) &&& ~~~(1#32 <<< j) ∧ (Src.mk p (32 * n + j)).implemented = true ∧ s.fab.sticky ⟨p, 32 * n + j⟩ = false ∧ s.fab.masked ⟨p, 32 * n + j⟩ = true ∧ s.fab.severity ⟨p, 32 * n + j⟩ ≠ 2 ∧ (Src.mk p (32 * n + j)).defaultClass ≠ 2 ∧ s.fab.msixOpen (s.fab.vectorOf ⟨p, 32 * n + j⟩) = true) ∧
    (∃ (p : Page) (n : Nat), p ∈ allPages ∧ n < 16) ∧
    (∃ (s : State), s.flag (pgMgmt 2) F.FLT_TEST_STAT_STRAP = false ∨ s.flag (pgMgmt 2) F.FLT_TEST_STAT_LOCKED = true) ∧
    (∃ (s : State), s.flag (pgMgmt 2) F.FLT_TEST_STAT_STRAP = true ∧ s.flag (pgMgmt 2) F.FLT_TEST_STAT_LOCKED = false) :=
   ⟨⟨State.reset, pgLane 4, 1, by decide +kernel⟩,
    ⟨on pgPair sOpen, pgPair, 10, by decide +kernel⟩,
    ⟨sOpen, pgJrnl, 200, by decide +kernel⟩,
    ⟨on pgJrnl sOpen, pgJrnl, 0, 3, by decide +kernel⟩,
    ⟨evs (pgMgmt 2) 0x203 sOpen, pgJrnl, 0, 31, by decide +kernel⟩,
    ⟨on (pgMgmt 0) sOpen, by decide +kernel⟩,
    ⟨pgJrnl, 0, by decide +kernel⟩,
    ⟨stk pgJrnl 3 (stk pgJrnl 1 sOpen), pgJrnl, 0, 3, by decide +kernel⟩,
    ⟨pgJrnl, 0, by decide +kernel⟩,
    ⟨msk pgJrnl 3 (stk pgJrnl 1 sOpen), pgJrnl, 0, 3, 0, by decide +kernel⟩,
    ⟨pgJrnl, 0, by decide +kernel⟩,
    ⟨sOpen, by decide +kernel⟩,
    ⟨(strap sOpen).onFab fun f => { f with factoryBad := 2 }, by decide +kernel⟩⟩

end Fab

namespace Line2
def sG : State := on (pgGrp 0) (on (pgLane 0) State.reset)
def vv : PortSt := { lanes := [0], up := true, home := 0 }
def v4 : PortSt := { lanes := [0, 1, 2, 3], up := true, home := 0 }
def ret (l : Nat) (s : State) : State := page (pgLane l) (fun p => { p with state := .retired }) s
def tpE : Nat := 1 + 2 + 1 * 2 ^ 64 + 0x0100000A * 2 ^ 128
def cnp : Packet := { icrcOk := true, opcode := 0x81, qpn := 65539, psn := 0 }
def fr : Frame := { fcsOk := true, len := 64, dst := sG.fab.portMac false 0, src := 5, body := .ipv4 true 0x0A000001 0 3 (.udp 4791 (.roce cnp)) }
def sT : State := upPort 0 (sG.setTab (pgGrp 0) 1 4 tpE)
def src (n : Nat) : State := State.reset.setF (pgGrp 0) F.PTP_CFG_SRC n
def nar : PortSt := { lanes := [0, 1], up := true, narrowed := true, home := 0 }
def sN : State := [0,1,2,3].foldl (fun t l => on (pgLane l) t) (on (pgGrp 0) (State.reset.setF (pgGrp 0) F.GRP_CFG_MODE 3))

def tr : PortSt := { lanes := [0], training := true }
def hf : HeldFrame := ⟨0, some 3, 100, none, false, .pinOwn true⟩

/-- The hypotheses of `Obligations.LineFlow` can be met. -/
theorem witness_LineFlow :
    (∃ (s : State), s.line.held = []) ∧
    (∃ (s : State) (port : Nat) (prio : Nat) (f : HeldFrame), s.line.held = [f] ∧ f.port = port ∧ f.pcp = some prio ∧ s.portUp port = true ∧ f.len ≤ s.get (pgGrp (port / 4)) F.GRP_CFG_MAX_FRAME) ∧
    (∃ (s : State) (port : Nat) (prio : Nat), s.pfcOn port prio = true ∧ s.line.xoff.contains (port * 8 + prio) = true ∧ s.get (pgGrp (port / 4)) F.PFC_THR_XON ≤ s.netCells port (some prio)) ∧
    (∃ (s : State) (g : Nat) (port : Nat) (n : Nat) (e : Nat) (v : PortSt), (port, v) ∈ s.upPorts g ∧ s.portUp port = true ∧ (n, e) ∈ s.fab.tports false ∧ tpCovers e v.lanes = true ∧ s.paused port ((tpTag e).map Prod.snd) = false) ∧
    (∃ (s : State) (port : Nat) (tp : Nat) (dst : Nat) (dscp : Nat) (ecn : Nat) (f : Frame) (p : Packet), s.portUp port = true ∧ s.isOn (pgGrp (port / 4)) = true ∧ f.fcsOk = true ∧ 64 ≤ f.len ∧ f.len ≤ s.get (pgGrp (port / 4)) F.GRP_CFG_MAX_FRAME ∧ s.macOk port f = true ∧ s.get pgPair F.PAIR_STAT_ROLE ≠ 3 ∧ s.get pgPair F.PAIR_STAT_ROLE ≠ 4 ∧ s.pair.handover = false ∧ f.body = .ipv4 true dst dscp ecn (.udp 4791 (.roce p)) ∧ s.matchTport port (frameVlan f) false dst = some tp ∧ p.opcode = 0x81) :=
   ⟨⟨sG, by decide +kernel⟩,
    ⟨(upPort 0 State.reset).onLine fun l => { l with held := [hf] }, 0, 3, hf, by decide +kernel⟩,
    ⟨(((sG.setF (pgGrp 0) F.PFC_CFG_PRIO_MASK 255).setF (pgGrp 0) F.GRP_CFG_PFC_EN 1).setF (pgGrp 0) F.PFC_THR_XON 0).onLine fun l => { l with xoff := [3] }, 0, 3, by decide +kernel⟩,
    ⟨sT, 0, 0, 4, tpE, vv, by decide +kernel⟩,
    ⟨sT, 0, 4, 0x0A000001, 0, 3, fr, cnp, by decide +kernel⟩⟩

/-- The hypotheses of `Obligations.LineLanes` can be met. -/
theorem witness_LineLanes :
    (∃ (s : State) (lane : Nat) (port : Nat) (fec : FecSecond) (v : PortSt), s.portOfLane lane = some port ∧ s.port port = some v ∧ s.isOn (pgLane lane) = true ∧ s.get (pgLane lane) F.LANE_ERR_CFG_SYM_THR < fec.symbols ∧ s.retrainCount lane < s.get (pgLane lane) F.LANE_CFG_RETRAIN_LIMIT) ∧
    (∃ (s : State) (port : Nat) (v : PortSt), s.port port = some v ∧ (∃ l ∈ v.lanes, (s.fab.page (pgLane l)).state = .retired) ∧ s.flag (pgGrp (port / 4)) F.GRP_CFG_NARROW_EN = false) ∧
    (∃ (s : State) (port : Nat) (v : PortSt) (lanes : List Nat), s.port port = some v ∧ (∃ l ∈ v.lanes, (s.fab.page (pgLane l)).state = .retired) ∧ s.flag (pgGrp (port / 4)) F.GRP_CFG_NARROW_EN = true ∧ (narrowings v.lanes).find? s.lanesOn = some lanes) ∧
    (∃ (s : State) (g : Nat) (slot : Nat) (lanes : List Nat) (p : Nat) (v : PortSt), slot < 4 ∧ (s.fab.grpPorts false g).find? (fun e => decide (e.1 = 4 * g + slot)) = some (4 * g + slot, lanes) ∧ (p, v) ∈ s.line.ports.list ∧ v.home = 4 * g + slot ∧ v.narrowed = true ∧ s.lanesOn lanes = true) ∧
    (∃ (s : State) (port : Nat) (v : PortSt), s.port port = some v ∧ v.training = true ∧ s.lanesOn v.lanes = true ∧ s.isOn (pgGrp (port / 4)) = true) ∧
    (∃ (s : State) (port : Nat) (v : PortSt), s.port port = some v ∧ v.training = true) ∧
    (∃ (s : State) (port : Nat) (v : PortSt), s.port port = some v ∧ v.narrowed = true ∧ v.up = false) ∧
    (∃ (s : State) (lane : Nat) (port : Nat) (v : PortSt), s.portOfLane lane = some port ∧ s.port port = some v ∧ s.isOn (pgLane lane) = true) :=
   ⟨⟨eth 0 vv sG, 0, 0, ⟨5000000000, 1⟩, vv, by decide +kernel⟩,
    ⟨ret 0 ((eth 0 vv sG).setF (pgGrp 0) F.GRP_CFG_NARROW_EN 0), 0, vv, by decide +kernel⟩,
    ⟨ret 3 ((eth 0 v4 sN).setF (pgGrp 0) F.GRP_CFG_NARROW_EN 1), 0, v4, [0, 1], by decide +kernel⟩,
    ⟨eth 0 nar sN, 0, 0, [0, 1, 2, 3], 0, nar, by decide +kernel⟩,
    ⟨eth 0 tr sG, 0, tr, by decide +kernel⟩,
    ⟨eth 0 tr sG, 0, tr, by decide +kernel⟩,
    ⟨eth 0 { tr with narrowed := true } sG, 0, { tr with narrowed := true }, by decide +kernel⟩,
    ⟨eth 0 tr sG, 0, 0, tr, by decide +kernel⟩⟩

/-- The hypotheses of `Obligations.DeviceTime` can be met. -/
theorem witness_DeviceTime :
    (∃ (s : State), s.get (pgGrp 0) F.PTP_CFG_SRC = 0) ∧
    (∃ (s : State), s.get (pgGrp 0) F.PTP_CFG_SRC ≠ 0) ∧
    (∃ (s : State), s.get (pgGrp 0) F.PTP_CFG_SRC = 1 ∧ s.ptp.todPending = true) ∧
    (∃ (s : State), s.ptp.sec < 2 ^ 48) ∧
    (∃ (s : State) (offset : Nat), s.get (pgGrp 0) F.PTP_CFG_SRC = 2 ∧ s.ptp.todPending = false ∧ offset < 100000 ∧ s.ptp.sec * 2000000000 + s.ptp.half + 2 * offset < 2 ^ 48 * 2000000000) ∧
    (∃ (s : State), s.get (pgGrp 0) F.PTP_STAT_SYNC = 0) ∧
    (∃ (s : State), s.get (pgGrp 0) F.PTP_STAT_SYNC = 1) :=
   ⟨⟨src 0, by decide +kernel⟩,
    ⟨src 1, by decide +kernel⟩,
    ⟨(src 1).onPtp fun p => { p with todPending := true }, by decide +kernel⟩,
    ⟨src 0, by decide +kernel⟩,
    ⟨src 2, 99999, by decide +kernel⟩,
    ⟨State.reset.setF (pgGrp 0) F.PTP_STAT_SYNC 0, by decide +kernel⟩,
    ⟨State.reset.setF (pgGrp 0) F.PTP_STAT_SYNC 1, by decide +kernel⟩⟩

end Line2

namespace Xprt
def c0 : Ctx := { state := .ready, id := { pmtu := 1, rcEn := true }, rx := { epsn := 5 }, tx := { rate := 100000, retryLeft := 2, rnrLeft := 1, retained := [{ opcode := 4, psn := 1 }, { opcode := 4, psn := 2 }], unaPsn := 1 } }
def sC : State := conn 3 c0 (sX.setF pgXprt F.XPRT_CFG_ACK_COAL 16)
def m : RxMeta := { port := 0, tport := 0, srcMac := 5 }
def pk (op psn : Nat) (a : Aeth) : Packet := { icrcOk := true, opcode := op, qpn := 65539, psn := psn, aeth := a, payload := aBlob }
def ro : ReadOut := { psn := 1, span := 2, nextPsn := 1, va := 0, rkey := 0, len := 2048, got := ⟨0, 0⟩, slot := 0 }

/-- The hypotheses of `Obligations.PacketEffects` can be met. -/
theorem witness_PacketEffects :
    (∃ (s : State) (rx : RxMeta) (p : Packet) (i : Nat), Safety.Reaches s rx p i ∧ p.opcode = 0x04 ∧ p.psn = (s.ctx i).rx.epsn ∧ (s.ctx i).id.kind ≠ 2 ∧ (s.ctx i).rx.openMsg = none ∧ (s.ctx i).rx.dupMsg = none ∧ rx.unit = none ∧ p.ackReq = false ∧ (s.ctx i).rx.unacked + 1 < s.get pgXprt F.XPRT_CFG_ACK_COAL) ∧
    (∃ (s : State) (rx : RxMeta) (p : Packet) (i : Nat) (r : ReadOut), Safety.Reaches s rx p i ∧ isReadResp p.opcode = true ∧ (s.ctx i).tx.reads = [r] ∧ r.nextPsn = r.psn ∧ p.psn = r.psn ∧ p.psn < 2 ^ 24 ∧ 2 ≤ r.span ∧ r.span < 2 ^ 23) ∧
    (∃ (s : State) (rx : RxMeta) (p : Packet) (i : Nat), Safety.Reaches s rx p i ∧ p.opcode = 0x81 ∧ (s.ctx i).id.rcEn = true ∧ (s.ctx i).tx.decSeen = false) ∧
    (∃ (s : State) (rx : RxMeta) (p : Packet) (i : Nat), Safety.Reaches s rx p i ∧ p.opcode = 0x11 ∧ p.aeth = .ack ∧ (s.ctx i).tx.reads = []) ∧
    (∃ (s : State) (rx : RxMeta) (p : Packet) (i : Nat), Safety.Reaches s rx p i ∧ p.opcode = 0x11 ∧ p.aeth = .seqNak ∧ (s.ctx i).tx.reads = [] ∧ 0 < (s.ctx i).tx.retryLeft ∧ 0 < s.get pgXprt F.XPRT_CFG_RETRY_CNT) ∧
    (∃ (s : State) (rx : RxMeta) (p : Packet) (i : Nat) (k : Nat), Safety.Reaches s rx p i ∧ p.opcode = 0x11 ∧ p.aeth = .rnr k ∧ (s.ctx i).tx.reads = [] ∧ (s.get pgXprt F.XPRT_CFG_RNR_RETRY = 7 ∨ 0 < s.get pgXprt F.XPRT_CFG_RNR_RETRY ∧ 0 < (s.ctx i).tx.rnrLeft)) ∧
    (∃ (s : State) (rx : RxMeta) (p : Packet) (i : Nat), Safety.Reaches s rx p i ∧ p.opcode = 0x11 ∧ (p.aeth = .invalidNak ∨ p.aeth = .accessNak ∨ p.aeth = .opNak)) :=
   ⟨⟨sC, m, pk 4 5 .ack, 3, by unfold Safety.Reaches Safety.Settled; decide +kernel⟩,
    ⟨sC.onTx 3 fun t => { t with reads := [ro] }, m, pk 0x0D 1 .ack, 3, ro, by unfold Safety.Reaches Safety.Settled; decide +kernel⟩,
    ⟨sC, m, pk 0x81 0 .ack, 3, by unfold Safety.Reaches Safety.Settled; decide +kernel⟩,
    ⟨sC, m, pk 0x11 1 .ack, 3, by unfold Safety.Reaches Safety.Settled; decide +kernel⟩,
    ⟨sC.setF pgXprt F.XPRT_CFG_RETRY_CNT 3, m, pk 0x11 2 .seqNak, 3, by unfold Safety.Reaches Safety.Settled; decide +kernel⟩,
    ⟨sC, m, pk 0x11 2 (.rnr 4), 3, 4, by unfold Safety.Reaches Safety.Settled; decide +kernel⟩,
    ⟨sC, m, pk 0x11 2 .opNak, 3, by unfold Safety.Reaches Safety.Settled; decide +kernel⟩⟩

end Xprt

namespace X2
def rdy (c : Ctx) : State := (upPort 0 (conn 3 c sX)).setF (pgGrp 0) F.GRP_CFG_MODE 1
--#eval! IO.println (toString ((sX.onXprt fun x => { x with reqs := [req0] }).rejectStatus req0 1))
def c0 : Ctx := { state := .ready, id := { pmtu := 1, rcEn := true, egressPort := 0 }, rx := { epsn := 5, unacked := 2, msn := 3 }, tx := { rate := 100, decSeen := true, retryLeft := 2, rnrWait := true, retained := [{ opcode := 4, psn := 1 }] } }
def req0 : CmReq := { port := 0, tport := 0, srcMac := 5, ipv6 := false, remoteIp := 7, hostQpn := 9, commId := 11, startPsn := 13, mtu := 4096, initDepth := 4, respRes := 4, priv := ⟨92, 31 * 2 ^ 48 + 32 * 2 ^ 32⟩ }
def low : CmReq := { req0 with mtu := 512 }
def st (x : ConnState) (n : Nat) : State := conn 3 { state := x, tx := { sends := n } } sX

/-- The hypotheses of `Obligations.XprtTimers` can be met. -/
theorem witness_XprtTimers :
    (∃ (s : State) (c : Nat) (j : CtxJob), Safety.Settled s ∧ s.cached c = false ∧ (j = .ackDelay ∨ j = .rateRise ∨ j = .ackTimer ∨ j = .rnrTimer ∨ j = .send) ∧ s.live c = true ∧ (s.ctx c).rx.unacked ≠ 0 ∧ (s.ctx c).tx.retained ≠ [] ∧ (s.ctx c).tx.rnrWait = true ∧ (s.ctx c).tx.work ≠ []) ∧
    (∃ (s : State) (c : Nat), Safety.Settled s ∧ s.live c = true ∧ (s.ctx c).rx.unacked ≠ 0 ∧ s.cached c = true ∧ s.mirroring = false ∧ (s.ctx c).rx.replies = [] ∧ (s.ctx c).rx.inVat = [] ∧ (s.gard.keyWaits.any fun w => decide (w.ctx = c)) = false ∧ (s.ctx c).id.sealed = false ∧ s.portUp (s.ctx c).id.egressPort = true ∧ s.paused (s.ctx c).id.egressPort (s.ctxPcp c) = false ∧ frameLen (tpVlanEn (s.fab.tport (s.ctx c).id.tport)) (s.ctx c).id.ipv6 false 4 0 ≤ s.get (pgGrp ((s.ctx c).id.egressPort / 4)) F.GRP_CFG_MAX_FRAME) ∧
    (∃ (s : State) (c : Nat), Safety.Settled s ∧ s.live c = true ∧ (s.ctx c).id.rcEn = true ∧ s.cached c = true ∧ (s.ctx c).tx.rate < s.portRate (s.ctx c).id.egressPort) ∧
    (∃ (s : State) (c : Nat), Safety.Settled s ∧ s.cached c = true ∧ s.live c = true ∧ s.probing c = false ∧ (s.ctx c).tx.retained ≠ [] ∧ 0 < (s.ctx c).tx.retryLeft ∧ Safety.MaySeal s c (s.ctx c).tx.retained.length) ∧
    (∃ (s : State) (c : Nat), Safety.Settled s ∧ s.cached c = true ∧ s.live c = true ∧ s.probing c = false ∧ (s.ctx c).tx.retained ≠ [] ∧ (s.ctx c).tx.retryLeft = 0) ∧
    (∃ (s : State) (c : Nat), Safety.Settled s ∧ s.cached c = true ∧ s.live c = true ∧ (s.ctx c).tx.rnrWait = true ∧ Safety.MaySeal s c (s.ctx c).tx.retained.length) ∧
    (∃ (s : State) (c : Nat) (va : Nat) (rkey : Nat) (d : Blob) (cells : Option UnitKind), Safety.Settled s ∧ s.cached c = true ∧ s.live c = true ∧ (s.ctx c).tx.work = [.write va rkey d cells] ∧ s.mirroring = false ∧ s.syncing = false ∧ (s.ctx c).id.sealed = false ∧ 0 < d.len ∧ d.len ≤ (s.ctx c).mtu) ∧
    (∃ (s : State) (c : Nat), (s.ctx c).id.sealed = true ∧ (s.ctx c).state ≠ .free ∧ (s.keySlot c (!(s.ctx c).sl.rxPhase)).rx.epoch + 1 = (s.keySlot c (s.ctx c).sl.rxPhase).rx.epoch) ∧
    (∃ (s : State) (c : Nat), Safety.Settled s ∧ c ∈ s.xprt.fetching ∧ (s.ctx c).state ≠ .free ∧ s.xprt.cache.length < 8192 ∧ (s.xprt.missq.any fun q => decide (q.ctx = c)) = false ∧ (s.xprt.jobs.any fun e => decide (e.1 = c)) = false) :=
   ⟨⟨sX.setCtx 3 { c0 with tx := { c0.tx with work := [.write 8 9 aBlob none] } }, 3, .ackDelay, by unfold Safety.Settled; decide +kernel⟩,
    ⟨rdy c0, 3, by unfold Safety.Settled; decide +kernel⟩,
    ⟨rdy c0, 3, by unfold Safety.Settled; decide +kernel⟩,
    ⟨rdy c0, 3, by unfold Safety.Settled Safety.MaySeal; decide +kernel⟩,
    ⟨rdy { c0 with tx := { c0.tx with retryLeft := 0 } }, 3, by unfold Safety.Settled; decide +kernel⟩,
    ⟨rdy c0, 3, by unfold Safety.Settled Safety.MaySeal; decide +kernel⟩,
    ⟨rdy { c0 with tx := { c0.tx with work := [.write 8 9 aBlob none] } }, 3, 8, 9, aBlob, none, by unfold Safety.Settled; decide +kernel⟩,
    ⟨(rdy { c0 with id := { c0.id with sealed := true } }).setKeySlot 3 false { rx := { epoch := 1 } }, 3, by decide +kernel⟩,
    ⟨(sX.setCtx 3 { state := .ready }).onXprt fun x => { x with fetching := [3] }, 3, by unfold Safety.Settled; decide +kernel⟩⟩

/-- The hypotheses of `Obligations.Connections` can be met. -/
theorem witness_Connections :
    (∃ (s : State), s.isLive pgXprt = true ∧ s.xprt.reqs.length < 4096) ∧
    (∃ (s : State) (r : CmReq) (rest : List CmReq) (priv : Nat) (st : Nat), s.isLive pgXprt = true ∧ s.xprt.reqs = r :: rest ∧ s.repeatOf r = none ∧ s.rejectStatus r priv = some st ∧ Safety.Leaves s r.port (cmLen (tpTag (s.fab.tport r.tport)).isSome r.ipv6) ((tpTag (s.fab.tport r.tport)).map Prod.snd)) ∧
    (∃ (s : State) (r : CmReq) (rest : List CmReq) (priv : Nat) (pick : Nat), s.isLive pgXprt = true ∧ s.xprt.reqs = r :: rest ∧ s.repeatOf r = none ∧ s.rejectStatus r priv = none ∧ pick < 65536 ∧ (s.ctx pick).state = .free) ∧
    (∃ (s : State) (c : Nat), s.isLive pgXprt = true ∧ s.probing c = false ∧ (s.ctx c).state = .connecting) ∧
    (∃ (s : State) (c : Nat), s.isLive pgXprt = true ∧ s.probing c = false ∧ (s.ctx c).state = .connecting) ∧
    (∃ (s : State) (c : Nat), s.isLive pgXprt = true ∧ s.probing c = false ∧ (s.ctx c).state = .connecting ∧ Safety.Settled s ∧ s.cached c = true ∧ (s.ctx c).tx.sends < 4 ∧ Safety.CmLeaves s c) ∧
    (∃ (s : State) (c : Nat), s.isLive pgXprt = true ∧ s.probing c = false ∧ (s.ctx c).state = .connecting ∧ Safety.Settled s ∧ s.cached c = true ∧ 4 ≤ (s.ctx c).tx.sends) ∧
    (∃ (s : State) (c : Nat), s.isLive pgXprt = true ∧ (s.ctx c).state = .ready) ∧
    (∃ (s : State) (c : Nat), (s.ctx c).state = .closing ∧ s.isLive pgXprt = true) ∧
    (∃ (s : State) (c : Nat), (s.ctx c).state = .closing ∧ s.isLive pgXprt = true ∧ Safety.Settled s ∧ s.cached c = true ∧ (s.ctx c).tx.sends < 3 ∧ Safety.CmLeaves s c) ∧
    (∃ (s : State) (c : Nat), (s.ctx c).state = .closing ∧ s.isLive pgXprt = true ∧ Safety.Settled s ∧ s.cached c = true ∧ 3 ≤ (s.ctx c).tx.sends) ∧
    (∃ (s : State), s.isLive pgXprt = true) ∧
    (∃ (s : State), s.isLive pgXprt = true) ∧
    (∃ (s : State) (c : Nat), (s.ctx c).state = .error) ∧
    (∃ (s : State) (c : Nat) (j : CtxJob), Safety.Settled s ∧ s.cached c = false ∧ s.isLive pgXprt = true ∧ s.probing c = false ∧ ((j = .repTimer ∧ (s.ctx c).state = .connecting) ∨ (j = .dreqTimer ∧ (s.ctx c).state = .closing) ∨ (j = .timewait ∧ (s.ctx c).state = .timewait))) ∧
    (∃ (s : State) (c : Nat), (s.ctx c).state = .timewait ∧ s.cached c = true ∧ Safety.Settled s) ∧
    (∃ (s : State) (c : Nat) (value : BitVec 32), c < 65536 ∧ value.toNat = 2 ^ 31 + c ∧ (s.ctx c).state = .ready) :=
   ⟨⟨sX, by decide +kernel⟩,
    ⟨(upPort 0 sX).onXprt fun x => { x with reqs := [low] }, low, [], 1, 0x8007, by unfold Safety.Leaves; decide +kernel⟩,
    ⟨(sX.setTab pgXprt 1 0 5).onXprt fun x => { x with reqs := [req0] }, req0, [], 1, 3, by decide +kernel⟩,
    ⟨st .connecting 1, 3, by decide +kernel⟩,
    ⟨st .connecting 1, 3, by decide +kernel⟩,
    ⟨upPort 0 (st .connecting 3), 3, by unfold Safety.Settled Safety.CmLeaves Safety.Leaves; decide +kernel⟩,
    ⟨st .connecting 4, 3, by unfold Safety.Settled; decide +kernel⟩,
    ⟨st .ready 0, 3, by decide +kernel⟩,
    ⟨st .closing 1, 3, by decide +kernel⟩,
    ⟨upPort 0 (st .closing 2), 3, by unfold Safety.Settled Safety.CmLeaves Safety.Leaves; decide +kernel⟩,
    ⟨st .closing 3, 3, by unfold Safety.Settled; decide +kernel⟩,
    ⟨sX, by decide +kernel⟩,
    ⟨sX, by decide +kernel⟩,
    ⟨st .error 0, 3, by decide +kernel⟩,
    ⟨sX.setCtx 3 { state := .timewait }, 3, .timewait, by unfold Safety.Settled; decide +kernel⟩,
    ⟨st .timewait 0, 3, by unfold Safety.Settled; decide +kernel⟩,
    ⟨st .ready 0, 3, 0x80000003, by decide +kernel⟩⟩

/-- The hypotheses of `Obligations.RegionKeys` can be met. -/
theorem witness_RegionKeys :
    (∃ (s : State) (x : Nat) (w : KeyWait), s.gard.keyWaits = [w] ∧ w.index = x) ∧
    (∃ (s : State) (x : Nat), 0 < x ∧ x < 2 ^ 20 ∧ s.flag pgKeys F.KEY_OP_STAT_BUSY = false ∧ s.mirroring = false ∧ s.syncing = false ∧ (s.key x).state = 1) ∧
    (∃ (s : State) (x : Nat) (rest : List KeyChange), s.gard.keyChange = .retire x :: rest ∧ (s.key x).state = 1 ∧ s.regn.retireHeld = none) ∧
    (∃ (s : State) (x : Nat), (s.key x).state = 3) :=
   ⟨⟨(st .ready 0).onGard fun g => { g with keyWaits := [⟨5, 3, 0, .flush⟩], keys := g.keys.set 5 { state := 1 } }, 5, ⟨5, 3, 0, .flush⟩, by decide +kernel⟩,
    ⟨sX.setKey 5 { state := 1, gen := 255, inflight := 1 }, 5, by decide +kernel⟩,
    ⟨(sX.setKey 5 { state := 1, gen := 255 }).onGard fun g => { g with keyChange := [.retire 5] }, 5, [], by decide +kernel⟩,
    ⟨sX.setKey 5 { state := 3, gen := 4 }, 5, by decide +kernel⟩⟩

end X2

namespace Cmdq
def fab (f : Nat) (rest : Nat) : Nat := 0x7F + f * 2 ^ 32 + rest
def q0 : Queue := { ctrl := some 1 }
def adm (opc cdw : Nat) : Slot := { state := .started, conn := 3, incarnation := 1, sqe := opc + cdw * 2 ^ 320 + 0x40 * 2 ^ 312 + 4096 * 2 ^ 256 }
def io (opc cdw : Nat) : Slot := { state := .started, conn := 3, incarnation := 1, qid := 1, sqe := opc + cdw * 2 ^ 320 + 0x40 * 2 ^ 312 }
def k0 : Ctrl := { granted := 8, grantedCq := 8, changedNs := [4] }
def ms : InSend := ⟨7, .green, ⟨64, 2⟩⟩
def cap (n : Nat) : Capsule := ⟨n, ⟨0, 0⟩, .green, 7, false⟩
def sQ (q : Queue) (ms : List InSend) : State := (withSlot 9 (adm 1 0) q k0).onRx 3 fun x => { x with msgs := ms }
def hold : State := (on pgCmdq State.reset).setF pgCmdq F.CMDQ_FW_HOLD 1
def nqn (s : String) : Nat := ofBytes (s.toList.map Char.toNat)
def cd : Nat := 0xFFFF * 2 ^ 128 + nqn "a" * 2 ^ 2048 + nqn "h" * 2 ^ 4096
def cs : Nat := 0x7F + 1 * 2 ^ 32 + 31 * 2 ^ 352 + 0x01 * 2 ^ 312 + 1024 * 2 ^ 256
def cx : Slot := { state := .started, conn := 3, incarnation := 1, sqe := cs, capData := ⟨1024, cd⟩ }
def ps (v : Nat) : Slot := { state := .started, conn := 3, incarnation := 1, sqe := fab 0 (0x14 * 2 ^ 352 + v * 2 ^ 384) }
def pg (off w : Nat) : Slot := { state := .started, conn := 3, incarnation := 1, sqe := fab 4 (off * 2 ^ 352 + w * 2 ^ 320) }
def au (f : Nat) : Slot := { state := .started, conn := 3, incarnation := 1, fetched := true, data := ⟨2, 0x0401⟩, sqe := fab f (0x40 * 2 ^ 312 + 4096 * 2 ^ 256) }

def dsm (ad len : Nat) : Slot := { io 9 (ad * 2 ^ 34) with fetched := true, data := ⟨16, len * 2 ^ 32⟩, nsEnt := 2049 * 2 ^ 64 }

/-- The hypotheses of `Obligations.SlotLife` can be met. -/
theorem witness_SlotLife :
    (∃ (s : State) (i : Nat) (q : Queue) (m : InSend) (rest : List InSend), s.isLive pgCmdq = true ∧ (s.ctx i).state = .ready ∧ s.queue i = some q ∧ (s.ctx i).rx.msgs = m :: rest ∧ s.queueLoad i < 32) ∧
    (∃ (s : State) (i : Nat) (q : Queue) (m : InSend) (rest : List InSend), s.isLive pgCmdq = true ∧ (s.ctx i).state = .ready ∧ s.queue i = some q ∧ (s.ctx i).rx.msgs = m :: rest ∧ 32 ≤ s.queueLoad i) ∧
    (∃ (s : State) (i : Nat) (k : Nat) (low : Bool) (q : Queue) (c : Capsule) (rest : List Capsule), s.isOn pgCmdq = true ∧ s.nextQueue = some (i, low) ∧ s.queue i = some q ∧ q.staging = c :: rest ∧ q.qid = 0 ∧ q.ctrl = some k ∧ ((∀ v, s.ctrl k = some v → v.discovery = false)) ∧ q.authReq = false ∧ s.flag pgCmdq F.CMDQ_FW_HOLD = false ∧ opcValid false false 0 c.sqe = true) ∧
    (∃ (s : State) (n : Nat) (x : Slot), s.isLive pgCmdq = true ∧ s.slot n = some x ∧ x.state = .fetched ∧ n ∈ s.tmgr.chosen ∧ sqeOpc x.sqe = 0x01 ∧ x.wanted = 0 ∧ x.fetched = false) ∧
    (∃ (s : State) (n : Nat) (x : Slot) (c : Cpl), s.isLive pgCmdq = true ∧ s.slot n = some x ∧ x.state = .started ∧ x.outcome = some c ∧ x.discard = false ∧ (x.qid = 0 ∨ sqeOpc x.sqe ≠ 0x02)) ∧
    (∃ (s : State) (n : Nat) (x : Slot), s.xprt.ackedSlots = [n] ∧ s.slot n = some x ∧ x.state = .completed ∧ s.slotBusy n = false) ∧
    (∃ (s : State) (n : Nat) (x : Slot), s.xprt.ackedSlots = [n] ∧ s.slot n = some x ∧ x.state = .completed ∧ s.slotBusy n = true) ∧
    (∃ (s : State) (k : Nat) (c : Ctrl), s.ctrl k = some c ∧ c.kato ≠ 0 ∧ s.flag pgCmdq F.CMDQ_FW_HOLD = false) ∧
    (∃ (s : State), s.flag pgCmdq F.CMDQ_FW_HOLD = true ∧ s.cmdq.held = [] ∧ s.cmdq.ctrls = {} ∧ s.fab.ep.mbox = none) ∧
    (∃ (s : State), s.flag pgCmdq F.CMDQ_FW_HOLD = true ∧ s.cmdq.held = [] ∧ s.cmdq.ctrls = {} ∧ s.fab.ep.mbox = none) :=
   ⟨⟨sQ q0 [ms], 3, q0, ms, [], by decide +kernel⟩,
    ⟨sQ { q0 with staging := List.replicate 31 (cap 2) } [ms], 3, { q0 with staging := List.replicate 31 (cap 2) }, ms, [], by decide +kernel⟩,
    ⟨sQ { q0 with staging := [cap 0x18] } [], 3, 1, true, { q0 with staging := [cap 0x18] }, cap 0x18, [], by decide +kernel⟩,
    ⟨(withSlot 4 { io 1 0 with state := .fetched } q0 k0).onTmgr fun t => { t with chosen := [4] }, 4, { io 1 0 with state := .fetched }, by decide +kernel⟩,
    ⟨withSlot 4 { adm 0x18 0 with outcome := some { dw0 := 3 } } q0 k0, 4, { adm 0x18 0 with outcome := some { dw0 := 3 } }, { dw0 := 3 }, by decide +kernel⟩,
    ⟨(withSlot 4 { adm 0x18 0 with state := .completed } q0 k0).onXprt fun x => { x with ackedSlots := [4] }, 4, { adm 0x18 0 with state := .completed }, by decide +kernel⟩,
    ⟨(withSlot 4 { adm 0x18 0 with state := .completed, recsOpen := 1 } q0 k0).onXprt fun x => { x with ackedSlots := [4] }, 4, { adm 0x18 0 with state := .completed, recsOpen := 1 }, by decide +kernel⟩,
    ⟨withSlot 4 (adm 0x18 0) q0 { k0 with kato := 5 }, 1, { k0 with kato := 5 }, by decide +kernel⟩,
    ⟨hold, by decide +kernel⟩,
    ⟨hold, by decide +kernel⟩⟩

/-- The hypotheses of `Obligations.IoCommands` can be met. -/
theorem witness_IoCommands :
    (∃ (s : State) (n : Nat) (x : Slot), s.ioCmd n 0x00 = some x ∧ s.flushReady x = true) ∧
    (∃ (s : State) (n : Nat) (x : Slot), s.ioCmd n 0x01 = some x ∧ x.wanted = 0 ∧ x.fetched = false) ∧
    (∃ (s : State) (n : Nat) (x : Slot), s.ioCmd n 0x02 = some x ∧ s.saving = false ∧ x.begun = true ∧ (s.cmpr.reads.any fun _ r => decide (r.for_ = .slot n)) = false ∧ (∀ u ∈ unitsOf (sqeSlba x.sqe * x.lba) x.bytes, u ∈ x.looked)) ∧
    (∃ (s : State) (n : Nat) (x : Slot), s.ioCmd n 0x08 = some x ∧ x.recsMade = false ∧ s.isLive pgJrnl = true ∧ s.saving = false ∧ (s.findSpace 256).isSome = true) ∧
    (∃ (s : State) (n : Nat) (x : Slot), s.ioCmd n 0x09 = some x ∧ x.fetched = false ∧ x.wanted = 0) ∧
    (∃ (s : State) (n : Nat) (x : Slot), s.ioCmd n 0x09 = some x ∧ x.fetched = true ∧ x.recsMade = false ∧ (∃ r ∈ dsmRanges x, nsSize x.nsEnt < r.1 + r.2)) ∧
    (∃ (s : State) (n : Nat) (x : Slot), s.ioCmd n 0x09 = some x ∧ x.fetched = true ∧ x.recsMade = false ∧ (∀ r ∈ dsmRanges x, r.1 + r.2 ≤ nsSize x.nsEnt) ∧ bitAt (sqeCdw x.sqe 11) 2 = false) ∧
    (∃ (s : State) (n : Nat) (x : Slot), s.ioCmd n 0x09 = some x ∧ x.fetched = true ∧ x.recsMade = false ∧ (∀ r ∈ dsmRanges x, r.1 + r.2 ≤ nsSize x.nsEnt) ∧ bitAt (sqeCdw x.sqe 11) 2 = true ∧ s.isLive pgJrnl = true ∧ s.saving = false ∧ (∃ r ∈ dsmRanges x, r.2 ≠ 0) ∧ (s.findSpace (256 * (((dsmRanges x).filter fun r => decide (r.2 ≠ 0)).flatMap fun r => splitExtent (r.1 * x.lba) (r.2 * x.lba / 512)).length)).isSome = true) :=
   ⟨⟨withSlot 4 (io 0 0) q0 k0, 4, io 0 0, by decide +kernel⟩,
    ⟨withSlot 4 (io 1 0) q0 k0, 4, io 1 0, by decide +kernel⟩,
    ⟨withSlot 4 { io 2 0 with begun := true, looked := [0] } q0 k0, 4, { io 2 0 with begun := true, looked := [0] }, by decide +kernel⟩,
    ⟨on pgJrnl (withSlot 4 (io 8 0) q0 k0), 4, io 8 0, by decide +kernel⟩,
    ⟨withSlot 4 (io 9 (4 * 2 ^ 32)) q0 k0, 4, io 9 (4 * 2 ^ 32), by decide +kernel⟩,
    ⟨withSlot 4 (dsm 0 2050) q0 k0, 4, dsm 0 2050, by decide +kernel⟩,
    ⟨withSlot 4 (dsm 0 2049) q0 k0, 4, dsm 0 2049, by decide +kernel⟩,
    ⟨on pgJrnl (withSlot 4 (dsm 1 2049) q0 k0), 4, dsm 1 2049, by decide +kernel⟩⟩

/-- The hypotheses of `Obligations.Fabrics` can be met. -/
theorem witness_Fabrics :
    (∃ (s : State) (n : Nat) (k : Nat) (x : Slot) (q : Queue) (c : ConnectCmd) (d : Blob), s.adminCmd n (isFabrics 0x01) = some (x, q) ∧ hostData x 1024 = .ready d ∧ connectCmd x.sqe d.val = c ∧ q.ctrl = none ∧ q.qid = 0 ∧ c.qid = 0 ∧ 1 ≤ c.sqSize ∧ c.sqSize ≤ 31 ∧ bitAt c.cattr 2 = false ∧ cString c.subNqn = cString (s.subNqn q.tenant) ∧ cString c.subNqn ≠ cString discoveryNqn ∧ c.cntlid = 0xFFFF ∧ s.freeCntlid q.tenant = some k ∧ s.authFor q.tenant c.hostNqn = none) ∧
    (∃ (s : State) (n : Nat) (k : Nat) (x : Slot) (c : Ctrl), Safety.OnCtrl s n (isFabrics 0x00) x k c ∧ x.qid = 0 ∧ bytesAt x.sqe 44 4 = 0x14 ∧ byteAt x.sqe 40 % 8 = 0 ∧ bitAt c.cc 0 = false ∧ bitAt (bytesAt x.sqe 48 4) 0 = true ∧ bitsOf (bytesAt x.sqe 48 4) 14 2 = 0) ∧
    (∃ (s : State) (n : Nat) (k : Nat) (x : Slot) (c : Ctrl), Safety.OnCtrl s n (isFabrics 0x04) x k c ∧ x.qid = 0 ∧ bytesAt x.sqe 44 4 = 0x14 ∧ byteAt x.sqe 40 % 8 = 0) ∧
    (∃ (s : State) (n : Nat) (k : Nat) (x : Slot) (c : Ctrl), Safety.OnCtrl s n (isFabrics 0x04) x k c ∧ x.qid = 0 ∧ bytesAt x.sqe 44 4 = 0x00 ∧ byteAt x.sqe 40 % 8 = 1) ∧
    (∃ (s : State) (n : Nat) (x : Slot) (q : Queue) (d : Blob) (e : AuthEnt), s.adminCmd n (isFabrics 0x05) = some (x, q) ∧ hostData x 1 = .ready d ∧ q.authEntry ≠ 0 ∧ s.gard.auth.get (q.authEntry - 1) {} = e ∧ e.valid = true ∧ q.authPhase = 2 ∧ byteAt d.val 0 = 1 ∧ byteAt d.val 1 = 4) ∧
    (∃ (s : State) (n : Nat) (x : Slot) (q : Queue), s.adminCmd n (isFabrics 0x06) = some (x, q) ∧ q.authOut.len ≠ 0 ∧ sqeSglId x.sqe = 0x40) :=
   ⟨⟨(withSlot 4 cx {} k0).setTab pgCmdq 3 0 (nqn "a"), 4, 2, cx, {}, connectCmd cs cd, ⟨1024, cd⟩, by decide +kernel⟩,
    ⟨withSlot 4 (ps 1) q0 k0, 4, 1, ps 1, k0, ⟨_, rfl, rfl, rfl⟩, by decide +kernel⟩,
    ⟨withSlot 4 (pg 0x14 0) q0 { k0 with cc := 5 }, 4, 1, pg 0x14 0, { k0 with cc := 5 }, ⟨_, rfl, rfl, rfl⟩, by decide +kernel⟩,
    ⟨withSlot 4 (pg 0 1) q0 k0, 4, 1, pg 0 1, k0, ⟨_, rfl, rfl, rfl⟩, by decide +kernel⟩,
    ⟨(withSlot 4 (au 5) { q0 with authEntry := 1, authPhase := 2 } k0).onGard fun g => { g with auth := g.auth.set 0 { valid := true } }, 4, au 5, { q0 with authEntry := 1, authPhase := 2 }, ⟨2, 0x0401⟩, { valid := true }, by decide +kernel⟩,
    ⟨withSlot 4 (au 6) { q0 with authOut := aBlob } k0, 4, au 6, { q0 with authOut := aBlob }, by decide +kernel⟩⟩

/-- The hypotheses of `Obligations.AdminCommands` can be met. -/
theorem witness_AdminCommands :
    (∃ (s : State) (n : Nat) (k : Nat) (x : Slot) (c : Ctrl), Safety.OnCtrl s n (isAdmin 0x09) x k c ∧ sqeCdw x.sqe 10 % 256 = 0x0F) ∧
    (∃ (s : State) (n : Nat) (k : Nat) (x : Slot) (c : Ctrl), Safety.OnCtrl s n (isAdmin 0x0A) x k c ∧ sqeCdw x.sqe 10 % 256 = 0x07) ∧
    (∃ (s : State) (n : Nat) (k : Nat) (x : Slot) (c : Ctrl), Safety.OnCtrl s n (isAdmin 0x0C) x k c ∧ n ∉ c.aers ∧ c.events = [] ∧ c.aers.length < s.get pgCmdq F.CMDQ_CFG_AERL + 1) ∧
    (∃ (s : State) (n : Nat) (k : Nat) (x : Slot) (c : Ctrl), Safety.OnCtrl s n (isAdmin 0x18) x k c) ∧
    (∃ (s : State) (n : Nat) (k : Nat) (x : Slot) (c : Ctrl), Safety.OnCtrl s n (isAdmin 0x02) x k c ∧ c.discovery = false ∧ sqeCdw x.sqe 10 % 256 = 0x04 ∧ bitAt (sqeCdw x.sqe 10) 15 = false ∧ sqeSglId x.sqe = 0x40 ∧ sqeCdw x.sqe 12 = 0 ∧ sqeCdw x.sqe 13 = 0 ∧ sqeCdw x.sqe 11 = 0 ∧ bitsOf (sqeCdw x.sqe 10) 16 16 = 1023 ∧ sqeSglLen x.sqe = 4096) ∧
    (∃ (s : State) (n : Nat) (k : Nat) (x : Slot) (c : Ctrl), Safety.OnCtrl s n (isAdmin 0x06) x k c ∧ c.discovery = false ∧ sqeCdw x.sqe 10 % 256 = 0x02 ∧ sqeNsid x.sqe < 0xFFFFFFFE ∧ sqeSglId x.sqe = 0x40 ∧ sqeSglLen x.sqe = 4096) ∧
    (∃ (s : State) (n : Nat) (k : Nat) (x : Slot) (c : Ctrl), Safety.OnCtrl s n (isAdmin 0x08) x k c ∧ s.abortsOut k x.order < s.get pgCmdq F.CMDQ_CFG_ACL + 1 ∧ sqeCdw x.sqe 10 % 2 ^ 16 = 0) :=
   ⟨⟨withSlot 4 (adm 9 (0x0F + 1000 * 2 ^ 32)) q0 k0, 4, 1, adm 9 (0x0F + 1000 * 2 ^ 32), k0, ⟨_, rfl, rfl, rfl⟩, by decide +kernel⟩,
    ⟨withSlot 4 (adm 10 7) q0 k0, 4, 1, adm 10 7, k0, ⟨_, rfl, rfl, rfl⟩, by decide +kernel⟩,
    ⟨withSlot 4 (adm 12 0) q0 k0, 4, 1, adm 12 0, k0, ⟨_, rfl, rfl, rfl⟩, by decide +kernel⟩,
    ⟨withSlot 4 (adm 0x18 0) q0 k0, 4, 1, adm 0x18 0, k0, ⟨_, rfl, rfl, rfl⟩⟩,
    ⟨withSlot 4 (adm 2 (4 + 1023 * 2 ^ 16)) q0 k0, 4, 1, adm 2 (4 + 1023 * 2 ^ 16), k0, ⟨_, rfl, rfl, rfl⟩, by decide +kernel⟩,
    ⟨withSlot 4 (adm 6 2) q0 k0, 4, 1, adm 6 2, k0, ⟨_, rfl, rfl, rfl⟩, by decide +kernel⟩,
    ⟨withSlot 4 (adm 8 0) q0 k0, 4, 1, adm 8 0, k0, ⟨_, rfl, rfl, rfl⟩, by decide +kernel⟩⟩

end Cmdq

namespace Regn
def rw0 : RegWrite := { id := 5, ctx := 3, qpn := 65539, key := 1, region := 2, addr := 0x1000, total := 4, data := aBlob, whole := true, mirrored := true, dup := true }
def sRegn : State := on pgRegn ((on pgXprt State.reset).onRegn fun g => { g with regions := g.regions.set 2 { base := 4096, size := 4096, state := 1 } })
def sConn : State := conn 3 { state := .ready, id := { kind := 2, ocmVer := 0x11, pmtu := 1 } } sRegn
def net2 (v : Nat) : Nat := v / 256 + v % 256 * 256
def ctl (op len : Nat) (rest : Nat) : InSend := ⟨7, .green, ⟨len, op + 0x11 * 2 ^ 8 + net2 len * 2 ^ 16 + rest * 2 ^ 128⟩⟩
def sMsg (m : InSend) : State := sConn.onRx 3 fun x => { x with msgs := [m] }
def aSub : SubEnt := { conn := 3, incarnation := 1, subTag := 9, ringLog2 := 4, va := 0x8000, rkey := 77 }
def sSub (e : SubEnt) (s : State) : State := s.onRegn fun g => { g with subs := g.subs.set 16 e }
def live5 (s : State) : State := (s.setF pgRegn F.REGN_CFG_DESTAGE_EN 1)
def sDest : State := (live5 sRegn).onRegn fun g => { g with dirty := g.dirty.set 0 0, regions := g.regions.set 2 { base := 0, size := 65536, state := 1 }, mem := memWrite [1,2,3] 5 g.mem }

def rr : RegRead := ⟨4, 3, 1, 0x1000, 8, 2, 0⟩
def sRead : State := sConn.onRegn fun g => { g with reads := [rr], mem := memWrite [1,2,3] 0x1002 g.mem }
def sStage : State := (on pgTmgr (sDest.setF pgPair F.PAIR_STAT_OWN 1)).onPool 0 fun p => { p with state := 2 }
def keyed (m : InSend) : State :=
  (on pgKeys ((sMsg m).setKey 1 { region := 2, state := 1, rights := 15, length := 4096, base := 4096 })).onGard fun g => { g with keyCache := [1] }

/-- The hypotheses of `Obligations.RegionAccess` can be met. -/
theorem witness_RegionAccess :
    (∃ (s : State) (w : RegWrite), s.regn.writes = [w] ∧ s.writeInVat w = false ∧ w.checking = false ∧ w.localAt = none ∧ w.whole = true ∧ w.missing = [] ∧ w.mirrored = true ∧ s.regn.flushes = []) ∧
    (∃ (s : State) (r : RegRead), s.regn.reads = [r] ∧ s.readMayGo r = true ∧ s.xprt.spent = []) ∧
    (∃ (s : State) (r : RegRead), s.regn.reads = [r] ∧ s.readMayGo r = true ∧ s.xprt.spent = []) ∧
    (∃ (s : State) (w : RegWrite), w ∈ s.regn.writes ∧ w.localAt.isSome = true ∧ w.mirrored = false ∧ w.solo = false) ∧
    (∃ (s : State) (n : Nat), s.isLive pgRegn = true ∧ s.flag pgRegn F.REGN_CFG_DESTAGE_EN = true ∧ s.saving = false ∧ s.owned = true ∧ (s.regn.dirty.find n).isSome = true ∧ s.activeUnit n = true ∧ (s.pool (s.get pgRegn F.REGN_CFG_DESTAGE_POOL)).usable = false) ∧
    (∃ (s : State) (n : Nat), s.isLive pgRegn = true ∧ s.flag pgRegn F.REGN_CFG_DESTAGE_EN = true ∧ s.saving = false ∧ s.owned = true ∧ (s.regn.dirty.find n).isSome = true ∧ s.activeUnit n = true ∧ (s.pool (s.get pgRegn F.REGN_CFG_DESTAGE_POOL)).usable = true ∧ (s.cmpr.writes.any fun _ w => decide (w.volume = imgVol ∧ w.lun = n)) = false ∧ 16384 ≤ s.tmgr.bgGrant.get (bgLeaf (s.get pgRegn F.REGN_CFG_DESTAGE_POOL) 3) 0) ∧
    (∃ (s : State) (n : Nat), s.isLive pgRegn = true ∧ s.flag pgRegn F.REGN_CFG_DESTAGE_EN = true ∧ s.saving = false ∧ s.owned = true ∧ (s.regn.dirty.find n).isSome = true ∧ s.activeUnit n = true ∧ (s.pool (s.get pgRegn F.REGN_CFG_DESTAGE_POOL)).usable = true ∧ (s.cmpr.writes.any fun _ w => decide (w.volume = imgVol ∧ w.lun = n)) = false ∧ s.tmgr.bgGrant.get (bgLeaf (s.get pgRegn F.REGN_CFG_DESTAGE_POOL) 3) 0 < 16384) ∧
    (∃ (s : State), s.owned = true ∧ s.get pgRegn F.REGN_CFG_DESTAGE_MS < s.oldestDirtyMs) ∧
    (∃ (s : State) (i : Nat), i ∈ s.regn.zeroing ∧ s.regn.changes = [] ∧ s.mirroring = false ∧ s.syncing = false ∧ (s.region i).state = 2) ∧
    (∃ (s : State) (i : Nat), i < 65536 ∧ s.flag pgRegn F.REGN_OP_STAT_BUSY = false ∧ s.mirroring = false ∧ s.syncing = false ∧ (s.region i).state = 1 ∧ s.keysOf i ≠ 0) ∧
    (∃ (s : State) (i : Nat), i < 65536 ∧ s.flag pgRegn F.REGN_OP_STAT_BUSY = false ∧ s.mirroring = false ∧ s.syncing = false ∧ (s.region i).state = 1 ∧ s.keysOf i = 0 ∧ s.subKeys i = []) ∧
    (∃ (s : State) (i : Nat) (rest : List RegChange), s.regn.changes = .retire i :: rest ∧ (s.region i).state = 1 ∧ s.keysOf i = 0 ∧ s.subKeys i = []) :=
   ⟨⟨sConn.onRegn fun g => { g with writes := [rw0] }, rw0, by decide +kernel⟩,
    ⟨sRead, rr, by decide +kernel⟩,
    ⟨sRead, rr, by decide +kernel⟩,
    ⟨sConn.onRegn fun g => { g with writes := [{ rw0 with localAt := some 3, mirrored := false }] }, { rw0 with localAt := some 3, mirrored := false }, by decide +kernel⟩,
    ⟨sDest.setF pgPair F.PAIR_STAT_OWN 1, 0, by decide +kernel⟩,
    ⟨sStage.onTmgr fun m => { m with bgGrant := m.bgGrant.set 16371 16384 }, 0, by decide +kernel⟩,
    ⟨sStage.onTmgr fun m => { m with bgGrant := m.bgGrant.set 16371 16383 }, 0, by decide +kernel⟩,
    ⟨{ sDest.setF pgPair F.PAIR_STAT_OWN 1 with now := 2 ^ 45 }, by decide +kernel⟩,
    ⟨sRegn.onRegn fun g => { g with zeroing := [2], regions := g.regions.set 2 { base := 4, size := 8, state := 2, writes := 3 }, mem := memWrite [1,2,3,4,5,6,7,8,9,10,11,12,13,14] 0 g.mem }, 2, by decide +kernel⟩,
    ⟨sRegn.onGard fun g => { g with keys := g.keys.set 7 { region := 2, state := 1 } }, 2, by decide +kernel⟩,
    ⟨sRegn, 2, by decide +kernel⟩,
    ⟨sRegn.onRegn fun g => { g with changes := [.retire 2] }, 2, [], by decide +kernel⟩⟩

/-- The hypotheses of `Obligations.RegionMessages` can be met. -/
theorem witness_RegionMessages :
    (∃ (s : State) (i : Nat) (m : InSend), s.ctlMsg i 1 = some m) ∧
    (∃ (s : State) (i : Nat) (r : Nat) (m : InSend), s.ctlMsg i 2 = some m ∧ netAt m.data.val 16 2 = r ∧ s.mirroring = false ∧ s.syncing = false ∧ s.subStatus i r = 0) ∧
    (∃ (s : State) (i : Nat) (r : Nat) (m : InSend), s.ctlMsg i 2 = some m ∧ netAt m.data.val 16 2 = r ∧ s.mirroring = false ∧ s.syncing = false ∧ s.subStatus i r ≠ 0) ∧
    (∃ (s : State) (i : Nat) (r : Nat) (k : Nat) (m : InSend) (e : SubEnt), s.ctlMsg i 3 = some m ∧ netAt m.data.val 16 2 = r ∧ s.isOn pgRegn = true ∧ (s.region r).state = 1 ∧ (s.region r).tenant = (s.ctx i).id.tenant ∧ s.subKeys r = [k] ∧ s.sub k = some e ∧ e.conn = i ∧ e.ending = none ∧ e.queued = [] ∧ s.mirroring = false ∧ s.syncing = false) ∧
    (∃ (s : State) (i : Nat) (x : Nat) (m : InSend), s.ctlMsg i 4 = some m ∧ s.keyCheck (netAt m.data.val 16 4) .flush 0 0 (s.ctx i).id.tenant (s.qpn i) = .pass x ∧ s.keyHit x = true ∧ s.isOn pgRegn = true ∧ byteAt m.data.val 20 = 0 ∧ s.regn.writes = [] ∧ s.regn.flushes = [] ∧ s.regn.past = {} ∧ s.xprt.spent = []) ∧
    (∃ (s : State) (i : Nat) (x : Nat) (m : InSend), s.ctlFront i = some m ∧ ctlValid (s.ctx i).id.ocmVer m.data = false ∧ ctlOp m.data = 4 ∧ s.keyCheck (netAt m.data.val 16 4) .flush 0 0 (s.ctx i).id.tenant (s.qpn i) = .pass x ∧ s.keyHit x = true ∧ s.regn.writes = [] ∧ s.regn.flushes = [] ∧ s.xprt.spent = []) ∧
    (∃ (s : State) (i : Nat) (m : InSend), s.ctlFront i = some m ∧ ctlValid (s.ctx i).id.ocmVer m.data = false ∧ ctlOp m.data ≠ 4 ∧ s.regn.flushes = []) ∧
    (∃ (s : State) (k : Nat) (e : SubEnt) (r : Nat × Nat × Nat) (rest : List (Nat × Nat × Nat)), s.isLive pgRegn = true ∧ s.sub k = some e ∧ e.queued = r :: rest ∧ e.ending = none) ∧
    (∃ (s : State) (k : Nat) (e : SubEnt), s.xprt.ackedSubs = [e.serial] ∧ s.sub k = some e ∧ s.mirroring = false ∧ s.syncing = false) :=
   ⟨⟨sMsg (ctl 1 32 1), 3, ctl 1 32 1, by decide +kernel⟩,
    ⟨sMsg (ctl 2 48 (net2 2 + 4 * 2 ^ 128)), 3, 2, ctl 2 48 (net2 2 + 4 * 2 ^ 128), by decide +kernel⟩,
    ⟨sMsg (ctl 2 48 (net2 3 + 4 * 2 ^ 128)), 3, 3, ctl 2 48 (net2 3 + 4 * 2 ^ 128), by decide +kernel⟩,
    ⟨sSub aSub (sMsg (ctl 3 32 (net2 2))), 3, 2, 16, ctl 3 32 (net2 2), aSub, by decide +kernel⟩,
    ⟨keyed (ctl 4 32 (1 * 2 ^ 16)), 3, 1, ctl 4 32 (1 * 2 ^ 16), by decide +kernel⟩,
    ⟨keyed (ctl 4 32 (1 * 2 ^ 16 + 2 * 2 ^ 32)), 3, 1, ctl 4 32 (1 * 2 ^ 16 + 2 * 2 ^ 32), by decide +kernel⟩,
    ⟨sMsg (ctl 9 32 0), 3, ctl 9 32 0, by decide +kernel⟩,
    ⟨sSub { aSub with queued := [(1, 2, 3)] } sConn, 16, { aSub with queued := [(1, 2, 3)] }, (1, 2, 3), [], by decide +kernel⟩,
    ⟨(sSub { aSub with sent := [(1, 2, 3)], serial := 16 } sConn).onXprt fun x => { x with ackedSubs := [16] }, 16, { aSub with sent := [(1, 2, 3)], serial := 16 }, by decide +kernel⟩⟩

end Regn

namespace Tmgr
def sT : State := on pgTmgr State.reset
def tabT (n i v : Nat) (s : State) : State := s.setTab pgTmgr n i v
def aPkt : OutPkt := { opcode := 17, psn := 5 }
def aEgr : EgrWork := { port := 0, leaf := 7, ctx := 3, bytes := 100, cells := 1, since := 0, pkt := aPkt, trailer := none }
def anAdm (l n : Nat) : AdmWork := { pool := 1, leaf := l, slot := n, cost := 4096, isWrite := false, since := 0 }
def sEgr : State := (tabT 4 7 1 (upPort 0 (conn 3 { state := .ready } sT))).onTmgr fun m => { m with egr := [aEgr], roots := m.roots.set 0 { level := 5 } }
def sAdm (l : List AdmWork) : State := (tabT 4 9 5 (tabT 4 7 1 sT)).onTmgr fun m => { m with adm := l }
def sVat : State := on (pgGrp 0) (on pgVat (on pgCell State.reset))
def aUnit (o : Nat) (l : List Nat) : UnitSt := ⟨o, l, .jrnlRead 3, false, none⟩
def withUnit (n : Nat) (u : UnitSt) (s : State) : State := s.onCell fun c => { c with units := c.units.set n u, nextUnit := n + 1, cells := u.cells.foldl (fun m i => m.set i { alloc := true, refs := 1, owner := u.owner }) c.cells }

/-- The hypotheses of `Obligations.ShapingAndMeters` can be met. -/
theorem witness_ShapingAndMeters :
    (∃ (s : State), s.isLive pgTmgr = true ∧ s.tmgr.held.list = []) ∧
    (∃ (s : State) (r : Nat) (e : EgrWork), r < 64 ∧ s.isLive pgTmgr = true ∧ s.tmgr.egr = [e] ∧ e.port = r ∧ Safety.Leaves s r (s.pktLen e.ctx e.pkt) (s.ctxPcp e.ctx) ∧ s.egrHere e = true ∧ (s.ctx e.ctx).id.rcEn = false ∧ s.rootOpen r = true ∧ e.pkt.key = none ∧ isReadResp e.pkt.opcode = false ∧ (s.cmdq.ctrls.any fun _ c => c.resetting) = false ∧ leafExpress (s.leafEntry e.leaf) = false ∧ s.leafBelowPir false e.leaf = true ∧ s.svcBelowPir (leafEgrSvc (s.leafEntry e.leaf)) = true) ∧
    (∃ (s : State) (p : Nat) (w : AdmWork), p < 4 ∧ s.isOn pgTmgr = true ∧ s.tmgr.adm = [w] ∧ w.pool = p ∧ w.isWrite = false ∧ s.tmgr.bgWant.list = [] ∧ s.rootOpen (64 + p) = true ∧ leafExpress (s.leafEntry w.leaf) = false ∧ s.leafBelowPir true w.leaf = true ∧ s.svcBelowPir (leafAdmSvc (s.leafEntry w.leaf)) = true) ∧
    (∃ (s : State) (p : Nat) (v : AdmWork) (w : AdmWork), p < 4 ∧ s.isOn pgTmgr = true ∧ s.tmgr.adm = [v, w] ∧ v.pool = p ∧ w.pool = p ∧ v.isWrite = false ∧ w.isWrite = false ∧ v.slot ≠ w.slot ∧ s.tmgr.bgWant.list = [] ∧ s.rootOpen (64 + p) = true ∧ leafExpress (s.leafEntry v.leaf) = false ∧ leafExpress (s.leafEntry w.leaf) = true ∧ s.belowCap (64 + p) = true ∧ s.leafBelowPir true w.leaf = true ∧ s.svcBelowPir (leafAdmSvc (s.leafEntry w.leaf)) = true) ∧
    (∃ (s : State), s.isLive pgTmgr = true ∧ s.flag pgTmgr F.SAMPLE_CTL_STREAM_EN = false) ∧
    (∃ (s : State), s.isLive pgTmgr = true ∧ s.tmgr.minute.isOpen = true) ∧
    (∃ (s : State) (covered : Nat), s.tmgr.minute.due = some (covered, false) ∧ s.mirroring = false ∧ s.syncing = false) ∧
    (∃ (s : State) (v : BitVec 32), s.mirroring = false ∧ s.syncing = false ∧ v.toNat ≤ s.get pgTmgr F.METER_GEN_GEN ∧ s.get pgTmgr F.METER_ACK_ACK ≤ v.toNat) ∧
    (∃ (s : State) (v : BitVec 32), s.mirroring = false ∧ s.syncing = false ∧ (s.get pgTmgr F.METER_GEN_GEN < v.toNat ∨ v.toNat < s.get pgTmgr F.METER_ACK_ACK)) :=
   ⟨⟨(tabT 1 5 (1 + 7 * 2 ^ 8 + 3 * 2 ^ 32 + 2 * 2 ^ 64 + 4 * 2 ^ 96) (tabT 4 7 (1 + 6 * 2 ^ 64) sT)).setBucket 5 ⟨12, 30⟩, by decide +kernel⟩,
    ⟨sEgr, 0, aEgr, by unfold Safety.Leaves; decide +kernel⟩,
    ⟨sAdm [anAdm 7 2], 1, anAdm 7 2, by decide +kernel⟩,
    ⟨sAdm [anAdm 7 2, anAdm 9 4], 1, anAdm 7 2, anAdm 9 4, by decide +kernel⟩,
    ⟨sEgr, by decide +kernel⟩,
    ⟨((sT.setTab pgCmdq 2 6 (1 + 2 ^ 64 * 2049 + 9 * 2 ^ 8)).onTmgr fun m => { m with minute := { isOpen := true } }), by decide +kernel⟩,
    ⟨(sT.setF pgTmgr F.METER_GEN_GEN 64).onTmgr fun m => { m with minute := { isOpen := true, minute := 4, due := some (100, false) }, accs := m.accs.set 3 { readBytes := 4, logicalMib := 1027 } }, 100, by decide +kernel⟩,
    ⟨sT.setF pgTmgr F.METER_GEN_GEN 3, 3, by decide +kernel⟩,
    ⟨sT.setF pgTmgr F.METER_GEN_GEN 3, 4, by decide +kernel⟩⟩

/-- The hypotheses of `Obligations.CellPool` can be met. -/
theorem witness_CellPool :
    (∃ (s : State) (u : Nat) (x : UnitSt) (i : Nat) (o : Nat) (c : Nat), i < 48 ∧ o < 48 ∧ c < 4 ∧ s.isLive pgVat = true ∧ s.vat.queues.list = [(voqKey i o c, [⟨u, 1, s.now, false⟩])] ∧ s.vat.held = [] ∧ s.cell.units.find u = some x ∧ s.outLive o = true ∧ s.xprt.spent = []) ∧
    (∃ (s : State) (i : Nat) (c : Nat) (first : Nat) (u : Nat) (outs : List Nat) (x : UnitSt), i < 48 ∧ c < 4 ∧ s.isOn pgVat = true ∧ s.unitAt first = some u ∧ s.cell.units.find u = some x ∧ x.owner = 4 * i + c ∧ outs ≠ [] ∧ outs.length ≤ 4 ∧ ((∀ o, o ∈ outs → o < 48)) ∧ outs.uniq = outs ∧ s.unitLeft u = true) ∧
    (∃ (s : State) (p : Nat) (c : Nat) (n : Nat) (k : UnitKind) (net : Option (Nat × Nat)) (ev : Bool), p < 48 ∧ c < 4 ∧ n ≠ 0 ∧ s.isOn pgCell = true ∧ s.mayTake ⟨p, c, n, k, net, ev, []⟩ = true ∧ (s.takeCells ⟨p, c, n, k, net, ev, []⟩).isSome = true) ∧
    (∃ (s : State) (p : Nat) (c : Nat) (n : Nat) (k : UnitKind) (ev : Bool), p < 48 ∧ c < 4 ∧ n ≠ 0 ∧ s.isOn pgCell = true ∧ s.mayTake ⟨p, c, n, k, none, ev, []⟩ = false) ∧
    (∃ (s : State) (r : AllocReq), s.cell.waiters = [r] ∧ s.isOn pgCell = true ∧ s.mayTake r = true ∧ (s.takeCells r).isSome = true) ∧
    (∃ (s : State) (c : Nat) (o : Nat), s.isLive pgCell = true ∧ c < 524288 ∧ (s.cell.meta c).alloc = true ∧ (s.cell.meta c).owner = o ∧ 1 < (s.cell.meta c).refs) ∧
    (∃ (s : State) (c : Nat) (o : Nat), s.isLive pgCell = true ∧ c < 524288 ∧ (s.cell.meta c).alloc = true ∧ (s.cell.meta c).owner = o ∧ (s.cell.meta c).refs = 1) ∧
    (∃ (s : State) (ptr : Nat) (o : Nat), s.isLive pgCell = true ∧ (2 ^ 27 ≤ ptr ∨ ptr % 256 ≠ 0 ∨ (s.cell.meta (ptr / 256)).alloc = false ∨ (s.cell.meta (ptr / 256)).refs = 0 ∨ (s.cell.meta (ptr / 256)).owner ≠ o)) ∧
    (∃ (c : Nat), c < 524288) ∧
    (∃ (c : Nat), c < 524288) ∧
    (∃ (s : State) (c : Nat), c < 524288 ∧ (s.cell.meta c).alloc = true ∧ s.unitOf c = none) ∧
    (∃ (s : State) (v : BitVec 32), v.toNat ≥ 2 ^ 31 ∧ s.bankRetired (v.toNat % 16) = false ∧ 2 ≤ s.liveBanks.length) ∧
    (∃ (s : State) (v : BitVec 32), v.toNat ≥ 2 ^ 31 ∧ s.bankRetired (v.toNat % 16) = false ∧ s.liveBanks.length ≤ 1) :=
   ⟨⟨(withUnit 2 (aUnit 6 [5]) sVat).setVoq (voqKey 1 0 2) [⟨2, 1, 0, false⟩], 2, aUnit 6 [5], 1, 0, 2, by decide +kernel⟩,
    ⟨withUnit 2 (aUnit 6 [5, 8]) sVat, 1, 2, 5, 2, [3, 40], aUnit 6 [5, 8], by decide +kernel⟩,
    ⟨sVat, 47, 3, 2, .jrnlRead 3, none, true, by decide +kernel⟩,
    ⟨sVat.setF pgCell F.CELL_BANK_STAT_RETIRED 0xFFFF, 1, 1, 2, .jrnlRead 3, false, by decide +kernel⟩,
    ⟨sVat.onCell fun c => { c with waiters := [⟨1, 2, 3, .jrnlRead 3, none, false, []⟩] }, ⟨1, 2, 3, .jrnlRead 3, none, false, []⟩, by decide +kernel⟩,
    ⟨(withUnit 2 (aUnit 6 [5]) sVat).onCell fun c => { c with cells := c.cells.set 5 { alloc := true, refs := 2, owner := 6 } }, 5, 6, by decide +kernel⟩,
    ⟨withUnit 2 (aUnit 6 [5, 8]) sVat, 5, 6, by decide +kernel⟩,
    ⟨sVat, 257, 6, by decide +kernel⟩,
    ⟨5, by decide +kernel⟩,
    ⟨524287, by decide +kernel⟩,
    ⟨sVat.onCell fun c => { c with cells := c.cells.set 5 { alloc := true, refs := 2, owner := 6 } }, 5, by decide +kernel⟩,
    ⟨sVat, BitVec.ofNat 32 (2 ^ 31 + 15), by decide +kernel⟩,
    ⟨sVat.setF pgCell F.CELL_BANK_STAT_RETIRED 0xFFFE, BitVec.ofNat 32 (2 ^ 31), by decide +kernel⟩⟩

end Tmgr

namespace Jrnl
def wSqe : Nat := 1 + 4 * 2 ^ 16 + 7 * 2 ^ 320 + 0 * 2 ^ 384
def wSlot : Slot := { state := .started, conn := 3, qid := 1, tenant := 2, volume := 6, sqe := wSqe }
def sJ : State := (on pgPlce (on pgJrnl (withSlot 4 wSlot { qid := 1, ctrl := some 1, tenant := 2 } {}))).setTab pgCmdq 2 6 (1 + 9 * 2 ^ 24 + 2 ^ 64 * 2049 + 2 * 2 ^ 4)
def jr : JRec := { type := 1, volume := 6, len := 512, slot := some 4, chunk := 5 }
def withRec (k : Nat) (r : JRec) (s : State) : State := s.onJrnl fun j => { j with recs := j.recs.set k r, nextRec := k + 1 }
def fl : Slot := { wSlot with fetched := true, data := ⟨512, 77⟩, recsMade := true }
def mir (s : State) : State := (s.setF pgPair F.PAIR_STAT_ROLE 6).setF pgPair F.PAIR_STAT_PARTNER 2
def full : JRec := { jr with state := .committed, localOk := true, mirrored := true, len := 16384, slot := none, seq := 9, data := ⟨16384, 123 + 9 * 2 ^ 131000⟩ }
def sealedR : JRec := { jr with state := .committed, sealed := true, keyIndex := 3, slot := none, data := ⟨512, 99⟩ }
def sArm : State := ((on pgJrnl State.reset).setF pgPair F.PAIR_STAT_OWN 1).setF (pgPool 1) F.POOL_CFG_DEFINED 1
def ph (n : Nat) (s : State) : State := s.setF pgJrnl F.JRNL_SAVE_STAT_PHASE n

def imgData : Blob := ⟨512, 3⟩
def imgHead : Nat :=
  let h := 9 + 2 ^ 64 + 6 * 2 ^ 80 + 512 * 2 ^ 96 + 2 ^ 192 + crc32c 512 3 * 2 ^ 256
  h + crc32c 36 h * 2 ^ 288
def restoring (x : Fld) (n : Nat) : State := (State.reset.setF pgJrnl x n).onJrnl fun j => { j with restoring := true, header := 5 * 2 ^ (8 * 44) }
def sPlaced : State := sJ.onCell fun c => { c with units := c.units.set 9 ⟨0, [1], .writeData 4, false, none⟩ }

theorem goodPage_read (a d : Nat) : goodPage ⟨a, d, none⟩ (crc32c 4096 d) = some d := if_pos rfl

/-- The hypotheses of `Obligations.JournalRecords` can be met. -/
theorem witness_JournalRecords :
    (∃ (s : State) (n : Nat) (c : Nat) (a : Nat) (x : Slot), s.slot n = some x ∧ x.state = .started ∧ sqeOpc x.sqe = 0x01 ∧ x.qid ≠ 0 ∧ x.recsMade = false ∧ s.isLive pgJrnl = true ∧ s.saving = false ∧ s.findSpace (recSpace 1 x.bytes) = some (c, a) ∧ s.mirroring = false ∧ s.syncing = false ∧ s.someAt 40 (fun k => decide (k = .writeData n)) = true) ∧
    (∃ (s : State) (k : Nat) (n : Nat) (r : JRec) (x : Slot), s.jrec k = some r ∧ r.type = 1 ∧ r.state = .opened ∧ r.localOk = false ∧ r.discard = false ∧ r.slot = some n ∧ s.slot n = some x ∧ x.state = .started ∧ x.fetched = true ∧ x.discard = false ∧ s.mirroring = false ∧ s.syncing = false ∧ s.unitsWhere (fun y => decide (y = UnitKind.writeData n)) = [] ∧ s.toOutput 40 (fun y => decide (y = .writeData n)) = false ∧ (s.cmdq.ctrls.any fun _ v => v.resetting) = false ∧ 2 ≤ x.recsOpen) ∧
    (∃ (s : State) (k : Nat) (n : Nat) (r : JRec) (x : Slot), s.jrec k = some r ∧ r.type = 1 ∧ r.state = .opened ∧ r.localOk = false ∧ r.discard = false ∧ r.slot = some n ∧ s.slot n = some x ∧ x.state = .started ∧ x.fetched = true ∧ x.discard = false ∧ s.mirroring = false ∧ s.syncing = false ∧ s.unitsWhere (fun y => decide (y = UnitKind.writeData n)) = [] ∧ s.toOutput 40 (fun y => decide (y = .writeData n)) = false ∧ (s.cmdq.ctrls.any fun _ v => v.resetting) = false ∧ x.recsOpen = 1) ∧
    (∃ (s : State) (k : Nat) (n : Nat) (r : JRec) (x : Slot), s.jrec k = some r ∧ r.type = 1 ∧ r.state = .opened ∧ r.localOk = false ∧ r.discard = false ∧ r.slot = some n ∧ s.slot n = some x ∧ x.state = .started ∧ x.fetched = true ∧ x.discard = false ∧ s.mirroring = true ∧ r.mirrored = false ∧ s.unitsWhere (fun y => decide (y = UnitKind.writeData n)) = [] ∧ s.toOutput 40 (fun y => decide (y = .writeData n)) = false ∧ (s.cmdq.ctrls.any fun _ v => v.resetting) = false) ∧
    (∃ (s : State) (k : Nat) (r : JRec), s.jrec k = some r ∧ r.state = .opened ∧ r.localOk = true ∧ r.mirrored = false ∧ s.mirroring = true) ∧
    (∃ (s : State) (v : Nat) (u : Nat) (k : Nat) (r : JRec), s.isLive pgJrnl = true ∧ s.isOn pgPlce = true ∧ s.saving = false ∧ s.unitRecs v u = [(k, r)] ∧ s.handTurn v u = true ∧ s.jrec k = some r ∧ r.sealed = false ∧ r.state = .committed ∧ r.poison = false ∧ ((∀ e, e ∈ s.jrnl.recs.list → e.2.type = 1)) ∧ s.cmpr.writes = {} ∧ s.plce.waits = [] ∧ s.pageCached (pageKey v u) = true ∧ (s.pool (s.volPool v)).state ≠ 5 ∧ (s.overlay v (u * 32) 32).1 = 2 ^ 32 - 1) ∧
    (∃ (s : State) (k : Nat) (r : JRec) (ue : Bool), s.jrec k = some r ∧ r.sealed = true ∧ (s.restKey r.keyIndex).state = 1 ∧ ((ue = true → s.fab.severity S.JRNL_HBM_UE ≠ 2))) :=
   ⟨⟨sPlaced, 4, 0, 0, wSlot, by decide +kernel⟩,
    ⟨(withRec 2 jr sJ).setSlot 4 { fl with recsOpen := 2 }, 2, 4, jr, { fl with recsOpen := 2 }, by decide +kernel⟩,
    ⟨(withRec 2 jr sJ).setSlot 4 { fl with recsOpen := 1 }, 2, 4, jr, { fl with recsOpen := 1 }, by decide +kernel⟩,
    ⟨mir ((withRec 2 jr sJ).setSlot 4 { fl with recsOpen := 1 }), 2, 4, jr, { fl with recsOpen := 1 }, by decide +kernel⟩,
    ⟨mir (withRec 2 { jr with localOk := true } sJ), 2, { jr with localOk := true }, by decide +kernel⟩,
    ⟨(withRec 2 full sJ).onPlce fun x => { x with pages := x.pages.set (pageKey 6 0) {} }, 6, 0, 2, full, by decide +kernel⟩,
    ⟨(withRec 2 sealedR sJ).onGard fun g => { g with rest := g.rest.set 3 { state := 1 } }, 2, sealedR, true, by decide +kernel⟩⟩

/-- The hypotheses of `Obligations.BrineSave` can be met. -/
theorem witness_BrineSave :
    (∃ (s : State), s.jrnl.powerFail = true ∧ s.saving = false) ∧
    (∃ (s : State), s.jrnl.powerFail = true ∧ s.saving = false ∧ s.fwPhase = 0 ∧ s.armed = true) ∧
    (∃ (s : State), s.jrnl.powerFail = true ∧ s.saving = false ∧ s.fwPhase = 0 ∧ s.armed = false) ∧
    (∃ (s : State), s.get pgJrnl F.JRNL_SAVE_STAT_PHASE = 1) ∧
    (∃ (s : State), s.get pgJrnl F.JRNL_SAVE_STAT_PHASE = 2 ∧ s.jrnl.saveEnded = false) ∧
    (∃ (s : State) (b : Nat), s.get pgJrnl F.JRNL_SAVE_STAT_PHASE = 2 ∧ b ∈ s.jrnl.saveMembers ∧ s.jrnl.saveLost = 0) ∧
    (∃ (s : State) (b : Nat), s.get pgJrnl F.JRNL_SAVE_STAT_PHASE = 2 ∧ b ∈ s.jrnl.saveMembers ∧ s.jrnl.saveLost = 1 ∧ s.pair.island.tripped = false) ∧
    (∃ (s : State), s.get pgJrnl F.JRNL_SAVE_STAT_PHASE = 2 ∧ s.jrnl.saveEnded = true ∧ s.pair.island.tripped = false) ∧
    (∃ (s : State), (s.fab.page pgJrnl).state = .starting ∧ s.jrnl.restoring = false ∧ s.jrnl.restored = false) ∧
    (∃ (s : State) (x : ImageRec) (r : JRec) (c : Nat) (a : Nat), s.jrnl.restoring = true ∧ s.get pgJrnl F.JRNL_RESTORE_STAT_JRNL_SRC = 2 ∧ goodRec x = some r ∧ s.findSpace (recSpace r.type r.len) = some (c, a)) ∧
    (∃ (s : State), s.jrnl.restoring = true ∧ s.get pgJrnl F.JRNL_RESTORE_STAT_REGN_SRC = 0) ∧
    (∃ (s : State), s.jrnl.restoring = true ∧ s.get pgJrnl F.JRNL_RESTORE_STAT_REGN_SRC = 1) ∧
    (∃ (s : State) (x : ImagePage) (crc : Nat) (d : Nat), s.jrnl.restoring = true ∧ s.get pgJrnl F.JRNL_RESTORE_STAT_REGN_SRC = 2 ∧ goodPage x crc = some d) ∧
    (∃ (s : State) (x : ImagePage) (crc : Nat), s.jrnl.restoring = true ∧ s.get pgJrnl F.JRNL_RESTORE_STAT_REGN_SRC = 2 ∧ goodPage x crc = none) :=
   ⟨⟨sArm.onJrnl fun j => { j with powerFail := true }, by decide +kernel⟩,
    ⟨(((upPort 5 sArm).setF (pgDrvp 23) F.DRV_PS_MODE 1).setF (pgDrvp 23) F.BAY_STAT_PS 3).onJrnl fun j => { j with powerFail := true }, by decide +kernel⟩,
    ⟨(upPort 5 State.reset).onJrnl fun j => { j with powerFail := true }, by decide +kernel⟩,
    ⟨ph 1 (withRec 3 { jr with localOk := true } (withRec 2 jr sArm)), by decide +kernel⟩,
    ⟨(ph 2 sArm).onJrnl fun j => { j with saveMembers := [0, 23] }, by decide +kernel⟩,
    ⟨(ph 2 sArm).onJrnl fun j => { j with saveMembers := [0, 23] }, 23, by decide +kernel⟩,
    ⟨(ph 2 sArm).onJrnl fun j => { j with saveMembers := [0], saveLost := 1 }, 0, by decide +kernel⟩,
    ⟨(ph 2 sArm).onJrnl fun j => { j with saveEnded := true }, by decide +kernel⟩,
    ⟨page pgJrnl (fun p => { p with state := .starting }) State.reset, by decide +kernel⟩,
    ⟨restoring F.JRNL_RESTORE_STAT_JRNL_SRC 2, ⟨imgHead, imgData, 512, none⟩, recOfImage imgHead imgData 512, 0, 0, by decide +kernel⟩,
    ⟨restoring F.JRNL_RESTORE_STAT_REGN_SRC 0, by decide +kernel⟩,
    ⟨restoring F.JRNL_RESTORE_STAT_REGN_SRC 1, by decide +kernel⟩,
    ⟨restoring F.JRNL_RESTORE_STAT_REGN_SRC 2, ⟨0x1000, 5, none⟩, crc32c 4096 5, 5, by refine ⟨?_, ?_, goodPage_read 0x1000 5⟩ <;> decide +kernel⟩,
    ⟨restoring F.JRNL_RESTORE_STAT_REGN_SRC 2, ⟨0x1000, 5, none⟩, 6, by decide +kernel⟩⟩

end Jrnl

namespace Cmpr
def sC : State := on pgCell (on pgCmpr State.reset)
def wu : WUnit := { volume := 6, lun := 0, for_ := .destage, stage := .ready, data := 5, cover := 3 }
def onLane (n j : Nat) (w : WUnit) (s : State) : State := (s.setJob j w).onCmpr fun c => { c with lanes := c.lanes.set n j }
def heldBy (n k : Nat) (s : State) : State := s.onCell fun c => { c with units := c.units.set 9 ⟨165, List.range k, .chain n, false, none⟩ }
def ru : RUnit := { volume := 6, lun := 0, entry := entPhys 1 0 33 false true, pool := 0, for_ := .slot 4, parts := [], ranges := [(0, 1)] }
def rdSqe : Nat := 2 + 4 * 2 ^ 16 + 0 * 2 ^ 320
def rSlot : Slot := { state := .started, conn := 3, qid := 1, tenant := 2, volume := 6, sqe := rdSqe, looked := [0] }
def sD : State := (on pgCmpr (withSlot 4 rSlot { qid := 1, ctrl := some 1, tenant := 2 } {})).setTab pgCmdq 2 6 (1 + 9 * 2 ^ 24 + 2 ^ 64 * 2049 + 2 * 2 ^ 4)
def rd (r : RUnit) (s : State) : State := s.setReadJob 8 r
def rdLane (r : RUnit) (s : State) : State := (rd r s).onCmpr fun c => { c with lanes := c.lanes.set 41 8 }
def rawU : Nat := (rawUnit 1 77).val
def keyed : Nat := 3 * 2 ^ 64

def act (s : State) : State := s.onRegn fun g => { g with regions := g.regions.set 2 { base := 0, size := 65536, state := 1 } }

/-- The hypotheses of `Obligations.CompressLanes` can be met. -/
theorem witness_CompressLanes :
    (∃ (s : State) (j : Nat) (n : Nat) (w : WUnit), s.isOn pgCmpr = true ∧ s.saving = false ∧ s.cmpr.writes.list = [(j, w)] ∧ w.stage = .ready ∧ s.lowestCLane w.avoid = some n ∧ s.inVat (fun k => decide (k = .handOff j)) = false) ∧
    (∃ (s : State) (n : Nat) (j : Nat) (k : Nat) (w : WUnit) (b : Blob), s.cmpr.lanes.find n = some j ∧ s.wjob j = some w ∧ w.stage = .lane n ∧ (s.cell.waiters.any fun r => decide (r.kind = UnitKind.chain n)) = false ∧ s.laneHeld n ≠ 0 ∧ w.data ≠ 0 ∧ k = (if w.volume = imgVol then 0 else s.sealIndex w.volume) ∧ (w.fmt = 1 ∨ w.fmt = 2) ∧ 0 < b.len ∧ b.len ≤ 15872 ∧ (hdrLen (storedUnit w.fmt 0 (crc32c unitBytes w.data) b).val + 255) / 256 ≤ s.laneHeld n) ∧
    (∃ (s : State) (n : Nat) (j : Nat) (k : Nat) (w : WUnit) (b : Blob), s.cmpr.lanes.find n = some j ∧ s.wjob j = some w ∧ w.stage = .lane n ∧ (s.cell.waiters.any fun r => decide (r.kind = UnitKind.chain n)) = false ∧ s.laneHeld n ≠ 0 ∧ w.data ≠ 0 ∧ k = (if w.volume = imgVol then 0 else s.sealIndex w.volume) ∧ (w.fmt = 1 ∨ w.fmt = 2) ∧ 15872 < b.len ∧ 66 ≤ s.laneHeld n) ∧
    (∃ (s : State) (n : Nat) (j : Nat) (w : WUnit), s.cmpr.lanes.find n = some j ∧ s.wjob j = some w ∧ (s.cell.waiters.any fun r => decide (r.kind = UnitKind.chain n)) = false ∧ s.laneHeld n ≠ 0 ∧ s.mirroring = false ∧ s.syncing = false ∧ mePhys (s.entry w.volume w.lun) = false ∧ w.for_ = .destage ∧ s.activeUnit w.lun = true ∧ w.data = 0) ∧
    (∃ (s : State) (n : Nat) (j : Nat) (w : WUnit), s.cmpr.lanes.find n = some j ∧ s.wjob j = some w ∧ (s.cell.waiters.any fun r => decide (r.kind = UnitKind.chain n)) = false ∧ s.laneHeld n ≠ 0) ∧
    (∃ (s : State) (n : Nat) (j : Nat) (w : WUnit), s.cmpr.lanes.find n = some j ∧ s.wjob j = some w ∧ w.stage = .lane n ∧ w.chainWait = true ∧ (s.cell.waiters.any fun r => decide (r.kind = UnitKind.chain n)) = true) ∧
    (∃ (n : Nat), n < 60) ∧
    (∃ (s : State) (n : Nat) (j : Nat) (r : RUnit), n < 60 ∧ s.cmpr.lanes.find n = some j ∧ 40 ≤ n ∧ s.readJob j = some r) ∧
    (∃ (s : State) (n : Nat) (j : Nat) (w : WUnit), n < 60 ∧ s.cmpr.lanes.find n = some j ∧ n < 40 ∧ s.wjob j = some w) ∧
    (∃ (s : State) (n : Nat), s.isOn pgCmpr = true ∧ s.get pgCmpr F.CMPR_TEST_SELFTEST_MS ≠ 0 ∧ n = s.cmpr.testLane ∧ n < 60 ∧ s.laneIdle n = true) ∧
    (∃ (s : State) (n : Nat), s.isOn pgCmpr = true ∧ s.get pgCmpr F.CMPR_TEST_SELFTEST_MS ≠ 0 ∧ n = s.cmpr.testLane ∧ n < 60 ∧ s.laneIdle n = true) ∧
    (∃ (s : State) (n : Nat) (v : BitVec 32), n < 60 ∧ v.toNat = 2 ^ 31 + (if n < 40 then n else n + 24) ∧ s.laneRetired n = false ∧ 2 ≤ s.cmprLanesOn (isDLane n)) ∧
    (∃ (s : State) (n : Nat) (v : BitVec 32), n < 60 ∧ v.toNat = 2 ^ 31 + (if n < 40 then n else n + 24) ∧ s.laneRetired n = false ∧ s.cmprLanesOn (isDLane n) ≤ 1) :=
   ⟨⟨sC.setJob 3 wu, 3, 0, wu, by decide +kernel⟩,
    ⟨heldBy 39 66 (onLane 39 3 { wu with stage := .lane 39, fmt := 1 } sC), 39, 3, 0, { wu with stage := .lane 39, fmt := 1 }, ⟨15872, 7⟩, by refine ⟨?_, ?_, ?_, ?_, ?_, ?_, ?_, ?_, ?_, ?_, (by rw [storedUnit_hdrLen] <;> first | exact crc32c_lt _ _ | decide +kernel)⟩ <;> decide +kernel⟩,
    ⟨heldBy 39 66 (onLane 39 3 { wu with stage := .lane 39, fmt := 2 } sC), 39, 3, 0, { wu with stage := .lane 39, fmt := 2 }, ⟨15873, 7⟩, by decide +kernel⟩,
    ⟨act (heldBy 0 32 (onLane 0 3 { wu with stage := .lane 0, data := 0 } sC)), 0, 3, { wu with stage := .lane 0, data := 0 }, by decide +kernel⟩,
    ⟨heldBy 0 32 (onLane 0 3 { wu with stage := .lane 0 } sC), 0, 3, { wu with stage := .lane 0 }, by decide +kernel⟩,
    ⟨(heldBy 0 32 (onLane 0 3 { wu with stage := .lane 0, chainWait := true } sC)).onCell fun c => { c with waiters := [laneReq 0 0 1] }, 0, 3, { wu with stage := .lane 0, chainWait := true }, by decide +kernel⟩,
    ⟨59, by decide +kernel⟩,
    ⟨rdLane { ru with lane := some 41, result := some 4 } sD, 41, 8, { ru with lane := some 41, result := some 4 }, by refine ⟨?_, ?_, ?_, rfl⟩ <;> decide +kernel⟩,
    ⟨heldBy 39 32 (onLane 39 3 { wu with stage := .lane 39 } sC), 39, 3, { wu with stage := .lane 39 }, by decide +kernel⟩,
    ⟨(sC.setF pgCmpr F.CMPR_TEST_SELFTEST_MS 5).onCmpr fun c => { c with testLane := 59 }, 59, by decide +kernel⟩,
    ⟨(sC.setF pgCmpr F.CMPR_TEST_SELFTEST_MS 5).onCmpr fun c => { c with testLane := 59 }, 59, by decide +kernel⟩,
    ⟨sC, 39, BitVec.ofNat 32 (2 ^ 31 + 39), by decide +kernel⟩,
    ⟨(sC.setF pgCmpr F.CMPR_CRET_LO_RETIRED 0xFFFFFFFF).setF pgCmpr F.CMPR_CRET_HI_RETIRED 0x7F, 39, BitVec.ofNat 32 (2 ^ 31 + 39), by decide +kernel⟩⟩

/-- The hypotheses of `Obligations.DecompressLanes` can be met. -/
theorem witness_DecompressLanes :
    (∃ (s : State) (j : Nat) (n : Nat) (u : Nat) (r : RUnit), s.isOn pgCmpr = true ∧ s.saving = false ∧ s.cmpr.reads.list = [(j, r)] ∧ r.complete = true ∧ r.lane = none ∧ r.result = none ∧ r.lost = false ∧ r.cls < 4 ∧ r.for_ ≠ .press ∧ s.inVat (cellsOfRead j) = false ∧ s.lowestDLane r.cls r.avoid = some n ∧ s.openUnit r.volume r.lun (r.bytes (s.pool r.pool)) (meGlen r.entry) = some u) ∧
    (∃ (s : State) (j : Nat) (n : Nat) (u : Nat) (k : Nat) (r : RUnit) (x : Slot), s.isOn pgCmpr = true ∧ s.saving = false ∧ s.cmpr.reads.list = [(j, r)] ∧ r.complete = true ∧ r.lane = none ∧ r.result = none ∧ r.lost = false ∧ r.cls < 4 ∧ s.inVat (cellsOfRead j) = false ∧ s.lowestDLane r.cls r.avoid = some n ∧ hdrKey (r.bytes (s.pool r.pool)) = u ∧ u ≠ 0 ∧ (s.restKey u).state ≠ 1 ∧ r.for_ = .slot k ∧ s.slot k = some x ∧ x.state = .started ∧ x.outcome = none) ∧
    (∃ (s : State) (n : Nat) (j : Nat) (u : Nat) (k : Nat) (x : Nat) (r : RUnit) (v : Slot), 40 ≤ n ∧ s.cmpr.lanes.find n = some j ∧ s.cmpr.reads.list = [(j, r)] ∧ r.result = some u ∧ r.partial_ = false ∧ r.failed = none ∧ checkUnit u (meGlen r.entry) = .inl x ∧ r.for_ = .slot k ∧ s.slot k = some v ∧ v.state = .started ∧ v.outcome = none ∧ v.allLooked = true) ∧
    (∃ (s : State) (n : Nat) (j : Nat) (u : Nat) (k : Nat) (x : Nat) (r : RUnit) (w : WUnit), 40 ≤ n ∧ s.cmpr.lanes.find n = some j ∧ s.cmpr.reads.list = [(j, r)] ∧ r.result = some u ∧ r.partial_ = false ∧ r.failed = none ∧ checkUnit u (meGlen r.entry) = .inl x ∧ r.for_ = .merge k ∧ s.wjob k = some w) ∧
    (∃ (s : State) (n : Nat) (j : Nat) (u : Nat) (e : Nat × Nat) (r : RUnit), 40 ≤ n ∧ s.cmpr.lanes.find n = some j ∧ s.readJob j = some r ∧ r.result = some u ∧ r.partial_ = false ∧ r.failed = none ∧ checkUnit u (meGlen r.entry) = .inr e) :=
   ⟨⟨rd ru sD, 8, 42, 0, ru, by refine ⟨?_, ?_, rfl, ?_⟩ <;> decide +kernel⟩,
    ⟨rd { ru with parts := [⟨0, 1, 0, some (3 * 2 ^ 64), false, false⟩], ranges := [(0, 1)] } (sD.onPool 0 fun p => { p with prot := 1, d := 1, w := 2 }), 8, 42, 3, 4, { ru with parts := [⟨0, 1, 0, some (3 * 2 ^ 64), false, false⟩], ranges := [(0, 1)] }, rSlot, by refine ⟨?_, ?_, rfl, ?_⟩ <;> decide +kernel⟩,
    ⟨rdLane { ru with lane := some 41, result := some (rawUnit 1 77).val } sD, 41, 8, (rawUnit 1 77).val, 4, 77, { ru with lane := some 41, result := some (rawUnit 1 77).val }, rSlot, by refine ⟨?_, ?_, rfl, rfl, ?_, ?_, checkUnit_rawUnit 1 77 (by decide) (by decide +kernel), ?_⟩ <;> decide +kernel⟩,
    ⟨(rdLane { ru with lane := some 41, result := some (rawUnit 1 77).val, for_ := .merge 3 } sC).setJob 3 wu, 41, 8, (rawUnit 1 77).val, 3, 77, { ru with lane := some 41, result := some (rawUnit 1 77).val, for_ := .merge 3 }, wu, by refine ⟨?_, ?_, rfl, rfl, ?_, ?_, checkUnit_rawUnit 1 77 (by decide) (by decide +kernel), ?_⟩ <;> decide +kernel⟩,
    ⟨rdLane { ru with lane := some 41, result := some 4 } sD, 41, 8, 4, (1, 0), { ru with lane := some 41, result := some 4 }, by refine ⟨?_, ?_, rfl, rfl, ?_⟩ <;> decide +kernel⟩⟩

end Cmpr

namespace Plce
def mem3 : List Member := [⟨0, 1, 0, 0, 900⟩, ⟨1, 1, 0, 0, 900⟩, ⟨2, 1, 0, 0, 900⟩]
def sP : State := (on pgTmgr (on pgPlce State.reset)).onPool 0 fun p => { p with state := 2, prot := 2, d := 1, w := 3, m := 2, segments := 10, members := mem3 }
def wst : WUnit := { volume := 6, lun := 0, for_ := .destage, stage := .stored, data := 5, cover := 3, stored := ⟨1024, 99⟩ }
def pu : PackU := { volume := 6, lun := 9, goff := 0, glen := 2, raw := false, isSealed := false, job := some 3, from_ := none, bytes := 77 }
def str : Stripe := { pool := 0, seg := 1, t := 4, stream := 0, units := [pu], used := 2 }
def withOpen (x : Stripe) (s : State) : State := s.onPlce fun y => { y with open_ := y.open_.set 0 x }
def withWr (x : Stripe) (l : List (DrvUse × Bool)) (s : State) : State := (s.onPlce fun y => { y with writing := [x] }).onStrp fun y => { y with done := l }
def fetch (k : Nat) (s : State) : State := (s.onPlce fun y => { y with fetching := [k] }).onStrp fun y => { y with done := [(.mapRead k, true)] }
def pk : Nat := pageKey 6 0
def pgd (x : MapPage) (s : State) : State := s.onPlce fun y => { y with pages := y.pages.set pk x, slots := y.slots.set pk 0 }

def act (s : State) : State := s.onRegn fun g => { g with regions := g.regions.set 2 { base := 0, size := 16384 * 16, state := 1 } }

/-- The hypotheses of `Obligations.Placement` can be met. -/
theorem witness_Placement :
    (∃ (s : State) (j : Nat) (p : Nat) (w : WUnit) (x : Stripe), s.isLive pgPlce = true ∧ s.saving = false ∧ s.wjob j = some w ∧ w.stage = .stored ∧ p = s.volPool w.volume ∧ (s.pool p).usable = true ∧ s.inVat (cellsOfJob j) = false ∧ s.plce.open_.find (2 * p) = some x ∧ x.units ≠ [] ∧ x.fits (s.pool p).d (w.stored.len / 512) = true ∧ x.used + w.stored.len / 512 + 1 + summaryGran (x.units.length + 2) ≤ 128 * (s.pool p).d) ∧
    (∃ (s : State) (j : Nat) (p : Nat) (w : WUnit), s.isLive pgPlce = true ∧ s.saving = false ∧ s.wjob j = some w ∧ w.stage = .stored ∧ p = s.volPool w.volume ∧ (s.pool p).usable = true ∧ s.inVat (cellsOfJob j) = false ∧ s.plce.open_.find (2 * p) = none ∧ s.freeSegs p ≤ s.pressReserve p ∧ (s.plce.waits.any fun y => decide (y.job = j)) = false) ∧
    (∃ (s : State) (p : Nat) (st : Nat) (x : Stripe), st < 2 ∧ s.saving = false ∧ s.mirroring = false ∧ s.syncing = false ∧ s.plce.open_.find (2 * p + st) = some x ∧ x.units ≠ [] ∧ x.pool = p ∧ x.t < 63) ∧
    (∃ (s : State) (p : Nat) (g : Nat) (k : Nat) (r : Nat) (q : Nat) (x : Stripe), s.strp.done = [(.strip p g k r, true)] ∧ s.plce.writing = [x] ∧ x.pool = p ∧ x.seg = g ∧ x.t = k ∧ x.waiting = [r, q] ∧ r ≠ q) ∧
    (∃ (s : State) (p : Nat) (g : Nat) (k : Nat) (r : Nat) (j : Nat) (x : Stripe) (u : PackU) (w : WUnit), s.strp.done = [(.strip p g k r, true)] ∧ s.plce.writing = [x] ∧ x.pool = p ∧ x.seg = g ∧ x.t = k ∧ x.waiting = [r] ∧ x.failed = [] ∧ (s.pool p).tooMany [] = false ∧ x.units = [u] ∧ u.job = some j ∧ s.wjob j = some w ∧ w.for_ = .destage ∧ s.activeUnit w.lun = true ∧ s.mirroring = false ∧ s.syncing = false ∧ mePhys (s.entry w.volume w.lun) = false) ∧
    (∃ (s : State) (j : Nat) (w : WUnit), (s.plce.waits.any fun y => decide (y.job = j)) = true ∧ s.wjob j = some w ∧ w.volume = imgVol ∧ w.for_ = .destage ∧ s.activeUnit w.lun = true ∧ s.mirroring = false ∧ s.syncing = false ∧ mePhys (s.entry w.volume w.lun) = false) ∧
    (∃ (s : State) (p : Nat) (n : Nat), (s.seg p n).state = 4 ∧ (s.seg p n).undurable = [] ∧ (s.seg p n).reads = 0 ∧ s.mirroring = false ∧ s.syncing = false) :=
   ⟨⟨withOpen str (sP.setJob 3 wst), 3, 0, wst, str, by decide +kernel⟩,
    ⟨(sP.setJob 3 wst).onPool 0 fun p => { p with segments := 0 }, 3, 0, wst, by decide +kernel⟩,
    ⟨withOpen { str with t := 62 } sP, 0, 0, { str with t := 62 }, by decide +kernel⟩,
    ⟨withWr { str with waiting := [2, 1] } [(.strip 0 1 4 2, true)] sP, 0, 1, 4, 2, 1, { str with waiting := [2, 1] }, by decide +kernel⟩,
    ⟨act (withWr { str with waiting := [2] } [(.strip 0 1 4 2, true)] (sP.setJob 3 { wst with stage := .packed })), 0, 1, 4, 2, 3, { str with waiting := [2] }, pu, { wst with stage := .packed }, by decide +kernel⟩,
    ⟨act ((sP.setJob 3 { wst with volume := imgVol }).onPlce fun y => { y with waits := [⟨3, 0⟩] }), 3, { wst with volume := imgVol }, by decide +kernel⟩,
    ⟨sP.setSeg 0 2 { state := 4, pad := 3 }, 0, 2, by decide +kernel⟩⟩

/-- The hypotheses of `Obligations.MapAndPress` can be met. -/
theorem witness_MapAndPress :
    (∃ (s : State) (k : Nat) (ok : Bool), k ∈ s.plce.fetching ∧ s.strp.done = [(.mapRead k, ok)] ∧ s.inVat (fun x => decide (x = .mapRead k)) = false ∧ ok = true ∧ (s.plce.copies.get k []).length ≤ 1 ∧ s.plce.pages.size < s.get pgPlce F.PLCE_MAP_STAT_FRAMES) ∧
    (∃ (s : State) (k : Nat) (ok : Bool) (c : Nat), k ∈ s.plce.fetching ∧ s.strp.done = [(.mapRead k, ok)] ∧ s.inVat (fun x => decide (x = .mapRead k)) = false ∧ s.mapCopyFor (s.volPool (pageVol k)) ((s.pageSlot k).getD 0) (s.plce.copies.get k []) = some c) ∧
    (∃ (s : State) (k : Nat) (ok : Bool), k ∈ s.plce.fetching ∧ s.strp.done = [(.mapRead k, ok)] ∧ s.inVat (fun x => decide (x = .mapRead k)) = false ∧ s.mapCopyFor (s.volPool (pageVol k)) ((s.pageSlot k).getD 0) (s.plce.copies.get k []) = none ∧ s.plce.copies.get k [] ≠ [] ∧ s.plce.pages.size < s.get pgPlce F.PLCE_MAP_STAT_FRAMES) ∧
    (∃ (s : State) (k : Nat) (c : Nat) (p : Nat) (q : Nat), (s.mapPage k).dirty = some c ∧ (s.mapPage k).wb = none ∧ s.isLive pgPlce = true ∧ s.saving = false ∧ p = s.volPool (pageVol k) ∧ (s.pool p).usable = true ∧ s.intents p < 262136 ∧ 13824 ≤ s.tmgr.bgGrant.get (bgLeaf p 3) 0 ∧ s.awaits (.placement 0 k) = false ∧ s.mirroring = false ∧ s.syncing = false ∧ s.pageSlot k = some q) ∧
    (∃ (s : State) (k : Nat) (n : Nat) (m : Nat), (s.mapPage k).wb = some (n, m) ∧ s.mirroring = false ∧ s.syncing = false ∧ s.strp.done = [(.mapCopy k 0 (s.mapPage k).wgen, true), (.mapCopy k 1 (s.mapPage k).wgen, true)]) ∧
    (∃ (s : State) (k : Nat) (n : Nat) (m : Nat), (s.mapPage k).wb = some (n, m) ∧ s.mirroring = false ∧ s.syncing = false ∧ s.strp.done = [(.mapCopy k 0 (s.mapPage k).wgen, true)]) ∧
    (∃ (s : State) (p : Nat) (n : Nat), p < 4 ∧ s.mirroring = false ∧ s.syncing = false ∧ s.isOn pgPlce = true ∧ s.saving = false ∧ (s.pool p).usable = true ∧ s.freeSegs p < s.pressStart p ∧ bitAt (s.get pgPlce F.PLCE_PRESS_CTL_PAUSE) p = false ∧ s.plce.victims.find p = none ∧ s.selectVictim p = some n) ∧
    (∃ (s : State) (p : Nat) (g : Nat) (k : Nat) (u : PackU) (rest : List (Nat × Nat × Nat × PackU)), s.plce.relocs = (p, g, k, u) :: rest ∧ s.mirroring = false ∧ s.syncing = false ∧ mePhys (s.entry u.volume u.lun) = true ∧ u.from_ = some (meSeg (s.entry u.volume u.lun), meGoff (s.entry u.volume u.lun))) ∧
    (∃ (s : State) (p : Nat) (g : Nat) (k : Nat) (u : PackU) (rest : List (Nat × Nat × Nat × PackU)), s.plce.relocs = (p, g, k, u) :: rest ∧ s.mirroring = false ∧ s.syncing = false ∧ u.from_ ≠ some (meSeg (s.entry u.volume u.lun), meGoff (s.entry u.volume u.lun))) ∧
    (∃ (s : State) (v : BitVec 32), v.toNat ≥ 2 ^ 31 ∧ s.flag pgPlce F.PLCE_VOL_OP_STAT_BUSY = false ∧ nsValid (s.ns (bitsOf v.toNat 0 14)) = false) ∧
    (∃ (s : State) (v : BitVec 32), v.toNat ≥ 2 ^ 31 ∧ s.flag pgPlce F.PLCE_VOL_OP_STAT_BUSY = false ∧ nsValid (s.ns (bitsOf v.toNat 0 14)) = true) ∧
    (∃ (s : State) (v : Nat), s.plce.discarding = some v ∧ s.mirroring = false ∧ s.syncing = false) :=
   ⟨⟨fetch pk sP, pk, true, by decide +kernel⟩,
    ⟨fetch pk (sP.setTab pgCmdq 2 6 (1 + 9 * 2 ^ 24 + 2 ^ 64 * 64)), pk, true, 0, by decide +kernel⟩,
    ⟨(fetch pk (sP.setTab pgCmdq 2 6 (1 + 9 * 2 ^ 24 + 2 ^ 64 * 64))).onPlce fun y => { y with copies := y.copies.set pk [0, 1, 2] }, pk, true, by decide +kernel⟩,
    ⟨(pgd { dirty := some 0, changes := 3 } sP).onTmgr fun m => { m with bgGrant := m.bgGrant.set 16371 13824 }, pk, 0, 0, 0, by decide +kernel⟩,
    ⟨(pgd { wb := some (3, 0), wgen := 2 } sP).onStrp fun y => { y with done := [(.mapCopy pk 0 2, true), (.mapCopy pk 1 2, true)] }, pk, 3, 0, by decide +kernel⟩,
    ⟨(pgd { wb := some (3, 0), wgen := 2 } sP).onStrp fun y => { y with done := [(.mapCopy pk 0 2, true)] }, pk, 3, 0, by decide +kernel⟩,
    ⟨(sP.setSeg 0 2 { state := 2, pad := 3 }).setTab pgPlce 2 0 65535, 0, 2, by decide +kernel⟩,
    ⟨sP.onPlce fun y => { y with relocs := [(0, 4, 1, { pu with from_ := some (1, 8) })], map := y.map.set (mapKey 6 9) (entPhys 1 8 2 false false) }, 0, 4, 1, { pu with from_ := some (1, 8) }, [], by decide +kernel⟩,
    ⟨sP.onPlce fun y => { y with relocs := [(0, 4, 1, { pu with from_ := some (1, 8) })], map := y.map.set (mapKey 6 9) (entPhys 1 9 2 false false) }, 0, 4, 1, { pu with from_ := some (1, 8) }, [], by decide +kernel⟩,
    ⟨sP, BitVec.ofNat 32 (2 ^ 31 + 16383), by decide +kernel⟩,
    ⟨sP.setTab pgCmdq 2 6 1, BitVec.ofNat 32 (2 ^ 31 + 6), by decide +kernel⟩,
    ⟨sP.onPlce fun y => { y with discarding := some 0, map := (y.map.set (mapKey 0 3) (entPhys 1 9 2 false false)).set (mapKey 1 3) 2 }, 0, by decide +kernel⟩⟩

end Plce

namespace Strp
def ready (b : Nat) (s : State) : State := (on (pgDrvp b) s).setF (pgDrvp b) F.BAY_STAT_READY 1
def cap (b : Nat) (s : State) : State := s.onBay b fun v => { v with capacity := 100000000 }
def sU : State := (((on (pgPool 1) (cap 3 (cap 4 (cap 23 (ready 3 (ready 4 (ready 23 State.reset))))))).setF (pgPool 1) F.POOL_CFG_DEFINED 1).setF (pgPool 1) F.POOL_BAYS_MEMBER_MASK (2 ^ 3 + 2 ^ 4 + 2 ^ 23)).setF (pgPool 1) F.POOL_CFG_D 2
def sU1 : State := sU.setF (pgPool 1) F.POOL_CFG_PROT 1
def lab (b : Nat) (s : State) : State := s.onStrp fun x => { x with labels := x.labels.set b ({ poolId := 4, gen := 1, role := 1, position := 0, prot := 1, d := 2, w := 3, mapGib := 1, sliceGib := 1, m := 5, open0 := 1, open1 := 2, cursor := 0, oslPos := [], members := [] } : PoolLabel) }
def opt : PoolRt := { state := 2, prot := 1, d := 2, w := 3, m := 100000000, segments := 10, members := [⟨3, 1, 0, 0, 9⟩, ⟨4, 1, 0, 0, 9⟩, ⟨23, 1, 0, 0, 9⟩] }
def sOpt : State := ((on pgTmgr sU1).setPool 1 opt).onPol fun p => { p with rates := ((p.rates.set 6 { reason := 1 }).set 5 { reason := 1 }) }
def rbp : PoolRt := { opt with state := 3, members := [⟨3, 1, 0, 0, 9⟩, ⟨4, 2, 0, 1, 9⟩, ⟨23, 1, 0, 0, 9⟩], rbState := 1, cursor := 65, joined := [1] }
def rbp2 : PoolRt := { rbp with need := rbp.need.set 1 [2] }

def own (s : State) : State := s.setF pgPair F.PAIR_STAT_OWN 1
def got (e p g w : Nat) (l : List (Nat × Nat)) (s : State) : State := s.onStrp fun y =>
  { y with bgReads := [(e, p, g, w)]
           bgDone := l.mapIdx fun i x => ⟨x.1, { use := .bg e p g w i, isWrite := false, cls := 0, offset := 0, bytes := 0 }, some x.2⟩ }

/-- The hypotheses of `Obligations.PoolOperations` can be met. -/
theorem witness_PoolOperations :
    (∃ (s : State) (p : Nat) (bays : List Nat), p < 4 ∧ (s.pool p).busy = false ∧ (s.pool p).state = 0 ∧ s.flag (pgPool p) F.POOL_CFG_DEFINED = true ∧ s.isOn (pgPool p) = true ∧ bays = bitsIn 24 (s.get (pgPool p) F.POOL_BAYS_MEMBER_MASK) ∧ s.owned = true ∧ s.mirroring = false ∧ s.syncing = false ∧ ((∀ b, b ∈ bays → s.labelled b = false ∧ s.bayReady b = true))) ∧
    (∃ (s : State) (p : Nat) (bays : List Nat) (b : Nat), p < 4 ∧ (s.pool p).busy = false ∧ (s.pool p).state = 0 ∧ s.flag (pgPool p) F.POOL_CFG_DEFINED = true ∧ s.isOn (pgPool p) = true ∧ bays = bitsIn 24 (s.get (pgPool p) F.POOL_BAYS_MEMBER_MASK) ∧ b ∈ bays ∧ s.labelled b = true) ∧
    (∃ (s : State) (p : Nat), p < 4 ∧ (s.pool p).busy = false ∧ (s.pool p).state = 0 ∧ s.flag (pgPool p) F.POOL_CFG_DEFINED = true ∧ s.isOn (pgPool p) = true ∧ (s.fab.page pgJrnl).state ≠ .starting) ∧
    (∃ (s : State) (p : Nat), p < 4 ∧ (s.pool p).busy = false ∧ (s.pool p).state = 0 ∧ s.flag (pgPool p) F.POOL_CFG_DEFINED = true ∧ s.isOn (pgPool p) = true ∧ (s.fab.page pgJrnl).state = .starting) ∧
    (∃ (s : State) (p : Nat), p < 4 ∧ (s.pool p).busy = false ∧ (s.pool p).state ≠ 1 ∧ s.mirroring = false ∧ s.syncing = false ∧ (s.fab.nsEntries false).any (fun e => decide (s.volPool e.1 = p)) = false) ∧
    (∃ (s : State) (p : Nat), p < 4 ∧ (s.pool p).busy = false ∧ (s.pool p).state ≠ 1 ∧ (s.fab.nsEntries false).any (fun e => decide (s.volPool e.1 = p)) = true) ∧
    (∃ (s : State) (p : Nat) (b : Nat) (i : Nat), p < 4 ∧ (s.pool p).busy = false ∧ (s.pool p).usable = true ∧ s.placeOf b = some (p, i) ∧ (s.pool p).spares = [] ∧ s.mirroring = false ∧ s.syncing = false) ∧
    (∃ (s : State) (p : Nat) (b : Nat), p < 4 ∧ (s.pool p).busy = false ∧ (s.pool p).usable = true ∧ s.placeOf b = none) ∧
    (∃ (s : State) (p : Nat) (b : Nat), p < 4 ∧ (s.pool p).busy = false ∧ s.inPool b = false ∧ s.bayReady b = true ∧ s.owned = true) ∧
    (∃ (s : State) (p : Nat) (b : Nat), p < 4 ∧ (s.pool p).busy = false ∧ s.inPool b = false ∧ s.bayReady b = true ∧ s.owned = false) ∧
    (∃ (s : State) (p : Nat) (b : Nat), p < 4 ∧ (s.pool p).busy = false ∧ s.inPool b = true) ∧
    (∃ (s : State) (p : Nat) (b : Nat) (c : Instr), p < 4 ∧ (s.pool p).busy = true ∧ c ∈ [.poolCreate p, .poolImport p, .poolExport p, .poolFailMember p b, .poolClearLabel p b]) :=
   ⟨⟨own sU1, 1, [3, 4, 23], by decide +kernel⟩,
    ⟨lab 4 sU1, 1, [3, 4, 23], 4, by decide +kernel⟩,
    ⟨sU1, 1, by decide +kernel⟩,
    ⟨page pgJrnl (fun p => { p with state := .starting }) sU1, 1, by decide +kernel⟩,
    ⟨sOpt.onPlce fun y => { y with map := (y.map.set (mapKey 0 3) 2).set (mapKey 6 3) 2 }, 1, by decide +kernel⟩,
    ⟨(sOpt.setTab pgCmdq 2 6 1).setTab pgPlce 1 6 1, 1, by decide +kernel⟩,
    ⟨sOpt, 1, 4, 1, by decide +kernel⟩,
    ⟨sOpt, 1, 5, by decide +kernel⟩,
    ⟨own (lab 4 sU1), 1, 4, by decide +kernel⟩,
    ⟨lab 4 sU1, 1, 4, by decide +kernel⟩,
    ⟨sOpt, 1, 4, by decide +kernel⟩,
    ⟨sU1.setPool 1 { opt with busy := true }, 1, 3, .poolExport 1, by decide +kernel⟩⟩

/-- The hypotheses of `Obligations.ImportRebuildTurner` can be met. -/
theorem witness_ImportRebuildTurner :
    (∃ (s : State) (p : Nat), p < 4 ∧ (s.pool p).busy = true ∧ (s.pool p).state = 0 ∧ (s.fab.page pgJrnl).state ≠ .starting) ∧
    (∃ (s : State) (p : Nat), p < 4 ∧ (s.pool p).busy = true ∧ s.mirroring = false ∧ s.syncing = false ∧ (s.pool p).state = 1 ∧ (s.pool p).phase = 1 ∧ s.labelsOf p = []) ∧
    (∃ (s : State) (p : Nat) (x : ImportIn), p < 4 ∧ (s.pool p).busy = true ∧ s.mirroring = false ∧ s.syncing = false ∧ (s.pool p).state = 1 ∧ (s.pool p).phase = 2 ∧ x.osl = none) ∧
    (∃ (s : State) (p : Nat), p < 4 ∧ (s.pool p).busy = true ∧ s.mirroring = false ∧ s.syncing = false ∧ (s.pool p).state = 1 ∧ (s.pool p).phase = 5 ∧ (s.pool p).w = (s.pool p).members.length ∧ ((∀ i, i < (s.pool p).members.length → ((s.pool p).member i).state = 1))) ∧
    (∃ (s : State) (p : Nat) (i : Nat) (g : Nat), p < 4 ∧ s.saving = false ∧ (s.pool p).usable = true ∧ s.isOn (pgPool p) = true ∧ (s.pool p).rbState = 1 ∧ (s.pool p).rbWrote = false ∧ (s.strp.rebuilt.any fun e => decide (e.pool = p)) = false ∧ (s.pool p).nextMapCopy = none ∧ g = (s.pool p).cursor / 64 + 1 ∧ (s.pool p).need.list = [(i, [g])] ∧ (s.pool p).cursor % 64 ≠ 0 ∧ (s.seg p g).state = 2 ∧ (s.pool p).joined = [i] ∧ (s.rebuildRead p).1 = none) ∧
    (∃ (s : State) (p : Nat) (i : Nat) (g : Nat) (got : List Nat), p < 4 ∧ s.saving = false ∧ (s.pool p).usable = true ∧ s.isOn (pgPool p) = true ∧ (s.pool p).rbState = 1 ∧ (s.pool p).rbWrote = false ∧ (s.strp.rebuilt.any fun e => decide (e.pool = p)) = false ∧ (s.pool p).nextMapCopy = none ∧ g = (s.pool p).cursor / 64 + 1 ∧ (s.pool p).need.list = [(i, [g])] ∧ (s.pool p).cursor % 64 ≠ 0 ∧ (s.seg p g).state = 2 ∧ (s.pool p).joined = [i] ∧ (s.rebuildRead p).1 = some (got.map some) ∧ (s.pool p).tooMany ((List.range (s.pool p).w).filter fun r => !(s.pool p).intact (s.pool p).cursor ((s.pool p).posOf (s.pool p).cursor r)) = false) ∧
    (∃ (s : State) (p : Nat) (i : Nat) (g : Nat), p < 4 ∧ s.saving = false ∧ (s.pool p).usable = true ∧ s.isOn (pgPool p) = true ∧ (s.pool p).rbState = 1 ∧ (s.pool p).rbWrote = false ∧ (s.strp.rebuilt.any fun e => decide (e.pool = p)) = false ∧ (s.pool p).nextMapCopy = none ∧ g = (s.pool p).cursor / 64 + 1 ∧ (s.pool p).need.list = [(i, [g])] ∧ (s.pool p).cursor % 64 ≠ 0 ∧ (s.seg p g).state = 1 ∧ bitAt (s.seg p g).written ((s.pool p).cursor % 64) = false ∧ (s.pool p).cursor % 64 ≠ 63) ∧
    (∃ (s : State) (p : Nat), p < 4 ∧ s.saving = false ∧ (s.pool p).usable = false ∧ (s.pool p).rbState = 1) ∧
    (∃ (s : State) (p : Nat), p < 4 ∧ (s.pool p).rbState ≠ 0 ∧ s.owned = true) ∧
    (∃ (s : State) (p : Nat) (i : Nat) (e : LossEnt), p < 4 ∧ (s.pool p).loss[i]? = some e ∧ e.done = false ∧ 4096 * (s.lossRows p e).length ≤ s.tmgr.bgGrant.get (bgLeaf p 2) 0) ∧
    (∃ (s : State) (p : Nat) (rows : List Nat), p < 4 ∧ s.saving = false ∧ (s.pool p).state = 2 ∧ s.flag (pgPool p) F.POOL_CFG_TURNER_EN = true ∧ s.isOn (pgPool p) = true ∧ s.stripeIs p (s.pool p).turnerCursor = true ∧ (s.pool p).turnerRow < 15 ∧ (s.turnerRead p (s.pool p).turnerCursor (s.pool p).turnerRow).1 = some (rows.map some) ∧ rows.length = (s.pool p).w ∧ locateRow (s.pool p).prot (s.pool p).d rows = .consistent) ∧
    (∃ (s : State) (p : Nat) (r : Nat) (rows : List Nat), p < 4 ∧ s.saving = false ∧ (s.pool p).state = 2 ∧ s.flag (pgPool p) F.POOL_CFG_TURNER_EN = true ∧ s.isOn (pgPool p) = true ∧ s.stripeIs p (s.pool p).turnerCursor = true ∧ (s.pool p).turnerRow < 15 ∧ (s.turnerRead p (s.pool p).turnerCursor (s.pool p).turnerRow).1 = some (rows.map some) ∧ rows.length = (s.pool p).w ∧ locateRow (s.pool p).prot (s.pool p).d rows = .at r ∧ ((s.pool p).member ((s.pool p).posOf (s.pool p).turnerCursor r)).state = 1) :=
   ⟨⟨sU1.onPool 1 fun v => { v with busy := true }, 1, by decide +kernel⟩,
    ⟨sU1.onPool 1 fun v => { v with busy := true, state := 1, phase := 1 }, 1, by decide +kernel⟩,
    ⟨sU1.onPool 1 fun v => { v with busy := true, state := 1, phase := 2 }, 1, {}, by decide +kernel⟩,
    ⟨sU1.setPool 1 { opt with busy := true, state := 1, phase := 5 }, 1, by decide +kernel⟩,
    ⟨(sOpt.setPool 1 rbp2).setSeg 1 2 { state := 2 }, 1, 1, 2, by decide +kernel⟩,
    ⟨got 2 1 2 65 [(3, 7), (4, 9)] ((sOpt.setPool 1 rbp2).setSeg 1 2 { state := 2 }), 1, 1, 2, [7, 9], by decide +kernel⟩,
    ⟨(sOpt.setPool 1 rbp2).setSeg 1 2 { state := 1 }, 1, 1, 2, by decide +kernel⟩,
    ⟨sOpt.setPool 1 { rbp2 with state := 5 }, 1, by decide +kernel⟩,
    ⟨own (sOpt.setPool 1 rbp2), 1, by decide +kernel⟩,
    ⟨((sOpt.onPool 1 fun v => { v with loss := [⟨0, 1, 3, 2, 1, false⟩] }).setTab pgPlce 1 6 1).onPlce fun y => { y with map := y.map.set (mapKey 6 3) (entPhys 1 0 2 false false) }, 1, 0, ⟨0, 1, 3, 2, 1, false⟩, by decide +kernel⟩,
    ⟨got 1 1 1 0 [(3, 5), (4, 5)] (((sOpt.onPool 1 fun v => { v with prot := 2, d := 1, w := 2 }).setF (pgPool 1) F.POOL_CFG_TURNER_EN 1).setSeg 1 1 { state := 2 }), 1, [5, 5], by decide +kernel⟩,
    ⟨got 1 1 1 14 [(3, 5), (4, 5), (23, 6)] (((sOpt.onPool 1 fun v => { v with prot := 3, d := 1, w := 3, turnerRow := 14 }).setF (pgPool 1) F.POOL_CFG_TURNER_EN 1).setSeg 1 1 { state := 2 }), 1, 2, [5, 5, 6], by decide +kernel⟩⟩

end Strp

namespace Drv
def sB : State := (on (pgDrvp 23) State.reset).setF (pgDrvp 23) F.BAY_STAT_READY 1
def sq : State := sB.setF (pgDrvp 23) F.BAY_LIMIT_IOQ 2
def dr (w : Bool) : DrvReq := { use := .strip 0 1 4 2, isWrite := w, cls := 1, offset := 4096, bytes := 512 }
def wait (r : DrvReq) (s : State) : State := s.onBay 23 fun v => { v with waiting := [r] }
def outs (n : Nat) (r : DrvReq) (s : State) : State := s.onBay 23 fun v => { v with out := v.out.set n r }
def rd0 : DrvReq := { use := .mapRead 0, isWrite := false, cls := 1, offset := 4096, bytes := 512 }
def wr0 : DrvReq := { use := .mapCopy 0 1 3, isWrite := true, cls := 1, offset := 4096, bytes := 512 }
def rl (n : Nat) (s : State) : State := s.onBay 23 fun v => { v with resetLevel := n, perst := false }
def lu (s : State) : State := s.setF (pgDrvp 23) F.BAY_STAT_LINK_UP 1

/-- The hypotheses of `Obligations.DriveRequests` can be met. -/
theorem witness_DriveRequests :
    (∃ (s : State) (b : Nat) (n : Nat) (r : DrvReq), b < 24 ∧ s.bayReady b = true ∧ (s.bay b).waiting = [r] ∧ s.saving = false ∧ s.psHolds b = false ∧ s.mayTag b r = true ∧ s.dataHere b r = true ∧ r.cls < 4 ∧ s.freeTag b (decide (r.cls = 3)) = some n ∧ (r.isWrite = false ∨ s.owned = true)) ∧
    (∃ (s : State) (b : Nat) (n : Nat) (r : DrvReq) (p : Nat) (g : Nat) (k : Nat) (q : Nat), b < 24 ∧ s.bayReady b = true ∧ (s.bay b).waiting = [r] ∧ s.saving = false ∧ s.psHolds b = false ∧ s.mayTag b r = true ∧ s.dataHere b r = true ∧ r.cls < 4 ∧ s.freeTag b (decide (r.cls = 3)) = some n ∧ r.isWrite = true ∧ s.owned = false ∧ r.use = .strip p g k q) ∧
    (∃ (s : State) (b : Nat) (n : Nat) (p : Nat) (g : Nat) (k : Nat) (q : Nat) (r : DrvReq), b < 24 ∧ s.saving = false ∧ (s.bay b).out.find n = some r ∧ r.use = .strip p g k q ∧ r.isWrite = true) ∧
    (∃ (s : State) (b : Nat) (n : Nat) (sc : Nat) (p : Nat) (g : Nat) (k : Nat) (q : Nat) (r : DrvReq), b < 24 ∧ s.saving = false ∧ (s.bay b).out.find n = some r ∧ r.use = .strip p g k q ∧ sc ≠ 0 ∧ r.retries < s.get (pgDrvp b) F.DRV_TO_RETRY_MAX) ∧
    (∃ (s : State) (b : Nat) (n : Nat) (sc : Nat) (p : Nat) (g : Nat) (k : Nat) (q : Nat) (r : DrvReq), b < 24 ∧ s.saving = false ∧ (s.bay b).out.find n = some r ∧ r.use = .strip p g k q ∧ sc ≠ 0 ∧ s.get (pgDrvp b) F.DRV_TO_RETRY_MAX ≤ r.retries) ∧
    (∃ (s : State) (b : Nat) (n : Nat), b < 24 ∧ (s.bay b).out.find n = none ∧ n ∈ (s.bay b).quar) ∧
    (∃ (s : State) (b : Nat) (n : Nat) (o : Nat) (r : DrvReq), b < 24 ∧ n < 4096 ∧ o < 65536 ∧ (s.bay b).out.find n = some r ∧ r.isWrite = false ∧ cellsFor r.bytes ≤ s.cellsOf (s.readKind b n r)) ∧
    (∃ (b : Nat) (a : Nat), b < 24 ∧ windowOf a = none ∧ inQueueArea a = false) ∧
    (∃ (b : Nat) (a : Nat), b < 24 ∧ windowOf a = none ∧ inQueueArea a = false) ∧
    (∃ (s : State) (b : Nat) (n : Nat) (o : Nat) (i : Nat) (g : Nat) (k : Nat) (r : DrvReq), b < 24 ∧ n < 4096 ∧ o < 65536 ∧ (s.bay b).out.find n = some r ∧ r.isWrite = true ∧ r.use = .mapCopy k i g) ∧
    (∃ (s : State) (b : Nat) (n : Nat) (p : Nat) (g : Nat) (k : Nat) (q : Nat) (r : DrvReq), b < 24 ∧ (s.bay b).out.find n = some r ∧ r.use = .strip p g k q ∧ r.retries < s.get (pgDrvp b) F.DRV_TO_RETRY_MAX ∧ (s.bay b).toRow + 1 < s.get (pgDrvp b) F.DRV_TO_RESET_AFTER) ∧
    (∃ (b : Nat), b < 24) ∧
    (∃ (s : State) (b : Nat) (n : Nat), b < 24 ∧ n ∉ (s.bay b).rootQuar) :=
   ⟨⟨wait (dr true) (sq.setF pgPair F.PAIR_STAT_OWN 1), 23, 64, dr true, by decide +kernel⟩,
    ⟨wait (dr true) sq, 23, 64, dr true, 0, 1, 4, 2, by decide +kernel⟩,
    ⟨outs 64 (dr true) sq, 23, 64, 0, 1, 4, 2, dr true, by decide +kernel⟩,
    ⟨outs 64 (dr true) sq, 23, 64, 1, 0, 1, 4, 2, dr true, by decide +kernel⟩,
    ⟨outs 64 { dr true with retries := 3 } sq, 23, 64, 1, 0, 1, 4, 2, { dr true with retries := 3 }, by decide +kernel⟩,
    ⟨sq.onBay 23 fun v => { v with quar := [64] }, 23, 64, by decide +kernel⟩,
    ⟨(outs 4095 rd0 sq).onCell fun c => { c with units := c.units.set 9 ⟨165, [1, 2], .mapRead 0, false, none⟩ }, 23, 4095, 511, rd0, by decide +kernel⟩,
    ⟨23, 0x300000000000, by decide +kernel⟩,
    ⟨23, 0x300000000000, by decide +kernel⟩,
    ⟨outs 0 wr0 sq, 23, 0, 0, 1, 3, 0, wr0, by decide +kernel⟩,
    ⟨(outs 64 (dr true) sq).setF (pgDrvp 23) F.DRV_TO_RESET_AFTER 2, 23, 64, 0, 1, 4, 2, dr true, by decide +kernel⟩,
    ⟨23, by decide +kernel⟩,
    ⟨sq, 23, 64, by decide +kernel⟩⟩

/-- The hypotheses of `Obligations.DriveLife` can be met. -/
theorem witness_DriveLife :
    (∃ (s : State) (b : Nat), b < 24 ∧ s.flag (pgDrvp b) F.BAY_STAT_PRESENT = false ∧ s.flag (pgDrvp b) F.DRV_CFG_AUTO_EN = false) ∧
    (∃ (s : State) (b : Nat), b < 24 ∧ s.flag (pgDrvp b) F.BAY_STAT_PRESENT = true ∧ (s.bay b).waiting = [] ∧ (s.bay b).held = [] ∧ (s.bay b).out = {} ∧ s.mirroring = false ∧ s.syncing = false) ∧
    (∃ (s : State) (b : Nat), b < 24 ∧ (s.bay b).perst = true ∧ s.flag (pgBayp b) F.BAY_PWR_STAT_PG = true ∧ (s.fab.page (pgDrvp b)).state = .starting) ∧
    (∃ (s : State) (b : Nat), b < 24 ∧ (s.bay b).perst = false ∧ (s.bay b).resetLevel = 2 ∧ (s.fab.page (pgDrvp b)).state ≠ .starting) ∧
    (∃ (s : State) (b : Nat), b < 24 ∧ (s.bay b).perst = false ∧ (s.bay b).resetLevel = 2 ∧ (s.fab.page (pgDrvp b)).state ≠ .starting) ∧
    (∃ (s : State) (b : Nat) (i : DriveInfo), b < 24 ∧ s.flag (pgDrvp b) F.BAY_STAT_LINK_UP = true ∧ s.get (pgDrvp b) F.BAY_STAT_NVME = 1 ∧ i.unfit ≠ 0) ∧
    (∃ (s : State) (b : Nat) (i : DriveInfo), b < 24 ∧ s.flag (pgDrvp b) F.BAY_STAT_LINK_UP = true ∧ s.get (pgDrvp b) F.BAY_STAT_NVME = 1 ∧ i.unfit = 0 ∧ ((∀ p : Nat, p < 4 → bitAt (s.get (pgPool p) F.POOL_SPARES_SPARE_MASK) b = false))) ∧
    (∃ (s : State) (b : Nat), b < 24 ∧ s.flag (pgDrvp b) F.BAY_STAT_LINK_UP = true ∧ (s.bay b).out = {} ∧ s.flag (pgDrvp b) F.BAY_STAT_READY = true) ∧
    (∃ (s : State) (b : Nat), b < 24 ∧ s.flag (pgDrvp b) F.BAY_STAT_LINK_UP = true ∧ (s.bay b).out = {} ∧ s.flag (pgDrvp b) F.BAY_STAT_READY = false) ∧
    (∃ (s : State) (b : Nat), b < 24 ∧ (s.bay b).out = {} ∧ s.isOn (pgDrvp b) = true ∧ (s.bay b).resetLevel = 0) ∧
    (∃ (s : State) (b : Nat), b < 24 ∧ (s.bay b).out = {} ∧ s.isOn (pgDrvp b) = true ∧ (s.bay b).resetLevel < 2) ∧
    (∃ (s : State) (b : Nat), b < 24 ∧ (s.bay b).out = {} ∧ (s.bay b).resetLevel = 1) ∧
    (∃ (s : State) (b : Nat), b < 24 ∧ (s.bay b).out = {} ∧ (s.bay b).resetLevel = 2 ∧ s.isOn (pgDrvp b) = true ∧ (s.bay b).waiting = [] ∧ (s.bay b).held = [] ∧ s.fab.severity (S.DRVP_DRIVE_RETIRED.on b) ≠ 2) ∧
    (∃ (s : State) (b : Nat) (i : DriveInfo), b < 24 ∧ (s.bay b).resetLevel ≠ 0 ∧ s.flag (pgDrvp b) F.BAY_STAT_LINK_UP = true ∧ s.get (pgDrvp b) F.BAY_STAT_NVME ≠ 4 ∧ s.get (pgDrvp b) F.DRV_PS_MODE ≠ 2 ∧ (s.bay b).held = [] ∧ i.unfit = 0 ∧ ((∀ p : Nat, p < 4 → bitAt (s.get (pgPool p) F.POOL_SPARES_SPARE_MASK) b = false))) :=
   ⟨⟨State.reset.setF (pgDrvp 0) F.DRV_CFG_AUTO_EN 0, 0, by decide +kernel⟩,
    ⟨(sB.setF (pgDrvp 23) F.BAY_STAT_PRESENT 1).setPool 2 { state := 2, prot := 2, d := 1, w := 2, members := [⟨23, 1, 0, 0, 5⟩, ⟨22, 1, 0, 0, 5⟩] }, 23, by decide +kernel⟩,
    ⟨(page (pgDrvp 23) (fun p => { p with state := .starting }) State.reset).setF (pgBayp 23) F.BAY_PWR_STAT_PG 1, 23, by decide +kernel⟩,
    ⟨rl 2 sB, 23, by decide +kernel⟩,
    ⟨rl 2 sB, 23, by decide +kernel⟩,
    ⟨(lu sB).setF (pgDrvp 23) F.BAY_STAT_NVME 1, 23, { unfit := 3 }, by decide +kernel⟩,
    ⟨(lu sB).setF (pgDrvp 23) F.BAY_STAT_NVME 1, 23, { queues := 99, capacity := 7 }, by decide +kernel⟩,
    ⟨lu sB, 23, by decide +kernel⟩,
    ⟨(lu sB).setF (pgDrvp 23) F.BAY_STAT_READY 0, 23, by decide +kernel⟩,
    ⟨sB, 23, by decide +kernel⟩,
    ⟨rl 1 (lu sB), 23, by decide +kernel⟩,
    ⟨rl 1 (lu sB), 23, by decide +kernel⟩,
    ⟨rl 2 (lu sB), 23, by decide +kernel⟩,
    ⟨rl 1 (lu sB), 23, { queues := 3 }, by decide +kernel⟩⟩

/-- The hypotheses of `Obligations.DrivePowerStates` can be met. -/
theorem witness_DrivePowerStates :
    (∃ (s : State) (b : Nat), b < 24 ∧ s.get (pgDrvp b) F.DRV_PS_MODE = 1 ∧ s.bayReady b = true ∧ (s.bay b).out = {} ∧ (s.bay b).waiting = [] ∧ (s.bay b).psPending = 0 ∧ s.get (pgDrvp b) F.BAY_STAT_PS ≠ s.get (pgDrvp b) F.DRV_PS_PS_TARGET) ∧
    (∃ (s : State) (b : Nat), b < 24 ∧ (s.bay b).waiting = [] ∧ (s.bay b).psPending = 1) ∧
    (∃ (s : State) (b : Nat), b < 24 ∧ (s.bay b).waiting = [] ∧ (s.bay b).psPending = 2) ∧
    (∃ (b : Nat), b < 24) ∧
    (∃ (s : State) (b : Nat) (n : Nat), b < 24 ∧ (s.bay b).out.find n = none) ∧
    (∃ (s : State) (b : Nat), b < 24 ∧ s.isOn (pgDrvp b) = true ∧ (s.bay b).resetLevel < 2 ∧ (s.bay b).out = {} ∧ s.fab.severity (S.DRVP_AER_FATAL.on b) ≠ 2) :=
   ⟨⟨(sB.setF (pgDrvp 23) F.DRV_PS_MODE 1).setF (pgDrvp 23) F.DRV_PS_PS_TARGET 4, 23, by decide +kernel⟩,
    ⟨((sB.setF (pgDrvp 23) F.DRV_PS_MODE 1).setF (pgDrvp 23) F.DRV_PS_PS_TARGET 4).onBay 23 fun v => { v with psPending := 1 }, 23, by decide +kernel⟩,
    ⟨(sB.setF (pgDrvp 23) F.BAY_STAT_PS 4).onBay 23 fun v => { v with psPending := 2 }, 23, by decide +kernel⟩,
    ⟨23, by decide +kernel⟩,
    ⟨sB, 23, 2, by decide +kernel⟩,
    ⟨sB, 23, by decide +kernel⟩⟩

end Drv

namespace Bayp
def own (s : State) : State := s.setF pgPair F.PAIR_STAT_OWN 1
def sCh (n : Nat) (s : State) : State := (own s).setCh 23 n
def good : PwrSample := ⟨12000, 11000, 3300, 3300, 0⟩
def lim4 : State := (sCh 4 State.reset).onPwr 23 fun v => { v with ilim := 5, plim := 5, faultMs := 3, retries := 3 }
def pgd (s : State) : State := s.setF (pgBayp 23) F.BAY_PWR_STAT_PG 1

/-- The hypotheses of `Obligations.BayStart` can be met. -/
theorem witness_BayStart :
    (∃ (s : State), s.owned = true) ∧
    (∃ (s : State), s.owned = true) ∧
    (∃ (s : State) (b : Nat) (x : PwrSample), s.runsBay b = true ∧ s.ch b = 3 ∧ 90 * x.vin3 ≤ 100 * x.vout3) ∧
    (∃ (s : State) (b : Nat) (x : PwrSample), s.runsBay b = true ∧ s.ch b = 3 ∧ 100 * x.vout3 < 90 * x.vin3) ∧
    (∃ (s : State) (b : Nat), s.runsBay b = true ∧ s.ch b = 3 ∧ s.flag (pgBayp b) F.BAY_PWR_STAT_PG = false ∧ s.get (pgBayp b) F.BAY_PWR_STAT_RETRY_CNT < (s.pwr b).retries) ∧
    (∃ (s : State) (b : Nat), s.runsBay b = true ∧ s.ch b = 3 ∧ s.flag (pgBayp b) F.BAY_PWR_STAT_PG = false ∧ (s.pwr b).retries ≤ s.get (pgBayp b) F.BAY_PWR_STAT_RETRY_CNT) ∧
    (∃ (s : State) (b : Nat) (x : PwrSample), s.runsBay b = true ∧ s.ch b = 4 ∧ (s.pwr b).reEnable = false ∧ s.limiting b x = false ∧ 90 * x.vin12 ≤ 100 * x.vout12 ∧ 90 * x.vin3 ≤ 100 * x.vout3) ∧
    (∃ (s : State) (b : Nat) (x : PwrSample), s.runsBay b = true ∧ s.ch b = 4 ∧ (s.pwr b).reEnable = false ∧ s.limiting b x = true) ∧
    (∃ (s : State) (b : Nat), s.runsBay b = true ∧ s.ch b = 5) :=
   ⟨⟨{ (sCh 2 State.reset).setCh 0 2 with now := 50000 }, by decide +kernel⟩,
    ⟨{ (sCh 2 State.reset).setCh 0 2 with now := 50000 }, by decide +kernel⟩,
    ⟨sCh 3 State.reset, 23, ⟨12000, 0, 1000, 900, 0⟩, by decide +kernel⟩,
    ⟨sCh 3 State.reset, 23, ⟨12000, 0, 1000, 899, 0⟩, by decide +kernel⟩,
    ⟨(sCh 3 State.reset).onPwr 23 fun v => { v with gate3 := true, retries := 3 }, 23, by decide +kernel⟩,
    ⟨(sCh 3 State.reset).setF (pgBayp 23) F.BAY_PWR_STAT_RETRY_CNT 7, 23, by decide +kernel⟩,
    ⟨lim4, 23, good, by decide +kernel⟩,
    ⟨lim4, 23, ⟨12000, 11000, 3300, 3300, 60000⟩, by decide +kernel⟩,
    ⟨(sCh 5 State.reset).setF (pgBayp 23) F.BAY_PWR_STAT_RETRY_CNT 2, 23, by decide +kernel⟩⟩

/-- The hypotheses of `Obligations.BayFaults` can be met. -/
theorem witness_BayFaults :
    (∃ (s : State) (b : Nat) (n : Nat), s.powered b = true ∧ s.ch b = 4 ∧ s.flag (pgBayp b) F.BAY_PWR_STAT_PG = false ∧ s.get (pgBayp b) F.BAY_PWR_STAT_RETRY_CNT < (s.pwr b).retries ∧ 100 * s.bayFaultMs b ≤ n) ∧
    (∃ (s : State) (b : Nat) (n : Nat), s.powered b = true ∧ s.ch b = 4 ∧ s.flag (pgBayp b) F.BAY_PWR_STAT_PG = false ∧ s.get (pgBayp b) F.BAY_PWR_STAT_RETRY_CNT < (s.pwr b).retries ∧ n < 100 * s.bayFaultMs b) ∧
    (∃ (s : State) (b : Nat), s.powered b = true ∧ s.ch b = 4 ∧ s.flag (pgBayp b) F.BAY_PWR_STAT_PG = false ∧ s.get (pgBayp b) F.BAY_PWR_STAT_RETRY_CNT < (s.pwr b).retries) ∧
    (∃ (s : State) (b : Nat) (x : PwrSample), s.runsBay b = true ∧ s.ch b = 5 ∧ s.flag (pgBayp b) F.BAY_PWR_STAT_PG = true ∧ s.get (pgBayp b) F.BAY_PWR_STAT_RETRY_CNT < s.get (pgBayp b) F.BAY_PWR_CFG_RETRIES ∧ 100 * x.vout12 < 80 * x.vin12 ∧ s.limiting b x = false) ∧
    (∃ (s : State) (b : Nat) (x : PwrSample), s.runsBay b = true ∧ s.ch b = 5 ∧ s.flag (pgBayp b) F.BAY_PWR_STAT_PG = true ∧ s.get (pgBayp b) F.BAY_PWR_STAT_RETRY_CNT < s.get (pgBayp b) F.BAY_PWR_CFG_RETRIES ∧ 100 * x.vout3 < 80 * x.vin3) ∧
    (∃ (s : State) (b : Nat), s.runsBay b = true ∧ s.ch b = 6) ∧
    (∃ (s : State) (b : Nat), s.runsBay b = true ∧ (s.pwr b).gate3Delay = true) ∧
    (∃ (s : State) (b : Nat), s.runsBay b = true ∧ (s.pwr b).gate12 = false ∧ (s.pwr b).gate3 = false) ∧
    (∃ (s : State) (b : Nat), s.runsBay b = true ∧ s.ch b = 1 ∧ s.isOn (pgBayp b) = true ∧ s.flag (pgBayp b) F.BAY_PWR_STAT_DMG = false ∧ (s.pwr b).armed = true) ∧
    (∃ (s : State) (b : Nat) (x : PwrSample), s.runsBay b = true ∧ (s.pwr b).armed = true ∧ 1000 < x.vout12 ∧ s.flag (pgBayp b) F.BAY_PWR_STAT_DMG = false) ∧
    (∃ (s : State) (b : Nat) (x : PwrSample), b < 24 ∧ s.owned = false ∧ (s.pwr b).sourcing = false ∧ (s.pwr b).reEnable = false ∧ 90 * x.vin12 ≤ 100 * x.vout12 ∧ 90 * x.vin3 ≤ 100 * x.vout3 ∧ x.vin12 ≠ 0) ∧
    (∃ (s : State) (b : Nat) (x : PwrSample), b < 24 ∧ s.owned = false ∧ (s.pwr b).sourcing = true ∧ 100 * x.vout12 < 90 * x.vin12) :=
   ⟨⟨lim4, 23, 300, by decide +kernel⟩,
    ⟨lim4, 23, 299, by decide +kernel⟩,
    ⟨lim4, 23, by decide +kernel⟩,
    ⟨on (pgDrvp 23) (pgd (sCh 5 State.reset)), 23, ⟨12000, 9599, 3300, 3300, 0⟩, by decide +kernel⟩,
    ⟨on (pgDrvp 23) (pgd (sCh 5 State.reset)), 23, ⟨12000, 9599, 1000, 799, 0⟩, by decide +kernel⟩,
    ⟨(sCh 6 State.reset).setF (pgBayp 23) F.BAY_PWR_STAT_RETRY_CNT 2, 23, by decide +kernel⟩,
    ⟨(sCh 6 State.reset).onPwr 23 fun v => { v with gate3 := true, gate3Delay := true }, 23, by decide +kernel⟩,
    ⟨sCh 6 State.reset, 23, by decide +kernel⟩,
    ⟨on (pgBayp 23) ((sCh 1 State.reset).onPwr 23 fun v => { v with armed := true }), 23, by decide +kernel⟩,
    ⟨(sCh 2 State.reset).onPwr 23 fun v => { v with armed := true }, 23, ⟨12000, 1001, 1, 1, 0⟩, by decide +kernel⟩,
    ⟨State.reset.setCh 23 1, 23, good, by decide +kernel⟩,
    ⟨on (pgDrvp 23) (pgd ((State.reset.setCh 23 5).onPwr 23 fun v => { v with sourcing := true })), 23, ⟨12000, 9599, 3300, 3300, 0⟩, by decide +kernel⟩⟩

end Bayp

namespace Pair
def pf (x : Fld) (n : Nat) (s : State) : State := s.setF pgPair x n
def role (n : Nat) (s : State) : State := pf F.PAIR_STAT_ROLE n s
def prd (n : Nat) : State := role n (pf F.PAIR_CFG_MODE 1 (on pgPair State.reset))
def isl (g : IslandSt → IslandSt) (s : State) : State := s.onIsland g
def up (n : Nat) (s : State) : State := pf F.PAIR_STAT_LINK_UP 1 (s.onPair fun p => { p with lanesUp := List.range n })
def act (n : Nat) : State := pf F.PAIR_STAT_PARTNER n (up 24 (prd 6))
def fit (r : Nat) : Nat := 1 + r * 256
def sWin : State := role 4 State.reset
def ahdr : PeerHdr := { group := 1, lseq := 7, winEpoch := 0, window := 1, addr := 0x10000, len := 4 }
def w1 : PeerWin := { valid := true, kind := 2, rbase := 0, lbase := 0, size := 131072 }
def fr (i : MirrorItem) : SentFrame := { group := 1, lseq := 7, key := 3, prio := 2, item := i }
def jr : JRec := { type := 1, volume := 0, len := 4, offset := 0, tenant := 0, slot := some 5, chunk := 1, place := 512, localOk := true, data := aBlob }
def js : Slot := { tenant := 0, conn := 3, incarnation := 0, qid := 1, cid := 4, sqe := 1, state := .started, recsOpen := 2 }
def sConf : State := ((act 2).onJrnl fun j => { j with recs := ⟨[(8, jr)]⟩ }).setSlot 5 js
def mr : MirRec := { head := { seq := 4, type := 1, volume := 0, len := 4, offset := 0, tenant := 0, slot := 5, data := aBlob }, order := 2 }
def sMir : State := (role 4 State.reset).onPair fun p => { p with recs := ⟨[(4096, mr), (4194304, { mr with noticed := true })]⟩ }
def stg (x : TakeStage) (s : State) : State := s.onPair fun p => { p with stage := x }
def own (s : State) : State := s.setF pgPair F.PAIR_STAT_OWN 1
def tpE : Nat := 1 + 2 + 1 * 2 ^ 64 + 0x0100000A * 2 ^ 128

/-- The hypotheses of `Obligations.PairOwnership` can be met. -/
theorem witness_PairOwnership :
    (∃ (s : State), s.isLive pgPair = true ∧ s.paired = true ∧ s.role = 4 ∧ s.flag pgPair F.PAIR_CFG_AUTO_TAKEOVER = true ∧ s.flag pgPair F.PAIR_STAT_UNFIT = false) ∧
    (∃ (s : State), s.role = 4 ∧ (s.flag pgPair F.PAIR_CFG_AUTO_TAKEOVER = false ∨ s.flag pgPair F.PAIR_STAT_UNFIT = true)) ∧
    (∃ (s : State), s.isLive pgPair = true ∧ s.paired = true ∧ s.role = 2 ∧ s.pair.island.ownIn = true ∧ s.mirrorValid = false) ∧
    (∃ (s : State), s.pair.island.ownIn = false ∧ s.pair.island.slot = true ∧ s.owned = true) ∧
    (∃ (s : State), s.pair.island.ownIn = false ∧ s.pair.island.slot = true ∧ s.owned = false ∧ s.role = 5) ∧
    (∃ (s : State), s.pair.island.ownIn = false ∧ s.pair.island.slot = false) ∧
    (∃ (s : State), s.claiming = true ∧ s.pair.backoff = false ∧ s.heldReset = false ∧ s.pair.island.ownIn = false ∧ s.pair.island.ownOut = false) ∧
    (∃ (s : State), s.claiming = true ∧ s.pair.island.ownOut = true ∧ s.pair.island.ownIn = false ∧ s.owned = false) ∧
    (∃ (s : State), s.pair.backoff = true ∧ s.role = 5) ∧
    (∃ (s : State), s.role = 2 ∧ s.pair.island.ownIn = false) ∧
    (∃ (s : State), s.role = 2) ∧
    (∃ (s : State), s.role ≠ 2) ∧
    (∃ (s : State), s.flag pgCmdq F.CMDQ_FW_HOLD = false) ∧
    (∃ (s : State), s.flag pgCmdq F.CMDQ_FW_HOLD = true) :=
   ⟨⟨prd 4, by decide +kernel⟩,
    ⟨pf F.PAIR_STAT_UNFIT 1 (prd 4), by decide +kernel⟩,
    ⟨isl (fun i => { i with ownIn := true, hbIn := true }) (prd 2), by decide +kernel⟩,
    ⟨own (isl (fun i => { i with ownOut := true, slot := true }) ((prd 6).setCh 3 5)), by decide +kernel⟩,
    ⟨isl (fun i => { i with ownOut := true, slot := true }) (prd 5), by decide +kernel⟩,
    ⟨own (prd 6), by decide +kernel⟩,
    ⟨prd 5, by decide +kernel⟩,
    ⟨((isl (fun i => { i with ownOut := true }) (pf F.PAIR_STAT_MIRROR_VALID 1 (prd 5))).onPwr 4 fun v => { v with sourcing := true }), by decide +kernel⟩,
    ⟨(prd 5).onPair fun p => { p with backoff := true }, by decide +kernel⟩,
    ⟨prd 2, by decide +kernel⟩,
    ⟨prd 2, by decide +kernel⟩,
    ⟨prd 4, by decide +kernel⟩,
    ⟨prd 6, by decide +kernel⟩,
    ⟨(prd 6).setF pgCmdq F.CMDQ_FW_HOLD 1, by decide +kernel⟩⟩

/-- The hypotheses of `Obligations.PairFence` can be met. -/
theorem witness_PairFence :
    (∃ (s : State), s.pair.island.running = true ∧ s.pair.island.fenced = false ∧ s.pair.island.fenceIn = false ∧ (s.pair.island.fenceOut = false ∨ s.pair.island.slot = true ∧ s.now - s.pair.island.fenceOutAt ≤ 20000)) ∧
    (∃ (s : State), s.pair.island.running = true ∧ s.pair.island.fenced = false ∧ s.pair.island.fenceIn = false ∧ s.pair.island.fenceOut = true ∧ (s.pair.island.slot = false ∨ 20000 < s.now - s.pair.island.fenceOutAt)) ∧
    (∃ (s : State), s.pair.island.fenced = true ∧ s.pair.island.inPor = false ∧ s.pair.island.thermTrip = false) ∧
    (∃ (s : State), s.pair.island.fenced = false) ∧
    (∃ (s : State), s.pair.island.fenceOut = true) ∧
    (∃ (s : State), s.pair.island.fenceOut = false) :=
   ⟨⟨isl (fun i => { i with ownOut := true, fenceOut := true, slot := true, fenceOutAt := 9 }) ({ (prd 6).setCh 3 5 with now := 20009 }), by decide +kernel⟩,
    ⟨isl (fun i => { i with fenceOut := true, slot := true, fenceOutAt := 9 }) ({ prd 6 with now := 20010 }), by decide +kernel⟩,
    ⟨isl (fun i => { i with fenced := true, inPor := false, fenceIn := true }) (role 7 State.reset), by decide +kernel⟩,
    ⟨isl (fun i => { i with fenceIn := true }) (prd 6), by decide +kernel⟩,
    ⟨isl (fun i => { i with fenceOut := true }) (pf F.PAIR_STAT_FENCE_OUT 1 (prd 6)), by decide +kernel⟩,
    ⟨prd 6, by decide +kernel⟩⟩

/-- The hypotheses of `Obligations.PartnerLost` can be met. -/
theorem witness_PartnerLost :
    (∃ (s : State), s.isLive pgPair = true ∧ s.role = 6 ∧ (s.partner = 1 ∨ s.partner = 2) ∧ s.paired = true) ∧
    (∃ (s : State), s.isLive pgPair = true ∧ s.role = 6 ∧ (s.partner = 1 ∨ s.partner = 2)) ∧
    (∃ (s : State) (x : Nat), s.isLive pgPair = true ∧ s.role = 6 ∧ (s.partner = 1 ∨ s.partner = 2) ∧ s.paired = true ∧ s.pair.handover = false ∧ (bitAt (byteAt x 2) 3 = true ∨ byteAt x 1 ≠ 3 ∧ byteAt x 1 ≠ 4)) :=
   ⟨⟨(act 2).onPair fun p => { p with sent := [fr (.checkpoint 3)] }, by decide +kernel⟩,
    ⟨act 1, by decide +kernel⟩,
    ⟨act 2, fit 2, by decide +kernel⟩⟩

/-- The hypotheses of `Obligations.BritosLink` can be met. -/
theorem witness_BritosLink :
    (∃ (s : State) (ver : Nat), s.paired = true ∧ s.heldReset = false ∧ s.isLive pgPair = true ∧ ver / 16 % 16 = 1 ∧ s.role ≠ 2) ∧
    (∃ (s : State) (ver : Nat) (lanes : List Nat), s.paired = true ∧ s.heldReset = false ∧ s.isLive pgPair = true ∧ ver / 16 % 16 = 1 ∧ s.role = 2 ∧ s.pair.partnerRole = 6 ∧ ((∀ n : Nat, n < 6 → n ∈ lanes ∧ n ∉ s.pair.lanesOut))) ∧
    (∃ (s : State) (ver : Nat), s.paired = true ∧ s.heldReset = false ∧ s.isLive pgPair = true ∧ ver / 16 % 16 ≠ 1) ∧
    (∃ (s : State), (s.role = 3 ∨ s.role = 4)) ∧
    (∃ (s : State) (n : Nat), n ∈ s.pair.lanesUp) ∧
    (∃ (s : State) (n : Nat), n < 24 ∧ n ∉ s.pair.lanesOut ∧ s.paired = true ∧ s.heldReset = false ∧ s.get pgPair F.PAIR_STAT_VER ≠ 0 ∧ s.role ≠ 2) :=
   ⟨⟨prd 6, 0x1F, by decide +kernel⟩,
    ⟨(prd 2).onPair fun p => { p with partnerRole := 6 }, 0x10, List.range 6, by decide +kernel⟩,
    ⟨prd 2, 0x20, by decide +kernel⟩,
    ⟨up 24 (prd 4), by decide +kernel⟩,
    ⟨up 4 (prd 4), 3, by decide +kernel⟩,
    ⟨pf F.PAIR_STAT_VER 0x10 (pf F.PAIR_STAT_LINK_UP 0 (up 3 (prd 4))), 23, by decide +kernel⟩⟩

/-- The hypotheses of `Obligations.MirrorFrames` can be met. -/
theorem witness_MirrorFrames :
    (∃ (s : State) (h : PeerHdr) (ws : List PeerWin) (w : PeerWin), s.mirrorSide = true ∧ s.winsFor h.winEpoch = some ws ∧ ws[h.window]? = some w ∧ w.valid = true ∧ w.kind = 2 ∧ w.rbase * 65536 ≤ h.addr ∧ h.addr + h.len ≤ (w.rbase + w.size) * 65536) ∧
    (∃ (s : State) (h : PeerHdr) (ws : List PeerWin) (w : PeerWin), s.mirrorSide = true ∧ s.winsFor h.winEpoch = some ws ∧ ws[h.window]? = some w ∧ (w.valid = false ∨ w.kind ≠ 2 ∨ h.addr < w.rbase * 65536 ∨ (w.rbase + w.size) * 65536 < h.addr + h.len)) ∧
    (∃ (s : State) (h : PeerHdr), s.mirrorSide = true ∧ s.winsFor h.winEpoch = none) ∧
    (∃ (s : State) (g : Nat) (q : Nat) (f : SentFrame), s.pair.sent = [f] ∧ f.group = g ∧ f.lseq = q ∧ s.pair.waiting = [] ∧ s.pair.handover = false ∧ s.xprt.spent = [] ∧ (∃ i : Nat, f.item = .checkpoint i)) ∧
    (∃ (s : State) (g : Nat) (q : Nat) (k : Nat) (n : Nat) (f : SentFrame) (r : JRec) (x : Slot), s.pair.sent = [f] ∧ f.group = g ∧ f.lseq = q ∧ s.pair.waiting = [] ∧ s.pair.handover = false ∧ s.jrnl.recs.list = [(k, r)] ∧ f.item = .journal r.handle ∧ r.type = 1 ∧ r.state = .opened ∧ r.localOk = true ∧ r.discard = false ∧ r.slot = some n ∧ s.slot n = some x ∧ x.state = .started ∧ x.discard = false ∧ 2 ≤ x.recsOpen ∧ s.groupsUp = [] ∧ s.xprt.spent = []) ∧
    (∃ (s : State), s.mirrorSide = true) ∧
    (∃ (s : State), s.mirrorSide = true) ∧
    (∃ (s : State), s.mirrorSide = true) ∧
    (∃ (s : State) (a : Nat) (m : MirRec), s.mirrorSide = true ∧ s.pair.recs.find a = some m) ∧
    (∃ (s : State), s.mirrorSide = true) ∧
    (∃ (s : State), s.mirrorSide = true) ∧
    (∃ (s : State), s.mirrorSide = true) ∧
    (∃ (s : State) (a : Nat) (m : MirRec), s.mirrorSide = true ∧ s.pair.recs.find a = some m) ∧
    (∃ (s : State), s.mirrorSide = false) ∧
    (∃ (s : State), s.mirrorSide = false) ∧
    (∃ (s : State), s.mirrorSide = false) ∧
    (∃ (s : State), s.mirrorSide = false) :=
   ⟨⟨sWin, ahdr, sWin.fab.winSet false, w1, by decide +kernel⟩,
    ⟨sWin, { ahdr with addr := 131072 * 65536 - 3 }, sWin.fab.winSet false, w1, by decide +kernel⟩,
    ⟨sWin, { ahdr with winEpoch := 3 }, by decide +kernel⟩,
    ⟨(act 2).onPair fun p => { p with sent := [fr (.checkpoint 3)] }, 1, 7, fr (.checkpoint 3), by refine ⟨?_, ?_, ?_, ?_, ?_, ?_, ⟨3, rfl⟩⟩ <;> decide +kernel⟩,
    ⟨(sConf.onPair fun p => { p with lanesUp := [], sent := [fr (.journal jr.handle)] }), 1, 7, 8, 5, fr (.journal jr.handle), jr, js, by decide +kernel⟩,
    ⟨sWin, by decide +kernel⟩,
    ⟨sWin, by decide +kernel⟩,
    ⟨sWin, by decide +kernel⟩,
    ⟨sMir, 4096, mr, by decide +kernel⟩,
    ⟨sMir, by decide +kernel⟩,
    ⟨sMir, by decide +kernel⟩,
    ⟨sMir, by decide +kernel⟩,
    ⟨sMir, 4096, mr, by decide +kernel⟩,
    ⟨prd 6, by decide +kernel⟩,
    ⟨prd 6, by decide +kernel⟩,
    ⟨prd 6, by decide +kernel⟩,
    ⟨prd 6, by decide +kernel⟩⟩

/-- The hypotheses of `Obligations.PartnerHealth` can be met. -/
theorem witness_PartnerHealth :
    (∃ (s : State) (x : Nat), s.isLive pgPair = true ∧ s.paired = true ∧ s.role = 6 ∧ s.pair.island.fenceOut = false ∧ s.partner = 0 ∧ bitAt (byteAt x 2) 3 = false ∧ byteAt x 1 = 3) ∧
    (∃ (s : State) (x : Nat), s.isLive pgPair = true ∧ s.paired = true ∧ s.role = 6 ∧ s.pair.island.fenceOut = false ∧ (s.partner = 1 ∨ s.partner = 2) ∧ bitAt (byteAt x 2) 3 = false ∧ (byteAt x 1 = 3 ∨ byteAt x 1 = 4)) ∧
    (∃ (s : State), s.isLive pgPair = true ∧ s.paired = true ∧ s.role = 4 ∧ s.pair.partnerRole = 6) ∧
    (∃ (s : State), s.pair.island.running = true ∧ s.isLive pgPair = false) ∧
    (∃ (s : State) (g : Nat) (gs : List Nat), s.pair.island.running = true ∧ s.paired = true ∧ s.isLive pgPair = true ∧ s.groupsUp = g :: gs) ∧
    (∃ (s : State), s.role = 4) ∧
    (∃ (s : State), s.role ≠ 4) ∧
    (∃ (s : State), s.mirroring = true) ∧
    (∃ (s : State), s.role = 3) ∧
    (∃ (s : State), s.role = 6 ∧ s.partner = 1 ∧ s.syncSent = true ∧ s.pair.island.fenceOut = false) :=
   ⟨⟨act 0, fit 3, by decide +kernel⟩,
    ⟨act 2, fit 4, by decide +kernel⟩,
    ⟨(pf F.PAIR_STAT_MIRROR_VALID 1 (prd 4)).onPair fun p => { p with partnerRole := 6 }, by decide +kernel⟩,
    ⟨State.reset, by decide +kernel⟩,
    ⟨act 2, 0, [1, 2, 3], by decide +kernel⟩,
    ⟨prd 4, by decide +kernel⟩,
    ⟨prd 6, by decide +kernel⟩,
    ⟨conn 3 { state := .ready } (act 2), by decide +kernel⟩,
    ⟨prd 3, by decide +kernel⟩,
    ⟨act 1, by decide +kernel⟩⟩

/-- The hypotheses of `Obligations.Takeover` can be met. -/
theorem witness_Takeover :
    (∃ (s : State), s.pair.stage = .bays) ∧
    (∃ (s : State), s.pair.stage = .journal ∧ ((∀ p : Nat, p < 4 → (s.pool p).state ≠ 1))) ∧
    (∃ (s : State), s.pair.stage = .pools) ∧
    (∃ (s : State), s.pair.stage = .announce ∧ s.pair.ctxs.list = []) ∧
    (∃ (s : State) (i : Nat) (b : Nat) (m : MirCtx), s.pair.stage = .announce ∧ s.pair.ctxs.list = [(i, m)] ∧ m.bytes = some b ∧ (ctxOfBytes b).state = .ready) ∧
    (∃ (s : State), s.pair.stage = .connections) ∧
    (∃ (s : State), s.role = 6 ∧ s.partner = 2 ∧ s.pair.handover = false ∧ s.pair.sent ≠ []) ∧
    (∃ (s : State), s.role = 6 ∧ s.partner = 2 ∧ s.pair.handover = false ∧ s.pair.sent = [] ∧ s.pair.waiting = [] ∧ s.xprt.ctx.list = [] ∧ s.tmgr.accs.list = [] ∧ s.owned = true) ∧
    (∃ (s : State), (s.role ≠ 6 ∨ s.partner ≠ 2)) ∧
    (∃ (s : State), s.role = 4) ∧
    (∃ (s : State), s.role ≠ 4) :=
   ⟨⟨stg .bays sMir, by decide +kernel⟩,
    ⟨stg .journal (prd 6), by decide +kernel⟩,
    ⟨stg .pools (upPort 0 ((prd 6).setTab (pgGrp 0) 1 4 tpE)), by decide +kernel⟩,
    ⟨(stg .announce (prd 6)).onPair fun p => { p with cmds := ⟨[(3, { conn := 3 })]⟩ }, by decide +kernel⟩,
    ⟨(stg .announce (prd 6)).onPair fun p => { p with ctxs := ⟨[(3, { bytes := some (2 + 5 * 2 ^ 24) })]⟩ }, 3, 2 + 5 * 2 ^ 24, { bytes := some (2 + 5 * 2 ^ 24) }, by decide +kernel⟩,
    ⟨stg .connections (pf F.PAIR_STAT_MIRROR_VALID 1 (prd 6)), by decide +kernel⟩,
    ⟨(conn 3 { state := .ready } (act 2)).onPair fun p => { p with sent := [fr (.checkpoint 4)] }, by decide +kernel⟩,
    ⟨isl (fun i => { i with ownOut := true }) (own ((act 2).setCh 3 5)), by decide +kernel⟩,
    ⟨act 1, by decide +kernel⟩,
    ⟨prd 4, by decide +kernel⟩,
    ⟨prd 3, by decide +kernel⟩⟩

end Pair

namespace Pol
def sP : State := on (pgMgmt 3) (on (pgMgmt 1) State.reset)
def m1 (x : Fld) (n : Nat) (s : State) : State := s.setF (pgMgmt 1) x n
def m3 (x : Fld) (n : Nat) (s : State) : State := s.setF (pgMgmt 3) x n
def lvl (n k : Nat) : State := (m3 F.THERM_STAT_LEVEL n sP).onPol fun p => { p with coolTicks := k }
def sPool : State := (sP.onPool 1 fun p => { p with state := 2, segments := 132 }).setTab pgPlce 2 1 (256 + 288 * 2 ^ 16 + 8 * 2 ^ 32)
def sDr : State := (on (pgDrvp 5) sP).onBay 5 fun v => { v with toTimes := List.replicate 17 0 }
def mem (b : Nat) : Member := { bay := b, state := 1 }
def sPin : State := sDr.onPool 1 fun p => { p with state := 2, prot := 1, d := 1, w := 2, members := [mem 5, { mem 6 with state := 3 }] }
def lf (t mx : Nat) : Nat := t + mx * 2 ^ 32
def fwp (n h : Nat) : State := (((m3 F.FW_STAT_PHASE n sP).setF (pgMgmt 3) F.FW_STAT_BUSY 1).setF pgCmdq F.CMDQ_FW_HOLD h).onPol fun p => { p with actSlot := 1 }

/-- The hypotheses of `Obligations.PolicyLoops` can be met. -/
theorem witness_PolicyLoops :
    (∃ (s : State), s.loopsRun = true) ∧
    (∃ (s : State) (p : Nat), s.loopsRun = true ∧ p < 4 ∧ s.auto 0 = true ∧ (s.pool p).usable = true ∧ s.throttle = 0) ∧
    (∃ (s : State), s.isOn (pgMgmt 1) = true ∧ s.flag pgCmdq F.CMDQ_FW_HOLD = true) ∧
    (∃ (s : State), s.loopsRun = true ∧ s.auto 6 = true) ∧
    (∃ (s : State), (s.loopsRun = false ∨ s.auto 6 = false)) :=
   ⟨⟨m1 F.POL_CFG_AUTO 0x1F (sPool.onPol fun p => { p with mults := p.mults.set 5 20 }), by decide +kernel⟩,
    ⟨sPool, 1, by decide +kernel⟩,
    ⟨sP.setF pgCmdq F.CMDQ_FW_HOLD 1, by decide +kernel⟩,
    ⟨((m1 F.POL_CFG_AUTO 0x7F sP).setTab (pgMgmt 1) 1 5 (lf 100 20)).onTmgr fun m => { m with samples := m.samples.set 5 { egrDelayMax := 101 } }, by decide +kernel⟩,
    ⟨sP, by decide +kernel⟩⟩

/-- The hypotheses of `Obligations.ThermalThrottle` can be met. -/
theorem witness_ThermalThrottle :
    (∃ (s : State) (low : Nat), s.isOn (pgMgmt 3) = true ∧ s.loopsRun = true ∧ s.auto 5 = true ∧ s.throttle < 3 ∧ s.get (pgMgmt 3) F.THERM_CFG_THROTTLE_C + 5 * s.throttle ≤ low) ∧
    (∃ (s : State) (low : Nat) (high : Nat), s.isOn (pgMgmt 3) = true ∧ s.loopsRun = true ∧ s.auto 5 = true ∧ (s.throttle = 3 ∨ low < s.get (pgMgmt 3) F.THERM_CFG_THROTTLE_C + 5 * s.throttle) ∧ 1 ≤ s.throttle ∧ high + s.get (pgMgmt 3) F.THERM_CFG_HYST_C < s.get (pgMgmt 3) F.THERM_CFG_THROTTLE_C + 5 * (s.throttle - 1) ∧ 9 ≤ s.pol.coolTicks) ∧
    (∃ (s : State) (low : Nat) (high : Nat), s.isOn (pgMgmt 3) = true ∧ s.loopsRun = true ∧ s.auto 5 = true ∧ (s.throttle = 3 ∨ low < s.get (pgMgmt 3) F.THERM_CFG_THROTTLE_C + 5 * s.throttle) ∧ 1 ≤ s.throttle ∧ high + s.get (pgMgmt 3) F.THERM_CFG_HYST_C < s.get (pgMgmt 3) F.THERM_CFG_THROTTLE_C + 5 * (s.throttle - 1) ∧ s.pol.coolTicks < 9) ∧
    (∃ (s : State) (low : Nat) (high : Nat), s.isOn (pgMgmt 3) = true ∧ s.loopsRun = true ∧ s.auto 5 = true ∧ (s.throttle = 3 ∨ low < s.get (pgMgmt 3) F.THERM_CFG_THROTTLE_C + 5 * s.throttle) ∧ (s.throttle = 0 ∨ s.get (pgMgmt 3) F.THERM_CFG_THROTTLE_C + 5 * (s.throttle - 1) ≤ high + s.get (pgMgmt 3) F.THERM_CFG_HYST_C)) ∧
    (∃ (s : State), s.isOn (pgMgmt 3) = false) :=
   ⟨⟨lvl 2 4, 100, by decide +kernel⟩,
    ⟨lvl 2 9, 80, 89, by decide +kernel⟩,
    ⟨lvl 2 8, 80, 89, by decide +kernel⟩,
    ⟨lvl 2 9, 80, 90, by decide +kernel⟩,
    ⟨State.reset, by decide +kernel⟩⟩

/-- The hypotheses of `Obligations.Retirement` can be met. -/
theorem witness_Retirement :
    (∃ (s : State) (b : Nat), s.loopsRun = true ∧ s.auto 4 = true ∧ s.pol.deferred = [] ∧ s.pol.pcErrs = {} ∧ s.pair.retrains = {} ∧ s.cmpr.ce = {} ∧ s.cmpr.restarts = {} ∧ s.cell.bankErrs = {} ∧ b < 24 ∧ s.isOn (pgDrvp b) = true ∧ ((∀ c : Nat, c < 24 → c ≠ b → s.isOn (pgDrvp c) = false)) ∧ (s.syncErrs b).errsOver b = true ∧ s.drivePinned b = true) ∧
    (∃ (s : State) (b : Nat), s.loopsRun = true ∧ s.auto 4 = true ∧ s.pol.deferred = [] ∧ s.pol.pcErrs = {} ∧ s.pair.retrains = {} ∧ s.cmpr.ce = {} ∧ s.cmpr.restarts = {} ∧ s.cell.bankErrs = {} ∧ b < 24 ∧ s.isOn (pgDrvp b) = true ∧ ((∀ c : Nat, c < 24 → c ≠ b → s.isOn (pgDrvp c) = false)) ∧ (s.syncErrs b).errsOver b = true ∧ s.drivePinned b = false) ∧
    (∃ (s : State) (n : Nat), s.loopsRun = true ∧ s.auto 4 = true ∧ s.pol.deferred = [] ∧ s.pol.pcErrs = {} ∧ s.cmpr.ce = {} ∧ s.cmpr.restarts = {} ∧ s.cell.bankErrs = {} ∧ ((∀ c : Nat, c < 24 → s.isOn (pgDrvp c) = false)) ∧ n < 24 ∧ n ∉ s.pair.lanesOut ∧ ((∀ m : Nat, m ≠ n → s.pair.retrains.get m [] = [])) ∧ s.get (pgMgmt 1) F.POL_BRITOS_LIMIT < ((s.pair.retrains.get n []).filter fun u => decide (s.now - u ≤ s.get (pgMgmt 1) F.POL_BRITOS_WINDOW_S * 2000000000)).length) ∧
    (∃ (s : State), (s.loopsRun = false ∨ s.auto 4 = false)) ∧
    (∃ (s : State) (n : Nat), n ∈ s.pol.pcMoving ∧ n < 64 ∧ s.plce.pages.size ≤ s.get pgPlce F.PLCE_MAP_STAT_FRAMES) ∧
    (∃ (s : State) (n : Nat), n ∉ s.pol.pcMoving) :=
   ⟨⟨sPin, 5, by decide +kernel⟩,
    ⟨sDr, 5, by decide +kernel⟩,
    ⟨sP.onPair fun p => { p with lanesUp := [3, 4], retrains := p.retrains.set 4 [1, 2, 3, 4, 5] }, 4, by refine ⟨?_, ?_, ?_, ?_, ?_, ?_, ?_, ?_, ?_, ?_, (by intro m h; show SMap.get (SMap.set _ 4 _) m [] = []; rw [SMap.get, SMap.find_set, if_neg h]; rfl), ?_⟩ <;> decide +kernel⟩,
    ⟨(sP.setF pgCmdq F.CMDQ_FW_HOLD 1).onPol fun p => { p with deferred := [⟨1, 4, 5⟩] }, by decide +kernel⟩,
    ⟨sP.onPol fun p => { p with pcMoving := [40, 41] }, 40, by decide +kernel⟩,
    ⟨sP, 40, by decide +kernel⟩⟩

/-- The hypotheses of `Obligations.FirmwareActivation` can be met. -/
theorem witness_FirmwareActivation :
    (∃ (s : State) (v : BitVec 32), bitAt v.toNat 31 = true ∧ s.flag (pgMgmt 3) F.FW_STAT_BUSY = false) ∧
    (∃ (s : State) (v : BitVec 32), bitAt v.toNat 31 = true ∧ s.flag (pgMgmt 3) F.FW_STAT_BUSY = true) ∧
    (∃ (s : State), s.fwPhase = 1 ∧ s.flag pgCmdq F.CMDQ_FW_HOLD = false) ∧
    (∃ (s : State), s.fwPhase = 2 ∧ s.pol.actSlot < 2 ∧ s.cmdq.held = [] ∧ s.cmdq.ctrls = {} ∧ s.fab.ep.mbox = none) ∧
    (∃ (s : State), s.fwPhase = 2 ∧ s.pol.actSlot < 2 ∧ s.cmdq.held = [] ∧ s.cmdq.ctrls = {} ∧ s.fab.ep.mbox = none) ∧
    (∃ (s : State), s.fwPhase ≠ 1) ∧
    (∃ (s : State), s.fwPhase ≠ 2) :=
   ⟨⟨sP, 0x80000001, by decide +kernel⟩,
    ⟨fwp 1 0, 0x80000001, by decide +kernel⟩,
    ⟨fwp 1 0, by decide +kernel⟩,
    ⟨fwp 2 1, by decide +kernel⟩,
    ⟨fwp 2 1, by decide +kernel⟩,
    ⟨fwp 2 1, by decide +kernel⟩,
    ⟨fwp 1 1, by decide +kernel⟩⟩

end Pol

namespace Ep
def eps (g : EpSt → EpSt) (s : State) : State := s.onEp g
def e0 (x : Fld) (n : Nat) (s : State) : State := s.setF (pgMgmt 0) x n
def sE : State := on (pgMgmt 0) (eps (fun p => { p with linkUp := true, bme := true, everUp := true, msix := ⟨[(3, ⟨0x1000, 7, false⟩), (9, ⟨0x2000, 8, true⟩)]⟩ }) State.reset)
def rq (op : Nat) : MboxReq := ⟨1, op, 77, 0x4000, if op = 1 then 64 else if op = 4 then 4 else 65536, 1, 0x50, 2, 4, 65536, 0x0201, true⟩
def run (op : Nat) : MboxRun := { req := rq op }
def sRun (m : MboxRun) (s : State) : State := eps (fun p => { p with mbox := some m }) s
def sBox : State := e0 F.MBOX_RQ_LO_ADDR 0x40 (e0 F.MBOX_DB_TAIL 3 (e0 F.MBOX_STAT_HEAD 1 (e0 F.MBOX_CFG_EN 1 sE)))
def sFet (h : Nat) : State := (eps (fun p => { p with mboxFetch := some 5, dmaOut := [5] }) sBox).setF pgCmdq F.CMDQ_FW_HOLD h
def dn (r : MboxRun) : MboxRun := { r with executed := true, status := 4, bytes := 9 }
def sRing : State := e0 (F.EVR_CFG_TYPE_MASK.idx 1) 0x86 (e0 (F.EVR_CFG_EN.idx 1) 1 sE)
def hd (k : Nat) (s : State) : State := s.onFab (Fab.setRing 1 { seq := 403, held := List.replicate k ⟨1, 2, 3⟩ })

/-- The hypotheses of `Obligations.EndpointStates` can be met. -/
theorem witness_EndpointStates :
    (∃ (s : State), s.fab.ep.linkUp = true) ∧
    (∃ (s : State), s.fab.ep.linkUp = false) ∧
    (∃ (s : State), s.fab.ep.dstate = .d3cold) ∧
    (∃ (s : State), s.fab.ep.dstate ≠ .d3cold) ∧
    (∃ (s : State), s.fab.ep.linkUp = false) ∧
    (∃ (s : State), s.fab.ep.dstate ≠ .d3cold ∧ s.fab.ep.mboxHeldCpl = false) ∧
    (∃ (s : State), s.fab.ep.dstate ≠ .d3cold) ∧
    (∃ (s : State), s.fab.ep.dstate = .d3cold) :=
   ⟨⟨e0 F.EP_STAT_DOWN_COUNT 6 (sRun (run 2) (sFet 0)), by decide +kernel⟩,
    ⟨eps (fun p => { p with pmeEn := true, pba := [3] }) State.reset, by decide +kernel⟩,
    ⟨eps (fun p => { p with dstate := .d3cold, wake := true }) State.reset, by decide +kernel⟩,
    ⟨sBox, by decide +kernel⟩,
    ⟨eps (fun p => { p with linkUp := false, pba := [3, 9] }) (sRing), by decide +kernel⟩,
    ⟨eps (fun p => { p with pba := [3], pmeStatus := true }) sBox, by decide +kernel⟩,
    ⟨eps (fun p => { p with pba := [3, 9], dstate := .d3hot }) sRing, by decide +kernel⟩,
    ⟨eps (fun p => { p with dstate := .d3cold }) State.reset, by decide +kernel⟩⟩

/-- The hypotheses of `Obligations.MsixVectors` can be met. -/
theorem witness_MsixVectors :
    (∃ (s : State) (v : Nat), v < 2048 ∧ s.fab.ep.linkUp = true ∧ s.fab.ep.dstate = .d0 ∧ s.fab.ep.bme = true ∧ s.fab.ep.funcMask = false ∧ v ∈ s.fab.ep.pba ∧ (s.fab.msixEntry v).addr ≠ 0) ∧
    (∃ (s : State) (v : Nat), v < 2048 ∧ s.fab.ep.pba = []) ∧
    (∃ (v : Nat), v < 2048) ∧
    (∃ (s : State), s.fab.ep.linkUp = true ∧ s.fab.ep.dstate = .d0 ∧ s.fab.ep.funcMask = false) ∧
    (∃ (s : State), s.fab.ep.mboxHeldCpl = false) :=
   ⟨⟨eps (fun p => { p with pba := [9] }) sE, 9, by decide +kernel⟩,
    ⟨sE, 9, by decide +kernel⟩,
    ⟨3, by decide +kernel⟩,
    ⟨eps (fun p => { p with pba := [3, 9], bme := false }) sE, by decide +kernel⟩,
    ⟨sBox, by decide +kernel⟩⟩

/-- The hypotheses of `Obligations.EndpointErrors` can be met. -/
theorem witness_EndpointErrors :
    (∃ (s : State) (n : Nat), n ∈ s.fab.ep.dmaOut) ∧
    (∃ (s : State) (n : Nat), n ∉ s.fab.ep.dmaOut) ∧
    (∃ (s : State) (n : Nat), n ∈ s.fab.ep.tagQuar) ∧
    (∃ (s : State) (n : Nat), n ∉ s.fab.ep.tagQuar) ∧
    (∃ (s : State) (b : Nat) (n : Nat), b < 24 ∧ n ∈ (s.bay b).rootQuar) ∧
    (∃ (s : State) (b : Nat) (n : Nat), b < 24 ∧ n ∉ (s.bay b).rootQuar) ∧
    (∃ (b : Nat), b < 24) ∧
    (∃ (s : State), s.flag (pgMgmt 0) F.MBOX_CFG_EN = false) ∧
    (∃ (e : AerErr), e = .receiverError ∨ e = .badTlp ∨ e = .badDllp ∨ e = .replayRollover ∨ e = .replayTimeout) ∧
    (∃ (s : State) (e : AerErr), (e = .dlProtocol ∨ e = .poisonedTlp ∨ e = .receiverOverflow ∨ e = .malformedTlp ∨ e = .unsupportedRequest) ∧ e ∉ s.fab.ep.aer.uncMask) :=
   ⟨⟨sRun { run 2 with tag := some 5 } (eps (fun p => { p with dmaOut := [5, 6] }) sE), 5, by decide +kernel⟩,
    ⟨sE, 5, by decide +kernel⟩,
    ⟨eps (fun p => { p with tagQuar := [5, 6] }) sE, 5, by decide +kernel⟩,
    ⟨sE, 5, by decide +kernel⟩,
    ⟨sE.onBay 23 fun v => { v with rootQuar := [4] }, 23, 4, by decide +kernel⟩,
    ⟨sE.onBay 23 fun v => { v with rootQuar := [4] }, 23, 5, by decide +kernel⟩,
    ⟨23, by decide +kernel⟩,
    ⟨eps (fun p => { p with tagQuar := [5, 6] }) sE, by decide +kernel⟩,
    ⟨.badTlp, by decide +kernel⟩,
    ⟨sE, .malformedTlp, by decide +kernel⟩⟩

/-- The hypotheses of `Obligations.Mailbox` can be met. -/
theorem witness_Mailbox :
    (∃ (s : State) (v : BitVec 32), s.get (pgMgmt 0) F.MBOX_STAT_HEAD ≤ v.toNat % 256 ∧ s.mboxSize ≤ v.toNat % 256 - s.get (pgMgmt 0) F.MBOX_STAT_HEAD) ∧
    (∃ (s : State) (v : BitVec 32), s.get (pgMgmt 0) F.MBOX_STAT_HEAD ≤ v.toNat % 256 ∧ v.toNat % 256 - s.get (pgMgmt 0) F.MBOX_STAT_HEAD < s.mboxSize) ∧
    (∃ (s : State) (n : Nat) (r : MboxReq), s.fab.ep.mboxFetch = some n ∧ s.flag (pgMgmt 0) F.MBOX_CFG_EN = true ∧ mboxValid r = true ∧ s.flag pgCmdq F.CMDQ_FW_HOLD = false ∧ r.opcode ≠ 2) ∧
    (∃ (s : State) (n : Nat) (r : MboxReq), s.fab.ep.mboxFetch = some n ∧ s.flag (pgMgmt 0) F.MBOX_CFG_EN = true ∧ mboxValid r = true ∧ s.flag pgCmdq F.CMDQ_FW_HOLD = false ∧ r.opcode = 2 ∧ r.slotBay = s.get (pgMgmt 3) F.FW_STAT_RUNNING_SLOT) ∧
    (∃ (s : State) (n : Nat) (r : MboxReq), s.fab.ep.mboxFetch = some n ∧ s.flag (pgMgmt 0) F.MBOX_CFG_EN = true ∧ mboxValid r = true ∧ s.flag pgCmdq F.CMDQ_FW_HOLD = true) ∧
    (∃ (s : State) (n : Nat) (r : MboxReq), s.fab.ep.mboxFetch = some n ∧ s.flag (pgMgmt 0) F.MBOX_CFG_EN = true ∧ mboxValid r = false) ∧
    (∃ (s : State) (m : MboxRun), s.fab.ep.mbox = some m ∧ m.executed = false ∧ m.held = false ∧ m.req.opcode = 1 ∧ m.orphan = false ∧ s.fab.canPost = true) ∧
    (∃ (s : State) (m : MboxRun), s.fab.ep.mbox = some m ∧ m.executed = false ∧ m.held = false ∧ m.req.opcode = 2 ∧ m.orphan = false) ∧
    (∃ (s : State) (m : MboxRun) (e : Bool) (f : Bool), s.fab.ep.mbox = some m ∧ m.executed = false ∧ m.held = false ∧ m.req.opcode = 2 ∧ m.orphan = false ∧ (e = true ∨ f = true)) ∧
    (∃ (s : State) (m : MboxRun), s.fab.ep.mbox = some m ∧ m.executed = false ∧ m.held = false ∧ m.req.opcode = 3 ∧ m.orphan = false ∧ m.req.dataLen ≠ 0 ∧ s.fab.canPost = true) ∧
    (∃ (s : State) (m : MboxRun), s.fab.ep.mbox = some m ∧ m.executed = false ∧ m.held = false ∧ m.req.opcode = 4 ∧ s.owned = false) ∧
    (∃ (s : State) (m : MboxRun) (ack : Bool), s.fab.ep.mbox = some m ∧ m.executed = false ∧ m.held = false ∧ m.req.opcode = 4 ∧ s.owned = true ∧ ack = false) ∧
    (∃ (s : State) (m : MboxRun) (ack : Bool), s.fab.ep.mbox = some m ∧ m.executed = false ∧ m.held = false ∧ m.req.opcode = 4 ∧ s.owned = true ∧ ack = true ∧ m.orphan = false ∧ m.req.rlen ≠ 0 ∧ s.fab.canPost = true) ∧
    (∃ (s : State) (m : MboxRun), s.fab.ep.mbox = some m ∧ m.executed = true ∧ m.orphan = false ∧ s.fab.canPost = true) ∧
    (∃ (s : State) (m : MboxRun), s.fab.ep.mbox = some m ∧ m.executed = true ∧ m.orphan = false ∧ s.fab.canPost = false) ∧
    (∃ (s : State) (m : MboxRun), s.fab.ep.mbox = some m ∧ m.executed = true ∧ m.orphan = true ∧ s.flag (pgMgmt 0) F.MBOX_CFG_EN = false) :=
   ⟨⟨sBox, 17, by decide +kernel⟩,
    ⟨sBox, 16, by decide +kernel⟩,
    ⟨sFet 0, 5, rq 1, by decide +kernel⟩,
    ⟨(sFet 0).setF (pgMgmt 3) F.FW_STAT_RUNNING_SLOT 1, 5, rq 2, by decide +kernel⟩,
    ⟨sFet 1, 5, rq 2, by decide +kernel⟩,
    ⟨sFet 0, 5, rq 9, by decide +kernel⟩,
    ⟨sRun (run 1) sBox, run 1, by decide +kernel⟩,
    ⟨sRun { run 2 with req := { rq 2 with dataLen := 4 } } sBox, { run 2 with req := { rq 2 with dataLen := 4 } }, by decide +kernel⟩,
    ⟨sRun { run 2 with req := { rq 2 with dataLen := 4 } } sBox, { run 2 with req := { rq 2 with dataLen := 4 } }, false, true, by decide +kernel⟩,
    ⟨sRun { run 3 with req := { rq 3 with dataLen := 4 } } sBox, { run 3 with req := { rq 3 with dataLen := 4 } }, by decide +kernel⟩,
    ⟨sRun (run 4) sBox, run 4, by decide +kernel⟩,
    ⟨(sRun (run 4) sBox).setF pgPair F.PAIR_STAT_OWN 1, run 4, false, by decide +kernel⟩,
    ⟨(sRun (run 4) sBox).setF pgPair F.PAIR_STAT_OWN 1, run 4, true, by decide +kernel⟩,
    ⟨sRun (dn (run 4)) sBox, dn (run 4), by decide +kernel⟩,
    ⟨eps (fun p => { p with bme := false }) (sRun (dn (run 4)) sBox), dn (run 4), by decide +kernel⟩,
    ⟨e0 F.MBOX_CFG_EN 0 (sRun { dn (run 4) with orphan := true } sBox), { dn (run 4) with orphan := true }, by decide +kernel⟩⟩

/-- The hypotheses of `Obligations.EventRings` can be met. -/
theorem witness_EventRings :
    (∃ (s : State) (n : Nat) (ty : Nat), n < 4 ∧ 1 ≤ ty ∧ ty ≤ 7 ∧ s.isOn (pgMgmt 0) = true ∧ s.flag (pgMgmt 0) (F.EVR_CFG_EN.idx n) = true ∧ bitAt (s.get (pgMgmt 0) (F.EVR_CFG_TYPE_MASK.idx n)) ty = true ∧ ((∀ m : Nat, m < 4 → m ≠ n → s.flag (pgMgmt 0) (F.EVR_CFG_EN.idx m) = false)) ∧ s.fab.canPost = true ∧ s.fab.ringFull n = false ∧ (s.fab.ring n).held = [] ∧ s.get (pgMgmt 0) (F.EVR_STAT_LOST.idx n) = 0) ∧
    (∃ (s : State) (n : Nat) (ty : Nat), n < 4 ∧ 1 ≤ ty ∧ ty ≤ 7 ∧ s.isOn (pgMgmt 0) = true ∧ s.flag (pgMgmt 0) (F.EVR_CFG_EN.idx n) = true ∧ bitAt (s.get (pgMgmt 0) (F.EVR_CFG_TYPE_MASK.idx n)) ty = true ∧ ((∀ m : Nat, m < 4 → m ≠ n → s.flag (pgMgmt 0) (F.EVR_CFG_EN.idx m) = false)) ∧ (s.fab.canPost = false ∨ s.fab.ringFull n = true) ∧ (s.fab.ring n).held.length < 64) ∧
    (∃ (s : State) (n : Nat) (ty : Nat), n < 4 ∧ 1 ≤ ty ∧ ty ≤ 7 ∧ s.isOn (pgMgmt 0) = true ∧ s.flag (pgMgmt 0) (F.EVR_CFG_EN.idx n) = true ∧ bitAt (s.get (pgMgmt 0) (F.EVR_CFG_TYPE_MASK.idx n)) ty = true ∧ ((∀ m : Nat, m < 4 → m ≠ n → s.flag (pgMgmt 0) (F.EVR_CFG_EN.idx m) = false)) ∧ (s.fab.canPost = false ∨ s.fab.ringFull n = true) ∧ 64 ≤ (s.fab.ring n).held.length) ∧
    (∃ (s : State), (∀ n : Nat, n < 4 → s.flag (pgMgmt 0) (F.EVR_CFG_EN.idx n) = false)) ∧
    (∃ (s : State) (n : Nat) (v : BitVec 32), n < 4 ∧ s.isLive (pgMgmt 0) = true ∧ s.fab.canPost = true ∧ s.fab.ep.pba = [] ∧ (s.fab.ring n).held = [] ∧ s.get (pgMgmt 0) (F.EVR_STAT_LOST.idx n) ≠ 0 ∧ ((∀ m : Nat, m < 4 → m ≠ n → s.get (pgMgmt 0) (F.EVR_STAT_LOST.idx m) = 0 ∧ (s.fab.ring m).held = [])) ∧ (s.fab.ringTail n + 1) % s.fab.ringSize n ≠ v.toNat % 4096 % s.fab.ringSize n) ∧
    (∃ (s : State) (n : Nat), n < 4 ∧ s.fab.canPost = false) ∧
    (∃ (s : State) (n : Nat), n < 4 ∧ s.fab.canPost = false) :=
   ⟨⟨e0 (F.EVR_HEAD_HEAD.idx 1) 5 <| e0 (F.EVR_STAT_TAIL.idx 1) 255 (hd 0 sRing), 1, 2, by decide +kernel⟩,
    ⟨eps (fun p => { p with bme := false }) (hd 63 sRing), 1, 2, by decide +kernel⟩,
    ⟨eps (fun p => { p with bme := false }) (hd 64 sRing), 1, 2, by decide +kernel⟩,
    ⟨sE, by decide +kernel⟩,
    ⟨e0 (F.EVR_STAT_LOST.idx 1) 4 (e0 (F.EVR_STAT_TAIL.idx 1) 255 (hd 0 sRing)), 1, 1, by decide +kernel⟩,
    ⟨State.reset, 3, by decide +kernel⟩,
    ⟨hd 2 (on (pgMgmt 0) State.reset), 1, by decide +kernel⟩⟩

end Ep

namespace Pwr
def isl (g : IslandSt → IslandSt) (s : State) : State := s.onIsland g
def sUp : State := isl (fun i => { i with inPor := false, ownIn := true, health := 5 }) (on pgXprt State.reset)
def sArm : State := ((on pgJrnl sUp).setF pgPair F.PAIR_STAT_OWN 1).setF (pgPool 1) F.POOL_CFG_DEFINED 1
def sDirt : State := ((((sUp.onFab (Fab.setReg 0x0F001000 77)).onFab (Fab.setReg 0x0F009000 78)).onFab (Fab.setTab pgTmgr true 3 7 5)).setF pgDev F.EPOCH_EPOCH 41).onPol fun p => { p with flash := ⟨[(4, 5)]⟩ }

/-- The hypotheses of `Obligations.PowerAndReset` can be met. -/
theorem witness_PowerAndReset :
    (∃ (s : State), (∀ b : Nat, b < 24 → s.get (pgBayp b) F.BAY_PWR_STAT_CH ≠ 5)) ∧
    (∃ (s : State) (b : Nat), b < 24 ∧ s.get (pgBayp b) F.BAY_PWR_STAT_CH = 5) ∧
    (∃ (s : State), s.pair.island.inPor = true ∧ s.pair.island.fenced = false ∧ ((∀ i : Nat, i < 4 → (s.fab.page (pgMgmt i)).state = .off))) ∧
    (∃ (s : State), s.pair.island.inPor = true ∧ s.pair.island.fenced = true) ∧
    (∃ (s : State), s.pair.island.inPor = false) ∧
    (∃ (s : State), s.pair.island.running = true ∧ s.pair.island.inPor = false ∧ s.pair.island.tripped = false ∧ s.get pgJrnl F.JRNL_SAVE_STAT_PHASE = 0 ∧ s.armed = false) ∧
    (∃ (s : State), s.pair.island.running = true ∧ s.pair.island.inPor = false ∧ s.pair.island.tripped = false ∧ (s.get pgJrnl F.JRNL_SAVE_STAT_PHASE = 1 ∨ s.get pgJrnl F.JRNL_SAVE_STAT_PHASE = 2)) ∧
    (∃ (s : State), s.pair.island.running = true ∧ s.pair.island.inPor = false ∧ s.pair.island.tripped = false ∧ s.get pgJrnl F.JRNL_SAVE_STAT_PHASE = 0 ∧ s.armed = true ∧ s.fwPhase = 0) ∧
    (∃ (s : State), s.pair.island.running = false ∨ s.pair.island.inPor = true ∨ s.pair.island.tripped = true) :=
   ⟨⟨isl (fun i => { i with ownOut := true, thermTrip := true, tripped := true, fenced := true }) sDirt, by decide +kernel⟩,
    ⟨sDirt.setF (pgBayp 23) F.BAY_PWR_STAT_CH 5, 23, by decide +kernel⟩,
    ⟨State.reset, by decide +kernel⟩,
    ⟨isl (fun i => { i with inPor := true, fenced := true }) sDirt, by decide +kernel⟩,
    ⟨sUp, by decide +kernel⟩,
    ⟨isl (fun i => { i with ownOut := true }) sDirt, by decide +kernel⟩,
    ⟨sUp.setF pgJrnl F.JRNL_SAVE_STAT_PHASE 2, by decide +kernel⟩,
    ⟨sArm, by decide +kernel⟩,
    ⟨State.reset, by decide +kernel⟩⟩

end Pwr

end Sys2Proof.Tests
end

section
/-!
SUPPORT. The BAR2 counter window (R52, R53, R55): where the slot of a counter stands, what a read of its lower half answers, and that a write
of BAR2 does nothing. Settles O5.
-/
namespace Sys2Proof.Machine
open Sys2Proof

theorem mem_allPages {p : Page} : p ∈ allPages ↔ p.blk ∈ allBlks ∧ p.inst < p.blk.instances := by
  obtain ⟨b, i⟩ := p
  simp [allPages]

/-- The bounds of Table 2.2 that a BAR2 address rests on. -/
theorem allBlks_bounds : ∀ b ∈ allBlks, 1 ≤ b.idx ∧ b.idx ≤ 16 ∧ b.instances ≤ 80 := by decide

theorem allBlks_find_idx : ∀ b ∈ allBlks, (allBlks.find? fun c => decide (c.idx = b.idx)) = some b := by decide

/-- The BAR2 offset of counter `k` of a page (R52). -/
def bar2Addr (p : Page) (k : Nat) : Nat := (p.blk.idx - 1) * 0x10000 + p.inst * 0x40 + k * 8

theorem bar2Addr_aligned (p : Page) (k : Nat) : bar2Addr p k % 8 = 0 := by
  unfold bar2Addr
  omega

theorem bar2Addr_lt {p : Page} {k : Nat} (hp : p ∈ allPages) (hk : k < 8) : bar2Addr p k < 0x100000 := by
  obtain ⟨hb, hi⟩ := mem_allPages.1 hp
  obtain ⟨hpos, hmax, hinst⟩ := allBlks_bounds p.blk hb
  unfold bar2Addr
  omega

/-- The slot at a counter's BAR2 offset is that counter's. -/
theorem bar2Slot_bar2Addr {p : Page} {k : Nat} (hp : p ∈ allPages) (hk : k < 8) : bar2Slot (bar2Addr p k) = some (p, k) := by
  obtain ⟨hb, hi⟩ := mem_allPages.1 hp
  obtain ⟨hpos, -, hinst⟩ := allBlks_bounds p.blk hb
  have hblk : bar2Addr p k / 0x10000 + 1 = p.blk.idx := by unfold bar2Addr; omega
  have hpage : bar2Addr p k % 0x10000 / 0x40 = p.inst := by unfold bar2Addr; omega
  have hcnt : bar2Addr p k % 0x40 / 8 = k := by unfold bar2Addr; omega
  unfold bar2Slot
  rw [hblk, allBlks_find_idx p.blk hb, hpage, hcnt]
  exact if_pos hi

/-- A slot holds its counter while `CNT_SEL.USER` is 1, and reads 0 otherwise (R53). -/
theorem State.bar2Word_bar2Addr (s : State) {p : Page} {k : Nat} (hp : p ∈ allPages) (hk : k < 8) :
    s.bar2Word (bar2Addr p k) = if getBits (s.fab.reg (p.base + 0x200 + 4 * k)) 13 1 = 1 then (s.fab.cnt p k).toNat else 0 := by
  unfold State.bar2Word
  rw [bar2Slot_bar2Addr hp hk]

theorem State.barAccess_of_open {s : State} {rq : Requester} (h : s.barOpen rq = true) (g : State → State) : s.barAccess rq g = g s :=
  if_pos h

theorem State.barOpen_of_d0 {s : State} (h : s.fab.ep.dstate = .d0) (rq : Requester) : s.barOpen rq = true := by
  simp [State.barOpen, h]

/-- A read of the lower half of a BAR2 slot answers its low 32 bits to management software (R55, R696). -/
theorem State.lowerRead_bar2_out (s : State) {a : Nat} (hal : a % 8 = 0) (hlt : a < 0x100000) :
    (s.lowerRead .mgmt .bar2 a).fab.out.head? = some (.readData .mgmt a (s.bar2Word a % 2 ^ 32)) := by
  unfold State.lowerRead
  simp only [hal, hlt, and_self, if_true, State.emit_fab, Fab.emit_out, List.head?_cons]

/-- No event meets a write that brings none with it (R61). -/
theorem State.metEvent_zero (s : State) (rq : Requester) (bar : Bar) (a : Nat) (wide poisoned : Bool) :
    s.metEvent rq bar a wide poisoned 0 = s := by
  unfold State.metEvent
  split
  · rfl
  · exact if_pos (.inl rfl)

/-- Writes of BAR2 are ignored (R53). -/
theorem State.barWrite_bar2 (s : State) (rq : Requester) (a : Nat) (wide : Bool) (v : BitVec 64) (poisoned : Bool) :
    s.barWrite rq .bar2 a wide v poisoned = s := rfl

end Sys2Proof.Machine

open Sys2Proof Sys2Proof.Machine

/-- Settles O5: a counter's BAR2 offset decodes to its page and number, so the read answers that counter behind `USER`; a BAR2 write takes the
arm of `barWrite` that returns the state. -/
theorem counterWindow : Obligations.CounterWindow := by
  refine ⟨fun s p k hp hk => s.bar2Word_bar2Addr hp hk, fun s p k hd hp hk => ?_, fun s rq a w v hopen => ?_⟩
  · refine ⟨s.lowerRead .mgmt .bar2 (bar2Addr p k), ?_, s.lowerRead_bar2_out (bar2Addr_aligned p k) (bar2Addr_lt hp hk)⟩
    exact congrArg Host.Outcome.next (State.barAccess_of_open (State.barOpen_of_d0 hd .mgmt) _)
  · refine ⟨s, congrArg Host.Outcome.next ?_, rfl⟩
    rw [State.barAccess_of_open hopen, State.metEvent_zero, State.barWrite_bar2]
end

section
/-!
SUPPORT. A write of several swap bits (R82), and an event ring whose overflow takes page MGMT 0 out of ON (R677, R715). Refutes O6.
-/
namespace Sys2Proof.Machine
open Sys2Proof

/-- A write of `SWAP_CTL` that sets several of its bits, with no swap busy, on a controller that is not the standby (R82). -/
theorem State.swapCtl_several {s : State} (hbusy : s.swapBusy = false) (hstandby : s.isStandby = false) {w : Nat}
    (hw : w % 8 = 3 ∨ 5 ≤ w % 8) : s.swapCtl w = s.swapRejected 0x0006 .dev 0 0 := by
  have hopen : ¬(s.isStandby = true ∨ s.swapBusy = true) := by simp [hbusy, hstandby]
  unfold State.swapCtl
  rw [if_neg (by omega), if_neg hopen]
  split
  case h_4 => rfl
  all_goals omega

theorem exec_swapCtlMulti {s : State} (hbusy : s.swapBusy = false) (hstandby : s.isStandby = false) {g r y : Bool}
    (hbits : 2 ≤ boolNat g + boolNat r + boolNat y) : exec (.swapCtlMulti g r y) s = .next (s.swapRejected 0x0006 .dev 0 0) := by
  have hw : ∀ g r y : Bool, 2 ≤ boolNat g + boolNat r + boolNat y →
      (boolNat g + 2 * boolNat r + 4 * boolNat y) % 8 = 3 ∨ 5 ≤ (boolNat g + 2 * boolNat r + 4 * boolNat y) % 8 := by decide
  exact congrArg Host.Outcome.next (State.swapCtl_several hbusy hstandby (hw g r y hbits))

/-- An event ring of page MGMT 0 is enabled for the swap-rejected record (type 2). -/
def Fab.ringForRejects (n : Nat) (f : Fab) : Fab :=
  (f.setF (pgMgmt 0) (F.EVR_CFG_EN.idx n) 1).setF (pgMgmt 0) (F.EVR_CFG_TYPE_MASK.idx n) 0x84

/-- A source's severity is programmed FATAL (R677). -/
def Fab.makeFatal (x : Src) (f : Fab) : Fab :=
  f.setReg (sevAddr x.page x.loc) (setBits (f.reg (sevAddr x.page x.loc)) (2 * (x.loc % 16)) 2 2)

/-- page MGMT 0 is ON and can post to the host. Ring 0 is full, holds 64 records on die and has lost none yet, and the source that its
first loss raises, `MGMT.EVRING_OVF`, is FATAL. Ring 1 is open and empty. -/
def overflowFatal : State := State.reset.onFab fun f =>
  let posting : Fab := { f.setPage (pgMgmt 0) { state := .on } with ep := { f.ep with linkUp := true, bme := true } }
  let rings := (posting.ringForRejects 0).ringForRejects 1
  let full := (rings.setF (pgMgmt 0) (F.EVR_HEAD_HEAD.idx 0) 1).setRing 0 { seq := 256, held := List.replicate 64 ⟨2, 0, 0⟩ }
  full.makeFatal S.MGMT_EVRING_OVF

/-- Ring 1 meets every condition under which O6 promises it the record. -/
theorem overflowFatal_ring1 : overflowFatal.isOn (pgMgmt 0) = true ∧ overflowFatal.flag (pgMgmt 0) (F.EVR_CFG_EN.idx 1) = true ∧
    bitAt (overflowFatal.get (pgMgmt 0) (F.EVR_CFG_TYPE_MASK.idx 1)) 2 = true ∧ overflowFatal.fab.ringOpen 1 = true ∧
    (overflowFatal.fab.ring 1).held = [] ∧ overflowFatal.get (pgMgmt 0) (F.EVR_STAT_LOST.idx 1) = 0 ∧
    overflowFatal.fab.severity S.MGMT_SWAP_REJECT ≠ 2 := by decide +kernel

/-- Ring 0 drops the rejection's record, its overflow takes page MGMT 0 to FAILED (R677), and so no later ring writes the record. -/
theorem overflowFatal_rejected :
    (overflowFatal.swapRejected 0x0006 .dev 0 0).get (pgMgmt 0) (F.EVR_STAT_LOST.idx 0) = 1 ∧
    ((overflowFatal.swapRejected 0x0006 .dev 0 0).fab.page (pgMgmt 0)).state = .failed ∧
    (overflowFatal.swapRejected 0x0006 .dev 0 0).fab.out = [] := by decide +kernel

end Sys2Proof.Machine

open Sys2Proof Sys2Proof.Machine

/-- Refutes O6: the rings get the record in order, and ring 0's overflow of a FATAL `MGMT.EVRING_OVF` fails page MGMT 0 before the open and
empty ring 1 takes it; O6 bounds the severity of `MGMT.SWAP_REJECT` alone. -/
theorem not_severalSwapBits : ¬ Obligations.SeveralSwapBits := by
  unfold Obligations.SeveralSwapBits
  intro h
  have hbusy : overflowFatal.swapBusy = false := by decide +kernel
  have hstandby : overflowFatal.isStandby = false := by decide +kernel
  have hbits : 2 ≤ boolNat true + boolNat true + boolNat false := by decide
  obtain ⟨t, hexec, -, -, -, -, -, -, -, -, -, hrecord⟩ := h overflowFatal true true false hbits hbusy hstandby
  obtain rfl : overflowFatal.swapRejected 0x0006 .dev 0 0 = t :=
    Host.Outcome.next.inj ((exec_swapCtlMulti hbusy hstandby hbits).symm.trans hexec)
  obtain ⟨-, -, hout⟩ := overflowFatal_rejected
  have hmem := hrecord 1 (by decide) overflowFatal_ring1
  rw [hout] at hmem
  exact List.not_mem_nil hmem
end
